-- ==== Sys2Proof/Word.lean ====
section
/-! DEFINITION. The word types of the SNK-7216. -/

namespace Sys2Proof

/-- A 32-bit word, the unit of OCP packets and of the register window (R75, R99). -/
abbrev Word := BitVec 32

/-- A DT instant or a 64.32 fixed-point quantity: 64 whole bits over 32 fraction bits (R36, R179). -/
abbrev Fix := BitVec 96

end Sys2Proof
end

