-- ==== Sys2Proof/Syntax.lean ====
section
/-! DEFINITION. The commands the block takes: OCP requests, loop-engine instructions and events (the rows of
the table of operations and events). -/

namespace Sys2Proof

/-- A request packet after its transport has delivered it (R75): word 0's fields, the sequence number, the target,
the target pour words of a STAGED packet (none when the packet is too short to hold them) and the parameter words.
The opcode is the constructor that carries the packet. -/
structure Packet where
  /-- Session number: 0 PCIe, 1 SPI, 2 to 9 UDP, 16 to 79 tunnel (R70, R101). -/
  session : Fin 80
  /-- Word 0 [31:28]. -/
  version : BitVec 4
  /-- Word 0 [24]. -/
  staged : Bool
  /-- Word 0 [25]. -/
  priority : Bool
  /-- Word 0 [26]. -/
  chained : Bool
  /-- Word 0 [23:16], 0 in a well-formed request. -/
  zeros : BitVec 8
  /-- Word 1. -/
  seq : Word
  /-- Word 2 [15:0]. -/
  target : BitVec 16
  /-- Words 3 and 4 of a STAGED packet. -/
  pour : Option (BitVec 64)
  /-- The parameter words. -/
  params : List Word
deriving DecidableEq, Repr

/-- A master value as a slot's receive FIFO presents it (R124, R152, R169). -/
structure MasterSample where
  /-- Sample pour number [15:0]. -/
  pour : BitVec 16
  /-- Position, 64.32. -/
  pos : BitVec 96
  valid : Bool
  /-- SLOT_CRC of the carrying slot good. -/
  crcOk : Bool
  stopping : Bool
  uncertain : Bool
deriving DecidableEq, Repr

/-- A pour or time frame as it arrives at a port (R121 to R124, R127): the 32-bit words from the header on, each with its first
byte in [7:0], and the departure DT of its sender in full, of which the header carries ns [31:0] and the fraction (R40, R117). -/
structure PourFrame where
  words : List Word
  dtFull : BitVec 96
deriving DecidableEq, Repr

/-- What the segment masters report to a domain start (R131, R132). -/
structure DomainChecks where
  complete : Bool
  planMatch : Bool
  anyEnabled : Bool
  capacityOk : Bool
  dOk : Bool
  locked : Bool
  tConfOk : Bool
  /-- The whole TAI second at the start instant, when the PTP input is locked (R133). -/
  tai : BitVec 64
  /-- TAI - EPOCH_TAI of the start instant, ns and frac. -/
  taiDt : BitVec 96
  /-- n, D and WRAP_CHECK of the start and whether its epoch is valid, as a module other than the grandmaster learns
  them. -/
  exp : BitVec 3
  d : BitVec 4
  wrapCheck : Bool
  epochValid : Bool
  /-- As the members of the segment report them, by ring position: LINK_DELAY of the link to the east in ps, and the clock
  code of R313 of the slowest engine (R131). -/
  delays : List Nat
  clocks : List Nat
deriving DecidableEq, Repr

/-- An acyclic fragment (R137). -/
structure Fragment where
  /-- Module it is addressed to. -/
  dest : BitVec 64
  /-- 0 tunnel packet, 1 forwarded event, 2 firmware. -/
  kind : Fin 3
  words : List Word
deriving DecidableEq, Repr

/-- What an identification run measured (R381), the results in table order. -/
structure IdentOutcome where
  offset : Word
  rs : Word
  ld : Word
  lq : Word
  psi : Word
  ka : Word
  kb : Word
  kf : Word
deriving DecidableEq, Repr

/-- What a coil measurement read (R405): the mean voltage and current of the last quarter of T_MEAS (float32, V and A)
and the time at which the current reached 0.632 of that mean (float32, s). -/
structure CoilMeasure where
  volts : Word
  amps : Word
  tau : Word
deriving DecidableEq, Repr


/-- A field I/O frame as it arrives on the logic side (R509 to R522). -/
structure FioFrame where
  /-- Raw land levels, current limits acting, reverse-current comparators. -/
  raw : BitVec 24
  limit : BitVec 24
  reverse : BitVec 24
  /-- VIN in mV and the sum of the output currents of each group in mA. -/
  vin : BitVec 16
  current : Vector (BitVec 16) 3
deriving DecidableEq, Repr

/-- A CAN frame that its receiver holds valid (R536, R537). -/
structure CanFrame where
  /-- [28:0] identifier, [29] IDE, [30] FDF, [31] RTR, as a filter word. -/
  ident : Word
  dlc : BitVec 4
  brs : Bool
  esi : Bool
  data : List (BitVec 8)
  /-- DT ns of the start-of-frame edge. -/
  sof : BitVec 64
deriving DecidableEq, Repr

/-- What a sleeping controller sees (R539). -/
inductive CanWake where
  /-- A dominant level of this length in ns. -/
  | edge (ns : Nat)
  | frame (f : CanFrame)
  /-- A frame that carries an error. -/
  | error
deriving DecidableEq, Repr

/-- One master entry of a ring's slots, as the plan lays it out (R113, R124): who publishes it and under which index; in this
module's own slot, the axis published, or on a bridge the writer and entry of the other ring that it forwards. -/
structure EntryPlan where
  publisher : BitVec 64
  index : Nat
  axis : Option (Fin 112) := none
  source : Option (Nat × Nat) := none
deriving DecidableEq, Repr

/-- The slot of one ring position (R123): its master entries, and its cyclic data in words. -/
structure SlotPlan where
  entries : List EntryPlan
  cyc : Nat
deriving DecidableEq, Repr

/-- A publisher and follower pair (R129): bridges crossed, and in the follower's segment the ring position whose slot carries
the entry and that of the follower. -/
structure PlanPair where
  bridges : Nat
  writer : Nat
  reader : Nat
deriving DecidableEq, Repr

/-- One ring of the slot plan as this module stands in it (R109, R110). -/
structure RingPlan where
  segNum : BitVec 4 := 0
  pos : BitVec 7 := 0
  n : BitVec 7 := 0
  west : Option (Fin 4) := none
  east : Option (Fin 4) := none
  /-- The slots in ring-position order. -/
  slots : List SlotPlan := []
  pairs : List PlanPair := []
  /-- Module ID of the bridge that masters a child segment (R112). -/
  bridgeId : BitVec 64 := 0
deriving DecidableEq, Repr

/-- The slot plan in force (R109, R123, R126 to R130, R152): the ring of this module's segment, and on a bridge the ring of the
child segment that it masters. -/
structure Plan where
  crc : Word := 0
  /-- t_conf in ns (R152). -/
  tConf : Nat := 4000
  own : RingPlan := {}
  child : Option RingPlan := none
deriving DecidableEq, Repr

/-- What a committed configuration image decodes to (R93, R314, R574): its format is not in the spec, so the settings
it carries come decoded. -/
structure ConfigImage where
  /-- KETTLE_CLASS: true F. -/
  classF : Bool
  /-- LK and ST fields: window address and word. -/
  writes : List (BitVec 32 × Word)
  /-- Engine images: engine and words (R313). -/
  engines : List (Fin 32 × List Word)
  /-- Axis driven by each host input record (R104). -/
  recAxis : List (BitVec 8)
  plan : Option Plan
  /-- Election priority, and the capabilities master, bridge, grandmaster (R111, R115). -/
  priority : BitVec 8
  roles : Bool × Bool × Bool
  /-- Segment map: commissioned module ID and code hash of each ring position (R134, R136). -/
  map : Option (List (BitVec 64 × BitVec 256))
  /-- Tiles configured with a power stage, and the same map for the child segment of a bridge (R115, R134). -/
  population : BitVec 16
  childMap : Option (List (BitVec 64 × BitVec 256))
deriving DecidableEq, Repr

/-- The commands of the block: one constructor per row of the table of operations and events.
A row with an OCP opcode carries the request packet; a loop-engine instruction carries its engine and operands;
an event carries the unit it happens at and what the outside supplies. -/
inductive Instr where
  /-- POUR_POINT (R55): At each pour point the module swaps due staged sets, takes tile shadows, swaps slot buffers and starts the work of the new pour cycle. -/
  | pourPoint
  /-- STAGING_CUTOFF (R59): At 5 us before a pour, eligibility closes, host cyclic inputs are taken and settings re-steeps are made. -/
  | stagingCutoff
  /-- CONFIRMATION_DEADLINE (R166): At the confirmation deadline a slot whose value has not arrived applies its late-pour policy. -/
  | confirmationDeadline (s : Fin 32)
  /-- MASTER_LOST (R167): After N_late consecutive late pours the slot enters LOST and raises MASTER_LOST. -/
  | masterLost (s : Fin 32)
  /-- RIDE_THROUGH_END (R167): T_ride expiring in LOST moves the slot to STOPPED and ramps its direct followers to standstill. -/
  | rideThroughEnd (s : Fin 32)
  /-- SLOT_ARMED (R170): After 1 to 3 consecutive on-time samples an ARMING slot enters ARMED and starts counting. -/
  | slotArmed (s : Fin 32)
  /-- MASTER_ENTRY_ARRIVAL (R155): An arriving master entry is used directly, corrected by delta, or triggers a re-steep according to its residual. -/
  | masterEntryArrival (s : Fin 32) (m : MasterSample)
  /-- RESTEEP_END (R158): A re-steep finishes and is poured, or is abandoned at its limit and the corrected values are poured as overrun. -/
  | resteepEnd (s : Fin 32)
  /-- COMPARE_FIRE (R48): A compare unit fires at the first edge at or after its target and performs its log, Geyser, PWM resync and interrupt actions. -/
  | compareFire (u : Fin 16)
  /-- PPS_EDGE (R52): A pulse output places its scheduled leading or trailing edge, or skips it under SUPPRESS while unlocked. -/
  | ppsEdge (n : Fin 8)
  /-- HOLDOVER_ENTRY (R39): No valid measurement for 4 consecutive pour cycles while LOCKED moves the time unit to HOLDOVER. -/
  | holdoverEntry
  /-- HOLDOVER_EXPIRED (R43): HOLDOVER lasting longer than T_hold raises HOLDOVER_EXPIRED. -/
  | holdoverExpired
  /-- TIME_LOCKED (R39): 64 consecutive measurements within 2 ns move the time unit to LOCKED. -/
  | timeLocked
  /-- TIME_UNLOCKED (R41): 4 consecutive measurements beyond 8 ns return LOCKED to ACQUIRE without loading DT. -/
  | timeUnlocked
  /-- PTP_MESSAGE_RECEIVE (R47): A PTP message on the grandmaster's port disciplines DT rate and steers toward TAI. -/
  | ptpMessageReceive (eth : Fin 2) (domain : BitVec 8) (rate : BitVec 32) (offset : BitVec 32) (tai : BitVec 64) (locked : Bool)
  /-- PTP_LOST (R47): No PTP messages for 3 announce intervals raises PTP_LOST and the grandmaster enters HOLDOVER. -/
  | ptpLost
  /-- TIME_READ (R66): Returns DT, time unit state and pour number. -/
  | timeRead (p : Packet)
  /-- TIME_STATUS (R66): Returns state word, offset, rate, temperature term and counters. -/
  | timeStatus (p : Packet)
  /-- TIME_SOURCE_SET (R66): Sets the grandmaster's time source, refused on other modules. -/
  | timeSourceSet (p : Packet)
  /-- PTP_CONFIG (R66): Configures PTP transport, delay mechanism, domain and intervals on an Ethernet port. -/
  | ptpConfig (p : Packet)
  /-- TIME_POLICY_SET (R66): Sets classes of time events and T_hold. -/
  | timePolicySet (p : Packet)
  /-- COMPARE_ARM (R49): Arms a compare unit after window, past and local-tile checks, replacing any existing arm. -/
  | compareArm (p : Packet)
  /-- COMPARE_CANCEL (R66): Ends an armed compare unit and returns its firing count. -/
  | compareCancel (p : Packet)
  /-- PPS_CONFIG (R52): Configures a pulse output start, period, width, polarity and policies. -/
  | ppsConfig (p : Packet)
  /-- PPS_STOP (R66): Stops a pulse output and returns its edge count. -/
  | ppsStop (p : Packet)
  /-- POUR_STATUS (R66): Returns L, D, pour number and pending staging. -/
  | pourStatus (p : Packet)
  /-- TIME_RELOAD (R45): Reloads DT on an unlocked non-grandmaster with no synchronised axis enabled, cancelling compares and pulse outputs. -/
  | timeReload (p : Packet)
  /-- WIDE_READ_CAPTURE (R21): A read of the least significant word of a wide value captures the upper words for consistent later reads. -/
  | wideReadCapture (addr : BitVec 32) (bytes : Nat)
  /-- REGISTER_WRITE (R100): A window write to a register without its own row takes effect only on WO, W1C, DW, RW transport fields and host input areas. -/
  | registerWrite (addr : BitVec 32) (v : Word) (bytes : Nat)
  /-- EVENT_FABRIC_ARRIVAL (R29): An event record reaches the fabric crossing and merger, feeding interrupts and triggers and starting its hold. -/
  | eventFabricArrival
  /-- EVENT_HOLD_EXPIRY (R29): An event held T_hold after its timestamp enters the log in timestamp order. -/
  | eventHoldExpiry
  /-- FORWARDED_EVENT_RECEIVE (R31): An event forwarded from another module is delivered to the host with increased uncertainty. -/
  | forwardedEventReceive (origin : BitVec 64) (rec : List Word)
  /-- EVENT_PUSH (R90): The module sends a push packet of event records to a subscribed session, or drops it whole when no room. -/
  | eventPush (session : Fin 80)
  /-- REQ_DOORBELL (R72): A request doorbell write makes the module read request slots by DMA and accept or discard each packet. -/
  | reqDoorbell (prod : BitVec 16) (slots : List (List Word))
  /-- RSP_DOORBELL (R72): A reply doorbell write frees reply slots and lets waiting replies be written. -/
  | rspDoorbell (cons : BitVec 16)
  /-- EVT_DOORBELL (R72): An event doorbell write frees event ring slots for pushes. -/
  | evtDoorbell (cons : BitVec 16)
  /-- SPI_WINDOW_WRITE (R73): An SPI window write frame writes words to auto-incrementing addresses. -/
  | spiWindowWrite (addr : BitVec 32) (data : List Word)
  /-- SPI_WINDOW_READ (R73): An SPI window read frame returns words from auto-incrementing addresses. -/
  | spiWindowRead (addr : BitVec 32) (n : Nat)
  /-- SPI_PACKET_WRITE (R73): An SPI packet write frame delivers one packet, discarded if its length does not match. -/
  | spiPacketWrite (words : List Word)
  /-- SPI_REPLY_READ (R73): An SPI reply read frame returns the oldest waiting reply or push. -/
  | spiReplyRead
  /-- SPI_STATUS_READ (R73): An SPI status read frame returns free credits, waiting replies and the window error bit. -/
  | spiStatusRead
  /-- UDP_DATAGRAM_RECEIVE (R74): A UDP datagram carrying one packet is filtered by allow list and session limit, then accepted or discarded. -/
  | udpDatagramReceive (eth : Fin 2) (addr : BitVec 32) (port : BitVec 16) (bytes : Nat) (words : List Word)
  /-- SESSION_IDLE_TIMEOUT (R70): A UDP or tunnel session idle for 10 s ends and its open transaction is aborted. -/
  | sessionIdleTimeout (session : Fin 80)
  /-- CHAIN_TIMEOUT (R78): A chained packet whose predecessor is not accepted within 200 us is answered CHAIN_BROKEN. -/
  | chainTimeout (session : Fin 80) (seq : Word)
  /-- PCIE_FUNCTION_RESET (R84): A PCIe function-level or fundamental reset ends the PCIe session. -/
  | pcieFunctionReset
  /-- PCIE_LINK_DOWN (R84): A PCIe link-down ends the PCIe session. -/
  | pcieLinkDown
  /-- TUNNEL_PACKET_RECEIVE (R70): A tunnelled inner packet from another module is taken on that module's tunnel session here. -/
  | tunnelPacketReceive (origin : BitVec 64) (words : List Word)
  /-- TUNNEL_INNER_REPLY (R92): An inner reply returning over Uaxabel becomes the outer reply, or is discarded if late. -/
  | tunnelInnerReply (session : Fin 80) (seq : Word) (words : List Word)
  /-- TUNNEL_TIMEOUT (R92): No inner reply within 100 ms ends the outer TUNNEL with TUNNEL_UNREACHABLE. -/
  | tunnelTimeout (session : Fin 80) (seq : Word)
  /-- IDENTITY_READ (R91): Returns part number, stepping, module ID, firmware and attestation key. -/
  | identityRead (p : Packet)
  /-- ATTEST (R91): Signs a challenge with the module's attestation key. -/
  | attest (p : Packet)
  /-- STATUS_READ (R91): Returns the global status words of the identity block. -/
  | statusRead (p : Packet)
  /-- EVENT_READ (R91): Returns event records from a log index. -/
  | eventRead (p : Packet)
  /-- EVENT_SUBSCRIBE (R91): Replaces the session's push subscription. -/
  | eventSubscribe (p : Packet)
  /-- VAULT_EVENTS_READ (R91): Returns STOP, VENT and HALT events kept in the vault. -/
  | vaultEventsRead (p : Packet)
  /-- ECHO (R91): Returns its parameters unchanged. -/
  | echo (p : Packet)
  /-- COUNTERS_READ (R91): Returns a session's protocol counters. -/
  | countersRead (p : Packet)
  /-- CONFIG_BEGIN (R91): Starts loading a configuration image, discarding any partial one. -/
  | configBegin (p : Packet)
  /-- CONFIG_DATA (R91): Loads words of the configuration image. -/
  | configData (p : Packet)
  /-- CONFIG_COMMIT (R93): Starts checking and applying the configuration image as a class C operation. -/
  | configCommit (p : Packet)
  /-- CONFIG_COMMIT_COMPLETE (R93): The image is applied whole or not at all, LK registers relock and positions are restored from the vault. -/
  | configCommitComplete (img : Option ConfigImage)
  /-- FIRMWARE_BEGIN (R91): Starts loading firmware into a non-running bank. -/
  | firmwareBegin (p : Packet)
  /-- FIRMWARE_DATA (R91): Loads words of a firmware image. -/
  | firmwareData (p : Packet)
  /-- FIRMWARE_ACTIVATE (R91): Starts the signature check of a bank as a class C operation. -/
  | firmwareActivate (p : Packet)
  /-- FIRMWARE_ACTIVATE_COMPLETE (R570): A passed check writes the activation record naming the bank, a failed one ends with IMAGE_INVALID. -/
  | firmwareActivateComplete (sigOk : Bool)
  /-- TUNNEL (R92): Forwards an inner packet over Uaxabel to a named module. -/
  | tunnel (p : Packet)
  /-- NET_CONFIG (R91): Sets IP settings and allow list, ending sessions from disallowed sources. -/
  | netConfig (p : Packet)
  /-- SESSION_RESET (R84): Resets the calling session after its own reply, aborting its transaction and freeing credits. -/
  | sessionReset (p : Packet)
  /-- IMAGE_STREAM_SET (R105): Starts or stops streaming image copies into host memory. -/
  | imageStreamSet (p : Packet)
  /-- HOST_INPUT_POLICY (R91): Sets N_host and the class of HOST_INPUT_LOST. -/
  | hostInputPolicy (p : Packet)
  /-- STAGE_OPEN (R95): Opens a staging transaction on the session. -/
  | stageOpen (p : Packet)
  /-- STAGE_COMMIT (R59): Closes the transaction and submits it as one set, assigning its pour or refusing it. -/
  | stageCommit (p : Packet)
  /-- STAGE_ABORT (R95): Discards the open transaction. -/
  | stageAbort (p : Packet)
  /-- STAGE_STATUS (R98): Returns the open transaction and the session's pending sets. -/
  | stageStatus (p : Packet)
  /-- STAGE_CANCEL (R97): Withdraws a committed set before its cutoff. -/
  | stageCancel (p : Packet)
  /-- STAGE_TIMEOUT (R96): A transaction idle for 1 s is aborted and STAGE_TIMEOUT is raised. -/
  | stageTimeout (session : Fin 80)
  /-- PORT_SIGNAL_CHANGE (R114): Medium detect, loss of signal or lock moves a Uaxabel port toward SYNC or back to DOWN. -/
  | portSignalChange (port : Fin 4) (det los lock sig : Bool)
  /-- PORT_SYNC_LOCK (R114): Comma alignment held for 100 us moves the port to CAPABILITY. -/
  | portSyncLock (port : Fin 4)
  /-- CAPABILITY_RECEIVE (R116): Neighbour capability words are accepted, or CAP_MISMATCH holds the port. -/
  | capabilityReceive (port : Fin 4) (w0 w1 w2 w3 w4 w5 : Word)
  /-- DELAY_REQUEST (R118): Every 64 us a port sends a delay request ordered set. -/
  | delayRequest (port : Fin 4)
  /-- DELAY_RESPONSE_RECEIVE (R118): A delay answer updates LINK_DELAY, completes MEASURE after 16 and may raise DELAY_STEP. -/
  | delayResponseReceive (port : Fin 4) (roundTrip turnaround : Nat)
  /-- SEGMENT_ELECTION (R111): At segment start the lowest-priority capable module is elected segment master. -/
  | segmentElection (candidates : List (BitVec 8 × BitVec 64 × Bool × Bool))
  /-- TIME_FRAME_LAUNCH (R120): Before domain start segment masters send time frames every 62.5 us. -/
  | timeFrameLaunch
  /-- POUR_FRAME_ARRIVAL (R121): A pour frame copy arriving at a port is forwarded, stamped, written with the own slot and its entries delivered. -/
  | pourFrameArrival (port : Fin 4) (f : PourFrame)
  /-- DOMAIN_START (R132): Starts a domain on the grandmaster candidate as a class C operation. -/
  | domainStart (p : Packet)
  /-- DOMAIN_START_COMPLETE (R132): The start ends with OK, fixing L and D and loading DT, or with a failure status. -/
  | domainStartComplete (r : DomainChecks)
  /-- DOMAIN_STOP (R133): Returns the domain to time frames when no axis is enabled. -/
  | domainStop (p : Packet)
  /-- NODE_CHALLENGE (R134): The segment master challenges ring positions at segment start or when an unknown neighbour comes UP. -/
  | nodeChallenge (pos : Fin 65) (runningId : BitVec 64) (nonce : BitVec 256)
  /-- CHALLENGE_RESPONSE (R134): A signed answer is checked against the segment map or acceptance list. -/
  | challengeResponse (pos : Fin 65) (id : BitVec 64) (key : BitVec 512) (sigOk : Bool)
  /-- CHALLENGE_TIMEOUT (R134): No answer within 100 ms fails the node. -/
  | challengeTimeout (pos : Fin 65)
  /-- NODE_ACCEPT (R136): Checks a commissioning code and lifts quarantine, or counts a wrong code. -/
  | nodeAccept (p : Packet)
  /-- ACCEPT_LOCK_EXPIRY (R136): 60 s after the third wrong code NODE_ACCEPT is served again. -/
  | acceptLockExpiry
  /-- FRAGMENT_SEND (R137): A port starts an acyclic fragment when it holds a credit and the gap allows. -/
  | fragmentSend (port : Fin 4) (frag : Fragment)
  /-- FRAGMENT_RECEIVE (R137): An acyclic fragment is received store-and-forward and routed or consumed. -/
  | fragmentReceive (port : Fin 4) (crcOk : Bool) (frag : Fragment)
  /-- CREDIT_RETURN_RECEIVE (R138): A returned credit ordered set restores a sender credit. -/
  | creditReturnReceive (port : Fin 4) (n : Nat)
  /-- AUDIT_RECEIVE (R139): An audit ordered set recovers lost fragments and returns as credits. -/
  | auditReceive (port : Fin 4) (s g : BitVec 16)
  /-- BREAK_DECLARE (R141): A port declares a break within 1 us of loss of signal, lock or code violations and sends a break notice. -/
  | breakDeclare (port : Fin 4) (viols : Nat)
  /-- BREAK_NOTICE_RECEIVE (R143): A break notice is forwarded; the master launches only the east-bound copy from a later pour. -/
  | breakNoticeReceive (port : Fin 4)
  /-- RESTORE_NOTICE_RECEIVE (R145): A restore notice returns the ring to two copies and raises LINK_RESTORED. -/
  | restoreNoticeReceive (port : Fin 4)
  /-- RING_SPLIT (R146): Modules no longer receiving frames from the master raise RING_SPLIT and enter HOLDOVER. -/
  | ringSplit
  /-- LINK_STATUS (R148): Returns a port's status words. -/
  | linkStatus (p : Packet)
  /-- PORT_CONFIG (R148): Sets medium, propagation factor, de-emphasis and delay corrections. -/
  | portConfig (p : Packet)
  /-- SEGMENT_STATUS (R148): Returns segment status words. -/
  | segmentStatus (p : Packet)
  /-- SEGMENT_MAP_READ (R148): Returns commissioned and running IDs of a ring position. -/
  | segmentMapRead (p : Packet)
  /-- PLAN_CHECK (R148): Evaluates D_min, arrivals and capacity for n and D. -/
  | planCheck (p : Packet)
  /-- EVENT_FORWARD_SET (R140): Names the destination and filter of forwarded events. -/
  | eventForwardSet (p : Packet)
  /-- LINK_COUNTERS_CLEAR (R148): Clears port or segment counters. -/
  | linkCountersClear (p : Packet)
  /-- LINK_POLICY_SET (R148): Sets the class of LINK_DOWN. -/
  | linkPolicySet (p : Packet)
  /-- SLOT_CONFIG (R176): Stages a slot's publisher, entry, W, order, policy and limits. -/
  | slotConfig (p : Packet)
  /-- SLOT_ARM (R170): Stages arming of an IDLE slot. -/
  | slotArm (p : Packet)
  /-- SLOT_DISARM (R170): Stages disarming of a slot with no enabled followers. -/
  | slotDisarm (p : Packet)
  /-- SLOT_STATUS (R176): Returns a slot's state, counters and last residual. -/
  | slotStatus (p : Packet)
  /-- MASTER_LEAD_SET (R174): Stages MASTER_LEAD on a follower. -/
  | masterLeadSet (p : Packet)
  /-- SLOT_POLICY_SET (R176): Sets classes of STEEP_OVERRUN and RIDE_THROUGH_END. -/
  | slotPolicySet (p : Packet)
  /-- AXIS_CONFIG (R611): Stages axis kind, modulus, inputs and in-position settings, re-expressing position on a kind change. -/
  | axisConfig (p : Packet)
  /-- AXIS_SCALE_SET (R185): Sets the user-unit scale for later packets. -/
  | axisScaleSet (p : Packet)
  /-- AXIS_LIMITS_SET (R196): Stages new motion maxima, applied per DECEL_CHANGE. -/
  | axisLimitsSet (p : Packet)
  /-- STOP_LIMITS_SET (R197): Stages DEC_STOP and J_STOP for the next stop. -/
  | stopLimitsSet (p : Packet)
  /-- SOFT_LIMITS_SET (R613): Stages soft limits converted and rounded inward. -/
  | softLimitsSet (p : Packet)
  /-- AXIS_ENABLE (R187): Enables an axis at its pour with set-points taken from the actual position. -/
  | axisEnable (p : Packet)
  /-- AXIS_DISABLE (R208): Disables an axis, stopping it first when moving. -/
  | axisDisable (p : Packet)
  /-- MOVE_POSITION (R191): Starts an absolute or relative position move. -/
  | movePosition (p : Packet)
  /-- MOVE_VELOCITY (R191): Starts a move to a signed velocity. -/
  | moveVelocity (p : Packet)
  /-- MOVE_STOP (R193): Ramps the axis to standstill, ending any following source. -/
  | moveStop (p : Packet)
  /-- HOME_CONFIG (R198): Stages homing method and parameters. -/
  | homeConfig (p : Packet)
  /-- HOME_START (R198): Starts homing at its pour. -/
  | homeStart (p : Packet)
  /-- FAULT_CLEAR (R188): Clears FAULT if no STOP-or-stronger condition remains. -/
  | faultClear (p : Packet)
  /-- AXIS_STATUS (R212): Returns axis status, positions, target and counters. -/
  | axisStatus (p : Packet)
  /-- HOME_RESULT (R212): Returns the homing latch and phase. -/
  | homeResult (p : Packet)
  /-- AXIS_POLICY_SET (R212): Sets classes of POS_LIMIT, LIMIT_SWITCH and SOFT_LIMIT. -/
  | axisPolicySet (p : Packet)
  /-- HARD_STOP_DETECT (R202): Low speed at I_HOME for T_HS declares the hard stop of method 9 or 10. -/
  | hardStopDetect (a : Fin 16)
  /-- AXIS_HOLD_EXPIRY (R208): After HOLD_TIME at standstill a fault-origin STOP disables the axis. -/
  | axisHoldExpiry (a : Fin 80)
  /-- IN_POSITION_SET (R612): Set-point at rest and error within window for IN_POS_TIME sets IN_POSITION. -/
  | inPositionSet (a : Fin 80)
  /-- GEAR_SOURCE_SET (R214): Sets the master source of an axis's stage. -/
  | gearSourceSet (p : Packet)
  /-- GEAR_ENGAGE (R226): Starts gear following immediately, at a position or by a ramp. -/
  | gearEngage (p : Packet)
  /-- GEAR_RATIO_SET (R221): Changes a gear ratio at its pour. -/
  | gearRatioSet (p : Packet)
  /-- GEAR_CHANGE_ARM (R222): Queues a ratio change at a master position. -/
  | gearChangeArm (p : Packet)
  /-- GEAR_CHANGE_CANCEL (R222): Empties the change queue. -/
  | gearChangeCancel (p : Packet)
  /-- FOLLOW_DISENGAGE (R228): Ends a gear or cam stage and returns to profile. -/
  | followDisengage (p : Packet)
  /-- FOLLOW_STATUS (R239): Returns following stage registers. -/
  | followStatus (p : Packet)
  /-- CAM_LOAD_BEGIN (R230): Starts loading a cam table. -/
  | camLoadBegin (p : Packet)
  /-- CAM_LOAD_DATA (R230): Loads cam points. -/
  | camLoadData (p : Packet)
  /-- CAM_LOAD_END (R230): Checks a cam table and reports its curvature or failure. -/
  | camLoadEnd (p : Packet)
  /-- CAM_TABLE_STATUS (R234): Returns cam table state and per-segment curvature. -/
  | camTableStatus (p : Packet)
  /-- CAM_ENGAGE (R232): Starts a cam stage with continuous position. -/
  | camEngage (p : Packet)
  /-- CAM_SWAP (R233): Sets a pending cam table swap. -/
  | camSwap (p : Packet)
  /-- REG_CONFIG (R235): Stages a register controller's configuration. -/
  | regConfig (p : Packet)
  /-- REG_ENABLE (R236): Turns a register controller on or off. -/
  | regEnable (p : Packet)
  /-- REG_OFFSET_SET (R237): Sets REG_OFFSET while the controller is not running. -/
  | regOffsetSet (p : Packet)
  /-- REG_STATUS (R239): Returns register controller registers. -/
  | regStatus (p : Packet)
  /-- FOLLOW_POLICY_SET (R239): Sets classes of GEAR_INC_RANGE and MARK_MISSING. -/
  | followPolicySet (p : Packet)
  /-- MARK_MISSING (R237): Master travel of MISS_LIMIT pitches without a measurement holds the controller and raises MARK_MISSING. -/
  | markMissing (a : Fin 80)
  /-- TICK_FIRING (R297): A tick source occurrence fires an entry, which becomes pending or is skipped as an overrun. -/
  | tickFiring (e : Fin 32) (k : Fin 16) (j : Nat)
  /-- TICK_ENTRY (R300): A pending entry enters after the current instruction, swapping banks and loading CTX and DT. -/
  | tickEntry (e : Fin 32) (k : Fin 16)
  /-- TRACE_COMPLETE (R274): POST samples after the trigger stop the unit and raise TRACE_COMPLETE. -/
  | traceComplete (u : Fin 4)
  /-- LOOP_OUTPUT_SATURATED (R257): OUT clamped longer than SAT_TIME raises LOOP_OUTPUT_SATURATED. -/
  | loopOutputSaturated (i : Fin 96)
  /-- FEEDBACK_IMPLAUSIBLE (R269): Supervisor residual above THR_SUP for T_SUP raises FEEDBACK_IMPLAUSIBLE. -/
  | feedbackImplausible (i : Fin 96)
  /-- DIRECT_COEF_WRITE (R265): A DW coefficient write in tuning mode is taken, or ignored and counted. -/
  | directCoefWrite (i : Fin 96) (coef : Fin 7) (v : Word)
  /-- DIRECT_COEF_APPLY (R306): A direct coefficient is written into the loop context when no entry holding the loop runs. -/
  | directCoefApply (i : Fin 96)
  /-- LOOP_PROGRAM_SELECT (R276): Selects a standard or custom program for an axis. -/
  | loopProgramSelect (p : Packet)
  /-- LOOP_RATE_SET (R244): Stages K, Kv, Kp and interpolation settings. -/
  | loopRateSet (p : Packet)
  /-- LOOP_TOP_SET (R248): Stages the outermost loop. -/
  | loopTopSet (p : Packet)
  /-- LOOP_COEF_SET (R263): Stages a loop's coefficient set. -/
  | loopCoefSet (p : Packet)
  /-- LOOP_MODE_SET (R259): Stages AUTO or MANUAL with bumpless settings. -/
  | loopModeSet (p : Packet)
  /-- LOOP_TUNING_SET (R264): Turns tuning mode on or off for a loop. -/
  | loopTuningSet (p : Packet)
  /-- SUPERVISOR_CONFIG (R268): Stages the supervisor model and thresholds. -/
  | supervisorConfig (p : Packet)
  /-- LIMITER_SET (R252): Stages LAG_MAX and the class of FOLLOW_LAG. -/
  | limiterSet (p : Packet)
  /-- FREE_LOOP_CONFIG (R243): Stages sources, tick and destination of a free loop. -/
  | freeLoopConfig (p : Packet)
  /-- LOOP_STATUS (R278): Returns loop nodes, flags and counters. -/
  | loopStatus (p : Packet)
  /-- TRACE_CONFIG (R271): Configures a trace unit's partition, signals and triggers. -/
  | traceConfig (p : Packet)
  /-- TRACE_ARM (R274): Arms a trace unit. -/
  | traceArm (p : Packet)
  /-- TRACE_FORCE (R274): Forces a trace trigger. -/
  | traceForce (p : Packet)
  /-- TRACE_STOP (R275): Ends a trace recording at once. -/
  | traceStop (p : Packet)
  /-- TRACE_STATUS (R280): Returns trace unit registers. -/
  | traceStatus (p : Packet)
  /-- LOOP_POLICY_SET (R278): Sets the class of LOOP_OUTPUT_SATURATED. -/
  | loopPolicySet (p : Packet)
  /-- NOP (R291): Does nothing. -/
  | leNop (e : Fin 32)
  /-- TEXIT (R301): Ends the tick after two delay slots, collects flags, forwards outputs and swaps banks. -/
  | leTexit (e : Fin 32)
  /-- WAIT (R291): Stops background issue until a tick has run. -/
  | leWait (e : Fin 32)
  /-- BKPT (R311): Halts the engine for debug if enabled, otherwise no operation. -/
  | leBkpt (e : Fin 32)
  /-- CLRF (R291): Clears sticky status flags. -/
  | leClrf (e : Fin 32) (imm : BitVec 16)
  /-- MOVSR (R291): Copies SR to a register. -/
  | leMovsr (e : Fin 32) (d : Fin 16)
  /-- EVT (R291): Raises LE_USER_EVENT. -/
  | leEvt (e : Fin 32) (a : Fin 16) (imm : BitVec 16)
  /-- ADD (R291): Adds two registers with wrap. -/
  | leAdd (e : Fin 32) (d a b : Fin 16)
  /-- ADDS (R291): Adds two registers with saturation. -/
  | leAdds (e : Fin 32) (d a b : Fin 16)
  /-- SUB (R291): Subtracts with wrap. -/
  | leSub (e : Fin 32) (d a b : Fin 16)
  /-- SUBS (R291): Subtracts with saturation. -/
  | leSubs (e : Fin 32) (d a b : Fin 16)
  /-- AND (R291): Bitwise AND. -/
  | leAnd (e : Fin 32) (d a b : Fin 16)
  /-- OR (R291): Bitwise OR. -/
  | leOr (e : Fin 32) (d a b : Fin 16)
  /-- XOR (R291): Bitwise XOR. -/
  | leXor (e : Fin 32) (d a b : Fin 16)
  /-- SHL (R291): Logical shift left by register. -/
  | leShl (e : Fin 32) (d a b : Fin 16)
  /-- SHR (R291): Logical shift right by register. -/
  | leShr (e : Fin 32) (d a b : Fin 16)
  /-- ASR (R291): Arithmetic shift right by register. -/
  | leAsr (e : Fin 32) (d a b : Fin 16)
  /-- MIN (R291): Signed minimum. -/
  | leMin (e : Fin 32) (d a b : Fin 16)
  /-- MAX (R291): Signed maximum. -/
  | leMax (e : Fin 32) (d a b : Fin 16)
  /-- ABSS (R291): Saturating absolute value. -/
  | leAbss (e : Fin 32) (d a : Fin 16)
  /-- NEGS (R291): Saturating negation. -/
  | leNegs (e : Fin 32) (d a : Fin 16)
  /-- CLAMP (R291): Clamps a register between two bounds. -/
  | leClamp (e : Fin 32) (d a b : Fin 16)
  /-- MOV (R291): Register move. -/
  | leMov (e : Fin 32) (d a : Fin 16)
  /-- CMP (R291): Sets flags of a subtraction. -/
  | leCmp (e : Fin 32) (a b : Fin 16)
  /-- FADD (R291): Float addition. -/
  | leFadd (e : Fin 32) (d a b : Fin 16)
  /-- FSUB (R291): Float subtraction. -/
  | leFsub (e : Fin 32) (d a b : Fin 16)
  /-- FMUL (R291): Float multiplication. -/
  | leFmul (e : Fin 32) (d a b : Fin 16)
  /-- FCVTIF (R291): Integer to float conversion. -/
  | leFcvtif (e : Fin 32) (d a : Fin 16)
  /-- FCVTFI (R291): Float to integer conversion, saturating. -/
  | leFcvtfi (e : Fin 32) (d a : Fin 16)
  /-- SINCOS (R291): Computes sine and cosine of an angle. -/
  | leSincos (e : Fin 32) (d a : Fin 16)
  /-- ADDI (R291): Adds an immediate. -/
  | leAddi (e : Fin 32) (d a : Fin 16) (imm : BitVec 18)
  /-- ANDI (R291): AND with zero-extended immediate. -/
  | leAndi (e : Fin 32) (d a : Fin 16) (imm : BitVec 18)
  /-- ORI (R291): OR with zero-extended immediate. -/
  | leOri (e : Fin 32) (d a : Fin 16) (imm : BitVec 18)
  /-- SHLI (R291): Shift left by immediate. -/
  | leShli (e : Fin 32) (d a : Fin 16) (imm : BitVec 18)
  /-- SHRI (R291): Logical shift right by immediate. -/
  | leShri (e : Fin 32) (d a : Fin 16) (imm : BitVec 18)
  /-- ASRI (R291): Arithmetic shift right by immediate. -/
  | leAsri (e : Fin 32) (d a : Fin 16) (imm : BitVec 18)
  /-- CMPI (R291): Compares with an immediate. -/
  | leCmpi (e : Fin 32) (a : Fin 16) (imm : BitVec 18)
  /-- MOVI (R291): Loads an immediate. -/
  | leMovi (e : Fin 32) (d : Fin 16) (imm : BitVec 18)
  /-- MOVHI (R291): Loads the upper half of a register. -/
  | leMovhi (e : Fin 32) (d : Fin 16) (imm : BitVec 16)
  /-- JMPR (R291): Jumps to a register address after two delay slots. -/
  | leJmpr (e : Fin 32) (a : Fin 16)
  /-- DBNZ (R291): Decrements and branches if not zero. -/
  | leDbnz (e : Fin 32) (a : Fin 16) (target : BitVec 13)
  /-- RPT (R296): Repeats the next instruction n times without interruption. -/
  | leRpt (e : Fin 32) (n : Fin 65536)
  /-- MUL (R291): Multiplies into an accumulator. -/
  | leMul (e : Fin 32) (n : Bool) (a b : Fin 16)
  /-- MAC (R291): Multiply-accumulate. -/
  | leMac (e : Fin 32) (n : Bool) (a b : Fin 16)
  /-- MSU (R291): Multiply-subtract. -/
  | leMsu (e : Fin 32) (n : Bool) (a b : Fin 16)
  /-- MACUS (R291): Unsigned-by-signed multiply-accumulate. -/
  | leMacus (e : Fin 32) (n : Bool) (a b : Fin 16)
  /-- MAC2 (R291): Dual multiply-accumulate into AC0 and AC1. -/
  | leMac2 (e : Fin 32) (a b c d : Fin 16)
  /-- MLD (R291): Multiply-accumulate with two post-modified loads. -/
  | leMld (e : Fin 32) (n : Bool) (a b c : Fin 16) (pi : Fin 8) (g : Fin 16) (pj : Fin 8)
  /-- MULL (R291): Low 32 bits of a product. -/
  | leMull (e : Fin 32) (d a b : Fin 16)
  /-- STQ (R291): Stores four words into one port group. -/
  | leStq (e : Fin 32) (d a : Fin 16) (imm : BitVec 18)
  /-- CLRA (R291): Clears an accumulator. -/
  | leClra (e : Fin 32) (n : Bool)
  /-- MOVA (R291): Loads an accumulator from two registers. -/
  | leMova (e : Fin 32) (n : Bool) (a b : Fin 16)
  /-- ADDA (R291): Adds accumulators. -/
  | leAdda (e : Fin 32) (n m : Bool)
  /-- ASRA (R291): Shifts an accumulator. -/
  | leAsra (e : Fin 32) (n : Bool) (sh : BitVec 6)
  /-- SATA (R291): Saturates an accumulator to w bits. -/
  | leSata (e : Fin 32) (n : Bool) (w : BitVec 6)
  /-- SATX (R291): Extracts a saturated shifted word from an accumulator. -/
  | leSatx (e : Fin 32) (d : Fin 16) (n : Bool) (sh : BitVec 6)
  /-- EXTL (R291): Extracts accumulator bits 31 to 0. -/
  | leExtl (e : Fin 32) (d : Fin 16) (n : Bool)
  /-- EXTH (R291): Extracts accumulator bits 63 to 32. -/
  | leExth (e : Fin 32) (d : Fin 16) (n : Bool)
  /-- EXTG (R291): Extracts accumulator guard bits. -/
  | leExtg (e : Fin 32) (d : Fin 16) (n : Bool)
  /-- LD (R291): Loads a word, control-space DT reads capturing DT. -/
  | leLd (e : Fin 32) (d a : Fin 16) (imm : BitVec 18)
  /-- ST (R291): Stores a word. -/
  | leSt (e : Fin 32) (d a : Fin 16) (imm : BitVec 18)
  /-- LDA (R291): Absolute load. -/
  | leLda (e : Fin 32) (d : Fin 16) (addr : BitVec 16)
  /-- STA (R291): Absolute store. -/
  | leSta (e : Fin 32) (s : Fin 16) (addr : BitVec 16)
  /-- LDP (R287): Load with address post-modify. -/
  | leLdp (e : Fin 32) (d : Fin 16) (pi : Fin 8)
  /-- STP (R287): Store with address post-modify. -/
  | leStp (e : Fin 32) (s : Fin 16) (pi : Fin 8)
  /-- LDD (R291): Loads two words. -/
  | leLdd (e : Fin 32) (d a : Fin 16) (imm : BitVec 18)
  /-- STD (R291): Stores two words. -/
  | leStd (e : Fin 32) (d a : Fin 16) (imm : BitVec 18)
  /-- LDQ (R291): Loads one port group whole. -/
  | leLdq (e : Fin 32) (d a : Fin 16) (imm : BitVec 18)
  /-- STAC (R291): Stores an accumulator as three words. -/
  | leStac (e : Fin 32) (n : Bool) (a : Fin 16) (imm : BitVec 18)
  /-- LDAC (R291): Loads an accumulator from three words. -/
  | leLdac (e : Fin 32) (n : Bool) (a : Fin 16) (imm : BitVec 18)
  /-- SETA (R291): Writes an address register. -/
  | leSeta (e : Fin 32) (kind : BitVec 2) (i : Fin 8) (a : Fin 16)
  /-- GETA (R291): Reads an address register. -/
  | leGeta (e : Fin 32) (d : Fin 16) (kind : BitVec 2) (i : Fin 8)
  /-- BR (R292): Conditional branch after two delay slots. -/
  | leBr (e : Fin 32) (cond : BitVec 4) (target : BitVec 13)
  /-- CALL (R291): Call with return address in G14. -/
  | leCall (e : Fin 32) (target : BitVec 13)
  /-- MEMORY_SCRUB (R310): The scrubber reads engine memories, correcting single-bit and escalating double-bit errors. -/
  | memoryScrub (e : Fin 32) (kind : Fin 3) (addr : BitVec 16) (err : Fin 3)
  /-- DEBUG_HALT (R311): A debug port halt stops issue, freezes the engine's granted tiles and raises LE_DEBUG_HALT. -/
  | debugHalt (e : Fin 32) (bkpt : Bool)
  /-- DEBUG_RESUME (R345): Resuming a halted engine returns frozen tiles to OFF. -/
  | debugResume (e : Fin 32) (bkpt : Bool)
  /-- LE_IMAGE_BEGIN (R316): Starts loading an engine image, putting the engine in LOADING. -/
  | leImageBegin (p : Packet)
  /-- LE_IMAGE_DATA (R316): Loads engine image words. -/
  | leImageData (p : Packet)
  /-- LE_IMAGE_END (R314): Starts checking the engine image as a class C operation. -/
  | leImageEnd (p : Packet)
  /-- LE_IMAGE_CHECK_COMPLETE (R314): The image passes and the engine starts, or it is refused and stays LOADING. -/
  | leImageCheckComplete (e : Fin 32)
  /-- LE_STATUS (R316): Returns engine status words. -/
  | leStatus (p : Packet)
  /-- LE_TICK_SET (R297): Stages enable, DIV and PHASE of a tick entry. -/
  | leTickSet (p : Packet)
  /-- LE_POLICY_SET (R316): Sets classes of LE_FAULT and TICK_OVERRUN. -/
  | lePolicySet (p : Packet)
  /-- LE_COUNTERS_CLEAR (R316): Clears engine counters. -/
  | leCountersClear (p : Packet)
  /-- LE_DATA_READ (R316): Returns engine memory words. -/
  | leDataRead (p : Packet)
  /-- LE_RESTART (R309): Reloads data memory and restarts a faulted engine. -/
  | leRestart (p : Packet)
  /-- PWM_UPDATE_INSTANT (R333): At each carrier update instant the tile takes duties and the control group and places the period's edges. -/
  | pwmUpdateInstant (t : Fin 16) (centre : Bool)
  /-- TILE_FAULT_INPUT (R340): A low on Ttt_FLT_n lasting FLT_FILT vents the tile and raises TILE_TRIP. -/
  | tileFaultInput (t : Fin 16) (low : Bool) (ns : Nat)
  /-- HALL_EDGE (R336): A filtered Hall edge applies its table entry within 2 clocks. -/
  | hallEdge (t : Fin 16) (h : BitVec 3)
  /-- BRAKE_CHECK_EXPIRY (R348): A chopper not pulling Vdc down within T_CHK is ineffective, vented and the group regen-clamped. -/
  | brakeCheckExpiry (t : Fin 16)
  /-- DCL_UNDERVOLT_CLEAR (R351): Every member above the clear level for 10 ms clears DCL_UNDERVOLT. -/
  | dclUndervoltClear (g : Fin 4)
  /-- TILE_MODE_SET (R319): Sets mode, local, block, brake and DC-link membership. -/
  | tileModeSet (p : Packet)
  /-- TILE_PWM_SET (R332): Sets carrier, dead time and minimum pulse settings. -/
  | tilePwmSet (p : Packet)
  /-- TILE_FAULT_INPUT_SET (R340): Sets FLT_EN and FLT_FILT. -/
  | tileFaultInputSet (p : Packet)
  /-- HALL_TABLE_SET (R336): Sets the Hall table. -/
  | hallTableSet (p : Packet)
  /-- TILE_TRIP_CLEAR (R342): Clears a tile trip or group overvoltage when inactive. -/
  | tileTripClear (p : Packet)
  /-- TILE_LOAD_ALL (R335): Arms named local tiles for LOAD_ALL in one clock. -/
  | tileLoadAll (p : Packet)
  /-- TILE_STATUS (R353): Returns tile block words. -/
  | tileStatus (p : Packet)
  /-- TILE_POLICY_SET (R353): Sets classes of tile events. -/
  | tilePolicySet (p : Packet)
  /-- DCL_CONFIG (R346): Stages DC-link thresholds. -/
  | dclConfig (p : Packet)
  /-- DCL_STATUS (R353): Returns DC-link group words. -/
  | dclStatus (p : Packet)
  /-- BRAKE_CLEAR (R349): Lifts the regen clamp and re-arms the chopper. -/
  | brakeClear (p : Packet)
  /-- SD_SAMPLE (R415): A free-running sigma-delta input produces a sample at its DT-anchored boundary. -/
  | sdSample (ch : Fin 160) (y : Nat) (live : Bool)
  /-- SD_WINDOW_SAMPLE (R416): A windowed input produces a sample at its window end. -/
  | sdWindowSample (t : Fin 16) (yu yv yw : Nat) (live : BitVec 3)
  /-- NTC_FAULT (R577): 10 consecutive out-of-range NTC samples raise NTC_FAULT. -/
  | ntcFault (t : Fin 16)
  /-- SD_OVERRANGE (R418): OR_N consecutive samples at OR_THR raise SD_OVERRANGE. -/
  | sdOverrange (ch : Fin 160)
  /-- SD_STUCK (R419): STUCK_N bits without transition stop samples and raise SD_STUCK. -/
  | sdStuck (ch : Fin 160)
  /-- CURRENT_SUM_ERROR (R364): Phase current sum beyond threshold on 8 consecutive ticks raises CURRENT_SUM_ERROR. -/
  | currentSumError (t : Fin 16)
  /-- SENSE_NO_WINDOW (R368): More than PRED_MAX consecutive predicted periods raise SENSE_NO_WINDOW. -/
  | senseNoWindow (t : Fin 16)
  /-- LISTEN_END (R379): After 5 ms of listening the axis catches, brakes, goes ready or keeps listening. -/
  | listenEnd (t : Fin 16) (emf : Word) (omega : Word)
  /-- BRAKE_END (R375): T_BRAKE elapsed moves the axis to READY. -/
  | brakeEnd (t : Fin 16)
  /-- ALIGN_END (R375): T_ALIGN elapsed ends alignment, into RAMP or with the offset set. -/
  | alignEnd (t : Fin 16)
  /-- OBS_CONVERGED_EVT (R372): PLL error within CONV_THR for CONV_TIME sets OBS_CONVERGED and hands over. -/
  | obsConvergedEvt (t : Fin 16)
  /-- START_TIMEOUT (R378): No convergence within T_START_TIMEOUT removes currents and retries or fails. -/
  | startTimeout (t : Fin 16)
  /-- START_RETRY_WAIT_END (R378): T_RETRY_WAIT elapsed restarts at ALIGN or LISTEN. -/
  | startRetryWaitEnd (t : Fin 16)
  /-- OBSERVER_LOST (R377): PLL error beyond 4 CONV_THR for CONV_TIME raises OBSERVER_LOST. -/
  | observerLost (t : Fin 16)
  /-- IDENT_COMPLETE (R381): Motor identification ends, writing results and completing with OK, aborted or implausible. -/
  | identComplete (t : Fin 16) (r : IdentOutcome)
  /-- FOC_MOTOR_SET (R384): Stages motor parameters and angle offset. -/
  | focMotorSet (p : Packet)
  /-- FOC_CONFIG (R365): Stages sensing, angle source and current limits. -/
  | focConfig (p : Packet)
  /-- FOC_MODULATION_SET (R359): Stages M_MAX and OM_GAIN. -/
  | focModulationSet (p : Packet)
  /-- OBSERVER_CONFIG (R371): Stages observer and PLL settings. -/
  | observerConfig (p : Packet)
  /-- START_CONFIG (R375): Stages sensorless start parameters. -/
  | startConfig (p : Packet)
  /-- FOC_POLICY_SET (R384): Sets classes of field-control events. -/
  | focPolicySet (p : Packet)
  /-- MOTOR_IDENTIFY (R381): Starts motor identification at the next pour. -/
  | motorIdentify (p : Packet)
  /-- IDENT_RESULT (R386): Returns identification results. -/
  | identResult (p : Packet)
  /-- FOC_STATUS (R385): Returns field-control status. -/
  | focStatus (p : Packet)
  /-- CHOPPER_THRESHOLD_CROSS (R394): A coil current crossing a threshold switches the chopper between DRIVE and DECAY and updates the offset. -/
  | chopperThresholdCross (t : Fin 16) (coil : Fin 2) (bits : List Bool)
  /-- CHOPPER_FAST_END (R394): T_FAST elapsed in MIXED decay changes to SLOW. -/
  | chopperFastEnd (t : Fin 16) (coil : Fin 2)
  /-- CHOPPER_DRIVE_TIMEOUT (R397): DRIVE lasting T_DRIVE_MAX raises COIL_UNDERDRIVE or COIL_FAULT open coil. -/
  | chopperDriveTimeout (t : Fin 16) (coil : Fin 2)
  /-- STEP_IDLE_TIMEOUT (R392): Zero set-point velocity for T_IDLE changes STEP_AMP to I_HOLD. -/
  | stepIdleTimeout (t : Fin 16)
  /-- STALL (R398): Load angle beyond STALL_THR on STALL_N ticks raises STALL. -/
  | stall (t : Fin 16)
  /-- COIL_MEASURE_END (R405): After T_MEAS, coil R and L are computed, coils forced low and results staged. -/
  | coilMeasureEnd (t : Fin 16) (coil : Fin 2) (m : CoilMeasure)
  /-- COIL_MEAS_SETTLE_END (R405): After 1 ms forced low, the valve loops start. -/
  | coilMeasSettleEnd (t : Fin 16)
  /-- COIL_OPEN_DETECT (R406): A coil loop clamped with low current for T_OPEN raises COIL_FAULT. -/
  | coilOpenDetect (t : Fin 16) (coil : Fin 2)
  /-- STEP_CONFIG (R409): Stages stepper currents, stall and encoder ratio. -/
  | stepConfig (p : Packet)
  /-- CHOPPER_CONFIG (R393): Stages chopper window, hysteresis and decay. -/
  | chopperConfig (p : Packet)
  /-- STEP_TABLE_LOAD (R390): Loads microstep table 1 entries. -/
  | stepTableLoad (p : Packet)
  /-- STEP_TABLE_SELECT (R390): Selects the microstep table. -/
  | stepTableSelect (p : Packet)
  /-- VALVE_CONFIG (R402): Stages coil mode, velocity loop and limits. -/
  | valveConfig (p : Packet)
  /-- DITHER_SET (R404): Sets valve dither. -/
  | ditherSet (p : Packet)
  /-- COIL_MEASURE_CONFIG (R405): Stages coil measurement settings. -/
  | coilMeasureConfig (p : Packet)
  /-- COIL_PARAM_SET (R409): Stages coil R and L. -/
  | coilParamSet (p : Packet)
  /-- SV_CURRENT_SET (R388): Stages current scaling and trip. -/
  | svCurrentSet (p : Packet)
  /-- SV_POLICY_SET (R409): Sets classes of stepper and valve events. -/
  | svPolicySet (p : Packet)
  /-- SV_STATUS (R410): Returns stepper and valve status. -/
  | svStatus (p : Packet)
  /-- ENCODER_EDGE (R420): An accepted A or B edge changes the quadrature count, or an illegal transition is flagged. -/
  | encoderEdge (e : Fin 17) (a b z : Bool)
  /-- INDEX_EDGE (R423): A qualifying Z edge latches the count and raises INDEX_LATCHED. -/
  | indexEdge (e : Fin 17)
  /-- SSI_FRAME_START (R427): An SSI frame starts at every SSI_TICK_DIV-th tick due edge. -/
  | ssiFrameStart (e : Fin 16)
  /-- SSI_ACK_TIMEOUT (R428): No acknowledge within 2 us rejects the frame. -/
  | ssiAckTimeout (e : Fin 16)
  /-- SSI_FRAME_COMPLETE (R430): A completed frame is accepted into the 64-bit count, rejected or rebased. -/
  | ssiFrameComplete (e : Fin 16) (drt : Fin 801) (frame : BitVec 64)
  /-- ABS_READ_FAILED (R437): FAIL_N consecutive rejected absolute readings raise ABS_READ_FAILED. -/
  | absReadFailed (e : Fin 16)
  /-- SDCLK_CONFIG (R412): Stages a modulator clock divider and enable. -/
  | sdclkConfig (p : Packet)
  /-- SD_CONFIG (R414): Stages a sigma-delta input's settings. -/
  | sdConfig (p : Packet)
  /-- ENC_CONFIG (R420): Sets encoder filter, direction and index gating. -/
  | encConfig (p : Packet)
  /-- INDEX_ARM (R423): Arms the index latch. -/
  | indexArm (p : Packet)
  /-- SSI_CONFIG (R426): Sets SSI frame and timing. -/
  | ssiConfig (p : Packet)
  /-- SINCOS_CONFIG (R432): Sets sin/cos corrections and limits. -/
  | sincosConfig (p : Packet)
  /-- FEEDBACK_SELECT (R435): Selects an axis's feedback source. -/
  | feedbackSelect (p : Packet)
  /-- FB_POLICY_SET (R614): Sets classes of feedback events. -/
  | fbPolicySet (p : Packet)
  /-- SD_STATUS (R439): Returns a sigma-delta input block. -/
  | sdStatus (p : Packet)
  /-- FB_STATUS (R440): Returns an encoder interface block. -/
  | fbStatus (p : Packet)
  /-- CAPTURE_EDGE (R441): A raw capture edge is timestamped with TDC and may meet a pattern trigger. -/
  | captureEdge (c : Fin 48) (level : Bool) (tdc : BitVec 6)
  /-- CAPTURE_QUALIFY (R444): A capture transition qualifies after DEB and assigns its sequence number. -/
  | captureQualify (c : Fin 48)
  /-- LATCH_COMPLETE (R448): A position latch completes on the next history sample, writing the capture record and mark measurements. -/
  | latchComplete (n : Nat)
  /-- CAP_CONSUMED (R451): A write of CAP_CONSUMED moves CONSUMED_SEQ forward. -/
  | capConsumed (seq : BitVec 16)
  /-- GU_SAMPLE (R454): An acquisition unit takes a sample and judges analogue triggers. -/
  | guSample (u : Fin 8)
  /-- GU_RECORD_COMPLETE (R460): POST samples after the trigger write or lose the record. -/
  | guRecordComplete (u : Fin 8)
  /-- SEG_RELEASE (R460): A write of SEG_RELEASE frees a held segment. -/
  | segRelease (u : Fin 8) (seg : BitVec 16)
  /-- CAP_CONFIG (R444): Stages capture debounce, edges and latches. -/
  | capConfig (p : Packet)
  /-- CAP_READ (R451): Returns capture records and optionally consumes them. -/
  | capRead (p : Packet)
  /-- CAP_STATUS (R467): Returns a capture input block. -/
  | capStatus (p : Packet)
  /-- GU_CONFIG (R452): Configures an acquisition unit's partition and channels. -/
  | guConfig (p : Packet)
  /-- GU_TRIGGER_SET (R456): Sets a trigger condition. -/
  | guTriggerSet (p : Packet)
  /-- GU_MEASURE_SET (R463): Stages a measurement slot. -/
  | guMeasureSet (p : Packet)
  /-- GU_ARM (R458): Arms a unit and frees its segments. -/
  | guArm (p : Packet)
  /-- GU_FORCE (R456): Forces a trigger. -/
  | guForce (p : Packet)
  /-- GU_STOP (R462): Ends a record in progress truncated and stops the unit. -/
  | guStop (p : Packet)
  /-- GU_RELEASE (R460): Releases held segments. -/
  | guRelease (p : Packet)
  /-- GU_STATUS (R469): Returns unit registers. -/
  | guStatus (p : Packet)
  /-- MARK_STATUS (R469): Returns a MARK slot's registers. -/
  | markStatus (p : Packet)
  /-- CALDERA_CYCLE (R471): Each 250 us the Caldera cores evaluate permissions, exchange results and act on demands. -/
  | calderaCycle (agree : Bool)
  /-- CALDERA_CLOCK_CHECK (R472): Every 10 ms Caldera compares its clock with the main and field clocks. -/
  | calderaClockCheck (mainPpm fieldPpm : Int)
  /-- CALDERA_SELF_TEST (R474): The power-on self-test completes, passing or raising CALDERA_FAULT. -/
  | calderaSelfTest (ok : Bool)
  /-- SWITCH_BANK_READ (R477): Caldera reads the switch bank in 18 phases and acts on faults or changes. -/
  | switchBankRead (reads : Vector (BitVec 16) 18)
  /-- TEST_PULSE_PERIOD (R482): Each 8 ms test period the TP outputs emit their dark pulses and are read back. -/
  | testPulsePeriod (follows : BitVec 4)
  /-- SAFETY_INPUT_SAMPLE (R483): The field die classifies each safety channel every 100 us. -/
  | safetyInputSample (high : BitVec 16)
  /-- FILTERED_DEMAND_CHANGE (R483): A channel in demand or released for F enters or leaves filtered demand. -/
  | filteredDemandChange (ch : Fin 16)
  /-- DISCREPANCY (R485): Channels disagreeing beyond T_disc latch DISCREPANCY. -/
  | discrepancy (i : Fin 8)
  /-- CROSS_SHORT (R484): A wrong dark-pulse pattern within 2 test periods latches CROSS_SHORT. -/
  | crossShort (ch : Fin 16) (missing : Bool)
  /-- RESET_ACCEPTED (R486): SI7 released after 100 ms to 5 s with conditions met accepts a safety reset. -/
  | resetAccepted
  /-- GEN_HALF_PERIOD (R488): Each GEN half period the cores toggle and read back gate enables. -/
  | genHalfPeriod (lands : BitVec 32)
  /-- HEARTBEAT_LOSS (R488): No tile heartbeat for 15 us stops GEN toggling. -/
  | heartbeatLoss (t : Fin 16)
  /-- HEARTBEAT_RESUME (R488): 100 us of heartbeat toggling resumes GEN toggling. -/
  | heartbeatResume (t : Fin 16)
  /-- SS1_TIMEOUT (R491): T_SS1 after an SS1 demand the group enters STO. -/
  | ss1Timeout (g : Fin 2)
  /-- SAFE_SPEED_UPDATE (R493): Every 1 ms Caldera updates v and checks SS1-r envelope, SLS, SDI and feedback plausibility. -/
  | safeSpeedUpdate (counts : Vector Word 16) (illegal quadrant lowAmp : BitVec 16)
  /-- SS1R_STANDSTILL (R492): All tiles at standstill for 10 ms end SS1-r into STO. -/
  | ss1rStandstill (g : Fin 2)
  /-- SLS_MONITOR_START (R495): T_SS1 after an SLS request monitoring starts. -/
  | slsMonitorStart (g : Fin 2)
  /-- SBO_TEST (R498): Each second an energised brake output is switch-tested and read back. -/
  | sboTest (o : Fin 4) (high low : Bool)
  /-- CALDERA_SNAPSHOT (R505): Every 100 us Caldera publishes its status snapshot. -/
  | calderaSnapshot
  /-- CALDERA_STATUS (R504): Returns Caldera status words. -/
  | calderaStatus (p : Packet)
  /-- SAFECFG_READ (R480): Returns SAFECFG and CFG_CRC. -/
  | safecfgRead (p : Packet)
  /-- SAFE_SPEED_READ (R504): Returns Caldera speeds and counts. -/
  | safeSpeedRead (p : Packet)
  /-- CALDERA_FAULT_READ (R504): Returns Caldera fault history. -/
  | calderaFaultRead (p : Packet)
  /-- FIO_INPUT_QUALIFY (R509): A field input transition qualifies after DEB with its raw-edge timestamp. -/
  | fioInputQualify (c : Fin 24) (on : Bool) (edge : BitVec 96)
  /-- FIO_FRAME_RECEIVE (R512): A field I/O frame on the logic side updates input states, timestamps and readback. -/
  | fioFrameReceive (crcOk : Bool) (f : FioFrame)
  /-- FIO_FRAME_APPLY (R515): The field die applies all output changes of a frame in one clock. -/
  | fioFrameApply
  /-- FIO_TIME_TRANSFER (R510): Every 10 us a time-transfer exchange maps the field die counter onto DT. -/
  | fioTimeTransfer (map : BitVec 96)
  /-- OUT_THERMAL_SHUTDOWN (R518): An output in current limit shuts down thermally and latches off after the third shutdown. -/
  | outThermalShutdown (c : Fin 24)
  /-- OUT_SHORT_VIN (R519): Readback on for 10 ms while off sets SHORT_VIN. -/
  | outShortVin (c : Fin 24)
  /-- SHORT_VIN_CLEAR (R519): Readback off for 10 ms clears SHORT_VIN. -/
  | shortVinClear (c : Fin 24)
  /-- BACKFEED_SEARCH_START (R520): Reverse current into an off channel for 50 us starts a back-feed search. -/
  | backfeedSearchStart (c : Fin 24)
  /-- BACKFEED_CANDIDATE_CHECK (R520): 1 ms after switching a candidate off, the culprit is latched or the next candidate tried. -/
  | backfeedCandidateCheck (active : Bool)
  /-- GROUP_OVERLOAD (R521): A group current above 2.5 A for 10 ms latches the group off. -/
  | groupOverload (g : Fin 3)
  /-- OUT_UNDERVOLT (R522): VIN at 15.0 V switches every output off. -/
  | outUndervolt (mv : BitVec 16)
  /-- UNDERVOLT_END (R523): VIN at 16.0 V for 10 ms ends UNDERVOLT and restores outputs under AUTO. -/
  | undervoltEnd
  /-- FIO_FAILSAFE (R524): No good frame for 100 us makes the field die apply FAILSAFE to outputs. -/
  | fioFailsafe
  /-- FIO_LINK_FAULT (R524): A 20 us frame gap on the logic side raises FIO_LINK_FAULT. -/
  | fioLinkFault
  /-- FIO_CONFIG (R506): Stages a field channel's direction and settings. -/
  | fioConfig (p : Packet)
  /-- FIO_OUT_SET (R514): Stages commanded output states. -/
  | fioOutSet (p : Packet)
  /-- FIO_FAULT_CLEAR (R518): Clears latched output faults of a channel or group. -/
  | fioFaultClear (p : Packet)
  /-- FIO_POLICY_SET (R523): Sets RESTORE and the class of FIO_LINK_FAULT. -/
  | fioPolicySet (p : Packet)
  /-- FIO_RESTORE (R523): Restores outputs after undervoltage under HOLD. -/
  | fioRestore (p : Packet)
  /-- FIO_STATUS (R527): Returns field I/O status words. -/
  | fioStatus (p : Packet)
  /-- CAN_FRAME_RECEIVE (R536): A valid received frame is filtered and stored in a receive queue. -/
  | canFrameReceive (n : Fin 4) (f : CanFrame)
  /-- CAN_TX_FRAME_END (R541): A transmitted frame completes or meets an error, ending or retrying its request. -/
  | canTxFrameEnd (n : Fin 4) (err : BitVec 3) (loop : Option Nat)
  /-- CAN_ARBITRATION_LOST (R540): A frame losing arbitration is retried at the next idle or cancelled. -/
  | canArbitrationLost (n : Fin 4)
  /-- CAN_BUS_ERROR (R534): A bus error updates TEC and REC and may enter error-passive or bus-off. -/
  | canBusError (n : Fin 4) (kind : BitVec 3) (rule : Fin 4)
  /-- CAN_BUS_ON (R534): 128 occurrences of 11 recessive bits end bus-off. -/
  | canBusOn (n : Fin 4)
  /-- CAN_INTEGRATION_DONE (R533): 11 recessive bits end bus integration. -/
  | canIntegrationDone (n : Fin 4)
  /-- CAN_MODE_CHANGE_APPLY (R533): A requested mode change takes effect at the end of the frame on the bus. -/
  | canModeChangeApply (n : Fin 4)
  /-- CAN_SLEEP_ENTER (R539): At the next bus idle the controller enters SLEEP. -/
  | canSleepEnter (n : Fin 4)
  /-- CAN_WAKE (R539): A wake edge, frame or error fallback wakes the controller. -/
  | canWake (n : Fin 4) (w : CanWake)
  /-- RXQ_WIN_READ (R538): Reads of the queue window lock, return and remove the head entry. -/
  | rxqWinRead (n : Fin 4) (q : Fin 2) (w : Fin 20)
  /-- TT_COLUMN_INSTANT (R545): At a column instant the TT schedule sends its object or opens an arbitrating window. -/
  | ttColumnInstant (n : Fin 4) (col : Fin 64) (busy : Nat)
  /-- TT_RESTART (R544): After a DT load the schedule resumes at cycle 0. -/
  | ttRestart (n : Fin 4)
  /-- CAN_CONFIG (R530): Sets bit timing and controller options. -/
  | canConfig (p : Packet)
  /-- CAN_MODE_SET (R533): Requests a controller mode. -/
  | canModeSet (p : Packet)
  /-- CAN_FILTER_SET (R536): Sets a receive filter. -/
  | canFilterSet (p : Packet)
  /-- CAN_RXQ_CONFIG (R538): Sets watermark and overflow policy. -/
  | canRxqConfig (p : Packet)
  /-- CAN_RX_READ (R538): Removes up to 50 queue entries. -/
  | canRxRead (p : Packet)
  /-- CAN_TX (R540): Queues a transmit request. -/
  | canTx (p : Packet)
  /-- CAN_TX_CANCEL (R543): Cancels a transmit request. -/
  | canTxCancel (p : Packet)
  /-- CAN_BUSOFF_RECOVER (R534): Starts manual bus-off recovery. -/
  | canBusoffRecover (p : Packet)
  /-- CAN_SLEEP (R539): Requests sleep with a wake mode. -/
  | canSleep (p : Packet)
  /-- CAN_TT_CONFIG (R544): Sets the TT basic cycles and origin. -/
  | canTtConfig (p : Packet)
  /-- CAN_TT_COLUMN_SET (R545): Sets a TT matrix column. -/
  | canTtColumnSet (p : Packet)
  /-- CAN_TT_DATA (R546): Updates a TT object. -/
  | canTtData (p : Packet)
  /-- CAN_TT_ENABLE (R545): Starts or stops the TT schedule. -/
  | canTtEnable (p : Packet)
  /-- CAN_STATUS (R549): Returns controller status words. -/
  | canStatus (p : Packet)
  /-- POWER_ON (R550): VIN at 17.0 V for 10 ms powers up the logic side and starts a power-on episode. -/
  | powerOn
  /-- WAKE_INPUT (R553): WAKE at 10 V for 1 ms wakes a hibernating module as a power-on. -/
  | wakeInput (mv : Nat) (ns : Nat)
  /-- V3A_OVERLOAD (R551): V3A above 200 mA limits current and raises V3A_OVERLOAD. -/
  | v3aOverload
  /-- POWER_FAIL_WARN (R554): VIN at 16.5 V raises POWER_FAIL_WARN and starts a vault save. -/
  | powerFailWarn (mv : BitVec 16)
  /-- POWER_RESTORED (R554): VIN at 17.0 V for 100 ms re-arms the warning and marks save copies STALE. -/
  | powerRestored
  /-- VAULT_SAVE_COMPLETE (R555): A vault save finishes writing its copy and raises VAULT_SAVED. -/
  | vaultSaveComplete (us : BitVec 16) (cut : Bool)
  /-- BROWNOUT (R559): VIN at 13.0 V with the logic side held starts a cold episode. -/
  | brownout
  /-- RESET_N_INPUT (R560): A low pulse on RESET_n of 25 us or more asserts a cold reset. -/
  | resetNInput (low : Bool) (ns : Nat)
  /-- RESET_RELEASE (R561): When every reset source is released the bring-up of the episode's reach starts. -/
  | resetRelease
  /-- TRIM_LOAD_COMPLETE (R568): The OTP trim load completes, passing or counting a failure toward TRIM_FAIL. -/
  | trimLoadComplete (crcOk : Bool) (straps : BitVec 6)
  /-- CLOCK_LOCK (R571): Clocks lock on the selected source or fall back to the crystal. -/
  | clockLock (refOk : Bool)
  /-- CLOCK_RECOVERY_TIMEOUT (R571): No Uaxabel port holding SYNC within 10 s keeps the crystal and raises CLK_FALLBACK. -/
  | clockRecoveryTimeout
  /-- BOOT_COMPLETE (R567): Management boot completes, RESET_OUT_n rises and RESET_DONE is raised. -/
  | bootComplete (sigOk : Bool) (fwLevel : Word)
  /-- BOOT_DOORBELL (R570): A write of the load magic closes the host load area and starts the image check. -/
  | bootDoorbell (v : Word) (sigOk : Bool)
  /-- HOST_LOAD_TIMEOUT (R570): No doorbell within 60 s falls back to bank A. -/
  | hostLoadTimeout
  /-- NETWORK_LOAD_TIMEOUT (R570): A network load attempt ending after 60 s retries or falls back. -/
  | networkLoadTimeout
  /-- TEMP_COMP_UPDATE (R571): Every 10 ms the crystal temperature term is updated. -/
  | tempCompUpdate
  /-- CONTROL_PLANE_RESET (R563): A critical-state error or HALT-class fault resets the control plane, vents tiles and discards staging. -/
  | controlPlaneReset (src : BitVec 3) (addr : Word)
  /-- CP_RESET_RELEASE (R563): 50 us after assertion the control plane leaves reset and engines reload. -/
  | cpResetRelease
  /-- BLOCK_RESET (R566): Closes the isolation wrapper around a block and delivers owed completions. -/
  | blockReset (p : Packet)
  /-- BLOCK_RESET_RELEASE (R566): After 10 us the block is released, brought up and BLOCK_RESET_DONE is raised. -/
  | blockResetRelease (target : BitVec 16)
  /-- HIBERNATE (R552): Saves the vault and replies before hibernating. -/
  | hibernate (p : Packet)
  /-- HIBERNATE_ENTER (R552): 10 ms after the reply the outputs switch off and the converter stops. -/
  | hibernateEnter
  /-- KETTLE_THRESHOLD (R573): A die sensor crossing a Kettle threshold raises or clears the warning or trips. -/
  | kettleThreshold (sensor : Fin 12) (temp : Word)
  /-- KETTLE_SENSOR_FAULT (R573): An implausible sensor is excluded and reported. -/
  | kettleSensorFault (sensor : Fin 12)
  /-- KETTLE_STOP_TIMEOUT (R575): 200 ms after a class R warning, still-enabled tiles vent and engines stop into GATED. -/
  | kettleStopTimeout
  /-- KETTLE_RESUMED (R575): Sensors below 105 C for 10 s restart the engines. -/
  | kettleResumed
  /-- KETTLE_TRIP (R576): A sensor at 135 C vents every tile and stops the clocks. -/
  | kettleTrip (sensor : Fin 12) (temp : Word)
  /-- KETTLE_RESTART (R576): Every sensor below 100 C after a trip starts a cold episode. -/
  | kettleRestart
  /-- RESET_STATUS (R582): Returns reset block words. -/
  | resetStatus (p : Packet)
  /-- BLOCK_RESET_REPORT (R566): Returns the counts of the last block reset. -/
  | blockResetReport (p : Packet)
  /-- VAULT_SAVE (R555): Starts a vault save as a class C operation. -/
  | vaultSave (p : Packet)
  /-- VAULT_READ (R580): Returns vault words. -/
  | vaultRead (p : Packet)
  /-- VAULT_WRITE (R557): Writes a host-area block at most once per 100 ms. -/
  | vaultWrite (p : Packet)
  /-- KETTLE_STATUS (R582): Returns Kettle status words. -/
  | kettleStatus (p : Packet)
  /-- NTC_CONFIG (R578): Stages NTC parameters and derating range. -/
  | ntcConfig (p : Packet)
  /-- POWER_POLICY_SET (R580): Sets classes of NTC_FAULT and V3A_OVERLOAD. -/
  | powerPolicySet (p : Packet)
  /-- DIAG_READ (R580): Returns diagnostic items. -/
  | diagRead (p : Packet)
  /-- DOMAIN_STOP_COMPLETE (R133): The class C DOMAIN_STOP ends some time after its ACCEPTED_PENDING: the domain returns to time frames, DOMAIN_STARTED is cleared and OP_COMPLETE is raised. -/
  | domainStopComplete (anyEnabled : Bool)
  /-- VIN_LOSS (R559): VIN is lost long enough that the reservoir no longer holds the logic side: PGOOD falls, V3A goes off, encoder counts and Caldera state are lost, and hibernate is forgotten. -/
  | vinLoss
  /-- DELAY_REQUEST_RECEIVE (R118): A delay request ordered set arrives from the neighbour, and the port answers it with its turnaround time. -/
  | delayRequestReceive (port : Fin 4)
  /-- BLANKING_END (R395): T_BLANK after a leg change ends, and a threshold crossing still present then switches the chopper at that instant. -/
  | blankingEnd (t : Fin 16) (coil : Fin 2)
  /-- OUT_THERMAL_RESTART (R518): An output switch in thermal shutdown cools by 15 K and turns on again, before its third shutdown. -/
  | outThermalRestart (c : Fin 24)
  /-- SHUTDOWN_COUNT_RESET (R518): The thermal shutdown count returns to zero once the channel has conducted for 1 s without a shutdown. -/
  | shutdownCountReset (c : Fin 24)
  /-- V3A_OVERLOAD_END (R551): The V3A load current falls back within 200 mA, which ends the current limit and clears V3A_OVERLOAD. -/
  | v3aOverloadEnd
  /-- KETTLE_SENSOR_PLAUSIBLE (R573): An excluded Kettle sensor that has been plausible for 10 s rejoins the thresholds, and KETTLE_SENSOR_FAULT clears. -/
  | kettleSensorPlausible (sensor : Fin 12)
deriving DecidableEq, Repr

end Sys2Proof
end

