-- ==== Sys2Proof/WellFormed.lean ====
section
/-! DEFINITION. Which commands a sender can form: bounds that the operand types do not already carry. -/

namespace Sys2Proof

/-- A packet as a transport can deliver it: 4 to 1,024 words with the CRC, target pour words only with STAGED (R75). -/
def Packet.wf (p : Packet) : Bool :=
  (p.pour.isNone || p.staged) && (p.params.length + (if p.pour.isSome then 6 else 4) ≤ 1024)
    && (!p.staged || p.pour.isSome || p.params.length ≤ 1)

/-- Bounds of the operands of each command; a command not named here is well formed for every operand.  A sample is at most
R^3 of the greatest R (R414), TDC_FINE is below 50 (R442), a CAN frame holds up to 64 data bytes (R530), a forwarded event is
one record of 8 words (R89), and a transport carries up to 1,024 words a packet (R73 to R75). -/
def Instr.wf : Instr → Bool
  | .timeRead p | .timeStatus p | .timeSourceSet p | .ptpConfig p | .timePolicySet p | .compareArm p
  | .compareCancel p | .ppsConfig p | .ppsStop p | .pourStatus p | .timeReload p | .identityRead p | .attest p
  | .statusRead p | .eventRead p | .eventSubscribe p | .vaultEventsRead p | .echo p | .countersRead p
  | .configBegin p | .configData p | .configCommit p | .firmwareBegin p | .firmwareData p | .firmwareActivate p
  | .tunnel p | .netConfig p | .sessionReset p | .imageStreamSet p | .hostInputPolicy p | .stageOpen p
  | .stageCommit p | .stageAbort p | .stageStatus p | .stageCancel p | .domainStart p | .domainStop p | .nodeAccept p
  | .linkStatus p | .portConfig p | .segmentStatus p | .segmentMapRead p | .planCheck p | .eventForwardSet p
  | .linkCountersClear p | .linkPolicySet p | .slotConfig p | .slotArm p | .slotDisarm p | .slotStatus p
  | .masterLeadSet p | .slotPolicySet p | .axisConfig p | .axisScaleSet p | .axisLimitsSet p | .stopLimitsSet p
  | .softLimitsSet p | .axisEnable p | .axisDisable p | .movePosition p | .moveVelocity p | .moveStop p
  | .homeConfig p | .homeStart p | .faultClear p | .axisStatus p | .homeResult p | .axisPolicySet p
  | .gearSourceSet p | .gearEngage p | .gearRatioSet p | .gearChangeArm p | .gearChangeCancel p | .followDisengage p
  | .followStatus p | .camLoadBegin p | .camLoadData p | .camLoadEnd p | .camTableStatus p | .camEngage p
  | .camSwap p | .regConfig p | .regEnable p | .regOffsetSet p | .regStatus p | .followPolicySet p
  | .loopProgramSelect p | .loopRateSet p | .loopTopSet p | .loopCoefSet p | .loopModeSet p | .loopTuningSet p
  | .supervisorConfig p | .limiterSet p | .freeLoopConfig p | .loopStatus p | .traceConfig p | .traceArm p
  | .traceForce p | .traceStop p | .traceStatus p | .loopPolicySet p | .leImageBegin p | .leImageData p
  | .leImageEnd p | .leStatus p | .leTickSet p | .lePolicySet p | .leCountersClear p | .leDataRead p | .leRestart p
  | .tileModeSet p | .tilePwmSet p | .tileFaultInputSet p | .hallTableSet p | .tileTripClear p | .tileLoadAll p
  | .tileStatus p | .tilePolicySet p | .dclConfig p | .dclStatus p | .brakeClear p | .focMotorSet p | .focConfig p
  | .focModulationSet p | .observerConfig p | .startConfig p | .focPolicySet p | .motorIdentify p | .identResult p
  | .focStatus p | .stepConfig p | .chopperConfig p | .stepTableLoad p | .stepTableSelect p | .valveConfig p
  | .ditherSet p | .coilMeasureConfig p | .coilParamSet p | .svCurrentSet p | .svPolicySet p | .svStatus p
  | .sdclkConfig p | .sdConfig p | .encConfig p | .indexArm p | .ssiConfig p | .sincosConfig p | .feedbackSelect p
  | .fbPolicySet p | .sdStatus p | .fbStatus p | .capConfig p | .capRead p | .capStatus p | .guConfig p
  | .guTriggerSet p | .guMeasureSet p | .guArm p | .guForce p | .guStop p | .guRelease p | .guStatus p
  | .markStatus p | .calderaStatus p | .safecfgRead p | .safeSpeedRead p | .calderaFaultRead p | .fioConfig p
  | .fioOutSet p | .fioFaultClear p | .fioPolicySet p | .fioRestore p | .fioStatus p | .canConfig p | .canModeSet p
  | .canFilterSet p | .canRxqConfig p | .canRxRead p | .canTx p | .canTxCancel p | .canBusoffRecover p | .canSleep p
  | .canTtConfig p | .canTtColumnSet p | .canTtData p | .canTtEnable p | .canStatus p | .blockReset p | .hibernate p
  | .resetStatus p | .blockResetReport p | .vaultSave p | .vaultRead p | .vaultWrite p | .kettleStatus p
  | .ntcConfig p | .powerPolicySet p | .diagRead p => p.wf
  | .sdSample _ y _ => y ≤ 256 ^ 3
  | .sdWindowSample _ yu yv yw _ => yu ≤ 256 ^ 3 && yv ≤ 256 ^ 3 && yw ≤ 256 ^ 3
  | .captureEdge _ _ tdc => tdc.toNat < 50
  | .canFrameReceive _ f => f.data.length ≤ 64
  | .forwardedEventReceive _ rec => rec.length = 8
  | .spiWindowWrite _ data => data.length ≤ 1024
  | .spiPacketWrite words => words.length ≤ 1024
  | .udpDatagramReceive _ _ _ bytes ws => bytes ≤ 4096 && ws.length ≤ 1024
  | .tunnelPacketReceive _ ws => ws.length ≤ 1024
  | _ => true

end Sys2Proof
end

