-- ==== Sys2Proof/Decode.lean ====
section
/-! DEFINITION. The command a word of the table spells. No row of the table gives bits (every row's fields are empty), so
no word spells a command. -/

namespace Sys2Proof

/-- The command spelled by the word w of nbits bits: none, since the table gives no row any bits. -/
def decodeTableWord (_nbits _w : Nat) : Option Instr := none

end Sys2Proof
end

