-- ==== Sys2Proof/Config.lean ====
section
/-! DEFINITION. The free values: constants without a body that stand for every value the spec leaves open. -/

namespace Sys2Proof.Config

/-- The n-th free value drawn, a natural number of unknown size; a draw with a bound reduces it into the bound. -/
opaque freeNat : Nat → Nat

/-- The k-th free number of an axis's step (R191) under a seed that each pour renews: what the generator does within its limits. -/
opaque freeStep : Nat → Nat → Nat → Nat

/-- Word i of the module's attestation public key, X then Y (R91): the spec gives no value. -/
opaque attestKey : Nat → Word

/-- Word i of this module's ECDSA signature over SHA-256 of a challenge, a module ID, a ring position and a segment number
(R134): the private key is not in the spec. -/
opaque nodeSignature : BitVec 256 → BitVec 64 → Nat → Nat → Nat → Word

/-- The fixed delay of both ends' interfaces on each port, in ps, from trim (R119). -/
opaque tPhy : Nat → Nat

end Sys2Proof.Config
end

