-- ==== Sys2Proof/Machine/Codes.lean ====
section
/-! DEFINITION. The status codes of R87 and of the chapters, and the event codes of the chapters' event tables,
each under the spec's own name. -/

namespace Sys2Proof.Machine

namespace Status
/-- 0x0000 OK -/ abbrev ok : BitVec 16 := 0x0000
/-- 0x0001 ACCEPTED_STAGED -/ abbrev acceptedStaged : BitVec 16 := 0x0001
/-- 0x0002 ACCEPTED_PENDING -/ abbrev acceptedPending : BitVec 16 := 0x0002
/-- 0x0101 VERSION_UNSUPPORTED -/ abbrev versionUnsupported : BitVec 16 := 0x0101
/-- 0x0102 PARAM_COUNT -/ abbrev paramCount : BitVec 16 := 0x0102
/-- 0x0103 UNKNOWN_OPCODE -/ abbrev unknownOpcode : BitVec 16 := 0x0103
/-- 0x0104 NOT_STAGEABLE -/ abbrev notStageable : BitVec 16 := 0x0104
/-- 0x0105 PRIORITY_NOT_ALLOWED -/ abbrev priorityNotAllowed : BitVec 16 := 0x0105
/-- 0x0106 BAD_TARGET -/ abbrev badTarget : BitVec 16 := 0x0106
/-- 0x0107 STAGED_REQUIRED -/ abbrev stagedRequired : BitVec 16 := 0x0107
/-- 0x0108 RESERVED_NONZERO -/ abbrev reservedNonzero : BitVec 16 := 0x0108
/-- 0x0109 TARGET_IN_TRANSACTION -/ abbrev targetInTransaction : BitVec 16 := 0x0109
/-- 0x010A SEQUENCE_REUSED -/ abbrev sequenceReused : BitVec 16 := 0x010A
/-- 0x0201 NOT_CONFIGURED -/ abbrev notConfigured : BitVec 16 := 0x0201
/-- 0x0202 QUARANTINED -/ abbrev quarantined : BitVec 16 := 0x0202
/-- 0x0203 CHAIN_BROKEN -/ abbrev chainBroken : BitVec 16 := 0x0203
/-- 0x0204 NO_TRANSACTION -/ abbrev noTransaction : BitVec 16 := 0x0204
/-- 0x0205 TRANSACTION_OPEN -/ abbrev transactionOpen : BitVec 16 := 0x0205
/-- 0x0206 BLOCK_IN_RESET -/ abbrev blockInReset : BitVec 16 := 0x0206
/-- 0x0207 DIAGNOSTIC_ONLY -/ abbrev diagnosticOnly : BitVec 16 := 0x0207
/-- 0x0208 AXES_ENABLED -/ abbrev axesEnabled : BitVec 16 := 0x0208
/-- 0x0209 BANK_IN_USE -/ abbrev bankInUse : BitVec 16 := 0x0209
/-- 0x0210 STAGE_ALREADY_FINAL -/ abbrev stageAlreadyFinal : BitVec 16 := 0x0210
/-- 0x0211 TIME_RELOAD_REFUSED -/ abbrev timeReloadRefused : BitVec 16 := 0x0211
/-- 0x0212 TILE_NOT_LOCAL -/ abbrev tileNotLocal : BitVec 16 := 0x0212
/-- 0x0213 STAGE_TOO_LATE -/ abbrev stageTooLate : BitVec 16 := 0x0213
/-- 0x0214 STAGE_LOCAL_TILE -/ abbrev stageLocalTile : BitVec 16 := 0x0214
/-- 0x0215 STAGE_DISCARDED_RESET -/ abbrev stageDiscardedReset : BitVec 16 := 0x0215
/-- 0x0216 NOT_GRANDMASTER -/ abbrev notGrandmaster : BitVec 16 := 0x0216
/-- 0x0217 STAGE_NOT_PENDING -/ abbrev stageNotPending : BitVec 16 := 0x0217
/-- 0x0220 DOMAIN_RUNNING -/ abbrev domainRunning : BitVec 16 := 0x0220
/-- 0x0221 NOT_SEGMENT_MASTER -/ abbrev notSegmentMaster : BitVec 16 := 0x0221
/-- 0x0222 PLAN_MISMATCH -/ abbrev planMismatch : BitVec 16 := 0x0222
/-- 0x0223 CODE_MISMATCH -/ abbrev codeMismatch : BitVec 16 := 0x0223
/-- 0x0224 ACCEPT_LOCKED -/ abbrev acceptLocked : BitVec 16 := 0x0224
/-- 0x0225 NOT_QUARANTINED -/ abbrev notQuarantined : BitVec 16 := 0x0225
/-- 0x0226 LOCK_TIMEOUT -/ abbrev lockTimeout : BitVec 16 := 0x0226
/-- 0x0227 SEGMENT_INCOMPLETE -/ abbrev segmentIncomplete : BitVec 16 := 0x0227
/-- 0x0230 SLOT_NOT_ARMED -/ abbrev slotNotArmed : BitVec 16 := 0x0230
/-- 0x0231 SLOT_IN_USE -/ abbrev slotInUse : BitVec 16 := 0x0231
/-- 0x0232 SLOT_HAS_FOLLOWERS -/ abbrev slotHasFollowers : BitVec 16 := 0x0232
/-- 0x0240 AXIS_NOT_ENABLED -/ abbrev axisNotEnabled : BitVec 16 := 0x0240
/-- 0x0241 AXIS_FAULTED -/ abbrev axisFaulted : BitVec 16 := 0x0241
/-- 0x0242 AXIS_KIND_MISMATCH -/ abbrev axisKindMismatch : BitVec 16 := 0x0242
/-- 0x0243 AXIS_HOMING -/ abbrev axisHoming : BitVec 16 := 0x0243
/-- 0x0244 AXIS_FOLLOWING -/ abbrev axisFollowing : BitVec 16 := 0x0244
/-- 0x0245 LIMIT_ACTIVE -/ abbrev limitActive : BitVec 16 := 0x0245
/-- 0x0246 AXIS_VENTED -/ abbrev axisVented : BitVec 16 := 0x0246
/-- 0x0247 AXIS_ENABLED -/ abbrev axisEnabled : BitVec 16 := 0x0247
/-- 0x0248 FAULT_ACTIVE -/ abbrev faultActive : BitVec 16 := 0x0248
/-- 0x0249 AXIS_STOPPING -/ abbrev axisStopping : BitVec 16 := 0x0249
/-- 0x024A REFERENCE_CHANGED -/ abbrev referenceChanged : BitVec 16 := 0x024A
/-- 0x024B AXIS_MOVING -/ abbrev axisMoving : BitVec 16 := 0x024B
/-- 0x024C AXIS_PUBLISHED -/ abbrev axisPublished : BitVec 16 := 0x024C
/-- 0x0250 GEAR_ENGAGING -/ abbrev gearEngaging : BitVec 16 := 0x0250
/-- 0x0251 GEAR_LOOP -/ abbrev gearLoop : BitVec 16 := 0x0251
/-- 0x0252 GEAR_ENGAGED_SOURCE -/ abbrev gearEngagedSource : BitVec 16 := 0x0252
/-- 0x0254 CAM_TABLE_IN_USE -/ abbrev camTableInUse : BitVec 16 := 0x0254
/-- 0x0255 CAM_TABLE_EMPTY -/ abbrev camTableEmpty : BitVec 16 := 0x0255
/-- 0x0256 NOT_FOLLOWING -/ abbrev notFollowing : BitVec 16 := 0x0256
/-- 0x0257 GEAR_CHANGE_PENDING -/ abbrev gearChangePending : BitVec 16 := 0x0257
/-- 0x0258 CAM_SWAP_PENDING -/ abbrev camSwapPending : BitVec 16 := 0x0258
/-- 0x0259 REG_RUNNING -/ abbrev regRunning : BitVec 16 := 0x0259
/-- 0x025A CAM_LOAD_SEQUENCE -/ abbrev camLoadSequence : BitVec 16 := 0x025A
/-- 0x025B NO_MASTER_SOURCE -/ abbrev noMasterSource : BitVec 16 := 0x025B
/-- 0x0260 LOOP_RATE_INVALID -/ abbrev loopRateInvalid : BitVec 16 := 0x0260
/-- 0x0261 PROGRAM_UNSUPPORTED -/ abbrev programUnsupported : BitVec 16 := 0x0261
/-- 0x0262 TRACE_SIGNAL_CLUSTER -/ abbrev traceSignalCluster : BitVec 16 := 0x0262
/-- 0x0263 TRACE_BUSY -/ abbrev traceBusy : BitVec 16 := 0x0263
/-- 0x0264 FREE_LOOP_SOURCE -/ abbrev freeLoopSource : BitVec 16 := 0x0264
/-- 0x0270 LE_LOADING -/ abbrev leLoading : BitVec 16 := 0x0270
/-- 0x0271 LE_IMAGE_SEQUENCE -/ abbrev leImageSequence : BitVec 16 := 0x0271
/-- 0x0272 LE_IMAGE_CLUSTER -/ abbrev leImageCluster : BitVec 16 := 0x0272
/-- 0x0273 LE_TICK_SOURCE -/ abbrev leTickSource : BitVec 16 := 0x0273
/-- 0x0274 LE_NOT_FAULTED -/ abbrev leNotFaulted : BitVec 16 := 0x0274
/-- 0x0280 TRIP_ACTIVE -/ abbrev tripActive : BitVec 16 := 0x0280
/-- 0x0281 DCL_OVP_ACTIVE -/ abbrev dclOvpActive : BitVec 16 := 0x0281
/-- 0x0282 VDC_HIGH -/ abbrev vdcHigh : BitVec 16 := 0x0282
/-- 0x0283 DCL_UNCONFIGURED -/ abbrev dclUnconfigured : BitVec 16 := 0x0283
/-- 0x0290 AXIS_IDENTIFYING -/ abbrev axisIdentifying : BitVec 16 := 0x0290
/-- 0x0291 IDENT_ABORTED -/ abbrev identAborted : BitVec 16 := 0x0291
/-- 0x0292 ANGLE_OFFSET_UNKNOWN -/ abbrev angleOffsetUnknown : BitVec 16 := 0x0292
/-- 0x0293 SENSORLESS_TOP -/ abbrev sensorlessTop : BitVec 16 := 0x0293
/-- 0x0294 IDENT_IMPLAUSIBLE -/ abbrev identImplausible : BitVec 16 := 0x0294
/-- 0x0295 NOT_SERVO3 -/ abbrev notServo3 : BitVec 16 := 0x0295
/-- 0x0296 NOT_STEPPER2 -/ abbrev notStepper2 : BitVec 16 := 0x0296
/-- 0x0297 NOT_VALVE2 -/ abbrev notValve2 : BitVec 16 := 0x0297
/-- 0x0298 STEP_TABLE_EMPTY -/ abbrev stepTableEmpty : BitVec 16 := 0x0298
/-- 0x02A1 SD_WINDOW_SHORT -/ abbrev sdWindowShort : BitVec 16 := 0x02A1
/-- 0x02A2 FB_SOURCE_UNCONFIGURED -/ abbrev fbSourceUnconfigured : BitVec 16 := 0x02A2
/-- 0x02A3 SINCOS_CLOCK_MISMATCH -/ abbrev sincosClockMismatch : BitVec 16 := 0x02A3
/-- 0x02B0 GU_BUSY -/ abbrev guBusy : BitVec 16 := 0x02B0
/-- 0x02D0 FIO_NOT_OUTPUT -/ abbrev fioNotOutput : BitVec 16 := 0x02D0
/-- 0x02D1 FIO_CYCLIC_OWNED -/ abbrev fioCyclicOwned : BitVec 16 := 0x02D1
/-- 0x02D2 FIO_IN_USE -/ abbrev fioInUse : BitVec 16 := 0x02D2
/-- 0x02D3 FIO_FAULT_ACTIVE -/ abbrev fioFaultActive : BitVec 16 := 0x02D3
/-- 0x02D4 VIN_LOW -/ abbrev vinLow : BitVec 16 := 0x02D4
/-- 0x02E0 CAN_NOT_CONFIG_MODE -/ abbrev canNotConfigMode : BitVec 16 := 0x02E0
/-- 0x02E1 CAN_NO_TX_MODE -/ abbrev canNoTxMode : BitVec 16 := 0x02E1
/-- 0x02E2 CANCEL_UNKNOWN -/ abbrev cancelUnknown : BitVec 16 := 0x02E2
/-- 0x02E3 WAKE_FRAME_IN_SERVICE -/ abbrev wakeFrameInService : BitVec 16 := 0x02E3
/-- 0x02E4 RXQ_LOCKED -/ abbrev rxqLocked : BitVec 16 := 0x02E4
/-- 0x02E5 TT_ACTIVE -/ abbrev ttActive : BitVec 16 := 0x02E5
/-- 0x02E6 NOT_BUS_OFF -/ abbrev notBusOff : BitVec 16 := 0x02E6
/-- 0x02F0 BLOCK_RESET_ENDED -/ abbrev blockResetEnded : BitVec 16 := 0x02F0
/-- 0x02F1 CONTROL_RESET_ENDED -/ abbrev controlResetEnded : BitVec 16 := 0x02F1
/-- 0x02F2 WAKE_ACTIVE -/ abbrev wakeActive : BitVec 16 := 0x02F2
/-- 0x02F3 THERMAL_GATED -/ abbrev thermalGated : BitVec 16 := 0x02F3
/-- 0x0301 PARAM_RANGE -/ abbrev paramRange : BitVec 16 := 0x0301
/-- 0x0310 TARGET_BEYOND_WINDOW -/ abbrev targetBeyondWindow : BitVec 16 := 0x0310
/-- 0x0311 TARGET_PAST -/ abbrev targetPast : BitVec 16 := 0x0311
/-- 0x0312 TARGET_BEYOND_HORIZON -/ abbrev targetBeyondHorizon : BitVec 16 := 0x0312
/-- 0x0320 PLAN_OVER_CAPACITY -/ abbrev planOverCapacity : BitVec 16 := 0x0320
/-- 0x0321 D_TOO_SMALL -/ abbrev dTooSmall : BitVec 16 := 0x0321
/-- 0x0322 TCONF_TOO_LONG -/ abbrev tconfTooLong : BitVec 16 := 0x0322
/-- 0x0330 VALUE_OUT_OF_RANGE -/ abbrev valueOutOfRange : BitVec 16 := 0x0330
/-- 0x0331 LIMIT_EXCEEDS_AXIS -/ abbrev limitExceedsAxis : BitVec 16 := 0x0331
/-- 0x0340 CAM_TABLE_INVALID -/ abbrev camTableInvalid : BitVec 16 := 0x0340
/-- 0x0350 LE_IMAGE_RANGE -/ abbrev leImageRange : BitVec 16 := 0x0350
/-- 0x0360 PWM_TIMING_INVALID -/ abbrev pwmTimingInvalid : BitVec 16 := 0x0360
/-- 0x0361 DOUBLE_NEEDS_CENTRE -/ abbrev doubleNeedsCentre : BitVec 16 := 0x0361
/-- 0x0362 DCL_THRESHOLD_ORDER -/ abbrev dclThresholdOrder : BitVec 16 := 0x0362
/-- 0x0370 SENSE_CARRIER_INVALID -/ abbrev senseCarrierInvalid : BitVec 16 := 0x0370
/-- 0x0371 CHOPPER_WINDOW -/ abbrev chopperWindow : BitVec 16 := 0x0371
/-- 0x0380 SSI_TIMING_INVALID -/ abbrev ssiTimingInvalid : BitVec 16 := 0x0380
/-- 0x0381 SSI_FIELD_INVALID -/ abbrev ssiFieldInvalid : BitVec 16 := 0x0381
/-- 0x0390 GU_SELECTOR_INVALID -/ abbrev guSelectorInvalid : BitVec 16 := 0x0390
/-- 0x0392 RECORD_TOO_LARGE -/ abbrev recordTooLarge : BitVec 16 := 0x0392
/-- 0x03E0 BIT_TIMING_INVALID -/ abbrev bitTimingInvalid : BitVec 16 := 0x03E0
/-- 0x03E1 TDC_REQUIRED -/ abbrev tdcRequired : BitVec 16 := 0x03E1
/-- 0x03E2 TT_MATRIX_INVALID -/ abbrev ttMatrixInvalid : BitVec 16 := 0x03E2
/-- 0x03F0 VAULT_RANGE -/ abbrev vaultRange : BitVec 16 := 0x03F0
/-- 0x0401 BUSY -/ abbrev busy : BitVec 16 := 0x0401
/-- 0x0402 TUNNEL_UNREACHABLE -/ abbrev tunnelUnreachable : BitVec 16 := 0x0402
/-- 0x0403 TRANSACTION_TOO_LARGE -/ abbrev transactionTooLarge : BitVec 16 := 0x0403
/-- 0x0404 IMAGE_INVALID -/ abbrev imageInvalid : BitVec 16 := 0x0404
/-- 0x0405 TUNNEL_REPLY_TOO_LARGE -/ abbrev tunnelReplyTooLarge : BitVec 16 := 0x0405
/-- 0x0410 STAGE_SHADOW_FULL -/ abbrev stageShadowFull : BitVec 16 := 0x0410
/-- 0x0420 CHAIN_TOO_DEEP -/ abbrev chainTooDeep : BitVec 16 := 0x0420
/-- 0x0421 CHANGE_QUEUE_FULL -/ abbrev changeQueueFull : BitVec 16 := 0x0421
/-- 0x0430 TRACE_MEMORY_FULL -/ abbrev traceMemoryFull : BitVec 16 := 0x0430
/-- 0x0440 LE_SCHEDULE -/ abbrev leSchedule : BitVec 16 := 0x0440
/-- 0x04B0 ACQ_MEMORY_FULL -/ abbrev acqMemoryFull : BitVec 16 := 0x04B0
/-- 0x04E0 TXQ_FULL -/ abbrev txqFull : BitVec 16 := 0x04E0
/-- 0x04F0 VAULT_RATE -/ abbrev vaultRate : BitVec 16 := 0x04F0
/-- 0x0501 SAFETY_REFUSED -/ abbrev safetyRefused : BitVec 16 := 0x0501
/-- 0x0510 STO_ACTIVE -/ abbrev stoActive : BitVec 16 := 0x0510
/-- 0x0511 SS1_ACTIVE -/ abbrev ss1Active : BitVec 16 := 0x0511
/-- 0x0512 SAFECFG_INVALID -/ abbrev safecfgInvalid : BitVec 16 := 0x0512
/-- 0x0513 CALDERA_FAULTED -/ abbrev calderaFaulted : BitVec 16 := 0x0513
end Status

namespace Ev
/-- 0x0101 OP_COMPLETE -/ abbrev opComplete : BitVec 16 := 0x0101
/-- 0x0102 OCP_PACKET_DISCARDED -/ abbrev ocpPacketDiscarded : BitVec 16 := 0x0102
/-- 0x0103 STAGE_TIMEOUT -/ abbrev stageTimeout : BitVec 16 := 0x0103
/-- 0x0104 REPLY_UNDELIVERED -/ abbrev replyUndelivered : BitVec 16 := 0x0104
/-- 0x0105 CONFIG_COMMITTED -/ abbrev configCommitted : BitVec 16 := 0x0105
/-- 0x0106 HOST_INPUT_LOST -/ abbrev hostInputLost : BitVec 16 := 0x0106
/-- 0x0201 TIME_LOCKED -/ abbrev timeLocked : BitVec 16 := 0x0201
/-- 0x0202 TIME_UNLOCKED -/ abbrev timeUnlocked : BitVec 16 := 0x0202
/-- 0x0203 TIME_HOLDOVER -/ abbrev timeHoldover : BitVec 16 := 0x0203
/-- 0x0204 HOLDOVER_EXPIRED -/ abbrev holdoverExpired : BitVec 16 := 0x0204
/-- 0x0205 TIME_FAULT -/ abbrev timeFault : BitVec 16 := 0x0205
/-- 0x0206 RATE_CLAMPED -/ abbrev rateClamped : BitVec 16 := 0x0206
/-- 0x0207 COMPARE_FIRED -/ abbrev compareFired : BitVec 16 := 0x0207
/-- 0x0208 POUR_REFUSED -/ abbrev pourRefused : BitVec 16 := 0x0208
/-- 0x0209 PTP_LOST -/ abbrev ptpLost : BitVec 16 := 0x0209
/-- 0x020A PTP_OFFSET_LARGE -/ abbrev ptpOffsetLarge : BitVec 16 := 0x020A
/-- 0x020B TIMER_CANCELLED -/ abbrev timerCancelled : BitVec 16 := 0x020B
/-- 0x0301 LINK_UP -/ abbrev linkUp : BitVec 16 := 0x0301
/-- 0x0302 LINK_DOWN -/ abbrev linkDown : BitVec 16 := 0x0302
/-- 0x0303 LINK_WRAPPED -/ abbrev linkWrapped : BitVec 16 := 0x0303
/-- 0x0304 LINK_RESTORED -/ abbrev linkRestored : BitVec 16 := 0x0304
/-- 0x0305 RING_SPLIT -/ abbrev ringSplit : BitVec 16 := 0x0305
/-- 0x0306 NODE_QUARANTINED -/ abbrev nodeQuarantined : BitVec 16 := 0x0306
/-- 0x0307 NODE_ACCEPTED -/ abbrev nodeAccepted : BitVec 16 := 0x0307
/-- 0x0308 CAP_MISMATCH -/ abbrev capMismatch : BitVec 16 := 0x0308
/-- 0x0309 CREDIT_RECOVERED -/ abbrev creditRecovered : BitVec 16 := 0x0309
/-- 0x030A DELAY_STEP -/ abbrev delayStep : BitVec 16 := 0x030A
/-- 0x030B SLOT_CRC_ERROR -/ abbrev slotCrcError : BitVec 16 := 0x030B
/-- 0x030C DOMAIN_STARTED_EVT -/ abbrev domainStartedEvt : BitVec 16 := 0x030C
/-- 0x030D BRIDGE_LATE -/ abbrev bridgeLate : BitVec 16 := 0x030D
/-- 0x0401 POS_LIMIT -/ abbrev posLimit : BitVec 16 := 0x0401
/-- 0x0402 TURNS_LIMIT -/ abbrev turnsLimit : BitVec 16 := 0x0402
/-- 0x0403 PROFILE_OVERSHOOT -/ abbrev profileOvershoot : BitVec 16 := 0x0403
/-- 0x0404 HOMING_DONE -/ abbrev homingDone : BitVec 16 := 0x0404
/-- 0x0405 HOMING_FAILED -/ abbrev homingFailed : BitVec 16 := 0x0405
/-- 0x0406 LIMIT_SWITCH -/ abbrev limitSwitch : BitVec 16 := 0x0406
/-- 0x0407 SOFT_LIMIT -/ abbrev softLimit : BitVec 16 := 0x0407
/-- 0x0408 POS_UNCERTAIN_SET -/ abbrev posUncertainSet : BitVec 16 := 0x0408
/-- 0x0409 MOVE_DONE -/ abbrev moveDone : BitVec 16 := 0x0409
/-- 0x0440 STEEP_OVERRUN -/ abbrev steepOverrun : BitVec 16 := 0x0440
/-- 0x0441 MASTER_LATE -/ abbrev masterLate : BitVec 16 := 0x0441
/-- 0x0442 MASTER_LOST -/ abbrev masterLost : BitVec 16 := 0x0442
/-- 0x0443 RIDE_THROUGH_END -/ abbrev rideThroughEnd : BitVec 16 := 0x0443
/-- 0x0444 MASTER_RESUMED -/ abbrev masterResumed : BitVec 16 := 0x0444
/-- 0x0445 SLOT_ARMED -/ abbrev slotArmed : BitVec 16 := 0x0445
/-- 0x0446 RESUME_REFUSED -/ abbrev resumeRefused : BitVec 16 := 0x0446
/-- 0x0501 GEAR_CHANGED -/ abbrev gearChanged : BitVec 16 := 0x0501
/-- 0x0502 GEAR_ENGAGED -/ abbrev gearEngaged : BitVec 16 := 0x0502
/-- 0x0503 CAM_SWAPPED -/ abbrev camSwapped : BitVec 16 := 0x0503
/-- 0x0504 CAM_END -/ abbrev camEnd : BitVec 16 := 0x0504
/-- 0x0505 GEAR_INC_RANGE -/ abbrev gearIncRange : BitVec 16 := 0x0505
/-- 0x0506 MARK_MISSING -/ abbrev markMissing : BitVec 16 := 0x0506
/-- 0x0507 REG_OFFSET_CLAMPED -/ abbrev regOffsetClamped : BitVec 16 := 0x0507
/-- 0x0601 FEEDBACK_IMPLAUSIBLE -/ abbrev feedbackImplausible : BitVec 16 := 0x0601
/-- 0x0602 FOLLOW_LAG -/ abbrev followLag : BitVec 16 := 0x0602
/-- 0x0603 LOOP_OUTPUT_SATURATED -/ abbrev loopOutputSaturated : BitVec 16 := 0x0603
/-- 0x0604 LOOP_MODE_CHANGED -/ abbrev loopModeChanged : BitVec 16 := 0x0604
/-- 0x0605 BUMP_RESIDUAL -/ abbrev bumpResidual : BitVec 16 := 0x0605
/-- 0x0606 TRACE_TRIGGERED -/ abbrev traceTriggered : BitVec 16 := 0x0606
/-- 0x0607 TRACE_COMPLETE -/ abbrev traceComplete : BitVec 16 := 0x0607
/-- 0x0701 LE_FAULT -/ abbrev leFault : BitVec 16 := 0x0701
/-- 0x0702 TICK_OVERRUN -/ abbrev tickOverrun : BitVec 16 := 0x0702
/-- 0x0703 ECC_CORRECTED -/ abbrev eccCorrected : BitVec 16 := 0x0703
/-- 0x0704 LE_USER_EVENT -/ abbrev leUserEvent : BitVec 16 := 0x0704
/-- 0x0705 LE_DEBUG_HALT -/ abbrev leDebugHalt : BitVec 16 := 0x0705
/-- 0x0706 LE_STARTED -/ abbrev leStarted : BitVec 16 := 0x0706
/-- 0x0801 TILE_TRIP -/ abbrev tileTrip : BitVec 16 := 0x0801
/-- 0x0802 PWM_CARRY_SAT -/ abbrev pwmCarrySat : BitVec 16 := 0x0802
/-- 0x0803 HALL_ILLEGAL -/ abbrev hallIllegal : BitVec 16 := 0x0803
/-- 0x0804 TILE_FROZEN -/ abbrev tileFrozen : BitVec 16 := 0x0804
/-- 0x0805 BRAKE_INEFFECTIVE -/ abbrev brakeIneffective : BitVec 16 := 0x0805
/-- 0x0806 REGEN_LIMITED -/ abbrev regenLimited : BitVec 16 := 0x0806
/-- 0x0807 DCL_OVERVOLT -/ abbrev dclOvervolt : BitVec 16 := 0x0807
/-- 0x0808 DCL_UNDERVOLT -/ abbrev dclUndervolt : BitVec 16 := 0x0808
/-- 0x0901 PHASE_OVERCURRENT -/ abbrev phaseOvercurrent : BitVec 16 := 0x0901
/-- 0x0902 CURRENT_SUM_ERROR -/ abbrev currentSumError : BitVec 16 := 0x0902
/-- 0x0903 SENSE_NO_WINDOW -/ abbrev senseNoWindow : BitVec 16 := 0x0903
/-- 0x0904 START_RETRY -/ abbrev startRetry : BitVec 16 := 0x0904
/-- 0x0905 START_FAILED -/ abbrev startFailed : BitVec 16 := 0x0905
/-- 0x0906 OBSERVER_LOST -/ abbrev observerLost : BitVec 16 := 0x0906
/-- 0x0907 FLYING_CATCH -/ abbrev flyingCatch : BitVec 16 := 0x0907
/-- 0x0908 OBS_CONVERGED_EVT -/ abbrev obsConvergedEvt : BitVec 16 := 0x0908
/-- 0x0910 STALL -/ abbrev stall : BitVec 16 := 0x0910
/-- 0x0911 COIL_OVERCURRENT -/ abbrev coilOvercurrent : BitVec 16 := 0x0911
/-- 0x0912 COIL_FAULT -/ abbrev coilFault : BitVec 16 := 0x0912
/-- 0x0913 COIL_UNDERDRIVE -/ abbrev coilUnderdrive : BitVec 16 := 0x0913
/-- 0x0914 COIL_MEASURED -/ abbrev coilMeasured : BitVec 16 := 0x0914
/-- 0x0A01 SD_OVERRANGE -/ abbrev sdOverrange : BitVec 16 := 0x0A01
/-- 0x0A02 SD_STUCK -/ abbrev sdStuck : BitVec 16 := 0x0A02
/-- 0x0A03 ENC_ILLEGAL -/ abbrev encIllegal : BitVec 16 := 0x0A03
/-- 0x0A04 INDEX_LATCHED -/ abbrev indexLatched : BitVec 16 := 0x0A04
/-- 0x0A05 ABS_READ_FAILED -/ abbrev absReadFailed : BitVec 16 := 0x0A05
/-- 0x0A06 ABS_REBASED -/ abbrev absRebased : BitVec 16 := 0x0A06
/-- 0x0B01 CAP_EDGE -/ abbrev capEdge : BitVec 16 := 0x0B01
/-- 0x0B02 CAP_RING_LOST -/ abbrev capRingLost : BitVec 16 := 0x0B02
/-- 0x0B03 GU_TRIGGERED -/ abbrev guTriggered : BitVec 16 := 0x0B03
/-- 0x0B04 GU_RECORD_WRITTEN -/ abbrev guRecordWritten : BitVec 16 := 0x0B04
/-- 0x0B05 GU_RECORD_LOST -/ abbrev guRecordLost : BitVec 16 := 0x0B05
/-- 0x0B06 GU_COMPLETE -/ abbrev guComplete : BitVec 16 := 0x0B06
/-- 0x0C01 STO_ENTERED -/ abbrev stoEntered : BitVec 16 := 0x0C01
/-- 0x0C02 STO_LIFTED -/ abbrev stoLifted : BitVec 16 := 0x0C02
/-- 0x0C03 SS1_STARTED -/ abbrev ss1Started : BitVec 16 := 0x0C03
/-- 0x0C04 SS1R_VIOLATION -/ abbrev ss1rViolation : BitVec 16 := 0x0C04
/-- 0x0C05 SLS_REQUESTED -/ abbrev slsRequested : BitVec 16 := 0x0C05
/-- 0x0C06 SLS_VIOLATION -/ abbrev slsViolation : BitVec 16 := 0x0C06
/-- 0x0C07 SDI_VIOLATION -/ abbrev sdiViolation : BitVec 16 := 0x0C07
/-- 0x0C08 DISCREPANCY -/ abbrev discrepancy : BitVec 16 := 0x0C08
/-- 0x0C09 CROSS_SHORT -/ abbrev crossShort : BitVec 16 := 0x0C09
/-- 0x0C0A SAFECFG_CHANGED -/ abbrev safecfgChanged : BitVec 16 := 0x0C0A
/-- 0x0C0B SAFECFG_FAULT -/ abbrev safecfgFault : BitVec 16 := 0x0C0B
/-- 0x0C0C GEN_FAULT -/ abbrev genFault : BitVec 16 := 0x0C0C
/-- 0x0C0D SBO_FAULT -/ abbrev sboFault : BitVec 16 := 0x0C0D
/-- 0x0C0E CALDERA_FAULT -/ abbrev calderaFault : BitVec 16 := 0x0C0E
/-- 0x0C0F RESET_ACCEPTED -/ abbrev resetAccepted : BitVec 16 := 0x0C0F
/-- 0x0C10 CAL_FEEDBACK_FAULT -/ abbrev calFeedbackFault : BitVec 16 := 0x0C10
/-- 0x0D01 FIO_CHANGE -/ abbrev fioChange : BitVec 16 := 0x0D01
/-- 0x0D02 OUT_OVERLOAD -/ abbrev outOverload : BitVec 16 := 0x0D02
/-- 0x0D03 OUT_SHORT_VIN -/ abbrev outShortVin : BitVec 16 := 0x0D03
/-- 0x0D04 OUT_BACKFEED -/ abbrev outBackfeed : BitVec 16 := 0x0D04
/-- 0x0D05 OUT_UNDERVOLT -/ abbrev outUndervolt : BitVec 16 := 0x0D05
/-- 0x0D06 GROUP_OVERLOAD -/ abbrev groupOverload : BitVec 16 := 0x0D06
/-- 0x0D07 FIO_LINK_FAULT -/ abbrev fioLinkFault : BitVec 16 := 0x0D07
/-- 0x0D08 OUT_RESTORED -/ abbrev outRestored : BitVec 16 := 0x0D08
/-- 0x0E01 TX_COMPLETE -/ abbrev txComplete : BitVec 16 := 0x0E01
/-- 0x0E02 ERROR_PASSIVE -/ abbrev errorPassive : BitVec 16 := 0x0E02
/-- 0x0E03 BUS_OFF -/ abbrev busOff : BitVec 16 := 0x0E03
/-- 0x0E04 BUS_ON -/ abbrev busOn : BitVec 16 := 0x0E04
/-- 0x0E05 RX_OVERFLOW -/ abbrev rxOverflow : BitVec 16 := 0x0E05
/-- 0x0E06 RX_WATERMARK -/ abbrev rxWatermark : BitVec 16 := 0x0E06
/-- 0x0E07 WAKE -/ abbrev wake : BitVec 16 := 0x0E07
/-- 0x0E08 TT_MISSED -/ abbrev ttMissed : BitVec 16 := 0x0E08
/-- 0x0E09 TT_RESTART -/ abbrev ttRestart : BitVec 16 := 0x0E09
/-- 0x0F01 POWER_FAIL_WARN -/ abbrev powerFailWarn : BitVec 16 := 0x0F01
/-- 0x0F02 POWER_RESTORED -/ abbrev powerRestored : BitVec 16 := 0x0F02
/-- 0x0F03 VAULT_SAVED -/ abbrev vaultSaved : BitVec 16 := 0x0F03
/-- 0x0F04 VAULT_RESTORED -/ abbrev vaultRestored : BitVec 16 := 0x0F04
/-- 0x0F05 VAULT_RESTORE_SKIPPED -/ abbrev vaultRestoreSkipped : BitVec 16 := 0x0F05
/-- 0x0F06 CONTROL_RESET -/ abbrev controlReset : BitVec 16 := 0x0F06
/-- 0x0F07 BLOCK_RESET_DONE -/ abbrev blockResetDone : BitVec 16 := 0x0F07
/-- 0x0F08 RESET_DONE -/ abbrev resetDone : BitVec 16 := 0x0F08
/-- 0x0F09 STRAP_INVALID -/ abbrev strapInvalid : BitVec 16 := 0x0F09
/-- 0x0F0A CLK_FALLBACK -/ abbrev clkFallback : BitVec 16 := 0x0F0A
/-- 0x0F0B BOOT_FALLBACK -/ abbrev bootFallback : BitVec 16 := 0x0F0B
/-- 0x0F0C KETTLE_WARN -/ abbrev kettleWarn : BitVec 16 := 0x0F0C
/-- 0x0F0D KETTLE_RESUMED -/ abbrev kettleResumed : BitVec 16 := 0x0F0D
/-- 0x0F0E KETTLE_TRIP -/ abbrev kettleTrip : BitVec 16 := 0x0F0E
/-- 0x0F0F KETTLE_SENSOR_FAULT -/ abbrev kettleSensorFault : BitVec 16 := 0x0F0F
/-- 0x0F10 TEMP_DERATING -/ abbrev tempDerating : BitVec 16 := 0x0F10
/-- 0x0F11 NTC_FAULT -/ abbrev ntcFault : BitVec 16 := 0x0F11
/-- 0x0F12 V3A_OVERLOAD -/ abbrev v3aOverload : BitVec 16 := 0x0F12
end Ev

end Sys2Proof.Machine
end

