-- ==== Sys2Proof/Machine/Regs.lean ====
section
/-! DEFINITION. The registers of the register window, one structure per block, with the spec's field names,
widths and reset values (tables R67, R68, R101, R149, R150, R177, R178, R213, R240, R279, R280, R317, R354,
R355, R385, R386, R410, R439, R440, R467, R468, R469, R505, R527, R528, R549, R582, R583).
A one-bit field is a Bool.  A field spread over several words is one bit vector, low word first.
Reset entries the tables give as Image, Strap, OTP, Vault, Boot, Firmware or a dash hold zero here (log entry 1).
Fields that are computed from other state (a pour number, a summary bit) have no field here: the window
computes them (Machine/Window.lean). -/

namespace Sys2Proof.Machine

/-- The time unit registers of R67. -/
structure TimeRegs where
  /-- 0x010 [1:0] STATE RO: 0 FREE, 1 ACQUIRE, 2 LOCKED, 3 HOLDOVER -/
  state : BitVec 2 := 0
  /-- 0x010 [2] ROLE_GM RO: 1 if this module is grandmaster -/
  roleGm : Bool := false
  /-- 0x010 [5:4] SOURCE RO: 0 crystal, 1 upstream link, 2 PTP ETH0, 3 PTP ETH1 -/
  source : BitVec 2 := 0
  /-- 0x010 [8] EPOCH_VALID RO: Per R37 -/
  epochValid : Bool := false
  /-- 0x010 [9] PTP_LOCKED RO: Grandmaster's PTP slave is locked -/
  ptpLocked : Bool := false
  /-- 0x010 [11:10] UPSTREAM_PORT RO: UX port toward the upstream neighbour -/
  upstreamPort : BitVec 2 := 0
  /-- 0x014 [31:0] RATE_ADJ RO: Servo rate term, signed, 2^-40 units: the PI output in ACQUIRE and LOCKED, the frozen PI term in HOLDOVER, and 0 in FREE; on a … -/
  rateAdj : BitVec 32 := 0
  /-- 0x018 [31:0] OFFSET RO: Last measured offset, signed ps, saturating: on a module that is not the grandmaster, the offset of R39; on a grandmaster with a PTP … -/
  offset : BitVec 32 := 0
  /-- 0x01C [31:0] TEMP_COMP RO: Temperature rate term, signed, 2^-40 units; 0 while the clock source is not the crystal (R571) -/
  tempComp : BitVec 32 := 0
  /-- 0x020, 0x024 [31:0] EPOCH_TAI RO: TAI seconds of DT = 0, bits [31:0]; reading captures the high word -/
  epochTai : BitVec 64 := 0
  /-- 0x028 [31:0] TAI_OFFSET RO: Grandmaster only: TAI − EPOCH_TAI − DT, signed ns, saturating -/
  taiOffset : BitVec 32 := 0
  /-- 0x030 [0] UNLOCK_SEEN W1C: TIME_UNLOCKED raised -/
  unlockSeen : Bool := false
  /-- 0x030 [1] HOLDOVER_SEEN W1C: HOLDOVER entered -/
  holdoverSeen : Bool := false
  /-- 0x030 [2] RATE_CLAMPED W1C: Per R38 -/
  rateClamped : Bool := false
  /-- 0x030 [3] TIME_FAULT_SEEN W1C: Per R44 -/
  timeFaultSeen : Bool := false
  /-- 0x030 [4] PTP_LOST_SEEN W1C: Per R47 -/
  ptpLostSeen : Bool := false
  /-- 0x030 [8] CNT_OVF W1C: A counter in this block saturated -/
  cntOvf : Bool := false
  /-- 0x034 [31:0] UNLOCK_COUNT RO: Saturates at 0xFFFF_FFFF -/
  unlockCount : BitVec 32 := 0
  /-- 0x038 [31:0] HOLDOVER_COUNT RO: Saturates at 0xFFFF_FFFF -/
  holdoverCount : BitVec 32 := 0
deriving DecidableEq, Repr

/-- One compare unit of R67. -/
structure CompareRegs where
  /-- 0x100, 0x104 [31:0] TARGET RO: Compare unit u target ns[31:0]; reading captures TARGET_HI -/
  target : BitVec 64 := 0
  /-- 0x108 [1:0] CMP_STATE RO: 0 idle, 1 armed once, 2 armed periodic -/
  cmpState : BitVec 2 := 0
  /-- 0x108 [2] FIRED W1C: Unit has fired -/
  fired : Bool := false
  /-- 0x10C [15:0] FIRE_COUNT RO: Firings, wraps -/
  fireCount : BitVec 16 := 0
  /-- 0x10C [31:16] FIRE_SKIP_COUNT RO: Per R50, saturates at 0xFFFF -/
  fireSkipCount : BitVec 16 := 0
deriving DecidableEq, Repr

/-- One pulse output of R67. -/
structure PpsRegs where
  /-- 0x200, 0x204 [31:0] NEXT_EDGE RO: PPSn next leading edge ns[31:0]; reading captures NEXT_EDGE_HI -/
  nextEdge : BitVec 64 := 0
  /-- 0x208 [1:0] PPS_STATE RO: 0 stopped, 1 armed, 2 running, 3 suppressed -/
  ppsState : BitVec 2 := 0
  /-- 0x20C [31:0] EDGE_COUNT RO: Edges output, saturates at 0xFFFF_FFFF -/
  edgeCount : BitVec 32 := 0
deriving DecidableEq, Repr

/-- Pour and staging status of R68. -/
structure StageRegs where
  /-- 0x008 [31:0] POUR_LEN RO: L in ns; 0 until domain start -/
  pourLen : BitVec 32 := 0
  /-- 0x00C [2:0] POUR_EXP RO: n of R54 -/
  pourExp : BitVec 3 := 0
  /-- 0x00C [7:4] DOMAIN_D RO: D, 1 to 8; 0 until domain start -/
  domainD : BitVec 4 := 0
  /-- 0x014 [31:0] LAST_SWAP_SEQ RO: OCP sequence number of the last commit swapped -/
  lastSwapSeq : BitVec 32 := 0
  /-- 0x018 [31:0] LAST_REFUSED_SEQ RO: OCP sequence number of the last set refused at its pour or discarded by a reset (R62, R63) -/
  lastRefusedSeq : BitVec 32 := 0
  /-- 0x01C [15:0] LAST_REFUSED_CAUSE RO: Its status code; 0x0215 STAGE_DISCARDED_RESET for a set discarded by a reset -/
  lastRefusedCause : BitVec 16 := 0
  /-- 0x020 [31:0] SWAP_COUNT RO: Sets swapped, saturates at 0xFFFF_FFFF -/
  swapCount : BitVec 32 := 0
  /-- 0x024 [31:0] REFUSE_COUNT RO: Sets refused at a pour or discarded, saturates at 0xFFFF_FFFF -/
  refuseCount : BitVec 32 := 0
  /-- 0x028 [31:0] IMAGE_SKIP_COUNT RO: Per R57, saturates at 0xFFFF_FFFF -/
  imageSkipCount : BitVec 32 := 0
deriving DecidableEq, Repr

/-- The identity and global block of R101. -/
structure IdentRegs where
  /-- 0x000 [31:0] PART_NUMBER RO: SNK-7216 -/
  partNumber : BitVec 32 := 29206
  /-- 0x004 [7:0] STEPPING RO: ASCII "B" -/
  stepping : BitVec 8 := 66
  /-- 0x008, 0x00C [31:0] MODULE_ID RO: Module ID [31:0]; reading captures MODULE_ID_HI -/
  moduleId : BitVec 64 := 0
  /-- 0x010 [31:0] FW_LEVEL RO: [31:16] major, [15:8] minor, [7:0] patch -/
  fwLevel : BitVec 32 := 0
  /-- 0x014 [0] FW_BANK RO: Bank running: 0 bank A, 1 bank B (R570) -/
  fwBank : Bool := false
  /-- 0x014 [4] CONFIG_COMMITTED RO: Per R93 -/
  configCommitted : Bool := false
  /-- 0x014 [5] QUARANTINED RO: Per Uaxabel link and domains -/
  quarantined : Bool := false
  /-- 0x014 [6] TRIM_FAIL RO: Per Reset, power and Kettle -/
  trimFail : Bool := false
  /-- 0x018 [2:0] BOOTSEL RO: As sampled -/
  bootsel : BitVec 3 := 0
  /-- 0x018 [5:4] CLKSEL RO: As sampled -/
  clksel : BitVec 2 := 0
  /-- 0x024 [0] HALT_SEEN W1C: A control-plane reset occurred -/
  haltSeen : Bool := false
  /-- 0x024 [8] CNT_OVF W1C: A counter in this block saturated -/
  cntOvf : Bool := false
  /-- 0x02C [31:0] LOG_OVERWRITE_COUNT RO: Per R30 -/
  logOverwriteCount : BitVec 32 := 0
  /-- 0x1000, 0x1004 [31:0] REQ_RING_BASE RW: PCIe request ring address [31:0], 4 KiB aligned -/
  reqRingBase : BitVec 64 := 0
  /-- 0x1008 [12:0] REQ_RING_SIZE RW: Entries, 32 to 4,096, power of two -/
  reqRingSize : BitVec 13 := 32
  /-- 0x100C [15:0] REQ_DOORBELL WO: Producer index -/
  reqDoorbell : BitVec 16 := 0
  /-- 0x1010, 0x1014 [31:0] RSP_RING_BASE RW: Reply ring address [31:0] -/
  rspRingBase : BitVec 64 := 0
  /-- 0x1018 [12:0] RSP_RING_SIZE RW: As REQ_RING_SIZE -/
  rspRingSize : BitVec 13 := 32
  /-- 0x101C [15:0] RSP_DOORBELL WO: Consumer index -/
  rspDoorbell : BitVec 16 := 0
  /-- 0x1020, 0x1024 [31:0] EVT_RING_BASE RW: Event ring address [31:0] -/
  evtRingBase : BitVec 64 := 0
  /-- 0x1028 [12:0] EVT_RING_SIZE RW: As REQ_RING_SIZE -/
  evtRingSize : BitVec 13 := 32
  /-- 0x102C [15:0] EVT_DOORBELL WO: Consumer index -/
  evtDoorbell : BitVec 16 := 0
  /-- 0x1030 [0] RINGS_ENABLE RW: Ring base and size writes are ignored while 1 -/
  ringsEnable : Bool := false
deriving DecidableEq, Repr

/-- The counter words of one session, R101. -/
structure SessionRegs where
  /-- 0x1100 [31:0] CRC_ERR_COUNT RO: Session s: 0 PCIe, 1 SPI, 2 to 9 UDP, 10 all tunnel sessions together (R70); saturates -/
  crcErrCount : BitVec 32 := 0
  /-- 0x1104 [31:0] DISCARD_COUNT RO: Other discards per R73, R74, R77; saturates -/
  discardCount : BitVec 32 := 0
  /-- 0x1108 [31:0] CREDIT_VIOL_COUNT RO: Per R71; saturates -/
  creditViolCount : BitVec 32 := 0
  /-- 0x110C [31:0] DUP_COUNT RO: Per R82; saturates -/
  dupCount : BitVec 32 := 0
  /-- 0x1110 [31:0] REPLY_UNDELIVERED RO: Per R84; saturates -/
  replyUndelivered : BitVec 32 := 0
  /-- 0x1114 [5:0] CREDITS_IN_USE RO: Credits held by accepted packets awaiting their replies, 0 to 32 (R71) -/
  creditsInUse : BitVec 6 := 0
  /-- 0x1118 [31:0] STREAM_DROP_COUNT RO: Session 0 only: image copies dropped by the stream of R105; reads 0 for other sessions; saturates -/
  streamDropCount : BitVec 32 := 0
deriving DecidableEq, Repr

/-- One Uaxabel port of R149. -/
structure PortRegs where
  /-- 0x000 [2:0] PORT_STATE RO: 0 DOWN, 1 SYNC, 2 CAPABILITY, 3 MEASURE, 4 UP, 5 CYCLIC -/
  portState : BitVec 3 := 0
  /-- 0x000 [4] DET RO: UXn_DET level -/
  det : Bool := false
  /-- 0x000 [5] LOS RO: UXn_LOS level -/
  los : Bool := false
  /-- 0x000 [6] BROKEN RO: Break declared (R141) -/
  broken : Bool := false
  /-- 0x000 [7] WRAPPING RO: This port's traffic is turned back -/
  wrapping : Bool := false
  /-- 0x000 [9:8] RING_ROLE RO: 0 unused, 1 west, 2 east -/
  ringRole : BitVec 2 := 0
  /-- 0x000 [10] MEDIUM RO: 0 twinax, 1 SFP -/
  medium : Bool := false
  /-- 0x004 [31:0] LINK_DELAY RO: One-way delay, ps (R118) -/
  linkDelay : BitVec 32 := 0
  /-- 0x008 [31:0] CABLE_LEN RO: 0.1 m units (R119) -/
  cableLen : BitVec 32 := 0
  /-- 0x00C [31:0] ROUND_TRIP RO: Last round trip, ps -/
  roundTrip : BitVec 32 := 0
  /-- 0x010, 0x014 [31:0] NBR_ID RO: Neighbour module ID [31:0]; reading captures NBR_ID_HI -/
  nbrId : BitVec 64 := 0
  /-- 0x018 [31:0] NBR_CAP RO: Neighbour capability word w, w = 0 to 3 -/
  nbrCap : Vector (BitVec 32) 4 := Vector.replicate 4 0
  /-- 0x028 [5:0] TX_CREDITS RO: 0 to 32 -/
  txCredits : BitVec 6 := 0
  /-- 0x028 [13:8] RX_BUSY RO: Receive buffers in use -/
  rxBusy : BitVec 6 := 0
  /-- 0x02C [31:0] CODE_VIOL_COUNT RO: 8b/10b code and disparity errors -/
  codeViolCount : BitVec 32 := 0
  /-- 0x030 [31:0] SLOT_CRC_ERR_COUNT RO: Slots failing SLOT_CRC -/
  slotCrcErrCount : BitVec 32 := 0
  /-- 0x034 [31:0] FRAG_CRC_ERR_COUNT RO: Acyclic fragments failing CRC -/
  fragCrcErrCount : BitVec 32 := 0
  /-- 0x038 [31:0] CREDIT_RECOVERED_COUNT RO: R139 -/
  creditRecoveredCount : BitVec 32 := 0
  /-- 0x03C [31:0] LINK_DOWN_COUNT RO: Exits from UP or CYCLIC -/
  linkDownCount : BitVec 32 := 0
  /-- 0x040 [0] LINK_DOWN_SEEN W1C: — -/
  linkDownSeen : Bool := false
  /-- 0x040 [1] BREAK_SEEN W1C: — -/
  breakSeen : Bool := false
  /-- 0x040 [2] DELAY_STEP_SEEN W1C: — -/
  delayStepSeen : Bool := false
  /-- 0x040 [8] CNT_OVF W1C: A counter of this port saturated -/
  cntOvf : Bool := false
deriving DecidableEq, Repr

/-- The segment registers of R150. -/
structure SegmentRegs where
  /-- 0x000 [3:0] SEG_NUM RO: Segment number -/
  segNum : BitVec 4 := 0
  /-- 0x000 [14:8] RING_POS RO: Ring position, 0 to 64 -/
  ringPos : BitVec 7 := 0
  /-- 0x000 [22:16] N_MODULES RO: Ring positions N, 1 to 65 (R110) -/
  nModules : BitVec 7 := 0
  /-- 0x000 [24] SEG_MASTER RO: This module is segment master -/
  segMaster : Bool := false
  /-- 0x000 [25] BRIDGE RO: This module is a bridge -/
  bridge : Bool := false
  /-- 0x000 [26] GRANDMASTER RO: This module is grandmaster -/
  grandmaster : Bool := false
  /-- 0x004 [1:0] RING_STATE RO: 0 starting, 1 intact, 2 wrapped, 3 split -/
  ringState : BitVec 2 := 0
  /-- 0x008 [31:0] PLAN_CRC RO: Plan in force -/
  planCrc : BitVec 32 := 0
  /-- 0x00C, 0x010 [31:0] MASTER_ID RO: Segment master ID [31:0]; reading captures MASTER_ID_HI -/
  masterId : BitVec 64 := 0
  /-- 0x014 [3:0] D_MIN_INTACT RO: R129 with measured delays; 15 means above 8 -/
  dMinIntact : BitVec 4 := 0
  /-- 0x014 [7:4] D_MIN_WRAPPED RO: As D_MIN_INTACT -/
  dMinWrapped : BitVec 4 := 0
  /-- 0x018 [31:0] WORST_ARR_INTACT RO: ns -/
  worstArrIntact : BitVec 32 := 0
  /-- 0x01C [31:0] WORST_ARR_WRAPPED RO: ns -/
  worstArrWrapped : BitVec 32 := 0
  /-- 0x020 [19:0] BYTES_USED RO: Slots and replay area (R126) -/
  bytesUsed : BitVec 20 := 0
  /-- 0x024 [31:0] WRAP_COUNT RO: Wraps entered -/
  wrapCount : BitVec 32 := 0
  /-- 0x028 [31:0] LATE_HOP_COUNT RO: Entries forwarded late (R130) -/
  lateHopCount : BitVec 32 := 0
  /-- 0x02C [31:0] REPLAY_TAKEN_COUNT RO: R144 -/
  replayTakenCount : BitVec 32 := 0
  /-- 0x030 [31:0] FWD_EVENT_LOST RO: R140 -/
  fwdEventLost : BitVec 32 := 0
  /-- 0x034 [8] CNT_OVF W1C: A counter of this block saturated -/
  cntOvf : Bool := false
deriving DecidableEq, Repr

/-- One master slot of R177. -/
structure SlotRegs where
  /-- 0x300 [2:0] SLOT_STATE RO: 0 IDLE, 1 ARMING, 2 ARMED, 3 LATE, 4 LOST, 5 STOPPED -/
  slotState : BitVec 3 := 0
  /-- 0x300 [3] UNCONFIRMED RO: Last pour late-released, held or overrun (R163) -/
  unconfirmed : Bool := false
  /-- 0x300 [4] MASTER_STOPPING RO: Copied from the entry (R169) -/
  masterStopping : Bool := false
  /-- 0x300 [5] MASTER_POS_UNCERTAIN RO: Copied from the entry -/
  masterPosUncertain : Bool := false
  /-- 0x300 [15:8] LATE_RUN RO: Consecutive late pours, saturates at 255 -/
  lateRun : BitVec 8 := 0
  /-- 0x304, 0x308 [31:0] PUB_ID ST: Publisher module ID [31:0]; reading captures PUB_ID_HI -/
  pubId : BitVec 64 := 0
  /-- 0x30C [3:0] ENTRY_INDEX ST: 0 to 14 -/
  entryIndex : BitVec 4 := 0
  /-- 0x30C [9:8] ORDER ST: 0 hold, 1 linear, 2 quadratic -/
  order : BitVec 2 := 1
  /-- 0x30C [12] POLICY ST: 0 RELEASE, 1 HOLD -/
  policy : Bool := false
  /-- 0x30C [23:16] N_LATE ST: 1 to 255 -/
  nLate : BitVec 8 := 4
  /-- 0x310 [31:0] W ST: Counts, 0 to 16,777,216 -/
  w : BitVec 32 := 64
  /-- 0x314 [8:0] T_RIDE ST: ms, 0 to 500 -/
  tRide : BitVec 9 := 100
  /-- 0x318 [30:0] RESUME_LIMIT ST: Counts -/
  resumeLimit : BitVec 31 := 1024
  /-- 0x320, 0x324 [31:0] CONFIRMED RO: Low, high (R171) -/
  confirmed : BitVec 64 := 0
  /-- 0x328, 0x32C [31:0] CORRECTED RO: Low, high -/
  corrected : BitVec 64 := 0
  /-- 0x330, 0x334 [31:0] RESTEEPED RO: Low, high -/
  resteeped : BitVec 64 := 0
  /-- 0x338, 0x33C [31:0] OVERRUN RO: Low, high -/
  overrun : BitVec 64 := 0
  /-- 0x340, 0x344 [31:0] LATE_RELEASED RO: Low, high -/
  lateReleased : BitVec 64 := 0
  /-- 0x348, 0x34C [31:0] HELD RO: Low, high -/
  held : BitVec 64 := 0
  /-- 0x350, 0x354 [31:0] ARMED_POUR RO: Low, high -/
  armedPour : BitVec 64 := 0
  /-- 0x360, 0x364 [31:0] LA_POUR RO: Pour being steeped, low, high -/
  laPour : BitVec 64 := 0
  /-- 0x368, 0x36C, 0x370 [31:0] LA_MASTER RO: Predicted master value: frac, low, high -/
  laMaster : BitVec 96 := 0
  /-- 0x374 [31:0] LAST_RESIDUAL RO: Signed, 2^-8 counts, saturating -/
  lastResidual : BitVec 32 := 0
  /-- 0x378 [31:0] LAST_ARRIVAL_LEAD RO: Deadline minus arrival, signed ns; negative if late -/
  lastArrivalLead : BitVec 32 := 0
  /-- 0x37C [0] OVERRUN_SEEN W1C: STEEP_OVERRUN raised -/
  overrunSeen : Bool := false
  /-- 0x37C [1] LATE_SEEN W1C: MASTER_LATE raised -/
  lateSeen : Bool := false
  /-- 0x37C [2] LOST_SEEN W1C: MASTER_LOST raised -/
  lostSeen : Bool := false
  /-- 0x37C [3] RESUME_REFUSED_SEEN W1C: RESUME_REFUSED raised -/
  resumeRefusedSeen : Bool := false
deriving DecidableEq, Repr

/-- The steep registers of one axis, R178. -/
structure StageSteepRegs where
  /-- 0x3C0, 0x3C4 [31:0] LA_POUR RO: Pour being steeped, low, high -/
  laPour : BitVec 64 := 0
  /-- 0x3C8, 0x3CC, 0x3D0 [31:0] LA_POS RO: Steeped position set-point: frac, low, high -/
  laPos : BitVec 96 := 0
  /-- 0x3D4 [0] LA_VALID RO: Axis is on a steeped chain -/
  laValid : Bool := false
  /-- 0x3D4 [1] LA_PENDING_SET RO: The steep includes a pending set (R172) -/
  laPendingSet : Bool := false
  /-- 0x3D4 [8] MASTER_LEAD ST: R174 -/
  masterLead : Bool := false
  /-- 0x3D4 [31] CNT_OVF W1C: A counter below saturated -/
  cntOvf : Bool := false
  /-- 0x3D8 [31:0] SETTINGS_RESTEEP_COUNT RO: R172; saturates at 0xFFFF_FFFF -/
  settingsResteepCount : BitVec 32 := 0
  /-- 0x3DC [31:0] REFUSAL_HOLD_COUNT RO: R172; saturates at 0xFFFF_FFFF -/
  refusalHoldCount : BitVec 32 := 0
deriving DecidableEq, Repr

/-- One axis block of R213. -/
structure AxisRegs where
  /-- 0x004 [0] KIND ST: 0 linear, 1 modulo -/
  kind : Bool := false
  /-- 0x004 [1] DECEL_CHANGE ST: 0 DEFER, 1 APPLY -/
  decelChange : Bool := false
  /-- 0x008, 0x00C, 0x010 [31:0] ACT_POS RO: Actual position: frac, low, high -/
  actPos : BitVec 96 := 0
  /-- 0x014, 0x018, 0x01C [31:0] ACT_VEL RO: Actual velocity: frac, low, high -/
  actVel : BitVec 96 := 0
  /-- 0x020, 0x024, 0x028 [31:0] SP_POS RO: Poured position set-point -/
  spPos : BitVec 96 := 0
  /-- 0x02C, 0x030, 0x034 [31:0] SP_VEL RO: Poured velocity set-point -/
  spVel : BitVec 96 := 0
  /-- 0x038, 0x03C, 0x040 [31:0] SP_ACC RO: Poured acceleration set-point -/
  spAcc : BitVec 96 := 0
  /-- 0x048, 0x04C [31:0] TURNS RO: Turn counter, low, high -/
  turns : BitVec 64 := 0
  /-- 0x050, 0x054 [31:0] MODULUS ST: M, low, high; 0 on a linear axis -/
  modulus : BitVec 64 := 0
  /-- 0x058 [31:0] SCALE_NUM RO: NUM, signed -/
  scaleNum : BitVec 32 := 1
  /-- 0x05C [31:0] SCALE_DEN RO: DEN -/
  scaleDen : BitVec 32 := 1
  /-- 0x060, 0x064, 0x068 [31:0] V_MAX ST: Must be set before enable -/
  vMax : BitVec 96 := 0
  /-- 0x06C, 0x070, 0x074 [31:0] A_MAX ST: As V_MAX -/
  aMax : BitVec 96 := 0
  /-- 0x078, 0x07C, 0x080 [31:0] DEC_MAX ST: As V_MAX -/
  decMax : BitVec 96 := 0
  /-- 0x084, 0x088, 0x08C [31:0] J_MAX ST: As V_MAX -/
  jMax : BitVec 96 := 0
  /-- 0x090, 0x094, 0x098 [31:0] DEC_STOP ST: As V_MAX -/
  decStop : BitVec 96 := 0
  /-- 0x09C, 0x0A0, 0x0A4 [31:0] J_STOP ST: As V_MAX -/
  jStop : BitVec 96 := 0
  /-- 0x0A8, 0x0AC [31:0] SW_NEG ST: Soft limit count, int64; the lower of the pair (R613) -/
  swNeg : BitVec 64 := 0
  /-- 0x0B0, 0x0B4 [31:0] SW_POS ST: Soft limit count, int64; the upper of the pair (R613) -/
  swPos : BitVec 64 := 0
  /-- 0x0B8 [0] SW_EN ST: Soft limits enabled -/
  swEn : Bool := false
  /-- 0x0C0, 0x0C4, 0x0C8 [31:0] TARGET RO: Target of the move in force -/
  target : BitVec 96 := 0
  /-- 0x0CC, 0x0D8 [31:0] POS_EXCESS RO: R182, [31:0]; reading captures the high word -/
  posExcess : BitVec 64 := 0
  /-- 0x0D0 [7:0] LIM_POS_SRC ST: 0x00 none; 0x01 to 0x18 FIO00 to FIO23; 0x40 to 0x6F CAP00 to CAP47 -/
  limPosSrc : BitVec 8 := 0
  /-- 0x0D0 [15:8] LIM_NEG_SRC ST: As LIM_POS_SRC -/
  limNegSrc : BitVec 8 := 0
  /-- 0x0D0 [23:16] HOME_SRC ST: As LIM_POS_SRC -/
  homeSrc : BitVec 8 := 0
  /-- 0x0D0 [26:24] ACTIVE_LOW ST: Bit 24 positive limit, 25 negative limit, 26 home -/
  activeLow : BitVec 3 := 0
  /-- 0x0D4 [31:0] IN_POS_WINDOW ST: Counts -/
  inPosWindow : BitVec 32 := 16
  /-- 0x0DC [15:0] IN_POS_TIME ST: µs -/
  inPosTime : BitVec 16 := 1000
  /-- 0x0E0 [13:0] HOLD_TIME ST: ms, 0 to 10,000 -/
  holdTime : BitVec 14 := 100
  /-- 0x100 [3:0] HOME_METHOD ST: 1 to 12; 0 none -/
  homeMethod : BitVec 4 := 0
  /-- 0x104, 0x108, 0x10C [31:0] HOME_VALUE ST: Counts -/
  homeValue : BitVec 96 := 0
  /-- 0x110, 0x114, 0x118 [31:0] V_SEARCH ST: — -/
  vSearch : BitVec 96 := 0
  /-- 0x11C, 0x120, 0x124 [31:0] V_CREEP ST: — -/
  vCreep : BitVec 96 := 0
  /-- 0x128, 0x12C, 0x130 [31:0] A_HOME ST: — -/
  aHome : BitVec 96 := 0
  /-- 0x134, 0x138 [31:0] BACKOFF ST: Counts, int64 -/
  backoff : BitVec 64 := 0
  /-- 0x13C, 0x140 [31:0] MAX_TRAVEL ST: Counts, int64; 0 = no limit -/
  maxTravel : BitVec 64 := 0
  /-- 0x144 [9:0] I_HOME ST: Per mille of rated current -/
  iHome : BitVec 10 := 200
  /-- 0x148 [9:0] T_HS ST: ms, 1 to 1,000 -/
  tHs : BitVec 10 := 50
  /-- 0x180 [3:0] HOME_PHASE RO: 0 idle, 1 leave switch, 2 search, 3 return, 4 creep, 5 settle, 6 done, 7 failed -/
  homePhase : BitVec 4 := 0
  /-- 0x180 [15:8] HOME_FAIL_CAUSE RO: R207 -/
  homeFailCause : BitVec 8 := 0
  /-- 0x184, 0x188 [31:0] LATCH_DT RO: DT ns, low, high -/
  latchDt : BitVec 64 := 0
  /-- 0x18C, 0x190, 0x194 [31:0] LATCH_POS RO: Latched position before re-reference -/
  latchPos : BitVec 96 := 0
  /-- 0x198 [7:0] LATCH_UNC RO: R28 units -/
  latchUnc : BitVec 8 := 0
  /-- 0x1C0 [31:0] MOVE_DONE_COUNT RO: — -/
  moveDoneCount : BitVec 32 := 0
  /-- 0x1C4 [31:0] MOVE_REPLACED_COUNT RO: R192 -/
  moveReplacedCount : BitVec 32 := 0
  /-- 0x1C8 [31:0] OVERSHOOT_COUNT RO: PROFILE_OVERSHOOT raised -/
  overshootCount : BitVec 32 := 0
  /-- 0x1CC [31:0] HOME_COUNT RO: Homings completed -/
  homeCount : BitVec 32 := 0
  /-- 0x1D0 [31:0] HOME_FAIL_COUNT RO: HOMING_FAILED raised -/
  homeFailCount : BitVec 32 := 0
  /-- 0x1D4 [31:0] LIMIT_HIT_COUNT RO: LIMIT_SWITCH and SOFT_LIMIT raised -/
  limitHitCount : BitVec 32 := 0
  /-- 0x1E0 [0] POS_LIMIT_SEEN W1C: — -/
  posLimitSeen : Bool := false
  /-- 0x1E0 [1] OVERSHOOT_SEEN W1C: — -/
  overshootSeen : Bool := false
  /-- 0x1E0 [2] LIMIT_SEEN W1C: — -/
  limitSeen : Bool := false
  /-- 0x1E0 [3] UNCERTAIN_SEEN W1C: — -/
  uncertainSeen : Bool := false
  /-- 0x1E0 [8] CNT_OVF W1C: A counter of this axis saturated -/
  cntOvf : Bool := false
deriving DecidableEq, Repr

/-- The gear, cam and register controller words of one axis, R240. -/
structure FollowRegs where
  /-- 0x200 [2:0] GEAR_STATE RO: 0 OFF, 1 WAIT_POS, 2 ENGAGING, 3 ENGAGED -/
  gearState : BitVec 3 := 0
  /-- 0x200 [6:4] CHG_PENDING RO: Armed changes, 0 to 4 -/
  chgPending : BitVec 3 := 0
  /-- 0x200 [10:8] CAM_STATE RO: 0 OFF, 1 WAIT_POS, 2 RUNNING, 3 ENDED -/
  camState : BitVec 3 := 0
  /-- 0x200 [12] SWAP_PENDING RO: R233 -/
  swapPending : Bool := false
  /-- 0x200 [13] CAM_MODE RO: 0 one-shot, 1 periodic -/
  camMode : Bool := false
  /-- 0x204 [15:0] MASTER_SRC ST: Source code; 0xFFFF none -/
  masterSrc : BitVec 16 := 65535
  /-- 0x204 [16] USE_SP ST: R214 -/
  useSp : Bool := false
  /-- 0x208 [31:0] GEAR_N ST: N, signed -/
  gearN : BitVec 32 := 0
  /-- 0x20C [31:0] GEAR_D ST: D -/
  gearD : BitVec 32 := 1
  /-- 0x210 [31:0] GEAR_REM RO: rem (R218) -/
  gearRem : BitVec 32 := 0
  /-- 0x214, 0x218 [31:0] LOSS_ACC RO: acc, low, high (R220) -/
  lossAcc : BitVec 64 := 0
  /-- 0x220, 0x224, 0x228 [31:0] CHG_POS RO: Live change P_c: frac, low, high -/
  chgPos : BitVec 96 := 0
  /-- 0x22C [1:0] CHG_DIR RO: 0 positive, 1 negative, 2 either -/
  chgDir : BitVec 2 := 0
  /-- 0x230 [31:0] CHG_N RO: Live change N1 -/
  chgN : BitVec 32 := 0
  /-- 0x234 [31:0] CHG_D RO: Live change D1 -/
  chgD : BitVec 32 := 1
  /-- 0x238, 0x23C [31:0] ENG_DIST RO: E, low, high -/
  engDist : BitVec 64 := 0
  /-- 0x244, 0x248, 0x24C [31:0] ENG_PROGRESS RO: x of R226 -/
  engProgress : BitVec 96 := 0
  /-- 0x250 [3:0] CAM_TABLE RO: Table in force -/
  camTable : BitVec 4 := 0
  /-- 0x250 [7:4] CAM_NEXT RO: Pending swap table -/
  camNext : BitVec 4 := 0
  /-- 0x254, 0x258, 0x25C [31:0] CAM_PHASE RO: u: frac, low, high -/
  camPhase : BitVec 96 := 0
  /-- 0x260, 0x264 [31:0] CAM_PERIODS RO: k, int64 -/
  camPeriods : BitVec 64 := 0
  /-- 0x268, 0x26C, 0x270 [31:0] CAM_OFFSET RO: OFFSET of R231 -/
  camOffset : BitVec 96 := 0
  /-- 0x280, 0x284, 0x288 [31:0] REG_OFFSET RO: Applied offset -/
  regOffset : BitVec 96 := 0
  /-- 0x28C [1:0] REG_STATE RO: 0 off, 1 running, 2 holding (R237) -/
  regState : BitVec 2 := 0
  /-- 0x290 [31:0] REG_LAST_ERR RO: Last e, signed, 2^-8 counts, saturating -/
  regLastErr : BitVec 32 := 0
  /-- 0x294 [31:0] REG_MARK_COUNT RO: Measurements accepted -/
  regMarkCount : BitVec 32 := 0
  /-- 0x298 [31:0] REG_MISS_COUNT RO: MARK_MISSING raised -/
  regMissCount : BitVec 32 := 0
  /-- 0x29C [31:0] REG_OUTLIER_COUNT RO: R235 -/
  regOutlierCount : BitVec 32 := 0
  /-- 0x2A0 [31:0] GEAR_CHANGE_COUNT RO: Ratio changes, staged and positional -/
  gearChangeCount : BitVec 32 := 0
  /-- 0x2A4 [31:0] CAM_SWAP_COUNT RO: Swaps made -/
  camSwapCount : BitVec 32 := 0
  /-- 0x2A8 [31:0] REG_RATELIM_COUNT RO: Pours with rate limit active -/
  regRatelimCount : BitVec 32 := 0
  /-- 0x2B0 [0] CHANGE_SEEN W1C: GEAR_CHANGED raised -/
  changeSeen : Bool := false
  /-- 0x2B0 [1] SWAP_SEEN W1C: CAM_SWAPPED raised -/
  swapSeen : Bool := false
  /-- 0x2B0 [2] MISSING_SEEN W1C: MARK_MISSING raised -/
  missingSeen : Bool := false
  /-- 0x2B0 [3] CLAMP_SEEN W1C: REG_OFFSET_CLAMPED raised -/
  clampSeen : Bool := false
  /-- 0x2B0 [8] CNT_OVF W1C: A counter of this block saturated -/
  cntOvf : Bool := false
deriving DecidableEq, Repr

/-- One loop block of R279. -/
structure LoopRegs where
  /-- 0x040 [0] SAT_ERR W1C: R255 -/
  satErr : Bool := false
  /-- 0x040 [1] SAT_P W1C: — -/
  satP : Bool := false
  /-- 0x040 [2] SAT_I W1C: — -/
  satI : Bool := false
  /-- 0x040 [3] SAT_D W1C: — -/
  satD : Bool := false
  /-- 0x040 [4] SAT_FF W1C: — -/
  satFf : Bool := false
  /-- 0x040 [5] SAT_SUM W1C: — -/
  satSum : Bool := false
  /-- 0x040 [6] SAT_OUT W1C: — -/
  satOut : Bool := false
  /-- 0x040 [8] SUP_VIOL_SEEN W1C: FEEDBACK_IMPLAUSIBLE raised -/
  supViolSeen : Bool := false
  /-- 0x040 [9] BUMP_SEEN W1C: BUMP_RESIDUAL raised -/
  bumpSeen : Bool := false
  /-- 0x040 [10] DW_IGNORED_SEEN W1C: R267 -/
  dwIgnoredSeen : Bool := false
  /-- 0x040 [16] CNT_OVF W1C: A counter of this loop saturated -/
  cntOvf : Bool := false
  /-- 0x044 [1:0] LOOP_MODE RO: 0 AUTO, 1 MANUAL, 2 TRACK, 3 OFF -/
  loopMode : BitVec 2 := 3
  /-- 0x044 [2] TUNING RO: Tuning mode on -/
  tuning : Bool := false
  /-- 0x044 [3] SUP_ACTIVE RO: R270 -/
  supActive : Bool := false
  /-- 0x044 [12:8] ENGINE RO: Engine running this loop -/
  engine : BitVec 5 := 0
  /-- 0x048 [5:0] K ST: 1 to 32 -/
  k : BitVec 6 := 1
  /-- 0x048 [11:8] KV ST: 1 to 8 -/
  kv : BitVec 4 := 1
  /-- 0x048 [15:12] KP_DIV ST: Kp, 1 to 8 -/
  kpDiv : BitVec 4 := 1
  /-- 0x048 [21:16] LOCAL_DIV ST: 1 to 32 -/
  localDiv : BitVec 6 := 1
  /-- 0x048 [24] SP_INTERP ST: 0 HOLD, 1 TAYLOR -/
  spInterp : Bool := true
  /-- 0x048 [25] INNER_INTERP ST: R250 -/
  innerInterp : Bool := false
  /-- 0x048 [27:26] TOP ST: R248 -/
  top : BitVec 2 := 0
  /-- 0x04C [0] REQ_MODE ST: 0 AUTO, 1 MANUAL -/
  reqMode : Bool := false
  /-- 0x04C [1] BUMPLESS ST: R260 -/
  bumpless : Bool := true
  /-- 0x04C [2] MAN_TRACK ST: R262 -/
  manTrack : Bool := false
  /-- 0x050 [15:0] PROGRAM_ID RO: R276 -/
  programId : BitVec 16 := 0
  /-- 0x050 [31:16] PROGRAM_VER RO: Program version -/
  programVer : BitVec 16 := 0
  /-- 0x080 [31:0] KP DW: Q8.24 -/
  kp : BitVec 32 := 0
  /-- 0x084 [31:0] KI DW: Q8.24 -/
  ki : BitVec 32 := 0
  /-- 0x088 [31:0] KD DW: Q8.24 -/
  kd : BitVec 32 := 0
  /-- 0x08C [31:0] KFF DW: Q8.24 -/
  kff : BitVec 32 := 0
  /-- 0x090 [31:0] D_FILT DW: Q8.24, 1.0 = no filtering -/
  dFilt : BitVec 32 := 16777216
  /-- 0x094 [31:0] OUT_MIN DW: Signed -/
  outMin : BitVec 32 := 2147483648
  /-- 0x098 [31:0] OUT_MAX DW: Signed -/
  outMax : BitVec 32 := 2147483647
  /-- 0x09C [31:0] MAN_OUT ST: Signed -/
  manOut : BitVec 32 := 0
  /-- 0x0A0 [5:0] IN_SHIFT ST: −16 to +15, two's complement -/
  inShift : BitVec 6 := 0
  /-- 0x0A4 [13:0] SAT_TIME ST: ms; 0 off -/
  satTime : BitVec 14 := 0
  /-- 0x100 [1:0] SUP_MODEL ST: R268 -/
  supModel : BitVec 2 := 0
  /-- 0x104 [31:0] SUP_KA_KQ ST: float32 -/
  supKaKq : BitVec 32 := 0
  /-- 0x108 [31:0] SUP_KB_DB ST: float32 -/
  supKbDb : BitVec 32 := 0
  /-- 0x10C [31:0] SUP_KF ST: float32 -/
  supKf : BitVec 32 := 0
  /-- 0x110 [31:0] SUP_LOAD_BW ST: float32 Hz, default 1.0 -/
  supLoadBw : BitVec 32 := 1065353216
  /-- 0x114 [31:0] THR_SUP ST: Node units -/
  thrSup : BitVec 32 := 2147483647
  /-- 0x118 [16:0] TAU_SUP ST: µs, 100 to 100,000 -/
  tauSup : BitVec 17 := 10000
  /-- 0x11C [9:0] T_SUP ST: ms, 1 to 1,000 -/
  tSup : BitVec 10 := 100
  /-- 0x180 [31:0] SAT_OUT_COUNT RO: R257 -/
  satOutCount : BitVec 32 := 0
  /-- 0x184 [31:0] SUP_VIOL_COUNT RO: FEEDBACK_IMPLAUSIBLE raised -/
  supViolCount : BitVec 32 := 0
  /-- 0x188 [31:0] DW_WRITE_COUNT RO: Direct writes taken -/
  dwWriteCount : BitVec 32 := 0
  /-- 0x18C [31:0] DW_IGNORED_COUNT RO: R267 -/
  dwIgnoredCount : BitVec 32 := 0
  /-- 0x190 [31:0] MODE_SWITCH_COUNT RO: Mode changes -/
  modeSwitchCount : BitVec 32 := 0
  /-- 0x194 [31:0] BUMP_COUNT RO: BUMP_RESIDUAL raised -/
  bumpCount : BitVec 32 := 0
deriving DecidableEq, Repr

/-- One trace unit of R280. -/
structure TraceRegs where
  /-- 0x000 [2:0] TR_STATE RO: 0 idle, 1 armed and filling PRE, 2 armed, 3 triggered, 4 complete, 5 stopped -/
  trState : BitVec 3 := 0
  /-- 0x004 [31:0] MEM_BASE RO: Byte offset of the partition from 0x0880_0000 -/
  memBase : BitVec 32 := 0
  /-- 0x008 [31:0] MEM_SIZE RO: Partition size in bytes -/
  memSize : BitVec 32 := 0
  /-- 0x00C [15:0] NEXT_SEQ RO: Next record sequence number -/
  nextSeq : BitVec 16 := 0
  /-- 0x010 [15:0] TRIG_SEQ RO: Sequence number of the trigger sample -/
  trigSeq : BitVec 16 := 0
  /-- 0x014, 0x018 [31:0] TRIG_DT RO: Trigger sample due DT ns[31:0]; reading captures TRIG_DT_HI -/
  trigDt : BitVec 64 := 0
  /-- 0x01C [31:0] IGNORED_PRETRIG RO: R275; saturates at 0xFFFF_FFFF -/
  ignoredPretrig : BitVec 32 := 0
  /-- 0x020 [31:0] RECORDS_WRITTEN RO: Since arming; saturates at 0xFFFF_FFFF -/
  recordsWritten : BitVec 32 := 0
  /-- 0x024 [31:0] OLDEST_OFFSET RO: Byte offset of the oldest record in the partition -/
  oldestOffset : BitVec 32 := 0
  /-- 0x028 [0] TRIG_LATE W1C: R274 -/
  trigLate : Bool := false
  /-- 0x028 [1] COMPLETE_SEEN W1C: TRACE_COMPLETE raised -/
  completeSeen : Bool := false
  /-- 0x028 [8] CNT_OVF W1C: A counter of this unit saturated -/
  cntOvf : Bool := false
  /-- 0x100 [31:0] SIGNAL_SEL RO: Selector of signal s, 0 to 63 (R272) -/
  signalSel : Vector (BitVec 32) 64 := Vector.replicate 64 0
deriving DecidableEq, Repr

/-- One loop engine of R317. -/
structure EngineRegs where
  /-- 0x000 [2:0] LE_STATE RO: 0 STOPPED, 1 LOADING, 2 RUNNING, 3 FAULTED, 4 DEBUG_HALT -/
  leState : BitVec 3 := 0
  /-- 0x000 [7:4] CLOCK RO: 0 off; 1 to 4 as in R313 -/
  clock : BitVec 4 := 0
  /-- 0x000 [15:8] FAULT_CAUSE RO: R309 -/
  faultCause : BitVec 8 := 0
  /-- 0x004 [12:0] FAULT_PC RO: — -/
  faultPc : BitVec 13 := 0
  /-- 0x008 [15:0] FAULT_ADDR RO: — -/
  faultAddr : BitVec 16 := 0
  /-- 0x00C [31:0] IMAGE_CRC RO: CRC-32C of the running image -/
  imageCrc : BitVec 32 := 0
  /-- 0x010 [15:0] IMAGE_CHECK RO: R314 -/
  imageCheck : BitVec 16 := 0
  /-- 0x018 [9:0] LOAD_PERMILLE RO: Cycles in ticks over the last 1,024 pour cycles, per mille -/
  loadPermille : BitVec 10 := 0
  /-- 0x018 [25:16] LOAD_PEAK RO: Highest single-pour value since clear -/
  loadPeak : BitVec 10 := 0
  /-- 0x020 [31:0] ECC_CORR_PROG RO: R310 -/
  eccCorrProg : BitVec 32 := 0
  /-- 0x024 [31:0] ECC_CORR_DATA RO: — -/
  eccCorrData : BitVec 32 := 0
  /-- 0x028 [31:0] ECC_CORR_PORT RO: Corrections detected by this engine -/
  eccCorrPort : BitVec 32 := 0
  /-- 0x030 [31:0] USER_EVENT_COUNT RO: EVT executed -/
  userEventCount : BitVec 32 := 0
  /-- 0x040 [0] OVERRUN_SEEN W1C: TICK_OVERRUN raised -/
  overrunSeen : Bool := false
  /-- 0x040 [1] ECC_SEEN W1C: ECC_CORRECTED raised -/
  eccSeen : Bool := false
  /-- 0x040 [2] FAULT_SEEN W1C: LE_FAULT raised -/
  faultSeen : Bool := false
  /-- 0x040 [8] CNT_OVF W1C: A counter of this engine saturated -/
  cntOvf : Bool := false
  /-- 0x200 [31:0] MAX_CYCLES RO: Longest measured run of entry k, saturating -/
  maxCycles : Vector (BitVec 32) 16 := Vector.replicate 16 0
  /-- 0x240 [31:0] WCET RO: R302 -/
  wcet : Vector (BitVec 32) 16 := Vector.replicate 16 0
deriving DecidableEq, Repr

/-- One tick entry of a loop engine, R317. -/
structure TickRegs where
  /-- 0x100 [0] EN ST: Entry k enabled -/
  en : Bool := false
  /-- 0x100 [6:4] SOURCE_KIND LK: R297; 0 unused -/
  sourceKind : BitVec 3 := 0
  /-- 0x100 [12:8] SOURCE_NUM LK: Axis, compare unit or tile -/
  sourceNum : BitVec 5 := 0
  /-- 0x100 [23:16] DIV ST: DIV − 1 -/
  div : BitVec 8 := 0
  /-- 0x100 [31:24] PHASE ST: — -/
  phase : BitVec 8 := 0
  /-- 0x104 [12:0] TICK_ADDR LK: Entry address -/
  tickAddr : BitVec 13 := 0
  /-- 0x104 [31:16] TICK_CTX LK: CTX word address -/
  tickCtx : BitVec 16 := 0
  /-- 0x108 [6:0] FIRST_LOOP LK: Loop 0 to 95 -/
  firstLoop : BitVec 7 := 0
  /-- 0x108 [11:8] LOOP_MASK LK: R297 -/
  loopMask : BitVec 4 := 0
  /-- 0x108 [31:16] PROGRAM_ID LK: R314 -/
  programId : BitVec 16 := 0
  /-- 0x10C [31:0] OVERRUN_COUNT RO: R299 -/
  overrunCount : BitVec 32 := 0
deriving DecidableEq, Repr

/-- One power tile of R354. -/
structure TileRegs where
  /-- 0x000 [2:0] TILE_STATE RO: As status word 0x40 [2:0] -/
  tileState : BitVec 3 := 0
  /-- 0x000 [3] TRIP RO: R342 -/
  trip : Bool := false
  /-- 0x000 [4] TRIP_INPUT RO: Filtered Ttt_FLT_n is low -/
  tripInput : Bool := false
  /-- 0x000 [5] LOAD_PENDING RO: R335 -/
  loadPending : Bool := false
  /-- 0x000 [6] REGEN_CLAMP RO: R349 -/
  regenClamp : Bool := false
  /-- 0x000 [10:8] HALL_STATE RO: R336 -/
  hallState : BitVec 3 := 0
  /-- 0x000 [11] STO RO: Caldera holds STO -/
  sto : Bool := false
  /-- 0x004 [4:0] VENT_CAUSE RO: Bit 0 trip, 1 fault, 2 group overvoltage, 3 control-plane reset, 4 Kettle (R339) -/
  ventCause : BitVec 5 := 0
  /-- 0x004 [8] CHOPPER_VENTED RO: R349 -/
  chopperVented : Bool := false
  /-- 0x008 [1:0] MODE ST: R318 -/
  mode : BitVec 2 := 0
  /-- 0x008 [2] LOCAL ST: Local mode -/
  localField : Bool := false
  /-- 0x008 [3] BLOCK ST: Block commutation -/
  block : Bool := false
  /-- 0x008 [4] BRAKE_EN ST: R347 -/
  brakeEn : Bool := false
  /-- 0x008 [6:5] DCL ST: Group 0 to 3 -/
  dcl : BitVec 2 := 0
  /-- 0x008 [7] DCL_MEMBER ST: R346 -/
  dclMember : Bool := false
  /-- 0x008 [8] ACTIVE_LOW LK: R320 -/
  activeLow : Bool := true
  /-- 0x00C [17:0] PERIOD_CLK ST: 4,000 to 200,000 clocks -/
  periodClk : BitVec 18 := 20000
  /-- 0x00C [24] CENTRE ST: R326 -/
  centre : Bool := true
  /-- 0x00C [25] DOUBLE ST: R326 -/
  double : Bool := false
  /-- 0x00C [26] MINPULSE ST: 0 DROP, 1 STRETCH -/
  minpulse : Bool := false
  /-- 0x010 [17:0] PHASE_CLK ST: R325 -/
  phaseClk : BitVec 18 := 0
  /-- 0x014 [15:0] MIN_PULSE ST: 0 to 51,200 -/
  minPulse : BitVec 16 := 0
  /-- 0x018 [15:0] DEADTIME ST: HBh, 0 to 51,200 -/
  deadtime : Vector (BitVec 16) 4 := Vector.replicate 4 12800
  /-- 0x028 [3:0] DTC_EN ST: R329 -/
  dtcEn : BitVec 4 := 0
  /-- 0x02C [6:0] FLT_FILT ST: 10 ns units, 0 to 100 -/
  fltFilt : BitVec 7 := 10
  /-- 0x02C [8] FLT_EN ST: R340 -/
  fltEn : Bool := true
  /-- 0x040 [5:0] HALL_ENTRY ST: Hall state s (R336, R337); 0x15 is all OFF -/
  hallEntry : Vector (BitVec 6) 8 := #v[0x15, 0, 0, 0, 0, 0, 0, 0x15]
  /-- 0x080 [31:0] PERIOD_COUNT RO: Periods run, wrapping -/
  periodCount : BitVec 32 := 0
  /-- 0x084 [31:0] CARRY RO: HBh carry, signed (R331) -/
  carry : Vector (BitVec 32) 4 := Vector.replicate 4 0
  /-- 0x094 [31:0] CARRY_SAT_COUNT RO: PWM_CARRY_SAT raised -/
  carrySatCount : BitVec 32 := 0
  /-- 0x098, 0x09C [31:0] CARRY_LOST RO: Excess discarded, low, high; saturates -/
  carryLost : BitVec 64 := 0
  /-- 0x0A0 [31:0] DROP_COUNT RO: Intervals dropped -/
  dropCount : BitVec 32 := 0
  /-- 0x0A4 [31:0] STRETCH_COUNT RO: Intervals stretched, including forced stretches -/
  stretchCount : BitVec 32 := 0
  /-- 0x0A8 [31:0] TRIP_COUNT RO: TILE_TRIP raised -/
  tripCount : BitVec 32 := 0
  /-- 0x0AC [31:0] HALL_EDGE_COUNT RO: Filtered Hall edges -/
  hallEdgeCount : BitVec 32 := 0
  /-- 0x0B0 [31:0] HALL_ILLEGAL_COUNT RO: R337 -/
  hallIllegalCount : BitVec 32 := 0
  /-- 0x0B4 [31:0] RESYNC_COUNT RO: R327 -/
  resyncCount : BitVec 32 := 0
  /-- 0x0B8 [31:0] FREEZE_COUNT RO: R343 -/
  freezeCount : BitVec 32 := 0
  /-- 0x0BC [31:0] LOAD_ALL_COUNT RO: R335 -/
  loadAllCount : BitVec 32 := 0
  /-- 0x0C0 [31:0] TRIP_CLEAR_REFUSED_COUNT RO: R342 -/
  tripClearRefusedCount : BitVec 32 := 0
  /-- 0x0C4, 0x0C8 [31:0] LAST_TRIP_DT RO: DT ns of the last trip, low, high -/
  lastTripDt : BitVec 64 := 0
  /-- 0x0D0 [0] TRIP_SEEN W1C: — -/
  tripSeen : Bool := false
  /-- 0x0D0 [1] CARRY_SAT_SEEN W1C: — -/
  carrySatSeen : Bool := false
  /-- 0x0D0 [2] HALL_ILLEGAL_SEEN W1C: — -/
  hallIllegalSeen : Bool := false
  /-- 0x0D0 [3] FROZEN_SEEN W1C: — -/
  frozenSeen : Bool := false
  /-- 0x0D0 [8] CNT_OVF W1C: A counter of this tile saturated -/
  cntOvf : Bool := false
  /-- 0x100 [31:0] DUTY_IN_FORCE RO: HBh duty taken (R333) -/
  dutyInForce : Vector (BitVec 32) 4 := Vector.replicate 4 0
  /-- 0x110 [31:0] LEG_CTL_IN_FORCE RO: Control word taken -/
  legCtlInForce : BitVec 32 := 0
deriving DecidableEq, Repr

/-- One DC-link group of R355. -/
structure DclRegs where
  /-- 0x000 [0] OVP_VENTED RO: R350 -/
  ovpVented : Bool := false
  /-- 0x000 [1] REGEN_LIMITED RO: R349 -/
  regenLimited : Bool := false
  /-- 0x000 [2] BRAKE_INEFF RO: A chopper of the group is ineffective -/
  brakeIneff : Bool := false
  /-- 0x000 [3] UNDERVOLT RO: R351 -/
  undervolt : Bool := false
  /-- 0x000 [4] CHOPPER_ON_ANY RO: A chopper of the group is on -/
  chopperOnAny : Bool := false
  /-- 0x000 [31:16] MEMBERS RO: Member tiles -/
  members : BitVec 16 := 0
  /-- 0x004 [31:0] VDC_FS_MV ST: R346 -/
  vdcFsMv : BitVec 32 := 1000000
  /-- 0x008 [31:0] V_BRK_ON ST: — -/
  vBrkOn : BitVec 32 := 0
  /-- 0x00C [31:0] V_BRK_OFF ST: — -/
  vBrkOff : BitVec 32 := 0
  /-- 0x010 [31:0] V_OVP ST: 0 = unset (R346) -/
  vOvp : BitVec 32 := 0
  /-- 0x014 [31:0] DV_CHK ST: R348 -/
  dvChk : BitVec 32 := 10000
  /-- 0x018 [16:0] T_CHK ST: µs, 100 to 100,000 -/
  tChk : BitVec 17 := 2000
  /-- 0x01C [31:0] V_UV ST: 0 = off -/
  vUv : BitVec 32 := 0
  /-- 0x020 [31:0] VDC_MAX RO: Highest latest member reading -/
  vdcMax : BitVec 32 := 0
  /-- 0x024 [31:0] VDC_MIN RO: Lowest latest member reading -/
  vdcMin : BitVec 32 := 0
  /-- 0x028 [31:0] OVP_COUNT RO: DCL_OVERVOLT raised -/
  ovpCount : BitVec 32 := 0
  /-- 0x02C [31:0] BRAKE_INEFF_COUNT RO: BRAKE_INEFFECTIVE raised -/
  brakeIneffCount : BitVec 32 := 0
  /-- 0x030 [31:0] CHOPPER_ON_COUNT RO: Chopper turn-ons -/
  chopperOnCount : BitVec 32 := 0
  /-- 0x034 [31:0] UV_COUNT RO: DCL_UNDERVOLT raised -/
  uvCount : BitVec 32 := 0
  /-- 0x038 [0] OVP_SEEN W1C: — -/
  ovpSeen : Bool := false
  /-- 0x038 [1] BRAKE_SEEN W1C: — -/
  brakeSeen : Bool := false
  /-- 0x038 [2] UV_SEEN W1C: — -/
  uvSeen : Bool := false
  /-- 0x038 [8] CNT_OVF W1C: A counter of this group saturated -/
  cntOvf : Bool := false
deriving DecidableEq, Repr

/-- The motor field control words of one tile, R385. -/
structure FocRegs where
  /-- 0x400 [2:0] START_STATE RO: 0 OFF, 1 LISTEN, 2 BRAKE, 3 READY, 4 ALIGN, 5 RAMP, 6 HANDOVER, 7 CLOSED; encoder axes read 7 in RUN -/
  startState : BitVec 3 := 0
  /-- 0x400 [5:4] MOD_REGION RO: 0 linear, 1 I, 2 II, 3 six-step -/
  modRegion : BitVec 2 := 0
  /-- 0x400 [6] OBS_CONVERGED RO: R372 -/
  obsConverged : Bool := false
  /-- 0x400 [7] IDENTIFYING RO: R381 -/
  identifying : Bool := false
  /-- 0x400 [8] OFFSET_VALID RO: R370 -/
  offsetValid : Bool := false
  /-- 0x400 [15:12] START_TRIES RO: R378 -/
  startTries : BitVec 4 := 0
  /-- 0x404 [0] SENSE ST: 0 INLINE, 1 LEG_SHUNT -/
  sense : Bool := false
  /-- 0x404 [1] THREE ST: R363 -/
  three : Bool := true
  /-- 0x404 [2] SHIFT_EN ST: R367 -/
  shiftEn : Bool := true
  /-- 0x404 [3] ANGLE_SRC ST: 0 ENCODER, 1 OBSERVER -/
  angleSrc : Bool := false
  /-- 0x404 [4] VOLT_SRC ST: 0 MEASURED, 1 COMMANDED -/
  voltSrc : Bool := false
  /-- 0x404 [5] ALIGN_AT_ENABLE ST: R370 -/
  alignAtEnable : Bool := false
  /-- 0x404 [6] FLY_EN ST: R379 -/
  flyEn : Bool := false
  /-- 0x408 [14:0] WIN_LEN ST: ns, 1,000 to 20,000 -/
  winLen : BitVec 15 := 4000
  /-- 0x40C [12:0] T_SETTLE ST: ns, 0 to 5,000 -/
  tSettle : BitVec 13 := 1000
  /-- 0x410 [31:0] EPERIOD_NUM ST: R369 -/
  eperiodNum : BitVec 32 := 1
  /-- 0x414 [31:0] EPERIOD_DEN ST: R369 -/
  eperiodDen : BitVec 32 := 1
  /-- 0x418 [31:0] ANGLE_OFFSET ST: 2^-32 electrical period -/
  angleOffset : BitVec 32 := 0
  /-- 0x41C [16:0] ANGLE_ADV ST: ns, 0 to 100,000 -/
  angleAdv : BitVec 17 := 0
  /-- 0x420 [31:0] RS ST: float32 Ω -/
  rs : BitVec 32 := 0
  /-- 0x424 [31:0] LD ST: float32 H -/
  ld : BitVec 32 := 0
  /-- 0x428 [31:0] LQ ST: float32 H -/
  lq : BitVec 32 := 0
  /-- 0x42C [31:0] PSI ST: float32 V·s -/
  psi : BitVec 32 := 0
  /-- 0x430 [31:0] I_FS_MA ST: mA at full scale; enable refused with PARAM_RANGE while 0 -/
  iFsMa : BitVec 32 := 0
  /-- 0x434 [31:0] I_MAX ST: R358 -/
  iMax : BitVec 32 := 2147483647
  /-- 0x438 [31:0] I_SUM_THR ST: R364 -/
  iSumThr : BitVec 32 := 0
  /-- 0x43C [31:0] I_TRIP ST: R360 -/
  iTrip : BitVec 32 := 2147483647
  /-- 0x440 [31:0] ID_REF ST: d current set-point, signed -/
  idRef : BitVec 32 := 0
  /-- 0x444 [31:0] M_MAX ST: Q1.31; 0.907 -/
  mMax : BitVec 32 := 1947729081
  /-- 0x448 [31:0] OM_GAIN ST: Q8.24; 0.5 -/
  omGain : BitVec 32 := 8388608
  /-- 0x44C [7:0] PRED_MAX ST: R368 -/
  predMax : BitVec 8 := 16
  /-- 0x450 [31:0] OBS_BW ST: float32 Hz; 500 -/
  obsBw : BitVec 32 := 1140457472
  /-- 0x454 [31:0] PLL_BW ST: float32 Hz; 50 -/
  pllBw : BitVec 32 := 1112014848
  /-- 0x458 [31:0] OBS_MIN_SPEED ST: Counts per second -/
  obsMinSpeed : BitVec 32 := 0
  /-- 0x45C [15:0] CONV_THR ST: 2^-16 electrical period -/
  convThr : BitVec 16 := 910
  /-- 0x460 [9:0] CONV_TIME ST: ms -/
  convTime : BitVec 10 := 20
  /-- 0x470 [31:0] I_ALIGN ST: — -/
  iAlign : BitVec 32 := 0
  /-- 0x474 [13:0] T_ALIGN ST: ms -/
  tAlign : BitVec 14 := 200
  /-- 0x478 [31:0] I_START ST: — -/
  iStart : BitVec 32 := 0
  /-- 0x47C [31:0] A_START ST: Counts per second² -/
  aStart : BitVec 32 := 0
  /-- 0x480 [31:0] V_HANDOVER ST: Counts per second -/
  vHandover : BitVec 32 := 0
  /-- 0x484 [6:0] T_BLEND ST: ms -/
  tBlend : BitVec 7 := 10
  /-- 0x488 [13:0] T_START_TIMEOUT ST: ms -/
  tStartTimeout : BitVec 14 := 2000
  /-- 0x48C [3:0] START_RETRIES ST: 0 to 15 -/
  startRetries : BitVec 4 := 3
  /-- 0x490 [13:0] T_RETRY_WAIT ST: ms -/
  tRetryWait : BitVec 14 := 500
  /-- 0x494 [31:0] V_CATCH ST: Counts per second -/
  vCatch : BitVec 32 := 0
  /-- 0x498 [13:0] T_BRAKE ST: ms -/
  tBrake : BitVec 14 := 200
  /-- 0x49C [31:0] FLY_MIN_EMF ST: Q1.31; 0.02 -/
  flyMinEmf : BitVec 32 := 42949673
  /-- 0x4C0 [31:0] THETA_E RO: As port word 0x8C -/
  thetaE : BitVec 32 := 0
  /-- 0x4C4 [31:0] OMEGA_E RO: As port word 0x8D -/
  omegaE : BitVec 32 := 0
  /-- 0x4C8 [31:0] MOD_INDEX RO: As port word 0x8E -/
  modIndex : BitVec 32 := 0
  /-- 0x4CC [31:0] ID_MEAS RO: i_d at the last tick -/
  idMeas : BitVec 32 := 0
  /-- 0x4D0 [31:0] IQ_MEAS RO: i_q at the last tick -/
  iqMeas : BitVec 32 := 0
  /-- 0x4D4 [31:0] THETA_OBS RO: θ̂ -/
  thetaObs : BitVec 32 := 0
  /-- 0x4D8 [31:0] PLL_ERR RO: Signed -/
  pllErr : BitVec 32 := 0
  /-- 0x4E0 [31:0] SHIFT_COUNT RO: R368 -/
  shiftCount : BitVec 32 := 0
  /-- 0x4E4 [31:0] RECON_COUNT RO: R368 -/
  reconCount : BitVec 32 := 0
  /-- 0x4E8 [31:0] PREDICT_COUNT RO: R368 -/
  predictCount : BitVec 32 := 0
  /-- 0x4EC [31:0] START_COUNT RO: Entries to ALIGN or a catch -/
  startCount : BitVec 32 := 0
  /-- 0x4F0 [31:0] START_FAIL_COUNT RO: START_FAILED raised -/
  startFailCount : BitVec 32 := 0
  /-- 0x4F4 [31:0] CATCH_COUNT RO: FLYING_CATCH raised -/
  catchCount : BitVec 32 := 0
  /-- 0x4F8 [31:0] OVERCURRENT_COUNT RO: PHASE_OVERCURRENT raised -/
  overcurrentCount : BitVec 32 := 0
  /-- 0x4FC [0] OVERCURRENT_SEEN W1C: — -/
  overcurrentSeen : Bool := false
  /-- 0x4FC [1] SUM_ERR_SEEN W1C: — -/
  sumErrSeen : Bool := false
  /-- 0x4FC [2] NO_WINDOW_SEEN W1C: — -/
  noWindowSeen : Bool := false
  /-- 0x4FC [3] START_FAIL_SEEN W1C: — -/
  startFailSeen : Bool := false
  /-- 0x4FC [4] OBS_LOST_SEEN W1C: — -/
  obsLostSeen : Bool := false
  /-- 0x4FC [8] CNT_OVF W1C: A counter of this block saturated -/
  cntOvf : Bool := false
deriving DecidableEq, Repr

/-- The identification results of one tile, R386. -/
structure IdentResultRegs where
  /-- 0x500 [4:0] IDENT_DONE RO: Steps completed in the last run, as the mask of R381 -/
  identDone : BitVec 5 := 0
  /-- 0x500 [10:8] IDENT_FAIL_STEP RO: Step that ended the run, 0 to 4; 7 none -/
  identFailStep : BitVec 3 := 0
  /-- 0x500 [15:12] IDENT_STATE RO: 0 idle, 1 to 5 running step 0 to 4, 6 done, 7 aborted -/
  identState : BitVec 4 := 0
  /-- 0x504 [31:0] ID_OFFSET RO: ANGLE_OFFSET found -/
  idOffset : BitVec 32 := 0
  /-- 0x508 [31:0] ID_RS RO: float32 Ω -/
  idRs : BitVec 32 := 0
  /-- 0x50C [31:0] ID_LD RO: float32 H -/
  idLd : BitVec 32 := 0
  /-- 0x510 [31:0] ID_LQ RO: float32 H -/
  idLq : BitVec 32 := 0
  /-- 0x514 [31:0] ID_PSI RO: float32 V·s -/
  idPsi : BitVec 32 := 0
  /-- 0x518 [31:0] ID_KA RO: float32, current units per count/s² -/
  idKa : BitVec 32 := 0
  /-- 0x51C [31:0] ID_KB RO: float32, current units per count/s -/
  idKb : BitVec 32 := 0
  /-- 0x520 [31:0] ID_KF RO: float32, current units -/
  idKf : BitVec 32 := 0
  /-- 0x524 [31:0] ID_RUN_DT RO: DT ns[31:0] at which the last run ended -/
  idRunDt : BitVec 32 := 0
deriving DecidableEq, Repr

/-- The stepper and valve words of one tile, R410. -/
structure SvRegs where
  /-- 0x600 [1:0] MEAS_STATE RO: 0 idle, 1 measuring, 2 done, 3 failed -/
  measState : BitVec 2 := 0
  /-- 0x600 [2] STALLED RO: STALL in force -/
  stalled : Bool := false
  /-- 0x600 [4:3] UNDERDRIVE RO: Coil A or 0, coil B or 1 (R397) -/
  underdrive : BitVec 2 := 0
  /-- 0x600 [5] TABLE_SEL RO: Table in force (R390) -/
  tableSel : Bool := false
  /-- 0x600 [6] DITHER_ON RO: R404 -/
  ditherOn : Bool := false
  /-- 0x604 [31:0] SV_I_FS_MA ST: R388 -/
  svIFsMa : BitVec 32 := 0
  /-- 0x608 [6:0] CHOP_N ST: 8 to 64 -/
  chopN : BitVec 7 := 32
  /-- 0x608 [9:8] DECAY ST: 0 SLOW, 1 FAST, 2 MIXED -/
  decay : BitVec 2 := 0
  /-- 0x60C [31:0] HYST ST: Current units (R393) -/
  hyst : BitVec 32 := 268435456
  /-- 0x610 [12:0] T_FAST ST: ns -/
  tFast : BitVec 13 := 2000
  /-- 0x610 [28:16] T_BLANK ST: ns, 0 to 5,000 -/
  tBlank : BitVec 13 := 1000
  /-- 0x614 [2:0] OFS_SHIFT ST: R396 -/
  ofsShift : BitVec 3 := 2
  /-- 0x618 [30:0] OFS_MAX ST: Current units -/
  ofsMax : BitVec 31 := 134217728
  /-- 0x61C [13:0] T_DRIVE_MAX ST: µs, 10 to 10,000 -/
  tDriveMax : BitVec 14 := 200
  /-- 0x620 [31:0] I_RUN ST: R392 -/
  iRun : BitVec 32 := 0
  /-- 0x624 [31:0] I_HOLD ST: R392 -/
  iHold : BitVec 32 := 0
  /-- 0x628 [13:0] T_IDLE ST: ms -/
  tIdle : BitVec 14 := 500
  /-- 0x62C [9:0] STEP_OFFSET ST: Addresses -/
  stepOffset : BitVec 10 := 0
  /-- 0x630 [15:0] STALL_THR ST: 2^-16 electrical period; 0 off -/
  stallThr : BitVec 16 := 14564
  /-- 0x630 [23:16] STALL_N ST: 1 to 255 -/
  stallN : BitVec 8 := 8
  /-- 0x634 [31:0] STALL_MIN_SPEED ST: Addresses per second -/
  stallMinSpeed : BitVec 32 := 0
  /-- 0x638 [31:0] STEP_ENC_NUM ST: R401 -/
  stepEncNum : BitVec 32 := 1
  /-- 0x63C [31:0] STEP_ENC_DEN ST: R401 -/
  stepEncDen : BitVec 32 := 1
  /-- 0x640 [31:0] COIL_R0 ST: float32 Ω, coil A or 0 -/
  coilR0 : BitVec 32 := 0
  /-- 0x644 [31:0] COIL_L0 ST: float32 H -/
  coilL0 : BitVec 32 := 0
  /-- 0x648 [31:0] COIL_R1 ST: float32 Ω, coil B or 1 -/
  coilR1 : BitVec 32 := 0
  /-- 0x64C [31:0] COIL_L1 ST: float32 H -/
  coilL1 : BitVec 32 := 0
  /-- 0x650 [1:0] COIL1_MODE ST: R402 -/
  coil1Mode : BitVec 2 := 1
  /-- 0x650 [2] VEL_EN ST: R403 -/
  velEn : Bool := false
  /-- 0x650 [3] MEAS_AT_ENABLE ST: R405 -/
  measAtEnable : Bool := true
  /-- 0x650 [4] AUTO_COEF ST: R405 -/
  autoCoef : Bool := true
  /-- 0x654 [31:0] I_COIL_MAX ST: R402 -/
  iCoilMax : BitVec 32 := 2147483647
  /-- 0x658 [31:0] I_TRIP_SV ST: R389 -/
  iTripSv : BitVec 32 := 2147483647
  /-- 0x65C [8:0] DITHER_F ST: Hz, 50 to 400; 0 off -/
  ditherF : BitVec 9 := 0
  /-- 0x65C [16] DITHER_WAVE ST: 0 sine, 1 triangle -/
  ditherWave : Bool := false
  /-- 0x660 [31:0] DITHER_AMP ST: Current units -/
  ditherAmp : BitVec 32 := 0
  /-- 0x664 [31:0] V_MEAS ST: Q1.31 of V_dc; 0.1 -/
  vMeas : BitVec 32 := 214748365
  /-- 0x668 [6:0] T_MEAS ST: ms, 1 to 100 -/
  tMeas : BitVec 7 := 20
  /-- 0x66C [31:0] R_MIN ST: float32 Ω -/
  rMin : BitVec 32 := 0
  /-- 0x670 [31:0] R_MAX ST: float32 Ω; 0 no check -/
  rMax : BitVec 32 := 0
  /-- 0x674 [31:0] BW_COIL ST: float32 Hz; 500 -/
  bwCoil : BitVec 32 := 1140457472
  /-- 0x678 [9:0] T_OPEN ST: ms -/
  tOpen : BitVec 10 := 50
  /-- 0x680 [31:0] LOAD_ANGLE RO: Signed (R398) -/
  loadAngle : BitVec 32 := 0
  /-- 0x684 [9:0] APPLIED_ADDR RO: R391 -/
  appliedAddr : BitVec 10 := 0
  /-- 0x688 [31:0] OFS_A RO: Signed (R396) -/
  ofsA : BitVec 32 := 0
  /-- 0x68C [31:0] OFS_B RO: Signed -/
  ofsB : BitVec 32 := 0
  /-- 0x690 [31:0] MEAN_A RO: Last cycle mean -/
  meanA : BitVec 32 := 0
  /-- 0x694 [31:0] MEAN_B RO: Last cycle mean -/
  meanB : BitVec 32 := 0
  /-- 0x698 [31:0] MEAS_R0 RO: float32 Ω (R405) -/
  measR0 : BitVec 32 := 0
  /-- 0x69C [31:0] MEAS_L0 RO: float32 H -/
  measL0 : BitVec 32 := 0
  /-- 0x6A0 [31:0] MEAS_R1 RO: float32 Ω -/
  measR1 : BitVec 32 := 0
  /-- 0x6A4 [31:0] MEAS_L1 RO: float32 H -/
  measL1 : BitVec 32 := 0
  /-- 0x6C0 [31:0] CHOP_CYCLES_A RO: Chop cycles -/
  chopCyclesA : BitVec 32 := 0
  /-- 0x6C4 [31:0] CHOP_CYCLES_B RO: Chop cycles -/
  chopCyclesB : BitVec 32 := 0
  /-- 0x6C8 [31:0] UNDERDRIVE_COUNT RO: Underdriven cycles -/
  underdriveCount : BitVec 32 := 0
  /-- 0x6CC [31:0] STALL_COUNT RO: STALL raised -/
  stallCount : BitVec 32 := 0
  /-- 0x6D0 [31:0] COIL_FAULT_COUNT RO: COIL_FAULT raised -/
  coilFaultCount : BitVec 32 := 0
  /-- 0x6D4 [31:0] COIL_OC_COUNT RO: COIL_OVERCURRENT raised -/
  coilOcCount : BitVec 32 := 0
  /-- 0x6E0 [0] STALL_SEEN W1C: — -/
  stallSeen : Bool := false
  /-- 0x6E0 [1] UNDERDRIVE_SEEN W1C: — -/
  underdriveSeen : Bool := false
  /-- 0x6E0 [2] COIL_FAULT_SEEN W1C: — -/
  coilFaultSeen : Bool := false
  /-- 0x6E0 [3] COIL_OC_SEEN W1C: — -/
  coilOcSeen : Bool := false
  /-- 0x6E0 [8] CNT_OVF W1C: A counter of this block saturated -/
  cntOvf : Bool := false
deriving DecidableEq, Repr

/-- One sigma-delta channel of R439. -/
structure SdRegs where
  /-- 0x000 [8:0] R ST: 16 to 256 -/
  r : BitVec 9 := 64
  /-- 0x000 [14:12] CLK_SEL ST: R413 -/
  clkSel : BitVec 3 := 0
  /-- 0x000 [21:16] SAMPLE_DLY ST: 400 MHz clocks -/
  sampleDly : BitVec 6 := 0
  /-- 0x000 [24] INVERT ST: R413 -/
  invert : Bool := false
  /-- 0x000 [25] WINDOWED RO: R411 -/
  windowed : Bool := false
  /-- 0x004 [31:0] SAMPLE RO: Latest sample -/
  sample : BitVec 32 := 0
  /-- 0x008 [31:0] SAMPLE_DT RO: SDn_DT -/
  sampleDt : BitVec 32 := 0
  /-- 0x00C [31:0] OR_THR ST: R418 -/
  orThr : BitVec 32 := 1879048192
  /-- 0x010 [7:0] OR_N ST: 1 to 255 -/
  orN : BitVec 8 := 4
  /-- 0x010 [25:16] STUCK_N ST: 16 to 1,023 -/
  stuckN : BitVec 10 := 256
  /-- 0x014 [0] OVERRANGE RO: R418 -/
  overrange : Bool := false
  /-- 0x014 [1] STUCK RO: R419 -/
  stuck : Bool := false
  /-- 0x014 [8] OR_SEEN W1C: — -/
  orSeen : Bool := false
  /-- 0x014 [9] STUCK_SEEN W1C: — -/
  stuckSeen : Bool := false
  /-- 0x014 [16] CNT_OVF W1C: A counter of this input saturated -/
  cntOvf : Bool := false
  /-- 0x018 [31:0] OR_COUNT RO: SD_OVERRANGE raised -/
  orCount : BitVec 32 := 0
  /-- 0x01C [31:0] STUCK_COUNT RO: SD_STUCK raised -/
  stuckCount : BitVec 32 := 0
deriving DecidableEq, Repr

/-- One encoder interface of R440. -/
structure EncRegs where
  /-- 0x000 [2:0] GLITCH ST: 0 to 6 -/
  glitch : BitVec 3 := 2
  /-- 0x000 [4] DIR ST: R420 -/
  dir : Bool := false
  /-- 0x000 [5] Z_EN ST: R423 -/
  zEn : Bool := false
  /-- 0x000 [7:6] Z_GATE ST: R423 -/
  zGate : BitVec 2 := 0
  /-- 0x000 [10:8] FB_SRC ST: R435 -/
  fbSrc : BitVec 3 := 0
  /-- 0x004, 0x008 [31:0] COUNT RO: Incremental count, low, high -/
  count : BitVec 64 := 0
  /-- 0x00C [2:0] LEVELS RO: A, B, Z filtered -/
  levels : BitVec 3 := 0
  /-- 0x010, 0x014 [31:0] IDX_COUNT RO: Latched count, low, high -/
  idxCount : BitVec 64 := 0
  /-- 0x018, 0x01C [31:0] IDX_DT RO: Raw-edge DT ns, low, high -/
  idxDt : BitVec 64 := 0
  /-- 0x020 [1:0] IDX_MODE RO: 0 off, 1 one-shot, 2 every -/
  idxMode : BitVec 2 := 0
  /-- 0x020 [2] IDX_LATCHED RO: A latch is held -/
  idxLatched : Bool := false
  /-- 0x024 [31:0] ILLEGAL_COUNT RO: R421 -/
  illegalCount : BitVec 32 := 0
  /-- 0x028 [31:0] INDEX_COUNT RO: INDEX_LATCHED raised -/
  indexCount : BitVec 32 := 0
  /-- 0x040 [6:0] BITS ST: 8 to 64 -/
  bits : BitVec 7 := 25
  /-- 0x040 [7] GRAY ST: R426 -/
  gray : Bool := false
  /-- 0x040 [14:8] POS_LSB ST: Frame bit -/
  posLsb : BitVec 7 := 1
  /-- 0x040 [22:16] POS_MSB ST: Frame bit -/
  posMsb : BitVec 7 := 1
  /-- 0x040 [29:24] ERR_BIT ST: Frame bit -/
  errBit : BitVec 6 := 0
  /-- 0x040 [30] ERR_POL ST: Level that rejects -/
  errPol : Bool := false
  /-- 0x040 [31] ERR_EN ST: R426 -/
  errEn : Bool := false
  /-- 0x044 [10:0] SSI_HALF ST: 20 to 2,000 clocks -/
  ssiHalf : BitVec 11 := 200
  /-- 0x044 [20:16] SSI_TICK_DIV ST: 1 to 32 -/
  ssiTickDiv : BitVec 5 := 1
  /-- 0x048 [6:0] T_MONO ST: µs -/
  tMono : BitVec 7 := 20
  /-- 0x04C [31:0] JUMP_MAX ST: Counts; 0 off -/
  jumpMax : BitVec 32 := 0
  /-- 0x050 [6:0] SSI_PF ST: 0.01 units -/
  ssiPf : BitVec 7 := 66
  /-- 0x054 [9:0] SSI_DEV_DELAY ST: ns -/
  ssiDevDelay : BitVec 10 := 0
  /-- 0x058 [7:0] FAIL_N ST: 1 to 255 -/
  failN : BitVec 8 := 3
  /-- 0x05C [31:0] SSI_DRT RO: D_rt in use, ps -/
  ssiDrt : BitVec 32 := 0
  /-- 0x060 [31:0] SSI_LEN RO: 0.1 m units -/
  ssiLen : BitVec 32 := 0
  /-- 0x064, 0x068 [31:0] ABS_COUNT RO: Count of the absolute source, low, high -/
  absCount : BitVec 64 := 0
  /-- 0x06C [31:0] REJECT_COUNT RO: Readings rejected -/
  rejectCount : BitVec 32 := 0
  /-- 0x070 [31:0] REBASE_COUNT RO: ABS_REBASED raised -/
  rebaseCount : BitVec 32 := 0
  /-- 0x080 [0] COARSE ST: 0 AB, 1 NONE -/
  coarse : Bool := false
  /-- 0x080 [3:2] QUAD_ALIGN ST: R433 -/
  quadAlign : BitVec 2 := 0
  /-- 0x084 [31:0] OFS_SIN ST: Sample units -/
  ofsSin : BitVec 32 := 0
  /-- 0x088 [31:0] OFS_COS ST: Sample units -/
  ofsCos : BitVec 32 := 0
  /-- 0x08C [31:0] GAIN_COS ST: Q2.30; 1.0 -/
  gainCos : BitVec 32 := 1073741824
  /-- 0x090 [31:0] AMP_MIN ST: R434 -/
  ampMin : BitVec 32 := 536870912
  /-- 0x094 [31:0] AMP_MAX ST: R434 -/
  ampMax : BitVec 32 := 1610612736
  /-- 0x098 [31:0] AMP RO: Last A -/
  amp : BitVec 32 := 0
  /-- 0x09C [13:0] FINE RO: Last φ -/
  fine : BitVec 14 := 0
  /-- 0x0C0 [0] ILLEGAL_SEEN W1C: — -/
  illegalSeen : Bool := false
  /-- 0x0C0 [1] REJECT_SEEN W1C: — -/
  rejectSeen : Bool := false
  /-- 0x0C0 [2] REBASE_SEEN W1C: — -/
  rebaseSeen : Bool := false
  /-- 0x0C0 [8] CNT_OVF W1C: A counter of this interface saturated -/
  cntOvf : Bool := false
deriving DecidableEq, Repr

/-- One capture input of R467. -/
structure CapRegs where
  /-- 0x000 [23:0] DEB ST: 10 ns units (R444) -/
  deb : BitVec 24 := 0
  /-- 0x000 [25:24] EDGE_SEL ST: 1 rising, 2 falling, 3 both -/
  edgeSel : BitVec 2 := 3
  /-- 0x000 [26] INVERT ST: R441 -/
  invert : Bool := false
  /-- 0x000 [27] EVT_EN ST: CAP_EDGE raised -/
  evtEn : Bool := false
  /-- 0x004 [6:0] LATCH0_AXIS ST: 0 to 111; 0x7F none -/
  latch0Axis : BitVec 7 := 127
  /-- 0x004 [14:8] LATCH1_AXIS ST: As LATCH0_AXIS -/
  latch1Axis : BitVec 7 := 127
  /-- 0x004 [16] LATCH0_SP ST: Virtual axis: SP_POS (R446) -/
  latch0Sp : Bool := false
  /-- 0x004 [17] LATCH1_SP ST: As LATCH0_SP -/
  latch1Sp : Bool := false
  /-- 0x008 [0] LEVEL RO: Raw level -/
  level : Bool := false
  /-- 0x008 [1] QUAL_LEVEL RO: Qualified level -/
  qualLevel : Bool := false
  /-- 0x00C [31:0] EDGE_COUNT RO: Qualified transitions -/
  edgeCount : BitVec 32 := 0
  /-- 0x010 [31:0] RAW_EDGE_COUNT RO: Raw edges -/
  rawEdgeCount : BitVec 32 := 0
  /-- 0x014 [31:0] CLOSE_EDGE_COUNT RO: R443 -/
  closeEdgeCount : BitVec 32 := 0
  /-- 0x018 [31:0] LATCH_FAIL_COUNT RO: R448 -/
  latchFailCount : BitVec 32 := 0
  /-- 0x01C [8] CNT_OVF W1C: A counter of this input saturated -/
  cntOvf : Bool := false
deriving DecidableEq, Repr

/-- The capture record FIFO of R468. -/
structure MarkRegs where
  /-- 0x000 [15:0] NEXT_SEQ RO: Next sequence number to be assigned -/
  nextSeq : BitVec 16 := 0
  /-- 0x008 [15:0] CONSUMED_SEQ RO: R451 -/
  consumedSeq : BitVec 16 := 0
  /-- 0x00C [10:0] FILL RO: Records held, 0 to 1,024 -/
  fill : BitVec 11 := 0
  /-- 0x010 [31:0] CAP_LOST_COUNT RO: R450 -/
  capLostCount : BitVec 32 := 0
  /-- 0x014 [8] CNT_OVF W1C: CAP_LOST_COUNT saturated -/
  cntOvf : Bool := false
deriving DecidableEq, Repr

/-- One Geyser unit of R469. -/
structure GuRegs where
  /-- 0x000 [2:0] GU_STATE RO: 0 idle, 1 filling PRE, 2 armed, 3 recording POST, 4 complete, 5 stopped -/
  guState : BitVec 3 := 0
  /-- 0x000 [4] MODE RO: 0 SINGLE, 1 CONTINUOUS -/
  mode : Bool := false
  /-- 0x004 [31:0] MEM_BASE RO: Byte offset of the partition from 0x0800_0000 -/
  memBase : BitVec 32 := 0
  /-- 0x008 [31:0] MEM_SIZE RO: Bytes -/
  memSize : BitVec 32 := 0
  /-- 0x00C [31:0] SEG_SIZE RO: Bytes (R452) -/
  segSize : BitVec 32 := 0
  /-- 0x010 [6:0] SEG_COUNT RO: 2 to 64 -/
  segCount : BitVec 7 := 0
  /-- 0x010 [22:16] SEG_HELD RO: Held segments -/
  segHeld : BitVec 7 := 0
  /-- 0x014 [7:0] SAMPLE_SRC RO: Axis 0 to 15, or 0x80 pour point -/
  sampleSrc : BitVec 8 := 0
  /-- 0x018 [15:0] DIV RO: DIV − 1 -/
  div : BitVec 16 := 0
  /-- 0x01C [15:0] PRE RO: Samples -/
  pre : BitVec 16 := 0
  /-- 0x01C [31:16] POST RO: Samples -/
  post : BitVec 16 := 0
  /-- 0x020 [31:0] TRIG_ACCEPTED RO: R461 -/
  trigAccepted : BitVec 32 := 0
  /-- 0x024 [31:0] RECORDS_WRITTEN RO: R460 -/
  recordsWritten : BitVec 32 := 0
  /-- 0x028 [31:0] RECORDS_LOST RO: R460, R462 -/
  recordsLost : BitVec 32 := 0
  /-- 0x02C [31:0] IGNORED_PRETRIG RO: R458 -/
  ignoredPretrig : BitVec 32 := 0
  /-- 0x030 [31:0] IGNORED_BUSY RO: R458 -/
  ignoredBusy : BitVec 32 := 0
  /-- 0x034 [15:0] NEXT_REC_SEQ RO: Next record sequence number -/
  nextRecSeq : BitVec 16 := 0
  /-- 0x03C [0] TRIG_LATE_SEEN W1C: R457 -/
  trigLateSeen : Bool := false
  /-- 0x03C [1] LOST_SEEN W1C: GU_RECORD_LOST raised -/
  lostSeen : Bool := false
  /-- 0x03C [2] COMPLETE_SEEN W1C: GU_COMPLETE raised -/
  completeSeen : Bool := false
  /-- 0x03C [8] CNT_OVF W1C: A counter of this unit saturated -/
  cntOvf : Bool := false
  /-- 0x040 [15:0] SEG_SEQ RO: Segment k, 0 to 63: record sequence held -/
  segSeq : Vector (BitVec 16) 64 := Vector.replicate 64 0
  /-- 0x040 [16] SEG_HOLD RO: Held -/
  segHold : Vector Bool 64 := Vector.replicate 64 false
  /-- 0x040 [17] SEG_ACTIVE RO: Active -/
  segActive : Vector Bool 64 := Vector.replicate 64 false
deriving DecidableEq, Repr

/-- One mark measurement of R469. -/
structure MarkMeasRegs where
  /-- 0x200, 0x204, 0x208 [31:0] LAST_DIST RO: MARK slot s, last accepted distance: frac, low, high -/
  lastDist : BitVec 96 := 0
  /-- 0x20C [31:0] LAST_MARK_DT RO: DT ns[31:0] of its STOP edge -/
  lastMarkDt : BitVec 32 := 0
  /-- 0x210 [31:0] MARK_COUNT RO: R464 -/
  markCount : BitVec 32 := 0
  /-- 0x214 [31:0] GATED_COUNT RO: R464 -/
  gatedCount : BitVec 32 := 0
  /-- 0x218 [31:0] ORPHAN_COUNT RO: R464 -/
  orphanCount : BitVec 32 := 0
  /-- 0x21C [15:0] MARK_SEQ RO: Accepted measurements, wrapping -/
  markSeq : BitVec 16 := 0
deriving DecidableEq, Repr

/-- The Caldera snapshot of R505. -/
structure CalderaRegs where
  /-- 0x000 [1:0] CAL_STATE RO: 0 self-test, 1 running, 2 faulted -/
  calState : BitVec 2 := 0
  /-- 0x000 [2] CFG_VALID RO: R479 -/
  cfgValid : Bool := false
  /-- 0x000 [3] CFG_CHANGED RO: R479 -/
  cfgChanged : Bool := false
  /-- 0x000 [4] CFG_READ_FAULT RO: R477 -/
  cfgReadFault : Bool := false
  /-- 0x000 [15:8] FAULT_CAUSE RO: Cause of CALDERA_FAULT -/
  faultCause : BitVec 8 := 0
  /-- 0x004 [15:0] SAFECFG_USED RO: Value in force -/
  safecfgUsed : BitVec 16 := 0
  /-- 0x004 [31:16] SAFECFG_LAST RO: Value of the last read -/
  safecfgLast : BitVec 16 := 0
  /-- 0x008 [31:0] CFG_CRC RO: R480 -/
  cfgCrc : BitVec 32 := 0
  /-- 0x00C [31:0] CAL_FW_LEVEL RO: Coded as FW_LEVEL -/
  calFwLevel : BitVec 32 := 0
  /-- 0x010 [7:0] GROUP_A RO: [1:0] 0 STO, 1 SS1, 2 torque permitted; [2] SLS monitoring; [3] SDI_POS; [4] SDI_NEG; [5] reset needed; [6] fault latched; [7] 0 -/
  groupA : BitVec 8 := 0
  /-- 0x010 [15:8] GROUP_B RO: As GROUP_A -/
  groupB : BitVec 8 := 0
  /-- 0x014 [15:0] TILE_STO RO: STO per tile -/
  tileSto : BitVec 16 := 65535
  /-- 0x014 [31:16] GEN_TOGGLING RO: GEN toggling per tile -/
  genToggling : BitVec 16 := 0
  /-- 0x018 [15:0] CH_RELEASED RO: SInA bit 2n, SInB bit 2n + 1 (as cyclic image 0xE4C) -/
  chReleased : BitVec 16 := 0
  /-- 0x018 [23:16] DEMAND RO: Input n in demand -/
  demand : BitVec 8 := 255
  /-- 0x018 [31:24] DISC_LATCHED RO: R485 -/
  discLatched : BitVec 8 := 0
  /-- 0x01C [15:0] CROSS_SHORT RO: Per channel -/
  crossShort : BitVec 16 := 0
  /-- 0x01C [19:16] TP_FAULT RO: R482 -/
  tpFault : BitVec 4 := 0
  /-- 0x020 [7:0] SBO_ON RO: SBOnH bit 2n, SBOnL bit 2n + 1 (as cyclic image 0xE4C [23:16]) -/
  sboOn : BitVec 8 := 0
  /-- 0x020 [11:8] SBO_FAULT RO: R498 -/
  sboFault : BitVec 4 := 0
  /-- 0x020 [15:12] SBO_ENERGISED RO: R497 -/
  sboEnergised : BitVec 4 := 0
  /-- 0x024 [31:0] SLS_LIMIT RO: edges/s (R495) -/
  slsLimit : BitVec 32 := 0
  /-- 0x028 [15:0] SNAP_SEQ RO: Snapshot number, wrapping -/
  snapSeq : BitVec 16 := 0
  /-- 0x02C [31:0] SNAP_CRC RO: As above -/
  snapCrc : BitVec 32 := 0
  /-- 0x030 [31:0] DEMAND_COUNT RO: Stop demands entered -/
  demandCount : BitVec 32 := 0
  /-- 0x034 [31:0] STO_COUNT RO: STO_ENTERED raised -/
  stoCount : BitVec 32 := 0
  /-- 0x038 [31:0] DISC_COUNT RO: DISCREPANCY raised -/
  discCount : BitVec 32 := 0
  /-- 0x03C [31:0] XSHORT_COUNT RO: CROSS_SHORT raised -/
  xshortCount : BitVec 32 := 0
  /-- 0x040 [31:0] RESET_COUNT RO: RESET_ACCEPTED raised -/
  resetCount : BitVec 32 := 0
  /-- 0x044 [0] CNT_OVF RO: A counter of this block saturated; cleared at power-on only -/
  cntOvf : Bool := false
  /-- 0x080 [31:0] SAFE_SPEED RO: Tile t, v of R493, signed edges/s -/
  safeSpeed : Vector (BitVec 32) 16 := Vector.replicate 16 0
  /-- 0x0C0 [31:0] SAFE_COUNT RO: Tile t, Caldera edge count, wrapping -/
  safeCount : Vector (BitVec 32) 16 := Vector.replicate 16 0
deriving DecidableEq, Repr

/-- One field I/O channel of R527. -/
structure FioRegs where
  /-- 0x000 [0] DIR ST: 0 input, 1 output -/
  dir : Bool := false
  /-- 0x000 [1] COS_RISE ST: R511 -/
  cosRise : Bool := false
  /-- 0x000 [2] COS_FALL ST: R511 -/
  cosFall : Bool := false
  /-- 0x000 [3] CYCLIC_EN ST: R514 -/
  cyclicEn : Bool := false
  /-- 0x000 [4] FAILSAFE ST: 0 OFF, 1 HOLD (R517) -/
  failsafe : Bool := false
  /-- 0x000 [5] SEARCH_EXCLUDE ST: R520 -/
  searchExclude : Bool := false
  /-- 0x000 [31:16] DEB ST: µs, 1 to 65,535 -/
  deb : BitVec 16 := 1000
  /-- 0x004 [0] RAW RO: Raw land level, as last received -/
  raw : Bool := false
  /-- 0x004 [1] QUAL RO: Qualified state -/
  qual : Bool := false
  /-- 0x004 [2] CMD RO: Commanded state -/
  cmd : Bool := false
  /-- 0x004 [3] APPLIED RO: Applied state -/
  applied : Bool := false
  /-- 0x004 [4] OVERLOAD RO: R518 -/
  overload : Bool := false
  /-- 0x004 [5] SHORT_VIN RO: R519 -/
  shortVin : Bool := false
  /-- 0x004 [6] BACKFEED RO: R520 -/
  backfeed : Bool := false
  /-- 0x004 [7] CUR_LIMIT RO: Current limit acting -/
  curLimit : Bool := false
  /-- 0x004 [9:8] SHUTDOWNS RO: Thermal shutdowns counted, 0 to 3 -/
  shutdowns : BitVec 2 := 0
  /-- 0x004 [10] FORCED_OFF RO: Held off by R517, R520, R521 or R522 -/
  forcedOff : Bool := false
  /-- 0x008, 0x00C [31:0] LAST_EDGE_DT RO: DT ns[31:0] of the last qualified transition; reading captures the high word -/
  lastEdgeDt : BitVec 64 := 0
  /-- 0x010 [31:0] EDGE_COUNT RO: Qualified transitions -/
  edgeCount : BitVec 32 := 0
  /-- 0x014 [31:0] OVERLOAD_COUNT RO: OUT_OVERLOAD raised -/
  overloadCount : BitVec 32 := 0
  /-- 0x018 [31:0] BACKFEED_COUNT RO: OUT_BACKFEED raised with this channel as subject or culprit -/
  backfeedCount : BitVec 32 := 0
  /-- 0x01C [0] OVERLOAD_SEEN W1C: — -/
  overloadSeen : Bool := false
  /-- 0x01C [1] SHORT_VIN_SEEN W1C: — -/
  shortVinSeen : Bool := false
  /-- 0x01C [2] BACKFEED_SEEN W1C: — -/
  backfeedSeen : Bool := false
  /-- 0x01C [8] CNT_OVF W1C: A counter of this channel saturated -/
  cntOvf : Bool := false
deriving DecidableEq, Repr

/-- One field I/O group of R528. -/
structure FioGroupRegs where
  /-- 0x000 [0] GROUP_OVERLOAD RO: R521 -/
  groupOverload : Bool := false
  /-- 0x000 [15:8] OUTPUTS_ON RO: Applied state of the group's channels -/
  outputsOn : BitVec 8 := 0
  /-- 0x004 [15:0] GROUP_CURRENT RO: mA -/
  groupCurrent : BitVec 16 := 0
  /-- 0x008 [31:0] GROUP_OL_COUNT RO: GROUP_OVERLOAD raised -/
  groupOlCount : BitVec 32 := 0
  /-- 0x00C [0] GROUP_OL_SEEN W1C: — -/
  groupOlSeen : Bool := false
  /-- 0x00C [8] CNT_OVF W1C: A counter of this group saturated -/
  cntOvf : Bool := false
deriving DecidableEq, Repr

/-- The field I/O module words of R528. -/
structure FioModuleRegs where
  /-- 0x000 [15:0] VIN_MV RO: VIN in mV, 100 mV resolution -/
  vinMv : BitVec 16 := 0
  /-- 0x004 [0] UNDERVOLT RO: R522 -/
  undervolt : Bool := false
  /-- 0x004 [1] LINK_OK RO: R524 -/
  linkOk : Bool := false
  /-- 0x004 [2] RESTORE RO: 0 AUTO, 1 HOLD (R523) -/
  restore : Bool := true
  /-- 0x004 [3] SEARCH_ACTIVE RO: R520 -/
  searchActive : Bool := false
  /-- 0x004 [12:8] SEARCH_SUBJECT RO: Channel being searched -/
  searchSubject : BitVec 5 := 0
  /-- 0x008 [31:0] UNDERVOLT_COUNT RO: OUT_UNDERVOLT raised -/
  undervoltCount : BitVec 32 := 0
  /-- 0x00C [31:0] LINK_CRC_ERR_COUNT RO: Field I/O frames failing CRC -/
  linkCrcErrCount : BitVec 32 := 0
  /-- 0x010 [31:0] LINK_FAULT_COUNT RO: FIO_LINK_FAULT raised -/
  linkFaultCount : BitVec 32 := 0
  /-- 0x014 [0] UNDERVOLT_SEEN W1C: — -/
  undervoltSeen : Bool := false
  /-- 0x014 [1] LINK_FAULT_SEEN W1C: — -/
  linkFaultSeen : Bool := false
  /-- 0x014 [8] CNT_OVF W1C: A counter of this block saturated -/
  cntOvf : Bool := false
deriving DecidableEq, Repr

/-- One CAN FD controller of R549. -/
structure CanRegs where
  /-- 0x000 [2:0] MODE RO: 0 CONFIG, 1 NORMAL, 2 RESTRICTED, 3 MONITOR, 4 SLEEP -/
  mode : BitVec 3 := 0
  /-- 0x000 [5:4] ERR_STATE RO: 0 error-active, 1 error-passive, 2 bus-off, 3 recovering -/
  errState : BitVec 2 := 0
  /-- 0x000 [6] TT_RUNNING RO: R545 -/
  ttRunning : Bool := false
  /-- 0x000 [7] INTEGRATING RO: R533 -/
  integrating : Bool := false
  /-- 0x004 [7:0] NTSEG1 RO: TSEG1 − 1 -/
  ntseg1 : BitVec 8 := 62
  /-- 0x004 [14:8] NTSEG2 RO: TSEG2 − 1 -/
  ntseg2 : BitVec 7 := 15
  /-- 0x004 [22:16] NSJW RO: SJW − 1 -/
  nsjw : BitVec 7 := 15
  /-- 0x004 [28:24] NBRP RO: BRP − 1 -/
  nbrp : BitVec 5 := 0
  /-- 0x008 [4:0] DTSEG1 RO: TSEG1 − 1 -/
  dtseg1 : BitVec 5 := 30
  /-- 0x008 [11:8] DTSEG2 RO: TSEG2 − 1 -/
  dtseg2 : BitVec 4 := 7
  /-- 0x008 [19:16] DSJW RO: SJW − 1 -/
  dsjw : BitVec 4 := 7
  /-- 0x008 [28:24] DBRP RO: BRP − 1 -/
  dbrp : BitVec 5 := 0
  /-- 0x00C [6:0] TDCO RO: mtq -/
  tdco : BitVec 7 := 0
  /-- 0x00C [8] TDC_EN RO: R532 -/
  tdcEn : Bool := false
  /-- 0x00C [22:16] TDCV RO: Last measured, mtq -/
  tdcv : BitVec 7 := 0
  /-- 0x010 [8:0] TEC RO: R534 -/
  tec : BitVec 9 := 0
  /-- 0x010 [23:16] REC RO: R534 -/
  recField : BitVec 8 := 0
  /-- 0x014 [7:0] NO_ACK_LIMIT RO: R542 -/
  noAckLimit : BitVec 8 := 32
  /-- 0x014 [8] BUSOFF_RECOVERY RO: 0 AUTO, 1 MANUAL -/
  busoffRecovery : Bool := false
  /-- 0x014 [9] BUSOFF_FLUSH RO: R535 -/
  busoffFlush : Bool := false
  /-- 0x014 [10] TXQ_ORDER RO: 0 ID, 1 FIFO -/
  txqOrder : Bool := false
  /-- 0x014 [11] NOMATCH RO: 0 discard, 1 RXQ1 -/
  nomatchField : Bool := false
  /-- 0x014 [12] FD_EN RO: ISO CAN FD frames accepted and sent -/
  fdEn : Bool := true
  /-- 0x018 [0] WAKE_MODE RO: R539 -/
  wakeMode : Bool := false
  /-- 0x018 [9:4] WAKE_FILT RO: 100 ns units, 5 to 50 -/
  wakeFilt : BitVec 6 := 10
  /-- 0x01C [31:0] WAKE_ID RO: As the filter word -/
  wakeId : BitVec 32 := 0
  /-- 0x020 [31:0] WAKE_MASK RO: As the filter word -/
  wakeMask : BitVec 32 := 0
  /-- 0x024 [15:0] WAKE_DATA0 RO: [7:0] value, [15:8] mask -/
  wakeData0 : BitVec 16 := 0
  /-- 0x040 [31:0] BIT_ERR_COUNT RO: Bit errors -/
  bitErrCount : BitVec 32 := 0
  /-- 0x044 [31:0] STUFF_ERR_COUNT RO: Stuff errors -/
  stuffErrCount : BitVec 32 := 0
  /-- 0x048 [31:0] FORM_ERR_COUNT RO: Form errors -/
  formErrCount : BitVec 32 := 0
  /-- 0x04C [31:0] CRC_ERR_COUNT RO: CRC errors -/
  crcErrCount : BitVec 32 := 0
  /-- 0x050 [31:0] ACK_ERR_COUNT RO: Acknowledge errors -/
  ackErrCount : BitVec 32 := 0
  /-- 0x054 [31:0] RX_FRAME_COUNT RO: Valid frames received -/
  rxFrameCount : BitVec 32 := 0
  /-- 0x058 [31:0] TX_FRAME_COUNT RO: Frames transmitted, TT included -/
  txFrameCount : BitVec 32 := 0
  /-- 0x05C [31:0] ARB_LOST_COUNT RO: Arbitrations lost -/
  arbLostCount : BitVec 32 := 0
  /-- 0x060 [31:0] BUSOFF_COUNT RO: BUS_OFF raised -/
  busoffCount : BitVec 32 := 0
  /-- 0x064 [31:0] NOMATCH_COUNT RO: R536 -/
  nomatchCount : BitVec 32 := 0
  /-- 0x068 [31:0] WAKE_ERR_COUNT RO: R539; zeroed on entering sleep -/
  wakeErrCount : BitVec 32 := 0
  /-- 0x080 [31:0] TX_REQUESTED RO: Requests accepted (R541) -/
  txRequested : BitVec 32 := 0
  /-- 0x084 [5:0] TX_PENDING RO: 0 to 32 -/
  txPending : BitVec 6 := 0
  /-- 0x088 [31:0] COMPLETE_COUNT RO: Completions with status s, 0 to 8 -/
  completeCount : Vector (BitVec 32) 9 := Vector.replicate 9 0
  /-- 0x0C0 [0] PASSIVE_SEEN W1C: — -/
  passiveSeen : Bool := false
  /-- 0x0C0 [1] BUSOFF_SEEN W1C: — -/
  busoffSeen : Bool := false
  /-- 0x0C0 [2] RX_OVF_SEEN W1C: — -/
  rxOvfSeen : Bool := false
  /-- 0x0C0 [3] TT_MISSED_SEEN W1C: — -/
  ttMissedSeen : Bool := false
  /-- 0x0C0 [8] CNT_OVF W1C: A counter of this controller saturated -/
  cntOvf : Bool := false
  /-- 0x800 [5:0] NBC RO: R544 -/
  nbc : BitVec 6 := 1
  /-- 0x804 [31:0] BC_NS RO: ns -/
  bcNs : BitVec 32 := 1000000
  /-- 0x808, 0x80C [31:0] TT_ORIGIN RO: ns, low, high -/
  ttOrigin : BitVec 64 := 0
  /-- 0x810 [4:0] CYCLE_NOW RO: k of R544 -/
  cycleNow : BitVec 5 := 0
  /-- 0x814 [31:0] TT_MISSED_COUNT RO: R545 -/
  ttMissedCount : BitVec 32 := 0
  /-- 0x818 [31:0] TT_ERR_COUNT RO: R545 -/
  ttErrCount : BitVec 32 := 0
  /-- 0x81C [31:0] TT_RESTART_COUNT RO: R544 -/
  ttRestartCount : BitVec 32 := 0
deriving DecidableEq, Repr

/-- One acceptance filter of R549. -/
structure CanFilterRegs where
  /-- 0x100 [31:0] FLT_MATCH RO: Filter f (R536) -/
  fltMatch : BitVec 32 := 0
  /-- 0x104 [31:0] FLT_MASK RO: Filter f -/
  fltMask : BitVec 32 := 0
  /-- 0x108 [1:0] FLT_ACTION RO: 0 RXQ0, 1 RXQ1, 2 reject -/
  fltAction : BitVec 2 := 0
  /-- 0x108 [2] FLT_EN RO: Filter f enabled -/
  fltEn : Bool := false
deriving DecidableEq, Repr

/-- One receive queue of R549. -/
structure CanRxqRegs where
  /-- 0x300 [6:0] FILL RO: Entries in RXQq, 0 to 64 -/
  fill : BitVec 7 := 0
  /-- 0x300 [14:8] WATERMARK RO: 1 to 64 -/
  watermark : BitVec 7 := 48
  /-- 0x300 [16] OVF_POLICY RO: 0 DROP_NEW, 1 OVERWRITE -/
  ovfPolicy : Bool := false
  /-- 0x300 [17] LOCKED RO: Window lock held (R538) -/
  locked : Bool := false
  /-- 0x304 [31:0] RX_OVF_COUNT RO: R538 -/
  rxOvfCount : BitVec 32 := 0
  /-- 0x308 [15:0] NEXT_SEQ RO: Next queue sequence number -/
  nextSeq : BitVec 16 := 0
deriving DecidableEq, Repr

/-- The reset, power and Kettle registers of R582. -/
structure PowerRegs where
  /-- 0x000 [1:0] LAST_REACH RO: Last episode: 0 none, 1 control-plane, 2 cold, 3 power-on -/
  lastReach : BitVec 2 := 0
  /-- 0x000 [13:8] LAST_SOURCES RO: Bit 8 power-on, 9 RESET_n, 10 brown-out, 11 Kettle, 12 critical-state error, 13 fault with class HALT (R23) -/
  lastSources : BitVec 6 := 0
  /-- 0x004 [7:0] CP_ERR_SOURCE RO: 1 program, 2 data, 3 port memory, 4 staging shadow, 5 axis state, 6 time unit, 7 fault whose class in force is HALT (R23) -/
  cpErrSource : BitVec 8 := 0
  /-- 0x008 [31:0] CP_ERR_ADDR RO: Failing address; for source 7, the event's source ID in [31:16] and event code in [15:0] -/
  cpErrAddr : BitVec 32 := 0
  /-- 0x00C [2:0] BOOT_SRC RO: Source used, coded as BOOTSEL -/
  bootSrc : BitVec 3 := 0
  /-- 0x00C [3] BOOT_FB RO: R570 -/
  bootFb : Bool := false
  /-- 0x00C [4] HOSTSEL RO: R569 -/
  hostsel : Bool := false
  /-- 0x00C [5] CLK_FB RO: R571 -/
  clkFb : Bool := false
  /-- 0x00C [7:6] CLK_SRC RO: Source in use, coded as CLKSEL -/
  clkSrc : BitVec 2 := 0
  /-- 0x00C [9:8] TRIM_TRIES RO: Failed attempts, 0 to 3 -/
  trimTries : BitVec 2 := 0
  /-- 0x010 [31:0] POWERON_COUNT RO: — -/
  poweronCount : BitVec 32 := 0
  /-- 0x014 [31:0] COLD_COUNT RO: Cold episodes -/
  coldCount : BitVec 32 := 0
  /-- 0x018 [31:0] CP_RESET_COUNT RO: CONTROL_RESET raised -/
  cpResetCount : BitVec 32 := 0
  /-- 0x01C [31:0] BROWNOUT_COUNT RO: R559 -/
  brownoutCount : BitVec 32 := 0
  /-- 0x020 [31:0] KETTLE_TRIP_COUNT RO: R576 -/
  kettleTripCount : BitVec 32 := 0
  /-- 0x024 [31:0] BLOCK_RESET_COUNT RO: R566 -/
  blockResetCount : BitVec 32 := 0
  /-- 0x02C [0] SAVING RO: Save in progress -/
  saving : Bool := false
  /-- 0x02C [1] PF_ARMED RO: R554 -/
  pfArmed : Bool := true
  /-- 0x02C [3:2] COPIES_VALID RO: Bit 2 copy A, 3 copy B -/
  copiesValid : BitVec 2 := 0
  /-- 0x02C [4] STALE RO: R554 -/
  stale : Bool := false
  /-- 0x030, 0x034 [31:0] LAST_SAVE_POUR RO: Low, high -/
  lastSavePour : BitVec 64 := 0
  /-- 0x038 [15:0] LAST_SAVE_US RO: R555 -/
  lastSaveUs : BitVec 16 := 0
  /-- 0x03C [31:0] VAULT_WEAR_MAX RO: R557 -/
  vaultWearMax : BitVec 32 := 0
  /-- 0x040 [1:0] KETTLE_STATE RO: 0 normal, 1 warning, 2 stopping, 3 GATED -/
  kettleState : BitVec 2 := 0
  /-- 0x040 [4] KETTLE_CLASS RO: 0 R, 1 F -/
  kettleClass : Bool := true
  /-- 0x040 [27:16] SENSOR_EXCLUDED RO: R573 -/
  sensorExcluded : BitVec 12 := 0
  /-- 0x044 [31:0] TEMP_MAX RO: Highest sensor, signed 0.01 °C -/
  tempMax : BitVec 32 := 0
  /-- 0x048 [31:0] WARN_COUNT RO: KETTLE_WARN raised -/
  warnCount : BitVec 32 := 0
  /-- 0x080 [31:0] TEMP RO: Sensor s, 0 to 11, signed 0.01 °C -/
  temp : Vector (BitVec 32) 12 := Vector.replicate 12 0
  /-- 0x0C0 [0] PF_SEEN W1C: — -/
  pfSeen : Bool := false
  /-- 0x0C0 [1] WARN_SEEN W1C: — -/
  warnSeen : Bool := false
  /-- 0x0C0 [2] SENSOR_SEEN W1C: — -/
  sensorSeen : Bool := false
  /-- 0x0C0 [3] STRAP_SEEN W1C: — -/
  strapSeen : Bool := false
  /-- 0x0C0 [4] V3A_SEEN W1C: — -/
  v3aSeen : Bool := false
  /-- 0x0C0 [8] CNT_OVF W1C: A counter of this block saturated -/
  cntOvf : Bool := false
deriving DecidableEq, Repr

/-- One NTC input of R583. -/
structure NtcRegs where
  /-- 0x000 [0] NTC_EN ST: R578 -/
  ntcEn : Bool := false
  /-- 0x004 [31:0] NTC_R_NOM ST: float32 Ω at 25 °C; 10,000 -/
  ntcRNom : BitVec 32 := 1176256512
  /-- 0x008 [31:0] NTC_BETA ST: float32 K; 3,435 -/
  ntcBeta : BitVec 32 := 1163309056
  /-- 0x00C [31:0] NTC_RSER ST: float32 Ω; 10,000 -/
  ntcRser : BitVec 32 := 1176256512
  /-- 0x010 [15:0] T_DS ST: 0.1 °C -/
  tDs : BitVec 16 := 900
  /-- 0x010 [31:16] T_DE ST: 0.1 °C -/
  tDe : BitVec 16 := 1100
  /-- 0x014 [31:0] NTC_TEMP RO: Signed 0.01 °C -/
  ntcTemp : BitVec 32 := 0
  /-- 0x018 [15:0] DERATE RO: f in Q1.15 -/
  derate : BitVec 16 := 32768
  /-- 0x018 [16] NTC_FAULT RO: R577 -/
  ntcFault : Bool := false
  /-- 0x01C [0] DERATE_SEEN W1C: — -/
  derateSeen : Bool := false
  /-- 0x01C [1] NTC_FAULT_SEEN W1C: — -/
  ntcFaultSeen : Bool := false
deriving DecidableEq, Repr

/-- The vault policy word of one axis, R583. -/
structure VaultPolicyRegs where
  /-- 0x000 [1:0] VAULT_POLICY LK: R558 -/
  vaultPolicy : BitVec 2 := 0
  /-- 0x000 [31:8] VAULT_TOL LK: Counts -/
  vaultTol : BitVec 24 := 0
deriving DecidableEq, Repr

end Sys2Proof.Machine
end

