-- ==== Sys2Proof/Machine/State.lean ====
section
/-! DEFINITION. The state of the module as plain data: every register, FIFO, buffer, counter, mode and pin the
spec gives it, the queue of waiting commands, and the counter that free values are drawn with. -/

namespace Sys2Proof.Machine

/-- Why a step stops with a fault.  No command of this model faults: an access the spec calls ignored or reading as
all ones is answered so (R100).  Kept closed and empty of uses; safe. -/
inductive Fault where
  /-- Raised by nothing (see above); safe. -/
  | none
deriving DecidableEq, Repr

/-- Why a step is refused. -/
inductive Refusal where
  /-- The command has no meaning in the model yet; raised by the arms of Dispatch only; safe. -/
  | notModelled (mnemonic : String)
deriving DecidableEq, Repr

/-- Sparse byte memory: addresses strictly rising, no entry holding the byte an unlisted address reads as (0). Word
 memories use byte address 4 × word address, least significant byte first. -/
abbrev Mem := List Host.Cell

/-! ### Events (R22 to R31, R89, R90) -/

/-- Fault reaction classes in rising order (R22). -/
inductive Cls where
  | note | stop | vent | halt
deriving DecidableEq, Repr

/-- One event as its source raises it (R26, R28, R89). -/
structure EventRec where
  code : BitVec 16
  src : BitVec 16
  /-- Timestamp. -/
  t : Fix
  /-- Uncertainty in 0.5 ns (R28). -/
  unc : BitVec 8 := 5
  cls : Cls := .note
  /-- TDC_FINE of a capture edge. -/
  tdc : BitVec 6 := 0
  /-- ORDER_LATE (R29). -/
  late : Bool := false
  p0 : Word := 0
  p1 : Word := 0
  p2 : Word := 0
deriving DecidableEq, Repr

/-- A logged event with its log index. -/
structure LogRec where
  ev : EventRec
  idx : Word
deriving DecidableEq, Repr

/-- The event fabric, the merger's hold and the logs. -/
structure Events where
  /-- Raised, still crossing to the merger (R20), oldest first. -/
  fabric : List EventRec := []
  /-- Held until T_hold after their timestamps (R29), in arrival order. -/
  held : List EventRec := []
  /-- Committed events, newest first, at most 4,096 (R30). -/
  log : List LogRec := []
  /-- Index the next committed event takes (R89). -/
  nextIdx : Word := 1
  /-- LOG_EMPTY of R101. -/
  empty : Bool := true
  /-- The vault's last 256 STOP, VENT and HALT events, newest first (R30). -/
  vault : List LogRec := []
deriving DecidableEq, Repr

/-! ### Time unit, compare units, pulse outputs (R36 to R53, R65 to R67) -/

/-- PTP settings of one Ethernet port (R66 PTP_CONFIG). -/
structure PtpConfig where
  /-- 0 UDP over IPv4, 1 IEEE 802.3 (R46).  DESIGN CHOICE: the spec gives these words no numbers (log entry 106). -/
  transport : Word := 0
  /-- 0 end-to-end, 1 peer-to-peer.  DESIGN CHOICE: as the transport (log entry 106). -/
  delayMech : Word := 0
  domain : Word := 0
  announceInt : Word := 0
  syncInt : Word := 0
  ipv4 : Word := 0
deriving DecidableEq, Repr

/-- The time unit beyond its registers. -/
structure TimeUnit where
  regs : TimeRegs := {}
  /-- Whether the module has a DT of its own (R40). -/
  ownDt : Bool := false
  /-- The 8 guard bits below DT frac (R38 text). -/
  guardBits : BitVec 8 := 0
  /-- Consecutive measurements with |offset| at most 2 ns (R39). -/
  lockRun : Nat := 0
  /-- Consecutive measurements with |offset| above 8 ns (R41). -/
  unlockRun : Nat := 0
  /-- Consecutive pour cycles without a valid measurement (R39). -/
  missRun : Nat := 0
  /-- Whether the pour cycle in progress had a valid measurement. -/
  measured : Bool := false
  /-- Entry to HOLDOVER. -/
  holdoverAt : Fix := 0
  /-- HOLDOVER_EXPIRED raised in this HOLDOVER. -/
  holdoverDone : Bool := false
  /-- TIME_UNLOCKED in force: LOCKED was left by R41 and has not been reached again. -/
  unlocked : Bool := false
  /-- TIME_FAULT in force (R44). -/
  faulted : Bool := false
  /-- PTP_LOST in force (R47). -/
  ptpLost : Bool := false
  /-- PTP_OFFSET_LARGE in force (R47). -/
  ptpLarge : Bool := false
  /-- The rate term is held at the clamp (R38). -/
  clamped : Bool := false
  /-- TIME_SOURCE_SET's source: 0 CRYSTAL, 2 PTP_ETH0, 3 PTP_ETH1. -/
  source : BitVec 2 := 0
  clsUnlocked : Cls := .note
  clsHoldover : Cls := .stop
  clsFault : Cls := .stop
  /-- T_hold of R43 in ms. -/
  tHoldMs : Word := 10000
  ptp : Vector PtpConfig 2 := Vector.replicate 2 {}
deriving DecidableEq, Repr

/-- One compare unit (R48 to R51). -/
structure CompareUnit where
  regs : CompareRegs := {}
  period : BitVec 64 := 0
  /-- Bit 0 log, 1 Geyser, 2 PWM resync, 3 engine interrupt. -/
  actions : BitVec 4 := 0
  tiles : BitVec 16 := 0
  engines : Word := 0
deriving DecidableEq, Repr

/-- One pulse output (R52, R53). -/
structure PulseOut where
  regs : PpsRegs := {}
  /-- The scheduled leading edge, ns and frac. -/
  next : Fix := 0
  /-- The trailing edge owed for the pulse being output. -/
  trailing : Fix := 0
  period : Fix := 0
  width : Word := 0
  /-- 0 active high, 1 active low.  DESIGN CHOICE: the spec gives the operand no coding (log entry 107). -/
  polarity : Bool := false
  pourAligned : Bool := false
  /-- UNLOCKED policy: false SUPPRESS, true RUN. -/
  runUnlocked : Bool := false
  /-- The output is at its active level. -/
  active : Bool := false
  /-- Scheduled edges skipped under SUPPRESS. -/
  skipped : Nat := 0
deriving DecidableEq, Repr

/-! ### Sessions, packets, staging (R69 to R98, R58 to R63) -/

/-- Reply classes of R85. -/
inductive ReplyClass where
  | a | b | c
deriving DecidableEq, Repr

/-- One accepted packet of a session's history (R82). -/
structure HistEntry where
  seq : Word
  crc : Word
  op : BitVec 16
  /-- The reply produced, none while the packet still waits or executes. -/
  reply : Option (List Word) := none
  /-- It has begun to execute and its reply comes later (R92, R552). -/
  begun : Bool := false
  /-- Duplicates that arrived before the reply and receive their copy with it. -/
  copies : Nat := 0
  acceptedAt : Fix := 0
  chained : Bool := false
  /-- PRIORITY, and the reply class that orders the packet (R78, R81). -/
  prio : Bool := false
  cls : ReplyClass := .b
  /-- The packet, for a reply that no request of its opcode comes to make (R78). -/
  p : Option Packet := none
  /-- What a stageable packet's acceptance made of it: the status of its own checks, and its user units converted (R185). -/
  made : Option (BitVec 16 × Packet) := none
  /-- Its session ended or was reset: the reply is discarded as it is produced (R84). -/
  orphan : Bool := false
deriving DecidableEq, Repr

/-- A stageable command held for its pour: opcode and packet. -/
structure StagedCmd where
  op : BitVec 16
  p : Packet
  /-- Its absolute target was given before a re-reference of its axis (R205). -/
  stale : Bool := false
deriving DecidableEq, Repr

/-- An open transaction (R95, R96). -/
structure Txn where
  /-- Packets answered ACCEPTED_STAGED, in arrival order. -/
  cmds : List StagedCmd := []
  /-- Every staged packet received, the refused ones too. -/
  count : Nat := 0
  /-- Status of the first packet answered with an error. -/
  firstErr : Option (BitVec 16) := none
  /-- Later of STAGE_OPEN and the last staged packet. -/
  last : Fix := 0
deriving DecidableEq, Repr

/-- A committed set waiting for its pour (R59). -/
structure StagedSet where
  /-- Committing session, 0xFFFF for a set the module built itself (R62). -/
  session : BitVec 16
  seq : Word
  target : BitVec 64
  cmds : List StagedCmd
  /-- Shadow space taken, in bytes; 0 for the module's own sets. -/
  bytes : Nat
  /-- The steep of its pour has read it (R172). -/
  steeped : Bool := false
deriving DecidableEq, Repr

/-- A push subscription (R91 EVENT_SUBSCRIBE). -/
structure Subscription where
  minCls : Cls
  groups : Word
  forwarded : Bool
deriving DecidableEq, Repr

/-- What waits on a transport: a reply that still holds its credit, a push, or the reply of a SESSION_RESET, whose credit the
reset has freed (R71, R84, R90). -/
inductive OutKind where
  | reply | push | last
deriving DecidableEq, Repr

/-- One OCP session. -/
structure Session where
  regs : SessionRegs := {}
  /-- PCIe and SPI sessions are always in use; a UDP or tunnel session from its first packet (R70, R74). -/
  inUse : Bool := false
  /-- UDP source address and port, and the Ethernet port of its last datagram. -/
  peerAddr : Word := 0
  peerPort : BitVec 16 := 0
  peerEth : BitVec 1 := 0
  /-- Originating module of a tunnel session. -/
  origin : BitVec 64 := 0
  /-- Last packet taken (R70, R74). -/
  lastSeen : Fix := 0
  /-- The last 64 accepted packets, newest first (R82). -/
  hist : List HistEntry := []
  txn : Option Txn := none
  sub : Option Subscription := none
  /-- Records waiting to be pushed, oldest first, each of 8 or 10 words. -/
  pushQ : List (List Word) := []
  pushSeq : Word := 0
  /-- Discards since the last OCP_PACKET_DISCARDED, and when that was raised (R77). -/
  discards : Nat := 0
  discardAt : Option Fix := none
  /-- Replies and pushes produced and waiting on the transport, oldest first. -/
  out : List (OutKind × List Word) := []
deriving DecidableEq, Repr

/-- A class C operation under way (R86). -/
structure PendingOp where
  op : BitVec 16
  seq : Word
  session : Fin 80
  target : BitVec 16
deriving DecidableEq, Repr

/-- An outer TUNNEL packet waiting for its inner reply (R92). -/
structure TunnelWait where
  session : Fin 80
  seq : Word
  remote : BitVec 64
  since : Fix
  hdr : Packet
  inner : List Word
deriving DecidableEq, Repr

/-- An image being loaded over OCP (R91): configuration, or firmware for one bank. -/
structure ImageLoad where
  size : Word := 0
  crc : Word := 0
  data : Mem := []
deriving DecidableEq, Repr

/-- Network settings of one Ethernet port (R91 NET_CONFIG). -/
structure NetConfig where
  addr : Word := 0
  mask : Word := 0
  gateway : Word := 0
  /-- Allowed sources, address and mask. -/
  allow : List (Word × Word) := []
deriving DecidableEq, Repr

/-- Staging hardware (R58 to R63, R68). -/
structure Staging where
  regs : StageRegs := {}
  /-- Number of the last pour whose work is done. -/
  done : Option (BitVec 64) := none
  /-- Committed sets in commit order. -/
  sets : List StagedSet := []
  /-- Sets whose STAGE_CANCEL was accepted in time and had not executed when their pour came: session and sequence (R97). -/
  cancelled : List (BitVec 16 × Word) := []
  /-- Sets a reset discarded, with the DT, whose POUR_REFUSED is raised after the reset (R63). -/
  discarded : List (StagedSet × Fix) := []
deriving DecidableEq, Repr

/-- How the last PCIe access of the window completed (R100). -/
inductive PcieEnd where
  | success | unsupportedRequest | completerAbort
deriving DecidableEq, Repr

/-- The protocol machine. -/
structure Ocp where
  ident : IdentRegs := {}
  sessions : Vector Session 80 := Vector.replicate 80 {}
  ops : List PendingOp := []
  tunnels : List TunnelWait := []
  /-- Packets sent over Uaxabel or Ethernet and not modelled beyond their leaving: newest first. -/
  sent : List (Fin 80 × List Word) := []
  config : Option ImageLoad := none
  firmware : Vector (Option ImageLoad) 2 := Vector.replicate 2 none
  /-- The bank the activation record names, true for B; none without a record (R570). -/
  activeBank : Option Bool := none
  net : Vector NetConfig 2 := Vector.replicate 2 {}
  /-- The producer index last written to REQ_DOORBELL, the consumer indices last written to RSP_DOORBELL and EVT_DOORBELL, and
  the entries of the reply and event rings written and not yet consumed, with the slot that is written next (R72). -/
  reqProd : BitVec 16 := 0
  rspCons : BitVec 16 := 0
  evtCons : BitVec 16 := 0
  rspUsed : Nat := 0
  rspProd : Nat := 0
  evtUsed : Nat := 0
  evtProd : Nat := 0
  /-- SPI: error on the last window access (R73). -/
  spiErr : Bool := false
  /-- How the last PCIe access completed (R100). -/
  pcieEnd : PcieEnd := .success
  /-- The words the last window read returned. -/
  readData : List Word := []
  /-- Upper words captured by a read of a least significant word (R21): window address and word. -/
  wide : List (Nat × Word) := []
  /-- PCIe image stream (R105): host address, slots, divider, next slot, copies of the published image in flight. -/
  streamAddr : BitVec 64 := 0
  streamSlots : Word := 0
  streamDiv : Word := 1
  streamNext : Nat := 0
  streamBusy : Bool := false
  /-- HOST_INPUT_POLICY (R91, R104).  DESIGN CHOICE: the spec gives N_host no reset value; it is 1, the least of its range
  (log entry 110). -/
  nHost : Word := 1
  clsHostLost : Cls := .stop
  lateRun : Nat := 0
  hostLost : Bool := false
deriving DecidableEq, Repr

/-- What the cyclic image holds for one axis (R102). -/
structure AxisSnap where
  pos : Fix := 0
  vel : Fix := 0
  status : Word := 0
  applied : Word := 0
deriving DecidableEq, Repr

/-- One cyclic image buffer (R102). -/
structure CyclicImage where
  pour : BitVec 64 := 0
  /-- POUR_END, which is written last (R57). -/
  pourEnd : Word := 0
  ident : Word := 0
  time : Word := 0
  axes : Vector AxisSnap 112 := Vector.replicate 112 {}
  fioIn : BitVec 24 := 0
  fioOut : BitVec 24 := 0
  fioFault : BitVec 24 := 0
  safety : BitVec 16 := 0
  sbo : BitVec 8 := 0
  cap : BitVec 48 := 0
  outcomes : Vector Word 32 := Vector.replicate 32 0
deriving DecidableEq, Repr

/-- One host cyclic input buffer (R104). -/
structure HostInput where
  tag : Word := 0
  recs : Vector Word 256 := Vector.replicate 256 0
  fio : Word := 0
deriving DecidableEq, Repr

/-- Cyclic image and host inputs. -/
structure Cyclic where
  bufs : Vector CyclicImage 2 := Vector.replicate 2 {}
  /-- PUB_INDEX. -/
  pub : BitVec 1 := 0
  /-- The write of the last pour's image has not completed (R57). -/
  writing : Bool := false
  inputs : Vector HostInput 4 := Vector.replicate 4 {}
  /-- The inputs in force. -/
  inForce : HostInput := {}
  /-- Inputs taken at the cutoff for the next pour. -/
  taken : Option HostInput := none
  /-- Axis that each input record drives, set by the configuration image; 0xFF none. -/
  recAxis : Vector (BitVec 8) 64 := Vector.replicate 64 0xFF
deriving DecidableEq, Repr

/-! ### Uaxabel link and domains (R106 to R150) -/

/-- One Uaxabel port. -/
structure Port where
  regs : PortRegs := {}
  /-- 8b/10b lock and comma alignment held. -/
  locked : Bool := false
  /-- Since when (R114). -/
  lockAt : Fix := 0
  /-- Propagation factor in 0.01 units (R119), where PORT_CONFIG has given it. -/
  pf : Option Word := none
  deEmphasis : Word := 0
  /-- Asymmetry correction in ps, signed (R118). -/
  asym : Word := 0
  sfpDelay : Word := 0
  clsDown : Cls := .note
  /-- One-way delays of the last 16 measurements in ps, newest first (R118). -/
  delays : List Nat := []
  /-- A delay request is outstanding. -/
  delayReq : Bool := false
  /-- Audit counts modulo 2^16 since link-up (R139): fragments sent S, credits returned G, good fragments A,
  returns seen G_seen. -/
  sentFrags : BitVec 16 := 0
  returned : BitVec 16 := 0
  goodFrags : BitVec 16 := 0
  gSeen : BitVec 16 := 0
  /-- SLOT_CRC_ERROR: errors since the last event, and its time. -/
  crcSince : Nat := 0
  crcAt : Option Fix := none
  /-- CAP_MISMATCH in force. -/
  capMismatch : Bool := false
  /-- The condition of LINK_DOWN holds: the port has not come back to UP. -/
  downHeld : Bool := false
  /-- Departure of the last answer to a delay request. -/
  answeredAt : Option Fix := none
  /-- S and G of the last audit set sent (R139). -/
  auditSent : Option (BitVec 16 × BitVec 16) := none
  /-- The module's own detector sees a signal (R108, twinax). -/
  signal : Bool := false
  /-- Arrival of the last frame (R137), and the frame leaving: until when, and whether it is a wrapped copy (R142). -/
  frameAt : Option Fix := none
  txUntil : Option (Fix × Bool) := none
deriving DecidableEq, Repr

/-- One ring position of the commissioned segment map (R134, R136). -/
structure MapEntry where
  commissioned : BitVec 64 := 0
  running : BitVec 64 := 0
  /-- NODE_ACCEPT has been accepted and its new challenge is not over (R136). -/
  accepting : Bool := false
  quarantined : Bool := false
  /-- Public key of the position's last answer. -/
  key : BitVec 512 := 0
  /-- SHA-256 of the commissioning code. -/
  codeHash : BitVec 256 := 0
  /-- The position answered no challenge yet: its 32 bytes and since when. -/
  challenged : Option (BitVec 256 × Fix) := none
deriving DecidableEq, Repr

/-- A master entry as it travels (R124). -/
structure MasterEntry where
  /-- Module that publishes, ring position of the writer and entry index. -/
  publisher : BitVec 64
  writer : Nat
  index : Nat
  pos : Fix
  pour : BitVec 16
  valid : Bool
  replay : Bool := false
  lateHop : Bool := false
  stopping : Bool := false
  uncertain : Bool := false
  bridges : BitVec 8 := 0
deriving DecidableEq, Repr

/-- A DOMAIN_START under way (R132). -/
structure DomainReq where
  exp : BitVec 3
  d : BitVec 4
  wrapCheck : Bool
deriving DecidableEq, Repr

/-- What leaves a Uaxabel port: frames as their words, ordered sets, capability words, challenges and answers. -/
inductive LinkOut where
  | frame (port : Fin 4) (words : List Word)
  | abort (port : Fin 4)
  | breakNotice (port : Fin 4)
  | restoreNotice (port : Fin 4)
  | capability (port : Fin 4) (words : List Word)
  | creditReturn (port : Fin 4) (n : Nat)
  | fragment (port : Fin 4) (words : List Word)
  | challenge (pos : Nat) (nonce : BitVec 256)
  | answer (pos : Nat) (words : List Word)
deriving DecidableEq, Repr

/-- A fragment in the module: one of its own, or one stored for forwarding in a receive buffer of the port (R137, R138). -/
structure FragWait where
  frag : Fragment
  port : Option (Fin 4) := none
deriving DecidableEq, Repr

/-- An entry in the receive FIFO of a slot: when it can be read, its slot and the sample (R20, R152). -/
structure RxEntry where
  at_ : Fix
  slot : Fin 32
  sample : MasterSample
deriving DecidableEq, Repr

/-- What the module keeps of one of its rings: its segment's, or a bridge's child segment's (R109, R110). -/
structure Ring where
  /-- This module is the ring's master (R111, R112). -/
  master : Bool := false
  map : Vector MapEntry 65 := Vector.replicate 65 {}
  /-- A master launches the east-bound copy alone, from this pour on; both again from that one (R143, R145). -/
  oneCopyFrom : Option (BitVec 64) := none
  twoCopiesFrom : Option (BitVec 64) := none
  /-- This module wraps copies at its east or west port (R142). -/
  wrapEast : Bool := false
  wrapWest : Bool := false
  /-- Replay records have been written in the first wrapped frame (R144). -/
  replayDone : Bool := false
  /-- Master entries of this module's slot at the last three pours, newest first (R124, R144). -/
  published : List (BitVec 64 × List MasterEntry) := []
  /-- Cyclic data of this module's slot at the last pour (R123); what it holds is the plan's. -/
  cyc : List Word := []
  /-- Entries of the other ring that wait for this ring's next frame, oldest first; the marked ones wait for the frame after
  it (R113, R130). -/
  store : List (Bool × MasterEntry) := []
  /-- Ring state of the child segment (R150 RING_STATE gives that of the module's segment). -/
  state : BitVec 2 := 0
deriving DecidableEq, Repr

/-- The link sequencers and the domain. -/
structure Link where
  ports : Vector Port 4 := Vector.replicate 4 {}
  seg : SegmentRegs := {}
  plan : Plan := {}
  /-- The module's segment, and the child segment of a bridge. -/
  rings : Vector Ring 2 := Vector.replicate 2 {}
  /-- Reports of the members of the segment that this module evaluates (R131). -/
  delays : List Nat := []
  clocks : List Nat := []
  population : BitVec 16 := 0
  /-- Election priority, 255 never master (R111), and capabilities of R115. -/
  priority : BitVec 8 := 255
  mayMaster : Bool := false
  mayBridge : Bool := false
  mayGrand : Bool := false
  /-- Positions, module IDs and public keys of the acceptance list in the vault (R136). -/
  acceptList : List (Nat × BitVec 64 × BitVec 512) := []
  wrongCodes : Nat := 0
  lockUntil : Option Fix := none
  domainReq : Option DomainReq := none
  wrapCheck : Bool := false
  /-- DOMAIN_STARTED (R101). -/
  started : Bool := false
  /-- First pour that carries slots (R133). -/
  firstSlotPour : BitVec 64 := 0
  /-- EVENT_FORWARD_SET: destination module, minimum class, groups (R140). -/
  fwdDest : BitVec 64 := 0
  fwdMin : Cls := .note
  fwdGroups : Word := 0
  /-- Keys of the entries already taken: publisher, index, sample pour (R125). -/
  taken : List (BitVec 64 × Nat × BitVec 16) := []
  /-- Entries on their way through the receive FIFOs, oldest first. -/
  rx : List RxEntry := []
  /-- Fragments that wait to be sent, oldest first. -/
  outbox : List FragWait := []
  /-- What the last command that sent anything made leave the ports, in order. -/
  sent : List LinkOut := []
  /-- RING_SPLIT raised (R146). -/
  split : Bool := false
deriving DecidableEq, Repr

/-! ### Master slots (R151 to R179) -/

/-- One master slot, axis 80 + s. -/
structure Slot where
  regs : SlotRegs := {}
  clsOverrun : Cls := .note
  clsRide : Cls := .stop
  /-- Master-value history of pours P-1, P-2, P-3 (R154). -/
  m1 : Fix := 0
  m2 : Fix := 0
  m3 : Fix := 0
  /-- The last two samples that came on time, and the velocity they give, per pour (R166). -/
  onTime : Fix := 0
  onTimePour : BitVec 64 := 0
  vel : Fix := 0
  /-- Consecutive on-time samples while ARMING (R170). -/
  armRun : Nat := 0
  /-- The slot armed at this pour; its own sample does not count. -/
  armingPour : BitVec 64 := 0
  /-- Steeping of the coming pour has begun, on this value (R151, R153, R154). -/
  steeping : Bool := false
  predicted : Fix := 0
  /-- m(P) of the coming pour, once arrived on time. -/
  arrived : Option Fix := none
  /-- A re-steep is under way since this DT (R158). -/
  resteep : Option Fix := none
  /-- Outcome decided for the coming pour (codes of R179); none while open. -/
  outcome : Option (BitVec 3) := none
  /-- Residual of the coming pour in 2^-32 counts, signed. -/
  residual : Fix := 0
  /-- Resume granted for the coming pour (R168). -/
  resume : Bool := false
  /-- Outcome and residual of the last pour, for the cyclic image. -/
  lastOutcome : BitVec 3 := 7
  lastResidual : Fix := 0
  /-- Poured master values of the last two pours (R161, R174). -/
  poured : Fix := 0
  pouredPrev : Fix := 0
  /-- Entry to LOST. -/
  lostAt : Fix := 0
  /-- Samples of later pours that came early, by sample pour (R153). -/
  early : List (BitVec 16 × Fix) := []
  /-- The sample of the coming pour came after its deadline (R154). -/
  tardy : Option Fix := none
deriving DecidableEq, Repr

/-! ### Axes, profiles, homing (R180 to R213, R611 to R613), gearing, cams, register control (R214 to R240) -/

/-- Kinds of profile move (R191). -/
inductive MoveKind where
  | position | velocity | stop
deriving DecidableEq, Repr

/-- A profile move: its target, and the limits it names, 0 for the axis maximum (R190, R191). -/
structure Move where
  kind : MoveKind
  /-- Position target or relative distance, or the signed target velocity. -/
  target : Fix
  /-- Relative; else the direction code and turn count of R194. -/
  rel : Bool := false
  dir : BitVec 2 := 0
  turns : BitVec 64 := 0
  /-- Travel still to make, for a position move. -/
  left : BitVec 128 := 0
  v : Fix
  a : Fix
  dec : Fix
  j : Fix
deriving DecidableEq, Repr

/-- A STOP ramp in progress (R208). -/
structure StopRamp where
  dec : Fix
  j : Fix
  /-- Of fault origin: holds HOLD_TIME and then disables. -/
  fault : Bool
  /-- From AXIS_DISABLE or a slot: disables at standstill. -/
  disable : Bool
deriving DecidableEq, Repr

/-- Motion maxima (R190). -/
structure Limits where
  v : Fix := 0
  a : Fix := 0
  dec : Fix := 0
  j : Fix := 0
deriving DecidableEq, Repr

/-- A homing run (R198 to R207). -/
structure HomeRun where
  method : BitVec 4
  /-- Search direction now: true positive. -/
  dirPos : Bool
  /-- Where the pass in progress began. -/
  passStart : Fix
  /-- Position at which the reference edge of pass 1 qualified. -/
  edge : Fix := 0
  /-- The home edge of this pass has been seen (methods 3 and 4). -/
  edgeSeen : Bool := false
  /-- Limit input met during the search: false positive, true negative. -/
  hitLimit : Option Bool := none
  /-- The reference is latched and waits for its pour (R205), latched at this DT. -/
  latchedAt : Option Fix := none
  /-- DT of the first raw edge of the reference, or the position that it names without an edge (methods 9 to 12). -/
  edgeDt : Fix := 0
  known : Option Fix := none
  /-- Uncertainty of the latch, and whether the HOME_LATCH registers have it (R204). -/
  unc : BitVec 8 := 5
  shown : Bool := false
  /-- The re-reference has been made. -/
  referenced : Bool := false
  /-- Low speed at I_HOME since this DT (R202). -/
  slowSince : Option Fix := none
  /-- Limit switch being left after the latch (methods 5 and 6). -/
  leaving : Bool := false
  /-- Rated current at HOME_START (R202). -/
  rated : Word := 0
deriving DecidableEq, Repr

/-- An armed ratio change (R222). -/
structure GearChange where
  pc : Fix
  /-- 0 positive, 1 negative, 2 either. -/
  dir : BitVec 2
  n : Word
  d : Word
deriving DecidableEq, Repr

/-- A pending cam swap (R233). -/
structure CamSwap where
  table : Fin 16
  /-- 1 phase, 2 wrap. -/
  wrap : Bool
  us : Fix
  dir : BitVec 2
  set : Bool
  uEntry : Fix
deriving DecidableEq, Repr

/-- Register controller settings (R235 to R237). -/
structure RegConfig where
  unit : BitVec 3 := 0
  channel : BitVec 3 := 0
  nominal : Fix := 0
  pitch : BitVec 64 := 0
  /-- SIGN: true negative. -/
  neg : Bool := false
  kp : Word := 0
  ki : Word := 0
  deadband : Word := 0
  eMax : Word := 0
  rateMax : BitVec 64 := 0
  offMax : BitVec 64 := 0
  missLimit : Word := 0
deriving DecidableEq, Repr

/-- A mode of what feeds the axis's set-point (R186 SOURCE): 0 profile, 1 gearing, 2 cam, 3 host input, 4 slot. -/
abbrev Source := BitVec 3

/-- A sample of the position history of an axis (R446): unwrapped position and set-point in 2^-32 counts. -/
structure HistSample where
  t : Fix
  u : Int
  sp : Int
  unconf : Bool
deriving DecidableEq, Repr

/-- One axis. -/
structure Axis where
  regs : AxisRegs := {}
  follow : FollowRegs := {}
  steep : StageSteepRegs := {}
  /-- Status bits of R186 that are state of their own. -/
  enabled : Bool := false
  inPosition : Bool := false
  homed : Bool := false
  uncertain : Bool := false
  unconfirmed : Bool := false
  stopping : Bool := false
  limitPos : Bool := false
  limitNeg : Bool := false
  posSaturated : Bool := false
  turnsSaturated : Bool := false
  fault : Bool := false
  source : Source := 0
  overshoot : Bool := false
  limitsDeferred : Bool := false
  /-- Host-set classes. -/
  clsPosLimit : Cls := .stop
  clsLimitSw : Cls := .stop
  clsSoft : Cls := .stop
  clsGearRange : Cls := .stop
  clsMark : Cls := .note
  clsLag : Cls := .stop
  /-- Codes of the conditions of class STOP or above in force (R188). -/
  conds : List (BitVec 16) := []
  /-- Profile move in force, and the limits a deferred change holds back (R196). -/
  move : Option Move := none
  /-- A move that takes effect at the coming pour: it starts from the set-point that the one before it gives there (R192). -/
  next : Option Move := none
  oldLimits : Limits := {}
  /-- Pours for which the generator may still choose its steps freely (R191; the model's own). -/
  genLeft : Nat := 0
  ramp : Option StopRamp := none
  /-- The last current tick asked for the current of I_HOME or more (R202). -/
  atIHome : Bool := false
  /-- Standstill after a fault-origin STOP since this DT (R208). -/
  holdSince : Option Fix := none
  /-- Set-point at rest within the window since this DT (R612). -/
  restSince : Option Fix := none
  /-- Poured set-point as a local-mode axis's loops took it in, and when (R247). -/
  takenPos : Fix := 0
  takenVel : Fix := 0
  takenAcc : Fix := 0
  takenAt : Fix := 0
  /-- Set-point increment of the last confirmed pour (R166, R172). -/
  confVel : Fix := 0
  /-- LIMITER_LAG and LAG_MAX (R251, R252). -/
  lag : Fix := 0
  lagMax : BitVec 64 := 0x100000
  /-- Geyser's history of the axis over the last 64 pour cycles, newest first (R446). -/
  posHist : List HistSample := []
  home : Option HomeRun := none
  /-- Gear: armed changes, live head first; start position and direction awaited; ramp direction. -/
  queue : List GearChange := []
  engPos : Fix := 0
  engDir : BitVec 2 := 0
  /-- Displacement of the engagement ramp so far, 2^-32 counts. -/
  engDisp : BitVec 128 := 0
  /-- Units of 2^-32 count that staged ratio changes pay back with the next batch (R220). -/
  gearUnit : Nat := 0
  /-- Lead that the last batch included, in 2^-32 counts (R174). -/
  lead : BitVec 128 := 0
  /-- Increments in 2^-32 counts: of the set-point at the last pour, of the actual position at the last latch and the one
  before it (R215, R217). -/
  dSp : BitVec 128 := 0
  dAct : BitVec 128 := 0
  dActPrev : BitVec 128 := 0
  /-- What an overrun pour added to the source set-point and the next pour takes back (R158, R161). -/
  owed : BitVec 128 := 0
  /-- Cam: pending swap, start position and direction awaited, start phase, last output. -/
  swap : Option CamSwap := none
  camPos : Fix := 0
  camDir : BitVec 2 := 0
  camU0 : Fix := 0
  camOut : Fix := 0
  camEnded : Bool := false
  regCfg : RegConfig := {}
  regIAcc : BitVec 128 := 0
  regTarget : Fix := 0
  /-- Targets of accepted measurements, each with the pour from which it is staged (R236). -/
  regStaged : List (BitVec 64 × Fix) := []
  regClamped : Bool := false
  regLimited : Bool := false
  /-- Master travel since the last accepted measurement. -/
  regTravel : BitVec 128 := 0
  /-- A slot stop reached this axis (R167): it disables at standstill. -/
  slotStop : Bool := false
deriving DecidableEq, Repr

/-- A cam point (R229). -/
structure CamPoint where
  x : BitVec 64
  y : Fix
  /-- Slope, signed 32.32. -/
  s : BitVec 64
deriving DecidableEq, Repr

/-- One cam table (R229, R230). -/
structure CamTable where
  /-- 0 empty, 1 loading, 2 valid, 3 failed. -/
  state : BitVec 2 := 0
  periodic : Bool := false
  /-- Points and CRC named at CAM_LOAD_BEGIN. -/
  count : Nat := 0
  crc : Word := 0
  /-- The points loaded, as first index and count. -/
  loaded : List (Nat × Nat) := []
  /-- The point words loaded, by word index. -/
  words : Mem := []
  /-- The points of a checked table. -/
  pts : List CamPoint := []
deriving DecidableEq, Repr

/-! ### Loops, supervisors, trace units (R241 to R280) -/

/-- A direct coefficient word on its way to the loop (R265, R306): coefficient index 0 KP to 6 OUT_MAX. -/
structure DirectWrite where
  coef : Fin 7
  v : Word
  at_ : Fix
deriving DecidableEq, Repr

/-- Sources and destination of a free loop (R243). -/
structure FreeLoop where
  configured : Bool := false
  sp : Word := 0
  fb : Word := 0
  tick : Word := 0
  /-- 0 none, 1 velocity trim, 2 current trim. -/
  dest : BitVec 2 := 0
  axis : BitVec 7 := 0
deriving DecidableEq, Repr

/-- One loop instance: its registers and what its context in engine memory does not hold. -/
structure Loop where
  regs : LoopRegs := {}
  clsSat : Cls := .note
  direct : List DirectWrite := []
  free : FreeLoop := {}
  /-- Mode the loop runs next, staged (R259). -/
  modeNext : Option (BitVec 2) := none
  /-- A MAN_OUT staged with the switch (R262). -/
  manStaged : Bool := false
  /-- The next AUTO tick presets the integrator as R260 does (R376). -/
  bumpNext : Bool := false
  /-- OUT was clamped at OUT_MAX, at OUT_MIN, on the previous tick (R256). -/
  clampHi : Bool := false
  clampLo : Bool := false
  /-- Run of clamped ticks (R257, R308). -/
  satSince : Option Fix := none
  satRaised : Bool := false
  /-- Supervisor: predicted value, load estimate, residual, violation since (R268 to R270). -/
  supPred : Word := 0
  supLoad : Word := 0
  supRes : Word := 0
  supSince : Option Fix := none
  clsSup : Cls := .stop
  /-- INNER_INTERP: previous outer output and inner ticks since (R250). -/
  prevOuter : Word := 0
  innerTick : Nat := 0
deriving DecidableEq, Repr

/-- One trace unit: registers, configuration (R271 to R274) and the recording in progress. -/
structure Trace where
  regs : TraceRegs := {}
  loop : BitVec 7 := 0
  div : Nat := 1
  pre : Nat := 0
  post : Nat := 0
  conds : BitVec 4 := 0
  evCode : BitVec 16 := 0
  evMask : BitVec 16 := 0
  evValue : BitVec 16 := 0
  sigIdx : Nat := 0
  thr : Word := 0
  /-- 0 level above, 1 level below, 2 rising, 3 falling. -/
  edge : BitVec 2 := 0
  cu : BitVec 4 := 0
  nSig : Nat := 0
  ticks : Nat := 0
  /-- Records written since arming, and since the trigger. -/
  wrote : Nat := 0
  sincePost : Nat := 0
  /-- Due DT of the records still in the ring, oldest first (R274). -/
  dues : List Fix := []
  /-- Due DT of the last record that the ring overwrote. -/
  lostDue : Option Fix := none
  lastSig : Word := 0
  /-- Conditions met and waiting for their sample: event timestamp, compare firing, force. -/
  evAt : Option Fix := none
  cmpAt : Option Fix := none
  force : Bool := false
deriving DecidableEq, Repr

/-! ### Loop engines (R281 to R317) -/

/-- The banked registers (R282). -/
structure Bank where
  g : Vector Word 16 := Vector.replicate 16 0
  /-- SR[15:0]. -/
  sr : BitVec 16 := 0
deriving DecidableEq, Repr

/-- Where a delayed result lands (R294). -/
inductive Dest where
  | g (i : Fin 16)
  | ac (n : Bool)
  /-- Address register: kind 0 P, 1 MOD, 2 LEN, 3 BASE. -/
  | adr (kind : BitVec 2) (i : Fin 8)
  /-- A port-memory word. -/
  | port (a : BitVec 16)
deriving DecidableEq, Repr

/-- A result on its way: the bank it belongs to, its value, and the delay slots left (R294, R295). -/
structure Late where
  dest : Dest
  shadow : Bool
  val : BitVec 80
  left : Nat
deriving DecidableEq, Repr

/-- A control transfer whose two delay slots are being issued (R294, R295). -/
inductive Transfer where
  | jump (target : BitVec 13)
  /-- TEXIT. -/
  | exit_
  /-- A branch not taken: its slots are slots all the same. -/
  | none_
deriving DecidableEq, Repr

/-- An engine image as checked (R313). -/
structure EngineImage where
  hdr : List Word := []
  prog : Mem := []
  data : Mem := []
deriving DecidableEq, Repr

/-- An image being loaded (R314). -/
structure EngineLoad where
  size : Nat
  crc : Word
  data : Mem
deriving DecidableEq, Repr

/-- A tick entry's run time state. -/
structure TickEntry where
  regs : TickRegs := {}
  pending : Bool := false
  /-- Due DT and tick number of the firing that is pending or running. -/
  due : Fix := 0
  j : Nat := 0
  /-- Occurrences since enable (R297 kinds 3 and 4). -/
  occ : Nat := 0
  /-- CYCLE at entry, for MAX_CYCLES. -/
  start : Word := 0
deriving DecidableEq, Repr

/-- One loop engine. -/
structure Engine where
  regs : EngineRegs := {}
  ticks : Vector TickEntry 16 := Vector.replicate 16 {}
  main : Bank := {}
  shadow : Bank := {}
  /-- BANK of SR: tick code is running. -/
  inTick : Bool := false
  running : Option (Fin 16) := none
  ac0 : BitVec 80 := 0
  ac1 : BitVec 80 := 0
  /-- The accumulators as SATX, EXTL, EXTH, EXTG and STAC see them, one slot behind (R294). -/
  lag0 : BitVec 80 := 0
  lag1 : BitVec 80 := 0
  p : Vector (BitVec 16) 8 := Vector.replicate 8 0
  md : Vector (BitVec 16) 8 := Vector.replicate 8 0
  len : Vector (BitVec 15) 8 := Vector.replicate 8 0
  base : Vector (BitVec 16) 8 := Vector.replicate 8 0
  pc : BitVec 13 := 0
  /-- Background program counter while a tick runs. -/
  backPc : BitVec 13 := 0
  late : List Late := []
  transfer : Option (Transfer × Nat) := none
  /-- The transfer a tick entry cut into, kept for the background. -/
  backTransfer : Option (Transfer × Nat) := none
  /-- Repetitions the next instruction owes (R296). -/
  rep : Nat := 0
  waiting : Bool := false
  cycle : Word := 0
  /-- DT captured by a read of 0x6004 (R289). -/
  dtCap : Fix := 0
  prog : Mem := []
  data : Mem := []
  image : Option EngineImage := none
  load : Option EngineLoad := none
  /-- Port grants for T(4c) to T(4c+3) (R313). -/
  grant : BitVec 4 := 0
  clsFault : Cls := .vent
  clsOverrun : Cls := .stop
  /-- ECC_CORRECTED was last raised at this DT. -/
  eccAt : Option Fix := none
  /-- The debug port lets BKPT halt, as it last set that with a halt or a resume (log entry 130); TICK_OVERRUN already raised
  in this halt (R311). -/
  bkptEn : Bool := false
  haltOverrun : Bool := false
  /-- Context words the staging port writes once the entry that holds their loop has exited (R305, R307). -/
  deferred : List (Nat × Word) := []
  /-- Engine cycles spent in ticks since the last pour point, those of the running tick from the cycle counter below on; and the
  pour cycles of the last 1,024 that had any, newest first, with theirs (R317 LOAD_PERMILLE). -/
  busy : Nat := 0
  busyFrom : Word := 0
  loads : List (BitVec 64 × Nat) := []
deriving DecidableEq, Repr

/-! ### Power tiles (R318 to R355) -/

/-- Carrier and timing settings a tile takes as one (R327, R335). -/
structure PwmSettings where
  period : BitVec 18
  phase : BitVec 18
  centre : Bool
  double : Bool
  /-- MINPULSE: false DROP, true STRETCH. -/
  stretch : Bool
  minPulse : BitVec 16
  deadtime : Vector (BitVec 16) 4
  dtcEn : BitVec 4
deriving DecidableEq, Repr

/-- The leg of one half-bridge, times in 78.125 ps units (R326 to R331). -/
structure Leg where
  /-- Level at the start of the segment, how long it had lasted then, and the toggles placed in the segment. -/
  high : Bool := false
  age : Nat := 1000000000
  edges : List Nat := []
  /-- The toggles that the duty calls for in the segment: time, level begun, length of the interval begun. -/
  plan : List (Nat × Bool × Nat) := []
  /-- Forced state in force (R334, R336): 0 follows the duty, 1 OFF, 2 LOW, 3 HIGH. -/
  force : BitVec 2 := 0
  /-- The interval in progress was lengthened when it was placed; the one that should begin was removed. -/
  long : Bool := false
  kept : Bool := false
  /-- Leg-high times of the period in progress: commanded, and realised in its segments before this one. -/
  cmd : Int := 0
  real : Nat := 0
deriving DecidableEq, Repr

/-- One power tile beyond its registers. -/
structure TilePower where
  /-- Staged settings waiting for their period boundary (R327). -/
  pwmNext : Option PwmSettings := none
  /-- Unstaged settings waiting for a LOAD_ALL take, and those waiting for the position-loop tick (R80). -/
  loadQ : List StagedCmd := []
  tickQ : List StagedCmd := []
  /-- Start of the current period and its length in clocks (R338). -/
  periodStart : Fix := 0
  periodNow : Nat := 0
  /-- A transition period to a new grid is running (R327). -/
  transition : Bool := false
  /-- Update instants counted and TAG of the last control group taken (R338). -/
  updates : BitVec 16 := 0
  tag : BitVec 16 := 0
  /-- The legs, and the start and length of the segment that their edges are placed in: the period, or a half period under
  double update. -/
  legs : Vector Leg 4 := Vector.replicate 4 {}
  segStart : Fix := 0
  segLen : Nat := 0
  /-- DT of the arm that the LOAD_ALL take waits for (R335). -/
  armAt : Fix := 0
  /-- The axis's first current tick since enable has executed TEXIT (R322). -/
  firstTick : Bool := false
  /-- HALL_ILLEGAL in force. -/
  hallBad : Bool := false
  /-- Brake chopper (R347 to R349): on, reading at turn-on, turn-on DT. -/
  chopOn : Bool := false
  chopV : Word := 0
  chopAt : Fix := 0
  chopOk : Bool := false
  /-- DT of the last turn-off, and of a change of the chopper that waits until its interval has lasted t_m (R330, R347). -/
  chopOffAt : Fix := 0
  chopDue : Option Fix := none
  /-- Last Vdc reading in mV (R346). -/
  vdc : Word := 0
  vdcSeen : Bool := false
  /-- FROZEN by a debug halt (else by a clock stop) and the state it froze in. -/
  frozenHalt : Bool := false
deriving DecidableEq, Repr

/-- A DC-link group (R346 to R351). -/
structure DclGroup where
  regs : DclRegs := {}
  /-- Since when every member has read above the level at which DCL_UNDERVOLT clears (R351). -/
  uvFrom : Option Fix := none
deriving DecidableEq, Repr

/-! ### Motor field control (R356 to R387) -/

/-- Field control of one tile beyond its registers. -/
structure Foc where
  regs : FocRegs := {}
  ident : IdentResultRegs := {}
  /-- The PWM control group's SENSE_STAT and WIN_DT words (R382). -/
  senseStat : Word := 0
  winDt : Word := 0
  /-- Consecutive ticks with a sum error (R364), predicted periods, and good periods since (R368). -/
  sumRun : Nat := 0
  predRun : Nat := 0
  goodRun : Nat := 0
  noWindow : Bool := false
  /-- Phases whose legs the period in progress shifts (R367). -/
  shifted : BitVec 3 := 0
  /-- SD samples in force and whether each lay in a valid window. -/
  iu : Word := 0
  iv : Word := 0
  iw : Word := 0
  /-- Observer convergence since, and loss since (R372, R377). -/
  convSince : Option Fix := none
  lostSince : Option Fix := none
  /-- Entry to the start state in force. -/
  stateAt : Fix := 0
  /-- A retry wait is running since (R378). -/
  retryAt : Option Fix := none
  /-- Direction of the start: true positive. -/
  startPos : Bool := true
  /-- Open-loop or blended angle and the previous observer angle (R373, R376). -/
  olTheta : Word := 0
  prevTheta : Word := 0
  /-- The alignment of R370 is owed at this enable. -/
  aligning : Bool := false
  /-- Samples of the moving average of R362, newest first: d and q. -/
  avg : List (Word × Word) := []
  /-- Voltage demands of the last tick: the prediction of R368 starts from them. -/
  ud : Word := 0
  uq : Word := 0
  /-- Speed of the open-loop angle in counts per second; at rest with a zero set-point since (R377); the blend to the
  observer's angle runs since (R376), from this angle. -/
  olVel : Fix := 0
  zeroAt : Option Fix := none
  blendAt : Option Fix := none
  /-- The observer's speed in counts per second. -/
  omegaObs : Word := 0
  /-- Movement of the observer's angle used for control since the last pour point, 2^-32 counts (R373). -/
  moved : BitVec 128 := 0
  /-- A running identification: mask left, I_IDENT, IDENT_SPEED, ROTATE_OK, op sequence and session. -/
  identMask : BitVec 5 := 0
  identI : Word := 0
  identSpeed : Word := 0
  identRotate : Bool := false
deriving DecidableEq, Repr

/-! ### Stepper and valve modes (R388 to R410) -/

/-- One bitstream chopper (R393 to R397). -/
structure Chopper where
  /-- 0 not switching, 1 DRIVE, 2 SLOW, 3 FAST. -/
  state : BitVec 2 := 0
  /-- The last CHOP_N bits, newest first. -/
  window : List Bool := []
  /-- Latest current estimate i_s1. -/
  est : Word := 0
  /-- Sum and count of i_s1 over the chop cycle, for its mean. -/
  sum : BitVec 64 := 0
  n : Nat := 0
  /-- Blanking, and since when; DRIVE since, FAST since. -/
  blank : Bool := false
  blankAt : Fix := 0
  driveAt : Fix := 0
  fastAt : Fix := 0
  /-- |i_s1| has reached HYST during the DRIVE in progress. -/
  reached : Bool := false
  under : Bool := false
  /-- COIL_UNDERDRIVE has been raised for the run of underdriven cycles (R397). -/
  told : Bool := false
  cycles : BitVec 16 := 0
  /-- Levels of the first and the second leg, and since when they hold, an interval held to t_m counting from its end. -/
  high : Vector Bool 2 := Vector.replicate 2 false
  since : Vector Fix 2 := Vector.replicate 2 0
deriving DecidableEq, Repr

/-- Stepper and valve state of one tile beyond its registers. -/
structure Sv where
  regs : SvRegs := {}
  chop : Vector Chopper 2 := Vector.replicate 2 {}
  /-- Loaded table entries A in [15:0] and B in [31:16] by index (R390); how many since the last cold reset. -/
  table : Mem := []
  loaded : List (Nat × Nat) := []
  /-- STEP_TARGET and STEP_AMP taken, the previous target, and the DT of the take (R391). -/
  target : Word := 0
  prevTarget : Word := 0
  amp : Word := 0
  takeAt : Fix := 0
  /-- What re-references have moved the count by since the first tick, modulo 1,024: the address applied does not move (R205). -/
  moved : BitVec 10 := 0
  /-- The address is frozen (R209, R400). -/
  frozen : Bool := false
  /-- Set-point velocity zero since, and for T_IDLE already (R392). -/
  idleSince : Option Fix := none
  idle : Bool := false
  /-- STALL's run of ticks (R398). -/
  stallRun : Nat := 0
  /-- Coil measurement under way: coils left, and both forced LOW for the settling after it (R405). -/
  measLeft : BitVec 2 := 0
  settling : Bool := false
  /-- When the measurement, or the settling, began. -/
  measAt : Fix := 0
  /-- A coil loop clamped with no current since, per coil (R406). -/
  openSince : Vector (Option Fix) 2 := Vector.replicate 2 none
deriving DecidableEq, Repr

/-- One tile with its field control and stepper or valve parts, and the axis-side NTC. -/
structure Tile where
  regs : TileRegs := {}
  pw : TilePower := {}
  foc : Foc := {}
  sv : Sv := {}
  ntc : NtcRegs := {}
  /-- NTC derating: temperature below which it has cleared, TEMP_DERATING in force, fault run. -/
  derated : Bool := false
  ntcRun : Nat := 0
deriving DecidableEq, Repr

/-- Module-wide classes of tile events (R353, R384, R409, R437, R583). -/
structure TilePolicy where
  hallIllegal : Cls := .stop
  brakeIneff : Cls := .note
  dclUnder : Cls := .stop
  phaseOc : Cls := .vent
  sumErr : Cls := .stop
  noWindow : Cls := .stop
  startFailed : Cls := .stop
  obsLost : Cls := .stop
  stall : Cls := .stop
  coilOc : Cls := .vent
  coilFault : Cls := .stop
  sdOver : Cls := .note
  sdStuck : Cls := .stop
  encIllegal : Cls := .stop
  absFailed : Cls := .stop
  ntcFault : Cls := .stop
  v3a : Cls := .stop
  fioLink : Cls := .stop
deriving DecidableEq, Repr

/-! ### Feedback: sigma-delta channels and encoders (R411 to R440) -/

/-- One modulator clock (R412, R439). -/
structure SdClk where
  /-- CLK 0x0 [6:0] DIV ST: 16 to 80. -/
  div : BitVec 7 := 20
  /-- CLK 0x0 [8] EN ST. -/
  en : Bool := false
deriving DecidableEq, Repr

/-- One sigma-delta input (R413 to R419). -/
structure SdChannel where
  regs : SdRegs := {}
  /-- Consecutive samples at or above OR_THR, or below it while over range (R418). -/
  orRun : Nat := 0
  /-- The sample before the latest one. -/
  prev : Word := 0
deriving DecidableEq, Repr

/-- One encoder interface, 16 being MENC (R420 to R436). -/
structure Encoder where
  regs : EncRegs := {}
  /-- An illegal transition, an index latch, since the last count latch (R424 word 0x23). -/
  illSince : Bool := false
  idxSince : Bool := false
  /-- Latch counter of word 0x23. -/
  latchCtr : BitVec 16 := 0
  /-- C(Q - 1): the count of the source in force at the last pour point (R436). -/
  lastC : BitVec 64 := 0
  /-- The count of the source in force at the last current tick of the tile's axis (R424). -/
  tickC : BitVec 64 := 0
  /-- The raw count at the last pour point, and its increments to there and to the one before (R215, R436). -/
  latched : BitVec 64 := 0
  dCount : BitVec 64 := 0
  dCountPrev : BitVec 64 := 0
  /-- SSI_CONFIG, SINCOS_CONFIG has been applied (R435). -/
  ssiSet : Bool := false
  sincosSet : Bool := false
  /-- Last accepted absolute field (R430). -/
  lastField : Option (BitVec 64) := none
  /-- Consecutive jump rejections (R430), consecutive rejected readings (R437), ABS_READ_FAILED in force. -/
  jumps : Nat := 0
  fails : Nat := 0
  failed : Bool := false
  /-- D_rt of the last 8 frames in ps, newest first (R428). -/
  drts : List Nat := []
  /-- The last current tick of the tile's axis: its number since the pour point, and its due edge (R427). -/
  tickJ : Option Nat := none
  tickAt : Fix := 0
  /-- Departure of the first falling edge of the SSI frame under way (R427). -/
  frameAt : Option Fix := none
  /-- Absolute group word 0x27: last reading accepted, cause, reading counter (R431). -/
  absOk : Bool := false
  absCause : BitVec 3 := 0
  absCtr : BitVec 16 := 0
  /-- Word 0x26. -/
  absDt : Word := 0
  /-- Samples with the amplitude outside its limits in a row (R434). -/
  ampRun : Nat := 0
  /-- The reading before the last, and the DT ns[31:0] at which it applied (R403). -/
  prevCount : BitVec 64 := 0
  prevDt : Word := 0
  /-- Counts and the DT of the edges that gave them, newest first, as far back as a sin/cos group delay reaches (R433). -/
  edges : List (Fix × BitVec 64) := []
  /-- Fine angle of the last accepted sin/cos reading (R433, COARSE = NONE). -/
  lastFine : Option (BitVec 14) := none
  /-- ENC_ILLEGAL in force until FAULT_CLEAR. -/
  illegal : Bool := false
  /-- Field saved in the vault, awaited by ABS_CHECK (R558). -/
  absCheck : Option (BitVec 64) := none
deriving DecidableEq, Repr

/-! ### Geyser (R441 to R469) -/

/-- A raw edge of a capture input (R441 to R443). -/
structure RawEdge where
  rising : Bool
  /-- DT of the 2.5 ns tick. -/
  t : Fix
  /-- TDC_FINE, 50 ps units, and whether it is valid. -/
  fine : BitVec 6
  fineOk : Bool
deriving DecidableEq, Repr

/-- One capture input. -/
structure CapInput where
  regs : CapRegs := {}
  /-- First raw edge of the transition that has not qualified yet (R203, R204). -/
  pend : Option RawEdge := none
  /-- The last edge its TDC converted (R443), and DT of the last raw edge. -/
  lastConv : Option RawEdge := none
  lastRaw : Fix := 0
deriving DecidableEq, Repr

/-- One latch of a capture record: axis and SP bit (R449). -/
structure LatchReq where
  axis : BitVec 7
  sp : Bool
deriving DecidableEq, Repr

/-- What a position latch was taken for: a capture record, or an edge of a MARK slot (R449, R464). -/
inductive LatchFor where
  | record (seq : BitVec 16) (input : Fin 48) (l0 l1 : LatchReq)
  | mark (input : Fin 48) (unit : Fin 8) (slot : Fin 8) (start stop : Bool)
deriving DecidableEq, Repr

/-- A latch waiting for its next history sample (R448). -/
structure PendLatch where
  what : LatchFor
  edge : RawEdge
deriving DecidableEq, Repr

/-- One trigger condition (R456). -/
structure GuCond where
  kind : BitVec 3 := 0
  mask : BitVec 48 := 0
  value : BitVec 48 := 0
  ch : BitVec 5 := 0
  /-- 0 ABOVE, 1 BELOW, 2 RISE, 3 FALL, 4 EITHER. -/
  amode : BitVec 3 := 0
  thr : Word := 0
  hyst : Word := 0
  emask : BitVec 16 := 0
  evalue : BitVec 16 := 0
  cu : BitVec 4 := 0
  /-- A sample at or below THR - HYST, at or above THR + HYST, has been seen since the last crossing. -/
  wasLow : Bool := false
  wasHigh : Bool := false
deriving DecidableEq, Repr

/-- A condition met, waiting for its trigger point (R457). -/
structure GuMet where
  /-- 0 to 3, or 4 for GU_FORCE. -/
  n : Fin 5
  t : Fix
  fine : BitVec 6
  fineOk : Bool
  unc : BitVec 8
deriving DecidableEq, Repr

/-- A measurement slot's setting (R463, R464). -/
structure GuMeas where
  kind : BitVec 4 := 0
  /-- Input or channel. -/
  ch : BitVec 6 := 0
  pol : Bool := false
  start : BitVec 6 := 0
  startPol : Bool := false
  stop : BitVec 6 := 0
  stopPol : Bool := false
  axis : BitVec 7 := 0
  gateMin : BitVec 64 := 0
  gateMax : BitVec 64 := 0
deriving DecidableEq, Repr

/-- The held start of a MARK slot: its latch in 2^-32 counts, none where it failed, and its mark (R464). -/
structure HeldStart where
  pos : Option Int
  unconf : Bool
deriving DecidableEq, Repr

/-- An accepted mark measurement: its slot, STOP edge and distance (R463, R464). -/
structure GuMark where
  slot : Fin 8
  edge : RawEdge
  dist : Int
deriving DecidableEq, Repr

/-- A qualified transition in the window of a record (R463). -/
structure GuEdge where
  input : BitVec 6
  edge : RawEdge
deriving DecidableEq, Repr

/-- An accepted trigger (R459): the condition that defines its time, the mask, and the number of the trigger sample counted
from the start of the ring. -/
structure GuTrig where
  met : GuMet
  mask : BitVec 5
  late : Bool
  idx : Nat
deriving DecidableEq, Repr

/-- One acquisition unit. -/
structure GeyserUnit where
  regs : GuRegs := {}
  conds : Vector GuCond 4 := Vector.replicate 4 {}
  /-- Settings of the measurement slots, and the earlier ones, newest first, each with the pour point that replaced it. -/
  meas : Vector GuMeas 8 := Vector.replicate 8 {}
  measWas : List (Fix × Vector GuMeas 8) := []
  marks : Vector MarkMeasRegs 8 := Vector.replicate 8 {}
  held : Vector (Option HeldStart) 8 := Vector.replicate 8 none
  sels : List Word := []
  /-- Occurrences of SAMPLE_SRC since GU_ARM, and the instant of the last. -/
  occ : Nat := 0
  occAt : Option Fix := none
  /-- Samples written since the ring started, and the last PRE + POST + 1 of them, newest first, each with its due
  DT in full. -/
  count : Nat := 0
  ring : List (Fix × List Word) := []
  /-- Due DT of the last sample that left the ring (R457). -/
  gone : Option Fix := none
  mets : List GuMet := []
  trig : Option GuTrig := none
  edges : List GuEdge := []
  marksIn : List GuMark := []
deriving DecidableEq, Repr

/-- Geyser. -/
structure Geyser where
  caps : Vector CapInput 48 := Vector.replicate 48 {}
  ringRegs : MarkRegs := {}
  /-- Words of the capture ring, by slot, and the sequence numbers of the records not yet consumed. -/
  ring : List (Nat × List Word) := []
  ringHeld : List (BitVec 16) := []
  /-- The 400 MHz edge of the last raw edges, the levels before it, and how many inputs changed at it (R456). -/
  edgeAt : Option Fix := none
  edgeWas : BitVec 48 := 0
  edgeNum : Nat := 0
  /-- Records dropped since the last CAP_RING_LOST, and when that was raised (R450). -/
  lostSince : Nat := 0
  lostAt : Option Fix := none
  latches : List PendLatch := []
  units : Vector GeyserUnit 8 := Vector.replicate 8 {}
deriving DecidableEq, Repr

/-! ### Caldera (R470 to R505) -/

/-- One channel of a safety input (R483, R484). -/
structure SafetyChannel where
  /-- What the last tick classified: released, demand (neither: level high without its dark pulse). -/
  released : Bool := false
  demand : Bool := true
  /-- Ticks in a row that read demand, released. -/
  demandRun : Nat := 0
  releasedRun : Nat := 0
  /-- Filtered demand. -/
  filtered : Bool := true
  /-- Levels at the last ticks, the newest in bit 0, and whether the last expected window held a dark pulse. -/
  levels : BitVec 96 := 0
  seen : Bool := false
  /-- Cross-shorted (latched), and test periods in a row with the correct pattern. -/
  crossShort : Bool := false
  goodPeriods : Nat := 0
deriving DecidableEq, Repr

/-- One safety input of two channels (R485). -/
structure SafetyInput where
  a : SafetyChannel := {}
  b : SafetyChannel := {}
  /-- Length of the disagreement in ticks, and of the agreement. -/
  disagree : Nat := 0
  agree : Nat := 0
  disc : Bool := false
  /-- Steps of the R485 sequence done: 1 both in filtered demand, 2 then both released. -/
  discStep : BitVec 2 := 0
  /-- Ticks for which both channels have read released, and those of a press that this tick ended, else 0 (R486). -/
  press : Nat := 0
  pressed : Nat := 0
deriving DecidableEq, Repr

/-- Phase of a safety group (R505 GROUP_A [1:0]). -/
inductive GroupPhase where
  | sto | ss1 | permitted
deriving DecidableEq, Repr

/-- One safety group (R475, R487 to R496). -/
structure SafetyGroup where
  phase : GroupPhase := .sto
  /-- No reset has been accepted since the group last entered STO. -/
  resetNeeded : Bool := true
  slsRequested : Bool := false
  slsMonitoring : Bool := false
  /-- Caldera millisecond of the SLS request (R495). -/
  slsFrom : Word := 0
  sdiPos : Bool := false
  sdiNeg : Bool := false
  /-- A demand on the group was in force at the last cycle. -/
  demand : Bool := true
  /-- Latched faults of the group (CROSS_SHORT and DISCREPANCY are held with the inputs). -/
  genFault : Bool := false
  sboFault : Bool := false
  ss1rViolation : Bool := false
  slsViolation : Bool := false
  sdiViolation : Bool := false
  fbFault : Bool := false
  /-- DT of the last half period at which a GEN land of the group was wrong (R489). -/
  genBadAt : Fix := 0
  /-- SS1: milliseconds since the demand, v0 and milliseconds at standstill (R492). -/
  ss1Ms : Nat := 0
  v0 : Nat := 0
  stillMs : Nat := 0
deriving DecidableEq, Repr

/-- What Caldera keeps of one tile (R488, R489, R493, R496). -/
structure SafetyTile where
  /-- GEN toggling. -/
  toggling : Bool := false
  /-- Levels of GEN_A and GEN_B. -/
  genA : Bool := false
  genB : Bool := false
  /-- Heartbeat toggles, and the half periods in a row at which it did. -/
  heartbeat : Bool := false
  beats : Nat := 0
  /-- GEN lands that differed at the last half period: A, B. -/
  missA : Bool := false
  missB : Bool := false
  /-- SAFE_COUNT, its values of the last 8 ms newest first, and v. -/
  count : Word := 0
  hist : List Word := []
  v : Word := 0
  /-- Records of R496. -/
  posRef : Word := 0
  negRef : Word := 0
  /-- Milliseconds of quadrant mismatch and of low amplitude (R493). -/
  quadMs : Nat := 0
  ampMs : Nat := 0
  /-- The standing STO of the tile as raised to the control plane (R490). -/
  sto : Bool := true
deriving DecidableEq, Repr

/-- One safe brake output (R497, R498). -/
structure Sbo where
  high : Bool := false
  low : Bool := false
  fault : Bool := false
  /-- The last full test passed since the fault. -/
  testOk : Bool := false
deriving DecidableEq, Repr

/-- One entry of the fault history (R504 CALDERA_FAULT_READ). -/
structure SafetyFaultRec where
  code : BitVec 16
  p0 : Word
  p1 : Word
  ms : Word
deriving DecidableEq, Repr

/-- Caldera. -/
structure Caldera where
  /-- The status snapshot in the management plane (R505). -/
  regs : CalderaRegs := {}
  /-- DT at which the snapshot was taken. -/
  snapAt : Fix := 0
  selfTest : Bool := false
  /-- Latched CALDERA_FAULT: its cause. -/
  fault : Option (BitVec 8) := none
  /-- The cores disagreed in the last cycle. -/
  disagreed : Bool := false
  /-- SAFECFG in use, value of the last read, read fault, change, and the value the first fault-free read gave. -/
  used : BitVec 16 := 0
  last : BitVec 16 := 0
  cfgTaken : Bool := false
  readFault : Bool := false
  changed : Bool := false
  firstRead : Option (BitVec 16) := none
  inputs : Vector SafetyInput 8 := Vector.replicate 8 {}
  /-- Tick of the test period last sampled, 0 to 79, and whether the period that it ended is still to be judged. -/
  tick : Nat := 79
  periodOver : Bool := false
  /-- Test periods in a row in which a TP source did not follow, in which it did, and latched TP faults. -/
  tpRun : Vector Nat 4 := Vector.replicate 4 0
  tpGood : Vector Nat 4 := Vector.replicate 4 0
  tpFault : BitVec 4 := 0
  groups : Vector SafetyGroup 2 := Vector.replicate 2 {}
  tiles : Vector SafetyTile 16 := Vector.replicate 16 {}
  sbos : Vector Sbo 4 := Vector.replicate 4 {}
  /-- Counters of the cores that the snapshot copies. -/
  demandCount : Word := 0
  stoCount : Word := 0
  discCount : Word := 0
  xshortCount : Word := 0
  resetCount : Word := 0
  cntOvf : Bool := false
  snapSeq : BitVec 16 := 0
  /-- Caldera milliseconds since power-on. -/
  ms : Word := 0
  /-- Fault history since power-on, oldest first. -/
  history : List SafetyFaultRec := []
deriving DecidableEq, Repr

/-! ### Field I/O (R506 to R528) -/

/-- One field channel: its registers, and what the field die holds of it. -/
structure FioChannel where
  regs : FioRegs := {}
  /-- Qualified state on the field die, and the transitions the next frame carries, oldest first: state, DT. -/
  fieldQual : Bool := false
  changes : List (Bool × Fix) := []
  /-- The other channel of a BACKFEED pair, and whether this one is its subject (R520). -/
  partner : Option (Fin 24) := none
  subject : Bool := false
  /-- The channel is a candidate switched off by the search. -/
  searchOff : Bool := false
  /-- The switch is in thermal shutdown (R518). -/
  hot : Bool := false
  /-- FAILSAFE is in force on the channel (R517): the state it imposes. -/
  failsafe : Option Bool := none
  /-- DT since which the channel has its applied state, its land has its level, and of its last thermal shutdown or restart. -/
  appliedAt : Fix := 0
  rawAt : Fix := 0
  heatAt : Fix := 0
deriving DecidableEq, Repr

/-- Field I/O. -/
structure FieldIo where
  chans : Vector FioChannel 24 := Vector.replicate 24 {}
  groups : Vector FioGroupRegs 3 := Vector.replicate 3 {}
  regs : FioModuleRegs := {}
  /-- Commanded states that the field die has applied from a frame (R515). -/
  sent : BitVec 24 := 0
  /-- The field die's counter offset to DT, as the last time transfer gave it (R510). -/
  timeMap : Fix := 0
  /-- Outputs wait for FIO_RESTORE after a sag (R523). -/
  restoreOwed : Bool := false
  /-- Reverse-current comparators, subjects that wait, the candidate switched off and those still to try (R520). -/
  compActive : BitVec 24 := 0
  subjects : List (Fin 24) := []
  candidate : Option (Fin 24) := none
  candidateAt : Fix := 0
  candidates : List (Fin 24) := []
  /-- FIO_LINK_FAULT has been raised and frames have not resumed (R524). -/
  linkFault : Bool := false
  /-- DT of the last good frame on the logic side and on the field die (R524). -/
  frameAt : Fix := 0
  applyAt : Fix := 0
  /-- DT since which each group's current has been above 2.5 A, and VIN at 16.0 V or more (R521, R523). -/
  overAt : Vector (Option Fix) 3 := Vector.replicate 3 none
  vinAt : Option Fix := none
  /-- DT since which VIN has been at 17.0 V or more (R554). -/
  vinHighAt : Option Fix := none
  /-- Conditions of R517 in force: control-plane reset, HOST_INPUT_LOST, channel failure seen by the field die. -/
  fsReset : Bool := false
  fsHost : Bool := false
  fsLink : Bool := false
deriving DecidableEq, Repr

/-! ### CAN FD controllers (R529 to R549) -/

/-- A transmit request (R540, R541). -/
structure CanReq where
  handle : BitVec 16
  /-- Identifier word laid out as R537 word 0. -/
  ident : Word
  dlc : BitVec 4
  fdf : Bool
  brs : Bool
  oneShot : Bool
  data : List Word
  attempts : Nat := 0
  /-- Consecutive acknowledge errors (R542). -/
  noAck : Nat := 0
  /-- A cancel was accepted while its frame was on the bus (R543). -/
  cancel : Bool := false
deriving DecidableEq, Repr

/-- A TT object (R545, R546). -/
structure CanObject where
  ident : Word := 0
  dlc : BitVec 4 := 0
  fdf : Bool := false
  brs : Bool := false
  data : List Word := []
deriving DecidableEq, Repr

/-- A frame that a controller has sent, as CANn_TX carried it: identifier word, length code, format, bit rate switch, data. -/
structure CanSent where
  ident : Word := 0
  dlc : BitVec 4 := 0
  fdf : Bool := false
  brs : Bool := false
  data : List Word := []
deriving DecidableEq, Repr

/-- A column of the matrix (R545): set or not, offset ns, TXEN, one cell byte per basic cycle. -/
structure CanColumn where
  offset : Word
  txen : BitVec 5
  cells : List (BitVec 8)
deriving DecidableEq, Repr

/-- One CAN controller. -/
structure Can where
  regs : CanRegs := {}
  filters : Vector CanFilterRegs 32 := Vector.replicate 32 {}
  rxq : Vector CanRxqRegs 2 := Vector.replicate 2 {}
  /-- Entries of RXQ0 and RXQ1, oldest first, each of 20 words (R537). -/
  entries : Vector (List (List Word)) 2 := Vector.replicate 2 []
  /-- RX_OVERFLOW: frames lost since the last event and its time, by queue. -/
  lostSince : Vector Nat 2 := Vector.replicate 2 0
  lostAt : Vector (Option Fix) 2 := Vector.replicate 2 none
  txq : List CanReq := []
  nextHandle : BitVec 16 := 0
  /-- Handle of the request whose frame is known to be on the bus. -/
  onBus : Option (BitVec 16) := none
  /-- Earlier filters, newest first, each with the DT at which others replaced them (R536). -/
  filtersWas : List (Fix × Vector CanFilterRegs 32) := []
  /-- Mode change that waits for the end of the frame on the bus (R533). -/
  modeReq : Option (BitVec 3) := none
  /-- CAN_SLEEP waits for the next bus idle (R539). -/
  sleepReq : Bool := false
  objects : Vector CanObject 64 := Vector.replicate 64 {}
  /-- Updates accepted, oldest first, each with its acceptance DT, until the object's window takes them (R546). -/
  objNext : Vector (List (CanObject × Fix)) 64 := Vector.replicate 64 []
  columns : Vector (Option CanColumn) 64 := Vector.replicate 64 none
  /-- CAN_TT_ENABLE on: DT of the start of cycle 0 it waits for; off, waiting for the end of the frame on the bus; a
  schedule stopped by a load of DT, which resumes at this start of cycle 0 (R544, R545). -/
  ttStart : Option Fix := none
  ttStop : Bool := false
  ttReload : Option Fix := none
  /-- A TT frame is on the bus: the object, and the frame. -/
  ttObject : Option (Fin 64) := none
  ttFrame : CanSent := {}
  /-- The last window was an ARBITRATING one in which a frame of the queue may start, or has; DT of its end (R545). -/
  ttWindow : Bool := false
  ttClose : Fix := 0
  /-- The frame transmitted last. -/
  sent : CanSent := {}
  ttMissAt : Option Fix := none
deriving DecidableEq, Repr

/-! ### Reset, power and Kettle (R550 to R583) -/

/-- Reaches of a reset episode in rising order (R559, R561). -/
inductive Reach where
  | block | control | cold | powerOn
deriving DecidableEq, Repr

/-- Where the bring-up stands (R567): not supplied, reset held, waiting for the end of the step named, the boot ROM serving
the host (R568 to R570), or done. -/
inductive BootStep where
  | off | held | trim | clocks | caldera | boot | hostLoad | networkLoad | rom | done
deriving DecidableEq, Repr

/-- What a save copy holds of one axis (R556). -/
structure SavedAxis where
  pos : Fix := 0
  turns : BitVec 64 := 0
  status : Word := 0
  count : BitVec 64 := 0
  field : Option (BitVec 64) := none
deriving DecidableEq, Repr

/-- One save copy (R555, R556). -/
structure SaveCopy where
  /-- Its CRC is good. -/
  good : Bool := false
  stale : Bool := false
  /-- Save sequence: the higher is the newer. -/
  seq : Nat := 0
  pour : BitVec 64 := 0
  dt : Fix := 0
  imageCrc : Word := 0
  moduleId : BitVec 64 := 0
  axes : Vector SavedAxis 80 := Vector.replicate 80 {}
deriving DecidableEq, Repr

/-- The position vault (R555 to R557). -/
structure Vault where
  copyA : SaveCopy := {}
  copyB : SaveCopy := {}
  /-- The state at the last pour point, which a save writes. -/
  snap : SaveCopy := {}
  /-- A save is being written: its content, and whether it overwrites copy B. -/
  saving : Option SaveCopy := none
  intoB : Bool := false
  seq : Nat := 0
  /-- The host area. -/
  host : List Host.Cell := []
  /-- Write count and DT of the last write of each host block written, by block. -/
  wear : List (Nat × Nat) := []
  wroteAt : List (Nat × Fix) := []
  /-- The last Kettle trip: DT, peak sensor, peak. -/
  trip : Option (Fix × BitVec 4 × Word) := none
deriving DecidableEq, Repr

/-- Counts of the last reset of one block, in the order of R566's table. -/
structure BlockReport where
  target : BitVec 16
  words : List Word
deriving DecidableEq, Repr

/-- Supply, resets, boot, Kettle and vault. -/
structure Power where
  regs : PowerRegs := {}
  policies : Vector VaultPolicyRegs 80 := Vector.replicate 80 {}
  vault : Vault := {}
  /-- Lands: PGOOD, RESET_OUT_n, WAKE at 10 V or more, V3A on. -/
  pgood : Bool := true
  resetOutN : Bool := true
  wakeHigh : Bool := false
  v3aOn : Bool := true
  v3aLimited : Bool := false
  /-- Hibernating (R552), the HIBERNATE packets that wait for a save, and one replied to whose 10 ms run. -/
  hibernating : Bool := false
  hibernateP : List Packet := []
  hibernateOwed : Bool := false
  hibernateAt : Fix := 0
  /-- The reset episode in progress: its reach, its source bits, the RESET_n and brown-out assertions held (R561). -/
  reach : Option Reach := none
  sources : BitVec 6 := 0
  resetNHeld : Bool := false
  brownHeld : Bool := false
  boot : BootStep := .done
  /-- Straps as sampled: BOOTSEL, CLKSEL, HOST SPI. -/
  bootSel : BitVec 3 := 7
  clkSel : BitVec 2 := 3
  /-- Bank being tried (true B), the other bank tried, network attempts made, a host image accepted, host image length written. -/
  bankB : Bool := false
  triedOther : Bool := false
  netTries : Nat := 0
  imageOk : Bool := false
  /-- DT at which the host load, or the network attempt, started (R570). -/
  bootAt : Fix := 0
  bootLength : Word := 0
  loadArea : List Host.Cell := []
  /-- The crystal is in use and so TEMP_COMP carries its cubic (R571). -/
  crystal : Bool := true
  /-- A control-plane reset is asserted (R563), its 50 us have passed (R561), and the DT of its assertion. -/
  cpReset : Bool := false
  cpReleased : Bool := false
  cpAt : Fix := 0
  /-- Blocks held in block reset by target, those of them whose 10 us have passed, and the reports of the last resets (R566). -/
  blocks : List (BitVec 16) := []
  blocksReleased : List (BitVec 16) := []
  /-- DT of the assertion of each block reset. -/
  blocksAt : List (BitVec 16 × Fix) := []
  reports : List BlockReport := []
  /-- Kettle: warning in force, clocks stopped by a trip. -/
  warned : Bool := false
  tripped : Bool := false
  /-- DT of the warning, and since which every sensor has been below 105 degrees (R575). -/
  warnAt : Fix := 0
  coolAt : Option Fix := some 0
  /-- For each sensor: DT since which its reading has not changed, the readings of all sensors then, and DT since which it has
  been plausible (R573, R579). -/
  sameAt : Vector Fix 12 := Vector.replicate 12 0
  sameRef : Vector (Vector Word 12) 12 := Vector.replicate 12 (Vector.replicate 12 0)
  soundAt : Vector (Option Fix) 12 := Vector.replicate 12 (some 0)
  /-- Host classes of POWER_POLICY_SET are TilePolicy.ntcFault and TilePolicy.v3a.  The CRC of the committed image. -/
  imageCrc : Word := 0
deriving DecidableEq, Repr

/-! ### The module -/

/-- The whole module. -/
structure State where
  /-- Commands waiting, first in first out (the block's input). -/
  pending : List Instr := []
  /-- How many free values have been drawn (the model's own field). -/
  freeCtr : Nat := 0
  /-- Seed of the free steps of the generator until the next pour (R191; the model's own). -/
  genSeed : Nat := 0
  /-- DT: ns in [95:32], frac in [31:0] (R36). -/
  dt : Fix := 0
  events : Events := {}
  time : TimeUnit := {}
  compares : Vector CompareUnit 16 := Vector.replicate 16 {}
  pps : Vector PulseOut 8 := Vector.replicate 8 {}
  stage : Staging := {}
  ocp : Ocp := {}
  cyclic : Cyclic := {}
  link : Link := {}
  slots : Vector Slot 32 := Vector.replicate 32 {}
  axes : Vector Axis 112 := Vector.replicate 112 {}
  cams : Vector CamTable 16 := Vector.replicate 16 {}
  loops : Vector Loop 96 := Vector.replicate 96 {}
  traces : Vector Trace 4 := Vector.replicate 4 {}
  acq : Mem := []
  /-- Port memory of the clusters C0 to C3, by word address (R285). -/
  portMem : Vector Mem 4 := Vector.replicate 4 []
  engines : Vector Engine 32 := Vector.replicate 32 {}
  tiles : Vector Tile 16 := Vector.replicate 16 {}
  policy : TilePolicy := {}
  dcls : Vector DclGroup 4 := Vector.replicate 4 {}
  sdClks : Vector SdClk 8 := Vector.replicate 8 {}
  sds : Vector SdChannel 160 := Vector.replicate 160 {}
  encs : Vector Encoder 17 := Vector.replicate 17 {}
  geyser : Geyser := {}
  caldera : Caldera := {}
  fio : FieldIo := {}
  cans : Vector Can 4 := Vector.replicate 4 {}
  power : Power := {}
deriving DecidableEq, Repr

/-- The module right after reset: every field at the value the spec gives, else at the value log entry 1 names. -/
def State.reset : State :=
  { ocp := { ident := { bootsel := 7, clksel := 3 } }
    caldera := { selfTest := true }
    power := { regs := { bootSrc := 7, hostsel := true, clkSrc := 3 } } }

end Sys2Proof.Machine
end

