-- ==== Sys2Proof/Machine/Ops.lean ====
section
/-! DEFINITION. The shared operations over the state: places of the units, saturating counters, memories, free values,
the clock edge and the record of an event. -/

namespace Sys2Proof.Machine

/-! ### Units -/

/-- The vector with the entry i changed by f. -/
def upd {α : Type} {n : Nat} (v : Vector α n) (i : Fin n) (f : α → α) : Vector α n := v.set i (f v[i])

def modTile (t : Fin 16) (f : Tile → Tile) (s : State) : State := { s with tiles := upd s.tiles t f }
def modAxis (a : Fin 112) (f : Axis → Axis) (s : State) : State := { s with axes := upd s.axes a f }
def modLoop (i : Fin 96) (f : Loop → Loop) (s : State) : State := { s with loops := upd s.loops i f }
def modEngine (e : Fin 32) (f : Engine → Engine) (s : State) : State := { s with engines := upd s.engines e f }
def modSlot (i : Fin 32) (f : Slot → Slot) (s : State) : State := { s with slots := upd s.slots i f }
def modSession (i : Fin 80) (f : Session → Session) (s : State) : State :=
  { s with ocp := { s.ocp with sessions := upd s.ocp.sessions i f } }
def modPort (i : Fin 4) (f : Port → Port) (s : State) : State :=
  { s with link := { s.link with ports := upd s.link.ports i f } }
def modCompare (u : Fin 16) (f : CompareUnit → CompareUnit) (s : State) : State :=
  { s with compares := upd s.compares u f }
def modPps (n : Fin 8) (f : PulseOut → PulseOut) (s : State) : State := { s with pps := upd s.pps n f }
def modTrace (u : Fin 4) (f : Trace → Trace) (s : State) : State := { s with traces := upd s.traces u f }
def modCam (c : Fin 16) (f : CamTable → CamTable) (s : State) : State := { s with cams := upd s.cams c f }
def modDcl (g : Fin 4) (f : DclGroup → DclGroup) (s : State) : State := { s with dcls := upd s.dcls g f }
def modSd (c : Fin 160) (f : SdChannel → SdChannel) (s : State) : State := { s with sds := upd s.sds c f }
def modEnc (e : Fin 17) (f : Encoder → Encoder) (s : State) : State := { s with encs := upd s.encs e f }
def modCap (c : Fin 48) (f : CapInput → CapInput) (s : State) : State :=
  { s with geyser := { s.geyser with caps := upd s.geyser.caps c f } }
def modGu (u : Fin 8) (f : GeyserUnit → GeyserUnit) (s : State) : State :=
  { s with geyser := { s.geyser with units := upd s.geyser.units u f } }
def modFio (c : Fin 24) (f : FioChannel → FioChannel) (s : State) : State :=
  { s with fio := { s.fio with chans := upd s.fio.chans c f } }
def modCan (n : Fin 4) (f : Can → Can) (s : State) : State := { s with cans := upd s.cans n f }
def modPower (f : Power → Power) (s : State) : State := { s with power := f s.power }
def modCal (f : Caldera → Caldera) (s : State) : State := { s with caldera := f s.caldera }

/-- Step 5 of the bring-up has ended: the boot source that the straps name starts (R567, R570); without an image a later
one follows. -/
def bootStart (now : Fix) (p : Power) : Power :=
  { p with bootAt := now, boot := if p.bootSel = 5 then .hostLoad else if p.bootSel = 4 then .networkLoad else .boot }

/-- Tile t's axis has the tile's number. -/
def tileAxis (t : Fin 16) : Fin 112 := t.castLE (by decide)
/-- Axis 80 + i of master slot i. -/
def slotAxis (i : Fin 32) : Fin 112 := ⟨80 + i.val, by omega⟩
/-- The tile of a physical axis. -/
def axisTile (a : Fin 112) : Option (Fin 16) := if h : a.val < 16 then some ⟨a.val, h⟩ else none
/-- Loop 4a + l of the tile's axis (R241). -/
def tileLoop (t : Fin 16) (l : Fin 4) : Fin 96 := ⟨4 * t.val + l.val, by omega⟩
/-- The tile whose axis owns the loop; none for a free loop. -/
def loopTile (i : Fin 96) : Option (Fin 16) := if h : i.val < 64 then some ⟨i.val / 4, by omega⟩ else none
/-- The cluster of a tile or of the engines 8c to 8c + 7. -/
def tileCluster (t : Fin 16) : Fin 4 := ⟨t.val / 4, by omega⟩
def engineCluster (e : Fin 32) : Fin 4 := ⟨e.val / 8, by omega⟩
/-- Sigma-delta input k of the tile. -/
def tileSd (t : Fin 16) (k : Fin 10) : Fin 160 := ⟨10 * t.val + k.val, by omega⟩
def sdTile (c : Fin 160) : Fin 16 := ⟨c.val / 10, by omega⟩
/-- The encoder interface of a tile. -/
def tileEnc (t : Fin 16) : Fin 17 := t.castLE (by decide)

/-- A packet's target as a unit number below n. -/
def asFin (n : Nat) (x : Nat) : Option (Fin n) := if h : x < n then some ⟨x, h⟩ else none

/-! ### Numbers -/

/-- DT ns [63:0], [31:0], [63:32] and frac of a 64.32 value. -/
def nsOf (x : Fix) : BitVec 64 := x.extractLsb' 32 64
def nsLo (x : Fix) : Word := x.extractLsb' 32 32
def nsHi (x : Fix) : Word := x.extractLsb' 64 32
def fracOf (x : Fix) : Word := x.extractLsb' 0 32
/-- A 64.32 value of three words, frac first. -/
def fix3 (f lo hi : Word) : Fix := hi ++ lo ++ f
/-- A whole number of ns or counts as 64.32. -/
def fixNat (n : Nat) : Fix := BitVec.ofNat 96 (n * 2 ^ 32)
def fixInt (n : Int) : Fix := BitVec.ofInt 96 (n * 2 ^ 32)
/-- 64.32 from units of 2^-32. -/
def fixRaw (n : Int) : Fix := BitVec.ofInt 96 n
/-- HALF_NS of an instant (R615). -/
def halfNs (x : Fix) : Bool := x.getLsbD 31

/-- Least and greatest value clamp. -/
def clampInt (lo hi x : Int) : Int := if x < lo then lo else if hi < x then hi else x
/-- The nearest integer to n / d, ties away from zero, d > 0. -/
def roundDiv (n : Int) (d : Int) : Int :=
  if 0 ≤ n then (2 * n + d) / (2 * d) else -((2 * (-n) + d) / (2 * d))
/-- Signed 32-bit saturation. -/
def sat32 (x : Int) : Word := BitVec.ofInt 32 (clampInt (-2147483648) 2147483647 x)
def sat64 (x : Int) : BitVec 64 := BitVec.ofInt 64 (clampInt (-9223372036854775808) 9223372036854775807 x)

/-- A counter that saturates at all ones (R30). -/
def satInc {w : Nat} (c : BitVec w) : BitVec w := if c = BitVec.allOnes w then c else c + 1
def satAdd {w : Nat} (c : BitVec w) (n : Nat) : BitVec w :=
  if c.toNat + n < 2 ^ w then BitVec.ofNat w (c.toNat + n) else BitVec.allOnes w
/-- Counting once more would lose a count: the overflow flag is set. -/
def satFull {w : Nat} (c : BitVec w) : Bool := c = BitVec.allOnes w

/-- The integer square root, rounded down. -/
def isqrtAux : Nat → Nat → Nat → Nat
  | 0, _, r => r
  | k + 1, n, r => if (r + 2 ^ k) * (r + 2 ^ k) ≤ n then isqrtAux k n (r + 2 ^ k) else isqrtAux k n r
def isqrt (n : Nat) : Nat := isqrtAux 130 n 0

/-! ### Memories -/

/-- The byte at an address; an unlisted address reads 0 (log entry 3). -/
def memByte : Mem → Nat → BitVec 8
  | [], _ => 0
  | (k, v) :: m, a => if k = a then v else memByte m a

/-- The memory with one byte changed, in canonical form. -/
def memPut : Mem → Nat → BitVec 8 → Mem
  | [], a, v => if v = 0 then [] else [(a, v)]
  | (k, w) :: m, a, v =>
    if k < a then (k, w) :: memPut m a v
    else if k = a then (if v = 0 then m else (a, v) :: m)
    else if v = 0 then (k, w) :: m else (a, v) :: (k, w) :: m

/-- Canonical form: addresses strictly rising from lo on, no listed byte 0. -/
def memWfFrom : Nat → Mem → Bool
  | _, [] => true
  | lo, (k, v) :: m => decide (lo ≤ k) && decide (v ≠ 0) && memWfFrom (k + 1) m
def memWf (m : Mem) : Bool := memWfFrom 0 m

/-- The word at word address a, least significant byte first. -/
def memWord (m : Mem) (a : Nat) : Word :=
  memByte m (4 * a + 3) ++ memByte m (4 * a + 2) ++ memByte m (4 * a + 1) ++ memByte m (4 * a)
def memPutWord (m : Mem) (a : Nat) (v : Word) : Mem :=
  memPut (memPut (memPut (memPut m (4 * a) (v.extractLsb' 0 8)) (4 * a + 1) (v.extractLsb' 8 8))
    (4 * a + 2) (v.extractLsb' 16 8)) (4 * a + 3) (v.extractLsb' 24 8)
def memPutWords : Mem → Nat → List Word → Mem
  | m, _, [] => m
  | m, a, w :: ws => memPutWords (memPutWord m a w) (a + 1) ws
def memWords (m : Mem) (a n : Nat) : List Word := (List.range n).map fun i => memWord m (a + i)

/-- Word w of the area of tile t (R288). -/
def tileWord (t : Fin 16) (w : Nat) : Nat := 0x4000 + 0xC0 * (t.val % 4) + w
def portPut (c : Fin 4) (a : Nat) (v : Word) (s : State) : State :=
  { s with portMem := upd s.portMem c fun m => memPutWord m a v }
def portPuts (c : Fin 4) (a : Nat) (vs : List Word) (s : State) : State :=
  { s with portMem := upd s.portMem c fun m => memPutWords m a vs }
def tilePut (t : Fin 16) (w : Nat) (v : Word) (s : State) : State := portPut (tileCluster t) (tileWord t w) v s
def tilePuts (t : Fin 16) (w : Nat) (vs : List Word) (s : State) : State := portPuts (tileCluster t) (tileWord t w) vs s

/-! ### Free values -/

/-- The next free natural number. -/
def freeNow (s : State) : Nat := Config.freeNat s.freeCtr
/-- The state after a free value has been drawn. -/
def drawn (s : State) : State := { s with freeCtr := s.freeCtr + 1 }
/-- A free value in [lo, hi]; lo where the range is empty. -/
def freeIn (s : State) (lo hi : Int) : Int :=
  if lo ≤ hi then lo + (freeNow s : Int) % (hi - lo + 1) else lo
def freeBool (s : State) : Bool := freeNow s % 2 = 1
def freeWord (s : State) : Word := BitVec.ofNat 32 (freeNow s)
/-- n / d where exact; otherwise the integer below or above, which the spec leaves open. -/
def freeRound (s : State) (n d : Int) : Int :=
  if n % d = 0 then n / d else n / d + (freeNow s : Int) % 2
/-- freeRound with the free value of the given index. -/
def roundAt (k : Nat) (n d : Int) : Int := if n % d = 0 then n / d else n / d + (Config.freeNat k : Int) % 2
/-- n free values have been drawn. -/
def drew (n : Nat) (s : State) : State := { s with freeCtr := s.freeCtr + n }
/-- n free words, each from a further draw. -/
def freeWords : Nat → State → List Word × State
  | 0, s => ([], s)
  | n + 1, s => let (ws, s') := freeWords n (drawn s); (freeWord s :: ws, s')

/-! ### Time -/

/-- The controller-side clocks run: locked (R567 step 4) or untrimmed on the crystal (R568), and not stopped by a Kettle trip
(R576). -/
def clocksRun (s : State) : Bool :=
  !s.power.tripped && !(s.power.boot = .off || s.power.boot = .held || s.power.boot = .trim || s.power.boot = .clocks)
/-- One edge of the 400 MHz clock: DT goes on by 2.5 ns (R36, R37). -/
def clockEdge (s : State) : State := if clocksRun s then { s with dt := s.dt + 0x280000000 } else s
/-- So many ns have passed since t.  After a load of DT has put t into the future the time since then is not known, and counts
as passed (log entry 137). -/
def hasPassed (t : Fix) (ns : Nat) (s : State) : Bool :=
  decide (t.toNat + ns * 2 ^ 32 ≤ s.dt.toNat) || decide (s.dt.toNat < t.toNat)
/-- The axes that a ring's plan has this module publish (R124). -/
def ringAxes (rp : RingPlan) : List (Fin 112) := (((rp.slots[rp.pos.toNat]?).map (·.entries)).getD []).filterMap (·.axis)
def planAxes (p : Plan) : List (Fin 112) := ringAxes p.own ++ (p.child.map ringAxes).getD []
/-- Words of one fragment: with its CRC at most 512 bytes (R137). -/
def fragmentWords : Nat := 127
/-- A message over Uaxabel waits as fragments (R137). -/
def sendFragments (dest : BitVec 64) (kind : Fin 3) (ws : List Word) (s : State) : State :=
  { s with link := { s.link with outbox := s.link.outbox
    ++ (List.range ((ws.length + (fragmentWords - 1)) / fragmentWords)).map fun i =>
        { frag := { dest := dest, kind := kind, words := (ws.drop (i * fragmentWords)).take fragmentWords } } } }
/-- L in ns; 0 until the domain starts (R54, R68). -/
def pourLen (s : State) : Nat := s.stage.regs.pourLen.toNat
/-- The number of the pour cycle in progress (R55); 0 while L is not fixed. -/
def pourNum (s : State) : BitVec 64 :=
  if pourLen s = 0 then 0 else BitVec.ofNat 64 ((nsOf s.dt).toNat / pourLen s)
/-- DT of a pour point. -/
def pourAt (s : State) (p : Nat) : Fix := fixNat (p * pourLen s)
/-- The pour cycle as a 64.32 fraction of a second is L / 10^9: v counts per second move v * L / 10^9 per pour. -/
def nsSince (s : State) (t : Fix) : Int := (s.dt.toInt - t.toInt) / 2 ^ 32
/-- The first pour number whose staging cutoff, 5 us before the pour, has not passed at an instant (R59). -/
def pourFrom (t : Fix) (s : State) : Nat :=
  if pourLen s = 0 then 0 else
    let l := pourLen s * 2 ^ 32
    (t.toNat + 5000 * 2 ^ 32 + l - 1) / l
def nextPour (s : State) : Nat := pourFrom s.dt s
/-- How many pour points have passed: the number of the first that has not. -/
def pastPours (s : State) : Nat :=
  if pourLen s = 0 then 0 else (s.dt.toNat + pourLen s * 2 ^ 32 - 1) / (pourLen s * 2 ^ 32)

/-! ### Current ticks, and the addresses a stepper has applied (R244, R247, R391) -/

/-- The length of the current tick of tile t's axis in ns, as num / den: T_c, or LOCAL_DIV carrier periods. -/
def tickLen (s : State) (t : Fin 16) : Nat × Nat :=
  let r := s.loops[tileLoop t 2].regs
  let tl := s.tiles[t]
  if tl.regs.localField then (5 * tl.regs.periodClk.toNat * max 1 r.localDiv.toNat, 2) else (pourLen s, max 1 r.k.toNat)

/-- The address count that the sequencer has applied by now: evenly spaced from the previous target to the target over the
tick after the take. -/
def appliedCount (s : State) (t : Fin 16) : Word :=
  let v := s.tiles[t].sv
  let d := (v.target - v.prevTarget).toInt
  let (n, den) := tickLen s t
  let steps := if n = 0 then d.natAbs else min d.natAbs (d.natAbs * (s.dt.toNat - v.takeAt.toNat) * den / (n * 2 ^ 32))
  if 0 ≤ d then v.prevTarget + BitVec.ofNat 32 steps else v.prevTarget - BitVec.ofNat 32 steps
/-- The address in force: the count applied, offset, modulo 1,024; a re-reference moves the count and not the address (R205, log
entry 125). -/
def appliedAddr (s : State) (t : Fin 16) : BitVec 10 :=
  (appliedCount s t).truncate 10 + s.tiles[t].sv.regs.stepOffset - s.tiles[t].sv.moved

/-- The tile of cluster c in STEPPER2 whose word 0x8E, its applied address, lies at a port address (R407). -/
def stepperWord (s : State) (c : Fin 4) (a : Nat) : Option (Fin 16) :=
  let k := (a - 0x4000) / 0xC0
  if 0x4000 ≤ a && k < 4 && (a - 0x4000) % 0xC0 = 0x8E then
    match asFin 16 (4 * c.val + k) with
    | some t => if s.tiles[t].regs.mode = 2 then some t else none
    | none => none
  else none
/-- Port memory of a cluster, by word address (R285). -/
def portGet (s : State) (c : Fin 4) (a : Nat) : Word :=
  match stepperWord s c a with
  | some t => (appliedAddr s t).zeroExtend 32
  | none => memWord s.portMem[c] a
def tileGet (s : State) (t : Fin 16) (w : Nat) : Word := portGet s (tileCluster t) (tileWord t w)

/-- SD0 to SD2 of a SERVO3 tile with LEG_SHUNT run windowed, every other input free (R411). -/
def isWindowed (s : State) (c : Fin 160) : Bool :=
  let tl := s.tiles[sdTile c]
  c.val % 10 < 3 && tl.regs.mode = 1 && tl.foc.regs.sense

/-! ### Sources of events (R26) -/

def srcCaldera (core : Nat) : BitVec 16 := BitVec.ofNat 16 core
def srcTile (t : Fin 16) : BitVec 16 := BitVec.ofNat 16 (0x1000 + t.val)
def srcSd (c : Fin 160) : BitVec 16 := BitVec.ofNat 16 (0x2000 + c.val)
def srcEnc (e : Fin 17) : BitVec 16 := BitVec.ofNat 16 (0x2000 + 160 + e.val)
def srcCap (c : Fin 48) : BitVec 16 := BitVec.ofNat 16 (0x3000 + c.val)
def srcGu (u : Fin 8) : BitVec 16 := BitVec.ofNat 16 (0x3000 + 64 + u.val)
def srcCompare (u : Fin 16) : BitVec 16 := BitVec.ofNat 16 (0x4000 + u.val)
def srcPps (n : Fin 8) : BitVec 16 := BitVec.ofNat 16 (0x4000 + 16 + n.val)
def srcServo : BitVec 16 := 0x4020
def srcStaging : BitVec 16 := 0x4021
def srcPort (p : Fin 4) : BitVec 16 := BitVec.ofNat 16 (0x5000 + p.val)
def srcEngine (e : Fin 32) : BitVec 16 := BitVec.ofNat 16 (0x6000 + e.val)
def srcAxis (a : Fin 112) : BitVec 16 := BitVec.ofNat 16 (0x6000 + 64 + a.val)
def srcTrace (u : Fin 4) : BitVec 16 := BitVec.ofNat 16 (0x6000 + 176 + u.val)
def srcFio (c : Fin 24) : BitVec 16 := BitVec.ofNat 16 (0x7000 + c.val)
def srcFioGroup (g : Nat) : BitVec 16 := BitVec.ofNat 16 (0x7000 + 32 + g)
def srcCan (n : Fin 4) : BitVec 16 := BitVec.ofNat 16 (0x8000 + n.val)
def srcMgmt : BitVec 16 := 0x9000

/-- Class code of R89: 0 NOTE to 3 HALT. -/
def Cls.code : Cls → Nat
  | .note => 0 | .stop => 1 | .vent => 2 | .halt => 3
/-- The class a host-set value names (R23). -/
def clsOf (w : Word) : Cls :=
  if w = 1 then .stop else if w = 2 then .vent else if w = 3 then .halt else .note
/-- A class word in range and not below the minimum (R23). -/
def clsAllowed (min : Cls) (w : Word) : Bool := decide (min.code ≤ w.toNat) && decide (w.toNat ≤ 3)
/-- The stronger of two classes (R22). -/
def clsMax (a b : Cls) : Cls := if a.code < b.code then b else a

/-- Puts a record into the event fabric, without its reaction (R18, R20). -/
def record (e : EventRec) (s : State) : State :=
  { s with events := { s.events with fabric := s.events.fabric ++ [e] } }

/-- A record of class NOTE at this instant. -/
def note (code src : BitVec 16) (p0 p1 p2 : Word) (s : State) : State :=
  record { code := code, src := src, t := s.dt, p0 := p0, p1 := p1, p2 := p2 } s

end Sys2Proof.Machine
end

