-- ==== Sys2Proof/Machine/CanCore.lean ====
section
/-! DEFINITION. The place of a CAN controller in its time-triggered schedule, as DT gives it (R544). -/

namespace Sys2Proof.Machine

/-- The number of basic cycles since the origin, rounded down. -/
def canCycles (r : CanRegs) (dt : Fix) : Int := ((nsOf dt).toInt - r.ttOrigin.toInt) / (max 1 r.bcNs.toNat : Nat)
/-- Basic cycle k of the matrix at an instant. -/
def canCycle (r : CanRegs) (dt : Fix) : Nat := (canCycles r dt % (max 1 r.nbc.toNat : Nat)).toNat
/-- The next start of cycle 0 at or after an instant. -/
def nextCycle0 (r : CanRegs) (dt : Fix) : Fix :=
  let m : Int := (max 1 r.bcNs.toNat * max 1 r.nbc.toNat * 2 ^ 32 : Nat)
  let x := dt.toInt - r.ttOrigin.toInt * 2 ^ 32
  fixRaw (r.ttOrigin.toInt * 2 ^ 32 + (x + m - 1) / m * m)
/-- A load of DT stops a schedule that runs; one that waits for cycle 0 waits for it in the new DT. -/
def canDtLoad (dt : Fix) (c : Can) : Can :=
  if c.regs.ttRunning then { c with ttReload := some (nextCycle0 c.regs dt), ttWindow := false, regs := { c.regs with ttRunning := false } }
  else
    let next : Option Fix → Option Fix := Option.map fun _ => nextCycle0 c.regs dt
    { c with ttStart := next c.ttStart, ttReload := next c.ttReload }
/-- The controller as time has left it: a schedule whose start has come runs, and k is that of DT. -/
def canNow (s : State) (c : Can) : Can :=
  let due : Bool := (c.ttStart).any fun t => decide (t.toNat ≤ s.dt.toNat)
  let c := if due then { c with ttStart := none, regs := { c.regs with ttRunning := true } } else c
  { c with regs := { c.regs with cycleNow := BitVec.ofNat 5 (canCycle c.regs s.dt) } }

end Sys2Proof.Machine
end

