-- ==== Sys2Proof/Machine/Operands.lean ====
section
/-! DEFINITION. Operand forms: the parameter words of a packet, the unit a target names, the words of a packet and their
CRC-32C, and values in user units. -/

namespace Sys2Proof.Machine

/-! ### Parameter words (each item of a command table is one word where the table gives no other size, log entry 4) -/

def par (p : Packet) (i : Nat) : Word := p.params.getD i 0
def par64 (p : Packet) (i : Nat) : BitVec 64 := par p (i + 1) ++ par p i
/-- A 64.32 value: frac, low, high. -/
def par96 (p : Packet) (i : Nat) : Fix := fix3 (par p i) (par p (i + 1)) (par p (i + 2))
def parNat (p : Packet) (i : Nat) : Nat := (par p i).toNat
def parBool (p : Packet) (i : Nat) : Bool := par p i ≠ 0
/-- A parameter word taken into a field of w bits. -/
def parBits (p : Packet) (i w : Nat) : BitVec w := (par p i).truncate w
/-- The parameter lies in [lo, hi]. -/
def parIn (p : Packet) (i lo hi : Nat) : Bool := decide (lo ≤ parNat p i) && decide (parNat p i ≤ hi)
def tgt (p : Packet) : Nat := p.target.toNat

/-- The low and high words of a value. -/
def words64 (x : BitVec 64) : List Word := [x.extractLsb' 0 32, x.extractLsb' 32 32]
def words96 (x : Fix) : List Word := [x.extractLsb' 0 32, x.extractLsb' 32 32, x.extractLsb' 64 32]
def natWord (n : Nat) : Word := BitVec.ofNat 32 n
def boolWord (b : Bool) : Word := if b then 1 else 0

/-! ### CRC-32C (R76) -/

def crcBits : Nat → Word → Word
  | 0, c => c
  | n + 1, c => crcBits n (if c.getLsbD 0 then (c >>> 1) ^^^ 0x82F63B78 else c >>> 1)
def crcByte (c : Word) (b : BitVec 8) : Word := crcBits 8 (c ^^^ b.zeroExtend 32)
/-- The four bytes of a word, least significant first. -/
def wordBytes (w : Word) : List (BitVec 8) :=
  [w.extractLsb' 0 8, w.extractLsb' 8 8, w.extractLsb' 16 8, w.extractLsb' 24 8]
def crcBytes (bs : List (BitVec 8)) : Word := (bs.foldl crcByte 0xFFFFFFFF) ^^^ 0xFFFFFFFF
def crcWords (ws : List Word) : Word := crcBytes (ws.flatMap wordBytes)

/-! ### SHA-256 of the 8 bytes of a commissioning code (R136; the function as FIPS 180-4 gives it, PRESUMED, log entry 30) -/

def shaK : List Word :=
  [0x428a2f98, 0x71374491, 0xb5c0fbcf, 0xe9b5dba5, 0x3956c25b, 0x59f111f1, 0x923f82a4, 0xab1c5ed5]
  ++ [0xd807aa98, 0x12835b01, 0x243185be, 0x550c7dc3, 0x72be5d74, 0x80deb1fe, 0x9bdc06a7, 0xc19bf174]
  ++ [0xe49b69c1, 0xefbe4786, 0x0fc19dc6, 0x240ca1cc, 0x2de92c6f, 0x4a7484aa, 0x5cb0a9dc, 0x76f988da]
  ++ [0x983e5152, 0xa831c66d, 0xb00327c8, 0xbf597fc7, 0xc6e00bf3, 0xd5a79147, 0x06ca6351, 0x14292967]
  ++ [0x27b70a85, 0x2e1b2138, 0x4d2c6dfc, 0x53380d13, 0x650a7354, 0x766a0abb, 0x81c2c92e, 0x92722c85]
  ++ [0xa2bfe8a1, 0xa81a664b, 0xc24b8b70, 0xc76c51a3, 0xd192e819, 0xd6990624, 0xf40e3585, 0x106aa070]
  ++ [0x19a4c116, 0x1e376c08, 0x2748774c, 0x34b0bcb5, 0x391c0cb3, 0x4ed8aa4a, 0x5b9cca4f, 0x682e6ff3]
  ++ [0x748f82ee, 0x78a5636f, 0x84c87814, 0x8cc70208, 0x90befffa, 0xa4506ceb, 0xbef9a3f7, 0xc67178f2]
def shaInit : List Word :=
  [0x6a09e667, 0xbb67ae85, 0x3c6ef372, 0xa54ff53a, 0x510e527f, 0x9b05688c, 0x1f83d9ab, 0x5be0cd19]
def shaS (x : Word) (a b c : Nat) : Word := x.rotateRight a ^^^ x.rotateRight b ^^^ x.rotateRight c
def shaT (x : Word) (a b c : Nat) : Word := x.rotateRight a ^^^ x.rotateRight b ^^^ (x >>> c)
/-- The message schedule, the last word first. -/
def shaWords : Nat → List Word → List Word
  | 0, ws => ws
  | n + 1, ws => shaWords n
      ((shaT (ws.getD 1 0) 17 19 10 + ws.getD 6 0 + shaT (ws.getD 14 0) 7 18 3 + ws.getD 15 0) :: ws)
/-- One round on the working words a to h. -/
def shaRound (v : List Word) (kw : Word) : List Word :=
  let g (i : Nat) : Word := v.getD i 0
  let t1 := g 7 + shaS (g 4) 6 11 25 + ((g 4 &&& g 5) ^^^ (~~~ g 4 &&& g 6)) + kw
  let t2 := shaS (g 0) 2 13 22 + ((g 0 &&& g 1) ^^^ (g 0 &&& g 2) ^^^ (g 1 &&& g 2))
  [t1 + t2, g 0, g 1, g 2, g 3 + t1, g 4, g 5, g 6]
/-- SHA-256 of one block of 16 words that already carries its padding. -/
def shaBlock (ws : List Word) : List Word :=
  let w := (shaWords 48 ws.reverse).reverse
  (shaInit.zip ((shaK.zip w).foldl (fun v x => shaRound v (x.1 + x.2)) shaInit)).map fun x => x.1 + x.2
def shaJoin (ws : List Word) : BitVec 256 :=
  ws.foldl (fun (a : BitVec 256) w => (a <<< 32) ||| w.setWidth 256) 0
/-- The four bytes of a word, least significant first, as a big-endian word. -/
def byteSwap (w : Word) : Word := w.extractLsb' 0 8 ++ w.extractLsb' 8 8 ++ w.extractLsb' 16 8 ++ w.extractLsb' 24 8
/-- SHA-256 of a 64-bit code, its bytes least significant first. -/
def sha256Code (x : BitVec 64) : BitVec 256 :=
  shaJoin (shaBlock ([byteSwap (x.extractLsb' 0 32), byteSwap (x.extractLsb' 32 32), 0x80000000]
    ++ List.replicate 12 0 ++ [64]))

/-! ### Packets (R75, R83) -/

/-- Words of a packet without its CRC. -/
def packetBody (op : BitVec 16) (p : Packet) : List Word :=
  let len := p.params.length + (if p.pour.isSome then 6 else 4)
  ((p.version.zeroExtend 32 <<< 28) ||| bitAt' p.staged 24 ||| bitAt' p.priority 25 ||| bitAt' p.chained 26
      ||| (p.zeros.zeroExtend 32 <<< 16) ||| natWord len)
    :: p.seq :: (op ++ p.target) :: ((p.pour.elim [] words64) ++ p.params)
where
  bitAt' (b : Bool) (k : Nat) : Word := if b then (1 : Word) <<< k else 0

/-- Length of the packet in words, its CRC included. -/
def packetLen (p : Packet) : Nat := p.params.length + (if p.pour.isSome then 6 else 4)
def packetCrc (op : BitVec 16) (p : Packet) : Word := crcWords (packetBody op p)

/-- A reply: header, status, DT at execution, parameters and CRC (R83). -/
def replyWords (op : BitVec 16) (p : Packet) (st : BitVec 16) (ns : Word) (out : List Word) : List Word :=
  let flags := packetBody.bitAt' p.staged 24 ||| packetBody.bitAt' p.priority 25 ||| packetBody.bitAt' p.chained 26
  let body := (0x28000000 ||| flags ||| natWord (out.length + 5)) :: p.seq :: (op ++ st) :: ns :: out
  body ++ [crcWords body]

/-- The packet that words deliver, its CRC word last; none when the words are too few (R75). -/
def packetOf (session : Fin 80) (ws : List Word) : Option (BitVec 16 × Packet) :=
  match ws with
  | w0 :: w1 :: w2 :: rest =>
    let body := rest.dropLast
    let staged := w0.getLsbD 24
    let pour := match staged, body with
      | true, lo :: hi :: _ => some (hi ++ lo)
      | _, _ => none
    some (w2.extractLsb' 16 16,
      { session := session, version := w0.extractLsb' 28 4, staged := staged, priority := w0.getLsbD 25,
        chained := w0.getLsbD 26, zeros := w0.extractLsb' 16 8, seq := w1, target := w2.extractLsb' 0 16,
        pour := pour, params := if pour.isSome then body.drop 2 else body })
  | _ => none

/-! ### Event records (R89) -/

/-- The 8 words of a record. -/
def eventWords (e : EventRec) (idx : Word) (forwarded : Bool) : List Word :=
  [e.src ++ e.code, nsLo e.t, nsHi e.t,
   e.unc.zeroExtend 32 ||| bit' e.late 8 ||| bit' forwarded 9 ||| (natWord e.cls.code <<< 10)
     ||| (e.tdc.zeroExtend 32 <<< 12) ||| bit' (halfNs e.t) 18,
   idx, e.p0, e.p1, e.p2]
where
  bit' (b : Bool) (k : Nat) : Word := if b then (1 : Word) <<< k else 0
def logWords (r : LogRec) : List Word := eventWords r.ev r.idx false

/-! ### User units (R184) -/

/-- A value of the axis's user units in counts, exact and rounded to the nearest 2^-32, ties away from zero; none when it
does not fit 64.32. -/
def toCounts (ax : Axis) (u : Fix) : Option Fix :=
  let r := roundDiv (u.toInt * ax.regs.scaleNum.toInt) ax.regs.scaleDen.toNat
  if -(2 ^ 95) ≤ r ∧ r < 2 ^ 95 then some (fixRaw r) else none

/-- The magnitude of a converted value, for a limit (R190); none where it does not fit 64.32. -/
def toMagnitude (ax : Axis) (u : Fix) : Option Fix :=
  (toCounts ax u).bind fun c => if c.toInt = -2 ^ 95 then none else some (fixRaw (c.toInt.natAbs : Int))

/-- Counts back in user units, u = c × DEN ÷ NUM, rounded in the same way; none where that does not fit 64.32 (R184). -/
def toUser? (ax : Axis) (c : Fix) : Option Fix :=
  let n := ax.regs.scaleNum.toInt
  let x := c.toInt * ax.regs.scaleDen.toNat
  let r := if n < 0 then roundDiv (-x) (-n) else roundDiv x n
  if -(2 ^ 95) ≤ r ∧ r < 2 ^ 95 then some (fixRaw r) else none
/-- The words of counts in user units, one value after the other; none where one does not fit. -/
def userWords (ax : Axis) : List Fix → Option (List Word)
  | [] => some []
  | c :: rest => (toUser? ax c).bind fun u => (userWords ax rest).map fun ws => words96 u ++ ws

end Sys2Proof.Machine
end

