-- ==== Sys2Proof/Machine/FioCore.lean ====
section
/-! DEFINITION. The applied states of the field outputs, and the states that FAILSAFE imposes (R513, R517, R518 to R523). -/

namespace Sys2Proof.Machine

/-- Channel c lies in group g (R11). -/
def fioGroup (c : Fin 24) : Fin 3 := ⟨c.val / 8, by omega⟩
/-- Held off by FAILSAFE, a back-feed search, GROUP_OVERLOAD or a supply sag (R517, R520 to R523). -/
def fioForced (f : FieldIo) (c : Fin 24) : Bool :=
  let x := f.chans[c]
  x.failsafe = some false || x.searchOff || x.regs.backfeed || f.groups[fioGroup c].groupOverload || f.regs.undervolt || f.restoreOwed
/-- The applied state: the commanded one, or the one FAILSAFE holds, unless a rule forces it off (R513, R518). -/
def fioApplied (f : FieldIo) (c : Fin 24) : Bool :=
  let x := f.chans[c]
  x.regs.dir && x.failsafe.getD (f.sent.getLsbD c.val) && !fioForced f c && !x.regs.overload && !x.hot
/-- Applied states after a change at an instant. -/
def fioRefresh (now : Fix) (f : FieldIo) : FieldIo :=
  let chans := Vector.ofFn fun c =>
    let x := f.chans[c]
    { x with
      appliedAt := if x.regs.applied = fioApplied f c then x.appliedAt else now
      regs := { x.regs with applied := fioApplied f c, forcedOff := x.regs.dir && fioForced f c } }
  let on (g : Fin 3) : BitVec 8 := (List.finRange 8).foldl (fun (w : BitVec 8) k =>
    if (chans.getD (8 * g.val + k.val) {}).regs.applied then w ||| (1 <<< k.val) else w) 0
  { f with chans := chans, groups := Vector.ofFn fun g => { f.groups[g] with outputsOn := on g } }
/-- A condition of R517 begins for the output channels it names: OFF, or the state applied now. -/
def fioFailsafeOn (now : Fix) (sel : FioChannel → Bool) (f : FieldIo) : FieldIo :=
  fioRefresh now { f with
    chans := f.chans.map fun x =>
      if x.regs.dir && sel x then { x with failsafe := some (x.failsafe.getD (x.regs.failsafe && x.regs.applied)) } else x }
/-- A condition of R517 is in force on the channel. -/
def fioHeld (f : FieldIo) (x : FioChannel) : Bool := f.fsReset || f.fsLink || (f.fsHost && x.regs.cyclicEn)
/-- At a pour point the channels whose conditions have ended return to their commanded states. -/
def fioReturn (now : Fix) (f : FieldIo) : FieldIo :=
  fioRefresh now { f with
    chans := f.chans.map fun x => if fioHeld f x then x else { x with failsafe := none } }

end Sys2Proof.Machine
end

