-- ==== Sys2Proof/Machine/React.lean ====
section
/-! DEFINITION. What a fault does: stopping, venting and disabling an axis, the control-plane reset, and the raising of an
event with the reaction of its class (R22 to R25, R208, R209, R339, R563). -/

namespace Sys2Proof.Machine

/-! ### Tiles -/

/-- A bit at place k of a word. -/
def bitAt (b : Bool) (k : Nat) : Word := if b then (1 : Word) <<< k else 0

/-- Word 0x40 of the tile status group (R338). -/
def tileStatusWord (tl : Tile) : Word :=
  BitVec.zeroExtend 32 tl.regs.tileState ||| bitAt tl.regs.trip 3 ||| bitAt tl.pw.chopOn 4
    ||| bitAt tl.regs.chopperVented 5 ||| bitAt tl.regs.regenClamp 6 ||| bitAt tl.regs.loadPending 7
    ||| (BitVec.zeroExtend 32 tl.regs.hallState <<< 8) ||| bitAt tl.regs.sto 11

/-- Writes the tile status group (R338). -/
def writeTileStatus (t : Fin 16) (s : State) : State :=
  let tl := s.tiles[t]
  tilePuts t 0x40 [tileStatusWord tl, nsLo tl.pw.periodStart, BitVec.ofNat 32 (tl.pw.periodNow % 2 ^ 18),
    (BitVec.zeroExtend 32 tl.pw.tag <<< 16) ||| BitVec.zeroExtend 32 tl.pw.updates] s

/-- Field control as every exit of the tile from RUN leaves it (R387). -/
def focExit (f : Foc) : Foc :=
  { f with
    avg := [], predRun := 0, goodRun := 0, convSince := none, lostSince := none, retryAt := none, aligning := false
    zeroAt := none, blendAt := none, olVel := 0
    regs := { f.regs with startState := 0, obsConverged := false } }

/-- The start state that a tile in SERVO3 enters with RUN (R370, R375, R379): 7 for an encoder axis that knows its angle. -/
def focFirst (f : Foc) : BitVec 3 :=
  if f.regs.angleSrc then (if f.regs.flyEn then 1 else 3)
  else if f.regs.alignAtEnable && !f.regs.offsetValid then 4 else 7
/-- Field control as it enters RUN. -/
def focEnter (f : Foc) : Foc :=
  let al := focFirst f = 4
  { f with
    aligning := al
    regs := { f.regs with
      startState := focFirst f, startCount := if al then satInc f.regs.startCount else f.regs.startCount
      cntOvf := f.regs.cntOvf || (al && satFull f.regs.startCount) } }

/-- A stepper's or valve's part as every exit of the tile from RUN leaves it: no offset, no switching (R396). -/
def svExit (v : Sv) : Sv :=
  { v with
    chop := v.chop.map fun c => { window := c.window, est := c.est, cycles := c.cycles }
    openSince := Vector.replicate 2 none
    regs := { v.regs with ofsA := 0, ofsB := 0, underdrive := 0 } }

/-- The tile enters a state; leaving RUN zeroes its carries (R331) and its first current tick is owed again (R322). -/
def setTileState (st : BitVec 3) (tl : Tile) : Tile :=
  if tl.regs.tileState = st then tl
  else if tl.regs.tileState = 2 then
    { tl with
      regs := { tl.regs with tileState := st, carry := Vector.replicate 4 0 }
      foc := focExit tl.foc
      sv := if st = 4 then { svExit tl.sv with chop := tl.sv.chop } else svExit tl.sv
      pw := { tl.pw with
        firstTick := false, chopOn := false, chopDue := none, legs := if st = 4 then tl.pw.legs else Vector.replicate 4 {} } }
  else
    -- a frozen tile that does not resume gives up the levels it held
    let ends := tl.regs.tileState = 4 && st ≠ 2
    { tl with
      regs := { tl.regs with tileState := st }
      pw := { tl.pw with firstTick := false, legs := if ends then Vector.replicate 4 {} else tl.pw.legs }
      sv := if ends then svExit tl.sv else tl.sv
      foc := if st = 2 && tl.regs.mode = 1 then focEnter tl.foc else tl.foc }

/-- The state of a configured tile that stops running: VENTED, FROZEN and UNCONFIGURED stay (R321). -/
def tileOff (tl : Tile) : Tile := if tl.regs.tileState = 2 then setTileState 1 tl else tl

/-- A tile leaves OFF for RUN at this update instant (R322). -/
def entersRun (s : State) (t : Fin 16) : Bool :=
  let tl := s.tiles[t]
  tl.regs.tileState = 1 && s.axes[tileAxis t].enabled && !tl.regs.sto && tl.pw.firstTick && tl.regs.mode ≠ 0

/-- The carrier of the tile runs: a local tile has none until it enters RUN (R327), a frozen one has stopped. -/
def carrierRuns (s : State) (t : Fin 16) : Bool :=
  let tl := s.tiles[t]
  if tl.regs.localField then tl.regs.tileState = 2 || entersRun s t
  else tl.regs.tileState ≠ 0 && tl.regs.tileState ≠ 4

/-- A vent cause is gone: with the last one the tile enters OFF; a tile that no configuration has given a MODE goes back to
UNCONFIGURED (R321, R339). -/
def unventTile (t : Fin 16) (k : Nat) (s : State) : State :=
  let tl := s.tiles[t]
  let cause := tl.regs.ventCause &&& ~~~(BitVec.ofNat 5 (2 ^ k))
  let st : BitVec 3 :=
    if tl.regs.tileState ≠ 3 || cause ≠ 0 then tl.regs.tileState
    else if tl.regs.mode = 0 && !s.ocp.ident.configCommitted then 0 else 1
  writeTileStatus t (modTile t (fun tl =>
    let tl := setTileState st tl
    { tl with regs := { tl.regs with ventCause := cause } }) s)

/-! ### Loops -/

/-- A loop goes OFF: its run-time state is zero and its supervisor inactive (R258). -/
def loopOff (l : Loop) : Loop :=
  { l with
    regs := { l.regs with loopMode := 3, supActive := false }
    clampHi := false, clampLo := false, satSince := none, satRaised := false
    supPred := 0, supLoad := 0, supRes := 0, supSince := none, prevOuter := 0, innerTick := 0
    modeNext := none, manStaged := false, bumpNext := false }

/-- All loops of the tile's axis go OFF. -/
def loopsOff (t : Fin 16) (s : State) : State :=
  ((modLoop (tileLoop t 0) loopOff s |> modLoop (tileLoop t 1) loopOff) |> modLoop (tileLoop t 2) loopOff)
    |> modLoop (tileLoop t 3) loopOff

/-! ### Class C operations, identification -/

/-- Ends the class C operations that a predicate names, each with OP_COMPLETE (R86). -/
def endOps (sel : PendingOp → Bool) (st : BitVec 16) (s : State) : State :=
  let gone := s.ocp.ops.filter sel
  let s := { s with ocp := { s.ocp with ops := s.ocp.ops.filter fun o => !sel o } }
  gone.foldl (fun s o => note Ev.opComplete srcMgmt (o.op ++ st) o.seq (BitVec.ofNat 32 o.session.val) s) s

/-- A motor identification runs on the axis (R381). -/
def identifying (s : State) (a : Fin 112) : Bool :=
  match axisTile a with
  | some t => s.tiles[t].foc.regs.identifying
  | none => false

/-- A running identification ends aborted (R381, R387). -/
def abortIdent (t : Fin 16) (s : State) : State :=
  if s.tiles[t].foc.regs.identifying then
    endOps (fun o => o.op = 0x0907 && o.target.toNat = t.val) Status.identAborted
      (modTile t (fun tl => { tl with foc := { tl.foc with
        regs := { tl.foc.regs with identifying := false }
        ident := { tl.foc.ident with
          identState := 7, identFailStep := (tl.foc.ident.identState - 1).truncate 3, idRunDt := nsLo s.dt } } }) s)
  else s

/-! ### Axes -/

/-- Ends a gear or cam stage: SOURCE returns to profile, LIMITER_LAG, the armed queue, rem and acc are cleared (R228). -/
def endFollow (ax : Axis) : Axis :=
  { ax with
    source := 0, lag := 0, queue := [], swap := none, camEnded := false, engDisp := 0, owed := 0, gearUnit := 0
    follow := { ax.follow with
      gearState := 0, camState := 0, chgPending := 0, swapPending := false, gearRem := 0, lossAcc := 0,
      engProgress := 0 } }

/-- POS_UNCERTAIN is set, with its event (R209). -/
def markUncertain (a : Fin 112) (s : State) : State :=
  if s.axes[a].uncertain then s
  else note Ev.posUncertainSet (srcAxis a) 0 0 0
    (modAxis a (fun ax => { ax with uncertain := true, regs := { ax.regs with uncertainSeen := true } }) s)

/-- A homing in progress ends failed (R207). -/
def failHoming (a : Fin 112) (cause : BitVec 8) (s : State) : State :=
  if s.axes[a].home.isSome then
    record { code := Ev.homingFailed, src := srcAxis a, t := s.dt, cls := .stop, p0 := BitVec.zeroExtend 32 cause }
      (modAxis a (fun ax => { ax with
        home := none, fault := true
        regs := { ax.regs with
          homePhase := 7, homeFailCause := cause, homeFailCount := satInc ax.regs.homeFailCount
          cntOvf := ax.regs.cntOvf || satFull ax.regs.homeFailCount } }) s)
  else s

/-- The tile runs a stepper (R388). -/
def isStepper (s : State) (a : Fin 112) : Bool :=
  match axisTile a with
  | some t => s.tiles[t].regs.mode = 2
  | none => false

/-- The axis's tile is vented. -/
def axisVented (s : State) (a : Fin 112) : Bool :=
  match axisTile a with
  | some t => s.tiles[t].regs.tileState = 3
  | none => false

/-- Caldera holds STO on the axis's tile. -/
def axisSto (s : State) (a : Fin 112) : Bool :=
  match axisTile a with
  | some t => s.tiles[t].regs.sto
  | none => false

/-- The axis is disabled: no motion is in progress, its tile leaves RUN, its loops go OFF (R258, R321); a stepper loses
its coil current and so its certainty (R209). -/
def disableAxis (a : Fin 112) (s : State) : State :=
  let was := s.axes[a].enabled
  let s := if was && isStepper s a then markUncertain a s else s
  let s := if was then failHoming a 4 s else s
  let s := modAxis a (fun ax => { (endFollow ax) with
    enabled := false, stopping := false, ramp := none, move := none, next := none, holdSince := none, restSince := none
    inPosition := false, slotStop := false, limitsDeferred := false
    regs := { ax.regs with spVel := 0, spAcc := 0 } }) s
  match axisTile a with
  | some t =>
    writeTileStatus t (loopsOff t (modTile t (fun tl =>
      let tl := tileOff tl
      { tl with
        sv := { tl.sv with
          frozen := false, measLeft := 0, settling := false, stallRun := 0, idleSince := none, idle := false
          regs := { tl.sv.regs with ditherOn := false, measState := if tl.sv.regs.measState = 1 then 0 else tl.sv.regs.measState } }
        foc := focExit tl.foc }) (abortIdent t s)))
  | none => s

/-- The tile vents for a cause, bit k of VENT_CAUSE (R339, R341); its axis is disabled and coasts (R25). -/
def ventTile (t : Fin 16) (k : Nat) (s : State) : State :=
  let a := tileAxis t
  let was := s.axes[a].stopping
  let s := disableAxis a s
  let s := modTile t (fun tl =>
    let tl := setTileState 3 tl
    { tl with
      regs := { tl.regs with ventCause := tl.regs.ventCause ||| BitVec.ofNat 5 (2 ^ k) }
      pw := { tl.pw with chopOn := false, chopDue := none } }) s
  let s := if was then modAxis a (fun ax => { ax with stopping := true }) s else s
  writeTileStatus t s

/-- A STOP of fault origin on an axis (R24, R25, R208, R209). -/
def stopAxis (a : Fin 112) (s : State) : State :=
  if axisVented s a then modAxis a (fun ax => { ax with stopping := true }) s
  else if !s.axes[a].enabled then s
  else
    let s := failHoming a 4 s
    let s := match axisTile a with
      | some t => abortIdent t s
      | none => s
    if isStepper s a then
      let s := if s.axes[a].regs.spVel ≠ 0 then markUncertain a s else s
      let s := modAxis a (fun ax => { (endFollow ax) with
        stopping := true, move := none, next := none, ramp := none, holdSince := some s.dt }) s
      match axisTile a with
      | some t => modTile t (fun tl => { tl with sv := { tl.sv with frozen := true } }) s
      | none => s
    else
      modAxis a (fun ax => { ax with
        stopping := true
        ramp := match ax.ramp with
          | some r => some { r with fault := true }
          | none => some { dec := ax.regs.decStop, j := ax.regs.jStop, fault := true, disable := false } }) s

/-- A VENT on an axis: its tile vents; an axis with no tile is disabled (log entry 6). -/
def ventAxis (a : Fin 112) (s : State) : State :=
  match axisTile a with
  | some t => ventTile t 1 s
  | none => disableAxis a s

/-- FAULT is latched, with the code among the conditions in force where the condition must end by itself (R186, R188). -/
def latchFault (code : BitVec 16) (holds : Bool) (a : Fin 112) (s : State) : State :=
  modAxis a (fun ax => { ax with
    fault := true, conds := if holds && !ax.conds.contains code then code :: ax.conds else ax.conds }) s

/-- A condition is no longer in force on the axes. -/
def clearCond (code : BitVec 16) (axs : List (Fin 112)) (s : State) : State :=
  axs.foldl (fun s a => modAxis a (fun ax => { ax with conds := ax.conds.filter (· ≠ code) }) s) s

/-! ### The control-plane reset (R563) -/

/-- Opcodes whose class C operations belong to control-plane blocks: loop engines, field control and valves. -/
def isControlOp (o : PendingOp) : Bool := o.op.extractLsb' 8 8 = 0x07 || o.op.extractLsb' 8 8 = 0x09

/-- The slot goes back to ARMING (R34, R171). -/
def rearmSlot (sl : Slot) : Slot :=
  if sl.regs.slotState = 0 then sl
  else { sl with
    regs := { sl.regs with slotState := 1, unconfirmed := false, lateRun := 0 }
    armRun := 0, steeping := false, arrived := none, resteep := none, outcome := none, residual := 0, resume := false }

/-- A refused or discarded set on record (R68); a set that the module built has no commit whose number could stand there. -/
def refusedRegs (x : StagedSet) (st : BitVec 16) (r : StageRegs) : StageRegs :=
  { r with
    lastRefusedSeq := if x.session = 0xFFFF then r.lastRefusedSeq else x.seq
    lastRefusedCause := if x.session = 0xFFFF then r.lastRefusedCause else st, refuseCount := satInc r.refuseCount }
/-- Discards the pending sets that a predicate names; POUR_REFUSED follows after the reset (R63). -/
def discardSets (sel : StagedSet → Bool) (s : State) : State :=
  { s with stage := { s.stage with
    regs := (s.stage.sets.filter sel).foldl (fun r x => refusedRegs x Status.stageDiscardedReset r) s.stage.regs
    discarded := s.stage.discarded ++ (s.stage.sets.filter sel).map fun x => (x, s.dt)
    sets := s.stage.sets.filter fun x => !sel x } }

/-- An engine as a control-plane reset leaves it, halted until it is reloaded (R312, R563). -/
def resetEngine (en : Engine) : Engine :=
  { en with
    inTick := false, running := none, late := [], transfer := none, backTransfer := none, rep := 0, waiting := false
    main := {}, shadow := {}, ac0 := 0, ac1 := 0, lag0 := 0, lag1 := 0, pc := 0, backPc := 0
    ticks := en.ticks.map fun tk => { tk with pending := false } }

/-- An engine held in a reset does not run. -/
def holdEngine (en : Engine) : Engine :=
  { (resetEngine en) with load := none, deferred := [], regs := { en.regs with leState := 0 } }

/-- A trace unit as its reset leaves it: IDLE, its counts zero, with its configuration and its memory (R33, R561). -/
def resetTrace (tr : Trace) : Trace :=
  { tr with
    wrote := 0, sincePost := 0, dues := [], lostDue := none, evAt := none, cmpAt := none, force := false
    regs := { memBase := tr.regs.memBase, memSize := tr.regs.memSize, signalSel := tr.regs.signalSel } }

/-- An axis's control as a control-plane reset leaves it (R34, R563). -/
def zeroAxisControl (ax : Axis) : Axis :=
  { (endFollow ax) with
    follow := { (endFollow ax).follow with camPhase := 0, regState := 0 }
    move := none, next := none, ramp := none, holdSince := none, stopping := false }

/-- A control-plane reset is asserted: source (R582 CP_ERR_SOURCE) and address (R563). -/
def assertControlReset (src : BitVec 8) (addr : Word) (s : State) : State :=
  if s.power.cpReset then s
  else
    let pour := (pourNum s).truncate 32
    let s := record { code := Ev.controlReset, src := srcMgmt, t := s.dt, cls := .halt, p0 := pour,
                      p1 := BitVec.zeroExtend 32 src, p2 := addr } s
    let s := (List.finRange 16).foldl (fun s t => ventTile t 3 s) s
    let s := (List.finRange 112).foldl (fun s a => disableAxis a s) s
    let s := discardSets (fun _ => true) s
    let s := endOps isControlOp Status.controlResetEnded s
    { s with
      slots := s.slots.map rearmSlot
      axes := s.axes.map zeroAxisControl
      engines := s.engines.map holdEngine
      traces := s.traces.map resetTrace
      loops := s.loops.map loopOff
      fio := fioFailsafeOn s.dt (fun _ => true) { s.fio with fsReset := true }
      ocp := { s.ocp with ident := { s.ocp.ident with haltSeen := true } }
      power := { s.power with
        cpReset := true, cpReleased := false, cpAt := s.dt
        sources := s.power.sources ||| (if src = 7 then 0x20 else 0x10)
        reach := some (if s.power.reach = some .block then .control else s.power.reach.getD .control)
        regs := { s.power.regs with
          cpErrSource := src, cpErrAddr := addr, cpResetCount := satInc s.power.regs.cpResetCount
          cntOvf := s.power.regs.cntOvf || satFull s.power.regs.cpResetCount } } }

/-! ### Raising an event -/

/-- The reaction of a class on the axes the event affects (R24). -/
def react (cls : Cls) (code src : BitVec 16) (axs : List (Fin 112)) (s : State) : State :=
  match cls with
  | .note => s
  | .stop => axs.foldl (fun s a => stopAxis a s) s
  | .vent => axs.foldl (fun s a => ventAxis a s) s
  | .halt => assertControlReset 7 (src ++ code) s

/-- Raises an event on axes: its record enters the fabric, a class of STOP or above latches FAULT on each axis and acts
(R18, R22 to R25, R188).  The flag says that the condition stays in force until it ends by itself. -/
def raiseEv (e : EventRec) (holds : Bool) (axs : List (Fin 112)) (s : State) : State :=
  let s := record e s
  if e.cls = .note then s
  else react e.cls e.code e.src axs (axs.foldl (fun s a => latchFault e.code holds a s) s)

/-- Raises an event at this instant. -/
def raise (code src : BitVec 16) (cls : Cls) (holds : Bool) (p0 p1 p2 : Word) (axs : List (Fin 112)) (s : State) : State :=
  raiseEv { code := code, src := src, t := s.dt, cls := cls, p0 := p0, p1 := p1, p2 := p2 } holds axs s

/-- Every axis, every physical axis. -/
def allAxes : List (Fin 112) := List.finRange 112
def hostAxes : List (Fin 112) := (List.finRange 80).map fun a => a.castLE (by decide)

end Sys2Proof.Machine
end

