-- ==== Sys2Proof/Machine/Ocp.lean ====
section
/-! DEFINITION. How the module treats an OCP request: acceptance, chaining, the checks after acceptance, staging, and its one
reply (R71 to R87, R58, R59, R95, R96). -/

namespace Sys2Proof.Machine

/-- The Stageable column (R79). -/
inductive Stageable where
  | yes | no | mode
deriving DecidableEq, Repr

/-- What a target of a stageable command names, for R79, R80 and R59. -/
inductive TargetUnit where
  | tile (t : Fin 16)
  | dcl (g : Fin 4)
  | other
deriving DecidableEq, Repr

/-- Opcodes of the blocks of the control plane (R15, R561, R563): axes, gearing, loops, engines, tiles, field control,
feedback and Geyser's capture inputs. -/
def controlOp (op : BitVec 16) : Bool :=
  let g := (op.extractLsb' 8 8).toNat
  (4 ≤ g && g ≤ 10) || op = 0x0B01 || op = 0x0B02 || op = 0x0B03

/-- One row of a command table. -/
structure OpDesc where
  op : BitVec 16
  cls : ReplyClass
  stage : Stageable := .no
  /-- Marked priority-eligible by its chapter (R78). -/
  prio : Bool := false
  /-- Values of the target field that are valid. -/
  target : Nat → Bool
  /-- Numbers of parameter words that suit the opcode. -/
  params : Nat → Bool
  /-- The block of R566 that the target lies in, by its BLOCK_RESET target code. -/
  block : Nat → Option Nat := fun _ => none
  /-- The block belongs to the control plane (R563). -/
  control : Bool := controlOp op
  /-- Parameter bits that are reserved are all 0. -/
  reservedOk : Packet → Bool := fun _ => true

/-- The target 0xFFFF, the module. -/
def tModule (n : Nat) : Bool := n = 0xFFFF
def tBelow (k : Nat) (n : Nat) : Bool := n < k
def tBetween (lo hi : Nat) (n : Nat) : Bool := lo ≤ n && n ≤ hi

/-- Outcome of a command: status, reply parameters, state. -/
structure Reply where
  st : BitVec 16
  out : List Word := []
  s : State

/-- Answers a status and leaves the state. -/
def answer (st : BitVec 16) (s : State) : Reply := { st := st, s := s }
/-- Answers OK with parameters. -/
def okWith (out : List Word) (s : State) : Reply := { st := Status.ok, out := out, s := s }
/-- Answers OK in a new state. -/
def ok (s : State) : Reply := { st := Status.ok, s := s }

/-! ### Targets of local-mode tiles (R80) -/

/-- The unit that the target of a stageable opcode names. -/
def targetUnit (op : BitVec 16) (target : Nat) : TargetUnit :=
  let tileOr (n : Nat) : TargetUnit := if h : n < 16 then .tile ⟨n, h⟩ else .other
  match (op.extractLsb' 8 8).toNat with
  | 0x04 | 0x05 => tileOr target
  | 0x06 =>
    if op = 0x0604 || op = 0x0605 || op = 0x0606 then (if target < 64 then tileOr (target / 4) else .other)
    else if op = 0x0609 then .other else tileOr target
  | 0x08 => if op = 0x0810 || op = 0x0812 then (if h : target < 4 then .dcl ⟨target, h⟩ else .other) else tileOr target
  | 0x09 => tileOr target
  | 0x0A =>
    if op = 0x0A01 then .other else if op = 0x0A02 then tileOr (target / 10) else tileOr target
  | 0x0F => tileOr target
  | _ => .other

/-- Member tiles of a DC-link group. -/
def dclMembers (s : State) (g : Fin 4) : List (Fin 16) :=
  (List.finRange 16).filter fun t => s.tiles[t].regs.dclMember && s.tiles[t].regs.dcl.toNat = g.val

/-- The local-mode tile whose load queue takes an unstaged setting of the unit; none for a synchronised target. -/
def unitLocal (s : State) : TargetUnit → Option (Fin 16)
  | .tile t => if s.tiles[t].regs.localField then some t else none
  | .dcl g =>
    match dclMembers s g with
    | [] => none
    | t :: ts => if (t :: ts).all fun u => s.tiles[u].regs.localField then some t else none
  | .other => none

/-! ### The history of a session (R78, R81 to R84) -/

/-- The opcodes of class A and of class C; every other opcode of the tables is of class B (R85). -/
def classAOps : List (BitVec 16) :=
  [0x0101, 0x0103, 0x0104, 0x0107, 0x0108, 0x0201, 0x0202, 0x020A, 0x0301, 0x0303, 0x0304, 0x040E, 0x040F, 0x0443, 0x0507]
  ++ [0x0513, 0x0523, 0x060A, 0x0614, 0x0704, 0x0708, 0x0807, 0x0811, 0x0908, 0x0909, 0x091A, 0x0A09, 0x0A0A, 0x0B02]
  ++ [0x0B03, 0x0B17, 0x0B18, 0x0C01, 0x0C02, 0x0C03, 0x0C04, 0x0D06, 0x0E05, 0x0E0E, 0x0F01, 0x0F03, 0x0F08, 0x0F0B]
  ++ [0x1004]
def classCOps : List (BitVec 16) := [0x0112, 0x0115, 0x0306, 0x0307, 0x0703, 0x0907, 0x0F02, 0x0F05]
def opClass (op : BitVec 16) : ReplyClass :=
  if classAOps.contains op then .a else if classCOps.contains op then .c else .b
/-- The opcode of the innermost packet that a TUNNEL carries. -/
def innerOp : Nat → BitVec 16 → List Word → BitVec 16
  | 0, op, _ => op
  | n + 1, op, ws => if op = 0x0120 then innerOp n ((ws.getD 4 0).extractLsb' 16 16) (ws.drop 5) else op
/-- The class that orders and bounds a packet: a TUNNEL has that of its inner packet (R85, R92). -/
def packetClass (op : BitVec 16) (p : Packet) : ReplyClass := opClass (innerOp 200 op p.params)

/-- f at the oldest of the entries that are mine; the list has the newest first. -/
def onOldest {α : Type} (mine : α → Bool) (f : α → α) : List α → List α
  | [] => []
  | h :: l => if mine h && !l.any mine then f h :: l else h :: onOldest mine f l

/-- The entry of this packet that still awaits its reply, the oldest of equal ones. -/
def awaits (seq crc : Word) (h : HistEntry) : Bool := h.seq = seq && h.crc = crc && h.reply.isNone
def entryOf (op : BitVec 16) (p : Packet) (s : State) : Option HistEntry :=
  (s.ocp.sessions[p.session].hist.filter (awaits p.seq (packetCrc op p))).getLast?
/-- DT of the packet's acceptance; the present where it is accepted now. -/
def acceptedAt (op : BitVec 16) (p : Packet) (s : State) : Fix := ((entryOf op p s).map (·.acceptedAt)).getD s.dt
/-- The packet begins to execute; its reply comes later (R92, R552). -/
def beginPacket (op : BitVec 16) (p : Packet) (s : State) : State :=
  modSession p.session (fun x => { x with
    hist := onOldest (fun h => awaits p.seq (packetCrc op p) h && !h.begun) (fun h => { h with begun := true }) x.hist }) s

/-! ### Counters of a session (R101) -/

/-- The counters of a session. -/
inductive SessCount where
  | crcErr | discard | creditViol | dup | undelivered | streamDrop
deriving DecidableEq, Repr
def SessCount.get (c : SessCount) (r : SessionRegs) : Word :=
  match c with
  | .crcErr => r.crcErrCount | .discard => r.discardCount | .creditViol => r.creditViolCount
  | .dup => r.dupCount | .undelivered => r.replyUndelivered | .streamDrop => r.streamDropCount
def SessCount.put (c : SessCount) (v : Word) (r : SessionRegs) : SessionRegs :=
  match c with
  | .crcErr => { r with crcErrCount := v } | .discard => { r with discardCount := v }
  | .creditViol => { r with creditViolCount := v } | .dup => { r with dupCount := v }
  | .undelivered => { r with replyUndelivered := v } | .streamDrop => { r with streamDropCount := v }
/-- A counter of a session counts n more; a counter that saturates sets CNT_OVF of the block (R30, R101). -/
def countSession (c : SessCount) (n : Nat) (i : Fin 80) (s : State) : State :=
  let v := c.get s.ocp.sessions[i].regs
  let s := modSession i (fun x => { x with regs := c.put (satAdd v n) x.regs }) s
  if 2 ^ 32 ≤ v.toNat + n then { s with ocp := { s.ocp with ident := { s.ocp.ident with cntOvf := true } } } else s

/-! ### Replies and their delivery (R71, R72, R83, R84) -/

/-- Whether the transport takes a reply at once: PCIe while a reply slot is free, SPI never, the others always.  DESIGN CHOICE:
the spec does not say what RINGS_ENABLE = 0 does to replies; they are written to the reply ring all the same (log entry 112). -/
def takesReply (s : State) (i : Fin 80) : Bool :=
  if i = 0 then s.ocp.rspUsed < s.ocp.ident.rspRingSize.toNat else i ≠ 1

/-- A reply or push leaves the module on a session; on a tunnel session it goes to the session's module over Uaxabel (R92). -/
def transmit (i : Fin 80) (ws : List Word) (s : State) : State :=
  let s := if 16 ≤ i.val then sendFragments s.ocp.sessions[i].origin 0 ws s else s
  { s with ocp := { s.ocp with sent := (i, ws) :: s.ocp.sent } }

/-- The credit of an accepted packet comes back. -/
def freeCredit (i : Fin 80) (s : State) : State :=
  modSession i (fun x => { x with regs := { x.regs with
    creditsInUse := if x.regs.creditsInUse = 0 then 0 else x.regs.creditsInUse - 1 } }) s

/-- Delivers one reply on its session; where the transport cannot take it now, it waits in the module. -/
def deliver (i : Fin 80) (ws : List Word) (s : State) : State :=
  if takesReply s i && s.ocp.sessions[i].out.isEmpty then
    let s := freeCredit i (transmit i ws s)
    if i = 0 then
      { s with ocp := { s.ocp with rspUsed := s.ocp.rspUsed + 1,
                                   rspProd := (s.ocp.rspProd + 1) % s.ocp.ident.rspRingSize.toNat } }
    else s
  else modSession i (fun x => { x with out := x.out ++ [(.reply, ws)] }) s

/-- Produces the reply of an accepted packet: it enters the history, is delivered once and once more for each duplicate
that waited for it (R82, R83); a reply owed to a session that ended is discarded and counted (R84). -/
def produceReply (i : Fin 80) (seq crc : Word) (ws : List Word) (s : State) : State :=
  let mine (e : HistEntry) : Bool := awaits seq crc e
  match (s.ocp.sessions[i].hist.filter mine).getLast? with
  | none => s
  | some h =>
    let s := modSession i (fun x => { x with
      hist := onOldest mine (fun e => { e with reply := some ws, copies := 0 }) x.hist }) s
    if h.orphan then countSession .undelivered (h.copies + 1) i s
    else (List.replicate (h.copies + 1) ws).foldl (fun s ws => deliver i ws s) s

/-- The packet that comes before a chained one in its session: the same session's packet with the sequence number one less,
other than one answered SEQUENCE_REUSED (R78, R82). -/
def predecessor (l : List HistEntry) (orphan : Bool) (seq : Word) : Option HistEntry :=
  l.find? fun h => h.orphan = orphan && h.seq = seq - 1
    && !(h.reply.any fun ws => (ws.getD 2 0).extractLsb' 0 16 = Status.sequenceReused)

/-- A session ends or is reset (R84): its transaction, history and subscription go, replies waiting or owed are discarded
and told once, and its credits are free.  Packets accepted and not yet executed still execute, after the predecessors that
they are chained to; SESSION_RESET drops those whose wait for a predecessor it clears (R91).  DESIGN CHOICE: the push
subscription and the records that wait to be pushed end with the session (log entry 113). -/
def endSession (drop : Bool) (i : Fin 80) (s : State) : State :=
  let ses := s.ocp.sessions[i]
  let waiting := (ses.out.filter fun x => x.1 ≠ .push).length
  let owed := ses.hist.filter fun h => h.reply.isNone && !h.orphan
  let chained := owed.filter fun h => drop && h.chained && !h.begun
    && !((predecessor ses.hist false h.seq).any fun q => q.reply.isSome)
  let keep := ses.hist.filter fun h => h.orphan || (owed.contains h && !chained.contains h)
    || (h.reply.isSome && owed.any fun q => q.chained && h.seq = q.seq - 1 && !chained.contains q)
  let n := waiting + (owed.map fun h => h.copies + 1).foldl (· + ·) 0
  let gone := waiting + (chained.map fun h => h.copies + 1).foldl (· + ·) 0
  let s := countSession .undelivered gone i (modSession i (fun x => { x with
    txn := none, sub := none, pushQ := [], out := []
    hist := keep.map fun h => { h with orphan := true }
    regs := { x.regs with creditsInUse := 0 } }) s)
  if 0 < n then note Ev.replyUndelivered srcMgmt (natWord n) (natWord i.val) 0 s else s

/-! ### Acceptance (R71, R77, R82) -/

/-- How an arriving packet stands in its session's history. -/
inductive Arrival where
  /-- Accepted before and not yet executed: it executes now. -/
  | waiting
  /-- Accepted before and executing, its reply still to come: a duplicate whose copy goes with the reply. -/
  | running
  /-- New. -/
  | fresh
  /-- Accepted and answered before: a copy of its reply. -/
  | duplicate (reply : List Word)
  /-- Its sequence number belongs to another packet. -/
  | reused
deriving DecidableEq, Repr

/-- Packets of a session that has ended count only while they have not executed (R84). -/
def arrival (ses : Session) (seq crc : Word) : Arrival :=
  let live := ses.hist.filter fun h => !h.orphan
  if ses.hist.any (fun h => awaits seq crc h && !h.begun) then .waiting
  else if live.any (awaits seq crc) then .running
  else match (live.find? (fun h => h.seq = seq && h.crc = crc)).bind (·.reply) with
    | some ws => .duplicate ws
    | none => if live.any (fun h => h.seq = seq) then .reused else .fresh

/-- Discards a packet without a reply, at most one event a millisecond (R77). -/
def discardPacket (i : Fin 80) (c : SessCount) (s : State) : State :=
  let s := countSession c 1 i (modSession i (fun x => { x with discards := x.discards + 1 }) s)
  let ses := s.ocp.sessions[i]
  let due : Bool := (ses.discardAt).all fun t => decide (t.toNat + 1000000 * 2 ^ 32 ≤ s.dt.toNat)
  if due then
    modSession i (fun x => { x with discards := 0, discardAt := some s.dt })
      (note Ev.ocpPacketDiscarded srcMgmt (natWord ses.discards) (natWord i.val) 0 s)
  else s

/-- The last 64 accepted packets of the session, the older ones still owed a reply, and those of a session that ended while
a packet chained to them waits (R82 to R84). -/
def keepHist (l : List HistEntry) : List HistEntry :=
  let last := (l.filter fun h => !h.orphan).take 64
  l.filter fun h => last.contains h || h.reply.isNone
    || (h.orphan && l.any fun q => q.orphan && q.chained && q.reply.isNone && h.seq = q.seq - 1)

/-- Takes a new packet: one credit and a place in the history of the last 64 (R71, R82). -/
def acceptPacket (op : BitVec 16) (p : Packet) (crc : Word) (made : Option (BitVec 16 × Packet)) (s : State) : State :=
  modSession p.session (fun x => { x with
    hist := keepHist ({ seq := p.seq, crc := crc, op := op, acceptedAt := s.dt, chained := p.chained, prio := p.priority
                        cls := packetClass op p, p := some p, made := made } :: x.hist)
    inUse := true, lastSeen := s.dt
    regs := { x.regs with creditsInUse := x.regs.creditsInUse + 1 } }) s

/-- A packet whose sequence number belongs to another: accepted, not executed, and answered so (R82). -/
def answerReused (op : BitVec 16) (p : Packet) (s : State) : State :=
  produceReply p.session p.seq (packetCrc op p) (replyWords op p Status.sequenceReused (nsLo s.dt) [])
    (acceptPacket op p (packetCrc op p) none s)

/-- A duplicate of an answered packet: a copy of the stored reply (R82). -/
def copyReply (i : Fin 80) (ws : List Word) (s : State) : State :=
  deliver i ws (countSession .dup 1 i (modSession i (fun x => { x with
    lastSeen := s.dt, regs := { x.regs with creditsInUse := x.regs.creditsInUse + 1 } }) s))

/-- The status word of a reply. -/
def replyStatus (ws : List Word) : BitVec 16 := (ws.getD 2 0).extractLsb' 0 16

/-- How a chained packet stands to its predecessor (R78). -/
inductive Chain where
  | go | wait | broken
deriving DecidableEq, Repr

/-- How a packet with this history stands to the packet it is chained to (R78). -/
def chainState (l : List HistEntry) (orphan chained : Bool) (seq : Word) : Chain :=
  if !chained then .go
  else match predecessor l orphan seq with
    | none => .wait
    | some h => match h.reply with
      | none => .wait
      | some ws =>
        let st := replyStatus ws
        if st = Status.ok || st = Status.acceptedStaged || st = Status.acceptedPending then .go else .broken

/-- The entry waits to execute and nothing but its turn holds it: one that waits for its predecessor holds nothing back. -/
def mayRun (l : List HistEntry) (h : HistEntry) : Bool :=
  h.reply.isNone && !h.begun && chainState l h.orphan h.chained h.seq ≠ .wait
/-- The entry's turn among the newer and the older ones: packets of one class in the order of their arrival, and priority
packets ahead of every other (R78, R81).  Class A packets do not wait for those of class B and C. -/
def turnOf (l newer older : List HistEntry) (e : HistEntry) : Bool :=
  let ahead (h : HistEntry) : Bool := mayRun l h && h.prio && !e.prio
  !newer.any ahead && !older.any fun h => ahead h || (mayRun l h && h.prio = e.prio && h.cls = e.cls)
/-- The turn of the oldest entry of this packet that waits to execute. -/
def hasTurn (l : List HistEntry) (seq crc : Word) : Bool := go [] l
where
  mine (h : HistEntry) : Bool := awaits seq crc h && !h.begun
  go (newer : List HistEntry) : List HistEntry → Bool
    | [] => true
    | h :: older => if mine h && !older.any mine then turnOf l newer older h else go (newer ++ [h]) older

/-! ### Checks after acceptance -/

/-- Only group 0x01 reads and the diagnostic opcodes are served (R568, R581). -/
def servedInDiag (d : OpDesc) : Bool :=
  (d.op.extractLsb' 8 8 = 0x01 && d.cls = .a) || d.op = 0x0106 || d.op = 0x0F01 || d.op = 0x0F08 || d.op = 0x0F06 || d.op = 0x0F0B

/-- TRIM_FAIL, diagnostic safe mode, or the boot ROM after every boot source failed (R568 to R570). -/
def diagOnly (s : State) : Bool := s.ocp.ident.trimFail || s.power.bootSel = 3 || s.power.boot ≠ .done

/-- The greatest length that a reply could have, judged from opcode and parameters: ECHO's, a TUNNEL's around its inner reply
of at most 1,019 words, and 1,005 words, VAULT_READ's, of any other (R92). -/
def greatestReply : Nat → BitVec 16 → List Word → Nat
  | 0, _, _ => 1024
  | n + 1, op, ps =>
    if op = 0x0107 then 5 + ps.length
    else if op = 0x0120 then 5 + min 1019 (greatestReply n ((ps.getD 4 0).extractLsb' 16 16) (ps.drop 5).dropLast)
    else 1005
/-- On a tunnel session, the reply could be longer than the 1,019 words that the outer reply carries (R92). -/
def replyTooLarge (op : BitVec 16) (p : Packet) : Bool := 16 ≤ p.session.val && 1019 < greatestReply 200 op p.params

/-- The checks common to every packet, in the order they are made; OK where all pass (R75 to R79, log entry 5). -/
def headerStatus (d : OpDesc) (p : Packet) (s : State) : BitVec 16 :=
  let lcl := (unitLocal s (targetUnit d.op (tgt p))).isSome
  if p.version ≠ 2 then Status.versionUnsupported
  else if p.zeros ≠ 0 then Status.reservedNonzero
  else if p.staged && p.pour.isNone then Status.paramCount
  else if !d.params p.params.length then Status.paramCount
  else if !d.reservedOk p then Status.reservedNonzero
  else if p.priority && !(d.cls = .a || d.prio) then Status.priorityNotAllowed
  else if d.stage = .no && p.staged then Status.notStageable
  else if !d.target (tgt p) then Status.badTarget
  else if d.stage ≠ .no && !lcl && !p.staged then Status.stagedRequired
  else if diagOnly s && !servedInDiag d then Status.diagnosticOnly
  else if s.ocp.ident.quarantined && p.staged then Status.quarantined
  else if d.control && s.power.cpReset then Status.blockInReset
  else if (match d.block (tgt p) with
    | some b => s.power.blocks.contains (BitVec.ofNat 16 b)
    | none => false) then Status.blockInReset
  else if replyTooLarge d.op p then Status.tunnelReplyTooLarge
  else if d.cls = .c && 8 ≤ s.ocp.ops.length then Status.busy
  else Status.ok

/-! ### Staged sets (R58, R59, R95, R96) -/

/-- Shadow space of a packet in bytes (R59). -/
def shadowBytes (p : Packet) : Nat := (4 * packetLen p + 31) / 32 * 32
def setBytes (cmds : List StagedCmd) : Nat := (cmds.map fun c => shadowBytes c.p).foldl (· + ·) 0
/-- Sets of the host that are pending, and their space. -/
def hostSets (s : State) : List StagedSet := s.stage.sets.filter fun x => x.session ≠ 0xFFFF
def shadowUsed (s : State) : Nat := ((hostSets s).map fun x => x.bytes).foldl (· + ·) 0

/-- The first pour that a commit accepted at an instant is in time for, and that is not past (R59). -/
def eligiblePour (t : Fix) (s : State) : Nat := max (pourFrom t s) (pastPours s)
/-- Pour number that a set with this target, committed at t, is assigned; 0 while L is not fixed and the target is 0 (log
entry 7). -/
def assignPour (t : Fix) (s : State) (target : BitVec 64) : BitVec 64 :=
  if target = 0 then BitVec.ofNat 64 (eligiblePour t s) else target

/-- Refusal of a commit accepted at t (R59) after the packets' own errors; OK where it stands. -/
def commitStatus (t : Fix) (cmds : List StagedCmd) (target : BitVec 64) (s : State) : BitVec 16 :=
  if target ≠ 0 && pourLen s ≠ 0 && target.toNat < eligiblePour t s then Status.stageTooLate
  else if target ≠ 0 && (pourNum s).toNat + 1048576 < target.toNat then Status.targetBeyondHorizon
  else if 16 ≤ (hostSets s).length || 65536 < shadowUsed s + setBytes cmds then Status.stageShadowFull
  else if cmds.any fun c => (unitLocal s (targetUnit c.op (tgt c.p))).isSome then Status.stageLocalTile
  else Status.ok

/-- Enters a committed set. -/
def pushSet (session : BitVec 16) (seq : Word) (target : BitVec 64) (cmds : List StagedCmd) (bytes : Nat) (s : State) : State :=
  { s with stage := { s.stage with
    sets := s.stage.sets ++ [{ session := session, seq := seq, target := target, cmds := cmds, bytes := bytes }] } }

/-- Commits packets as one set at the acceptance t of the packet that commits them: the assigned pour, or the refusal (R59,
R78). -/
def commitSet (session : Fin 80) (seq : Word) (t : Fix) (target : BitVec 64) (cmds : List StagedCmd) (s : State) : Reply :=
  let st := commitStatus t cmds target s
  if st = Status.ok then
    let pour := assignPour t s target
    { st := Status.acceptedStaged, out := words64 pour,
      s := pushSet (BitVec.ofNat 16 session.val) seq pour cmds (setBytes cmds) s }
  else answer st s

/-- A set that the module builds itself, for the first eligible pour (R16, R59). -/
def moduleSet (cmds : List StagedCmd) (s : State) : State :=
  pushSet 0xFFFF 0 (BitVec.ofNat 64 (nextPour s)) cmds 0 s

/-- Counts a staged packet in the open transaction; the first error stays (R95, R98). -/
def joinTxn (i : Fin 80) (st : BitVec 16) (cmd : StagedCmd) (s : State) : State :=
  modSession i (fun x => { x with txn := x.txn.map fun t => { t with
    cmds := if st = Status.acceptedStaged then t.cmds ++ [cmd] else t.cmds
    count := t.count + 1
    firstErr := if st = Status.acceptedStaged then t.firstErr else some (t.firstErr.getD st)
    last := s.dt } }) s

/-- A staged packet whose own checks answer st (OK where they pass): it joins the open transaction or forms a set, as the
packet q that its acceptance makes of it (R185). -/
def stagePacket (d : OpDesc) (st : BitVec 16) (p q : Packet) (s : State) : Reply :=
  match s.ocp.sessions[p.session].txn with
  | some t =>
    let st := if 256 ≤ t.count then Status.transactionTooLarge
      else if st ≠ Status.ok then st
      else if p.pour ≠ some 0 then Status.targetInTransaction
      else Status.acceptedStaged
    answer st (joinTxn p.session st { op := d.op, p := q } s)
  | none =>
    if st = Status.ok then
      commitSet p.session p.seq (acceptedAt d.op p s) (p.pour.getD 0) [{ op := d.op, p := q }] s
    else answer st s

/-- Refuses a packet with its error; one that carries STAGED while a transaction is open joins it with that error, or with
TRANSACTION_TOO_LARGE as the 257th and later (R95, R96). -/
def refusePacket (op : BitVec 16) (st : BitVec 16) (p : Packet) (s : State) : Reply :=
  match s.ocp.sessions[p.session].txn with
  | some t =>
    if p.staged then
      let st := if 256 ≤ t.count then Status.transactionTooLarge else st
      answer st (joinTxn p.session st { op := op, p := p } s)
    else answer st s
  | none => answer st s

/-! ### One request -/

/-- The DT that word 3 of a reply reports: that of acceptance for ACCEPTED_STAGED and ACCEPTED_PENDING, else the present, at
which the packet executes or is refused (R83). -/
def replyDt (op : BitVec 16) (p : Packet) (r : Reply) : Fix :=
  if r.st = Status.acceptedStaged || r.st = Status.acceptedPending then acceptedAt op p r.s else r.s.dt

/-- Replies to the packet. -/
def replyTo (d : OpDesc) (p : Packet) (r : Reply) : State :=
  produceReply p.session p.seq (packetCrc d.op p) (replyWords d.op p r.st (nsLo (replyDt d.op p r)) r.out) r.s

/-- Executes an accepted packet of an opcode that is not stageable and that nothing holds back. -/
def serve (d : OpDesc) (accept : Packet → State → BitVec 16) (run : Packet → State → Reply) (p : Packet) (s : State) : State :=
  let st := headerStatus d p s
  if st ≠ Status.ok then replyTo d p (refusePacket d.op st p s)
  else
    let st := accept p s
    if st ≠ Status.ok then replyTo d p (answer st s) else replyTo d p (run p s)

/-- A packet whose predecessor failed (R78). -/
def serveBroken (d : OpDesc) (p : Packet) (s : State) : State := replyTo d p (refusePacket d.op Status.chainBroken p s)

/-- An accepted packet runs in its turn, waits for its predecessor or its turn, or ends with CHAIN_BROKEN (R78, R81). -/
def runAccepted (d : OpDesc) (go : State → State) (p : Packet) (s : State) : State :=
  let l := s.ocp.sessions[p.session].hist
  if !hasTurn l p.seq (packetCrc d.op p) then s
  else match chainState l ((entryOf d.op p s).any (·.orphan)) p.chained p.seq with
    | .go => go s
    | .wait => s
    | .broken => serveBroken d p s

/-- A duplicate of a packet not yet answered: its copy goes with the reply (R82). -/
def waitCopy (i : Fin 80) (seq crc : Word) (s : State) : State :=
  countSession .dup 1 i (modSession i (fun x => { x with
    lastSeen := s.dt
    hist := onOldest (fun h => awaits seq crc h && !h.orphan) (fun h => { h with copies := h.copies + 1 }) x.hist
    regs := { x.regs with creditsInUse := x.regs.creditsInUse + 1 } }) s)

/-- A packet that finds all 32 credits taken (R71). -/
def creditViolation (i : Fin 80) (s : State) : State := discardPacket i .creditViol s
def creditsTaken (i : Fin 80) (s : State) : Bool := decide (32 ≤ s.ocp.sessions[i].regs.creditsInUse.toNat)

/-- OCP is served: the bring-up has ended or the boot ROM serves the host, and no Kettle trip has stopped the clocks (R567 to
R570, R576). -/
def served (s : State) : Bool := !s.power.tripped && (s.power.boot = .done || s.power.boot = .rom)

/-- A request of this opcode: the packet executes if its session has accepted it, is accepted and executes if it is new,
and is answered from the history if it is not (R71, R77, R78, R82). -/
def requestMade (d : OpDesc) (made : Option (BitVec 16 × Packet)) (go : State → State) (p : Packet) (s : State) : State :=
  let crc := packetCrc d.op p
  if !served s then s else
  match arrival s.ocp.sessions[p.session] p.seq crc with
  | .waiting => runAccepted d go p s
  | a =>
    if creditsTaken p.session s then creditViolation p.session s
    else match a with
      | .running => waitCopy p.session p.seq crc s
      | .duplicate ws => copyReply p.session ws s
      | .reused => answerReused d.op p s
      | _ => runAccepted d go p (acceptPacket d.op p crc made s)
def requestBy (d : OpDesc) (go : State → State) (p : Packet) (s : State) : State := requestMade d none go p s

/-- A request that executes with its checks and has its reply at once. -/
def request (d : OpDesc) (accept : Packet → State → BitVec 16) (run : Packet → State → Reply) (p : Packet) (s : State) : State :=
  requestBy d (serve d accept run p) p s

/-- Nothing to check at acceptance. -/
def acceptAny (_ : Packet) (_ : State) : BitVec 16 := Status.ok

/-- A class C operation starts (R86). -/
def startOp (op : BitVec 16) (p : Packet) (s : State) : Reply :=
  { st := Status.acceptedPending
    s := { s with ocp := { s.ocp with
      ops := s.ocp.ops ++ [{ op := op, seq := p.seq, session := p.session, target := p.target }] } } }

/-! ### Stageable commands (R59, R62, R79, R80) -/

/-- A stageable command: its checks at acceptance and at its pour, and its effect there. -/
structure StageOp where
  d : OpDesc
  accept : Packet → State → BitVec 16 := acceptAny
  /-- The packet as its acceptance leaves it: user units converted (R185). -/
  conv : Packet → State → Packet := fun p _ => p
  check : Packet → State → BitVec 16 := acceptAny
  apply : Packet → State → State
  /-- Unstaged on a local-mode tile: taken at the tile's LOAD_ALL take, else at the next position-loop tick (R80). -/
  atLoad : Bool := false

/-- What the acceptance of a stageable packet makes of it: the status of its own checks, and the packet converted with the
scale of that moment (R185). -/
def madeOf (o : StageOp) (p : Packet) (s : State) : BitVec 16 × Packet := (o.accept p s, o.conv p s)

/-- An unstaged packet to a local-mode target, q as its acceptance made it: checked now, queued for its instant (R80, R189);
while the tile does not run, it has no position-loop tick to wait for and acts at once (log entry 8). -/
def runLocal (o : StageOp) (p q : Packet) (s : State) : Reply :=
  match unitLocal s (targetUnit o.d.op (tgt p)) with
  | none => answer Status.stagedRequired s
  | some t =>
    let st := o.check q s
    if st ≠ Status.ok then answer st s
    else
      let cmd : StagedCmd := { op := o.d.op, p := q }
      if o.atLoad then ok (modTile t (fun tl => { tl with pw := { tl.pw with loadQ := tl.pw.loadQ ++ [cmd] } }) s)
      else if s.tiles[t].regs.tileState = 2 then
        ok (modTile t (fun tl => { tl with pw := { tl.pw with tickQ := tl.pw.tickQ ++ [cmd] } }) s)
      else ok (o.apply q s)

/-- Executes an accepted packet of a stageable opcode that nothing holds back. -/
def serveStage (o : StageOp) (p : Packet) (s : State) : State :=
  let m := ((entryOf o.d.op p s).bind (·.made)).getD (madeOf o p s)
  let st := headerStatus o.d p s
  let st := if st = Status.ok then m.1 else st
  if p.staged then replyTo o.d p (stagePacket o.d st p m.2 s)
  else if st ≠ Status.ok then replyTo o.d p (answer st s)
  else replyTo o.d p (runLocal o p m.2 s)

/-- A request of a stageable opcode. -/
def stageRequest (o : StageOp) (p : Packet) (s : State) : State := requestMade o.d (some (madeOf o p s)) (serveStage o p) p s

end Sys2Proof.Machine
end

