-- ==== Sys2Proof/Machine/RegWords.lean ====
section
/-! DEFINITION. The words of the register blocks as the window reads them, the clearing of W1C fields, and the fields that
a configuration image writes: one function of each kind per block of Regs.lean, by byte offset inside the block
(R99, R100 and the register tables). -/

namespace Sys2Proof.Machine

/-- A field of w bits at place lo of a word. -/
def fieldAt {w : Nat} (x : BitVec w) (lo : Nat) : Word := (x.setWidth 32) <<< lo
def flagAt (b : Bool) (lo : Nat) : Word := if b then (1 : Word) <<< lo else 0

/-- The words of a block (R67). -/
def readTimeRegs (r : TimeRegs) (off : Nat) : Word :=
  match off with
  | 0x010 => fieldAt r.state 0 ||| flagAt r.roleGm 2 ||| fieldAt r.source 4 ||| flagAt r.epochValid 8 ||| flagAt r.ptpLocked 9 ||| fieldAt r.upstreamPort 10
  | 0x014 => fieldAt r.rateAdj 0
  | 0x018 => fieldAt r.offset 0
  | 0x01C => fieldAt r.tempComp 0
  | 0x020 => r.epochTai.extractLsb' 0 32
  | 0x024 => r.epochTai.extractLsb' 32 32
  | 0x028 => fieldAt r.taiOffset 0
  | 0x030 => flagAt r.unlockSeen 0 ||| flagAt r.holdoverSeen 1 ||| flagAt r.rateClamped 2 ||| flagAt r.timeFaultSeen 3 ||| flagAt r.ptpLostSeen 4 ||| flagAt r.cntOvf 8
  | 0x034 => fieldAt r.unlockCount 0
  | 0x038 => fieldAt r.holdoverCount 0
  | _ => 0

/-- A write of v clears the W1C fields whose bits are 1. -/
def clearTimeRegs (r : TimeRegs) (off : Nat) (v : Word) : TimeRegs :=
  match off with
  | 0x030 => { r with unlockSeen := r.unlockSeen && !v.getLsbD 0, holdoverSeen := r.holdoverSeen && !v.getLsbD 1, rateClamped := r.rateClamped && !v.getLsbD 2, timeFaultSeen := r.timeFaultSeen && !v.getLsbD 3, ptpLostSeen := r.ptpLostSeen && !v.getLsbD 4, cntOvf := r.cntOvf && !v.getLsbD 8 }
  | _ => r

/-- The upper words that a read of a least significant word captures (R21). -/
def wideTimeRegs (off : Nat) : List Nat :=
  match off with
  | 0x020 => [0x024]
  | _ => []

/-- The words of a block (R67). -/
def readCompareRegs (r : CompareRegs) (off : Nat) : Word :=
  match off with
  | 0x100 => r.target.extractLsb' 0 32
  | 0x104 => r.target.extractLsb' 32 32
  | 0x108 => fieldAt r.cmpState 0 ||| flagAt r.fired 2
  | 0x10C => fieldAt r.fireCount 0 ||| fieldAt r.fireSkipCount 16
  | _ => 0

/-- A write of v clears the W1C fields whose bits are 1. -/
def clearCompareRegs (r : CompareRegs) (off : Nat) (v : Word) : CompareRegs :=
  match off with
  | 0x108 => { r with fired := r.fired && !v.getLsbD 2 }
  | _ => r

/-- The upper words that a read of a least significant word captures (R21). -/
def wideCompareRegs (off : Nat) : List Nat :=
  match off with
  | 0x100 => [0x104]
  | _ => []

/-- The words of a block (R67). -/
def readPpsRegs (r : PpsRegs) (off : Nat) : Word :=
  match off with
  | 0x200 => r.nextEdge.extractLsb' 0 32
  | 0x204 => r.nextEdge.extractLsb' 32 32
  | 0x208 => fieldAt r.ppsState 0
  | 0x20C => fieldAt r.edgeCount 0
  | _ => 0

/-- The upper words that a read of a least significant word captures (R21). -/
def widePpsRegs (off : Nat) : List Nat :=
  match off with
  | 0x200 => [0x204]
  | _ => []

/-- The words of a block (R68). -/
def readStageRegs (r : StageRegs) (off : Nat) : Word :=
  match off with
  | 0x008 => fieldAt r.pourLen 0
  | 0x00C => fieldAt r.pourExp 0 ||| fieldAt r.domainD 4
  | 0x014 => fieldAt r.lastSwapSeq 0
  | 0x018 => fieldAt r.lastRefusedSeq 0
  | 0x01C => fieldAt r.lastRefusedCause 0
  | 0x020 => fieldAt r.swapCount 0
  | 0x024 => fieldAt r.refuseCount 0
  | 0x028 => fieldAt r.imageSkipCount 0
  | _ => 0

/-- The words of a block (R101). -/
def readIdentRegs (r : IdentRegs) (off : Nat) : Word :=
  match off with
  | 0x000 => fieldAt r.partNumber 0
  | 0x004 => fieldAt r.stepping 0
  | 0x008 => r.moduleId.extractLsb' 0 32
  | 0x00C => r.moduleId.extractLsb' 32 32
  | 0x010 => fieldAt r.fwLevel 0
  | 0x014 => flagAt r.fwBank 0 ||| flagAt r.configCommitted 4 ||| flagAt r.quarantined 5 ||| flagAt r.trimFail 6
  | 0x018 => fieldAt r.bootsel 0 ||| fieldAt r.clksel 4
  | 0x024 => flagAt r.haltSeen 0 ||| flagAt r.cntOvf 8
  | 0x02C => fieldAt r.logOverwriteCount 0
  | 0x1000 => r.reqRingBase.extractLsb' 0 32
  | 0x1004 => r.reqRingBase.extractLsb' 32 32
  | 0x1008 => fieldAt r.reqRingSize 0
  | 0x100C => fieldAt r.reqDoorbell 0
  | 0x1010 => r.rspRingBase.extractLsb' 0 32
  | 0x1014 => r.rspRingBase.extractLsb' 32 32
  | 0x1018 => fieldAt r.rspRingSize 0
  | 0x101C => fieldAt r.rspDoorbell 0
  | 0x1020 => r.evtRingBase.extractLsb' 0 32
  | 0x1024 => r.evtRingBase.extractLsb' 32 32
  | 0x1028 => fieldAt r.evtRingSize 0
  | 0x102C => fieldAt r.evtDoorbell 0
  | 0x1030 => flagAt r.ringsEnable 0
  | _ => 0

/-- A write of v clears the W1C fields whose bits are 1. -/
def clearIdentRegs (r : IdentRegs) (off : Nat) (v : Word) : IdentRegs :=
  match off with
  | 0x024 => { r with haltSeen := r.haltSeen && !v.getLsbD 0, cntOvf := r.cntOvf && !v.getLsbD 8 }
  | _ => r

/-- The upper words that a read of a least significant word captures (R21). -/
def wideIdentRegs (off : Nat) : List Nat :=
  match off with
  | 0x008 => [0x00C]
  | 0x1000 => [0x1004]
  | 0x1010 => [0x1014]
  | 0x1020 => [0x1024]
  | _ => []

/-- The words of a block (R101). -/
def readSessionRegs (r : SessionRegs) (off : Nat) : Word :=
  match off with
  | 0x1100 => fieldAt r.crcErrCount 0
  | 0x1104 => fieldAt r.discardCount 0
  | 0x1108 => fieldAt r.creditViolCount 0
  | 0x110C => fieldAt r.dupCount 0
  | 0x1110 => fieldAt r.replyUndelivered 0
  | 0x1114 => fieldAt r.creditsInUse 0
  | 0x1118 => fieldAt r.streamDropCount 0
  | _ => 0

/-- The words of a block (R149). -/
def readPortRegs (r : PortRegs) (off : Nat) : Word :=
  match off with
  | 0x000 => fieldAt r.portState 0 ||| flagAt r.det 4 ||| flagAt r.los 5 ||| flagAt r.broken 6 ||| flagAt r.wrapping 7 ||| fieldAt r.ringRole 8 ||| flagAt r.medium 10
  | 0x004 => fieldAt r.linkDelay 0
  | 0x008 => fieldAt r.cableLen 0
  | 0x00C => fieldAt r.roundTrip 0
  | 0x010 => r.nbrId.extractLsb' 0 32
  | 0x014 => r.nbrId.extractLsb' 32 32
  | 0x028 => fieldAt r.txCredits 0 ||| fieldAt r.rxBusy 8
  | 0x02C => fieldAt r.codeViolCount 0
  | 0x030 => fieldAt r.slotCrcErrCount 0
  | 0x034 => fieldAt r.fragCrcErrCount 0
  | 0x038 => fieldAt r.creditRecoveredCount 0
  | 0x03C => fieldAt r.linkDownCount 0
  | 0x040 => flagAt r.linkDownSeen 0 ||| flagAt r.breakSeen 1 ||| flagAt r.delayStepSeen 2 ||| flagAt r.cntOvf 8
  | off =>
    if 0x18 ≤ off ∧ off < 0x28 ∧ (off - 0x18) % 4 = 0 then fieldAt (r.nbrCap.getD ((off - 0x18) / 4) 0) 0 else
    0

/-- A write of v clears the W1C fields whose bits are 1. -/
def clearPortRegs (r : PortRegs) (off : Nat) (v : Word) : PortRegs :=
  match off with
  | 0x040 => { r with linkDownSeen := r.linkDownSeen && !v.getLsbD 0, breakSeen := r.breakSeen && !v.getLsbD 1, delayStepSeen := r.delayStepSeen && !v.getLsbD 2, cntOvf := r.cntOvf && !v.getLsbD 8 }
  | _ => r

/-- The upper words that a read of a least significant word captures (R21). -/
def widePortRegs (off : Nat) : List Nat :=
  match off with
  | 0x010 => [0x014]
  | _ => []

/-- The words of a block (R150). -/
def readSegmentRegs (r : SegmentRegs) (off : Nat) : Word :=
  match off with
  | 0x000 => fieldAt r.segNum 0 ||| fieldAt r.ringPos 8 ||| fieldAt r.nModules 16 ||| flagAt r.segMaster 24 ||| flagAt r.bridge 25 ||| flagAt r.grandmaster 26
  | 0x004 => fieldAt r.ringState 0
  | 0x008 => fieldAt r.planCrc 0
  | 0x00C => r.masterId.extractLsb' 0 32
  | 0x010 => r.masterId.extractLsb' 32 32
  | 0x014 => fieldAt r.dMinIntact 0 ||| fieldAt r.dMinWrapped 4
  | 0x018 => fieldAt r.worstArrIntact 0
  | 0x01C => fieldAt r.worstArrWrapped 0
  | 0x020 => fieldAt r.bytesUsed 0
  | 0x024 => fieldAt r.wrapCount 0
  | 0x028 => fieldAt r.lateHopCount 0
  | 0x02C => fieldAt r.replayTakenCount 0
  | 0x030 => fieldAt r.fwdEventLost 0
  | 0x034 => flagAt r.cntOvf 8
  | _ => 0

/-- A write of v clears the W1C fields whose bits are 1. -/
def clearSegmentRegs (r : SegmentRegs) (off : Nat) (v : Word) : SegmentRegs :=
  match off with
  | 0x034 => { r with cntOvf := r.cntOvf && !v.getLsbD 8 }
  | _ => r

/-- The upper words that a read of a least significant word captures (R21). -/
def wideSegmentRegs (off : Nat) : List Nat :=
  match off with
  | 0x00C => [0x010]
  | _ => []

/-- The words of a block (R177). -/
def readSlotRegs (r : SlotRegs) (off : Nat) : Word :=
  match off with
  | 0x300 => fieldAt r.slotState 0 ||| flagAt r.unconfirmed 3 ||| flagAt r.masterStopping 4 ||| flagAt r.masterPosUncertain 5 ||| fieldAt r.lateRun 8
  | 0x304 => r.pubId.extractLsb' 0 32
  | 0x308 => r.pubId.extractLsb' 32 32
  | 0x30C => fieldAt r.entryIndex 0 ||| fieldAt r.order 8 ||| flagAt r.policy 12 ||| fieldAt r.nLate 16
  | 0x310 => fieldAt r.w 0
  | 0x314 => fieldAt r.tRide 0
  | 0x318 => fieldAt r.resumeLimit 0
  | 0x320 => r.confirmed.extractLsb' 0 32
  | 0x324 => r.confirmed.extractLsb' 32 32
  | 0x328 => r.corrected.extractLsb' 0 32
  | 0x32C => r.corrected.extractLsb' 32 32
  | 0x330 => r.resteeped.extractLsb' 0 32
  | 0x334 => r.resteeped.extractLsb' 32 32
  | 0x338 => r.overrun.extractLsb' 0 32
  | 0x33C => r.overrun.extractLsb' 32 32
  | 0x340 => r.lateReleased.extractLsb' 0 32
  | 0x344 => r.lateReleased.extractLsb' 32 32
  | 0x348 => r.held.extractLsb' 0 32
  | 0x34C => r.held.extractLsb' 32 32
  | 0x350 => r.armedPour.extractLsb' 0 32
  | 0x354 => r.armedPour.extractLsb' 32 32
  | 0x360 => r.laPour.extractLsb' 0 32
  | 0x364 => r.laPour.extractLsb' 32 32
  | 0x368 => r.laMaster.extractLsb' 0 32
  | 0x36C => r.laMaster.extractLsb' 32 32
  | 0x370 => r.laMaster.extractLsb' 64 32
  | 0x374 => fieldAt r.lastResidual 0
  | 0x378 => fieldAt r.lastArrivalLead 0
  | 0x37C => flagAt r.overrunSeen 0 ||| flagAt r.lateSeen 1 ||| flagAt r.lostSeen 2 ||| flagAt r.resumeRefusedSeen 3
  | _ => 0

/-- A write of v clears the W1C fields whose bits are 1. -/
def clearSlotRegs (r : SlotRegs) (off : Nat) (v : Word) : SlotRegs :=
  match off with
  | 0x37C => { r with overrunSeen := r.overrunSeen && !v.getLsbD 0, lateSeen := r.lateSeen && !v.getLsbD 1, lostSeen := r.lostSeen && !v.getLsbD 2, resumeRefusedSeen := r.resumeRefusedSeen && !v.getLsbD 3 }
  | _ => r

/-- The upper words that a read of a least significant word captures (R21). -/
def wideSlotRegs (off : Nat) : List Nat :=
  match off with
  | 0x304 => [0x308]
  | 0x320 => [0x324]
  | 0x328 => [0x32C]
  | 0x330 => [0x334]
  | 0x338 => [0x33C]
  | 0x340 => [0x344]
  | 0x348 => [0x34C]
  | 0x350 => [0x354]
  | 0x360 => [0x364]
  | 0x368 => [0x36C, 0x370]
  | _ => []

/-- A configuration image writes the settings of a word. -/
def loadSlotRegs (r : SlotRegs) (off : Nat) (v : Word) : SlotRegs :=
  match off with
  | 0x304 => { r with pubId := r.pubId.extractLsb' 32 32 ++ v }
  | 0x308 => { r with pubId := v ++ r.pubId.extractLsb' 0 32 }
  | 0x30C => { r with entryIndex := v.extractLsb' 0 4, order := v.extractLsb' 8 2, policy := v.getLsbD 12, nLate := v.extractLsb' 16 8 }
  | 0x310 => { r with w := v.extractLsb' 0 32 }
  | 0x314 => { r with tRide := v.extractLsb' 0 9 }
  | 0x318 => { r with resumeLimit := v.extractLsb' 0 31 }
  | _ => r

/-- The words of a block (R178). -/
def readStageSteepRegs (r : StageSteepRegs) (off : Nat) : Word :=
  match off with
  | 0x3C0 => r.laPour.extractLsb' 0 32
  | 0x3C4 => r.laPour.extractLsb' 32 32
  | 0x3C8 => r.laPos.extractLsb' 0 32
  | 0x3CC => r.laPos.extractLsb' 32 32
  | 0x3D0 => r.laPos.extractLsb' 64 32
  | 0x3D4 => flagAt r.laValid 0 ||| flagAt r.laPendingSet 1 ||| flagAt r.masterLead 8 ||| flagAt r.cntOvf 31
  | 0x3D8 => fieldAt r.settingsResteepCount 0
  | 0x3DC => fieldAt r.refusalHoldCount 0
  | _ => 0

/-- A write of v clears the W1C fields whose bits are 1. -/
def clearStageSteepRegs (r : StageSteepRegs) (off : Nat) (v : Word) : StageSteepRegs :=
  match off with
  | 0x3D4 => { r with cntOvf := r.cntOvf && !v.getLsbD 31 }
  | _ => r

/-- The upper words that a read of a least significant word captures (R21). -/
def wideStageSteepRegs (off : Nat) : List Nat :=
  match off with
  | 0x3C0 => [0x3C4]
  | 0x3C8 => [0x3CC, 0x3D0]
  | _ => []

/-- A configuration image writes the settings of a word. -/
def loadStageSteepRegs (r : StageSteepRegs) (off : Nat) (v : Word) : StageSteepRegs :=
  match off with
  | 0x3D4 => { r with masterLead := v.getLsbD 8 }
  | _ => r

/-- The words of a block (R213). -/
def readAxisRegs (r : AxisRegs) (off : Nat) : Word :=
  match off with
  | 0x004 => flagAt r.kind 0 ||| flagAt r.decelChange 1
  | 0x008 => r.actPos.extractLsb' 0 32
  | 0x00C => r.actPos.extractLsb' 32 32
  | 0x010 => r.actPos.extractLsb' 64 32
  | 0x014 => r.actVel.extractLsb' 0 32
  | 0x018 => r.actVel.extractLsb' 32 32
  | 0x01C => r.actVel.extractLsb' 64 32
  | 0x020 => r.spPos.extractLsb' 0 32
  | 0x024 => r.spPos.extractLsb' 32 32
  | 0x028 => r.spPos.extractLsb' 64 32
  | 0x02C => r.spVel.extractLsb' 0 32
  | 0x030 => r.spVel.extractLsb' 32 32
  | 0x034 => r.spVel.extractLsb' 64 32
  | 0x038 => r.spAcc.extractLsb' 0 32
  | 0x03C => r.spAcc.extractLsb' 32 32
  | 0x040 => r.spAcc.extractLsb' 64 32
  | 0x048 => r.turns.extractLsb' 0 32
  | 0x04C => r.turns.extractLsb' 32 32
  | 0x050 => r.modulus.extractLsb' 0 32
  | 0x054 => r.modulus.extractLsb' 32 32
  | 0x058 => fieldAt r.scaleNum 0
  | 0x05C => fieldAt r.scaleDen 0
  | 0x060 => r.vMax.extractLsb' 0 32
  | 0x064 => r.vMax.extractLsb' 32 32
  | 0x068 => r.vMax.extractLsb' 64 32
  | 0x06C => r.aMax.extractLsb' 0 32
  | 0x070 => r.aMax.extractLsb' 32 32
  | 0x074 => r.aMax.extractLsb' 64 32
  | 0x078 => r.decMax.extractLsb' 0 32
  | 0x07C => r.decMax.extractLsb' 32 32
  | 0x080 => r.decMax.extractLsb' 64 32
  | 0x084 => r.jMax.extractLsb' 0 32
  | 0x088 => r.jMax.extractLsb' 32 32
  | 0x08C => r.jMax.extractLsb' 64 32
  | 0x090 => r.decStop.extractLsb' 0 32
  | 0x094 => r.decStop.extractLsb' 32 32
  | 0x098 => r.decStop.extractLsb' 64 32
  | 0x09C => r.jStop.extractLsb' 0 32
  | 0x0A0 => r.jStop.extractLsb' 32 32
  | 0x0A4 => r.jStop.extractLsb' 64 32
  | 0x0A8 => r.swNeg.extractLsb' 0 32
  | 0x0AC => r.swNeg.extractLsb' 32 32
  | 0x0B0 => r.swPos.extractLsb' 0 32
  | 0x0B4 => r.swPos.extractLsb' 32 32
  | 0x0B8 => flagAt r.swEn 0
  | 0x0C0 => r.target.extractLsb' 0 32
  | 0x0C4 => r.target.extractLsb' 32 32
  | 0x0C8 => r.target.extractLsb' 64 32
  | 0x0CC => r.posExcess.extractLsb' 0 32
  | 0x0D0 => fieldAt r.limPosSrc 0 ||| fieldAt r.limNegSrc 8 ||| fieldAt r.homeSrc 16 ||| fieldAt r.activeLow 24
  | 0x0D4 => fieldAt r.inPosWindow 0
  | 0x0D8 => r.posExcess.extractLsb' 32 32
  | 0x0DC => fieldAt r.inPosTime 0
  | 0x0E0 => fieldAt r.holdTime 0
  | 0x100 => fieldAt r.homeMethod 0
  | 0x104 => r.homeValue.extractLsb' 0 32
  | 0x108 => r.homeValue.extractLsb' 32 32
  | 0x10C => r.homeValue.extractLsb' 64 32
  | 0x110 => r.vSearch.extractLsb' 0 32
  | 0x114 => r.vSearch.extractLsb' 32 32
  | 0x118 => r.vSearch.extractLsb' 64 32
  | 0x11C => r.vCreep.extractLsb' 0 32
  | 0x120 => r.vCreep.extractLsb' 32 32
  | 0x124 => r.vCreep.extractLsb' 64 32
  | 0x128 => r.aHome.extractLsb' 0 32
  | 0x12C => r.aHome.extractLsb' 32 32
  | 0x130 => r.aHome.extractLsb' 64 32
  | 0x134 => r.backoff.extractLsb' 0 32
  | 0x138 => r.backoff.extractLsb' 32 32
  | 0x13C => r.maxTravel.extractLsb' 0 32
  | 0x140 => r.maxTravel.extractLsb' 32 32
  | 0x144 => fieldAt r.iHome 0
  | 0x148 => fieldAt r.tHs 0
  | 0x180 => fieldAt r.homePhase 0 ||| fieldAt r.homeFailCause 8
  | 0x184 => r.latchDt.extractLsb' 0 32
  | 0x188 => r.latchDt.extractLsb' 32 32
  | 0x18C => r.latchPos.extractLsb' 0 32
  | 0x190 => r.latchPos.extractLsb' 32 32
  | 0x194 => r.latchPos.extractLsb' 64 32
  | 0x198 => fieldAt r.latchUnc 0
  | 0x1C0 => fieldAt r.moveDoneCount 0
  | 0x1C4 => fieldAt r.moveReplacedCount 0
  | 0x1C8 => fieldAt r.overshootCount 0
  | 0x1CC => fieldAt r.homeCount 0
  | 0x1D0 => fieldAt r.homeFailCount 0
  | 0x1D4 => fieldAt r.limitHitCount 0
  | 0x1E0 => flagAt r.posLimitSeen 0 ||| flagAt r.overshootSeen 1 ||| flagAt r.limitSeen 2 ||| flagAt r.uncertainSeen 3 ||| flagAt r.cntOvf 8
  | _ => 0

/-- A write of v clears the W1C fields whose bits are 1. -/
def clearAxisRegs (r : AxisRegs) (off : Nat) (v : Word) : AxisRegs :=
  match off with
  | 0x1E0 => { r with posLimitSeen := r.posLimitSeen && !v.getLsbD 0, overshootSeen := r.overshootSeen && !v.getLsbD 1, limitSeen := r.limitSeen && !v.getLsbD 2, uncertainSeen := r.uncertainSeen && !v.getLsbD 3, cntOvf := r.cntOvf && !v.getLsbD 8 }
  | _ => r

/-- The upper words that a read of a least significant word captures (R21). -/
def wideAxisRegs (off : Nat) : List Nat :=
  match off with
  | 0x008 => [0x00C, 0x010]
  | 0x014 => [0x018, 0x01C]
  | 0x020 => [0x024, 0x028]
  | 0x02C => [0x030, 0x034]
  | 0x038 => [0x03C, 0x040]
  | 0x048 => [0x04C]
  | 0x050 => [0x054]
  | 0x060 => [0x064, 0x068]
  | 0x06C => [0x070, 0x074]
  | 0x078 => [0x07C, 0x080]
  | 0x084 => [0x088, 0x08C]
  | 0x090 => [0x094, 0x098]
  | 0x09C => [0x0A0, 0x0A4]
  | 0x0A8 => [0x0AC]
  | 0x0B0 => [0x0B4]
  | 0x0C0 => [0x0C4, 0x0C8]
  | 0x0CC => [0x0D8]
  | 0x104 => [0x108, 0x10C]
  | 0x110 => [0x114, 0x118]
  | 0x11C => [0x120, 0x124]
  | 0x128 => [0x12C, 0x130]
  | 0x134 => [0x138]
  | 0x13C => [0x140]
  | 0x184 => [0x188]
  | 0x18C => [0x190, 0x194]
  | _ => []

/-- A configuration image writes the settings of a word. -/
def loadAxisRegs (r : AxisRegs) (off : Nat) (v : Word) : AxisRegs :=
  match off with
  | 0x004 => { r with kind := v.getLsbD 0, decelChange := v.getLsbD 1 }
  | 0x050 => { r with modulus := r.modulus.extractLsb' 32 32 ++ v }
  | 0x054 => { r with modulus := v ++ r.modulus.extractLsb' 0 32 }
  | 0x060 => { r with vMax := r.vMax.extractLsb' 64 32 ++ r.vMax.extractLsb' 32 32 ++ v }
  | 0x064 => { r with vMax := r.vMax.extractLsb' 64 32 ++ v ++ r.vMax.extractLsb' 0 32 }
  | 0x068 => { r with vMax := v ++ r.vMax.extractLsb' 32 32 ++ r.vMax.extractLsb' 0 32 }
  | 0x06C => { r with aMax := r.aMax.extractLsb' 64 32 ++ r.aMax.extractLsb' 32 32 ++ v }
  | 0x070 => { r with aMax := r.aMax.extractLsb' 64 32 ++ v ++ r.aMax.extractLsb' 0 32 }
  | 0x074 => { r with aMax := v ++ r.aMax.extractLsb' 32 32 ++ r.aMax.extractLsb' 0 32 }
  | 0x078 => { r with decMax := r.decMax.extractLsb' 64 32 ++ r.decMax.extractLsb' 32 32 ++ v }
  | 0x07C => { r with decMax := r.decMax.extractLsb' 64 32 ++ v ++ r.decMax.extractLsb' 0 32 }
  | 0x080 => { r with decMax := v ++ r.decMax.extractLsb' 32 32 ++ r.decMax.extractLsb' 0 32 }
  | 0x084 => { r with jMax := r.jMax.extractLsb' 64 32 ++ r.jMax.extractLsb' 32 32 ++ v }
  | 0x088 => { r with jMax := r.jMax.extractLsb' 64 32 ++ v ++ r.jMax.extractLsb' 0 32 }
  | 0x08C => { r with jMax := v ++ r.jMax.extractLsb' 32 32 ++ r.jMax.extractLsb' 0 32 }
  | 0x090 => { r with decStop := r.decStop.extractLsb' 64 32 ++ r.decStop.extractLsb' 32 32 ++ v }
  | 0x094 => { r with decStop := r.decStop.extractLsb' 64 32 ++ v ++ r.decStop.extractLsb' 0 32 }
  | 0x098 => { r with decStop := v ++ r.decStop.extractLsb' 32 32 ++ r.decStop.extractLsb' 0 32 }
  | 0x09C => { r with jStop := r.jStop.extractLsb' 64 32 ++ r.jStop.extractLsb' 32 32 ++ v }
  | 0x0A0 => { r with jStop := r.jStop.extractLsb' 64 32 ++ v ++ r.jStop.extractLsb' 0 32 }
  | 0x0A4 => { r with jStop := v ++ r.jStop.extractLsb' 32 32 ++ r.jStop.extractLsb' 0 32 }
  | 0x0A8 => { r with swNeg := r.swNeg.extractLsb' 32 32 ++ v }
  | 0x0AC => { r with swNeg := v ++ r.swNeg.extractLsb' 0 32 }
  | 0x0B0 => { r with swPos := r.swPos.extractLsb' 32 32 ++ v }
  | 0x0B4 => { r with swPos := v ++ r.swPos.extractLsb' 0 32 }
  | 0x0B8 => { r with swEn := v.getLsbD 0 }
  | 0x0D0 => { r with limPosSrc := v.extractLsb' 0 8, limNegSrc := v.extractLsb' 8 8, homeSrc := v.extractLsb' 16 8, activeLow := v.extractLsb' 24 3 }
  | 0x0D4 => { r with inPosWindow := v.extractLsb' 0 32 }
  | 0x0DC => { r with inPosTime := v.extractLsb' 0 16 }
  | 0x0E0 => { r with holdTime := v.extractLsb' 0 14 }
  | 0x100 => { r with homeMethod := v.extractLsb' 0 4 }
  | 0x104 => { r with homeValue := r.homeValue.extractLsb' 64 32 ++ r.homeValue.extractLsb' 32 32 ++ v }
  | 0x108 => { r with homeValue := r.homeValue.extractLsb' 64 32 ++ v ++ r.homeValue.extractLsb' 0 32 }
  | 0x10C => { r with homeValue := v ++ r.homeValue.extractLsb' 32 32 ++ r.homeValue.extractLsb' 0 32 }
  | 0x110 => { r with vSearch := r.vSearch.extractLsb' 64 32 ++ r.vSearch.extractLsb' 32 32 ++ v }
  | 0x114 => { r with vSearch := r.vSearch.extractLsb' 64 32 ++ v ++ r.vSearch.extractLsb' 0 32 }
  | 0x118 => { r with vSearch := v ++ r.vSearch.extractLsb' 32 32 ++ r.vSearch.extractLsb' 0 32 }
  | 0x11C => { r with vCreep := r.vCreep.extractLsb' 64 32 ++ r.vCreep.extractLsb' 32 32 ++ v }
  | 0x120 => { r with vCreep := r.vCreep.extractLsb' 64 32 ++ v ++ r.vCreep.extractLsb' 0 32 }
  | 0x124 => { r with vCreep := v ++ r.vCreep.extractLsb' 32 32 ++ r.vCreep.extractLsb' 0 32 }
  | 0x128 => { r with aHome := r.aHome.extractLsb' 64 32 ++ r.aHome.extractLsb' 32 32 ++ v }
  | 0x12C => { r with aHome := r.aHome.extractLsb' 64 32 ++ v ++ r.aHome.extractLsb' 0 32 }
  | 0x130 => { r with aHome := v ++ r.aHome.extractLsb' 32 32 ++ r.aHome.extractLsb' 0 32 }
  | 0x134 => { r with backoff := r.backoff.extractLsb' 32 32 ++ v }
  | 0x138 => { r with backoff := v ++ r.backoff.extractLsb' 0 32 }
  | 0x13C => { r with maxTravel := r.maxTravel.extractLsb' 32 32 ++ v }
  | 0x140 => { r with maxTravel := v ++ r.maxTravel.extractLsb' 0 32 }
  | 0x144 => { r with iHome := v.extractLsb' 0 10 }
  | 0x148 => { r with tHs := v.extractLsb' 0 10 }
  | _ => r

/-- The words of a block (R240). -/
def readFollowRegs (r : FollowRegs) (off : Nat) : Word :=
  match off with
  | 0x200 => fieldAt r.gearState 0 ||| fieldAt r.chgPending 4 ||| fieldAt r.camState 8 ||| flagAt r.swapPending 12 ||| flagAt r.camMode 13
  | 0x204 => fieldAt r.masterSrc 0 ||| flagAt r.useSp 16
  | 0x208 => fieldAt r.gearN 0
  | 0x20C => fieldAt r.gearD 0
  | 0x210 => fieldAt r.gearRem 0
  | 0x214 => r.lossAcc.extractLsb' 0 32
  | 0x218 => r.lossAcc.extractLsb' 32 32
  | 0x220 => r.chgPos.extractLsb' 0 32
  | 0x224 => r.chgPos.extractLsb' 32 32
  | 0x228 => r.chgPos.extractLsb' 64 32
  | 0x22C => fieldAt r.chgDir 0
  | 0x230 => fieldAt r.chgN 0
  | 0x234 => fieldAt r.chgD 0
  | 0x238 => r.engDist.extractLsb' 0 32
  | 0x23C => r.engDist.extractLsb' 32 32
  | 0x244 => r.engProgress.extractLsb' 0 32
  | 0x248 => r.engProgress.extractLsb' 32 32
  | 0x24C => r.engProgress.extractLsb' 64 32
  | 0x250 => fieldAt r.camTable 0 ||| fieldAt r.camNext 4
  | 0x254 => r.camPhase.extractLsb' 0 32
  | 0x258 => r.camPhase.extractLsb' 32 32
  | 0x25C => r.camPhase.extractLsb' 64 32
  | 0x260 => r.camPeriods.extractLsb' 0 32
  | 0x264 => r.camPeriods.extractLsb' 32 32
  | 0x268 => r.camOffset.extractLsb' 0 32
  | 0x26C => r.camOffset.extractLsb' 32 32
  | 0x270 => r.camOffset.extractLsb' 64 32
  | 0x280 => r.regOffset.extractLsb' 0 32
  | 0x284 => r.regOffset.extractLsb' 32 32
  | 0x288 => r.regOffset.extractLsb' 64 32
  | 0x28C => fieldAt r.regState 0
  | 0x290 => fieldAt r.regLastErr 0
  | 0x294 => fieldAt r.regMarkCount 0
  | 0x298 => fieldAt r.regMissCount 0
  | 0x29C => fieldAt r.regOutlierCount 0
  | 0x2A0 => fieldAt r.gearChangeCount 0
  | 0x2A4 => fieldAt r.camSwapCount 0
  | 0x2A8 => fieldAt r.regRatelimCount 0
  | 0x2B0 => flagAt r.changeSeen 0 ||| flagAt r.swapSeen 1 ||| flagAt r.missingSeen 2 ||| flagAt r.clampSeen 3 ||| flagAt r.cntOvf 8
  | _ => 0

/-- A write of v clears the W1C fields whose bits are 1. -/
def clearFollowRegs (r : FollowRegs) (off : Nat) (v : Word) : FollowRegs :=
  match off with
  | 0x2B0 => { r with changeSeen := r.changeSeen && !v.getLsbD 0, swapSeen := r.swapSeen && !v.getLsbD 1, missingSeen := r.missingSeen && !v.getLsbD 2, clampSeen := r.clampSeen && !v.getLsbD 3, cntOvf := r.cntOvf && !v.getLsbD 8 }
  | _ => r

/-- The upper words that a read of a least significant word captures (R21). -/
def wideFollowRegs (off : Nat) : List Nat :=
  match off with
  | 0x214 => [0x218]
  | 0x220 => [0x224, 0x228]
  | 0x238 => [0x23C]
  | 0x244 => [0x248, 0x24C]
  | 0x254 => [0x258, 0x25C]
  | 0x260 => [0x264]
  | 0x268 => [0x26C, 0x270]
  | 0x280 => [0x284, 0x288]
  | _ => []

/-- A configuration image writes the settings of a word. -/
def loadFollowRegs (r : FollowRegs) (off : Nat) (v : Word) : FollowRegs :=
  match off with
  | 0x204 => { r with masterSrc := v.extractLsb' 0 16, useSp := v.getLsbD 16 }
  | 0x208 => { r with gearN := v.extractLsb' 0 32 }
  | 0x20C => { r with gearD := v.extractLsb' 0 32 }
  | _ => r

/-- The words of a block (R279). -/
def readLoopRegs (r : LoopRegs) (off : Nat) : Word :=
  match off with
  | 0x040 => flagAt r.satErr 0 ||| flagAt r.satP 1 ||| flagAt r.satI 2 ||| flagAt r.satD 3 ||| flagAt r.satFf 4 ||| flagAt r.satSum 5 ||| flagAt r.satOut 6 ||| flagAt r.supViolSeen 8 ||| flagAt r.bumpSeen 9 ||| flagAt r.dwIgnoredSeen 10 ||| flagAt r.cntOvf 16
  | 0x044 => fieldAt r.loopMode 0 ||| flagAt r.tuning 2 ||| flagAt r.supActive 3 ||| fieldAt r.engine 8
  | 0x048 => fieldAt r.k 0 ||| fieldAt r.kv 8 ||| fieldAt r.kpDiv 12 ||| fieldAt r.localDiv 16 ||| flagAt r.spInterp 24 ||| flagAt r.innerInterp 25 ||| fieldAt r.top 26
  | 0x04C => flagAt r.reqMode 0 ||| flagAt r.bumpless 1 ||| flagAt r.manTrack 2
  | 0x050 => fieldAt r.programId 0 ||| fieldAt r.programVer 16
  | 0x080 => fieldAt r.kp 0
  | 0x084 => fieldAt r.ki 0
  | 0x088 => fieldAt r.kd 0
  | 0x08C => fieldAt r.kff 0
  | 0x090 => fieldAt r.dFilt 0
  | 0x094 => fieldAt r.outMin 0
  | 0x098 => fieldAt r.outMax 0
  | 0x09C => fieldAt r.manOut 0
  | 0x0A0 => fieldAt r.inShift 0
  | 0x0A4 => fieldAt r.satTime 0
  | 0x100 => fieldAt r.supModel 0
  | 0x104 => fieldAt r.supKaKq 0
  | 0x108 => fieldAt r.supKbDb 0
  | 0x10C => fieldAt r.supKf 0
  | 0x110 => fieldAt r.supLoadBw 0
  | 0x114 => fieldAt r.thrSup 0
  | 0x118 => fieldAt r.tauSup 0
  | 0x11C => fieldAt r.tSup 0
  | 0x180 => fieldAt r.satOutCount 0
  | 0x184 => fieldAt r.supViolCount 0
  | 0x188 => fieldAt r.dwWriteCount 0
  | 0x18C => fieldAt r.dwIgnoredCount 0
  | 0x190 => fieldAt r.modeSwitchCount 0
  | 0x194 => fieldAt r.bumpCount 0
  | _ => 0

/-- A write of v clears the W1C fields whose bits are 1. -/
def clearLoopRegs (r : LoopRegs) (off : Nat) (v : Word) : LoopRegs :=
  match off with
  | 0x040 => { r with satErr := r.satErr && !v.getLsbD 0, satP := r.satP && !v.getLsbD 1, satI := r.satI && !v.getLsbD 2, satD := r.satD && !v.getLsbD 3, satFf := r.satFf && !v.getLsbD 4, satSum := r.satSum && !v.getLsbD 5, satOut := r.satOut && !v.getLsbD 6, supViolSeen := r.supViolSeen && !v.getLsbD 8, bumpSeen := r.bumpSeen && !v.getLsbD 9, dwIgnoredSeen := r.dwIgnoredSeen && !v.getLsbD 10, cntOvf := r.cntOvf && !v.getLsbD 16 }
  | _ => r

/-- A configuration image writes the settings of a word. -/
def loadLoopRegs (r : LoopRegs) (off : Nat) (v : Word) : LoopRegs :=
  match off with
  | 0x048 => { r with k := v.extractLsb' 0 6, kv := v.extractLsb' 8 4, kpDiv := v.extractLsb' 12 4, localDiv := v.extractLsb' 16 6, spInterp := v.getLsbD 24, innerInterp := v.getLsbD 25, top := v.extractLsb' 26 2 }
  | 0x04C => { r with reqMode := v.getLsbD 0, bumpless := v.getLsbD 1, manTrack := v.getLsbD 2 }
  | 0x080 => { r with kp := v.extractLsb' 0 32 }
  | 0x084 => { r with ki := v.extractLsb' 0 32 }
  | 0x088 => { r with kd := v.extractLsb' 0 32 }
  | 0x08C => { r with kff := v.extractLsb' 0 32 }
  | 0x090 => { r with dFilt := v.extractLsb' 0 32 }
  | 0x094 => { r with outMin := v.extractLsb' 0 32 }
  | 0x098 => { r with outMax := v.extractLsb' 0 32 }
  | 0x09C => { r with manOut := v.extractLsb' 0 32 }
  | 0x0A0 => { r with inShift := v.extractLsb' 0 6 }
  | 0x0A4 => { r with satTime := v.extractLsb' 0 14 }
  | 0x100 => { r with supModel := v.extractLsb' 0 2 }
  | 0x104 => { r with supKaKq := v.extractLsb' 0 32 }
  | 0x108 => { r with supKbDb := v.extractLsb' 0 32 }
  | 0x10C => { r with supKf := v.extractLsb' 0 32 }
  | 0x110 => { r with supLoadBw := v.extractLsb' 0 32 }
  | 0x114 => { r with thrSup := v.extractLsb' 0 32 }
  | 0x118 => { r with tauSup := v.extractLsb' 0 17 }
  | 0x11C => { r with tSup := v.extractLsb' 0 10 }
  | _ => r

/-- The words of a block (R280). -/
def readTraceRegs (r : TraceRegs) (off : Nat) : Word :=
  match off with
  | 0x000 => fieldAt r.trState 0
  | 0x004 => fieldAt r.memBase 0
  | 0x008 => fieldAt r.memSize 0
  | 0x00C => fieldAt r.nextSeq 0
  | 0x010 => fieldAt r.trigSeq 0
  | 0x014 => r.trigDt.extractLsb' 0 32
  | 0x018 => r.trigDt.extractLsb' 32 32
  | 0x01C => fieldAt r.ignoredPretrig 0
  | 0x020 => fieldAt r.recordsWritten 0
  | 0x024 => fieldAt r.oldestOffset 0
  | 0x028 => flagAt r.trigLate 0 ||| flagAt r.completeSeen 1 ||| flagAt r.cntOvf 8
  | off =>
    if 0x100 ≤ off ∧ off < 0x200 ∧ (off - 0x100) % 4 = 0 then fieldAt (r.signalSel.getD ((off - 0x100) / 4) 0) 0 else
    0

/-- A write of v clears the W1C fields whose bits are 1. -/
def clearTraceRegs (r : TraceRegs) (off : Nat) (v : Word) : TraceRegs :=
  match off with
  | 0x028 => { r with trigLate := r.trigLate && !v.getLsbD 0, completeSeen := r.completeSeen && !v.getLsbD 1, cntOvf := r.cntOvf && !v.getLsbD 8 }
  | _ => r

/-- The upper words that a read of a least significant word captures (R21). -/
def wideTraceRegs (off : Nat) : List Nat :=
  match off with
  | 0x014 => [0x018]
  | _ => []

/-- The words of a block (R317). -/
def readEngineRegs (r : EngineRegs) (off : Nat) : Word :=
  match off with
  | 0x000 => fieldAt r.leState 0 ||| fieldAt r.clock 4 ||| fieldAt r.faultCause 8
  | 0x004 => fieldAt r.faultPc 0
  | 0x008 => fieldAt r.faultAddr 0
  | 0x00C => fieldAt r.imageCrc 0
  | 0x010 => fieldAt r.imageCheck 0
  | 0x018 => fieldAt r.loadPermille 0 ||| fieldAt r.loadPeak 16
  | 0x020 => fieldAt r.eccCorrProg 0
  | 0x024 => fieldAt r.eccCorrData 0
  | 0x028 => fieldAt r.eccCorrPort 0
  | 0x030 => fieldAt r.userEventCount 0
  | 0x040 => flagAt r.overrunSeen 0 ||| flagAt r.eccSeen 1 ||| flagAt r.faultSeen 2 ||| flagAt r.cntOvf 8
  | off =>
    if 0x200 ≤ off ∧ off < 0x240 ∧ (off - 0x200) % 4 = 0 then fieldAt (r.maxCycles.getD ((off - 0x200) / 4) 0) 0 else
    if 0x240 ≤ off ∧ off < 0x280 ∧ (off - 0x240) % 4 = 0 then fieldAt (r.wcet.getD ((off - 0x240) / 4) 0) 0 else
    0

/-- A write of v clears the W1C fields whose bits are 1. -/
def clearEngineRegs (r : EngineRegs) (off : Nat) (v : Word) : EngineRegs :=
  match off with
  | 0x040 => { r with overrunSeen := r.overrunSeen && !v.getLsbD 0, eccSeen := r.eccSeen && !v.getLsbD 1, faultSeen := r.faultSeen && !v.getLsbD 2, cntOvf := r.cntOvf && !v.getLsbD 8 }
  | _ => r

/-- The words of a block (R317). -/
def readTickRegs (r : TickRegs) (off : Nat) : Word :=
  match off with
  | 0x100 => flagAt r.en 0 ||| fieldAt r.sourceKind 4 ||| fieldAt r.sourceNum 8 ||| fieldAt r.div 16 ||| fieldAt r.phase 24
  | 0x104 => fieldAt r.tickAddr 0 ||| fieldAt r.tickCtx 16
  | 0x108 => fieldAt r.firstLoop 0 ||| fieldAt r.loopMask 8 ||| fieldAt r.programId 16
  | 0x10C => fieldAt r.overrunCount 0
  | _ => 0

/-- A configuration image writes the settings of a word. -/
def loadTickRegs (r : TickRegs) (off : Nat) (v : Word) : TickRegs :=
  match off with
  | 0x100 => { r with en := v.getLsbD 0, sourceKind := v.extractLsb' 4 3, sourceNum := v.extractLsb' 8 5, div := v.extractLsb' 16 8, phase := v.extractLsb' 24 8 }
  | 0x104 => { r with tickAddr := v.extractLsb' 0 13, tickCtx := v.extractLsb' 16 16 }
  | 0x108 => { r with firstLoop := v.extractLsb' 0 7, loopMask := v.extractLsb' 8 4, programId := v.extractLsb' 16 16 }
  | _ => r

/-- The words of a block (R354). -/
def readTileRegs (r : TileRegs) (off : Nat) : Word :=
  match off with
  | 0x000 => fieldAt r.tileState 0 ||| flagAt r.trip 3 ||| flagAt r.tripInput 4 ||| flagAt r.loadPending 5 ||| flagAt r.regenClamp 6 ||| fieldAt r.hallState 8 ||| flagAt r.sto 11
  | 0x004 => fieldAt r.ventCause 0 ||| flagAt r.chopperVented 8
  | 0x008 => fieldAt r.mode 0 ||| flagAt r.localField 2 ||| flagAt r.block 3 ||| flagAt r.brakeEn 4 ||| fieldAt r.dcl 5 ||| flagAt r.dclMember 7 ||| flagAt r.activeLow 8
  | 0x00C => fieldAt r.periodClk 0 ||| flagAt r.centre 24 ||| flagAt r.double 25 ||| flagAt r.minpulse 26
  | 0x010 => fieldAt r.phaseClk 0
  | 0x014 => fieldAt r.minPulse 0
  | 0x028 => fieldAt r.dtcEn 0
  | 0x02C => fieldAt r.fltFilt 0 ||| flagAt r.fltEn 8
  | 0x080 => fieldAt r.periodCount 0
  | 0x094 => fieldAt r.carrySatCount 0
  | 0x098 => r.carryLost.extractLsb' 0 32
  | 0x09C => r.carryLost.extractLsb' 32 32
  | 0x0A0 => fieldAt r.dropCount 0
  | 0x0A4 => fieldAt r.stretchCount 0
  | 0x0A8 => fieldAt r.tripCount 0
  | 0x0AC => fieldAt r.hallEdgeCount 0
  | 0x0B0 => fieldAt r.hallIllegalCount 0
  | 0x0B4 => fieldAt r.resyncCount 0
  | 0x0B8 => fieldAt r.freezeCount 0
  | 0x0BC => fieldAt r.loadAllCount 0
  | 0x0C0 => fieldAt r.tripClearRefusedCount 0
  | 0x0C4 => r.lastTripDt.extractLsb' 0 32
  | 0x0C8 => r.lastTripDt.extractLsb' 32 32
  | 0x0D0 => flagAt r.tripSeen 0 ||| flagAt r.carrySatSeen 1 ||| flagAt r.hallIllegalSeen 2 ||| flagAt r.frozenSeen 3 ||| flagAt r.cntOvf 8
  | 0x110 => fieldAt r.legCtlInForce 0
  | off =>
    if 0x18 ≤ off ∧ off < 0x28 ∧ (off - 0x18) % 4 = 0 then fieldAt (r.deadtime.getD ((off - 0x18) / 4) 0) 0 else
    if 0x40 ≤ off ∧ off < 0x60 ∧ (off - 0x40) % 4 = 0 then fieldAt (r.hallEntry.getD ((off - 0x40) / 4) 0) 0 else
    if 0x84 ≤ off ∧ off < 0x94 ∧ (off - 0x84) % 4 = 0 then fieldAt (r.carry.getD ((off - 0x84) / 4) 0) 0 else
    if 0x100 ≤ off ∧ off < 0x110 ∧ (off - 0x100) % 4 = 0 then fieldAt (r.dutyInForce.getD ((off - 0x100) / 4) 0) 0 else
    0

/-- A write of v clears the W1C fields whose bits are 1. -/
def clearTileRegs (r : TileRegs) (off : Nat) (v : Word) : TileRegs :=
  match off with
  | 0x0D0 => { r with tripSeen := r.tripSeen && !v.getLsbD 0, carrySatSeen := r.carrySatSeen && !v.getLsbD 1, hallIllegalSeen := r.hallIllegalSeen && !v.getLsbD 2, frozenSeen := r.frozenSeen && !v.getLsbD 3, cntOvf := r.cntOvf && !v.getLsbD 8 }
  | _ => r

/-- The upper words that a read of a least significant word captures (R21). -/
def wideTileRegs (off : Nat) : List Nat :=
  match off with
  | 0x098 => [0x09C]
  | 0x0C4 => [0x0C8]
  | _ => []

/-- A configuration image writes the settings of a word. -/
def loadTileRegs (r : TileRegs) (off : Nat) (v : Word) : TileRegs :=
  match off with
  | 0x008 => { r with mode := v.extractLsb' 0 2, localField := v.getLsbD 2, block := v.getLsbD 3, brakeEn := v.getLsbD 4, dcl := v.extractLsb' 5 2, dclMember := v.getLsbD 7, activeLow := v.getLsbD 8 }
  | 0x00C => { r with periodClk := v.extractLsb' 0 18, centre := v.getLsbD 24, double := v.getLsbD 25, minpulse := v.getLsbD 26 }
  | 0x010 => { r with phaseClk := v.extractLsb' 0 18 }
  | 0x014 => { r with minPulse := v.extractLsb' 0 16 }
  | 0x028 => { r with dtcEn := v.extractLsb' 0 4 }
  | 0x02C => { r with fltFilt := v.extractLsb' 0 7, fltEn := v.getLsbD 8 }
  | 0x018 => { r with deadtime := r.deadtime.set 0 (v.extractLsb' 0 16) }
  | 0x01C => { r with deadtime := r.deadtime.set 1 (v.extractLsb' 0 16) }
  | 0x020 => { r with deadtime := r.deadtime.set 2 (v.extractLsb' 0 16) }
  | 0x024 => { r with deadtime := r.deadtime.set 3 (v.extractLsb' 0 16) }
  | 0x040 => { r with hallEntry := r.hallEntry.set 0 (v.extractLsb' 0 6) }
  | 0x044 => { r with hallEntry := r.hallEntry.set 1 (v.extractLsb' 0 6) }
  | 0x048 => { r with hallEntry := r.hallEntry.set 2 (v.extractLsb' 0 6) }
  | 0x04C => { r with hallEntry := r.hallEntry.set 3 (v.extractLsb' 0 6) }
  | 0x050 => { r with hallEntry := r.hallEntry.set 4 (v.extractLsb' 0 6) }
  | 0x054 => { r with hallEntry := r.hallEntry.set 5 (v.extractLsb' 0 6) }
  | 0x058 => { r with hallEntry := r.hallEntry.set 6 (v.extractLsb' 0 6) }
  | 0x05C => { r with hallEntry := r.hallEntry.set 7 (v.extractLsb' 0 6) }
  | _ => r

/-- The words of a block (R355). -/
def readDclRegs (r : DclRegs) (off : Nat) : Word :=
  match off with
  | 0x000 => flagAt r.ovpVented 0 ||| flagAt r.regenLimited 1 ||| flagAt r.brakeIneff 2 ||| flagAt r.undervolt 3 ||| flagAt r.chopperOnAny 4 ||| fieldAt r.members 16
  | 0x004 => fieldAt r.vdcFsMv 0
  | 0x008 => fieldAt r.vBrkOn 0
  | 0x00C => fieldAt r.vBrkOff 0
  | 0x010 => fieldAt r.vOvp 0
  | 0x014 => fieldAt r.dvChk 0
  | 0x018 => fieldAt r.tChk 0
  | 0x01C => fieldAt r.vUv 0
  | 0x020 => fieldAt r.vdcMax 0
  | 0x024 => fieldAt r.vdcMin 0
  | 0x028 => fieldAt r.ovpCount 0
  | 0x02C => fieldAt r.brakeIneffCount 0
  | 0x030 => fieldAt r.chopperOnCount 0
  | 0x034 => fieldAt r.uvCount 0
  | 0x038 => flagAt r.ovpSeen 0 ||| flagAt r.brakeSeen 1 ||| flagAt r.uvSeen 2 ||| flagAt r.cntOvf 8
  | _ => 0

/-- A write of v clears the W1C fields whose bits are 1. -/
def clearDclRegs (r : DclRegs) (off : Nat) (v : Word) : DclRegs :=
  match off with
  | 0x038 => { r with ovpSeen := r.ovpSeen && !v.getLsbD 0, brakeSeen := r.brakeSeen && !v.getLsbD 1, uvSeen := r.uvSeen && !v.getLsbD 2, cntOvf := r.cntOvf && !v.getLsbD 8 }
  | _ => r

/-- A configuration image writes the settings of a word. -/
def loadDclRegs (r : DclRegs) (off : Nat) (v : Word) : DclRegs :=
  match off with
  | 0x004 => { r with vdcFsMv := v.extractLsb' 0 32 }
  | 0x008 => { r with vBrkOn := v.extractLsb' 0 32 }
  | 0x00C => { r with vBrkOff := v.extractLsb' 0 32 }
  | 0x010 => { r with vOvp := v.extractLsb' 0 32 }
  | 0x014 => { r with dvChk := v.extractLsb' 0 32 }
  | 0x018 => { r with tChk := v.extractLsb' 0 17 }
  | 0x01C => { r with vUv := v.extractLsb' 0 32 }
  | _ => r

/-- The words of a block (R385). -/
def readFocRegs (r : FocRegs) (off : Nat) : Word :=
  match off with
  | 0x400 => fieldAt r.startState 0 ||| fieldAt r.modRegion 4 ||| flagAt r.obsConverged 6 ||| flagAt r.identifying 7 ||| flagAt r.offsetValid 8 ||| fieldAt r.startTries 12
  | 0x404 => flagAt r.sense 0 ||| flagAt r.three 1 ||| flagAt r.shiftEn 2 ||| flagAt r.angleSrc 3 ||| flagAt r.voltSrc 4 ||| flagAt r.alignAtEnable 5 ||| flagAt r.flyEn 6
  | 0x408 => fieldAt r.winLen 0
  | 0x40C => fieldAt r.tSettle 0
  | 0x410 => fieldAt r.eperiodNum 0
  | 0x414 => fieldAt r.eperiodDen 0
  | 0x418 => fieldAt r.angleOffset 0
  | 0x41C => fieldAt r.angleAdv 0
  | 0x420 => fieldAt r.rs 0
  | 0x424 => fieldAt r.ld 0
  | 0x428 => fieldAt r.lq 0
  | 0x42C => fieldAt r.psi 0
  | 0x430 => fieldAt r.iFsMa 0
  | 0x434 => fieldAt r.iMax 0
  | 0x438 => fieldAt r.iSumThr 0
  | 0x43C => fieldAt r.iTrip 0
  | 0x440 => fieldAt r.idRef 0
  | 0x444 => fieldAt r.mMax 0
  | 0x448 => fieldAt r.omGain 0
  | 0x44C => fieldAt r.predMax 0
  | 0x450 => fieldAt r.obsBw 0
  | 0x454 => fieldAt r.pllBw 0
  | 0x458 => fieldAt r.obsMinSpeed 0
  | 0x45C => fieldAt r.convThr 0
  | 0x460 => fieldAt r.convTime 0
  | 0x470 => fieldAt r.iAlign 0
  | 0x474 => fieldAt r.tAlign 0
  | 0x478 => fieldAt r.iStart 0
  | 0x47C => fieldAt r.aStart 0
  | 0x480 => fieldAt r.vHandover 0
  | 0x484 => fieldAt r.tBlend 0
  | 0x488 => fieldAt r.tStartTimeout 0
  | 0x48C => fieldAt r.startRetries 0
  | 0x490 => fieldAt r.tRetryWait 0
  | 0x494 => fieldAt r.vCatch 0
  | 0x498 => fieldAt r.tBrake 0
  | 0x49C => fieldAt r.flyMinEmf 0
  | 0x4C0 => fieldAt r.thetaE 0
  | 0x4C4 => fieldAt r.omegaE 0
  | 0x4C8 => fieldAt r.modIndex 0
  | 0x4CC => fieldAt r.idMeas 0
  | 0x4D0 => fieldAt r.iqMeas 0
  | 0x4D4 => fieldAt r.thetaObs 0
  | 0x4D8 => fieldAt r.pllErr 0
  | 0x4E0 => fieldAt r.shiftCount 0
  | 0x4E4 => fieldAt r.reconCount 0
  | 0x4E8 => fieldAt r.predictCount 0
  | 0x4EC => fieldAt r.startCount 0
  | 0x4F0 => fieldAt r.startFailCount 0
  | 0x4F4 => fieldAt r.catchCount 0
  | 0x4F8 => fieldAt r.overcurrentCount 0
  | 0x4FC => flagAt r.overcurrentSeen 0 ||| flagAt r.sumErrSeen 1 ||| flagAt r.noWindowSeen 2 ||| flagAt r.startFailSeen 3 ||| flagAt r.obsLostSeen 4 ||| flagAt r.cntOvf 8
  | _ => 0

/-- A write of v clears the W1C fields whose bits are 1. -/
def clearFocRegs (r : FocRegs) (off : Nat) (v : Word) : FocRegs :=
  match off with
  | 0x4FC => { r with overcurrentSeen := r.overcurrentSeen && !v.getLsbD 0, sumErrSeen := r.sumErrSeen && !v.getLsbD 1, noWindowSeen := r.noWindowSeen && !v.getLsbD 2, startFailSeen := r.startFailSeen && !v.getLsbD 3, obsLostSeen := r.obsLostSeen && !v.getLsbD 4, cntOvf := r.cntOvf && !v.getLsbD 8 }
  | _ => r

/-- A configuration image writes the settings of a word. -/
def loadFocRegs (r : FocRegs) (off : Nat) (v : Word) : FocRegs :=
  match off with
  | 0x404 => { r with sense := v.getLsbD 0, three := v.getLsbD 1, shiftEn := v.getLsbD 2, angleSrc := v.getLsbD 3, voltSrc := v.getLsbD 4, alignAtEnable := v.getLsbD 5, flyEn := v.getLsbD 6 }
  | 0x408 => { r with winLen := v.extractLsb' 0 15 }
  | 0x40C => { r with tSettle := v.extractLsb' 0 13 }
  | 0x410 => { r with eperiodNum := v.extractLsb' 0 32 }
  | 0x414 => { r with eperiodDen := v.extractLsb' 0 32 }
  | 0x418 => { r with angleOffset := v.extractLsb' 0 32 }
  | 0x41C => { r with angleAdv := v.extractLsb' 0 17 }
  | 0x420 => { r with rs := v.extractLsb' 0 32 }
  | 0x424 => { r with ld := v.extractLsb' 0 32 }
  | 0x428 => { r with lq := v.extractLsb' 0 32 }
  | 0x42C => { r with psi := v.extractLsb' 0 32 }
  | 0x430 => { r with iFsMa := v.extractLsb' 0 32 }
  | 0x434 => { r with iMax := v.extractLsb' 0 32 }
  | 0x438 => { r with iSumThr := v.extractLsb' 0 32 }
  | 0x43C => { r with iTrip := v.extractLsb' 0 32 }
  | 0x440 => { r with idRef := v.extractLsb' 0 32 }
  | 0x444 => { r with mMax := v.extractLsb' 0 32 }
  | 0x448 => { r with omGain := v.extractLsb' 0 32 }
  | 0x44C => { r with predMax := v.extractLsb' 0 8 }
  | 0x450 => { r with obsBw := v.extractLsb' 0 32 }
  | 0x454 => { r with pllBw := v.extractLsb' 0 32 }
  | 0x458 => { r with obsMinSpeed := v.extractLsb' 0 32 }
  | 0x45C => { r with convThr := v.extractLsb' 0 16 }
  | 0x460 => { r with convTime := v.extractLsb' 0 10 }
  | 0x470 => { r with iAlign := v.extractLsb' 0 32 }
  | 0x474 => { r with tAlign := v.extractLsb' 0 14 }
  | 0x478 => { r with iStart := v.extractLsb' 0 32 }
  | 0x47C => { r with aStart := v.extractLsb' 0 32 }
  | 0x480 => { r with vHandover := v.extractLsb' 0 32 }
  | 0x484 => { r with tBlend := v.extractLsb' 0 7 }
  | 0x488 => { r with tStartTimeout := v.extractLsb' 0 14 }
  | 0x48C => { r with startRetries := v.extractLsb' 0 4 }
  | 0x490 => { r with tRetryWait := v.extractLsb' 0 14 }
  | 0x494 => { r with vCatch := v.extractLsb' 0 32 }
  | 0x498 => { r with tBrake := v.extractLsb' 0 14 }
  | 0x49C => { r with flyMinEmf := v.extractLsb' 0 32 }
  | _ => r

/-- The words of a block (R386). -/
def readIdentResultRegs (r : IdentResultRegs) (off : Nat) : Word :=
  match off with
  | 0x500 => fieldAt r.identDone 0 ||| fieldAt r.identFailStep 8 ||| fieldAt r.identState 12
  | 0x504 => fieldAt r.idOffset 0
  | 0x508 => fieldAt r.idRs 0
  | 0x50C => fieldAt r.idLd 0
  | 0x510 => fieldAt r.idLq 0
  | 0x514 => fieldAt r.idPsi 0
  | 0x518 => fieldAt r.idKa 0
  | 0x51C => fieldAt r.idKb 0
  | 0x520 => fieldAt r.idKf 0
  | 0x524 => fieldAt r.idRunDt 0
  | _ => 0

/-- The words of a block (R410). -/
def readSvRegs (r : SvRegs) (off : Nat) : Word :=
  match off with
  | 0x600 => fieldAt r.measState 0 ||| flagAt r.stalled 2 ||| fieldAt r.underdrive 3 ||| flagAt r.tableSel 5 ||| flagAt r.ditherOn 6
  | 0x604 => fieldAt r.svIFsMa 0
  | 0x608 => fieldAt r.chopN 0 ||| fieldAt r.decay 8
  | 0x60C => fieldAt r.hyst 0
  | 0x610 => fieldAt r.tFast 0 ||| fieldAt r.tBlank 16
  | 0x614 => fieldAt r.ofsShift 0
  | 0x618 => fieldAt r.ofsMax 0
  | 0x61C => fieldAt r.tDriveMax 0
  | 0x620 => fieldAt r.iRun 0
  | 0x624 => fieldAt r.iHold 0
  | 0x628 => fieldAt r.tIdle 0
  | 0x62C => fieldAt r.stepOffset 0
  | 0x630 => fieldAt r.stallThr 0 ||| fieldAt r.stallN 16
  | 0x634 => fieldAt r.stallMinSpeed 0
  | 0x638 => fieldAt r.stepEncNum 0
  | 0x63C => fieldAt r.stepEncDen 0
  | 0x640 => fieldAt r.coilR0 0
  | 0x644 => fieldAt r.coilL0 0
  | 0x648 => fieldAt r.coilR1 0
  | 0x64C => fieldAt r.coilL1 0
  | 0x650 => fieldAt r.coil1Mode 0 ||| flagAt r.velEn 2 ||| flagAt r.measAtEnable 3 ||| flagAt r.autoCoef 4
  | 0x654 => fieldAt r.iCoilMax 0
  | 0x658 => fieldAt r.iTripSv 0
  | 0x65C => fieldAt r.ditherF 0 ||| flagAt r.ditherWave 16
  | 0x660 => fieldAt r.ditherAmp 0
  | 0x664 => fieldAt r.vMeas 0
  | 0x668 => fieldAt r.tMeas 0
  | 0x66C => fieldAt r.rMin 0
  | 0x670 => fieldAt r.rMax 0
  | 0x674 => fieldAt r.bwCoil 0
  | 0x678 => fieldAt r.tOpen 0
  | 0x680 => fieldAt r.loadAngle 0
  | 0x684 => fieldAt r.appliedAddr 0
  | 0x688 => fieldAt r.ofsA 0
  | 0x68C => fieldAt r.ofsB 0
  | 0x690 => fieldAt r.meanA 0
  | 0x694 => fieldAt r.meanB 0
  | 0x698 => fieldAt r.measR0 0
  | 0x69C => fieldAt r.measL0 0
  | 0x6A0 => fieldAt r.measR1 0
  | 0x6A4 => fieldAt r.measL1 0
  | 0x6C0 => fieldAt r.chopCyclesA 0
  | 0x6C4 => fieldAt r.chopCyclesB 0
  | 0x6C8 => fieldAt r.underdriveCount 0
  | 0x6CC => fieldAt r.stallCount 0
  | 0x6D0 => fieldAt r.coilFaultCount 0
  | 0x6D4 => fieldAt r.coilOcCount 0
  | 0x6E0 => flagAt r.stallSeen 0 ||| flagAt r.underdriveSeen 1 ||| flagAt r.coilFaultSeen 2 ||| flagAt r.coilOcSeen 3 ||| flagAt r.cntOvf 8
  | _ => 0

/-- A write of v clears the W1C fields whose bits are 1. -/
def clearSvRegs (r : SvRegs) (off : Nat) (v : Word) : SvRegs :=
  match off with
  | 0x6E0 => { r with stallSeen := r.stallSeen && !v.getLsbD 0, underdriveSeen := r.underdriveSeen && !v.getLsbD 1, coilFaultSeen := r.coilFaultSeen && !v.getLsbD 2, coilOcSeen := r.coilOcSeen && !v.getLsbD 3, cntOvf := r.cntOvf && !v.getLsbD 8 }
  | _ => r

/-- A configuration image writes the settings of a word. -/
def loadSvRegs (r : SvRegs) (off : Nat) (v : Word) : SvRegs :=
  match off with
  | 0x604 => { r with svIFsMa := v.extractLsb' 0 32 }
  | 0x608 => { r with chopN := v.extractLsb' 0 7, decay := v.extractLsb' 8 2 }
  | 0x60C => { r with hyst := v.extractLsb' 0 32 }
  | 0x610 => { r with tFast := v.extractLsb' 0 13, tBlank := v.extractLsb' 16 13 }
  | 0x614 => { r with ofsShift := v.extractLsb' 0 3 }
  | 0x618 => { r with ofsMax := v.extractLsb' 0 31 }
  | 0x61C => { r with tDriveMax := v.extractLsb' 0 14 }
  | 0x620 => { r with iRun := v.extractLsb' 0 32 }
  | 0x624 => { r with iHold := v.extractLsb' 0 32 }
  | 0x628 => { r with tIdle := v.extractLsb' 0 14 }
  | 0x62C => { r with stepOffset := v.extractLsb' 0 10 }
  | 0x630 => { r with stallThr := v.extractLsb' 0 16, stallN := v.extractLsb' 16 8 }
  | 0x634 => { r with stallMinSpeed := v.extractLsb' 0 32 }
  | 0x638 => { r with stepEncNum := v.extractLsb' 0 32 }
  | 0x63C => { r with stepEncDen := v.extractLsb' 0 32 }
  | 0x640 => { r with coilR0 := v.extractLsb' 0 32 }
  | 0x644 => { r with coilL0 := v.extractLsb' 0 32 }
  | 0x648 => { r with coilR1 := v.extractLsb' 0 32 }
  | 0x64C => { r with coilL1 := v.extractLsb' 0 32 }
  | 0x650 => { r with coil1Mode := v.extractLsb' 0 2, velEn := v.getLsbD 2, measAtEnable := v.getLsbD 3, autoCoef := v.getLsbD 4 }
  | 0x654 => { r with iCoilMax := v.extractLsb' 0 32 }
  | 0x658 => { r with iTripSv := v.extractLsb' 0 32 }
  | 0x65C => { r with ditherF := v.extractLsb' 0 9, ditherWave := v.getLsbD 16 }
  | 0x660 => { r with ditherAmp := v.extractLsb' 0 32 }
  | 0x664 => { r with vMeas := v.extractLsb' 0 32 }
  | 0x668 => { r with tMeas := v.extractLsb' 0 7 }
  | 0x66C => { r with rMin := v.extractLsb' 0 32 }
  | 0x670 => { r with rMax := v.extractLsb' 0 32 }
  | 0x674 => { r with bwCoil := v.extractLsb' 0 32 }
  | 0x678 => { r with tOpen := v.extractLsb' 0 10 }
  | _ => r

/-- The words of a block (R439). -/
def readSdRegs (r : SdRegs) (off : Nat) : Word :=
  match off with
  | 0x000 => fieldAt r.r 0 ||| fieldAt r.clkSel 12 ||| fieldAt r.sampleDly 16 ||| flagAt r.invert 24 ||| flagAt r.windowed 25
  | 0x004 => fieldAt r.sample 0
  | 0x008 => fieldAt r.sampleDt 0
  | 0x00C => fieldAt r.orThr 0
  | 0x010 => fieldAt r.orN 0 ||| fieldAt r.stuckN 16
  | 0x014 => flagAt r.overrange 0 ||| flagAt r.stuck 1 ||| flagAt r.orSeen 8 ||| flagAt r.stuckSeen 9 ||| flagAt r.cntOvf 16
  | 0x018 => fieldAt r.orCount 0
  | 0x01C => fieldAt r.stuckCount 0
  | _ => 0

/-- A write of v clears the W1C fields whose bits are 1. -/
def clearSdRegs (r : SdRegs) (off : Nat) (v : Word) : SdRegs :=
  match off with
  | 0x014 => { r with orSeen := r.orSeen && !v.getLsbD 8, stuckSeen := r.stuckSeen && !v.getLsbD 9, cntOvf := r.cntOvf && !v.getLsbD 16 }
  | _ => r

/-- A configuration image writes the settings of a word. -/
def loadSdRegs (r : SdRegs) (off : Nat) (v : Word) : SdRegs :=
  match off with
  | 0x000 => { r with r := v.extractLsb' 0 9, clkSel := v.extractLsb' 12 3, sampleDly := v.extractLsb' 16 6, invert := v.getLsbD 24 }
  | 0x00C => { r with orThr := v.extractLsb' 0 32 }
  | 0x010 => { r with orN := v.extractLsb' 0 8, stuckN := v.extractLsb' 16 10 }
  | _ => r

/-- The words of a block (R440). -/
def readEncRegs (r : EncRegs) (off : Nat) : Word :=
  match off with
  | 0x000 => fieldAt r.glitch 0 ||| flagAt r.dir 4 ||| flagAt r.zEn 5 ||| fieldAt r.zGate 6 ||| fieldAt r.fbSrc 8
  | 0x004 => r.count.extractLsb' 0 32
  | 0x008 => r.count.extractLsb' 32 32
  | 0x00C => fieldAt r.levels 0
  | 0x010 => r.idxCount.extractLsb' 0 32
  | 0x014 => r.idxCount.extractLsb' 32 32
  | 0x018 => r.idxDt.extractLsb' 0 32
  | 0x01C => r.idxDt.extractLsb' 32 32
  | 0x020 => fieldAt r.idxMode 0 ||| flagAt r.idxLatched 2
  | 0x024 => fieldAt r.illegalCount 0
  | 0x028 => fieldAt r.indexCount 0
  | 0x040 => fieldAt r.bits 0 ||| flagAt r.gray 7 ||| fieldAt r.posLsb 8 ||| fieldAt r.posMsb 16 ||| fieldAt r.errBit 24 ||| flagAt r.errPol 30 ||| flagAt r.errEn 31
  | 0x044 => fieldAt r.ssiHalf 0 ||| fieldAt r.ssiTickDiv 16
  | 0x048 => fieldAt r.tMono 0
  | 0x04C => fieldAt r.jumpMax 0
  | 0x050 => fieldAt r.ssiPf 0
  | 0x054 => fieldAt r.ssiDevDelay 0
  | 0x058 => fieldAt r.failN 0
  | 0x05C => fieldAt r.ssiDrt 0
  | 0x060 => fieldAt r.ssiLen 0
  | 0x064 => r.absCount.extractLsb' 0 32
  | 0x068 => r.absCount.extractLsb' 32 32
  | 0x06C => fieldAt r.rejectCount 0
  | 0x070 => fieldAt r.rebaseCount 0
  | 0x080 => flagAt r.coarse 0 ||| fieldAt r.quadAlign 2
  | 0x084 => fieldAt r.ofsSin 0
  | 0x088 => fieldAt r.ofsCos 0
  | 0x08C => fieldAt r.gainCos 0
  | 0x090 => fieldAt r.ampMin 0
  | 0x094 => fieldAt r.ampMax 0
  | 0x098 => fieldAt r.amp 0
  | 0x09C => fieldAt r.fine 0
  | 0x0C0 => flagAt r.illegalSeen 0 ||| flagAt r.rejectSeen 1 ||| flagAt r.rebaseSeen 2 ||| flagAt r.cntOvf 8
  | _ => 0

/-- A write of v clears the W1C fields whose bits are 1. -/
def clearEncRegs (r : EncRegs) (off : Nat) (v : Word) : EncRegs :=
  match off with
  | 0x0C0 => { r with illegalSeen := r.illegalSeen && !v.getLsbD 0, rejectSeen := r.rejectSeen && !v.getLsbD 1, rebaseSeen := r.rebaseSeen && !v.getLsbD 2, cntOvf := r.cntOvf && !v.getLsbD 8 }
  | _ => r

/-- The upper words that a read of a least significant word captures (R21). -/
def wideEncRegs (off : Nat) : List Nat :=
  match off with
  | 0x004 => [0x008]
  | 0x010 => [0x014]
  | 0x018 => [0x01C]
  | 0x064 => [0x068]
  | _ => []

/-- A configuration image writes the settings of a word. -/
def loadEncRegs (r : EncRegs) (off : Nat) (v : Word) : EncRegs :=
  match off with
  | 0x000 => { r with glitch := v.extractLsb' 0 3, dir := v.getLsbD 4, zEn := v.getLsbD 5, zGate := v.extractLsb' 6 2, fbSrc := v.extractLsb' 8 3 }
  | 0x040 => { r with bits := v.extractLsb' 0 7, gray := v.getLsbD 7, posLsb := v.extractLsb' 8 7, posMsb := v.extractLsb' 16 7, errBit := v.extractLsb' 24 6, errPol := v.getLsbD 30, errEn := v.getLsbD 31 }
  | 0x044 => { r with ssiHalf := v.extractLsb' 0 11, ssiTickDiv := v.extractLsb' 16 5 }
  | 0x048 => { r with tMono := v.extractLsb' 0 7 }
  | 0x04C => { r with jumpMax := v.extractLsb' 0 32 }
  | 0x050 => { r with ssiPf := v.extractLsb' 0 7 }
  | 0x054 => { r with ssiDevDelay := v.extractLsb' 0 10 }
  | 0x058 => { r with failN := v.extractLsb' 0 8 }
  | 0x080 => { r with coarse := v.getLsbD 0, quadAlign := v.extractLsb' 2 2 }
  | 0x084 => { r with ofsSin := v.extractLsb' 0 32 }
  | 0x088 => { r with ofsCos := v.extractLsb' 0 32 }
  | 0x08C => { r with gainCos := v.extractLsb' 0 32 }
  | 0x090 => { r with ampMin := v.extractLsb' 0 32 }
  | 0x094 => { r with ampMax := v.extractLsb' 0 32 }
  | _ => r

/-- The words of a block (R467). -/
def readCapRegs (r : CapRegs) (off : Nat) : Word :=
  match off with
  | 0x000 => fieldAt r.deb 0 ||| fieldAt r.edgeSel 24 ||| flagAt r.invert 26 ||| flagAt r.evtEn 27
  | 0x004 => fieldAt r.latch0Axis 0 ||| fieldAt r.latch1Axis 8 ||| flagAt r.latch0Sp 16 ||| flagAt r.latch1Sp 17
  | 0x008 => flagAt r.level 0 ||| flagAt r.qualLevel 1
  | 0x00C => fieldAt r.edgeCount 0
  | 0x010 => fieldAt r.rawEdgeCount 0
  | 0x014 => fieldAt r.closeEdgeCount 0
  | 0x018 => fieldAt r.latchFailCount 0
  | 0x01C => flagAt r.cntOvf 8
  | _ => 0

/-- A write of v clears the W1C fields whose bits are 1. -/
def clearCapRegs (r : CapRegs) (off : Nat) (v : Word) : CapRegs :=
  match off with
  | 0x01C => { r with cntOvf := r.cntOvf && !v.getLsbD 8 }
  | _ => r

/-- A configuration image writes the settings of a word. -/
def loadCapRegs (r : CapRegs) (off : Nat) (v : Word) : CapRegs :=
  match off with
  | 0x000 => { r with deb := v.extractLsb' 0 24, edgeSel := v.extractLsb' 24 2, invert := v.getLsbD 26, evtEn := v.getLsbD 27 }
  | 0x004 => { r with latch0Axis := v.extractLsb' 0 7, latch1Axis := v.extractLsb' 8 7, latch0Sp := v.getLsbD 16, latch1Sp := v.getLsbD 17 }
  | _ => r

/-- The words of a block (R468). -/
def readMarkRegs (r : MarkRegs) (off : Nat) : Word :=
  match off with
  | 0x000 => fieldAt r.nextSeq 0
  | 0x008 => fieldAt r.consumedSeq 0
  | 0x00C => fieldAt r.fill 0
  | 0x010 => fieldAt r.capLostCount 0
  | 0x014 => flagAt r.cntOvf 8
  | _ => 0

/-- A write of v clears the W1C fields whose bits are 1. -/
def clearMarkRegs (r : MarkRegs) (off : Nat) (v : Word) : MarkRegs :=
  match off with
  | 0x014 => { r with cntOvf := r.cntOvf && !v.getLsbD 8 }
  | _ => r

/-- The words of a block (R469). -/
def readGuRegs (r : GuRegs) (off : Nat) : Word :=
  match off with
  | 0x000 => fieldAt r.guState 0 ||| flagAt r.mode 4
  | 0x004 => fieldAt r.memBase 0
  | 0x008 => fieldAt r.memSize 0
  | 0x00C => fieldAt r.segSize 0
  | 0x010 => fieldAt r.segCount 0 ||| fieldAt r.segHeld 16
  | 0x014 => fieldAt r.sampleSrc 0
  | 0x018 => fieldAt r.div 0
  | 0x01C => fieldAt r.pre 0 ||| fieldAt r.post 16
  | 0x020 => fieldAt r.trigAccepted 0
  | 0x024 => fieldAt r.recordsWritten 0
  | 0x028 => fieldAt r.recordsLost 0
  | 0x02C => fieldAt r.ignoredPretrig 0
  | 0x030 => fieldAt r.ignoredBusy 0
  | 0x034 => fieldAt r.nextRecSeq 0
  | 0x03C => flagAt r.trigLateSeen 0 ||| flagAt r.lostSeen 1 ||| flagAt r.completeSeen 2 ||| flagAt r.cntOvf 8
  | off =>
    if 0x40 ≤ off ∧ off < 0x140 ∧ (off - 0x40) % 4 = 0 then fieldAt (r.segSeq.getD ((off - 0x40) / 4) 0) 0 ||| flagAt (r.segHold.getD ((off - 0x40) / 4) false) 16 ||| flagAt (r.segActive.getD ((off - 0x40) / 4) false) 17 else
    0

/-- A write of v clears the W1C fields whose bits are 1. -/
def clearGuRegs (r : GuRegs) (off : Nat) (v : Word) : GuRegs :=
  match off with
  | 0x03C => { r with trigLateSeen := r.trigLateSeen && !v.getLsbD 0, lostSeen := r.lostSeen && !v.getLsbD 1, completeSeen := r.completeSeen && !v.getLsbD 2, cntOvf := r.cntOvf && !v.getLsbD 8 }
  | _ => r

/-- The words of a block (R469). -/
def readMarkMeasRegs (r : MarkMeasRegs) (off : Nat) : Word :=
  match off with
  | 0x200 => r.lastDist.extractLsb' 0 32
  | 0x204 => r.lastDist.extractLsb' 32 32
  | 0x208 => r.lastDist.extractLsb' 64 32
  | 0x20C => fieldAt r.lastMarkDt 0
  | 0x210 => fieldAt r.markCount 0
  | 0x214 => fieldAt r.gatedCount 0
  | 0x218 => fieldAt r.orphanCount 0
  | 0x21C => fieldAt r.markSeq 0
  | _ => 0

/-- The upper words that a read of a least significant word captures (R21). -/
def wideMarkMeasRegs (off : Nat) : List Nat :=
  match off with
  | 0x200 => [0x204, 0x208]
  | _ => []

/-- The words of a block (R505). -/
def readCalderaRegs (r : CalderaRegs) (off : Nat) : Word :=
  match off with
  | 0x000 => fieldAt r.calState 0 ||| flagAt r.cfgValid 2 ||| flagAt r.cfgChanged 3 ||| flagAt r.cfgReadFault 4 ||| fieldAt r.faultCause 8
  | 0x004 => fieldAt r.safecfgUsed 0 ||| fieldAt r.safecfgLast 16
  | 0x008 => fieldAt r.cfgCrc 0
  | 0x00C => fieldAt r.calFwLevel 0
  | 0x010 => fieldAt r.groupA 0 ||| fieldAt r.groupB 8
  | 0x014 => fieldAt r.tileSto 0 ||| fieldAt r.genToggling 16
  | 0x018 => fieldAt r.chReleased 0 ||| fieldAt r.demand 16 ||| fieldAt r.discLatched 24
  | 0x01C => fieldAt r.crossShort 0 ||| fieldAt r.tpFault 16
  | 0x020 => fieldAt r.sboOn 0 ||| fieldAt r.sboFault 8 ||| fieldAt r.sboEnergised 12
  | 0x024 => fieldAt r.slsLimit 0
  | 0x028 => fieldAt r.snapSeq 0
  | 0x02C => fieldAt r.snapCrc 0
  | 0x030 => fieldAt r.demandCount 0
  | 0x034 => fieldAt r.stoCount 0
  | 0x038 => fieldAt r.discCount 0
  | 0x03C => fieldAt r.xshortCount 0
  | 0x040 => fieldAt r.resetCount 0
  | 0x044 => flagAt r.cntOvf 0
  | off =>
    if 0x80 ≤ off ∧ off < 0xC0 ∧ (off - 0x80) % 4 = 0 then fieldAt (r.safeSpeed.getD ((off - 0x80) / 4) 0) 0 else
    if 0xC0 ≤ off ∧ off < 0x100 ∧ (off - 0xC0) % 4 = 0 then fieldAt (r.safeCount.getD ((off - 0xC0) / 4) 0) 0 else
    0

/-- The words of a block (R527). -/
def readFioRegs (r : FioRegs) (off : Nat) : Word :=
  match off with
  | 0x000 => flagAt r.dir 0 ||| flagAt r.cosRise 1 ||| flagAt r.cosFall 2 ||| flagAt r.cyclicEn 3 ||| flagAt r.failsafe 4 ||| flagAt r.searchExclude 5 ||| fieldAt r.deb 16
  | 0x004 => flagAt r.raw 0 ||| flagAt r.qual 1 ||| flagAt r.cmd 2 ||| flagAt r.applied 3 ||| flagAt r.overload 4 ||| flagAt r.shortVin 5 ||| flagAt r.backfeed 6 ||| flagAt r.curLimit 7 ||| fieldAt r.shutdowns 8 ||| flagAt r.forcedOff 10
  | 0x008 => r.lastEdgeDt.extractLsb' 0 32
  | 0x00C => r.lastEdgeDt.extractLsb' 32 32
  | 0x010 => fieldAt r.edgeCount 0
  | 0x014 => fieldAt r.overloadCount 0
  | 0x018 => fieldAt r.backfeedCount 0
  | 0x01C => flagAt r.overloadSeen 0 ||| flagAt r.shortVinSeen 1 ||| flagAt r.backfeedSeen 2 ||| flagAt r.cntOvf 8
  | _ => 0

/-- A write of v clears the W1C fields whose bits are 1. -/
def clearFioRegs (r : FioRegs) (off : Nat) (v : Word) : FioRegs :=
  match off with
  | 0x01C => { r with overloadSeen := r.overloadSeen && !v.getLsbD 0, shortVinSeen := r.shortVinSeen && !v.getLsbD 1, backfeedSeen := r.backfeedSeen && !v.getLsbD 2, cntOvf := r.cntOvf && !v.getLsbD 8 }
  | _ => r

/-- The upper words that a read of a least significant word captures (R21). -/
def wideFioRegs (off : Nat) : List Nat :=
  match off with
  | 0x008 => [0x00C]
  | _ => []

/-- A configuration image writes the settings of a word. -/
def loadFioRegs (r : FioRegs) (off : Nat) (v : Word) : FioRegs :=
  match off with
  | 0x000 => { r with dir := v.getLsbD 0, cosRise := v.getLsbD 1, cosFall := v.getLsbD 2, cyclicEn := v.getLsbD 3, failsafe := v.getLsbD 4, searchExclude := v.getLsbD 5, deb := v.extractLsb' 16 16 }
  | _ => r

/-- The words of a block (R528). -/
def readFioGroupRegs (r : FioGroupRegs) (off : Nat) : Word :=
  match off with
  | 0x000 => flagAt r.groupOverload 0 ||| fieldAt r.outputsOn 8
  | 0x004 => fieldAt r.groupCurrent 0
  | 0x008 => fieldAt r.groupOlCount 0
  | 0x00C => flagAt r.groupOlSeen 0 ||| flagAt r.cntOvf 8
  | _ => 0

/-- A write of v clears the W1C fields whose bits are 1. -/
def clearFioGroupRegs (r : FioGroupRegs) (off : Nat) (v : Word) : FioGroupRegs :=
  match off with
  | 0x00C => { r with groupOlSeen := r.groupOlSeen && !v.getLsbD 0, cntOvf := r.cntOvf && !v.getLsbD 8 }
  | _ => r

/-- The words of a block (R528). -/
def readFioModuleRegs (r : FioModuleRegs) (off : Nat) : Word :=
  match off with
  | 0x000 => fieldAt r.vinMv 0
  | 0x004 => flagAt r.undervolt 0 ||| flagAt r.linkOk 1 ||| flagAt r.restore 2 ||| flagAt r.searchActive 3 ||| fieldAt r.searchSubject 8
  | 0x008 => fieldAt r.undervoltCount 0
  | 0x00C => fieldAt r.linkCrcErrCount 0
  | 0x010 => fieldAt r.linkFaultCount 0
  | 0x014 => flagAt r.undervoltSeen 0 ||| flagAt r.linkFaultSeen 1 ||| flagAt r.cntOvf 8
  | _ => 0

/-- A write of v clears the W1C fields whose bits are 1. -/
def clearFioModuleRegs (r : FioModuleRegs) (off : Nat) (v : Word) : FioModuleRegs :=
  match off with
  | 0x014 => { r with undervoltSeen := r.undervoltSeen && !v.getLsbD 0, linkFaultSeen := r.linkFaultSeen && !v.getLsbD 1, cntOvf := r.cntOvf && !v.getLsbD 8 }
  | _ => r

/-- The words of a block (R549). -/
def readCanRegs (r : CanRegs) (off : Nat) : Word :=
  match off with
  | 0x000 => fieldAt r.mode 0 ||| fieldAt r.errState 4 ||| flagAt r.ttRunning 6 ||| flagAt r.integrating 7
  | 0x004 => fieldAt r.ntseg1 0 ||| fieldAt r.ntseg2 8 ||| fieldAt r.nsjw 16 ||| fieldAt r.nbrp 24
  | 0x008 => fieldAt r.dtseg1 0 ||| fieldAt r.dtseg2 8 ||| fieldAt r.dsjw 16 ||| fieldAt r.dbrp 24
  | 0x00C => fieldAt r.tdco 0 ||| flagAt r.tdcEn 8 ||| fieldAt r.tdcv 16
  | 0x010 => fieldAt r.tec 0 ||| fieldAt r.recField 16
  | 0x014 => fieldAt r.noAckLimit 0 ||| flagAt r.busoffRecovery 8 ||| flagAt r.busoffFlush 9 ||| flagAt r.txqOrder 10 ||| flagAt r.nomatchField 11 ||| flagAt r.fdEn 12
  | 0x018 => flagAt r.wakeMode 0 ||| fieldAt r.wakeFilt 4
  | 0x01C => fieldAt r.wakeId 0
  | 0x020 => fieldAt r.wakeMask 0
  | 0x024 => fieldAt r.wakeData0 0
  | 0x040 => fieldAt r.bitErrCount 0
  | 0x044 => fieldAt r.stuffErrCount 0
  | 0x048 => fieldAt r.formErrCount 0
  | 0x04C => fieldAt r.crcErrCount 0
  | 0x050 => fieldAt r.ackErrCount 0
  | 0x054 => fieldAt r.rxFrameCount 0
  | 0x058 => fieldAt r.txFrameCount 0
  | 0x05C => fieldAt r.arbLostCount 0
  | 0x060 => fieldAt r.busoffCount 0
  | 0x064 => fieldAt r.nomatchCount 0
  | 0x068 => fieldAt r.wakeErrCount 0
  | 0x080 => fieldAt r.txRequested 0
  | 0x084 => fieldAt r.txPending 0
  | 0x0C0 => flagAt r.passiveSeen 0 ||| flagAt r.busoffSeen 1 ||| flagAt r.rxOvfSeen 2 ||| flagAt r.ttMissedSeen 3 ||| flagAt r.cntOvf 8
  | 0x800 => fieldAt r.nbc 0
  | 0x804 => fieldAt r.bcNs 0
  | 0x808 => r.ttOrigin.extractLsb' 0 32
  | 0x80C => r.ttOrigin.extractLsb' 32 32
  | 0x810 => fieldAt r.cycleNow 0
  | 0x814 => fieldAt r.ttMissedCount 0
  | 0x818 => fieldAt r.ttErrCount 0
  | 0x81C => fieldAt r.ttRestartCount 0
  | off =>
    if 0x88 ≤ off ∧ off < 0xAC ∧ (off - 0x88) % 4 = 0 then fieldAt (r.completeCount.getD ((off - 0x88) / 4) 0) 0 else
    0

/-- A write of v clears the W1C fields whose bits are 1. -/
def clearCanRegs (r : CanRegs) (off : Nat) (v : Word) : CanRegs :=
  match off with
  | 0x0C0 => { r with passiveSeen := r.passiveSeen && !v.getLsbD 0, busoffSeen := r.busoffSeen && !v.getLsbD 1, rxOvfSeen := r.rxOvfSeen && !v.getLsbD 2, ttMissedSeen := r.ttMissedSeen && !v.getLsbD 3, cntOvf := r.cntOvf && !v.getLsbD 8 }
  | _ => r

/-- The upper words that a read of a least significant word captures (R21). -/
def wideCanRegs (off : Nat) : List Nat :=
  match off with
  | 0x808 => [0x80C]
  | _ => []

/-- The words of a block (R549). -/
def readCanFilterRegs (r : CanFilterRegs) (off : Nat) : Word :=
  match off with
  | 0x100 => fieldAt r.fltMatch 0
  | 0x104 => fieldAt r.fltMask 0
  | 0x108 => fieldAt r.fltAction 0 ||| flagAt r.fltEn 2
  | _ => 0

/-- The words of a block (R549). -/
def readCanRxqRegs (r : CanRxqRegs) (off : Nat) : Word :=
  match off with
  | 0x300 => fieldAt r.fill 0 ||| fieldAt r.watermark 8 ||| flagAt r.ovfPolicy 16 ||| flagAt r.locked 17
  | 0x304 => fieldAt r.rxOvfCount 0
  | 0x308 => fieldAt r.nextSeq 0
  | _ => 0

/-- The words of a block (R582). -/
def readPowerRegs (r : PowerRegs) (off : Nat) : Word :=
  match off with
  | 0x000 => fieldAt r.lastReach 0 ||| fieldAt r.lastSources 8
  | 0x004 => fieldAt r.cpErrSource 0
  | 0x008 => fieldAt r.cpErrAddr 0
  | 0x00C => fieldAt r.bootSrc 0 ||| flagAt r.bootFb 3 ||| flagAt r.hostsel 4 ||| flagAt r.clkFb 5 ||| fieldAt r.clkSrc 6 ||| fieldAt r.trimTries 8
  | 0x010 => fieldAt r.poweronCount 0
  | 0x014 => fieldAt r.coldCount 0
  | 0x018 => fieldAt r.cpResetCount 0
  | 0x01C => fieldAt r.brownoutCount 0
  | 0x020 => fieldAt r.kettleTripCount 0
  | 0x024 => fieldAt r.blockResetCount 0
  | 0x02C => flagAt r.saving 0 ||| flagAt r.pfArmed 1 ||| fieldAt r.copiesValid 2 ||| flagAt r.stale 4
  | 0x030 => r.lastSavePour.extractLsb' 0 32
  | 0x034 => r.lastSavePour.extractLsb' 32 32
  | 0x038 => fieldAt r.lastSaveUs 0
  | 0x03C => fieldAt r.vaultWearMax 0
  | 0x040 => fieldAt r.kettleState 0 ||| flagAt r.kettleClass 4 ||| fieldAt r.sensorExcluded 16
  | 0x044 => fieldAt r.tempMax 0
  | 0x048 => fieldAt r.warnCount 0
  | 0x0C0 => flagAt r.pfSeen 0 ||| flagAt r.warnSeen 1 ||| flagAt r.sensorSeen 2 ||| flagAt r.strapSeen 3 ||| flagAt r.v3aSeen 4 ||| flagAt r.cntOvf 8
  | off =>
    if 0x80 ≤ off ∧ off < 0xB0 ∧ (off - 0x80) % 4 = 0 then fieldAt (r.temp.getD ((off - 0x80) / 4) 0) 0 else
    0

/-- A write of v clears the W1C fields whose bits are 1. -/
def clearPowerRegs (r : PowerRegs) (off : Nat) (v : Word) : PowerRegs :=
  match off with
  | 0x0C0 => { r with pfSeen := r.pfSeen && !v.getLsbD 0, warnSeen := r.warnSeen && !v.getLsbD 1, sensorSeen := r.sensorSeen && !v.getLsbD 2, strapSeen := r.strapSeen && !v.getLsbD 3, v3aSeen := r.v3aSeen && !v.getLsbD 4, cntOvf := r.cntOvf && !v.getLsbD 8 }
  | _ => r

/-- The upper words that a read of a least significant word captures (R21). -/
def widePowerRegs (off : Nat) : List Nat :=
  match off with
  | 0x030 => [0x034]
  | _ => []

/-- The words of a block (R583). -/
def readNtcRegs (r : NtcRegs) (off : Nat) : Word :=
  match off with
  | 0x000 => flagAt r.ntcEn 0
  | 0x004 => fieldAt r.ntcRNom 0
  | 0x008 => fieldAt r.ntcBeta 0
  | 0x00C => fieldAt r.ntcRser 0
  | 0x010 => fieldAt r.tDs 0 ||| fieldAt r.tDe 16
  | 0x014 => fieldAt r.ntcTemp 0
  | 0x018 => fieldAt r.derate 0 ||| flagAt r.ntcFault 16
  | 0x01C => flagAt r.derateSeen 0 ||| flagAt r.ntcFaultSeen 1
  | _ => 0

/-- A write of v clears the W1C fields whose bits are 1. -/
def clearNtcRegs (r : NtcRegs) (off : Nat) (v : Word) : NtcRegs :=
  match off with
  | 0x01C => { r with derateSeen := r.derateSeen && !v.getLsbD 0, ntcFaultSeen := r.ntcFaultSeen && !v.getLsbD 1 }
  | _ => r

/-- A configuration image writes the settings of a word. -/
def loadNtcRegs (r : NtcRegs) (off : Nat) (v : Word) : NtcRegs :=
  match off with
  | 0x000 => { r with ntcEn := v.getLsbD 0 }
  | 0x004 => { r with ntcRNom := v.extractLsb' 0 32 }
  | 0x008 => { r with ntcBeta := v.extractLsb' 0 32 }
  | 0x00C => { r with ntcRser := v.extractLsb' 0 32 }
  | 0x010 => { r with tDs := v.extractLsb' 0 16, tDe := v.extractLsb' 16 16 }
  | _ => r

/-- The words of a block (R583). -/
def readVaultPolicyRegs (r : VaultPolicyRegs) (off : Nat) : Word :=
  match off with
  | 0x000 => fieldAt r.vaultPolicy 0 ||| fieldAt r.vaultTol 8
  | _ => 0

/-- A configuration image writes the settings of a word. -/
def loadVaultPolicyRegs (r : VaultPolicyRegs) (off : Nat) (v : Word) : VaultPolicyRegs :=
  match off with
  | 0x000 => { r with vaultPolicy := v.extractLsb' 0 2, vaultTol := v.extractLsb' 8 24 }
  | _ => r

end Sys2Proof.Machine
end

