-- ==== Sys2Proof/Machine/Trace.lean ====
section
/-! DEFINITION. Where a loop's context lies in engine memory, and the trace units' recording (R272 to R275, R303, R304). -/

namespace Sys2Proof.Machine

/-! ### Contexts -/

/-- The loops of a tick entry, each with its place in the mask (R297). -/
def entryLoops (tk : TickRegs) : List (Nat × Fin 96) :=
  (List.range 4).filterMap fun l =>
    if tk.loopMask.getLsbD l then (asFin 96 (tk.firstLoop.toNat + l)).map fun i => (l, i) else none
/-- Word address of the context of the loop at place l of the mask. -/
def loopCtx (tk : TickRegs) (l : Nat) : Nat := tk.tickCtx.toNat + 0x40 * (l + 1)

/-- The engine that runs the loop, the entry and the word address of its context; none for a loop that no entry holds. -/
def loopPlace (s : State) (i : Fin 96) : Option (Fin 32 × Fin 16 × Nat) :=
  let e := s.loops[i].regs.engine.toFin
  let en := s.engines[e]
  (List.finRange 16).findSome? fun k =>
    (entryLoops en.ticks[k].regs).findSome? fun (l, j) => if j = i then some (e, k, loopCtx en.ticks[k].regs l) else none

/-- The loops on an engine, and the axes they belong to. -/
def engineLoops (en : Engine) : List (Fin 96) :=
  ((List.finRange 16).flatMap fun k => (entryLoops en.ticks[k].regs).map (·.2)).eraseDups
def loopAxis (i : Fin 96) : Option (Fin 112) := (loopTile i).map tileAxis
def engineAxes (en : Engine) : List (Fin 112) := ((engineLoops en).filterMap loopAxis).eraseDups
/-- Free loops on the engine. -/
def engineFree (en : Engine) : List (Fin 96) := (engineLoops en).filter fun i => 64 ≤ i.val

def dataWord (en : Engine) (a : Nat) : Word := memWord en.data a
/-- Node n of a loop (R253); 0 while the loop is OFF (R258) or on no entry. -/
def nodeWord (s : State) (i : Fin 96) (n : Nat) : Word :=
  if s.loops[i].regs.loopMode = 3 then 0
  else match loopPlace s i with
    | some (e, _, c) => dataWord s.engines[e] (c + n)
    | none => 0

/-- Words that the staging port writes from address a on; while the entry named is running they wait for its exit
(R305, R307). -/
def stagingWrite (e : Fin 32) (k : Option (Fin 16)) (a : Nat) (ws : List Word) (s : State) : State :=
  modEngine e (fun en =>
    if en.running.isSome && en.running = k then
      { en with deferred := en.deferred ++ (List.range ws.length).map fun i => (a + i, ws.getD i 0) }
    else { en with data := memPutWords en.data a ws }) s

/-- The words that waited are written. -/
def stagingFlush (en : Engine) : Engine :=
  { en with data := en.deferred.foldl (fun m x => memPutWord m x.1 x.2) en.data, deferred := [] }

/-! ### Forwarding between loops (R307, R309) -/

/-- The loop that takes a loop's output: position to velocity, velocity to current, a free loop to its destination. -/
def innerLoop (s : State) (i : Fin 96) : Option (Fin 96 × Bool) :=
  if i.val < 64 then
    if i.val % 4 = 2 then
      let direct : Bool := (loopTile i).any fun t => s.tiles[t].regs.mode = 3 && !s.tiles[t].sv.regs.velEn
      (asFin 96 (if direct then i.val - 2 else i.val - 1)).map (·, false)
    else if i.val % 4 = 1 then (asFin 96 (i.val - 1)).map (·, false)
    else none
  else
    let f := s.loops[i].free
    if f.dest = 1 then (asFin 96 (4 * f.axis.toNat + 1)).map (·, true)
    else if f.dest = 2 then (asFin 96 (4 * f.axis.toNat)).map (·, true)
    else none

/-- The sum of the free-loop trims that reach a loop. -/
def trimSum (s : State) (i : Fin 96) : Word :=
  let xs := ((List.finRange 96).filter fun f => 64 ≤ f.val && innerLoop s f = some (i, true)).foldl
    (fun x f => x + (nodeWord s f 8).toInt) 0
  BitVec.ofInt 32 (max (-(2 : Int) ^ 31) (min (2 ^ 31 - 1) xs))
/-- IN_TRIM of a loop takes the sum of the trims that reach it. -/
def writeTrim (j : Fin 96) (s : State) : State :=
  match loopPlace s j with
  | some (e, k, c) => stagingWrite e (some k) (c + 0x12) [trimSum s j] s
  | none => s
/-- The free loops of an engine stop, and their trims read 0 (R309). -/
def stopFree (e : Fin 32) (s : State) : State :=
  let fs := engineFree s.engines[e]
  let s := fs.foldl (fun s i => modLoop i loopOff s) s
  fs.foldl (fun s i => match innerLoop s i with
    | some (j, true) => writeTrim j s
    | _ => s) s

/-! ### Trace units -/

/-- The word that a selector names (R272). -/
def signalWord (s : State) (sel : Word) : Word :=
  let kind := sel.extractLsb' 28 4
  let unit := (sel.extractLsb' 16 7).toNat
  if kind = 0 then
    match asFin 96 unit with
    | some i => nodeWord s i (sel.extractLsb' 0 4).toNat
    | none => 0
  else if kind = 1 then
    match asFin 112 unit with
    | some a =>
      let ax := s.axes[a]
      match (sel.extractLsb' 0 4).toNat with
      | 0 => nsLo ax.regs.spPos
      | 1 => nsLo ax.regs.spVel
      | 2 => nsLo ax.regs.actPos
      | 3 => nsLo ax.regs.actVel
      | 4 => nsLo ax.lag
      | 5 => nsLo ax.steep.laPos
      | 6 => match asFin 32 (unit - 80) with
        | some i => if 80 ≤ unit then nsLo s.slots[i].regs.laMaster else 0
        | none => 0
      | _ => 0
    | none => 0
  else if kind = 2 then dataWord s.engines[(sel.extractLsb' 16 5).toFin] (sel.extractLsb' 0 14).toNat
  else 0

/-- A record of the selectors may hold a steeped value (R162, R272). -/
def steepedSel (sel : Word) : Bool :=
  sel.extractLsb' 28 4 = 2 || (sel.extractLsb' 28 4 = 1 && (sel.extractLsb' 0 4 = 5 || sel.extractLsb' 0 4 = 6))

def traceSels (tr : Trace) : List Word := tr.regs.signalSel.toList.take tr.nSig
/-- Words of one record, and the records the partition holds. -/
def traceRecLen (tr : Trace) : Nat := 2 + tr.nSig
def traceCap (tr : Trace) : Nat := tr.regs.memSize.toNat / 4 / traceRecLen tr
/-- Word address in acquisition memory of record number r since arming. -/
def traceRecAt (tr : Trace) (r : Nat) : Nat :=
  0x200000 + tr.regs.memBase.toNat / 4 + (if traceCap tr = 0 then 0 else r % traceCap tr * traceRecLen tr)

/-- Whether the selected signal meets condition 1 (R274): above, below, rising or falling through the threshold. -/
def traceSigMet (tr : Trace) (v : Word) : Bool :=
  let t := tr.thr.toInt
  match tr.edge.toNat with
  | 0 => decide (t < v.toInt)
  | 1 => decide (v.toInt < t)
  | 2 => decide (0 < tr.wrote) && decide (tr.lastSig.toInt ≤ t) && decide (t < v.toInt)
  | _ => decide (0 < tr.wrote) && decide (t ≤ tr.lastSig.toInt) && decide (v.toInt < t)

/-- The unit has all its POST samples. -/
def traceDone (u : Fin 4) (s : State) : State :=
  let tr := s.traces[u]
  if tr.regs.trState = 3 && tr.post ≤ tr.sincePost then
    note Ev.traceComplete (srcTrace u) 0 0 0
      (modTrace u (fun tr => { tr with regs := { tr.regs with trState := 4, completeSeen := true } }) s)
  else s

/-- The trigger point is record number r, due at d, with the conditions of the mask (R274). -/
def traceTrigger (u : Fin 4) (r : Nat) (d : Fix) (mask : BitVec 4) (late : Bool) (s : State) : State :=
  let tr := s.traces[u]
  let a := traceRecAt tr r
  let w := memWord s.acq a ||| (1 <<< 17) ||| (mask.zeroExtend 32 <<< 18)
  let s := { s with acq := memPutWord s.acq a w }
  let s := modTrace u (fun tr => { tr with
    sincePost := tr.wrote - 1 - r, evAt := none, cmpAt := none, force := false
    regs := { tr.regs with
      trState := 3, trigSeq := w.extractLsb' 0 16, trigDt := nsOf d, trigLate := tr.regs.trigLate || late } }) s
  traceDone u (note Ev.traceTriggered (srcTrace u) (BitVec.ofNat 32 u.val) (mask.zeroExtend 32) 0 s)

/-- A condition whose sample has passed: the trigger point lies behind, or at the oldest record of the ring; before PRE
samples it is ignored (R274, R275). -/
def traceBehind (u : Fin 4) (t : Fix) (mask : BitVec 4) (s : State) : State :=
  let tr := s.traces[u]
  if tr.regs.trState = 1 then
    modTrace u (fun tr => { tr with regs := { tr.regs with
      ignoredPretrig := satInc tr.regs.ignoredPretrig
      cntOvf := tr.regs.cntOvf || satFull tr.regs.ignoredPretrig } }) s
  else if tr.regs.trState = 2 then
    let old := tr.wrote - tr.dues.length
    match (List.range tr.dues.length).find? fun k => decide (t.toNat ≤ (tr.dues.getD k 0).toNat) with
    | some k =>
      let late := k = 0 && (match tr.lostDue with
        | some d => decide (t.toNat ≤ d.toNat)
        | none => false)
      traceTrigger u (old + k) (tr.dues.getD k 0) mask late s
    | none => modTrace u (fun tr =>
        if mask = 1 then { tr with evAt := some (tr.evAt.getD t) } else { tr with cmpAt := some (tr.cmpAt.getD t) }) s
  else s

/-- One record at the end of a tick that was due at d (R273, R274). -/
def traceRecord (u : Fin 4) (d : Fix) (s : State) : State :=
  let tr := s.traces[u]
  let sels := traceSels tr
  let vals := sels.map (signalWord s)
  let sig := vals.getD tr.sigIdx 0
  let due (t : Option Fix) : Bool := match t with
    | some t => decide (t.toNat ≤ d.toNat)
    | none => false
  let met : BitVec 4 := tr.conds &&& (bitOf (due tr.evAt) 0 ||| bitOf (traceSigMet tr sig) 1 ||| bitOf (due tr.cmpAt) 2
    ||| bitOf tr.force 3)
  let r := tr.wrote
  let head := tr.regs.nextSeq.zeroExtend 32 ||| bitAt (sels.any steepedSel) 16 ||| (BitVec.ofNat 32 tr.nSig <<< 24)
  let full := decide (traceCap tr ≤ tr.dues.length)
  let s := { s with acq := memPutWords s.acq (traceRecAt tr r) (head :: nsLo d :: vals) }
  let s := modTrace u (fun tr => { tr with
    wrote := r + 1, lastSig := sig, sincePost := if tr.regs.trState = 3 then tr.sincePost + 1 else tr.sincePost
    dues := (if full then tr.dues.drop 1 else tr.dues) ++ [d]
    lostDue := if full then tr.dues.head? else tr.lostDue
    regs := { tr.regs with
      nextSeq := tr.regs.nextSeq + 1
      trState := if tr.regs.trState = 1 && tr.pre ≤ r + 1 then 2 else tr.regs.trState
      recordsWritten := satInc tr.regs.recordsWritten
      cntOvf := tr.regs.cntOvf || satFull tr.regs.recordsWritten
      oldestOffset := BitVec.ofNat 32 (if full then (r + 1) % traceCap tr * traceRecLen tr * 4 else 0) } }) s
  if (tr.regs.trState = 1 || tr.regs.trState = 2) && met ≠ 0 then
    if r < tr.pre then
      modTrace u (fun tr => { tr with
        evAt := none, cmpAt := none, force := false
        regs := { tr.regs with
          ignoredPretrig := satInc tr.regs.ignoredPretrig
          cntOvf := tr.regs.cntOvf || satFull tr.regs.ignoredPretrig } }) s
    else traceTrigger u r d met false s
  else traceDone u s
where
  bitOf (b : Bool) (k : Nat) : BitVec 4 := if b then BitVec.ofNat 4 (2 ^ k) else 0

/-- The end of one tick of a loop: every DIV-th is sampled while the unit records. -/
def traceTick (i : Fin 96) (d : Fix) (u : Fin 4) (s : State) : State :=
  let tr := s.traces[u]
  if tr.loop.toNat = i.val && (tr.regs.trState = 1 || tr.regs.trState = 2 || tr.regs.trState = 3) then
    let s := modTrace u (fun tr => { tr with ticks := (tr.ticks + 1) % tr.div }) s
    if s.traces[u].ticks = 0 then traceRecord u d s else s
  else s

end Sys2Proof.Machine
end

