-- ==== Sys2Proof/Machine/Window.lean ====
section
/-! DEFINITION. What the register window reads at each address: the register blocks with the words that are formed from other
state, the memories, and the cyclic image (R21, R99 to R104 and the register rules of the chapters). -/

namespace Sys2Proof.Machine

/-! ### Words formed from other state -/

/-- Image word 0x020 and identity word 0x020 (R101). -/
def globalStatus (s : State) : Word :=
  flagAt (s.tiles.toList.any fun tl => tl.regs.tileState = 3) 0 ||| flagAt (s.tiles.toList.any fun tl => tl.regs.sto) 1
    ||| flagAt (s.power.regs.kettleState ≠ 0) 2 ||| flagAt s.link.started 3 ||| flagAt s.events.empty 4

/-- LOG_HEAD: the log index of the newest event; 0 while the log is empty. -/
def logHead (s : State) : Word :=
  if s.events.empty then 0 else (s.events.log.head?.map (·.idx)).getD (s.events.nextIdx - 1)

/-- T_hold of R29 in ns: 4 us plus the largest debounce of the inputs that raise events. -/
def logHold (s : State) : Nat :=
  let fio := s.fio.chans.toList.map fun c => if c.regs.cosRise || c.regs.cosFall then c.regs.deb.toNat * 1000 else 0
  let cap := s.geyser.caps.toList.map fun c => if c.regs.evtEn then c.regs.deb.toNat * 10 else 0
  4000 + (fio ++ cap).foldl max 0

/-- The axis is in homing. -/
def homing (ax : Axis) : Bool := ax.home.isSome

def softOn (ax : Axis) : Bool := ax.regs.swEn && !ax.regs.kind
def softLo (ax : Axis) : Int := ax.regs.swNeg.toInt * 2 ^ 32
def softHi (ax : Axis) : Int := ax.regs.swPos.toInt * 2 ^ 32
/-- The set-point is at a soft limit, or beyond it. -/
def atSoftLimit (ax : Axis) : Bool :=
  softOn ax && (decide (ax.regs.spPos.toInt ≤ softLo ax) || decide (softHi ax ≤ ax.regs.spPos.toInt))

/-- The axis status word (R186). -/
def axisStatusWord (s : State) (a : Fin 112) : Word :=
  let ax := s.axes[a]
  let loc := ((axisTile a).map fun t => s.tiles[t].regs.localField).getD false
  flagAt ax.enabled 0 ||| flagAt (ax.regs.spVel ≠ 0) 1 ||| flagAt ax.inPosition 2 ||| flagAt ax.homed 3
    ||| flagAt (homing ax) 4 ||| flagAt ax.uncertain 5 ||| flagAt ax.unconfirmed 6 ||| flagAt ax.stopping 7
    ||| flagAt (axisVented s a) 8 ||| flagAt (axisSto s a) 9 ||| flagAt ax.limitPos 10 ||| flagAt ax.limitNeg 11
    ||| flagAt (atSoftLimit ax) 12 ||| flagAt ax.posSaturated 13 ||| flagAt ax.turnsSaturated 14 ||| flagAt ax.fault 15
    ||| fieldAt ax.source 16 ||| flagAt loc 19 ||| flagAt ax.overshoot 20 ||| flagAt ax.limitsDeferred 21
    ||| flagAt ax.regs.kind 22

/-- The earliest target among the pending sets; 0 with none. -/
def nextTarget (s : State) : BitVec 64 :=
  match s.stage.sets with
  | [] => 0
  | x :: xs => xs.foldl (fun m y => if y.target.toNat < m.toNat then y.target else m) x.target

/-! ### Blocks by offset -/

def timeWord (s : State) (o : Nat) : Word :=
  if o = 0x000 then fracOf s.dt else if o = 0x004 then nsLo s.dt else if o = 0x008 then nsHi s.dt
  else if o < 0x100 then readTimeRegs s.time.regs o
  else if o < 0x200 then readCompareRegs (s.compares.getD ((o - 0x100) / 0x10) {}).regs (0x100 + o % 0x10)
  else if o < 0x280 then readPpsRegs (s.pps.getD ((o - 0x200) / 0x10) {}).regs (0x200 + o % 0x10)
  else 0

def stageWord (s : State) (o : Nat) : Word :=
  if o = 0x000 then (pourNum s).extractLsb' 0 32 else if o = 0x004 then (pourNum s).extractLsb' 32 32
  else if o = 0x010 then natWord (hostSets s).length ||| (natWord ((65536 - shadowUsed s) / 1024) <<< 8)
  else if o = 0x030 then (nextTarget s).extractLsb' 0 32 else if o = 0x034 then (nextTarget s).extractLsb' 32 32
  else readStageRegs s.stage.regs o

/-- Word o of the counters of one OCP session (R101).  Session 10 holds sums; DESIGN CHOICE: its CREDITS_IN_USE is the plain sum
of the tunnel sessions' too, which may need more than the six bits of the field (log entry 111). -/
def sessionWord (s : State) (i : Fin 80) (o : Nat) : Word := readSessionRegs s.ocp.sessions[i].regs (0x1100 + o)

def identWord (s : State) (o : Nat) : Word :=
  if o = 0x014 then readIdentRegs s.ocp.ident o ||| flagAt (s.power.bootSel = 3) 7
  else if o = 0x020 then globalStatus s
  else if o = 0x028 then logHead s
  else if o = 0x030 then natWord (min (logHold s) 0xFFFFFFFF)
  else if o = 0x100C || o = 0x101C || o = 0x102C then 0
  else if 0x1100 ≤ o && o < 0x1260 then
    let n := (o - 0x1100) / 0x20
    if n < 10 then ((asFin 80 n).map fun i => sessionWord s i (o % 0x20)).getD 0
    else satSum ((List.finRange 80).filterMap fun i => if 10 ≤ i.val then some (sessionWord s i (o % 0x20)) else none)
  else readIdentRegs s.ocp.ident o
where
  satSum (ws : List Word) : Word := natWord (min ((ws.map (·.toNat)).foldl (· + ·) 0) 0xFFFFFFFF)

/-- The registers that a master slot's axis has (R213). -/
def slotAxisReg (o : Nat) : Bool := o < 0x020 || (0x048 ≤ o && o < 0x060)
def axisWord (s : State) (a : Fin 112) (o : Nat) : Word :=
  if o = 0 then axisStatusWord s a
  else if o < 0x200 then (if a.val < 80 || slotAxisReg o then readAxisRegs s.axes[a].regs o else 0)
  else if o < 0x300 then readFollowRegs s.axes[a].follow o
  else if o < 0x3C0 then
    match asFin 32 (a.val - 80) with
    | some i => if 80 ≤ a.val then readSlotRegs s.slots[i].regs o else 0
    | none => 0
  else readStageSteepRegs s.axes[a].steep o

def loopWord (s : State) (i : Fin 96) (o : Nat) : Word :=
  let ax := (loopAxis i).map fun a => s.axes[a]
  if o < 0x030 then nodeWord s i (o / 4)
  else if o = 0x044 then
    readLoopRegs s.loops[i].regs o ||| flagAt ((ax.map fun x => decide (x.lag ≠ 0)).getD false) 4
  else if o = 0x048 && !(i.val < 64 && i.val % 4 = 2) then 0
  else if 0x1A0 ≤ o && o < 0x1AC then (words96 ((ax.map (·.lag)).getD 0)).getD ((o - 0x1A0) / 4) 0
  else if o = 0x1B0 || o = 0x1B4 then (words64 ((ax.map (·.lagMax)).getD 0)).getD ((o - 0x1B0) / 4) 0
  else readLoopRegs s.loops[i].regs o

def engineWord (s : State) (e : Fin 32) (o : Nat) : Word :=
  let en := s.engines[e]
  if 0x100 ≤ o && o < 0x200 then readTickRegs (en.ticks.getD ((o - 0x100) / 0x10) {}).regs (0x100 + o % 0x10)
  else if o < 0x2000 then readEngineRegs en.regs o
  else if o < 0x3000 then portGet s (engineCluster e) (0x4000 + (o - 0x2000) / 4)
  else if o < 0x8000 then 0
  else if o < 0x10000 then memWord en.prog ((o - 0x8000) / 4)
  else memWord en.data ((o - 0x10000) / 4)

def tileBlockWord (s : State) (t : Fin 16) (o : Nat) : Word :=
  let tl := s.tiles[t]
  if o < 0x400 then readTileRegs tl.regs o
  else if o < 0x500 then readFocRegs tl.foc.regs o
  else if o < 0x600 then readIdentResultRegs tl.foc.ident o
  else if o = 0x684 && tl.regs.mode = 2 then (appliedAddr s t).zeroExtend 32
  else readSvRegs tl.sv.regs o

def feedbackWord (s : State) (o : Nat) : Word :=
  if o < 0x1400 then
    match asFin 160 (o / 0x20) with
    | some c => readSdRegs { s.sds[c].regs with windowed := isWindowed s c } (o % 0x20)
    | none => 0
  else if 0x2000 ≤ o && o < 0x2020 then
    let c := s.sdClks.getD ((o - 0x2000) / 4) {}
    fieldAt c.div 0 ||| flagAt c.en 8
  else if 0x4000 ≤ o && o < 0x5100 then
    let e := (o - 0x4000) / 0x100
    let r := o % 0x100
    if e = 16 && !(r ≤ 0x28 || r = 0xC0) then 0 else readEncRegs (s.encs.getD e {}).regs r
  else 0

def geyserWord (s : State) (o : Nat) : Word :=
  if o < 0x600 then readCapRegs (s.geyser.caps.getD (o / 0x20) {}).regs (o % 0x20)
  else if 0x800 ≤ o && o < 0x820 then readMarkRegs s.geyser.ringRegs (o - 0x800)
  else if 0x2000 ≤ o && o < 0x4000 then
    let u := s.geyser.units.getD ((o - 0x2000) / 0x400) {}
    let r := o % 0x400
    if 0x200 ≤ r && r < 0x300 then readMarkMeasRegs (u.marks.getD ((r - 0x200) / 0x20) {}) (0x200 + r % 0x20)
    else readGuRegs u.regs r
  else if 0x10000 ≤ o && o < 0x20000 then
    ((s.geyser.ring.find? fun x => x.1 = (o - 0x10000) / 0x40).map fun x => x.2.getD (o % 0x40 / 4) 0).getD 0
  else 0

def fioWord (s : State) (o : Nat) : Word :=
  if o < 0x300 then readFioRegs (s.fio.chans.getD (o / 0x20) {}).regs (o % 0x20)
  else if 0x400 ≤ o && o < 0x460 then readFioGroupRegs (s.fio.groups.getD ((o - 0x400) / 0x20) {}) (o % 0x20)
  else if 0x800 ≤ o && o < 0x820 then readFioModuleRegs s.fio.regs (o - 0x800)
  else 0

/-- Word w of the head entry of a receive queue, without the effects of R538. -/
def rxqHead (c : Can) (q : Fin 2) (w : Nat) : Word :=
  match c.entries[q] with
  | [] => if w = 0 then 0x80000000 else 0
  | e :: _ => e.getD w 0

def canWord (s : State) (n : Fin 4) (o : Nat) : Word :=
  let c := canNow s s.cans[n]
  if 0x100 ≤ o && o < 0x300 then readCanFilterRegs (c.filters.getD ((o - 0x100) / 0x10) {}) (0x100 + o % 0x10)
  else if 0x300 ≤ o && o < 0x320 then readCanRxqRegs (c.rxq.getD ((o - 0x300) / 0x10) {}) (0x300 + o % 0x10)
  else if 0x400 ≤ o && o < 0x500 then rxqHead c (Fin.ofNat 2 ((o - 0x400) / 0x80)) (o % 0x80 / 4)
  else readCanRegs c.regs o

def powerWord (s : State) (o : Nat) : Word :=
  if o = 0x028 || o = 0x04C then 0
  else if o < 0x400 then readPowerRegs s.power.regs o
  else if o < 0x600 then readNtcRegs (s.tiles.getD ((o - 0x400) / 0x20) {}).ntc (o % 0x20)
  else if 0x800 ≤ o && o < 0x940 then readVaultPolicyRegs (s.power.policies.getD ((o - 0x800) / 4) {}) 0
  else 0

/-- Word o of a cyclic image buffer (R102). -/
def imageWord (im : CyclicImage) (o : Nat) : Word :=
  if o = 0 then im.pour.extractLsb' 0 32
  else if o = 0xFFC then im.pourEnd
  else if o = 4 then im.pour.extractLsb' 32 32
  else if o = 8 then im.ident
  else if o = 0xC then im.time
  else if 0x40 ≤ o && o < 0xE40 then
    let ax := im.axes.getD ((o - 0x40) / 0x20) {}
    (words96 ax.pos ++ words96 ax.vel ++ [ax.status, ax.applied]).getD (o % 0x20 / 4) 0
  else if o = 0xE40 then im.fioIn.zeroExtend 32
  else if o = 0xE44 then im.fioOut.zeroExtend 32
  else if o = 0xE48 then im.fioFault.zeroExtend 32
  else if o = 0xE4C then fieldAt im.safety 0 ||| fieldAt im.sbo 16
  else if o = 0xE50 then im.cap.extractLsb' 0 32
  else if o = 0xE54 then (im.cap.extractLsb' 32 16).zeroExtend 32
  else if 0xE80 ≤ o && o < 0xF00 then im.outcomes.getD ((o - 0xE80) / 4) 0
  else 0

/-- Word o of a host cyclic input buffer (R104). -/
def inputWord (h : HostInput) (o : Nat) : Word :=
  if o = 0 then h.tag
  else if 0x10 ≤ o && o < 0x410 then h.recs.getD ((o - 0x10) / 4) 0
  else if o = 0x410 then h.fio
  else 0

def cyclicWord (s : State) (o : Nat) : Word :=
  if o = 0 then s.cyclic.pub.zeroExtend 32
  else if 0x10000 ≤ o && o < 0x11000 then imageWord s.cyclic.bufs[0] (o - 0x10000)
  else if 0x20000 ≤ o && o < 0x21000 then imageWord s.cyclic.bufs[1] (o - 0x20000)
  else if 0x80000 ≤ o && o < 0x84000 then inputWord (s.cyclic.inputs.getD ((o - 0x80000) / 0x1000) {}) (o % 0x1000)
  else 0

/-! ### The map (R99) -/

/-- The word at an aligned address; an unmapped one reads 0 (R100). -/
def windowWord (s : State) (a : Nat) : Word :=
  if a < 0x10000 then identWord s a
  else if a < 0x20000 then timeWord s (a - 0x10000)
  else if a < 0x100000 then (if a < 0x21000 then stageWord s (a - 0x20000) else 0)
  else if a < 0x200000 then ((asFin 112 ((a - 0x100000) / 0x400)).map fun x => axisWord s x (a % 0x400)).getD 0
  else if a < 0x210000 then ((asFin 96 ((a - 0x200000) / 0x200)).map fun x => loopWord s x (a % 0x200)).getD 0
  else if a < 0x400000 then
    ((asFin 4 ((a - 0x210000) / 0x1000)).map fun x => readTraceRegs s.traces[x].regs (a % 0x1000)).getD 0
  else if a < 0x1000000 then ((asFin 32 ((a - 0x400000) / 0x20000)).map fun x => engineWord s x (a % 0x20000)).getD 0
  else if a < 0x1010000 then ((asFin 16 ((a - 0x1000000) / 0x1000)).map fun x => tileBlockWord s x (a % 0x1000)).getD 0
  else if a < 0x1100000 then ((asFin 4 ((a - 0x1010000) / 0x100)).map fun x => readDclRegs s.dcls[x].regs (a % 0x100)).getD 0
  else if a < 0x1200000 then feedbackWord s (a - 0x1100000)
  else if a < 0x1300000 then geyserWord s (a - 0x1200000)
  else if a < 0x1400000 then readCalderaRegs s.caldera.regs (a - 0x1300000)
  else if a < 0x1500000 then fioWord s (a - 0x1400000)
  else if a < 0x1600000 then ((asFin 4 ((a - 0x1500000) / 0x10000)).map fun x => canWord s x (a % 0x10000)).getD 0
  else if a < 0x1700000 then
    (if a < 0x1600400 then ((asFin 4 ((a - 0x1600000) / 0x100)).map fun x => readPortRegs s.link.ports[x].regs (a % 0x100)).getD 0
     else if 0x1600800 ≤ a && a < 0x1600900 then readSegmentRegs s.link.seg (a - 0x1600800) else 0)
  else if a < 0x2000000 then powerWord s (a - 0x1700000)
  else if a < 0x8000000 then cyclicWord s (a - 0x2000000)
  else if a < 0x8C00000 then memWord s.acq ((a - 0x8000000) / 4)
  else 0

/-- Words o to o + 4(n - 1) of a block. -/
def wordsOf (f : Nat → Word) (o n : Nat) : List Word := (List.range n).map fun i => f (o + 4 * i)

/-- The block of R566 that an address lies in, by its BLOCK_RESET target. -/
def blockOf (a : Nat) : Option (BitVec 16) :=
  if 0x400000 ≤ a && a < 0x800000 then some (BitVec.ofNat 16 ((a - 0x400000) / 0x20000))
  else if 0x1202000 ≤ a && a < 0x1204000 then some (BitVec.ofNat 16 (0x100 + (a - 0x1202000) / 0x400))
  else if 0x1500000 ≤ a && a < 0x1540000 then some (BitVec.ofNat 16 (0x200 + (a - 0x1500000) / 0x10000))
  else if 0x1600000 ≤ a && a < 0x1600400 then some (BitVec.ofNat 16 (0x300 + (a - 0x1600000) / 0x100))
  else if 0x210000 ≤ a && a < 0x214000 then some (BitVec.ofNat 16 (0x400 + (a - 0x210000) / 0x1000))
  else none

/-- The address lies in a block held in reset. -/
def inResetBlock (s : State) (a : Nat) : Bool :=
  match blockOf a with
  | some b => s.power.blocks.contains b
  | none => false

/-- The upper words that a read of this address captures (R21). -/
def wideWords (a : Nat) : List Nat :=
  let rel (b : Nat) (l : List Nat) : List Nat := l.map fun o => b + o
  let o := a % 0x400
  if a < 0x10000 then rel 0 (wideIdentRegs a)
  else if a = 0x10000 then [0x10004, 0x10008]
  else if a < 0x10100 then rel 0x10000 (wideTimeRegs (a - 0x10000))
  else if a < 0x10200 then rel (a - a % 0x10 - 0x100) (wideCompareRegs (0x100 + a % 0x10))
  else if a < 0x10280 then rel (a - a % 0x10 - 0x200) (widePpsRegs (0x200 + a % 0x10))
  else if a = 0x20000 || a = 0x20030 then [a + 4]
  else if 0x100000 ≤ a && a < 0x11C000 then
    rel (a - o) (if o < 0x200 then wideAxisRegs o else if o < 0x300 then wideFollowRegs o
      else if o < 0x3C0 then wideSlotRegs o else wideStageSteepRegs o)
  else if 0x200000 ≤ a && a < 0x20C000 then
    (if a % 0x200 = 0x1A0 then [a + 4, a + 8] else if a % 0x200 = 0x1B0 then [a + 4] else [])
  else if 0x210000 ≤ a && a < 0x214000 then rel (a - a % 0x1000) (wideTraceRegs (a % 0x1000))
  else if 0x1000000 ≤ a && a < 0x1010000 then rel (a - a % 0x1000) (wideTileRegs (a % 0x1000))
  else if 0x1104000 ≤ a && a < 0x1105100 then rel (a - a % 0x100) (wideEncRegs (a % 0x100))
  else if 0x1202000 ≤ a && a < 0x1204000 && 0x200 ≤ o && o < 0x300 then
    rel (a - o % 0x20 - 0x200) (wideMarkMeasRegs (0x200 + o % 0x20))
  else if 0x1400000 ≤ a && a < 0x1400300 then rel (a - a % 0x20) (wideFioRegs (a % 0x20))
  else if 0x1500000 ≤ a && a < 0x1540000 then rel (a - a % 0x10000) (wideCanRegs (a % 0x10000))
  else if 0x1600000 ≤ a && a < 0x1600400 then rel (a - a % 0x100) (widePortRegs (a % 0x100))
  else if 0x1600800 ≤ a && a < 0x1600900 then rel 0x1600800 (wideSegmentRegs (a - 0x1600800))
  else if 0x1700000 ≤ a && a < 0x1700400 then rel 0x1700000 (widePowerRegs (a - 0x1700000))
  else []

/-- The word that a read returns, with the upper words held (R21): reading a least significant word captures the others, and
the following reads of those return the captured words until the least significant word is read again; without such a read
the word of that moment. -/
def readCapture (a : Nat) (s : State) : Word × State :=
  match s.ocp.wide.find? fun x => x.1 = a with
  | some x => (x.2, s)
  | none =>
    let up := wideWords a
    if up.isEmpty then (windowWord s a, s)
    else (windowWord s a, { s with ocp := { s.ocp with
      wide := (up.map fun b => (b, windowWord s b)) ++ s.ocp.wide.filter fun y => !up.contains y.1 } })

end Sys2Proof.Machine
end

