-- ==== Sys2Proof/Machine/Generator.lean ====
section
/-! DEFINITION. The jerk-limited generator: what one pour can reach, the step toward a goal, and the budget of free steps (R191,
R192, R195, R208, R251).  The spec fixes the limits, the goal and that it is reached, not the trajectory between (log entry 10). -/

namespace Sys2Proof.Machine

/-- n / d rounded up. -/
def divUp (n d : Int) : Int := -((-n) / d)

/-- A point of a set-point: increment since the last pour, velocity, acceleration, in units of 2^-32. -/
structure Point where
  inc : Int
  vel : Int
  acc : Int

/-- Limits of one step: velocity, acceleration while the speed rises, while it falls, jerk. -/
structure GenLim where
  v : Int
  a : Int
  d : Int
  j : Int

/-- What one pour can reach: bounds of acceleration, velocity and increment. -/
structure Box where
  aLo : Int
  aHi : Int
  vLo : Int
  vHi : Int
  pLo : Int
  pHi : Int

/-- The increment of a pour may leave the mean of its end velocities by the acceleration's share. -/
def incSlack (r a b : Int) : Int := divUp (max (a.natAbs : Int) b.natAbs) (r * r)

/-- The bounds from velocity v and acceleration a at r pours a second.  Limits that the axis already exceeds are
approached as fast as the jerk allows. -/
def genBox (l : GenLim) (r v a : Int) : Box :=
  let dj := l.j / r
  let up := if 0 ≤ v then l.a else l.d
  let dn := if v ≤ 0 then l.a else l.d
  let aLo := max (a - dj) (min (-dn) (a + dj))
  let aHi := min (a + dj) (max up (a - dj))
  let v0 := v + min a aLo / r
  let v1 := v + divUp (max a aHi) r
  let vLo := max v0 (min (-l.v) v1)
  let vHi := min v1 (max l.v v0)
  { aLo := aLo, aHi := aHi, vLo := vLo, vHi := vHi
    pLo := min v vLo / r - incSlack r aLo aHi, pHi := divUp (max v vHi) r + incSlack r aLo aHi }

def Box.has (b : Box) (p : Point) : Bool :=
  decide (b.aLo ≤ p.acc) && decide (p.acc ≤ b.aHi) && decide (b.vLo ≤ p.vel) && decide (p.vel ≤ b.vHi)
    && decide (b.pLo ≤ p.inc) && decide (p.inc ≤ b.pHi)

/-- The velocity still gained while an acceleration comes back to zero at the jerk allowed. -/
def unwind (l : GenLim) (r a : Int) : Int :=
  let x := a * a / (2 * l.j) + (a.natAbs : Int) / r
  if 0 ≤ a then x else -x

/-- Braking distance from speed w that keeps within the limits, with room for the pour's grain. -/
def stopDist (l : GenLim) (r w : Int) : Int :=
  if w ≤ 0 then 0 else w * w / (2 * l.d) + w * l.d / l.j + 4 * w / r + 1

/-- Distance in which an axis of speed u and acceleration a comes to rest. -/
def need (l : GenLim) (r u a : Int) : Int :=
  if 0 < a then
    let w := max 0 (u + unwind l r a)
    w * a / l.j + 2 * w / r + stopDist l r w
  else stopDist l r u

/-- The greatest value of [lo, hi] found to pass a test that lo passes, by n halvings. -/
def bisect : Nat → Int → Int → (Int → Bool) → Int
  | 0, lo, _, _ => lo
  | n + 1, lo, hi, ok => let m := (lo + hi) / 2; if ok m then bisect n m hi ok else bisect n lo m ok

/-- The speed at which an axis at distance e from its goal can still stop at it, with speed u and acceleration a now. -/
def seekVel (l : GenLim) (r u a e : Int) : Int :=
  let e := if 0 < a then let w := max 0 (u + unwind l r a); e - (w * a / l.j + 2 * w / r) else e
  if e ≤ 0 then 0
  else if stopDist l r l.v ≤ e then l.v
  else max 1 (bisect 128 0 l.v fun w => decide (stopDist l r w ≤ e))

/-- Velocity that an axis comes to when its next acceleration is x and then falls to zero. -/
def endVel (l : GenLim) (r v a x : Int) : Int := v + (a + x) / (2 * r) + unwind l r x

/-- The acceleration of the next pour that leads most directly to velocity vt without passing it. -/
def seekAcc (l : GenLim) (r v a vt : Int) : Int :=
  let b := genBox l r v a
  if endVel l r v a b.aHi ≤ vt then b.aHi
  else if vt ≤ endVel l r v a b.aLo then b.aLo
  else if v ≤ vt then bisect 128 b.aLo b.aHi fun x => decide (endVel l r v a x ≤ vt)
  else -bisect 128 (-b.aHi) (-b.aLo) fun x => decide (vt ≤ endVel l r v a (-x))

/-- What a step leads to: a point, and whether its position counts (a target, a moving source) or its velocity alone. -/
structure Aim where
  goal : Point
  fixed : Bool

/-- Distances to the positions that the set-point must not pass, upward and downward (R195). -/
structure Walls where
  hi : Option Int := none
  lo : Option Int := none

/-- Distance to the goal of an axis that keeps the goal's velocity. -/
def Aim.gap (m : Aim) (r : Int) : Int := m.goal.inc - m.goal.vel / r
/-- Limits of the approach to a goal: one that moves is approached under the smaller of the two accelerations. -/
def Aim.lim (m : Aim) (l : GenLim) : GenLim := if m.goal.vel = 0 then l else { l with d := min l.a l.d }

/-- A velocity toward a wall ends at it: the aim becomes the wall where the axis must slow down for it (R195). -/
def Aim.within (m : Aim) (l : GenLim) (r v a : Int) (w : Walls) : Aim :=
  let up := w.hi.filter fun h => !m.fixed && decide (0 < m.goal.vel) && decide (seekVel l r v a h < m.goal.vel)
  let dn := w.lo.filter fun h => !m.fixed && decide (m.goal.vel < 0) && decide (seekVel l r (-v) (-a) h < -m.goal.vel)
  match up, dn with
  | some h, _ => { goal := ⟨h, 0, 0⟩, fixed := true }
  | none, some h => { goal := ⟨-h, 0, 0⟩, fixed := true }
  | none, none => m

/-- The direct step toward an aim. -/
def genDirect (l : GenLim) (r v a : Int) (m : Aim) : Point :=
  let b := genBox l r v a
  let g := m.gap r
  let sg : Int := if 0 ≤ g then 1 else -1
  let vt := if m.fixed then clampInt (-l.v) l.v (m.goal.vel + sg * seekVel (m.lim l) r (sg * (v - m.goal.vel)) (sg * a) (sg * g))
    else m.goal.vel
  let a1 := seekAcc l r v a vt
  let v1 := clampInt b.vLo b.vHi (v + (a + a1) / (2 * r))
  let up := if m.fixed then decide (0 < g) else decide (0 < v + v1)
  ⟨if up then divUp (v + v1) (2 * r) else (v + v1) / (2 * r), v1, a1⟩

/-- A value in [lo, hi] from a free number; lo where the range is empty. -/
def pick (n : Nat) (lo hi : Int) : Int := if lo ≤ hi then lo + (n : Int) % (hi - lo + 1) else lo

/-- One step within the bounds, as the generator pleases: a free value. -/
def genFree (b : Box) (r v a : Int) (free : Nat → Nat) : Point :=
  let a1 := pick (free 0) b.aLo b.aHi
  let v1 := pick (free 1) (max b.vLo (v + min a a1 / r)) (min b.vHi (v + divUp (max a a1) r))
  let sl := incSlack r a a1
  ⟨pick (free 2) (min v v1 / r - sl) (divUp (max v v1) r + sl), v1, a1⟩

/-- A step that leaves the aim attainable: its speed stays within V while the acceleration comes back, it can still stop at
the goal and before either wall, and where velocity is the goal it does not lead away from it. -/
def stepOk (l : GenLim) (r v : Int) (m : Aim) (w : Walls) (p : Point) : Bool :=
  let last := p.vel + unwind l r p.acc
  let speed := decide ((last.natAbs : Int) ≤ l.v) || decide (p.vel * p.acc ≤ 0)
  let room (h : Int) (vel acc : Int) : Bool := decide (need l r vel acc ≤ h)
  let goal :=
    if m.fixed then
      let g := m.gap r
      let sg : Int := if 0 ≤ g then 1 else -1
      room (sg * (g - (p.inc - m.goal.vel / r))) (sg * (p.vel - m.goal.vel)) (sg * p.acc)
    else if v ≤ m.goal.vel then decide (v ≤ p.vel) && decide (last ≤ m.goal.vel)
    else decide (p.vel ≤ v) && decide (m.goal.vel ≤ last)
  speed && goal && w.hi.all (fun h => room (h - p.inc) p.vel p.acc) && w.lo.all (fun h => room (h + p.inc) (-p.vel) (-p.acc))

/-- One step toward an aim; the flag says that the step ends on it.  It ends on it where the axis rests there already, and where
the goal lies in the bounds and the step is eager, its budget of free steps is spent, or the generator so chooses; else it is a free
step that leaves the aim attainable while the budget lasts, and the direct step after. -/
def genTo (l : GenLim) (r v a : Int) (m : Aim) (w : Walls) (budget : Nat) (eager : Bool) (free : Nat → Nat) : Point × Bool :=
  let b := genBox l r v a
  if v = m.goal.vel && a = m.goal.acc && m.goal.inc * r = v then (m.goal, true)
  else if b.has m.goal && (eager || budget = 0 || free 3 % 2 = 1) then (m.goal, true)
  else
    let p := genFree b r v a free
    (if budget ≠ 0 && stepOk l r v m w p then p else genDirect l r v a m, false)

/-- A step toward a velocity; the flags say that it is reached with acceleration zero, and that a wall took its place. -/
def genVel (l : GenLim) (r v a vt : Int) (w : Walls) (budget : Nat) (free : Nat → Nat) : Point × Bool × Bool :=
  if v = vt && a = 0 && vt = 0 then (⟨0, 0, 0⟩, true, false)
  else
    let inc := pick (free 4) (min v vt / r - incSlack r a 0) (divUp (max v vt) r + incSlack r a 0)
    let m := ({ goal := ⟨inc, vt, 0⟩, fixed := false } : Aim).within l r v a w
    if v = vt && a = 0 && !m.fixed then (⟨pick (free 5) (v / r) (divUp v r), v, 0⟩, true, false)
    else
      let (p, landed) := genTo l r v a m w budget false free
      (p, landed, m.fixed)

/-- The free numbers of an axis's step at the coming pour: the same in every steep of that pour, and at the pour itself. -/
def stepFree (s : State) (a : Fin 112) (k : Nat) : Nat := Config.freeStep s.genSeed a.val k

/-- What is left of the budget of free steps: a new one, of unknown size, begins where a motion ends. -/
def spend (a : Fin 112) (landed : Bool) (s : State) : State :=
  modAxis a (fun ax => { ax with genLeft := if landed then stepFree s a 6 else ax.genLeft - 1 }) s

end Sys2Proof.Machine
end

