-- ==== Sys2Proof/Machine/Motion.lean ====
section
/-! DEFINITION. How positions and set-points move at a pour: the ends of the two axis kinds, the profile generator, STOP ramps,
the loop-input limiter and the passes of a homing run (R180 to R183, R191 to R196, R199 to R208, R251, R252). -/

namespace Sys2Proof.Machine

/-- Pours a second; 10^9 / L, which L divides exactly (R54). -/
def pourRate (s : State) : Int := if pourLen s = 0 then 1 else ((10 ^ 9 / pourLen s : Nat) : Int)
/-- An increment in units of 2^-32 count as a field of the state holds it. -/
def inc128 (x : Int) : BitVec 128 := BitVec.ofInt 128 x
def srcAx (a : Fin 112) : BitVec 16 := srcAxis a

/-! ### Positions (R182, R183, R611) -/

/-- M in units of 2^-32 count. -/
def modRaw (ax : Axis) : Int := (ax.regs.modulus.toNat : Int) * 2 ^ 32
/-- The unwrapped position in units of 2^-32 count. -/
def unwrapped (ax : Axis) : Int :=
  if ax.regs.kind then ax.regs.turns.toInt * modRaw ax + ax.regs.actPos.toInt
  else ax.regs.actPos.toInt + ax.regs.posExcess.toInt * 2 ^ 32
def linMax : Int := 2 ^ 95 - 1
def linMin : Int := -2 ^ 95
/-- The whole counts of a linear position that lie beyond its range (R182, log entry 9). -/
def excessOf (u : Int) : Int :=
  if linMax < u then divUp (u - linMax) (2 ^ 32) else if u < linMin then -(divUp (linMin - u) (2 ^ 32)) else 0
/-- x reduced into (-M / 2, M / 2] on a modulo axis. -/
def shortWay (ax : Axis) (x : Int) : Int :=
  if ax.regs.kind then
    let m := modRaw ax
    let r := x % m
    if m < 2 * r then r - m else r
  else x

/-- POS_LIMIT on an axis (R182). -/
def raisePosLimit (a : Fin 112) (s : State) : State :=
  raise Ev.posLimit (srcAxis a) s.axes[a].clsPosLimit false 0 0 0 [a]
    (modAxis a (fun ax => { ax with posSaturated := true, regs := { ax.regs with posLimitSeen := true } }) s)

/-- TURNS_SATURATED on an axis (R183). -/
def raiseTurnsLimit (a : Fin 112) (s : State) : State :=
  if s.axes[a].turnsSaturated then s
  else note Ev.turnsLimit (srcAxis a) 0 0 0 (modAxis a (fun ax => { ax with turnsSaturated := true }) s)

/-- The turn count lies outside its 64 bits. -/
def turnsOver (t : Int) : Bool := decide (t < -2 ^ 63) || decide (2 ^ 63 - 1 < t)

/-- The actual position takes an increment, in units of 2^-32 count. -/
def advanceAct (a : Fin 112) (inc : Int) (s : State) : State :=
  let ax := s.axes[a]
  if ax.regs.kind then
    let p := ax.regs.actPos.toInt + inc
    let t := ax.regs.turns.toInt + p / modRaw ax
    let s := modAxis a (fun ax => { ax with
      regs := { ax.regs with actPos := fixRaw (p % modRaw ax), turns := sat64 t } }) s
    if turnsOver t then raiseTurnsLimit a s else s
  else
    let u := unwrapped ax + inc
    let e := excessOf u
    let s := modAxis a (fun ax => { ax with
      homed := ax.homed && e = 0
      regs := { ax.regs with actPos := fixRaw (u - e * 2 ^ 32), posExcess := sat64 e } }) s
    if e ≠ 0 && ax.regs.posExcess = 0 then raisePosLimit a s else s

/-- The set-point takes a point.  On a linear axis it stops at the ends of the range; what a source's increment leaves
untaken there stays in LIMITER_LAG (R182).  A virtual axis has its set-point as its position. -/
def advanceSp (a : Fin 112) (p : Point) (fromSource : Bool) (s : State) : State :=
  let ax := s.axes[a]
  let u := ax.regs.spPos.toInt + p.inc
  let c := if ax.regs.kind then u else clampInt linMin linMax u
  let hit := decide (c ≠ u)
  let took := c - ax.regs.spPos.toInt
  let s := modAxis a (fun ax => { ax with
    dSp := inc128 took
    lag := if fromSource then ax.lag + fixRaw (u - c) else ax.lag
    regs := { ax.regs with
      spPos := if ax.regs.kind then fixRaw (c % modRaw ax) else fixRaw c
      spVel := if hit then 0 else fixRaw p.vel
      spAcc := if hit then 0 else fixRaw p.acc } }) s
  let s := if hit && (took ≠ 0 || !ax.posSaturated) then raisePosLimit a s else s
  if 16 ≤ a.val then
    advanceAct a took (modAxis a (fun ax => { ax with dAct := inc128 took, regs := { ax.regs with actVel := ax.regs.spVel } }) s)
  else s

/-- The set-point stands still for this pour. -/
def standSp (a : Fin 112) (s : State) : State := advanceSp a ⟨0, 0, 0⟩ false s

/-! ### Re-expression and re-reference (R205, R611) -/

/-- The axis's position becomes u, unwrapped, in the kind and modulus that it has now. -/
def placeAt (a : Fin 112) (u : Int) (s : State) : State :=
  modAxis a (fun ax =>
    if ax.regs.kind then
      let t := u / modRaw ax
      { ax with
        posSaturated := false, turnsSaturated := turnsOver t
        regs := { ax.regs with actPos := fixRaw (u % modRaw ax), turns := sat64 t, posExcess := 0 } }
    else
      let e := excessOf u
      { ax with
        posSaturated := decide (e ≠ 0), turnsSaturated := false
        regs := { ax.regs with actPos := fixRaw (u - e * 2 ^ 32), turns := 0, posExcess := sat64 e } }) s

/-- Absolute position targets that pending sets hold for the axis are out of date (R205). -/
def staleTargets (a : Fin 112) (s : State) : State :=
  { s with stage := { s.stage with sets := s.stage.sets.map fun x => { x with cmds := x.cmds.map fun c =>
      if c.op = 0x0408 && c.p.target.toNat = a.val && (par c.p 3 = 0) then { c with stale := true } else c } } }

/-- The position and every position set-point of the axis shift by d (R205). -/
def rereference (a : Fin 112) (d : Int) (s : State) : State :=
  let ax := s.axes[a]
  let u := unwrapped ax + d
  let sp := ax.regs.spPos.toInt + d
  let place (x : Int) : Int := if ax.regs.kind then x % modRaw ax else clampInt linMin linMax x
  let wrap (x : Int) : Fix := fixRaw (place x)
  let shift := place u - unwrapped ax
  staleTargets a (modAxis a (fun ax => { ax with
    homed := true, uncertain := false, posSaturated := false, turnsSaturated := false
    posHist := ax.posHist.map fun h => { h with u := h.u + shift, sp := h.sp + shift }
    regs := { ax.regs with actPos := wrap u, spPos := wrap sp, turns := 0, posExcess := 0 } }) s)

/-! ### What limits a motion (R190, R191, R195, R196) -/

def axisVel (ax : Axis) : Int := ax.regs.spVel.toInt
def axisAcc (ax : Axis) : Int := ax.regs.spAcc.toInt
def maxima (ax : Axis) : Limits := { v := ax.regs.vMax, a := ax.regs.aMax, dec := ax.regs.decMax, j := ax.regs.jMax }
/-- The maxima that govern the motion now: the old ones while a ramp finishes under them (R196). -/
def liveMaxima (ax : Axis) : Limits := if ax.limitsDeferred then ax.oldLimits else maxima ax
def genOf (l : Limits) : GenLim := { v := l.v.toInt, a := l.a.toInt, d := l.dec.toInt, j := l.j.toInt }
/-- Limits of a move: those it names, else the axis's. -/
def moveLim (ax : Axis) (m : Move) : GenLim :=
  let l := liveMaxima ax
  genOf { v := if m.v = 0 then l.v else m.v, a := if m.a = 0 then l.a else m.a
          dec := if m.dec = 0 then l.dec else m.dec, j := if m.j = 0 then l.j else m.j }
/-- The generator is reducing the speed (R196). -/
def decelerating (ax : Axis) : Bool := decide (axisVel ax * axisAcc ax < 0)

/-! ### Soft limits (R195) -/

/-- Distances from the set-point to the soft limits. -/
def walls (ax : Axis) : Walls :=
  let sp := ax.regs.spPos.toInt
  if softOn ax then { hi := some (max 0 (softHi ax - sp)), lo := some (max 0 (sp - softLo ax)) } else {}
/-- The generator commands no position beyond a soft limit: where a change of limits or of target in motion leaves it no way to
stop before one, it stops there (R195, log entry 10). -/
def softStop (ax : Axis) (p : Point) : Point :=
  let sp := ax.regs.spPos.toInt
  if softOn ax && decide (0 < p.inc) && decide (softHi ax < sp + p.inc) then ⟨max 0 (softHi ax - sp), 0, 0⟩
  else if softOn ax && decide (p.inc < 0) && decide (sp + p.inc < softLo ax) then ⟨min 0 (softLo ax - sp), 0, 0⟩
  else p

/-- SOFT_LIMIT where a set-point from a source crosses a limit. -/
def softCheck (a : Fin 112) (before : Int) (s : State) : State :=
  let ax := s.axes[a]
  let sp := ax.regs.spPos.toInt
  let cross := (decide (before ≤ softHi ax) && decide (softHi ax < sp)) || (decide (softLo ax ≤ before) && decide (sp < softLo ax))
  if softOn ax && cross then
    raise Ev.softLimit (srcAxis a) ax.clsSoft false 0 0 0 [a] (modAxis a (fun ax => { ax with regs := { ax.regs with
      limitSeen := true, limitHitCount := satInc ax.regs.limitHitCount
      cntOvf := ax.regs.cntOvf || satFull ax.regs.limitHitCount } }) s)
  else s

/-! ### Moves and ramps -/

/-- A position move has reached its target (R191). -/
def moveDone (a : Fin 112) (s : State) : State :=
  note Ev.moveDone (srcAxis a) 0 0 0 (modAxis a (fun ax => { ax with
    move := none
    regs := { ax.regs with
      moveDoneCount := satInc ax.regs.moveDoneCount, cntOvf := ax.regs.cntOvf || satFull ax.regs.moveDoneCount } }) s)

/-- PROFILE_OVERSHOOT, once in a move (R192). -/
def overshoot (a : Fin 112) (s : State) : State :=
  if s.axes[a].overshoot then s
  else note Ev.profileOvershoot (srcAxis a) 0 0 0 (modAxis a (fun ax => { ax with
    overshoot := true
    regs := { ax.regs with
      overshootSeen := true, overshootCount := satInc ax.regs.overshootCount
      cntOvf := ax.regs.cntOvf || satFull ax.regs.overshootCount } }) s)

/-- One pour of a move (R191, R195).  A position move overshoots where the set-point passes the target, or leaves it again. -/
def movePour (a : Fin 112) (m : Move) (s : State) : State :=
  let ax := s.axes[a]
  let r := pourRate s
  match m.kind with
  | .position =>
    let left := m.left.toInt
    let (p, landed) := genTo (moveLim ax m) r (axisVel ax) (axisAcc ax) { goal := ⟨left, 0, 0⟩, fixed := true } (walls ax)
      ax.genLeft false (stepFree s a)
    let s := spend a landed (advanceSp a (softStop ax p) false s)
    if landed then moveDone a s
    else
      let rest := left - s.axes[a].dSp.toInt
      let s := modAxis a (fun ax => { ax with move := some { m with left := inc128 rest } }) s
      if decide (left * rest < 0) || (left = 0 && rest ≠ 0) then overshoot a s else s
  | _ =>
    let stop := m.kind = .stop
    let vt := if stop then 0 else m.target.toInt
    let l := moveLim ax m
    let (p, landed, wall) := genVel (if stop then { l with a := 0 } else l) r (axisVel ax) (axisAcc ax) vt (walls ax)
      ax.genLeft (stepFree s a)
    let s := spend a landed (advanceSp a (softStop ax p) false s)
    if landed && (wall || vt = 0) then modAxis a (fun ax => { ax with move := none }) s else s

/-- One pour of a STOP ramp (R208): at standstill a stop of fault origin begins its hold, one of AXIS_DISABLE or of a slot
disables the axis. -/
def rampPour (a : Fin 112) (rp : StopRamp) (s : State) : State :=
  let s := modAxis a (fun ax => { endFollow ax with move := none, next := none }) s
  let ax := s.axes[a]
  let (p, landed, _) := genVel { v := max ax.regs.vMax.toInt (axisVel ax).natAbs, a := 0, d := rp.dec.toInt, j := rp.j.toInt }
    (pourRate s) (axisVel ax) (axisAcc ax) 0 {} ax.genLeft (stepFree s a)
  let s := spend a landed (advanceSp a p false s)
  if !landed then s
  else if ax.slotStop then disableAxis a s
  else if rp.fault then modAxis a (fun ax => { ax with ramp := none, stopping := false, holdSince := some s.dt }) s
  else if rp.disable then disableAxis a s
  else modAxis a (fun ax => { ax with ramp := none, stopping := false }) s

/-! ### The loop-input limiter (R251, R252) -/

/-- LIMITER_LAG in whole counts, toward zero. -/
def lagCounts (x : Int) : Word := sat32 (if 0 ≤ x then x / 2 ^ 32 else -((-x) / 2 ^ 32))
def lagOver (ax : Axis) (x : Int) : Bool := decide ((ax.lagMax.toNat : Int) * 2 ^ 32 < x.natAbs)

/-- One pour of a source: its increment passes unchanged within the limits, else the set-point follows it within them, and meets
it at the first pour at which they let it. -/
def limiterPour (a : Fin 112) (inc : Int) (s : State) : State :=
  let ax := s.axes[a]
  let r := pourRate s
  let v := axisVel ax
  let acc := axisAcc ax
  let lag := ax.lag.toInt
  let sv := inc * r
  let sa := (sv - v) * r
  let l := genOf (liveMaxima ax)
  let aMax := if v.natAbs ≤ sv.natAbs then l.a else l.d
  let pass := lag = 0 && decide ((sv.natAbs : Int) ≤ l.v) && decide ((sa.natAbs : Int) ≤ aMax)
    && decide ((((sa - acc) * r).natAbs : Int) ≤ l.j)
  let b := genBox l r v acc
  let (p, on) := if pass then ((⟨inc, sv, sa⟩ : Point), true)
    else genTo l r v acc { goal := ⟨lag + inc, sv, clampInt b.aLo b.aHi sa⟩, fixed := true } {} ax.genLeft true (stepFree s a)
  let before := ax.regs.spPos.toInt
  let s := modAxis a (fun ax => { ax with lag := fixRaw (lag + inc - p.inc), limitsDeferred := false }) (spend a on s)
  let s := softCheck a before (advanceSp a p true s)
  let now := s.axes[a].lag.toInt
  if lagOver ax now then
    if lagOver ax lag then s else raise Ev.followLag (srcAxis a) ax.clsLag true (lagCounts now) 0 0 [a] s
  else clearCond Ev.followLag [a] s

/-! ### Homing passes (R199 to R202, R205 to R207) -/

/-- Homing ends failed with a cause, and the axis stops (R207). -/
def homeFail (a : Fin 112) (cause : BitVec 8) (s : State) : State := stopAxis a (failHoming a cause s)

/-- Signed velocity of the pass in progress. -/
def homeVel (ax : Axis) (h : HomeRun) : Int :=
  let dir (v : Fix) (pos : Bool) : Int := if pos then v.toInt else -v.toInt
  let hard := h.method = 9 || h.method = 10
  match ax.regs.homePhase.toNat with
  | 1 => dir ax.regs.vCreep (!h.dirPos)
  | 2 => dir (if hard then ax.regs.vCreep else ax.regs.vSearch) h.dirPos
  | 3 => dir (if hard then ax.regs.vCreep else ax.regs.vSearch) (!h.dirPos)
  | 4 => dir ax.regs.vCreep h.dirPos
  | 5 => if h.leaving then dir ax.regs.vCreep (!h.dirPos) else 0
  | _ => 0

/-- A new phase of a homing run begins here. -/
def homePhase (a : Fin 112) (ph : BitVec 4) (f : HomeRun → HomeRun) (s : State) : State :=
  modAxis a (fun ax => { ax with
    home := ax.home.map fun h => f { h with passStart := fixRaw (unwrapped ax) }
    regs := { ax.regs with homePhase := ph } }) s

/-- How far the axis stands behind the reference edge, against the search direction. -/
def behindEdge (ax : Axis) (h : HomeRun) : Int :=
  let d := (fixRaw (unwrapped ax) - h.edge).toInt
  if h.dirPos then -d else d

/-- Homing ends: the axis stands still after its re-reference (R205). -/
def homingDone (a : Fin 112) (h : HomeRun) (s : State) : State :=
  note Ev.homingDone (srcAxis a) (h.method.zeroExtend 32) 0 0 (modAxis a (fun ax => { ax with
    home := none
    regs := { ax.regs with
      homePhase := 6, homeCount := satInc ax.regs.homeCount, cntOvf := ax.regs.cntOvf || satFull ax.regs.homeCount } }) s)

/-- What the position reached ends: the return, the travel allowed, the run. -/
def homeProgress (a : Fin 112) (h : HomeRun) (s : State) : State :=
  let ax := s.axes[a]
  let travel := (fixRaw (unwrapped ax) - h.passStart).toInt.natAbs
  let moving := decide (1 ≤ ax.regs.homePhase.toNat) && decide (ax.regs.homePhase.toNat ≤ 4) && !h.referenced
  if moving && ax.regs.maxTravel ≠ 0 && decide (ax.regs.maxTravel.toInt * 2 ^ 32 ≤ (travel : Int)) then homeFail a 3 s
  else if ax.regs.homePhase = 3 && decide (ax.regs.backoff.toInt * 2 ^ 32 ≤ behindEdge ax h) then
    if h.method = 9 || h.method = 10 then homePhase a 5 id s else homePhase a 4 (fun h => { h with edgeSeen := false }) s
  else if ax.regs.homePhase = 5 && !h.leaving && h.referenced && ax.regs.spVel = 0 && ax.regs.spAcc = 0 then homingDone a h s
  else s

/-- One pour of a homing run. -/
def homePour (a : Fin 112) (h : HomeRun) (s : State) : State :=
  let ax := s.axes[a]
  let vt := homeVel ax h
  let acc := ax.regs.aHome.toInt
  let (p, landed, _) := genVel { v := max (vt.natAbs : Int) (axisVel ax).natAbs, a := acc, d := acc, j := (liveMaxima ax).j.toInt }
    (pourRate s) (axisVel ax) (axisAcc ax) vt (walls ax) ax.genLeft (stepFree s a)
  homeProgress a h (spend a landed (advanceSp a (softStop ax p) false s))

/-! ### Profile source -/

/-- The unwrapped set-point of a modulo axis, by way of its position. -/
def spUnwrapped (ax : Axis) : Int :=
  if ax.regs.kind then unwrapped ax + shortWay ax (ax.regs.spPos.toInt - ax.regs.actPos.toInt) else ax.regs.spPos.toInt
/-- Travel of a position move that starts from the set-point as it stands (R191, R194). -/
def moveTravel (ax : Axis) (m : Move) : Int :=
  let t := m.target.toInt
  let sp := ax.regs.spPos.toInt
  if m.rel then t
  else if !ax.regs.kind then t - sp
  else match m.dir.toNat with
    | 0 => shortWay ax (t - sp)
    | 1 => (t - sp) % modRaw ax
    | 2 => -((sp - t) % modRaw ax)
    | _ => m.turns.toInt * modRaw ax + t - spUnwrapped ax
/-- TARGET of a move. -/
def moveTarget (ax : Axis) (m : Move) : Fix :=
  if m.kind = .position && m.rel then
    let x := ax.regs.spPos.toInt + m.target.toInt
    if ax.regs.kind then fixRaw (x % modRaw ax) else fixRaw (clampInt linMin linMax x)
  else m.target

/-- The move that took effect at this pour starts from the set-point now poured (R191, R192, R194). -/
def installNext (a : Fin 112) (s : State) : State :=
  match s.axes[a].next with
  | none => s
  | some m =>
    let replaced : Bool := s.axes[a].move.any fun o => o.kind = .position
    modAxis a (fun ax => { ax with
      next := none, move := some { m with left := inc128 (moveTravel ax m) }, overshoot := false, limitsDeferred := false
      regs := { ax.regs with
        target := moveTarget ax m
        moveReplacedCount := if replaced then satInc ax.regs.moveReplacedCount else ax.regs.moveReplacedCount
        cntOvf := ax.regs.cntOvf || (replaced && satFull ax.regs.moveReplacedCount) } }) s

/-- One pour of an enabled axis on its own profile, a STOP or a homing run. -/
def profilePour (a : Fin 112) (s : State) : State :=
  let ax := s.axes[a]
  let s := match ax.ramp, ax.home, ax.move with
    | some rp, _, _ => rampPour a rp s
    | none, some h, _ => homePour a h s
    | none, none, some m => movePour a m s
    | none, none, none => spend a true (standSp a s)
  let s := modAxis a (fun ax => { ax with limitsDeferred := ax.limitsDeferred && decelerating ax }) s
  installNext a s

end Sys2Proof.Machine
end

