-- ==== Sys2Proof/Machine/Chain.lean ====
section
/-! DEFINITION. Following stages at a pour: master batches, exact gearing, cams, register offsets, and the evaluation of every
chain in dependency order (R156 to R165, R214 to R237). -/

namespace Sys2Proof.Machine

def modFollow (a : Fin 112) (f : FollowRegs → FollowRegs) (s : State) : State :=
  modAxis a (fun ax => { ax with follow := f ax.follow }) s

/-! ### Exact gearing (R218, R220) -/

/-- t / d rounded toward minus infinity, and what is left. -/
def gearPart (n : Int) (d : Int) (rem m : Int) : Int × Int :=
  let t := n * m + rem
  (t / d, t % d)

/-- A gear stage in the middle of a batch. -/
structure Gear where
  n : Int
  d : Int
  rem : Int
  acc : Int
  /-- Increment so far, units of 2^-32 count. -/
  inc : Int
  queue : List GearChange
  /-- Changes that fired in this batch, oldest first. -/
  fired : List GearChange

/-- Part of a batch at the ratio in force (R218). -/
def Gear.take (g : Gear) (m : Int) : Gear :=
  let (f, r) := gearPart g.n g.d g.rem m
  { g with inc := g.inc + f, rem := r }

/-- A change of ratio (R220). -/
def Gear.change (g : Gear) (n1 d1 : Int) : Gear :=
  if d1 = g.d then { g with n := n1 }
  else
    let x := g.rem * d1
    let q := (x % g.d) * 2 ^ 64 / (g.d * d1)
    let t := g.acc + q
    if 2 ^ 64 ≤ t then { g with n := n1, d := d1, rem := x / g.d, acc := t - 2 ^ 64, inc := g.inc + 1 }
    else { g with n := n1, d := d1, rem := x / g.d, acc := t }

/-! ### Crossings (R223) -/

/-- How far from a, along a batch m, position pc is crossed in the armed direction (0 positive, 1 negative, 2 either); on a
modulo master at the first pc + j × M on the path. -/
def crossing (modulus : Option Int) (a m pc : Int) (dir : BitVec 2) : Option Int :=
  if 0 < m && dir ≠ 1 then
    let x := match modulus with
      | some k => (pc - a - 1) % k + 1
      | none => pc - a
    if decide (0 < x) && decide (x ≤ m) then some x else none
  else if m < 0 && dir ≠ 0 then
    let x := match modulus with
      | some k => (a - pc - 1) % k + 1
      | none => a - pc
    if decide (0 < x) && decide (x ≤ -m) then some (-x) else none
  else none

/-- A batch from position a, split at every live change that fires, in queue order. -/
def gearBatch (modulus : Option Int) : Nat → Gear → Int → Int → Gear
  | 0, g, _, m => g.take m
  | k + 1, g, a, m =>
    match g.queue with
    | [] => g.take m
    | c :: rest =>
      match crossing modulus a m c.pc.toInt c.dir with
      | none => g.take m
      | some x =>
        let g := (g.take x).change c.n.toInt c.d.toNat
        gearBatch modulus k { g with queue := rest, fired := g.fired ++ [c] } (a + x) (m - x)

/-! ### Cams (R229, R231) -/

/-- The segment of a table that holds phase u (raw), and its end point. -/
def camSegment (pts : List CamPoint) (u : Int) : Option (CamPoint × CamPoint) :=
  match pts with
  | p :: q :: rest => if u < q.x.toInt * 2 ^ 32 || rest.isEmpty then some (p, q) else camSegment (q :: rest) u
  | _ => none

/-- The value and the slope of the Hermite segment at phase u, as numerators over h^3 (R229). -/
def hermite (p q : CamPoint) (u : Int) : Int × Int × Int :=
  let h := (q.x.toInt - p.x.toInt) * 2 ^ 32
  let t := u - p.x.toInt * 2 ^ 32
  let y0 := p.y.toInt
  let y1 := q.y.toInt
  let s0 := (q.x.toInt - p.x.toInt) * p.s.toInt
  let s1 := (q.x.toInt - p.x.toInt) * q.s.toInt
  let n := y0 * (2 * t ^ 3 - 3 * t ^ 2 * h + h ^ 3) + s0 * (t ^ 3 - 2 * t ^ 2 * h + t * h ^ 2)
    + y1 * (3 * t ^ 2 * h - 2 * t ^ 3) + s1 * (t ^ 3 - t ^ 2 * h)
  let dn := y0 * (6 * t ^ 2 - 6 * t * h) + s0 * (3 * t ^ 2 - 4 * t * h + h ^ 2)
    + y1 * (6 * t * h - 6 * t ^ 2) + s1 * (3 * t ^ 2 - 2 * t * h)
  (n, dn, h ^ 3)

def camFirst (t : CamTable) : Int := ((t.pts.head?.map fun p => p.x.toInt).getD 0) * 2 ^ 32
def camLast (t : CamTable) : Int := ((t.pts.getLast?.map fun p => p.x.toInt).getD 0) * 2 ^ 32
def camRise (t : CamTable) : Int :=
  (t.pts.getLast?.map fun p => p.y.toInt).getD 0 - (t.pts.head?.map fun p => p.y.toInt).getD 0
/-- Value and slope at a phase, with a common denominator; constant beyond the ends of a one-shot table. -/
def camAt (t : CamTable) (u : Int) : Int × Int × Int :=
  if u < camFirst t then ((t.pts.head?.map fun p => p.y.toInt).getD 0, 0, 1)
  else if camLast t < u then ((t.pts.getLast?.map fun p => p.y.toInt).getD 0, 0, 1)
  else match camSegment t.pts u with
    | some (p, q) => hermite p q u
    | none => (0, 0, 1)
/-- y(u) rounded to the nearest 2^-32 count (R231). -/
def camValue (t : CamTable) (u : Int) : Int := let (n, _, d) := camAt t u; roundDiv n d

/-- A phase reduced into a periodic table, and the reductions counted. -/
def camReduce (t : CamTable) (u k : Int) : Int × Int :=
  let x := camLast t - camFirst t
  if t.periodic && decide (0 < x) then ((u - camFirst t) % x + camFirst t, k + (u - camFirst t) / x) else (u, k)

/-- A cam stage in the middle of a batch. -/
structure CamRun where
  u : Int
  k : Int
  offset : Int
  table : Fin 16
  swap : Option CamSwap
  /-- The table before a swap made in this batch, and the phases at which the two were joined. -/
  swapped : Option (Fin 16 × Int × Int)

def camOutput (s : State) (c : CamRun) : Int :=
  let t := s.cams[c.table]
  camValue t c.u + c.k * camRise t + c.offset

/-- The swap takes effect where the stage stands: the output stays, OFFSET takes the difference (R233). -/
def camSwapNow (s : State) (w : CamSwap) (c : CamRun) : CamRun :=
  let was := camOutput s c
  let (u, k) := camReduce s.cams[w.table] (if w.set then w.uEntry.toInt else c.u) c.k
  let n : CamRun := { c with u := u, k := k, table := w.table, swap := none, swapped := some (c.table, c.u, u) }
  { n with offset := n.offset + (was - camOutput s n) }

/-- Where in a batch the pending swap takes effect. -/
def swapPoint (s : State) (c : CamRun) (m : Int) : Option (CamSwap × Int) :=
  match c.swap with
  | none => none
  | some w =>
    let t := s.cams[c.table]
    let x := camLast t - camFirst t
    let at_ := if w.wrap then
        (if !t.periodic then none
        else if decide (0 < m) && decide (camLast t - c.u ≤ m) then some (camLast t - c.u)
        else if decide (m < 0) && decide (c.u - camFirst t < -m) then some (camFirst t - c.u)
        else none)
      else crossing (if t.periodic && decide (0 < x) then some x else none) c.u m w.us.toInt w.dir
    at_.map fun d => (w, d)

/-- The phase advances by m (R231). -/
def camMove (s : State) (c : CamRun) (m : Int) : CamRun :=
  let (u, k) := camReduce s.cams[c.table] (c.u + m) c.k
  { c with u := u, k := k }

/-- One batch, split at a swap that takes effect in it. -/
def camBatch (s : State) (c : CamRun) (m : Int) : CamRun :=
  match swapPoint s c m with
  | none => camMove s c m
  | some (w, d) => camMove s (camSwapNow s w (camMove s c d)) (m - d)

/-- The difference of the slopes that a swap joined, new less old, signed 16.16, saturating (R233). -/
def slopeStep (s : State) (old new : Fin 16) (uOld uNew : Int) : Word :=
  let (_, a, da) := camAt s.cams[old] uOld
  let (_, b, db) := camAt s.cams[new] uNew
  sat32 (roundDiv ((b * da - a * db) * 2 ^ 16) (da * db))

/-! ### Masters (R214 to R217, R174) -/

/-- What a source code names. -/
inductive Master where
  | none_
  /-- An axis: its latched position, else its set-point. -/
  | measured (b : Fin 112)
  | computed (b : Fin 112)
  | slot (i : Fin 32)
  | encoder (e : Fin 17)

def masterOf (src : BitVec 16) (useSp : Bool) : Master :=
  let n := src.toNat
  if n < 80 then
    match asFin 112 n with
    | some b => if n < 16 && !useSp then .measured b else .computed b
    | none => .none_
  else if n < 112 then ((asFin 32 (n - 80)).map Master.slot).getD .none_
  else if 0x100 ≤ n then ((asFin 17 (n - 0x100)).map Master.encoder).getD .none_
  else .none_

def axisMaster (ax : Axis) : Master := masterOf ax.follow.masterSrc ax.follow.useSp
/-- A gear or cam stage is in force or waits for its start. -/
def hasStage (ax : Axis) : Bool := ax.follow.gearState ≠ 0 || ax.follow.camState ≠ 0
/-- The axis whose set-point feeds the stage directly. -/
def feeds (s : State) (a : Fin 112) : Option (Fin 112) :=
  if hasStage s.axes[a] then
    match axisMaster s.axes[a] with
    | .computed b => some b
    | _ => none
  else none

/-- Following stages from the first master to this axis (R216). -/
def stagesTo (s : State) : Nat → Fin 112 → Nat
  | 0, _ => 0
  | k + 1, a =>
    if hasStage s.axes[a] then
      match feeds s a with
      | some b => stagesTo s k b + 1
      | none => 1
    else 0
/-- The slot at the head of the axis's chain. -/
def rootSlot (s : State) : Nat → Fin 112 → Option (Fin 32)
  | 0, _ => none
  | k + 1, a =>
    if hasStage s.axes[a] then
      match axisMaster s.axes[a] with
      | .slot i => some i
      | .computed b => rootSlot s k b
      | _ => none
    else none
def chainSlot (s : State) (a : Fin 112) : Option (Fin 32) := rootSlot s 9 a

/-- A master's batch at this pour: the position it ends at, the increment, and the modulus of its positions. -/
structure Batch where
  b : Int
  m : Int
  modulus : Option Int

def axisModulus (ax : Axis) : Option Int := if ax.regs.kind then some (modRaw ax) else none

/-- The batch before any lead. -/
def plainBatch (s : State) : Master → Batch
  | .none_ => ⟨0, 0, none⟩
  | .measured b =>
    let ax := s.axes[b]
    ⟨unwrapped ax - ax.dAct.toInt, ax.dActPrev.toInt, axisModulus ax⟩
  | .computed b => let ax := s.axes[b]; ⟨ax.regs.spPos.toInt, ax.dSp.toInt, axisModulus ax⟩
  | .slot i =>
    let ax := s.axes[slotAxis i]
    ⟨s.slots[i].poured.toInt, shortWay ax (s.slots[i].poured.toInt - s.slots[i].pouredPrev.toInt), axisModulus ax⟩
  | .encoder e =>
    let en := s.encs[e]
    ⟨(en.latched.toInt - en.dCount.toInt) * 2 ^ 32, en.dCountPrev.toInt * 2 ^ 32, none⟩

/-- The lead that enters the chain with the master value (R174, R215). -/
def leadOf (s : State) (ax : Axis) (m : Int) : Int :=
  if !ax.steep.masterLead then 0
  else match axisMaster ax with
    | .slot _ => (s.stage.regs.domainD.toNat : Int) * m
    | .measured _ | .encoder _ => m
    | _ => 0

/-- The batch of an axis's stage, the lead included; the lead is kept for the next one. -/
def batchOf (a : Fin 112) (s : State) : Batch × State :=
  let ax := s.axes[a]
  let x := plainBatch s (axisMaster ax)
  let l := leadOf s ax x.m
  (⟨x.b + l, x.m + (l - ax.lead.toInt), x.modulus⟩, modAxis a (fun ax => { ax with lead := inc128 l }) s)

/-- A batch or increment beyond ±2^62 counts (R217). -/
def beyond (x : Int) : Bool := decide ((2 ^ 94 : Int) < x.natAbs)
def raiseIncRange (a : Fin 112) (s : State) : State :=
  raise Ev.gearIncRange (srcAxis a) s.axes[a].clsGearRange false 0 0 0 [a] s

/-! ### The gear stage at a pour (R218 to R226) -/

def gearOf (ax : Axis) : Gear :=
  { n := ax.follow.gearN.toInt, d := ax.follow.gearD.toNat, rem := ax.follow.gearRem.toNat, acc := ax.follow.lossAcc.toNat
    inc := 0, queue := ax.queue, fired := [] }

/-- The live change as the registers show it. -/
def showQueue (q : List GearChange) (f : FollowRegs) : FollowRegs :=
  match q with
  | [] => { f with chgPending := 0, chgPos := 0, chgDir := 0, chgN := 0, chgD := 1 }
  | c :: _ => { f with chgPending := BitVec.ofNat 3 q.length, chgPos := c.pc, chgDir := c.dir, chgN := c.n, chgD := c.d }

/-- The stage keeps what a batch left of it; GEAR_CHANGED for each change that fired (R223). -/
def gearStore (a : Fin 112) (g : Gear) (s : State) : State :=
  let s := modAxis a (fun ax => { ax with
    queue := g.queue
    follow := showQueue g.queue { ax.follow with
      gearN := BitVec.ofInt 32 g.n, gearD := BitVec.ofInt 32 g.d, gearRem := BitVec.ofInt 32 g.rem
      lossAcc := BitVec.ofInt 64 g.acc
      gearChangeCount := satAdd ax.follow.gearChangeCount g.fired.length
      changeSeen := ax.follow.changeSeen || !g.fired.isEmpty
      cntOvf := ax.follow.cntOvf || decide (2 ^ 32 ≤ ax.follow.gearChangeCount.toNat + g.fired.length) } }) s
  g.fired.foldl (fun s c => note Ev.gearChanged (srcAxis a) ((pourNum s).truncate 32) (nsLo c.pc) c.n s) s

def gearEngaged (a : Fin 112) (s : State) : State :=
  note Ev.gearEngaged (srcAxis a) 0 0 0 (modFollow a (fun f => { f with gearState := 3 }) s)

/-- E in units of 2^-32 count. -/
def engRaw (ax : Axis) : Int := ax.follow.engDist.toNat * 2 ^ 32

/-- The batch of an ENGAGED stage from position p; none where the increment is beyond its limit (R217). -/
def gearRun (a : Fin 112) (modulus : Option Int) (p m pre : Int) (s : State) : Option (Int × State) :=
  let g := gearBatch modulus 5 (gearOf s.axes[a]) p m
  if beyond (pre + g.inc) then none else some (pre + g.inc, gearStore a g s)

/-- The ramp of an ENGAGING stage: x advances by m; at E the stage engages and the rest is geared (R226). -/
def gearRamp (a : Fin 112) (x : Batch) (p m : Int) (s : State) : Option (Int × State) :=
  let ax := s.axes[a]
  let f := ax.follow
  let n := f.gearN.toInt
  let d : Int := f.gearD.toNat
  let e := engRaw ax
  let x1 := f.engProgress.toInt + m
  if (x1.natAbs : Int) < e then
    let disp := (n * x1 * x1.natAbs) / (2 * d * e)
    if beyond (disp - ax.engDisp.toInt) then none
    else some (disp - ax.engDisp.toInt, modAxis a (fun ax => { ax with
      engDisp := inc128 disp, follow := { ax.follow with engProgress := fixRaw x1 } }) s)
  else
    let sign : Int := if x1 < 0 then -1 else 1
    let t := n * (sign * (e / 2))
    let used := sign * e - f.engProgress.toInt
    let s := gearEngaged a (modAxis a (fun ax => { ax with
      engDisp := 0, follow := { ax.follow with engProgress := fixRaw (sign * e), gearRem := BitVec.ofInt 32 (t % d), lossAcc := 0 } }) s)
    gearRun a x.modulus (p + used) (m - used) (t / d - ax.engDisp.toInt) s

/-- The start of a stage that waits for its position: what is left of the batch runs on. -/
def gearStart (a : Fin 112) (x : Batch) (p m : Int) (s : State) : Option (Int × State) :=
  let s := modAxis a (fun ax => { ax with
    engDisp := 0, follow := { ax.follow with engProgress := 0, gearRem := 0, lossAcc := 0 } }) s
  if s.axes[a].follow.engDist = 0 then gearRun a x.modulus p m 0 (gearEngaged a s)
  else gearRamp a x p m (modFollow a (fun f => { f with gearState := 2 }) s)

/-- The stage's batch as its state has it; none where the follower increment is beyond its limit. -/
def gearStep (a : Fin 112) (x : Batch) (s : State) : Option (Int × State) :=
  let ax := s.axes[a]
  let p := x.b - x.m
  match ax.follow.gearState.toNat with
  | 1 => match crossing x.modulus p x.m ax.engPos.toInt ax.engDir with
    | some d => gearStart a x (p + d) (x.m - d) s
    | none => some (0, s)
  | 2 => gearRamp a x p x.m s
  | 3 => gearRun a x.modulus p x.m ax.gearUnit (modAxis a (fun ax => { ax with gearUnit := 0 }) s)
  | _ => some (0, s)
/-- A batch beyond either limit is not applied: the stage stays as it was, and GEAR_INC_RANGE is raised (R217). -/
def gearPour (a : Fin 112) (x : Batch) (s : State) : Int × State :=
  if beyond x.m then (0, raiseIncRange a s) else (gearStep a x s).getD (0, raiseIncRange a s)

/-! ### The cam stage at a pour (R231 to R233) -/

def camOf (ax : Axis) : CamRun :=
  { u := ax.follow.camPhase.toInt, k := ax.follow.camPeriods.toInt, offset := ax.follow.camOffset.toInt
    table := ax.follow.camTable.toFin, swap := ax.swap, swapped := none }

/-- The pending swap as the registers show it. -/
def showSwap (w : Option CamSwap) (f : FollowRegs) : FollowRegs :=
  match w with
  | none => { f with swapPending := false, camNext := 0 }
  | some w => { f with swapPending := true, camNext := BitVec.ofFin w.table }

def camStore (a : Fin 112) (c : CamRun) (out : Int) (s : State) : State :=
  modAxis a (fun ax => { ax with
    swap := c.swap, camOut := fixRaw out
    follow := showSwap c.swap { ax.follow with
      camPhase := fixRaw c.u, camPeriods := BitVec.ofInt 64 c.k, camOffset := fixRaw c.offset
      camTable := BitVec.ofFin c.table, camMode := s.cams[c.table].periodic } }) s

/-- CAM_SWAPPED (R233): the stage runs on the new table, whose end it has not reached. -/
def camSwapped (a : Fin 112) (old new : Fin 16) (uOld uNew : Int) (s : State) : State :=
  note Ev.camSwapped (srcAxis a) (natWord new.val) (slopeStep s old new uOld uNew) 0 (modAxis a (fun ax => { ax with
    camEnded := false
    follow := { ax.follow with
      camState := 2, swapSeen := true, camSwapCount := satInc ax.follow.camSwapCount
      cntOvf := ax.follow.cntOvf || satFull ax.follow.camSwapCount } }) s)

/-- A one-shot cam reaches x_last for the first time (R231). -/
def camEnd (a : Fin 112) (s : State) : State :=
  let ax := s.axes[a]
  let t := s.cams[ax.follow.camTable.toFin]
  if !t.periodic && !ax.camEnded && decide (camLast t ≤ ax.follow.camPhase.toInt) then
    note Ev.camEnd (srcAxis a) 0 0 0 (modAxis a (fun ax => { ax with camEnded := true, follow := { ax.follow with camState := 3 } }) s)
  else s

/-- The batch of a running cam.  For a pour that is corrected from a prediction, the output is the predicted one plus its
slope times the change of the phase (R156, R157); none where the increment is beyond its limit. -/
def camRun (a : Fin 112) (m : Int) (pred : Option State) (s : State) : Option (Int × State) :=
  let c0 := camOf s.axes[a]
  let c := camBatch s c0 m
  let out := match pred with
    | none => camOutput s c
    | some ps =>
      let q := camOf ps.axes[a]
      let t := ps.cams[q.table]
      let (_, dn, d) := camAt t q.u
      let span := camLast t - camFirst t
      ps.axes[a].camOut.toInt + roundDiv (dn * (c.u - q.u + (c.k - q.k) * span)) d
  let inc := out - s.axes[a].camOut.toInt
  if beyond inc then none
  else
    let s := camStore a c out s
    let s := match c.swapped with
      | some (old, uo, un) => camSwapped a old c.table uo un s
      | none => s
    some (inc, camEnd a s)

/-- The stage starts: OFFSET makes its output the axis's set-point (R232). -/
def camStart (a : Fin 112) (s : State) : State :=
  let ax := s.axes[a]
  let t := ax.follow.camTable.toFin
  let (u, _) := camReduce s.cams[t] ax.camU0.toInt 0
  let sp := ax.regs.spPos.toInt
  let off := sp - camValue s.cams[t] u
  modAxis a (fun ax => { ax with
    camEnded := false, camOut := fixRaw sp
    follow := { ax.follow with
      camState := 2, camPhase := fixRaw u, camPeriods := 0, camOffset := fixRaw off, camMode := s.cams[t].periodic } }) s

def camStep (a : Fin 112) (x : Batch) (pred : Option State) (s : State) : Option (Int × State) :=
  let ax := s.axes[a]
  match ax.follow.camState.toNat with
  | 1 => match crossing x.modulus (x.b - x.m) x.m ax.camPos.toInt ax.camDir with
    | some d => camRun a (x.m - d) pred (camStart a s)
    | none => some (0, s)
  | 2 | 3 => camRun a x.m pred s
  | _ => some (0, s)
/-- The cam's batch, under the limits of R217. -/
def camPour (a : Fin 112) (x : Batch) (pred : Option State) (s : State) : Int × State :=
  if beyond x.m then (0, raiseIncRange a s) else (camStep a x pred s).getD (0, raiseIncRange a s)

/-! ### Register offset (R236, R237) -/

/-- The target staged last among those whose pour has come is in force; those to come stay staged (R236). -/
def regTake (a : Fin 112) (s : State) : State :=
  modAxis a (fun ax =>
    let due := ax.regStaged.filter fun x => decide (x.1.toNat ≤ (pourNum s).toNat)
    { ax with
      regTarget := ((due.getLast?).map (·.2)).getD ax.regTarget
      regStaged := ax.regStaged.filter fun x => decide ((pourNum s).toNat < x.1.toNat) }) s
/-- The step of REG_OFFSET at this pour. -/
def regPour (a : Fin 112) (s : State) : Int × State :=
  let s := regTake a s
  let ax := s.axes[a]
  let most : Int := ax.regCfg.rateMax.toNat * 2 ^ 32
  let want := ax.regTarget.toInt - ax.follow.regOffset.toInt
  let step := clampInt (-most) most want
  let limited := decide (step ≠ want)
  (step, modAxis a (fun ax => { ax with
    regLimited := limited
    follow := { ax.follow with
      regOffset := ax.follow.regOffset + fixRaw step
      regRatelimCount := if limited then satInc ax.follow.regRatelimCount else ax.follow.regRatelimCount
      cntOvf := ax.follow.cntOvf || (limited && satFull ax.follow.regRatelimCount) } }) s)

/-- Master travel since the last accepted measurement, while the controller runs. -/
def regTravelPour (a : Fin 112) (m : Int) (s : State) : State :=
  modAxis a (fun ax => if ax.follow.regState = 0 then ax
    else { ax with regTravel := inc128 (ax.regTravel.toInt + m.natAbs) }) s

/-! ### Host cyclic inputs (R104) -/

/-- Words 0 to 2 of the input record that drives the axis. -/
def hostTarget (s : State) (a : Fin 112) : Option Fix :=
  (List.finRange 64).findSome? fun i =>
    if (s.cyclic.recAxis[i]).toNat = a.val then
      some (fix3 (s.cyclic.inForce.recs.getD (4 * i.val) 0) (s.cyclic.inForce.recs.getD (4 * i.val + 1) 0)
        (s.cyclic.inForce.recs.getD (4 * i.val + 2) 0))
    else none

/-- The source increment of an axis that the host drives: from where its source stands to the position in force. -/
def hostInc (s : State) (a : Fin 112) : Int :=
  let ax := s.axes[a]
  match hostTarget s a with
  | some t => shortWay ax (t.toInt - (ax.regs.spPos.toInt + ax.lag.toInt))
  | none => 0

/-! ### One axis, all axes -/

/-- The increment of a stage with its register offset; what an overrun or held pour added is taken back, outside of what the
axis's followers see (R158, R161, R172). -/
def stagePour (a : Fin 112) (inc : Int) (s : State) : State :=
  let (reg, s) := regPour a s
  let owed := s.axes[a].owed
  let s := limiterPour a (inc + reg - owed.toInt) (modAxis a (fun ax => { ax with owed := 0 }) s)
  modAxis a (fun ax => { ax with dSp := ax.dSp + owed }) s

/-- The pour of one axis 0 to 79. -/
def axisPour (pred : Option State) (a : Fin 112) (s : State) : State :=
  let (x, s) := batchOf a s
  let ax := s.axes[a]
  if !ax.enabled then modAxis a (fun ax => { ax with dSp := 0 }) s
  else if ax.ramp.isSome || ax.home.isSome then profilePour a s
  else if ax.follow.gearState ≠ 0 then
    let s := regTravelPour a x.m s
    let (inc, s) := gearPour a x s
    stagePour a inc s
  else if ax.follow.camState ≠ 0 then
    let s := regTravelPour a x.m s
    let (inc, s) := camPour a x pred s
    stagePour a inc s
  else if ax.source = 3 then limiterPour a (hostInc s a) s
  else profilePour a s

/-- Axes 0 to 79 in dependency order: each master before its followers (R216). -/
def chainOrder (s : State) : List (Fin 112) :=
  let depth := hostAxes.map fun a => (a, stagesTo s 9 a)
  (List.range 10).flatMap fun d => depth.filterMap fun x => if x.2 = d then some x.1 else none

/-- Evaluates every chain for a pour; with a prediction, the cams of the slots named are corrected from it. -/
def evalChains (pred : Option (State × List (Fin 32))) (s : State) : State :=
  (chainOrder s).foldl (fun s a =>
    let p := match pred with
      | some (ps, sl) => if (chainSlot s a).any fun i => sl.contains i then some ps else none
      | none => none
    axisPour p a s) s

end Sys2Proof.Machine
end

