-- ==== Sys2Proof/Machine/Follow.lean ====
section
/-! DEFINITION. Group 0x05: gearing, cams and register correction (R214 to R240), and MARK_MISSING. -/

namespace Sys2Proof.Machine

def axOf (p : Packet) : Fin 112 := Fin.ofNat 112 (tgt p)
def axReg (p : Packet) (s : State) : Axis := s.axes[axOf p]
/-- A row whose target is an axis 0 to 79. -/
def followOp (op : BitVec 16) (cls : ReplyClass) (stage : Stageable) (params : Nat → Bool) : OpDesc :=
  { op := op, cls := cls, stage := stage, target := tBelow 80, params := params }

/-! ### Checks of a stage (R214, R216, R227) -/

def sourceValid (w : Word) : Bool :=
  decide (w.toNat < 112) || (decide (0x100 ≤ w.toNat) && decide (w.toNat ≤ 0x110))
def masterAxis : Master → Option (Fin 112)
  | .measured b => some b
  | .computed b => some b
  | _ => none
/-- The masters from axis b on lead to axis a. -/
def leadsTo (s : State) (a : Fin 112) : Nat → Fin 112 → Bool
  | 0, _ => false
  | k + 1, b => b = a || (match masterAxis (axisMaster s.axes[b]) with
    | some c => leadsTo s a k c
    | none => false)
def closesLoop (s : State) (a : Fin 112) (m : Master) : Bool :=
  match masterAxis m with
  | some b => leadsTo s a 80 b
  | none => false
/-- Stages from axis a down to its last follower. -/
def stagesFrom (s : State) : Nat → Fin 112 → Nat
  | 0, _ => 0
  | k + 1, a => ((hostAxes.filter fun b => feeds s b = some a).map fun b => stagesFrom s k b + 1).foldl max 0
/-- The chain through a new stage of the axis (R216). -/
def tooDeep (s : State) (a : Fin 112) (m : Master) : Bool :=
  let up := match m with
    | .computed b => stagesTo s 9 b
    | _ => 0
  decide (8 < up + 1 + stagesFrom s 9 a)
/-- A slot source is in ARMED, LATE or LOST (R170). -/
def slotReady (s : State) (m : Master) : Bool :=
  match m with
  | .slot i => s.slots[i].regs.slotState = 2 || s.slots[i].regs.slotState = 3 || s.slots[i].regs.slotState = 4
  | _ => true
/-- In a STOP ramp, or stopped by a fault (R193). -/
def axisStops (ax : Axis) : Bool := ax.stopping || ax.ramp.isSome || ax.holdSince.isSome
/-- Why a stage cannot start on a master; OK where it can. -/
def engageStatus (s : State) (a : Fin 112) (m : Master) : BitVec 16 :=
  if axisStops s.axes[a] then Status.axisStopping
  else if closesLoop s a m then Status.gearLoop
  else if !slotReady s m then Status.slotNotArmed
  else if tooDeep s a m then Status.chainTooDeep
  else Status.ok

/-- The lead that the axis's master has now, as the reference of the next batch. -/
def seedLead (a : Fin 112) (s : State) : State :=
  let ax := s.axes[a]
  modAxis a (fun x => { x with lead := inc128 (leadOf s ax (plainBatch s (axisMaster ax)).m) }) s
/-- The profile ends as a stage takes the axis. -/
def leaveProfile (ax : Axis) : Axis := { ax with next := none, move := none, lag := 0, limitsDeferred := false, gearUnit := 0 }

/-! ### Gear commands -/

def acceptGearSource (p : Packet) (_ : State) : BitVec 16 :=
  if sourceValid (par p 0) && parIn p 1 0 1 then Status.ok else Status.paramRange
def checkGearSource (p : Packet) (s : State) : BitVec 16 :=
  if hasStage (axReg p s) then Status.gearEngagedSource
  else if closesLoop s (axOf p) (masterOf (parBits p 0 16) (parBool p 1)) then Status.gearLoop
  else Status.ok
def applyGearSource (p : Packet) (s : State) : State :=
  seedLead (axOf p) (modFollow (axOf p) (fun f => { f with masterSrc := parBits p 0 16, useSp := parBool p 1 }) s)
def stGearSourceSet : StageOp :=
  { d := followOp 0x0501 .b .mode (· = 2), accept := acceptGearSource, check := checkGearSource, apply := applyGearSource }
/-- GEAR_SOURCE_SET (R214, R227). -/
def execGearSourceSet (p : Packet) (s : State) : Host.Outcome State Fault Refusal := .next (stageRequest stGearSourceSet p s)

/-- E: 0, or an even whole number from 2 to 2^40 (R226). -/
def engDistOk (e : Nat) : Bool := decide (e % 2 = 0) && decide (e ≤ 2 ^ 40)
def acceptGearEngage (p : Packet) (_ : State) : BitVec 16 :=
  if par p 1 = 0 || !engDistOk (par64 p 7).toNat || !parIn p 2 0 1 || !parIn p 6 0 2 then Status.paramRange else Status.ok
def checkGearEngage (p : Packet) (s : State) : BitVec 16 :=
  let ax := axReg p s
  if !ax.queue.isEmpty then Status.gearChangePending
  else if ax.follow.masterSrc = 0xFFFF then Status.noMasterSource
  else engageStatus s (axOf p) (axisMaster ax)
def gearSetup (p : Packet) (ax : Axis) : Axis :=
  let waits := par p 2 = 1
  let ramp := decide (par64 p 7 ≠ 0)
  { leaveProfile ax with
    swap := none, queue := [], engPos := par96 p 3, engDir := parBits p 6 2, engDisp := 0, owed := 0
    source := 1
    follow := showSwap none (showQueue [] { ax.follow with
      camState := 0, gearN := par p 0, gearD := par p 1, gearRem := 0, lossAcc := 0, engDist := par64 p 7, engProgress := 0
      gearState := if waits then 1 else if ramp then 2 else 3 }) }
def applyGearEngage (p : Packet) (s : State) : State :=
  let s := modAxis (axOf p) (gearSetup p) s
  if (axReg p s).follow.gearState = 3 then gearEngaged (axOf p) s else s
def stGearEngage : StageOp :=
  { d := followOp 0x0502 .b .mode (· = 9), accept := acceptGearEngage, check := checkGearEngage, apply := applyGearEngage }
/-- GEAR_ENGAGE (R226, R227). -/
def execGearEngage (p : Packet) (s : State) : Host.Outcome State Fault Refusal := .next (stageRequest stGearEngage p s)

def acceptGearRatio (p : Packet) (_ : State) : BitVec 16 := if par p 1 = 0 then Status.paramRange else Status.ok
def checkGearRatio (p : Packet) (s : State) : BitVec 16 :=
  let g := (axReg p s).follow.gearState
  if g = 0 then Status.notFollowing else if g = 2 then Status.gearEngaging else Status.ok
/-- The ratio changes; a unit that the conversion pays back joins this pour's increment (R220, R221). -/
def applyGearRatio (p : Packet) (s : State) : State :=
  let ax := axReg p s
  let g := (gearOf ax).change (par p 0).toInt (parNat p 1)
  modAxis (axOf p) (fun ax => { ax with
    gearUnit := ax.gearUnit + g.inc.toNat
    follow := { ax.follow with
      gearN := par p 0, gearD := par p 1, gearRem := BitVec.ofInt 32 g.rem, lossAcc := BitVec.ofInt 64 g.acc
      gearChangeCount := satInc ax.follow.gearChangeCount
      cntOvf := ax.follow.cntOvf || satFull ax.follow.gearChangeCount } }) s
def stGearRatioSet : StageOp :=
  { d := followOp 0x0503 .b .mode (· = 2), accept := acceptGearRatio, check := checkGearRatio, apply := applyGearRatio }
/-- GEAR_RATIO_SET (R221). -/
def execGearRatioSet (p : Packet) (s : State) : Host.Outcome State Fault Refusal := .next (stageRequest stGearRatioSet p s)

def acceptGearArm (p : Packet) (_ : State) : BitVec 16 :=
  if par p 5 = 0 || !parIn p 3 0 2 then Status.paramRange else Status.ok
def checkGearArm (p : Packet) (s : State) : BitVec 16 :=
  let ax := axReg p s
  if ax.follow.gearState = 0 then Status.notFollowing
  else if ax.follow.gearState ≠ 3 then Status.gearEngaging
  else if 4 ≤ ax.queue.length then Status.changeQueueFull
  else Status.ok
def applyGearArm (p : Packet) (s : State) : State :=
  modAxis (axOf p) (fun ax =>
    let q := ax.queue ++ [{ pc := par96 p 0, dir := parBits p 3 2, n := par p 4, d := par p 5 }]
    { ax with queue := q, follow := showQueue q ax.follow }) s
def stGearChangeArm : StageOp :=
  { d := followOp 0x0504 .b .mode (· = 6), accept := acceptGearArm, check := checkGearArm, apply := applyGearArm }
/-- GEAR_CHANGE_ARM (R222). -/
def execGearChangeArm (p : Packet) (s : State) : Host.Outcome State Fault Refusal := .next (stageRequest stGearChangeArm p s)

def stGearChangeCancel : StageOp :=
  { d := followOp 0x0505 .b .mode (· = 0)
    apply := fun p s => modAxis (axOf p) (fun ax => { ax with queue := [], follow := showQueue [] ax.follow }) s }
/-- GEAR_CHANGE_CANCEL (R222). -/
def execGearChangeCancel (p : Packet) (s : State) : Host.Outcome State Fault Refusal := .next (stageRequest stGearChangeCancel p s)

/-- The profile takes over from the poured set-point (R228, R193). -/
def toProfile (keep : Bool) (dec j : Fix) (ax : Axis) : Axis :=
  let led := ax.source ≠ 0
  let m : Move := if keep then { kind := .velocity, target := ax.regs.spVel, v := 0, a := 0, dec := 0, j := 0 }
    else { kind := .stop, target := 0, v := 0, a := 0, dec := dec, j := j }
  if led && ax.enabled then { endFollow ax with move := some m, next := none } else endFollow ax
def applyDisengage (p : Packet) (s : State) : State :=
  modAxis (axOf p) (fun ax => if hasStage ax then toProfile (parBool p 0) 0 0 ax else ax) s
def stFollowDisengage : StageOp :=
  { d := followOp 0x0506 .b .mode (· = 1)
    accept := fun p _ => if parIn p 0 0 1 then Status.ok else Status.paramRange
    apply := applyDisengage }
/-- FOLLOW_DISENGAGE (R228). -/
def execFollowDisengage (p : Packet) (s : State) : Host.Outcome State Fault Refusal := .next (stageRequest stFollowDisengage p s)

def dFollowStatus : OpDesc := followOp 0x0507 .a .no (· = 0)
def runFollowStatus (p : Packet) (s : State) : Reply := okWith (wordsOf (axisWord s (axOf p)) 0x200 45) s
/-- FOLLOW_STATUS (R239). -/
def execFollowStatus (p : Packet) (s : State) : Host.Outcome State Fault Refusal :=
  .next (request dFollowStatus acceptAny runFollowStatus p s)

def dFollowPolicySet : OpDesc :=
  { op := 0x0508, cls := .b, target := fun n => n < 80 || n = 0xFFFF, params := (· = 2) }
def acceptFollowPolicy (p : Packet) (_ : State) : BitVec 16 :=
  if clsAllowed .stop (par p 0) && clsAllowed .note (par p 1) then Status.ok else Status.paramRange
def runFollowPolicy (p : Packet) (s : State) : Reply :=
  let set (a : Fin 112) (s : State) : State :=
    modAxis a (fun ax => { ax with clsGearRange := clsOf (par p 0), clsMark := clsOf (par p 1) }) s
  ok (if tgt p = 0xFFFF then hostAxes.foldl (fun s a => set a s) s else set (axOf p) s)
/-- FOLLOW_POLICY_SET (R239). -/
def execFollowPolicySet (p : Packet) (s : State) : Host.Outcome State Fault Refusal :=
  .next (request dFollowPolicySet acceptFollowPolicy runFollowPolicy p s)

/-! ### Cam tables (R229, R230) -/

def camOp (op : BitVec 16) (cls : ReplyClass) (params : Nat → Bool) : OpDesc :=
  { op := op, cls := cls, target := tBelow 16, params := params }
def camOfP (p : Packet) : Fin 16 := Fin.ofNat 16 (tgt p)
/-- A stage uses the table, or holds a swap to it. -/
def camInUse (s : State) (c : Fin 16) : Bool :=
  s.axes.toList.any fun ax =>
    (ax.follow.camState ≠ 0 && ax.follow.camTable.toNat = c.val)
      || ((ax.swap.map fun w => decide (w.table = c)).getD false)

def dCamLoadBegin : OpDesc := camOp 0x0510 .b (· = 3)
def acceptCamBegin (p : Packet) (s : State) : BitVec 16 :=
  if !parIn p 0 2 4096 || !parIn p 1 0 1 then Status.paramRange
  else if camInUse s (camOfP p) then Status.camTableInUse
  else Status.ok
def runCamBegin (p : Packet) (s : State) : Reply :=
  ok (modCam (camOfP p) (fun _ => { state := 1, periodic := parBool p 1, count := parNat p 0, crc := par p 2 }) s)
/-- CAM_LOAD_BEGIN (R230). -/
def execCamLoadBegin (p : Packet) (s : State) : Host.Outcome State Fault Refusal :=
  .next (request dCamLoadBegin acceptCamBegin runCamBegin p s)

def dCamLoadData : OpDesc := camOp 0x0511 .b (fun n => 9 ≤ n && n ≤ 1001 && n % 8 = 1)
def acceptCamData (p : Packet) (s : State) : BitVec 16 :=
  let t := s.cams[camOfP p]
  if t.state ≠ 1 then Status.camLoadSequence
  else if t.count < parNat p 0 + p.params.length / 8 then Status.paramRange
  else Status.ok
def runCamData (p : Packet) (s : State) : Reply :=
  ok (modCam (camOfP p) (fun t => { t with
    loaded := (parNat p 0, p.params.length / 8) :: t.loaded
    words := memPutWords t.words (8 * parNat p 0) (p.params.drop 1) }) s)
/-- CAM_LOAD_DATA (R230). -/
def execCamLoadData (p : Packet) (s : State) : Host.Outcome State Fault Refusal :=
  .next (request dCamLoadData acceptCamData runCamData p s)

/-- Point i of the words loaded (R229). -/
def camPoint (m : Mem) (i : Nat) : CamPoint :=
  let w (k : Nat) : Word := memWord m (8 * i + k)
  { x := w 1 ++ w 0, y := fix3 (w 2) (w 3) (w 4), s := w 6 ++ w 5 }
def camHas (t : CamTable) (i : Nat) : Bool := t.loaded.any fun r => decide (r.1 ≤ i) && decide (i < r.1 + r.2)
/-- Index of the first failing point from point i on, given the x before it (R230). -/
def camFails (t : CamTable) : Nat → Nat → Option Int → Option Nat
  | 0, _, _ => none
  | k + 1, i, prev =>
    let x := (camPoint t.words i).x.toInt
    let bad : Bool := (prev).any fun q => decide (x ≤ q) || decide (2 ^ 40 < x - q)
    if !camHas t i || bad then some i else camFails t k (i + 1) (some x)
/-- The check of CAM_LOAD_END; a CRC that is not met has no failing point and names the point count (log entry 11). -/
def camCheck (t : CamTable) : Option Nat :=
  match camFails t t.count 0 none with
  | some i => some i
  | none =>
    if crcWords (memWords t.words 0 (8 * t.count)) ≠ t.crc then some t.count
    else if t.periodic && (camPoint t.words 0).s ≠ (camPoint t.words (t.count - 1)).s then some (t.count - 1)
    else none

/-- |c''|max of a segment as 32.32, rounded up: the second derivative is linear between the ends of the segment. -/
def camCurve (p q : CamPoint) : BitVec 64 :=
  let h := (q.x.toInt - p.x.toInt) * 2 ^ 32
  let y := p.y.toInt - q.y.toInt
  let s0 := (q.x.toInt - p.x.toInt) * p.s.toInt
  let s1 := (q.x.toInt - p.x.toInt) * q.s.toInt
  let n := max (-6 * y - 4 * s0 - 2 * s1).natAbs (6 * y + 2 * s0 + 4 * s1).natAbs
  sat64 (divUp ((n : Int) * 2 ^ 64) (h * h))
def camCurves : List CamPoint → List (BitVec 64)
  | p :: q :: rest => camCurve p q :: camCurves (q :: rest)
  | _ => []
def maxBits (l : List (BitVec 64)) : BitVec 64 := l.foldl (fun m x => if m.toNat < x.toNat then x else m) 0

def dCamLoadEnd : OpDesc := camOp 0x0512 .b (· = 0)
def acceptCamEnd (p : Packet) (s : State) : BitVec 16 :=
  if s.cams[camOfP p].state ≠ 1 then Status.camLoadSequence else Status.ok
def runCamEnd (p : Packet) (s : State) : Reply :=
  let t := s.cams[camOfP p]
  match camCheck t with
  | some i =>
    { st := Status.camTableInvalid, out := [natWord i]
      s := modCam (camOfP p) (fun t => { t with state := 3, words := [], loaded := [] }) s }
  | none =>
    let pts := (List.range t.count).map fun i => camPoint t.words i
    okWith (words64 (maxBits (camCurves pts))) (modCam (camOfP p) (fun t => { t with state := 2, pts := pts, words := [], loaded := [] }) s)
/-- CAM_LOAD_END (R230); its reply is that of the opcode table: |c''|max of the whole table (R239, log entry 126). -/
def execCamLoadEnd (p : Packet) (s : State) : Host.Outcome State Fault Refusal :=
  .next (request dCamLoadEnd acceptCamEnd runCamEnd p s)

def dCamTableStatus : OpDesc := camOp 0x0513 .a (· = 2)
def acceptCamStatus (p : Packet) (_ : State) : BitVec 16 := if parIn p 1 1 120 then Status.ok else Status.paramRange
/-- State, mode, points, X, Y and |c''|max of the segments named that the table has. -/
def runCamStatus (p : Packet) (s : State) : Reply :=
  let t := s.cams[camOfP p]
  let segs := ((camCurves t.pts).drop (parNat p 0)).take (parNat p 1)
  okWith ([t.state.zeroExtend 32, boolWord t.periodic, natWord t.count]
    ++ words64 (BitVec.ofInt 64 ((camLast t - camFirst t) / 2 ^ 32)) ++ words96 (fixRaw (camRise t))
    ++ segs.flatMap words64) s
/-- CAM_TABLE_STATUS (R239). -/
def execCamTableStatus (p : Packet) (s : State) : Host.Outcome State Fault Refusal :=
  .next (request dCamTableStatus acceptCamStatus runCamStatus p s)

/-! ### Cam stages (R231 to R233) -/

def acceptCamEngage (p : Packet) (_ : State) : BitVec 16 :=
  if parIn p 0 0 15 && sourceValid (par p 1) && parIn p 2 0 1 && parIn p 3 0 1 && parIn p 7 0 2 then Status.ok
  else Status.paramRange
def checkCamEngage (p : Packet) (s : State) : BitVec 16 :=
  if s.cams[Fin.ofNat 16 (parNat p 0)].state ≠ 2 then Status.camTableEmpty
  else engageStatus s (axOf p) (masterOf (parBits p 1 16) (parBool p 2))
def applyCamEngage (p : Packet) (s : State) : State :=
  let waits := par p 3 = 1
  let s := modAxis (axOf p) (fun ax => { leaveProfile ax with
    swap := none, queue := [], owed := 0, camPos := par96 p 4, camDir := parBits p 7 2, camU0 := par96 p 8, camEnded := false
    source := 2
    follow := showSwap none (showQueue [] { ax.follow with
      masterSrc := parBits p 1 16, useSp := parBool p 2, gearState := 0, camState := 1, camTable := parBits p 0 4 }) }) s
  let s := seedLead (axOf p) s
  if waits then s else camStart (axOf p) s
def stCamEngage : StageOp :=
  { d := followOp 0x0514 .b .mode (· = 11), accept := acceptCamEngage, check := checkCamEngage, apply := applyCamEngage }
/-- CAM_ENGAGE (R232). -/
def execCamEngage (p : Packet) (s : State) : Host.Outcome State Fault Refusal := .next (stageRequest stCamEngage p s)

def acceptCamSwap (p : Packet) (_ : State) : BitVec 16 :=
  if parIn p 0 0 15 && parIn p 1 0 2 && parIn p 5 0 2 && parIn p 6 0 1 then Status.ok else Status.paramRange
def checkCamSwap (p : Packet) (s : State) : BitVec 16 :=
  let ax := axReg p s
  if ax.follow.camState.toNat < 2 then Status.notFollowing
  else if s.cams[Fin.ofNat 16 (parNat p 0)].state ≠ 2 then Status.camTableEmpty
  else if ax.swap.isSome && par p 1 ≠ 0 then Status.camSwapPending
  else Status.ok
def applyCamSwap (p : Packet) (s : State) : State :=
  let a := axOf p
  let w : CamSwap := { table := Fin.ofNat 16 (parNat p 0), wrap := par p 1 = 2, us := par96 p 2, dir := parBits p 5 2
                       set := parBool p 6, uEntry := par96 p 7 }
  if par p 1 = 0 then
    let ax := s.axes[a]
    let c0 := camOf ax
    let c := camSwapNow s w c0
    camSwapped a c0.table c.table c0.u c.u (camStore a c ax.camOut.toInt s)
  else modAxis a (fun ax => { ax with swap := some w, follow := showSwap (some w) ax.follow }) s
def stCamSwap : StageOp :=
  { d := followOp 0x0515 .b .mode (· = 10), accept := acceptCamSwap, check := checkCamSwap, apply := applyCamSwap }
/-- CAM_SWAP (R233). -/
def execCamSwap (p : Packet) (s : State) : Host.Outcome State Fault Refusal := .next (stageRequest stCamSwap p s)

/-! ### Register correction (R235 to R237) -/

/-- SIGN is +1 or -1 (log entry 12). -/
def acceptRegConfig (p : Packet) (_ : State) : BitVec 16 :=
  if parIn p 0 0 7 && parIn p 1 0 7 && (par p 7 = 1 || par p 7 = 0xFFFFFFFF) then Status.ok else Status.paramRange
def regConfigOf (p : Packet) : RegConfig :=
  { unit := parBits p 0 3, channel := parBits p 1 3, nominal := par96 p 2, pitch := par64 p 5, neg := par p 7 ≠ 1
    kp := par p 8, ki := par p 9, deadband := par p 10, eMax := par p 11, rateMax := par64 p 12, offMax := par64 p 14
    missLimit := par p 16 }
def stRegConfig : StageOp :=
  { d := followOp 0x0520 .b .yes (· = 17), accept := acceptRegConfig
    apply := fun p s => modAxis (axOf p) (fun ax => { ax with regCfg := regConfigOf p }) s }
/-- REG_CONFIG (R235 to R237). -/
def execRegConfig (p : Packet) (s : State) : Host.Outcome State Fault Refusal := .next (stageRequest stRegConfig p s)

def applyRegEnable (p : Packet) (s : State) : State :=
  modAxis (axOf p) (fun ax =>
    if parBool p 0 then
      if ax.follow.regState ≠ 0 then ax
      else { ax with regIAcc := 0, regTravel := 0, regClamped := false, regLimited := false, follow := { ax.follow with regState := 1 } }
    else { ax with
      regTarget := ax.follow.regOffset, regStaged := [], regClamped := false, conds := ax.conds.filter (· ≠ Ev.markMissing)
      follow := { ax.follow with regState := 0 } }) s
def stRegEnable : StageOp :=
  { d := followOp 0x0521 .b .mode (· = 1)
    accept := fun p _ => if parIn p 0 0 1 then Status.ok else Status.paramRange
    apply := applyRegEnable }
/-- REG_ENABLE (R236). -/
def execRegEnable (p : Packet) (s : State) : Host.Outcome State Fault Refusal := .next (stageRequest stRegEnable p s)

/-- Puts a converted value in the place of three parameter words (R185). -/
def putPar96 (i : Nat) (v : Fix) (p : Packet) : Packet :=
  { p with params := ((p.params.set i (fracOf v)).set (i + 1) (nsLo v)).set (i + 2) (nsHi v) }
/-- Three parameter words from user units to counts with the scale in force. -/
def convPar (i : Nat) (ax : Axis) (p : Packet) : Packet := putPar96 i ((toCounts ax (par96 p i)).getD 0) p

def stRegOffsetSet : StageOp :=
  { d := followOp 0x0522 .b .mode (· = 3)
    accept := fun p s => if (toCounts (axReg p s) (par96 p 0)).isSome then Status.ok else Status.valueOutOfRange
    conv := fun p s => convPar 0 (axReg p s) p
    check := fun p s => if (axReg p s).follow.regState = 0 then Status.ok else Status.regRunning
    apply := fun p s => modAxis (axOf p) (fun ax => { ax with regTarget := par96 p 0, regStaged := [] }) s }
/-- REG_OFFSET_SET (R237). -/
def execRegOffsetSet (p : Packet) (s : State) : Host.Outcome State Fault Refusal := .next (stageRequest stRegOffsetSet p s)

def dRegStatus : OpDesc := followOp 0x0523 .a .no (· = 0)
def runRegStatus (p : Packet) (s : State) : Reply := okWith (wordsOf (axisWord s (axOf p)) 0x280 11) s
/-- REG_STATUS (R239). -/
def execRegStatus (p : Packet) (s : State) : Host.Outcome State Fault Refusal :=
  .next (request dRegStatus acceptAny runRegStatus p s)

/-- A saturating 128-bit signed value. -/
def sat128 (x : Int) : BitVec 128 := BitVec.ofInt 128 (clampInt (-2 ^ 127) (2 ^ 127 - 1) x)

/-- The target that an accepted error gives (R236); values in units of 2^-48 follower count. -/
def regTargetOf (a : Fin 112) (e : Int) (s : State) : State :=
  let ax := s.axes[a]
  let c := ax.regCfg
  let p := (sat128 (c.kp.toInt * e)).toInt
  let i := if ax.regClamped || ax.regLimited then ax.regIAcc.toInt else (sat128 (ax.regIAcc.toInt + c.ki.toInt * e)).toInt
  let most := (c.offMax.toNat : Int) * 2 ^ 48
  let want := (sat128 (p + i)).toInt
  let t := clampInt (-most) most want
  let clamped := decide (t ≠ want)
  let raw := freeRound s t (2 ^ 16)
  let s := modAxis a (fun ax => { ax with
    regIAcc := inc128 i, regStaged := ax.regStaged ++ [(BitVec.ofNat 64 (nextPour s), fixRaw raw)], regClamped := clamped
    follow := { ax.follow with clampSeen := ax.follow.clampSeen || (clamped && !ax.regClamped) } }) (drawn s)
  if clamped && !ax.regClamped then note Ev.regOffsetClamped (srcAxis a) 0 0 0 s else s

/-- One measurement of the axis's Geyser unit and channel: a distance in units of 2^-32 master count (R235, R237). -/
def regMeasure (a : Fin 112) (dist : Int) (s : State) : State :=
  let ax := s.axes[a]
  let c := ax.regCfg
  let d := dist - c.nominal.toInt
  let e := if c.neg then -d else d
  if ax.follow.regState = 0 then s
  else
    let s := modFollow a (fun f => { f with regLastErr := sat32 (e / 2 ^ 24) }) s
    if (c.eMax.toNat : Int) * 2 ^ 32 < e.natAbs then
      modFollow a (fun f => { f with
        regOutlierCount := satInc f.regOutlierCount, cntOvf := f.cntOvf || satFull f.regOutlierCount }) s
    else
      let s := clearCond Ev.markMissing [a] (modAxis a (fun ax => { ax with
        regTravel := 0
        follow := { ax.follow with
          regState := 1, regMarkCount := satInc ax.follow.regMarkCount
          cntOvf := ax.follow.cntOvf || satFull ax.follow.regMarkCount } }) s)
      regTargetOf a (if (e.natAbs : Int) ≤ (c.deadband.toNat : Int) * 2 ^ 32 then 0 else e) s

/-- MARK_MISSING (R237): the master has travelled MISS_LIMIT × PITCH counts without an accepted measurement; offset and
integrator are held. -/
def execMarkMissing (a : Fin 80) (s : State) : Host.Outcome State Fault Refusal :=
  let a : Fin 112 := a.castLE (by decide)
  let ax := s.axes[a]
  let far := (ax.regCfg.missLimit.toNat * ax.regCfg.pitch.toNat : Nat) * (2 ^ 32 : Int)
  if ax.follow.regState ≠ 1 || ax.regTravel.toInt < far then .next s
  else
    .next (raise Ev.markMissing (srcAxis a) ax.clsMark true 0 0 0 [a] (modAxis a (fun ax => { ax with
      regTarget := ax.follow.regOffset, regStaged := []
      follow := { ax.follow with
        regState := 2, missingSeen := true, regMissCount := satInc ax.follow.regMissCount
        cntOvf := ax.follow.cntOvf || satFull ax.follow.regMissCount } }) s))

end Sys2Proof.Machine
end

