-- ==== Sys2Proof/Machine/Axes.lean ====
section
/-! DEFINITION. Group 0x04, axes: their commands, homing, limit inputs, the hold after a stop and IN_POSITION (R184 to R213,
R611 to R613).  AXIS_ENABLE stands in Enable.lean, the master slots in Slots.lean. -/

namespace Sys2Proof.Machine

def axisOp (op : BitVec 16) (cls : ReplyClass) (stage : Stageable) (n : Nat) : OpDesc :=
  { op := op, cls := cls, stage := stage, target := tBelow 80, params := (· = n) }

/-! ### Inputs (R198, R203, R213) -/

/-- LIM_POS_SRC and its like: none, FIO00 to FIO23, CAP00 to CAP47. -/
def inputSrcOk (c : Nat) : Bool := c ≤ 0x18 || (decide (0x40 ≤ c) && decide (c ≤ 0x6F))
/-- The qualified level of an input code. -/
def inputLevel (s : State) (c : BitVec 8) : Bool :=
  let n := c.toNat
  if 1 ≤ n && n ≤ 0x18 then ((asFin 24 (n - 1)).map fun i => s.fio.chans[i].regs.qual).getD false
  else ((asFin 48 (n - 0x40)).map fun i => decide (0x40 ≤ n) && s.geyser.caps[i].regs.qualLevel).getD false
/-- The input is assigned and active; bit k of ACTIVE_LOW inverts it. -/
def inputActive (s : State) (ax : Axis) (c : BitVec 8) (k : Nat) : Bool :=
  c ≠ 0 && (inputLevel s c != ax.regs.activeLow.getLsbD k)
/-- LIMIT_POS and LIMIT_NEG follow their inputs. -/
def refreshLimits (a : Fin 112) (s : State) : State :=
  modAxis a (fun ax => { ax with
    limitPos := inputActive s ax ax.regs.limPosSrc 0, limitNeg := inputActive s ax ax.regs.limNegSrc 1 }) s

/-! ### AXIS_CONFIG (R181, R611) -/

def modulusOk (m : Nat) : Bool := decide (2 ≤ m) && decide (m ≤ 2 ^ 62)
def acceptAxisConfig (p : Packet) (_ : State) : BitVec 16 :=
  let w := par p 4
  if !parIn p 0 0 1 || (par p 0 = 1 && !modulusOk (par64 p 1).toNat) || !parIn p 3 0 1 || !parIn p 6 0 65535
      || !parIn p 7 0 10000 || !inputSrcOk (w.extractLsb' 0 8).toNat || !inputSrcOk (w.extractLsb' 8 8).toNat
      || !inputSrcOk (w.extractLsb' 16 8).toNat then Status.paramRange
  else Status.ok
/-- MODULUS that the packet gives: 0 on a linear axis. -/
def configModulus (p : Packet) : BitVec 64 := if par p 0 = 1 then par64 p 1 else 0
def kindChanges (p : Packet) (ax : Axis) : Bool :=
  ax.regs.kind != parBool p 0 || decide (ax.regs.modulus ≠ configModulus p)
def checkAxisConfig (p : Packet) (s : State) : BitVec 16 :=
  let ax := axReg p s
  if kindChanges p ax && ax.enabled then Status.axisEnabled else Status.ok
/-- The position in its new kind or modulus (R611). -/
def reexpress (a : Fin 112) (kind : Bool) (m : BitVec 64) (s : State) : State :=
  let u := unwrapped s.axes[a]
  let s := placeAt a u (modAxis a (fun ax => { ax with regs := { ax.regs with kind := kind, modulus := m } }) s)
  if 80 ≤ a.val then s else modAxis a (fun ax => { ax with regs := { ax.regs with spPos := ax.regs.actPos } }) s
def applyAxisConfig (p : Packet) (s : State) : State :=
  let a := axOf p
  let s := if kindChanges p s.axes[a] then reexpress a (parBool p 0) (configModulus p) s else s
  if 80 ≤ a.val then s
  else
    let w := par p 4
    refreshLimits a (modAxis a (fun ax => { ax with regs := { ax.regs with
      decelChange := parBool p 3, limPosSrc := w.extractLsb' 0 8, limNegSrc := w.extractLsb' 8 8
      homeSrc := w.extractLsb' 16 8, activeLow := w.extractLsb' 24 3
      inPosWindow := par p 5, inPosTime := parBits p 6 16, holdTime := parBits p 7 14 } }) s)
def stAxisConfig : StageOp :=
  { d := { op := 0x0401, cls := .b, stage := .yes, target := tBelow 112, params := (· = 8)
           reservedOk := fun p => par p 4 >>> 27 = 0 }
    accept := acceptAxisConfig, check := checkAxisConfig, apply := applyAxisConfig }
/-- AXIS_CONFIG (R181, R212, R611). -/
def execAxisConfig (p : Packet) (s : State) : Host.Outcome State Fault Refusal := .next (stageRequest stAxisConfig p s)

def dAxisScaleSet : OpDesc := { op := 0x0402, cls := .b, target := tBelow 112, params := (· = 2) }
def acceptAxisScale (p : Packet) (_ : State) : BitVec 16 :=
  if par p 0 = 0 || par p 1 = 0 then Status.paramRange else Status.ok
def runAxisScale (p : Packet) (s : State) : Reply :=
  ok (modAxis (axOf p) (fun ax => { ax with regs := { ax.regs with scaleNum := par p 0, scaleDen := par p 1 } }) s)
/-- AXIS_SCALE_SET (R184, R185). -/
def execAxisScaleSet (p : Packet) (s : State) : Host.Outcome State Fault Refusal :=
  .next (request dAxisScaleSet acceptAxisScale runAxisScale p s)

/-! ### Limits (R190, R195 to R197, R613) -/

/-- A limit in user units: positive and at most 2^47 in counts. -/
def limitStatus (ax : Axis) (u : Fix) : BitVec 16 :=
  match toMagnitude ax u with
  | none => Status.valueOutOfRange
  | some c => if c = 0 || decide ((2 ^ 79 : Int) < c.toInt) then Status.paramRange else Status.ok
/-- The first status that is not OK. -/
def firstBad (l : List (BitVec 16)) : BitVec 16 := (l.find? fun x => decide (x ≠ Status.ok)).getD Status.ok
/-- Limits at the word places given. -/
def limitsStatus (ax : Axis) (p : Packet) (is : List Nat) : BitVec 16 := firstBad (is.map fun i => limitStatus ax (par96 p i))
def convMag (ax : Axis) (p : Packet) (is : List Nat) : Packet :=
  is.foldl (fun p i => putPar96 i ((toMagnitude ax (par96 p i)).getD 0) p) p

/-- New maxima; a ramp under DEFER finishes under the old ones (R196). -/
def applyAxisLimits (p : Packet) (s : State) : State :=
  modAxis (axOf p) (fun ax =>
    let wait := !ax.regs.decelChange && ax.source = 0 && decelerating ax
    { ax with
      oldLimits := if wait then liveMaxima ax else ax.oldLimits
      limitsDeferred := wait
      regs := { ax.regs with vMax := par96 p 0, aMax := par96 p 3, decMax := par96 p 6, jMax := par96 p 9 } }) s
def stAxisLimitsSet : StageOp :=
  { d := axisOp 0x0403 .b .yes 12
    accept := fun p s => limitsStatus (axReg p s) p [0, 3, 6, 9]
    conv := fun p s => convMag (axReg p s) p [0, 3, 6, 9]
    apply := applyAxisLimits }
/-- AXIS_LIMITS_SET (R190, R196). -/
def execAxisLimitsSet (p : Packet) (s : State) : Host.Outcome State Fault Refusal := .next (stageRequest stAxisLimitsSet p s)

def stStopLimitsSet : StageOp :=
  { d := axisOp 0x0404 .b .yes 6
    accept := fun p s => limitsStatus (axReg p s) p [0, 3]
    conv := fun p s => convMag (axReg p s) p [0, 3]
    apply := fun p s => modAxis (axOf p) (fun ax => { ax with regs := { ax.regs with decStop := par96 p 0, jStop := par96 p 3 } }) s }
/-- STOP_LIMITS_SET (R190, R197). -/
def execStopLimitsSet (p : Packet) (s : State) : Host.Outcome State Fault Refusal := .next (stageRequest stStopLimitsSet p s)

/-- SW_NEG and SW_POS from two values in counts, rounded inward (R613). -/
def softPair (x y : Int) : Int × Int := (divUp (min x y) (2 ^ 32), max x y / 2 ^ 32)
def acceptSoftLimits (p : Packet) (s : State) : BitVec 16 :=
  let ax := axReg p s
  match toCounts ax (par96 p 0), toCounts ax (par96 p 3) with
  | some x, some y =>
    let (lo, hi) := softPair x.toInt y.toInt
    if ax.regs.kind then Status.valueOutOfRange
    else if hi < lo || !parIn p 6 0 1 then Status.paramRange
    else Status.ok
  | _, _ => Status.valueOutOfRange
def applySoftLimits (p : Packet) (s : State) : State :=
  let (lo, hi) := softPair (par96 p 0).toInt (par96 p 3).toInt
  modAxis (axOf p) (fun ax => { ax with regs := { ax.regs with
    swNeg := BitVec.ofInt 64 lo, swPos := BitVec.ofInt 64 hi, swEn := parBool p 6 } }) s
def stSoftLimitsSet : StageOp :=
  { d := axisOp 0x0405 .b .yes 7
    accept := acceptSoftLimits
    conv := fun p s => convPar 3 (axReg p s) (convPar 0 (axReg p s) p)
    check := fun p s => if (axReg p s).regs.kind then Status.valueOutOfRange else Status.ok
    apply := applySoftLimits }
/-- SOFT_LIMITS_SET (R195, R613). -/
def execSoftLimitsSet (p : Packet) (s : State) : Host.Outcome State Fault Refusal := .next (stageRequest stSoftLimitsSet p s)

/-! ### Stopping (R208, R209, R193) -/

/-- A stepper freezes its address at the next current tick (R209, R400). -/
def freezeStepper (a : Fin 112) (s : State) : State :=
  let s := if s.axes[a].regs.spVel ≠ 0 then markUncertain a s else s
  let s := modAxis a (fun ax => { endFollow ax with
    move := none, next := none, ramp := none, regs := { ax.regs with spVel := 0, spAcc := 0 } }) s
  match axisTile a with
  | some t => modTile t (fun tl => { tl with sv := { tl.sv with frozen := true } }) s
  | none => s

/-- AXIS_DISABLE: a moving axis makes a STOP ramp first; a stepper, or an axis at standstill, is disabled at once. -/
def applyAxisDisable (p : Packet) (s : State) : State :=
  let a := axOf p
  let ax := s.axes[a]
  if !ax.enabled then s
  else if isStepper s a || ax.holdSince.isSome || (ax.regs.spVel = 0 && ax.regs.spAcc = 0) then disableAxis a s
  else
    let s := failHoming a 4 s
    modAxis a (fun ax => { ax with
      stopping := true
      ramp := match ax.ramp with
        | some r => some { r with disable := true }
        | none => some { dec := ax.regs.decStop, j := ax.regs.jStop, fault := false, disable := true } }) s
def stAxisDisable : StageOp := { d := axisOp 0x0407 .b .mode 0, apply := applyAxisDisable }
/-- AXIS_DISABLE (R208, R209). -/
def execAxisDisable (p : Packet) (s : State) : Host.Outcome State Fault Refusal := .next (stageRequest stAxisDisable p s)

/-! ### Profile moves (R190 to R195) -/

/-- A named limit: 0 for the maximum, else within it. -/
def namedStatus (ax : Axis) (u most : Fix) : BitVec 16 :=
  if u = 0 then Status.ok
  else match toMagnitude ax u with
    | none => Status.valueOutOfRange
    | some c =>
      if c = 0 || decide ((2 ^ 79 : Int) < c.toInt) then Status.paramRange
      else if most.toInt < c.toInt then Status.limitExceedsAxis else Status.ok
/-- A named limit already in counts, against the maximum now in force. -/
def namedStill (c most : Fix) : BitVec 16 := if most.toInt < c.toInt then Status.limitExceedsAxis else Status.ok
/-- What refuses a profile move whatever its target (R193); a STOP that takes the axis from its source at this pour governs (R210). -/
def profileStatus (ax : Axis) : BitVec 16 :=
  if !ax.enabled then Status.axisNotEnabled
  else if axisStops ax then Status.axisStopping
  else if ax.source ≠ 0 then Status.axisFollowing
  else if ax.home.isSome then Status.axisHoming
  else Status.ok
/-- A motor identification refuses moves, homing and mode commands (R381). -/
def identStatus (s : State) (a : Fin 112) : BitVec 16 := if identifying s a then Status.axisIdentifying else Status.ok
/-- A motion in the direction of an active limit input (R201). -/
def towardLimit (ax : Axis) (d : Int) : Bool := (decide (0 < d) && ax.limitPos) || (decide (d < 0) && ax.limitNeg)

def acceptMovePosition (p : Packet) (s : State) : BitVec 16 :=
  let ax := axReg p s
  let m := maxima ax
  if !parIn p 3 0 1 || !parIn p 4 0 3 then Status.paramRange
  else if (toCounts ax (par96 p 0)).isNone then Status.valueOutOfRange
  else firstBad [namedStatus ax (par96 p 7) m.v, namedStatus ax (par96 p 10) m.a, namedStatus ax (par96 p 13) m.dec,
    namedStatus ax (par96 p 16) m.j]
def convMovePosition (p : Packet) (s : State) : Packet :=
  let ax := axReg p s
  convMag ax (convPar 0 ax p) [7, 10, 13, 16]
def positionMove (p : Packet) : Move :=
  { kind := .position, target := par96 p 0, rel := parBool p 3, dir := parBits p 4 2, turns := par64 p 5
    v := par96 p 7, a := par96 p 10, dec := par96 p 13, j := par96 p 16 }
/-- The end of a position move on the set-point's own scale. -/
def moveEnd (ax : Axis) (m : Move) : Int := ax.regs.spPos.toInt + moveTravel ax m
/-- The axis as a move that takes effect at this pour finds it: the set-point that the profile before it gives there (R191). -/
def atStart (a : Fin 112) (s : State) : Axis := (profilePour a (modAxis a (fun ax => { ax with next := none }) s)).axes[a]
/-- What is wrong with a position target (R182, R194, R195, R201). -/
def targetStatus (ax : Axis) (m : Move) : BitVec 16 :=
  let e := moveEnd ax m
  if !m.rel && m.dir = 3 && (!ax.regs.kind || ax.turnsSaturated) then Status.axisKindMismatch
  else if ax.regs.kind && !m.rel && (decide (m.target.toInt < 0) || decide (modRaw ax ≤ m.target.toInt)) then Status.valueOutOfRange
  else if !ax.regs.kind && (decide (e < linMin) || decide (linMax < e)) then Status.valueOutOfRange
  else if softOn ax && (decide (e < softLo ax) || decide (softHi ax < e)) then Status.valueOutOfRange
  else if towardLimit ax (moveTravel ax m) then Status.limitActive
  else Status.ok
def checkMovePosition (p : Packet) (s : State) : BitVec 16 :=
  let ax := axReg p s
  let m := maxima ax
  firstBad [identStatus s (axOf p), profileStatus ax, namedStill (par96 p 7) m.v, namedStill (par96 p 10) m.a, namedStill (par96 p 13) m.dec,
    namedStill (par96 p 16) m.j, targetStatus (atStart (axOf p) s) (positionMove p)]
/-- The move takes effect at the coming pour. -/
def startMove (a : Fin 112) (m : Move) (s : State) : State := modAxis a (fun ax => { ax with next := some m }) s
def stMovePosition : StageOp :=
  { d := axisOp 0x0408 .b .mode 19, accept := acceptMovePosition, conv := convMovePosition, check := checkMovePosition
    apply := fun p s => startMove (axOf p) (positionMove p) s }
/-- MOVE_POSITION (R190 to R195). -/
def execMovePosition (p : Packet) (s : State) : Host.Outcome State Fault Refusal := .next (stageRequest stMovePosition p s)

def acceptMoveVelocity (p : Packet) (s : State) : BitVec 16 :=
  let ax := axReg p s
  let m := maxima ax
  match toMagnitude ax (par96 p 0) with
  | none => Status.valueOutOfRange
  | some v =>
    if m.v.toInt < v.toInt then Status.limitExceedsAxis
    else firstBad [namedStatus ax (par96 p 3) m.a, namedStatus ax (par96 p 6) m.dec, namedStatus ax (par96 p 9) m.j]
def velocityMove (p : Packet) : Move :=
  { kind := .velocity, target := par96 p 0, v := 0, a := par96 p 3, dec := par96 p 6, j := par96 p 9 }
def checkMoveVelocity (p : Packet) (s : State) : BitVec 16 :=
  let ax := axReg p s
  let m := maxima ax
  firstBad [identStatus s (axOf p), profileStatus ax, namedStill (fixRaw ((par96 p 0).toInt.natAbs : Int)) m.v, namedStill (par96 p 3) m.a,
    namedStill (par96 p 6) m.dec, namedStill (par96 p 9) m.j,
    if towardLimit ax (par96 p 0).toInt then Status.limitActive else Status.ok]
def stMoveVelocity : StageOp :=
  { d := axisOp 0x0409 .b .mode 12, accept := acceptMoveVelocity
    conv := fun p s => convMag (axReg p s) (convPar 0 (axReg p s) p) [3, 6, 9]
    check := checkMoveVelocity, apply := fun p s => startMove (axOf p) (velocityMove p) s }
/-- MOVE_VELOCITY (R190 to R195). -/
def execMoveVelocity (p : Packet) (s : State) : Host.Outcome State Fault Refusal := .next (stageRequest stMoveVelocity p s)

def acceptMoveStop (p : Packet) (s : State) : BitVec 16 :=
  let ax := axReg p s
  let m := maxima ax
  firstBad [namedStatus ax (par96 p 0) m.dec, namedStatus ax (par96 p 3) m.j]
def checkMoveStop (p : Packet) (s : State) : BitVec 16 :=
  let ax := axReg p s
  firstBad [if ax.enabled then Status.ok else Status.axisNotEnabled, namedStill (par96 p 0) ax.regs.decMax,
    namedStill (par96 p 3) ax.regs.jMax]
/-- MOVE_STOP: it ends homing, a following or another source; a STOP already in force governs; a stepper freezes. -/
def applyMoveStop (p : Packet) (s : State) : State :=
  let a := axOf p
  let ax := s.axes[a]
  let s := match axisTile a with
    | some t => abortIdent t s
    | none => s
  if axisStops ax then s
  else if ax.home.isSome then homeFail a 4 s
  else if isStepper s a then freezeStepper a s
  else if ax.source ≠ 0 then modAxis a (toProfile false (par96 p 0) (par96 p 3)) s
  else startMove a { kind := .stop, target := 0, v := 0, a := 0, dec := par96 p 0, j := par96 p 3 } s
def stMoveStop : StageOp :=
  { d := { axisOp 0x040A .b .mode 6 with prio := true }, accept := acceptMoveStop
    conv := fun p s => convMag (axReg p s) p [0, 3]
    check := checkMoveStop, apply := applyMoveStop }
/-- MOVE_STOP (R191, R193, R209). -/
def execMoveStop (p : Packet) (s : State) : Host.Outcome State Fault Refusal := .next (stageRequest stMoveStop p s)

/-! ### Homing (R198 to R207) -/

def acceptHomeConfig (p : Packet) (s : State) : BitVec 16 :=
  let ax := axReg p s
  if !parIn p 0 0 12 || !parIn p 17 0 1000 || !parIn p 18 1 1000 then Status.paramRange
  else if (toCounts ax (par96 p 1)).isNone then Status.valueOutOfRange
  else limitsStatus ax p [4, 7, 10]
def applyHomeConfig (p : Packet) (s : State) : State :=
  modAxis (axOf p) (fun ax => { ax with regs := { ax.regs with
    homeMethod := parBits p 0 4, homeValue := par96 p 1, vSearch := par96 p 4, vCreep := par96 p 7, aHome := par96 p 10
    backoff := par64 p 13, maxTravel := par64 p 15, iHome := parBits p 17 10, tHs := parBits p 18 10 } }) s
def stHomeConfig : StageOp :=
  { d := axisOp 0x040B .b .yes 19, accept := acceptHomeConfig
    conv := fun p s => convMag (axReg p s) (convPar 1 (axReg p s) p) [4, 7, 10]
    apply := applyHomeConfig }
/-- HOME_CONFIG (R198). -/
def execHomeConfig (p : Packet) (s : State) : Host.Outcome State Fault Refusal := .next (stageRequest stHomeConfig p s)

/-- The axis has no encoder angle: its position comes from the observer (R373). -/
def sensorless (s : State) (a : Fin 112) : Bool :=
  match axisTile a with
  | some t => s.tiles[t].regs.mode = 1 && s.tiles[t].foc.regs.angleSrc
  | none => false
/-- The input, index or feedback that a method needs is there (R198, R373). -/
def methodAvailable (s : State) (a : Fin 112) (m : Nat) : Bool :=
  let ax := s.axes[a]
  match axisTile a with
  | none => m = 11
  | some t =>
    let en := s.encs[tileEnc t].regs
    let edge := !sensorless s a
    if m = 1 || m = 2 then edge && ax.regs.homeSrc ≠ 0
    else if m = 3 || m = 4 then edge && ax.regs.homeSrc ≠ 0 && en.zEn
    else if m = 5 then edge && ax.regs.limPosSrc ≠ 0
    else if m = 6 then edge && ax.regs.limNegSrc ≠ 0
    else if m = 7 || m = 8 then edge && en.zEn
    else if m = 9 || m = 10 then s.tiles[t].regs.mode ≠ 0
    else if m = 11 then true
    else m = 12 && en.fbSrc = 2
/-- The axis publishes a master entry in the plan in force (R206). -/
def publishes (s : State) (a : Fin 112) : Bool := (planAxes s.link.plan).any fun x => x.val = a.val
def checkHomeStart (p : Packet) (s : State) : BitVec 16 :=
  let a := axOf p
  let ax := s.axes[a]
  let m := ax.regs.homeMethod.toNat
  if identifying s a then Status.axisIdentifying
  else if publishes s a then Status.axisPublished
  else if !methodAvailable s a m then Status.axisKindMismatch
  else if m ≤ 10 then profileStatus ax
  else if ax.home.isSome then Status.axisHoming
  else if axisStops ax then Status.axisStopping
  else if m = 11 && (ax.regs.spVel ≠ 0 || ax.regs.actVel ≠ 0) then Status.axisMoving
  else Status.ok
/-- The absolute reading in 2^-32 counts of the axis: a closed stepper's is converted to addresses (R198, R401). -/
def absPosition (s : State) (t : Fin 16) : Int :=
  let r := s.tiles[t].sv.regs
  let c := s.encs[tileEnc t].regs.absCount.toInt
  if s.tiles[t].regs.mode = 2 && s.loops[tileLoop t 0].regs.programId = 0x11 then
    c * r.stepEncNum.toNat * 2 ^ 32 / (max 1 r.stepEncDen.toNat : Nat)
  else c * 2 ^ 32
/-- Rated current of the axis in current units (R202). -/
def ratedCurrent (s : State) (a : Fin 112) : Word :=
  match axisTile a with
  | some t =>
    let tl := s.tiles[t]
    if tl.regs.mode = 1 then tl.foc.regs.iMax else if tl.regs.mode = 2 then tl.sv.regs.iRun else tl.sv.regs.iCoilMax
  | none => 0
/-- The reference has no edge of its own: it is latched here and now at a position (methods 9 to 12). -/
def latchHere (pos : Int) (s : State) (h : HomeRun) : HomeRun :=
  { h with known := some (fixRaw pos), edgeDt := s.dt, latchedAt := some s.dt }
def applyHomeStart (p : Packet) (s : State) : State :=
  let a := axOf p
  let ax := s.axes[a]
  let m := ax.regs.homeMethod.toNat
  let u := unwrapped ax
  let h : HomeRun := { method := ax.regs.homeMethod, dirPos := m % 2 = 1, passStart := fixRaw u, rated := ratedCurrent s a }
  let start (h : HomeRun) (ph : BitVec 4) (s : State) : State :=
    modAxis a (fun ax => { ax with
      homed := false, home := some h, move := none, next := none, limitsDeferred := false, atIHome := false, regs := { ax.regs with homePhase := ph, homeFailCause := 0 } }) s
  if m ≤ 4 && inputActive s ax ax.regs.homeSrc 2 then start h 1 s
  else if m ≤ 10 then start h 2 s
  else if m = 11 then start (latchHere u s h) 5 s
  else
    let en := s.encs.getD a.val {}
    let abs := match axisTile a with
      | some t => absPosition s t
      | none => 0
    if en.absOk then start (latchHere (u - abs) s h) 5 s
    else homeFail a 6 (start h 5 s)
def stHomeStart : StageOp := { d := axisOp 0x040C .b .mode 0, check := checkHomeStart, apply := applyHomeStart }
/-- HOME_START (R198 to R207). -/
def execHomeStart (p : Packet) (s : State) : Host.Outcome State Fault Refusal := .next (stageRequest stHomeStart p s)

/-- The search pass ends at its reference edge: the return begins (R199). -/
def homeReturn (a : Fin 112) (s : State) : State :=
  homePhase a 3 (fun h => { h with edge := fixRaw (unwrapped s.axes[a]) }) s

/-- What an input of a homing axis is. -/
inductive HomeIn where
  | home | limPos | limNeg | index
deriving DecidableEq, Repr

/-- The input gives the reference of the method in the pass under way: for methods 3 and 4, the home edge in the search and
the first index after it in the creep pass. -/
def isReference (ax : Axis) (h : HomeRun) (w : HomeIn) : Bool :=
  let m := h.method.toNat
  let creep := ax.regs.homePhase = 4
  match w with
  | .home => m = 1 || m = 2 || ((m = 3 || m = 4) && !creep)
  | .limPos => m = 5 && h.dirPos
  | .limNeg => m = 6 && !h.dirPos
  | .index => m = 7 || m = 8 || ((m = 3 || m = 4) && creep && h.edgeSeen)
/-- LIMIT_SWITCH (R201). -/
def limitSwitch (a : Fin 112) (neg : Bool) (s : State) : State :=
  raise Ev.limitSwitch (srcAxis a) s.axes[a].clsLimitSw false (boolWord neg) 0 0 [a]
    (modAxis a (fun ax => { ax with regs := { ax.regs with
      limitSeen := true, limitHitCount := satInc ax.regs.limitHitCount
      cntOvf := ax.regs.cntOvf || satFull ax.regs.limitHitCount } }) s)

/-- The history sample pair around an instant: the last at or before it, and the first after. -/
def histPair (t : Fix) : List HistSample → Option HistSample → Option (HistSample × HistSample)
  | [], _ => none
  | h :: rest, after =>
    if h.t.toNat ≤ t.toNat then after.map fun n => (h, n) else histPair t rest (some h)
/-- The position, or set-point, interpolated at an instant (R447); a result off the grid of 2^-32 count takes either
neighbour. -/
def interpAt (s : State) (h : List HistSample) (t : Fix) (sp : Bool) : Option (Int × Bool) :=
  (histPair t h none).map fun (a, b) =>
    let x (z : HistSample) : Int := if sp then z.sp else z.u
    let span := b.t.toInt - a.t.toInt
    (x a + freeRound s ((x b - x a) * (t.toInt - a.t.toInt)) span, a.unconf || b.unconf)

/-- A latched position, in the range of its axis. -/
def latchWord (ax : Axis) (pos : Int) : Fix := if ax.regs.kind then fixRaw (pos % modRaw ax) else fixRaw pos
/-- The HOME_LATCH registers take DT, position and uncertainty of the latch together, once the position history reaches past
its instant; the position is kept for the re-reference (R204). -/
def showLatch (a : Fin 112) (s : State) : State :=
  let ax := s.axes[a]
  match ax.home with
  | none => s
  | some h =>
    let pos := (h.known.map (·.toInt)).or ((interpAt s ax.posHist h.edgeDt false).map (·.1))
    match pos with
    | some x =>
      if h.shown || h.latchedAt.isNone then s
      else drawn (modAxis a (fun ax => { ax with
        home := some { h with known := some (fixRaw x), shown := true }
        regs := { ax.regs with latchDt := nsOf h.edgeDt, latchUnc := h.unc, latchPos := latchWord ax x } }) s)
    | none => s
/-- The reference of the creep pass is latched: its first raw edge lay at t (R199, R203, R204). -/
def homeLatch (a : Fin 112) (t : Fix) (unc : BitVec 8) (known : Option Int) (leaving : Bool) (s : State) : State :=
  showLatch a (homePhase a 5 (fun h => { h with
    latchedAt := some s.dt, edgeDt := t, known := known.map fixRaw, unc := unc, leaving := leaving }) s)
/-- A limit input met on the way, which is not the reference (R201). -/
def homeLimit (a : Fin 112) (h : HomeRun) (pos : Bool) (s : State) : State :=
  match h.hitLimit with
  | some neg => homeFail a (if neg = !pos then 2 else 1) s
  | none =>
    if h.dirPos != pos then s
    else homePhase a s.axes[a].regs.homePhase (fun h => { h with dirPos := !h.dirPos, hitLimit := some (!pos) }) s
/-- The input is the limit that the method takes its reference from. -/
def ownLimit (h : HomeRun) (w : HomeIn) : Bool := (h.method = 5 && w = .limPos) || (h.method = 6 && w = .limNeg)
/-- A qualified transition of an input of an axis in homing; t is its first raw edge. -/
def homeEdge (a : Fin 112) (w : HomeIn) (active : Bool) (t : Fix) (unc : BitVec 8) (known : Option Int) (s : State) : State :=
  let ax := s.axes[a]
  match ax.home with
  | none => s
  | some h =>
    let ph := ax.regs.homePhase.toNat
    let limit := w = .limPos || w = .limNeg
    if ph = 1 && w = .home && !active then homePhase a 2 id s
    else if ph = 5 && h.leaving && !active && ownLimit h w then
      modAxis a (fun ax => { ax with home := ax.home.map fun h => { h with leaving := false } }) s
    else if !active then s
    else if limit && (h.method = 9 || h.method = 10) then homeFail a 5 s
    else if ph = 2 && isReference ax h w then homeReturn a s
    else if ph = 4 && isReference ax h w then homeLatch a t unc known (h.method = 5 || h.method = 6) s
    else if ph = 4 && w = .home then modAxis a (fun ax => { ax with home := ax.home.map fun h => { h with edgeSeen := true } }) s
    else if limit && 1 ≤ ph && ph ≤ 4 && !ownLimit h w then homeLimit a h (w = .limPos) s
    else s

/-- A qualified transition of the input with this code, for one axis (R198, R201, R203). -/
def axisInput (code : BitVec 8) (t : Fix) (unc : BitVec 8) (a : Fin 112) (s : State) : State :=
  let ax := s.axes[a]
  let lp := ax.regs.limPosSrc = code
  let ln := ax.regs.limNegSrc = code
  let s := refreshLimits a s
  let one (w : HomeIn) (k : Nat) (on : Bool) (s : State) : State :=
    if on then homeEdge a w (inputActive s ax code k) t unc none s else s
  let out := ax.enabled && ax.home.isNone
  let s := one .limNeg 1 ln (one .limPos 0 lp (one .home 2 (ax.regs.homeSrc = code) s))
  let s := if lp && out && s.axes[a].limitPos && decide (0 < axisVel ax) then limitSwitch a false s else s
  if ln && out && s.axes[a].limitNeg && decide (axisVel ax < 0) then limitSwitch a true s else s
/-- Every axis that the input serves. -/
def inputEdge (code : BitVec 8) (t : Fix) (unc : BitVec 8) (s : State) : State :=
  if code = 0 then s else hostAxes.foldl (fun s a =>
    let r := s.axes[a].regs
    if r.limPosSrc = code || r.limNegSrc = code || r.homeSrc = code then axisInput code t unc a s else s) s

/-- A re-reference moves a stepper's targets with its position, and not the address applied (R205, log entry 125). -/
def shiftStepper (a : Fin 112) (was : Fix) (s : State) : State :=
  let d := nsLo s.axes[a].regs.actPos - nsLo was
  match axisTile a with
  | some t =>
    if isStepper s a then
      tilePut t 0x88 (tileGet s t 0x88 + d) (modTile t (fun tl => { tl with sv := { tl.sv with
        target := tl.sv.target + d, prevTarget := tl.sv.prevTarget + d, moved := tl.sv.moved + d.truncate 10 } }) s)
    else s
  | none => s
/-- The re-reference at the first pour point at least 5 us after the latch (R205). -/
def rereferencePour (a : Fin 112) (s : State) : State :=
  let s := showLatch a s
  let ax := s.axes[a]
  match ax.home with
  | none => s
  | some h =>
    match h.latchedAt with
    | none => s
    | some t0 =>
      if h.referenced || s.dt.toNat < t0.toNat + 5000 * 2 ^ 32 then s
      else
        let d := ax.regs.homeValue.toInt - ((h.known.map (·.toInt)).getD (unwrapped ax))
        let was := ax.uncertain
        let s := shiftStepper a ax.regs.actPos (rereference a d s)
        let s := modAxis a (fun ax => { ax with
          uncertain := was && h.method = 11 && isStepper s a
          home := ax.home.map fun h => { h with
            referenced := true, edge := h.edge + fixRaw d, passStart := h.passStart + fixRaw d } }) s
        if ax.enabled then s else homingDone a h s

/-- The measured speed is below V_CREEP ÷ 8 with the current at I_HOME, while homing searches a hard stop (R202). -/
def hardStopSlow (ax : Axis) (h : HomeRun) : Bool :=
  (h.method = 9 || h.method = 10) && ax.regs.homePhase = 2 && ax.atIHome
    && decide ((8 * ax.regs.actVel.toInt.natAbs : Int) < ax.regs.vCreep.toInt)
/-- The run of such pours begins, goes on, or ends. -/
def hardStopPour (a : Fin 112) (s : State) : State :=
  modAxis a (fun ax => { ax with home := ax.home.map fun h => { h with
    slowSince := if hardStopSlow ax h then some (h.slowSince.getD s.dt) else none } }) s
/-- HARD_STOP_DETECT (R202): on a servo or valve axis the run has lasted T_HS; the reference is the actual position at this
pour, and the axis returns. -/
def execHardStopDetect (a : Fin 16) (s : State) : Host.Outcome State Fault Refusal :=
  let a : Fin 112 := a.castLE (by decide)
  let ax := s.axes[a]
  match ax.home with
  | some h =>
    if hardStopSlow ax h && !isStepper s a && (h.slowSince.any fun t => hasPassed t (ax.regs.tHs.toNat * 1000000) s) then
      .next (showLatch a (homePhase a 3 (fun h => { latchHere (unwrapped ax) s h with edge := fixRaw (unwrapped ax) }) s))
    else .next s
  | none => .next s

/-! ### Status, faults, hold, IN_POSITION -/

def stFaultClear : StageOp :=
  { d := axisOp 0x040D .b .mode 0
    check := fun p s => if (axReg p s).conds.isEmpty then Status.ok else Status.faultActive
    apply := fun p s =>
      let s := modAxis (axOf p) (fun ax => { ax with fault := false }) s
      match axisTile (axOf p) with
      | some t => unventTile t 1 (modTile t (fun tl => { tl with sv := { tl.sv with regs := { tl.sv.regs with stalled := false } } })
          (modEnc (tileEnc t) (fun en => { en with illegal := false }) s))
      | none => s }
/-- FAULT_CLEAR (R188): the vent cause that a fault left goes too (R339). -/
def execFaultClear (p : Packet) (s : State) : Host.Outcome State Fault Refusal := .next (stageRequest stFaultClear p s)

def dAxisStatus : OpDesc := { op := 0x040E, cls := .a, target := tBelow 112, params := (· = 0) }
def runAxisStatus (p : Packet) (s : State) : Reply :=
  let a := axOf p
  let ax := s.axes[a]
  let own : List Word := if a.val < 80 then
      [ax.regs.moveDoneCount, ax.regs.moveReplacedCount, ax.regs.overshootCount, ax.regs.homeCount, ax.regs.homeFailCount,
        ax.regs.limitHitCount]
    else List.replicate 6 0
  let target : Fix := if a.val < 80 then ax.regs.target else 0
  match userWords ax [ax.regs.actPos, ax.regs.actVel, ax.regs.spPos], userWords ax [target] with
  | some x, some t =>
    okWith (axisStatusWord s a :: x ++ words64 ax.regs.turns ++ t ++ own ++ [ax.regs.scaleNum, ax.regs.scaleDen]) s
  | _, _ => answer Status.valueOutOfRange s
/-- AXIS_STATUS (R212). -/
def execAxisStatus (p : Packet) (s : State) : Host.Outcome State Fault Refusal :=
  .next (request dAxisStatus acceptAny runAxisStatus p s)

def dHomeResult : OpDesc := axisOp 0x040F .a .no 0
def runHomeResult (p : Packet) (s : State) : Reply :=
  let ax := axReg p s
  match userWords ax [ax.regs.latchPos] with
  | none => answer Status.valueOutOfRange s
  | some x => okWith (words64 ax.regs.latchDt ++ x ++ [ax.regs.latchUnc.zeroExtend 32,
    ax.regs.homePhase.zeroExtend 32, ax.regs.homeFailCause.zeroExtend 32]) s
/-- HOME_RESULT (R212). -/
def execHomeResult (p : Packet) (s : State) : Host.Outcome State Fault Refusal :=
  .next (request dHomeResult acceptAny runHomeResult p s)

def dAxisPolicySet : OpDesc :=
  { op := 0x0410, cls := .b, target := fun n => n < 80 || n = 0xFFFF, params := (· = 3) }
def acceptAxisPolicy (p : Packet) (_ : State) : BitVec 16 :=
  if clsAllowed .stop (par p 0) && clsAllowed .stop (par p 1) && clsAllowed .stop (par p 2) then Status.ok else Status.paramRange
def runAxisPolicy (p : Packet) (s : State) : Reply :=
  let set (a : Fin 112) (s : State) : State :=
    modAxis a (fun ax => { ax with clsPosLimit := clsOf (par p 0), clsLimitSw := clsOf (par p 1), clsSoft := clsOf (par p 2) }) s
  ok (if tgt p = 0xFFFF then hostAxes.foldl (fun s a => set a s) s else set (axOf p) s)
/-- AXIS_POLICY_SET (R212). -/
def execAxisPolicySet (p : Packet) (s : State) : Host.Outcome State Fault Refusal :=
  .next (request dAxisPolicySet acceptAxisPolicy runAxisPolicy p s)

/-- AXIS_HOLD_EXPIRY (R208): HOLD_TIME at standstill after a stop of fault origin is over. -/
def execAxisHoldExpiry (a : Fin 80) (s : State) : Host.Outcome State Fault Refusal :=
  let a : Fin 112 := a.castLE (by decide)
  let isOver : Bool := s.axes[a].holdSince.any fun t => hasPassed t (s.axes[a].regs.holdTime.toNat * 1000000) s
  .next (if isOver then disableAxis a s else s)

/-- What IN_POSITION needs besides its time (R612). -/
def inWindow (ax : Axis) : Bool :=
  ax.enabled && ax.regs.spVel = 0 && ax.regs.spAcc = 0 && ax.move.isNone && ax.next.isNone
    && decide (((shortWay ax (ax.regs.actPos.toInt - ax.regs.spPos.toInt)).natAbs : Int) ≤ (ax.regs.inPosWindow.toNat : Int) * 2 ^ 32)
/-- The conditions of IN_POSITION at a pour: their run begins, or ends with IN_POSITION cleared. -/
def inPositionPour (a : Fin 112) (s : State) : State :=
  modAxis a (fun ax => if inWindow ax then { ax with restSince := some (ax.restSince.getD s.dt) }
    else { ax with restSince := none, inPosition := false }) s
/-- IN_POSITION_SET (R612): the conditions have held for IN_POS_TIME. -/
def execInPositionSet (a : Fin 80) (s : State) : Host.Outcome State Fault Refusal :=
  let a : Fin 112 := a.castLE (by decide)
  let isOver : Bool := s.axes[a].restSince.any fun t => hasPassed t (s.axes[a].regs.inPosTime.toNat * 1000) s
  .next (if isOver then modAxis a (fun ax => { ax with inPosition := true }) s else s)

end Sys2Proof.Machine
end

