-- ==== Sys2Proof/Machine/Caldera.lean ====
section
/-! DEFINITION. Group 0x0C: Caldera's inputs, switch bank, permissions, gate enables, stop functions, monitoring, brakes and
status snapshot (R470 to R505). -/

namespace Sys2Proof.Machine

abbrev OutC := Host.Outcome State Fault Refusal

def modGroup (g : Fin 2) (f : SafetyGroup → SafetyGroup) (s : State) : State := modCal (fun c => { c with groups := upd c.groups g f }) s
def modSafeTile (t : Fin 16) (f : SafetyTile → SafetyTile) (s : State) : State := modCal (fun c => { c with tiles := upd c.tiles t f }) s
def modInput (i : Fin 8) (f : SafetyInput → SafetyInput) (s : State) : State := modCal (fun c => { c with inputs := upd c.inputs i f }) s
def modSbo (o : Fin 4) (f : Sbo → Sbo) (s : State) : State := modCal (fun c => { c with sbos := upd c.sbos o f }) s

/-- The tiles of a group (R475), their axes, the brake outputs. -/
def groupTiles (g : Fin 2) : List (Fin 16) := (List.finRange 16).filter fun t => t.val / 8 = g.val
def safetyAxes (g : Fin 2) : List (Fin 112) := (groupTiles g).map tileAxis
def safetyGroup (t : Fin 16) : Fin 2 := ⟨t.val / 8, by omega⟩
def sboGroup (o : Fin 4) : Fin 2 := ⟨o.val / 2, by omega⟩
def sboTiles (o : Fin 4) : List (Fin 16) := (List.finRange 16).filter fun t => t.val / 4 = o.val
def groupMask (g : Fin 2) : Word := natWord (2 ^ g.val)

/-! ### SAFECFG (R478) -/

def cfgF (w : BitVec 16) : Nat := 2 ^ (w.extractLsb' 0 2).toNat
/-- F in ticks of 100 us. -/
def filtTicks (w : BitVec 16) : Nat := 10 * cfgF w
/-- T_disc in ticks. -/
def discTicks (w : BitVec 16) : Nat :=
  match (w.extractLsb' 2 2).toNat with
  | 0 => 100 | 1 => 200 | 2 => 500 | _ => 1000
/-- 0 STO, 1 SS1-t, 2 SS1-r. -/
def stopFn (w : BitVec 16) (g : Fin 2) : Nat := (w.extractLsb' (4 + 2 * g.val) 2).toNat
def ss1Ms (w : BitVec 16) : Nat :=
  match (w.extractLsb' 8 2).toNat with
  | 0 => 100 | 1 => 500 | 2 => 2000 | _ => 5000
def slsLimit (w : BitVec 16) : Nat :=
  match (w.extractLsb' 10 2).toNat with
  | 0 => 5000 | 1 => 20000 | 2 => 80000 | _ => 320000
def sbcOn (w : BitVec 16) (g : Fin 2) : Bool := w.getLsbD (12 + g.val)
def sdiEn (w : BitVec 16) : Bool := w.getLsbD 14
def ones16 (w : BitVec 16) : Nat := ((List.range 16).filter fun i => w.getLsbD i).length
/-- Odd parity, and no stop function of 11 (R479). -/
def cfgValue (w : BitVec 16) : Bool := ones16 w % 2 = 1 && stopFn w 0 ≠ 3 && stopFn w 1 ≠ 3
/-- The bank gives a value in force: valid, unchanged, readable. -/
def cfgOk (c : Caldera) : Bool := c.cfgTaken && cfgValue c.used && !c.changed && !c.readFault

/-! ### Inputs (R481 to R485) -/

/-- Input i acts on the group: SI0 and SI3 on A, SI1 and SI4 on B, SI2 and with SDI_EN SI5 and SI6 on both. -/
def inputActs (c : Caldera) (i : Fin 8) (g : Fin 2) : Bool :=
  match i.val with
  | 0 | 3 => g = 0
  | 1 | 4 => g = 1
  | 2 => true
  | 5 | 6 => sdiEn c.used
  | _ => false
/-- The TP source of channel ch (R482): SInA from TP0 or TP2, SInB from TP1 or TP3, for even and odd n. -/
def chSource (ch : Fin 16) : Fin 4 := ⟨2 * (ch.val / 2 % 2) + ch.val % 2, by omega⟩
/-- The input has a latched cross-short of a channel or of a source that feeds it. -/
def inputShort (c : Caldera) (i : Fin 8) : Bool :=
  let x := c.inputs[i]
  x.a.crossShort || x.b.crossShort || c.tpFault.getLsbD (2 * (i.val % 2)) || c.tpFault.getLsbD (2 * (i.val % 2) + 1)
/-- The input is in demand (R483, R484). -/
def inputDemand (c : Caldera) (i : Fin 8) : Bool := c.inputs[i].a.filtered || c.inputs[i].b.filtered || inputShort c i
/-- A stop demand affects the group. -/
def groupDemand (c : Caldera) (g : Fin 2) : Bool :=
  inputDemand c 2 || (if g = 0 then inputDemand c 0 else inputDemand c 1)
/-- A fault of the group is latched. -/
def groupFault (c : Caldera) (g : Fin 2) : Bool :=
  let x := c.groups[g]
  x.genFault || x.sboFault || x.ss1rViolation || x.slsViolation || x.sdiViolation || x.fbFault
    || (List.finRange 8).any fun i => inputActs c i g && (inputShort c i || c.inputs[i].disc)

/-! ### Events (R503) -/

/-- A record of Caldera: its instance is the deciding core, which of the two is open; uncertainty 130. -/
def calRaise (code : BitVec 16) (cls : Cls) (p0 p1 p2 : Word) (axs : List (Fin 112)) (s : State) : State :=
  raiseEv { code := code, src := srcCaldera (freeNow s % 2), t := s.dt, unc := 130, cls := cls, p0 := p0, p1 := p1, p2 := p2 }
    true axs (drawn s)
/-- The fault history holds 16 entries; which one a further entry displaces is open (R504). -/
def calHistory (code : BitVec 16) (p0 p1 : Word) (s : State) : State :=
  modCal (fun c =>
    let e : SafetyFaultRec := { code := code, p0 := p0, p1 := p1, ms := c.ms }
    if c.history.length < 16 then { c with history := c.history ++ [e] }
    else if freeBool s then { c with history := c.history.drop 1 ++ [e] } else c) (drawn s)
/-- A fault of Caldera: an event of class NOTE, and an entry of the history. -/
def calFaultEv (code : BitVec 16) (p0 p1 p2 : Word) (s : State) : State := calHistory code p0 p1 (calRaise code .note p0 p1 p2 [] s)
def calCount (get : Caldera → Word) (set : Caldera → Word → Caldera) (s : State) : State :=
  modCal (fun c => { (set c (satInc (get c))) with cntOvf := c.cntOvf || satFull (get c) }) s

/-! ### STO (R490) -/

/-- The brake output is off. -/
def sboOff (o : Fin 4) (s : State) : State := modSbo o (fun b => { b with high := false, low := false }) s
/-- STO of a tile as the control plane sees it: the STO bit, the tile out of RUN, the axis disabled. -/
def stoTile (t : Fin 16) (s : State) : State :=
  disableAxis (tileAxis t) (modTile t (fun tl => { tl with regs := { tl.regs with sto := true } })
    (modSafeTile t (fun x => { x with sto := true, toggling := false, genA := false, genB := false }) s))
/-- The group enters STO for a cause, given by its event code. -/
def enterSto (g : Fin 2) (cause : Word) (s : State) : State :=
  if s.caldera.groups[g].phase = .sto then s
  else
    let s := modGroup g (fun x => { x with phase := .sto, resetNeeded := true, stillMs := 0 }) s
    let s := (groupTiles g).foldl (fun s t => stoTile t s) s
    let s := (List.finRange 4).foldl (fun s o => if sboGroup o = g then sboOff o s else s) s
    let s := clearCond Ev.ss1Started (safetyAxes g) s
    let s := calCount (·.stoCount) (fun c n => { c with stoCount := n }) s
    calRaise Ev.stoEntered .note (groupMask g) (if g = 0 then 0xFF else 0xFF00) cause [] s
/-- A fault or violation puts the group into STO. -/
def faultSto (code : BitVec 16) (g : Fin 2) (s : State) : State := enterSto g (code.zeroExtend 32) s
def bothSto (code : BitVec 16) (s : State) : State := faultSto code 1 (faultSto code 0 s)
def allSboOff (s : State) : State := (List.finRange 4).foldl (fun s o => sboOff o s) s
/-- CALDERA_FAULT (R471, R472, R474): held until the next power-on. -/
def calderaFault (cause : BitVec 8) (s : State) : State :=
  if s.caldera.fault.isSome then s
  else
    let s := modCal (fun c => { c with fault := some cause }) s
    allSboOff (bothSto Ev.calderaFault (calFaultEv Ev.calderaFault (cause.zeroExtend 32) 0 0 s))

/-! ### Permission (R487, R491) -/

/-- Every condition of R487 but the reset. -/
def mayPermit (c : Caldera) (g : Fin 2) : Bool :=
  c.selfTest && cfgOk c && c.fault.isNone && !groupDemand c g && !groupFault c g
/-- Torque is permitted again, while both cores agree. -/
def liftSto (g : Fin 2) (s : State) : State :=
  let c := s.caldera
  if c.groups[g].phase = .sto && mayPermit c g && !c.groups[g].resetNeeded && !c.disagreed then
    let s := modGroup g (fun x => { x with phase := .permitted }) s
    let s := (groupTiles g).foldl (fun s t =>
      writeTileStatus t (modTile t (fun tl => { tl with regs := { tl.regs with sto := false } }) (modSafeTile t (fun x => { x with sto := false }) s))) s
    calRaise Ev.stoLifted .note (groupMask g) 0 0 [] s
  else s
/-- The largest speed of the group's tiles (R492). -/
def groupSpeed (c : Caldera) (g : Fin 2) : Nat := ((groupTiles g).map fun t => (c.tiles[t].v).toInt.natAbs).foldl max 0
/-- A stop demand begins (R491). -/
def startDemand (g : Fin 2) (s : State) : State :=
  let s := calCount (·.demandCount) (fun c n => { c with demandCount := n }) s
  if s.caldera.groups[g].phase ≠ .permitted then s
  else if stopFn s.caldera.used g = 0 then enterSto g (freeWord s) (drawn s)
  else
    let v0 := groupSpeed s.caldera g
    calRaise Ev.ss1Started .stop (groupMask g) 0 0 (safetyAxes g)
      (modGroup g (fun x => { x with phase := .ss1, ss1Ms := 0, v0 := v0, stillMs := 0 }) s)
/-- Evaluation of one group in a cycle. -/
def cycleGroup (g : Fin 2) (s : State) : State :=
  let c := s.caldera
  let demand := groupDemand c g
  let was := c.groups[g].demand
  let s := modGroup g (fun x => { x with demand := demand }) s
  let s :=
    if !c.selfTest || c.fault.isSome then faultSto Ev.calderaFault g s
    else if !cfgOk c then faultSto (if c.changed then Ev.safecfgChanged else Ev.safecfgFault) g s
    else if groupFault c g then
      faultSto (if (List.finRange 8).any fun i => inputActs c i g && inputShort c i then Ev.crossShort else Ev.discrepancy) g s
    else s
  let s := if demand && !was then startDemand g s else s
  let s := liftSto g s
  if s.caldera.groups[g].phase = .sto then
    (groupTiles g).foldl (fun s t => if s.tiles[t].regs.sto then s else stoTile t s) s
  else s
/-- The brake output is energised (R497). -/
def sboWanted (s : State) (o : Fin 4) : Bool :=
  let g := sboGroup o
  sbcOn s.caldera.used g && s.caldera.groups[g].phase ≠ .sto && !s.caldera.sbos[o].fault
    && (sboTiles o).any fun t => s.tiles[t].regs.tileState = 2
def cycleSbo (o : Fin 4) (s : State) : State :=
  let on := sboWanted s o
  modSbo o (fun b => { b with high := on, low := on }) s
/-- CALDERA_CYCLE (R471): the cores evaluate, exchange their results and act. -/
def execCalderaCycle (agree : Bool) (s : State) : OutC :=
  let s := if !agree && s.caldera.disagreed then calderaFault 1 s else s
  let s := modCal (fun c => { c with disagreed := !agree }) s
  .next ((List.finRange 4).foldl (fun s o => cycleSbo o s) (cycleGroup 1 (cycleGroup 0 s)))

/-- CALDERA_CLOCK_CHECK (R472): deviations of Caldera's clock in ppm. -/
def execCalderaClockCheck (mainPpm fieldPpm : Int) (s : State) : OutC :=
  .next (if 15000 < mainPpm.natAbs || 15000 < fieldPpm.natAbs then calderaFault 2 s else s)
/-- CALDERA_SELF_TEST (R474): once after power-on. -/
def execCalderaSelfTest (pass : Bool) (s : State) : OutC :=
  if s.caldera.selfTest || s.caldera.fault.isSome then .next s
  else
    let s := modPower (fun p => if p.boot = .caldera then bootStart s.dt p else p) s
    if pass then .next (modCal (fun c => { c with selfTest := true }) s)
    else .next (calderaFault 3 s)

/-! ### The switch bank (R476 to R479) -/

/-- The first phase, 1 to 18, whose reading deviates. -/
def bankFault (reads : Vector (BitVec 16) 18) : Option Nat :=
  let v := reads[0]
  if reads[1] ≠ 0 then some 2
  else ((List.finRange 16).find? fun k =>
    let r := reads.getD (k.val + 2) 0
    r ≠ (if v.getLsbD k.val then v else (1 : BitVec 16) <<< k.val)).map fun k => k.val + 3
def safecfgFault (phase : Word) (s : State) : State :=
  allSboOff (bothSto Ev.safecfgFault (calFaultEv Ev.safecfgFault (groupMask 0 ||| groupMask 1) phase 0
    (modCal (fun c => { c with readFault := true }) s)))
/-- SWITCH_BANK_READ (R477, R479): one read of 18 phases. -/
def execSwitchBankRead (reads : Vector (BitVec 16) 18) (s : State) : OutC :=
  let v := reads[0]
  let c := s.caldera
  let s := modCal (fun c => { c with last := v }) s
  if c.readFault || c.changed then .next s
  else match bankFault reads with
    | some phase => .next (safecfgFault (natWord phase) s)
    | none =>
      if c.cfgTaken then
        if v = c.used then .next s
        else .next (allSboOff (bothSto Ev.safecfgChanged (calFaultEv Ev.safecfgChanged (groupMask 0 ||| groupMask 1) (v.zeroExtend 32) 0
          (modCal (fun c => { c with changed := true }) s))))
      else if c.firstRead = some v then
        let s := modCal (fun c => { c with used := v, cfgTaken := true }) s
        .next (if cfgValue v then s
          else calFaultEv Ev.safecfgFault (groupMask 0 ||| groupMask 1) (freeWord s) 0 (drawn s))
      else .next (modCal (fun c => { c with firstRead := some v }) s)

/-! ### Test pulses and samples (R482 to R485) -/

/-- Ticks of a test period, and of a dark window with the 50 us before and after its pulse (R482, R483); tick n of the
field die falls n * 100 us after the start of the period. -/
def testTicks : Nat := 80
def darkWindow (k : Fin 4) (n : Nat) : Bool := decide (20 * k.val ≤ n) && decide (n ≤ 20 * k.val + 3)
/-- The level that Caldera commands on a test-pulse output at tick n: a dark pulse of 300 us from k * 2 ms on (R482). -/
def tpLevel (k : Fin 4) (n : Nat) : Bool := !(decide (20 * k.val ≤ n) && decide (n < 20 * k.val + 3))
/-- Some of m levels from i ticks back on is low. -/
def someLow (w : BitVec 96) (i m : Nat) : Bool := (List.range m).any fun k => !w.getLsbD (i + k)
/-- A channel fed from source k after tick n: outside its dark window its level and the last pulse classify it, inside it
keeps its class. -/
def sampleChannel (k : Fin 4) (n : Nat) (high : Bool) (x : SafetyChannel) : SafetyChannel :=
  let demand := if darkWindow k n then x.demand else !high
  let released := if darkWindow k n then x.released else high && x.seen
  let levels := x.levels <<< 1 ||| (if high then 1 else 0)
  { x with
    demand := demand, released := released, levels := levels
    seen := if n = 20 * k.val + 3 then someLow levels 0 4 else x.seen
    demandRun := if demand then x.demandRun + 1 else 0, releasedRun := if released then x.releasedRun + 1 else 0 }
def sampleInput (n : Nat) (high : BitVec 16) (i : Fin 8) (x : SafetyInput) : SafetyInput :=
  let a := sampleChannel (chSource ⟨2 * i.val, by omega⟩) n (high.getLsbD (2 * i.val)) x.a
  let b := sampleChannel (chSource ⟨2 * i.val + 1, by omega⟩) n (high.getLsbD (2 * i.val + 1)) x.b
  let differ := (a.released && b.demand) || (a.demand && b.released)
  let agree := if differ then 0 else x.agree + 1
  { x with
    a := a, b := b, disagree := if differ then x.disagree + 1 else 0, agree := agree
    disc := x.disc && !(i = 7 && 10000 ≤ agree)
    discStep := if x.disc && x.discStep = 1 && a.released && b.released then 2 else x.discStep
    press := if a.released && b.released then x.press + 1 else 0
    pressed := if a.released && b.released then 0 else x.press }
/-- DISCREPANCY latches on an input. -/
def latchDiscrepancy (i : Fin 8) (s : State) : State :=
  let s := modInput i (fun x => { x with disc := true, discStep := if x.a.filtered && x.b.filtered then 1 else 0 }) s
  calFaultEv Ev.discrepancy (natWord i.val) 0 0 (calCount (·.discCount) (fun c n => { c with discCount := n }) s)
/-- The inputs after a tick of 100 us with these levels of the channels. -/
def sampleInputs (high : BitVec 16) (c : Caldera) : Caldera :=
  let n := (c.tick + 1) % testTicks
  { c with
    tick := n, periodOver := n + 1 = testTicks
    inputs := Vector.ofFn fun i => sampleInput n high i c.inputs[i] }
/-- SAFETY_INPUT_SAMPLE (R483, R485): one tick of 100 us with the levels of the channels.  A disagreement of T_disc + 1 ticks
always latches. -/
def execSafetyInputSample (high : BitVec 16) (s : State) : OutC :=
  let s := modCal (sampleInputs high) s
  .next ((List.finRange 8).foldl (fun s i =>
    let x := s.caldera.inputs[i]
    if !x.disc && discTicks s.caldera.used + 1 ≤ x.disagree then latchDiscrepancy i s else s) s)
/-- DISCREPANCY (R485): a disagreement of T_disc latches or does not; this is where it does. -/
def execDiscrepancy (i : Fin 8) (s : State) : OutC :=
  let x := s.caldera.inputs[i]
  .next (if x.disc || x.disagree + 1 ≤ discTicks s.caldera.used then s else latchDiscrepancy i s)

/-- A request or its release follows the demand of SI3 to SI6 (R495, R496). -/
def requests (s : State) : State :=
  let c := s.caldera
  let sls (g : Fin 2) (s : State) : State :=
    let want := inputDemand c (if g = 0 then 3 else 4)
    let was := c.groups[g].slsRequested
    if want && !was then calRaise Ev.slsRequested .note (groupMask g) 0 0 [] (modGroup g (fun x => { x with slsRequested := true, slsFrom := s.caldera.ms }) s)
    else if !want && was then modGroup g (fun x => { x with slsRequested := false, slsMonitoring := false }) s
    else s
  let pos := sdiEn c.used && inputDemand c 5
  let neg := sdiEn c.used && inputDemand c 6
  let s := sls 1 (sls 0 s)
  let s := if pos && !c.groups[0].sdiPos then modCal (fun c => { c with tiles := c.tiles.map fun x => { x with posRef := x.count } }) s else s
  let s := if neg && !c.groups[0].sdiNeg then modCal (fun c => { c with tiles := c.tiles.map fun x => { x with negRef := x.count } }) s else s
  modCal (fun c => { c with groups := c.groups.map fun x => { x with sdiPos := pos, sdiNeg := neg } }) s
/-- Bit i is set where f holds. -/
def maskOf {n : Nat} (f : Fin n → Bool) : Nat := (List.finRange n).foldl (fun w i => if f i then w + 2 ^ i.val else w) 0
/-- CROSS_SHORT of an input with its cause. -/
def crossShortEv (i : Nat) (cause : Word) (s : State) : State :=
  calFaultEv Ev.crossShort (natWord i) cause 0 (calCount (·.xshortCount) (fun c n => { c with xshortCount := n }) s)
def modChannel (ch : Fin 16) (f : SafetyChannel → SafetyChannel) (s : State) : State :=
  modInput ⟨ch.val / 2, by omega⟩ (fun x => if ch.val % 2 = 0 then { x with a := f x.a } else { x with b := f x.b }) s
def calChannel (c : Caldera) (ch : Fin 16) : SafetyChannel :=
  let x := c.inputs.getD (ch.val / 2) {}
  if ch.val % 2 = 0 then x.a else x.b
/-- A dark pulse in the last window of a source that does not feed the channel: low in it, high right before and after. -/
def foreignPulse (c : Caldera) (ch : Fin 16) : Bool :=
  let w := (calChannel c ch).levels
  (List.finRange 4).any fun j =>
    let i := (c.tick + 2 * testTicks - (20 * j.val + 4)) % testTicks
    j ≠ chSource ch && w.getLsbD i && w.getLsbD (i + 5) && someLow w (i + 1) 4
/-- The channel has been high for a whole test period, without its dark pulse. -/
def pulseMissing (c : Caldera) (ch : Fin 16) : Bool := !someLow (calChannel c ch).levels 0 testTicks
/-- The correct pattern over the period that this tick ends: low in the expected window, high outside it. -/
def patternGood (c : Caldera) (ch : Fin 16) : Bool :=
  let w := (calChannel c ch).levels
  (calChannel c ch).seen && (List.range testTicks).all fun n => darkWindow (chSource ch) n || w.getLsbD (testTicks - 1 - n)
/-- CROSS_SHORT (R484): the channel shows a dark pulse at another source's time, or none while high. -/
def execCrossShort (ch : Fin 16) (missing : Bool) (s : State) : OutC :=
  if (calChannel s.caldera ch).crossShort || !(if missing then pulseMissing s.caldera ch else foreignPulse s.caldera ch) then .next s
  else .next (requests (crossShortEv (ch.val / 2) (if missing then 2 else 1)
    (modChannel ch (fun x => { x with crossShort := true, goodPeriods := 0 }) s)))

/-- One TP source after a test period (R482). -/
def tpPeriod (k : Fin 4) (follows : Bool) (s : State) : State :=
  let s := modCal (fun c => { c with
    tpRun := upd c.tpRun k fun n => if follows then 0 else n + 1
    tpGood := upd c.tpGood k fun n => if follows then n + 1 else 0 }) s
  if s.caldera.tpFault.getLsbD k.val then
    if 2 ≤ s.caldera.tpGood[k] then modCal (fun c => { c with tpFault := c.tpFault &&& ~~~((1 : BitVec 4) <<< k.val) }) s else s
  else if 2 ≤ s.caldera.tpRun[k] then
    let s := modCal (fun c => { c with tpFault := c.tpFault ||| ((1 : BitVec 4) <<< k.val) }) s
    ((List.range 8).filter fun i => i % 2 = k.val / 2).foldl (fun s i => crossShortEv i 3 s) s
  else s
/-- A cross-short ends when both channels have shown the correct pattern for two test periods. -/
def shortPeriod (good : BitVec 16) (i : Fin 8) (x : SafetyInput) : SafetyInput :=
  let one (ch : SafetyChannel) (k : Nat) : SafetyChannel := { ch with goodPeriods := if good.getLsbD k then ch.goodPeriods + 1 else 0 }
  let a := one x.a (2 * i.val)
  let b := one x.b (2 * i.val + 1)
  if 2 ≤ a.goodPeriods && 2 ≤ b.goodPeriods then { x with a := { a with crossShort := false }, b := { b with crossShort := false } }
  else { x with a := a, b := b }
/-- TEST_PULSE_PERIOD (R482): a test period of 8 ms, 80 ticks, has ended; which TP lands followed their commands in it. -/
def execTestPulsePeriod (follows : BitVec 4) (s : State) : OutC :=
  let c := s.caldera
  if !c.periodOver then .next s
  else
    let good := BitVec.ofNat 16 (maskOf fun ch : Fin 16 => patternGood c ch)
    let s := modCal (fun c => { c with periodOver := false, inputs := Vector.ofFn fun i => shortPeriod good i c.inputs[i] }) s
    .next (requests ((List.finRange 4).foldl (fun s k => tpPeriod k (follows.getLsbD k.val) s) s))

/-- FILTERED_DEMAND_CHANGE (R483): the channel has read demand, or released, at every tick for F. -/
def execFilteredDemandChange (ch : Fin 16) (s : State) : OutC :=
  let x := calChannel s.caldera ch
  let f := filtTicks s.caldera.used
  if (if x.filtered then x.releasedRun < f else x.demandRun < f) then .next s
  else
    let s := modChannel ch (fun x => { x with filtered := !x.filtered }) s
    let s := modInput ⟨ch.val / 2, by omega⟩ (fun x => { x with
      discStep := if x.disc && x.a.filtered && x.b.filtered then 1 else x.discStep }) s
    .next (requests s)

/-! ### The reset input (R486, R502) -/

/-- Every latched fault of the group is of a kind that a reset clears, a DISCREPANCY after the steps of R485. -/
def resetKinds (c : Caldera) (g : Fin 2) : Bool :=
  c.fault.isNone && cfgOk c && (List.finRange 8).all fun i => !(inputActs c i g && c.inputs[i].disc) || c.inputs[i].discStep = 2
def sdiOutside (x : SafetyTile) (pos neg : Bool) : Bool :=
  (pos && decide ((x.count - x.posRef).toInt < -256)) || (neg && decide (256 < (x.count - x.negRef).toInt))
/-- Latched faults whose condition is gone are cleared. -/
def clearFaults (s : State) (c : Caldera) (g : Fin 2) (x : SafetyGroup) : SafetyGroup :=
  let ts := (groupTiles g).map fun t => c.tiles[t]
  let sbos := ((List.finRange 4).filter fun o => sboGroup o = g).map fun o => c.sbos[o]
  { x with
    resetNeeded := false
    genFault := x.genFault && decide (s.dt.toNat < x.genBadAt.toNat + 1000000000 * 2 ^ 32)
    sboFault := x.sboFault && sbos.any fun b => b.fault && !b.testOk
    ss1rViolation := x.ss1rViolation && x.phase = .ss1
    slsViolation := x.slsViolation && x.slsMonitoring && decide (slsLimit c.used < groupSpeed c g)
    sdiViolation := x.sdiViolation && ts.any fun z => sdiOutside z x.sdiPos x.sdiNeg
    fbFault := x.fbFault && ts.any fun z => z.quadMs ≠ 0 || z.ampMs ≠ 0 }
/-- An accepted reset acts on one group. -/
def resetGroup (g : Fin 2) (s : State) : State :=
  let s := modCal (fun c => { c with
    inputs := Vector.ofFn fun i =>
      let x := c.inputs[i]
      if inputActs c i g && x.disc && x.discStep = 2 then { x with disc := false, discStep := 0 } else x
    sbos := Vector.ofFn fun o => let b := c.sbos[o]; if sboGroup o = g && b.testOk then { b with fault := false } else b
    groups := upd c.groups g (clearFaults s c g) }) s
  liftSto g s
/-- RESET_ACCEPTED (R486): at this tick SI7 has left pressed, after a press of 100 ms to 5 s. -/
def execResetAccepted (s : State) : OutC :=
  let c := s.caldera
  let ticks := c.inputs[(7 : Fin 8)].pressed
  let takes (g : Fin 2) : Bool := !groupDemand c g && resetKinds c g
  if ticks < 1000 || 50000 < ticks || c.inputs[(7 : Fin 8)].disc || !(takes 0 || takes 1) then .next s
  else
    let s := modInput 7 (fun x => { x with pressed := 0 }) s
    let mask := (if takes 0 then groupMask 0 else 0) ||| (if takes 1 then groupMask 1 else 0)
    let s := calRaise Ev.resetAccepted .note mask 0 0 [] (calCount (·.resetCount) (fun c n => { c with resetCount := n }) s)
    let s := if takes 0 then resetGroup 0 s else s
    .next (if takes 1 then resetGroup 1 s else s)

/-! ### Gate enables (R488, R489) -/

/-- Torque is permitted for the tile's group and its heartbeat toggles. -/
def genOn (c : Caldera) (t : Fin 16) : Bool :=
  c.groups[safetyGroup t].phase ≠ .sto && !c.groups[safetyGroup t].genFault && !c.disagreed && c.tiles[t].heartbeat
/-- The lands that differ from the levels driven, GEN_A of tile t in bit 2t, GEN_B in bit 2t + 1 (R489). -/
def genWrong (c : Caldera) (lands : BitVec 32) : BitVec 32 :=
  lands ^^^ BitVec.ofNat 32 (maskOf fun k : Fin 32 => let x := c.tiles.getD (k.val / 2) {}; if k.val % 2 = 0 then x.genA else x.genB)
/-- The heartbeat of the tile as Caldera sees it at a half period: it toggles while the carrier runs, and one that has stopped
is never older than 15 us (R344, R488). -/
def seeBeat (runs : Bool) (x : SafetyTile) : SafetyTile := { x with beats := if runs then x.beats + 1 else 0 }
/-- GEN_HALF_PERIOD (R488, R489): the lands are read back and the lines of every tile step; a brake output that is no longer
wanted goes off (R497). -/
def execGenHalfPeriod (lands : BitVec 32) (s : State) : OutC :=
  let c := s.caldera
  let wrong := genWrong c lands
  let bad (t : Fin 16) : Option Nat :=
    if c.tiles[t].missA && wrong.getLsbD (2 * t.val) then some (2 * t.val)
    else if c.tiles[t].missB && wrong.getLsbD (2 * t.val + 1) then some (2 * t.val + 1) else none
  let s := modCal (fun c => { c with tiles := Vector.ofFn fun t =>
    let x := c.tiles[t]
    let on := genOn c t
    { seeBeat (carrierRuns s t) x with
      toggling := on, genA := on && !x.genA, genB := on && x.genA
      missA := wrong.getLsbD (2 * t.val), missB := wrong.getLsbD (2 * t.val + 1) } }) s
  let one (g : Fin 2) (s : State) : State :=
    let s := if (groupTiles g).any fun t => wrong.getLsbD (2 * t.val) || wrong.getLsbD (2 * t.val + 1)
      then modGroup g (fun x => { x with genBadAt := s.dt }) s else s
    match (groupTiles g).findSome? bad with
    | none => s
    | some land =>
      if c.groups[g].genFault then s
      else faultSto Ev.genFault g (calFaultEv Ev.genFault (groupMask g) (natWord land) 0
        ((groupTiles g).foldl (fun s t => modSafeTile t (fun x => { x with toggling := false, genA := false, genB := false }) s)
          (modGroup g (fun x => { x with genFault := true }) s)))
  .next ((List.finRange 4).foldl (fun s o => if sboWanted s o then s else sboOff o s) (one 1 (one 0 s)))
/-- HEARTBEAT_LOSS (R344, R488): the carrier has stopped; toggling stops no later than 15 us after the last heartbeat edge. -/
def execHeartbeatLoss (t : Fin 16) (s : State) : OutC :=
  .next (if carrierRuns s t then s
    else modSafeTile t (fun x => { x with heartbeat := false, beats := 0, toggling := false, genA := false, genB := false }) s)
/-- HEARTBEAT_RESUME (R488): the heartbeat has toggled for 100 us, 20 half periods, without a gap. -/
def execHeartbeatResume (t : Fin 16) (s : State) : OutC :=
  .next (if carrierRuns s t && 20 ≤ s.caldera.tiles[t].beats then modSafeTile t (fun x => { x with heartbeat := true }) s else s)

/-! ### SS1 and the monitors (R491 to R496) -/

/-- SS1_TIMEOUT (R491): T_SS1 after the demand. -/
def execSs1Timeout (g : Fin 2) (s : State) : OutC :=
  let x := s.caldera.groups[g]
  .next (if x.phase = .ss1 && ss1Ms s.caldera.used ≤ x.ss1Ms then faultSto Ev.ss1Started g s else s)
/-- SS1R_STANDSTILL (R492): every tile of the group has been at or below 250 edges/s for 10 ms. -/
def execSs1rStandstill (g : Fin 2) (s : State) : OutC :=
  let x := s.caldera.groups[g]
  .next (if x.phase = .ss1 && stopFn s.caldera.used g = 2 && 10 ≤ x.stillMs then faultSto Ev.ss1Started g s else s)
/-- SLS_MONITOR_START (R495): T_SS1 after the request. -/
def execSlsMonitorStart (g : Fin 2) (s : State) : OutC :=
  let x := s.caldera.groups[g]
  .next (if x.slsRequested && ss1Ms s.caldera.used ≤ (s.caldera.ms - x.slsFrom).toNat then modGroup g (fun x => { x with slsMonitoring := true }) s else s)

/-- A violation on a tile of the group. -/
def violation (code : BitVec 16) (g : Fin 2) (t : Fin 16) (p2 : Word) (was : Bool) (latch : SafetyGroup → SafetyGroup) (s : State) : State :=
  if was then s else faultSto code g (calFaultEv code (groupMask g) (natWord t.val) p2 (modGroup g latch s))
/-- The envelope of R492 is exceeded: v > 1.1 v0 max(0, 1 - t/T) + 1,000. -/
def overEnvelope (v v0 t T : Nat) : Bool := decide (11 * v0 * (T - t) + 10000 * T < 10 * T * v)
def firstTile (g : Fin 2) (p : Fin 16 → Bool) : Option (Fin 16) := (groupTiles g).find? p
/-- The checks of one group after an update of v. -/
def monitor (illegal : BitVec 16) (g : Fin 2) (s : State) : State :=
  let c := s.caldera
  let x := c.groups[g]
  let speed (t : Fin 16) : Nat := (c.tiles[t].v).toInt.natAbs
  let ss1r := x.phase = .ss1 && stopFn c.used g = 2
  let ms := x.ss1Ms + 1
  let still := (groupTiles g).all fun t => decide (speed t ≤ 250)
  let s := if x.phase = .ss1 then modGroup g (fun x => { x with ss1Ms := ms, stillMs := if still then x.stillMs + 1 else 0 }) s else s
  let s := if ss1r then
      match firstTile g fun t => overEnvelope (speed t) x.v0 ms (ss1Ms c.used) with
      | some t => violation Ev.ss1rViolation g t 0 x.ss1rViolation (fun x => { x with ss1rViolation := true }) s
      | none => s
    else s
  let s := if x.slsMonitoring then
      match firstTile g fun t => decide (slsLimit c.used < speed t) with
      | some t => violation Ev.slsViolation g t c.tiles[t].v x.slsViolation (fun x => { x with slsViolation := true }) s
      | none => s
    else s
  let s := match firstTile g fun t => sdiOutside c.tiles[t] x.sdiPos x.sdiNeg with
    | some t => violation Ev.sdiViolation g t 0 x.sdiViolation (fun x => { x with sdiViolation := true }) s
    | none => s
  if ss1r || x.slsMonitoring || x.sdiPos || x.sdiNeg then
    let cause (t : Fin 16) : Nat := if illegal.getLsbD t.val then 1 else if 2 ≤ c.tiles[t].quadMs then 2 else if 2 ≤ c.tiles[t].ampMs then 3 else 0
    match firstTile g fun t => cause t ≠ 0 with
    | some t => violation Ev.calFeedbackFault g t (natWord (cause t)) x.fbFault (fun x => { x with fbFault := true }) s
    | none => s
  else s
/-- The record of R496 follows the motion in the permitted direction. -/
def carryRefs (pos neg : Bool) (x : SafetyTile) : SafetyTile :=
  { x with
    posRef := if pos && decide (0 < (x.count - x.posRef).toInt) then x.count else x.posRef
    negRef := if neg && decide ((x.count - x.negRef).toInt < 0) then x.count else x.negRef }
/-- SAFE_SPEED_UPDATE (R493): every ms, with SAFE_COUNT of each tile and what the decoders found since the last one. -/
def execSafeSpeedUpdate (counts : Vector Word 16) (illegal quadrant lowAmp : BitVec 16) (s : State) : OutC :=
  let pos := s.caldera.groups[(0 : Fin 2)].sdiPos
  let neg := s.caldera.groups[(0 : Fin 2)].sdiNeg
  let s := modCal (fun c => { c with
    ms := c.ms + 1
    tiles := Vector.ofFn fun t =>
      let x := c.tiles[t]
      carryRefs pos neg { x with
        count := counts[t], hist := (counts[t] :: x.hist).take 8
        v := BitVec.ofInt 32 ((counts[t] - x.hist.getD 7 0).toInt * 125)
        quadMs := if quadrant.getLsbD t.val then x.quadMs + 1 else 0
        ampMs := if lowAmp.getLsbD t.val then x.ampMs + 1 else 0 } }) s
  .next (monitor illegal 1 (monitor illegal 0 s))

/-! ### Brakes (R498) -/

/-- SBO_TEST (R498): whether the readback of the high-side and of the low-side switch was as expected. -/
def execSboTest (o : Fin 4) (high low : Bool) (s : State) : OutC :=
  let g := sboGroup o
  if !sbcOn s.caldera.used g then .next s
  else if high && low then .next (modSbo o (fun b => { b with testOk := true }) s)
  else
    let was := s.caldera.sbos[o].fault
    let s := modSbo o (fun b => { b with high := false, low := false, fault := true, testOk := false }) s
    let s := modGroup g (fun x => { x with sboFault := true }) s
    .next (if was then s else faultSto Ev.sboFault g (calFaultEv Ev.sboFault (natWord o.val) 0 0 s))

/-! ### The snapshot (R505) -/

/-- GROUP_A, GROUP_B. -/
def groupByte (c : Caldera) (g : Fin 2) : BitVec 8 :=
  let x := c.groups[g]
  let phase := match x.phase with
    | .sto => 0
    | .ss1 => 1
    | .permitted => 2
  let bit (b : Bool) (n : Nat) : Nat := if b then n else 0
  BitVec.ofNat 8 (phase + bit x.slsMonitoring 4 + bit x.sdiPos 8 + bit x.sdiNeg 16 + bit x.resetNeeded 32 + bit (groupFault c g) 64)
/-- The bytes of CFG_CRC (R480). -/
def cfgCrc (used : BitVec 16) (fw : Word) : Word :=
  crcBytes ([used.extractLsb' 0 8, used.extractLsb' 8 8] ++ wordBytes fw)
def snapRegs (s : State) : CalderaRegs :=
  let c := s.caldera
  let r : CalderaRegs :=
    { calState := if c.fault.isSome then 2 else if c.selfTest then 1 else 0
      cfgValid := c.cfgTaken && cfgValue c.used, cfgChanged := c.changed, cfgReadFault := c.readFault
      faultCause := c.fault.getD 0, safecfgUsed := c.used, safecfgLast := c.last
      cfgCrc := cfgCrc c.used c.regs.calFwLevel, calFwLevel := c.regs.calFwLevel
      groupA := groupByte c 0, groupB := groupByte c 1
      tileSto := BitVec.ofNat 16 (maskOf fun t : Fin 16 => c.tiles[t].sto)
      genToggling := BitVec.ofNat 16 (maskOf fun t : Fin 16 => c.tiles[t].toggling)
      chReleased := BitVec.ofNat 16 (maskOf fun ch : Fin 16 => (calChannel c ch).released)
      demand := BitVec.ofNat 8 (maskOf fun i : Fin 8 => inputDemand c i)
      discLatched := BitVec.ofNat 8 (maskOf fun i : Fin 8 => c.inputs[i].disc)
      crossShort := BitVec.ofNat 16 (maskOf fun ch : Fin 16 => (calChannel c ch).crossShort)
      tpFault := c.tpFault
      sboOn := BitVec.ofNat 8 (maskOf fun k : Fin 8 => let b := c.sbos.getD (k.val / 2) {}; if k.val % 2 = 0 then b.high else b.low)
      sboFault := BitVec.ofNat 4 (maskOf fun o : Fin 4 => c.sbos[o].fault)
      sboEnergised := BitVec.ofNat 4 (maskOf fun o : Fin 4 => c.sbos[o].high && c.sbos[o].low)
      slsLimit := natWord (slsLimit c.used), snapSeq := c.snapSeq + 1
      demandCount := c.demandCount, stoCount := c.stoCount, discCount := c.discCount, xshortCount := c.xshortCount
      resetCount := c.resetCount, cntOvf := c.cntOvf
      safeSpeed := Vector.ofFn fun t => c.tiles[t].v, safeCount := Vector.ofFn fun t => c.tiles[t].count }
  { r with snapCrc := crcWords (wordsOf (readCalderaRegs r) 0 11 ++ wordsOf (readCalderaRegs r) 0x80 32) }
/-- CALDERA_SNAPSHOT (R505): the status snapshot reaches the management plane. -/
def execCalderaSnapshot (s : State) : OutC :=
  .next (modCal (fun c => { c with regs := snapRegs s, snapSeq := c.snapSeq + 1, snapAt := s.dt }) s)

/-- The status with which a Caldera state refuses a command on the tile's axis (R499); OK where torque is permitted. -/
def calderaRefusal (s : State) (t : Fin 16) : BitVec 16 :=
  let c := s.caldera
  if c.fault.isSome || !c.selfTest then Status.calderaFaulted
  else if !cfgOk c then Status.safecfgInvalid
  else match c.groups[safetyGroup t].phase with
    | .ss1 => Status.ss1Active
    | .sto => Status.stoActive
    | .permitted => Status.ok
/-- The snapshot in the management plane is more than 1 ms old (R499). -/
def snapshotOld (s : State) : Bool := decide (s.caldera.snapAt.toNat + 1000000 * 2 ^ 32 < s.dt.toNat)

/-! ### Commands (R504) -/

def dCalderaStatus : OpDesc := { op := 0x0C01, cls := .a, target := tModule, params := (· = 0) }
def runCalderaStatus (p : Packet) (s : State) : Reply := let _ := p; okWith (wordsOf (readCalderaRegs s.caldera.regs) 0 18) s
/-- CALDERA_STATUS (R504). -/
def execCalderaStatus (p : Packet) (s : State) : OutC := .next (request dCalderaStatus acceptAny runCalderaStatus p s)

def dSafecfgRead : OpDesc := { op := 0x0C02, cls := .a, target := tModule, params := (· = 0) }
/-- The fields of R478, one word each. -/
def cfgFields (w : BitVec 16) : List Word :=
  let f (lo n : Nat) : Word := (w.extractLsb' lo n).zeroExtend 32
  [f 0 2, f 2 2, f 4 2, f 6 2, f 8 2, f 10 2, f 12 1, f 13 1, f 14 1, f 15 1]
def runSafecfgRead (p : Packet) (s : State) : Reply :=
  let _ := p
  let r := s.caldera.regs
  okWith ([r.safecfgUsed.zeroExtend 32, r.safecfgLast.zeroExtend 32] ++ cfgFields r.safecfgUsed ++ [r.cfgCrc, r.calFwLevel]) s
/-- SAFECFG_READ (R504). -/
def execSafecfgRead (p : Packet) (s : State) : OutC := .next (request dSafecfgRead acceptAny runSafecfgRead p s)

def dSafeSpeedRead : OpDesc := { op := 0x0C03, cls := .a, target := fun n => n < 16 || n = 0xFFFF, params := (· = 0) }
def runSafeSpeedRead (p : Packet) (s : State) : Reply :=
  let r := s.caldera.regs
  let one (t : Fin 16) : List Word := [r.safeSpeed[t], r.safeCount[t]]
  okWith (match asFin 16 (tgt p) with
    | some t => one t
    | none => (List.finRange 16).flatMap one) s
/-- SAFE_SPEED_READ (R504). -/
def execSafeSpeedRead (p : Packet) (s : State) : OutC := .next (request dSafeSpeedRead acceptAny runSafeSpeedRead p s)

def dCalderaFaultRead : OpDesc := { op := 0x0C04, cls := .a, target := tModule, params := (· = 2) }
def acceptFaultRead (p : Packet) (_ : State) : BitVec 16 := if parIn p 0 0 15 && parIn p 1 1 16 then Status.ok else Status.paramRange
def runCalderaFaultRead (p : Packet) (s : State) : Reply :=
  okWith (((s.caldera.history.drop (parNat p 0)).take (parNat p 1)).flatMap fun e => [e.code.zeroExtend 32, e.p0, e.p1, e.ms]) s
/-- CALDERA_FAULT_READ (R504). -/
def execCalderaFaultRead (p : Packet) (s : State) : OutC := .next (request dCalderaFaultRead acceptFaultRead runCalderaFaultRead p s)

end Sys2Proof.Machine
end

