-- ==== Sys2Proof/Machine/System.lean ====
section
/-! DEFINITION. Group 0x01, system, identity and events (R84, R91 to R94, R104, R105), and group 0x10, staging transactions
(R95 to R98). -/

namespace Sys2Proof.Machine

/-- A row of group 0x01 or 0x10 on the module. -/
def modOp (op : BitVec 16) (cls : ReplyClass) (params : Nat → Bool) : OpDesc :=
  { op := op, cls := cls, target := tModule, params := params }

/-! ### Identity, status, events (R91) -/

def dIdentityRead : OpDesc := modOp 0x0101 .a (· = 0)
def runIdentityRead (_ : Packet) (s : State) : Reply :=
  let r := s.ocp.ident
  okWith ([r.partNumber, r.stepping.zeroExtend 32] ++ words64 r.moduleId ++ [r.fwLevel, boolWord r.fwBank]
    ++ (List.range 16).map Config.attestKey) s
/-- IDENTITY_READ (R91). -/
def execIdentityRead (p : Packet) (s : State) : Host.Outcome State Fault Refusal :=
  .next (request dIdentityRead acceptAny runIdentityRead p s)

def dAttest : OpDesc := modOp 0x0102 .b (· = 8)
def runAttest (_ : Packet) (s : State) : Reply :=
  let (ws, s) := freeWords 16 s
  okWith ws s
/-- ATTEST (R91): the signature words are free values. -/
def execAttest (p : Packet) (s : State) : Host.Outcome State Fault Refusal :=
  .next (request dAttest acceptAny runAttest p s)

def dStatusRead : OpDesc := modOp 0x0103 .a (· = 0)
def runStatusRead (_ : Packet) (s : State) : Reply := okWith (wordsOf (identWord s) 0x014 7) s
/-- STATUS_READ (R91). -/
def execStatusRead (p : Packet) (s : State) : Host.Outcome State Fault Refusal :=
  .next (request dStatusRead acceptAny runStatusRead p s)

/-- The records still held from a log index on, oldest first; where the start has been overwritten, from the oldest held. -/
def logFrom (ev : Events) (start : Word) : List LogRec :=
  let d := (ev.nextIdx - start).toNat
  let l := ev.log.reverse
  if d = 0 || 2 ^ 31 < d then [] else l.drop (l.length - min d l.length)

def dEventRead : OpDesc := modOp 0x0104 .a (· = 2)
def acceptEventRead (p : Packet) (_ : State) : BitVec 16 := if parIn p 1 1 120 then Status.ok else Status.paramRange
def runEventRead (p : Packet) (s : State) : Reply :=
  let rs := (logFrom s.events (par p 0)).take (parNat p 1)
  let next := (rs.getLast?.map fun r => r.idx + 1).getD (par p 0)
  okWith ([next, s.ocp.ident.logOverwriteCount] ++ rs.flatMap logWords) s
/-- EVENT_READ (R30, R91). -/
def execEventRead (p : Packet) (s : State) : Host.Outcome State Fault Refusal :=
  .next (request dEventRead acceptEventRead runEventRead p s)

def dEventSubscribe : OpDesc :=
  { modOp 0x0105 .b (· = 3) with
    reservedOk := fun p => par p 0 &&& 0xFFFFFFFC = 0 && par p 1 &&& 0xFFFE0001 = 0 && par p 2 &&& 0xFFFFFFFE = 0 }
def runEventSubscribe (p : Packet) (s : State) : Reply :=
  ok (modSession p.session (fun x => { x with
    sub := if par p 1 = 0 then none
      else some { minCls := clsOf (par p 0), groups := par p 1, forwarded := parBool p 2 } }) s)
/-- EVENT_SUBSCRIBE (R90, R91). -/
def execEventSubscribe (p : Packet) (s : State) : Host.Outcome State Fault Refusal :=
  .next (request dEventSubscribe acceptAny runEventSubscribe p s)

def dVaultEventsRead : OpDesc := modOp 0x0106 .b (· = 2)
def acceptVaultEventsRead (p : Packet) (_ : State) : BitVec 16 :=
  if parIn p 0 0 255 && parIn p 1 1 120 then Status.ok else Status.paramRange
def runVaultEventsRead (p : Packet) (s : State) : Reply :=
  okWith (((s.events.vault.reverse.drop (parNat p 0)).take (parNat p 1)).flatMap logWords) s
/-- VAULT_EVENTS_READ (R30, R91). -/
def execVaultEventsRead (p : Packet) (s : State) : Host.Outcome State Fault Refusal :=
  .next (request dVaultEventsRead acceptVaultEventsRead runVaultEventsRead p s)

def dEcho : OpDesc := modOp 0x0107 .a (· ≤ 1019)
def runEcho (p : Packet) (s : State) : Reply := okWith p.params s
/-- ECHO (R91). -/
def execEcho (p : Packet) (s : State) : Host.Outcome State Fault Refusal :=
  .next (request dEcho acceptAny runEcho p s)

/-- The counter words of session n as COUNTERS_READ answers them (R91, R70). -/
def counterWords (s : State) (n : Nat) : List Word :=
  if n = 10 then wordsOf (identWord s) 0x1240 6
  else match asFin 80 n with
  | none => []
  | some i =>
    if 16 ≤ n && !s.ocp.sessions[i].inUse then List.replicate 8 0
    else wordsOf (sessionWord s i) 0 6
      ++ (if n = 0 then [sessionWord s i 0x18] else if 16 ≤ n then words64 s.ocp.sessions[i].origin else [])

def dCountersRead : OpDesc :=
  { op := 0x0108, cls := .a, target := fun n => n ≤ 10 || (16 ≤ n && n < 80) || n = 0xFFFF, params := (· = 0) }
def runCountersRead (p : Packet) (s : State) : Reply :=
  okWith (counterWords s (if tgt p = 0xFFFF then p.session.val else tgt p)) s
/-- COUNTERS_READ (R70, R91). -/
def execCountersRead (p : Packet) (s : State) : Host.Outcome State Fault Refusal :=
  .next (request dCountersRead acceptAny runCountersRead p s)

/-! ### Images (R91, R93) -/

/-- A load takes the words of a packet: a byte offset that is a multiple of 4, inside the size named.  DESIGN CHOICE: with no
load begun, CONFIG_DATA and FIRMWARE_DATA find no size and are answered PARAM_RANGE (log entry 115). -/
def loadFits (ld : Option ImageLoad) (p : Packet) : Bool :=
  match ld with
  | none => false
  | some l => parNat p 0 % 4 = 0 && parNat p 0 + 4 * (p.params.length - 1) ≤ l.size.toNat
def loadTake (ld : Option ImageLoad) (p : Packet) : Option ImageLoad :=
  ld.map fun l => { l with data := memPutWords l.data (parNat p 0 / 4) (p.params.drop 1) }
/-- The image's CRC over its bytes is the one named at its start. -/
def loadCrcOk (l : ImageLoad) : Bool :=
  crcBytes ((List.range l.size.toNat).map fun i => memByte l.data i) = l.crc

def dConfigBegin : OpDesc := modOp 0x0110 .b (· = 2)
def acceptConfigBegin (p : Packet) (_ : State) : BitVec 16 :=
  if parNat p 0 ≤ 16777216 then Status.ok else Status.paramRange
def runConfigBegin (p : Packet) (s : State) : Reply :=
  ok { s with ocp := { s.ocp with config := some { size := par p 0, crc := par p 1 } } }
/-- CONFIG_BEGIN (R91). -/
def execConfigBegin (p : Packet) (s : State) : Host.Outcome State Fault Refusal :=
  .next (request dConfigBegin acceptConfigBegin runConfigBegin p s)

def dConfigData : OpDesc := modOp 0x0111 .b (fun n => 2 ≤ n && n ≤ 1001)
def acceptConfigData (p : Packet) (s : State) : BitVec 16 :=
  if loadFits s.ocp.config p then Status.ok else Status.paramRange
def runConfigData (p : Packet) (s : State) : Reply :=
  ok { s with ocp := { s.ocp with config := loadTake s.ocp.config p } }
/-- CONFIG_DATA (R91). -/
def execConfigData (p : Packet) (s : State) : Host.Outcome State Fault Refusal :=
  .next (request dConfigData acceptConfigData runConfigData p s)

/-- Some axis is enabled. -/
def anyEnabled (s : State) : Bool := s.axes.toList.any (·.enabled)

def dConfigCommit : OpDesc := modOp 0x0112 .c (· = 0)
def acceptConfigCommit (_ : Packet) (s : State) : BitVec 16 :=
  if anyEnabled s then Status.axesEnabled else Status.ok
/-- CONFIG_COMMIT (R91, R93): the check and the application follow at CONFIG_COMMIT_COMPLETE. -/
def execConfigCommit (p : Packet) (s : State) : Host.Outcome State Fault Refusal :=
  .next (request dConfigCommit acceptConfigCommit (startOp 0x0112) p s)

/-- The bank that the target names: false A, true B. -/
def bankOf (p : Packet) : Fin 2 := Fin.ofNat 2 (tgt p)
def fwOp (op : BitVec 16) (cls : ReplyClass) (params : Nat → Bool) : OpDesc :=
  { op := op, cls := cls, target := tBelow 2, params := params }
/-- The bank is the running bank. -/
def bankRuns (s : State) (b : Fin 2) : Bool := s.ocp.ident.fwBank = decide (b.val = 1)

def dFirmwareBegin : OpDesc := fwOp 0x0113 .b (· = 2)
def acceptFirmwareBegin (p : Packet) (s : State) : BitVec 16 :=
  if bankRuns s (bankOf p) then Status.bankInUse else Status.ok
def runFirmwareBegin (p : Packet) (s : State) : Reply :=
  ok { s with ocp := { s.ocp with
    firmware := upd s.ocp.firmware (bankOf p) fun _ => some { size := par p 0, crc := par p 1 } } }
/-- FIRMWARE_BEGIN (R91). -/
def execFirmwareBegin (p : Packet) (s : State) : Host.Outcome State Fault Refusal :=
  .next (request dFirmwareBegin acceptFirmwareBegin runFirmwareBegin p s)

def dFirmwareData : OpDesc := fwOp 0x0114 .b (fun n => 2 ≤ n && n ≤ 1001)
def acceptFirmwareData (p : Packet) (s : State) : BitVec 16 :=
  if bankRuns s (bankOf p) then Status.bankInUse
  else if loadFits s.ocp.firmware[bankOf p] p then Status.ok else Status.paramRange
def runFirmwareData (p : Packet) (s : State) : Reply :=
  ok { s with ocp := { s.ocp with firmware := upd s.ocp.firmware (bankOf p) fun l => loadTake l p } }
/-- FIRMWARE_DATA (R91). -/
def execFirmwareData (p : Packet) (s : State) : Host.Outcome State Fault Refusal :=
  .next (request dFirmwareData acceptFirmwareData runFirmwareData p s)

def dFirmwareActivate : OpDesc := fwOp 0x0115 .c (· = 0)
/-- FIRMWARE_ACTIVATE (R91): the signature check ends at FIRMWARE_ACTIVATE_COMPLETE. -/
def execFirmwareActivate (p : Packet) (s : State) : Host.Outcome State Fault Refusal :=
  .next (request dFirmwareActivate acceptAny (startOp 0x0115) p s)

/-- The oldest FIRMWARE_ACTIVATE ends: with a good signature, and a good CRC where the image came over OCP, the activation
record names its bank (R91, R570). -/
def execFirmwareActivateComplete (sigOk : Bool) (s : State) : Host.Outcome State Fault Refusal :=
  .next (match s.ocp.ops.find? fun o => o.op = 0x0115 with
    | none => s
    | some o =>
      let b : Fin 2 := Fin.ofNat 2 o.target.toNat
      let crcOk : Bool := (s.ocp.firmware[b]).all fun l => loadCrcOk l
      let own (x : PendingOp) : Bool := x = o
      if sigOk && crcOk then
        endOps own Status.ok { s with ocp := { s.ocp with activeBank := some (decide (b.val = 1)) } }
      else endOps own Status.imageInvalid s)

/-! ### Tunnel, network, sessions (R70, R84, R91, R92) -/

def dTunnel : OpDesc := modOp 0x0120 .b (fun n => 6 ≤ n && n ≤ 1020)
/-- Sends the inner packet over Uaxabel; the outer packet keeps its credit until its reply (R92). -/
def sendTunnel (p : Packet) (s : State) : State :=
  let s := beginPacket 0x0120 p s
  sendFragments (par64 p 0) 0 (p.params.drop 2) { s with ocp := { s.ocp with tunnels := s.ocp.tunnels ++
    [{ session := p.session, seq := p.seq, remote := par64 p 0, since := s.dt, hdr := p, inner := p.params.drop 2 }] } }
/-- TUNNEL (R92). -/
def execTunnel (p : Packet) (s : State) : Host.Outcome State Fault Refusal :=
  .next (requestBy dTunnel (fun s =>
      let st := headerStatus dTunnel p s
      if st = Status.ok then sendTunnel p s else replyTo dTunnel p (refusePacket 0x0120 st p s)) p s)

/-- Ends a waiting TUNNEL with a reply.  Its word 3 reports the DT at which the inner packet was sent on, which is the TUNNEL's
execution (R83). -/
def endTunnel (w : TunnelWait) (st : BitVec 16) (out : List Word) (s : State) : State :=
  produceReply w.session w.seq (packetCrc 0x0120 w.hdr) (replyWords 0x0120 w.hdr st (nsLo w.since) out)
    { s with ocp := { s.ocp with tunnels := s.ocp.tunnels.filter fun x => x ≠ w } }

/-- The inner reply of a TUNNEL arrives: the outer reply carries it; a late one is discarded and counted (R92). -/
def execTunnelInnerReply (session : Fin 80) (seq : Word) (words : List Word) (s : State) : Host.Outcome State Fault Refusal :=
  .next (match s.ocp.tunnels.find? fun w => w.session = session && w.seq = seq with
    | some w => endTunnel w Status.ok words s
    | none => note Ev.replyUndelivered srcMgmt 1 (natWord session.val) 0
        (countSession .undelivered 1 session s))

/-- No inner reply has arrived after 100 ms (R92). -/
def execTunnelTimeout (session : Fin 80) (seq : Word) (s : State) : Host.Outcome State Fault Refusal :=
  .next (match s.ocp.tunnels.find? fun w => w.session = session && w.seq = seq with
    | some w => if hasPassed w.since 100000000 s then endTunnel w Status.tunnelUnreachable [] s else s
    | none => s)

/-- The allow list of an Ethernet port takes a source; an empty list takes every source (R74, R91). -/
def sourceAllowed (n : NetConfig) (addr : Word) : Bool :=
  n.allow.isEmpty || n.allow.any fun x => addr &&& x.2 = x.1 &&& x.2

/-- A session that ended is free for another source. -/
def releaseSession (i : Fin 80) (s : State) : State := modSession i (fun x => { x with inUse := false }) (endSession false i s)

def dNetConfig : OpDesc :=
  { op := 0x0121, cls := .b, target := tBelow 2, params := fun n => 3 ≤ n && n ≤ 19 && n % 2 = 1 }
def allowOf : List Word → List (Word × Word)
  | a :: m :: ws => (a, m) :: allowOf ws
  | _ => []
def runNetConfig (p : Packet) (s : State) : Reply :=
  let e : Fin 2 := Fin.ofNat 2 (tgt p)
  let n : NetConfig := { addr := par p 0, mask := par p 1, gateway := par p 2, allow := allowOf (p.params.drop 3) }
  let s := { s with ocp := { s.ocp with net := upd s.ocp.net e fun _ => n } }
  ok ((List.finRange 80).foldl (fun s i =>
    let x := s.ocp.sessions[i]
    if 2 ≤ i.val && i.val < 10 && x.inUse && x.peerEth.toNat = e.val && !sourceAllowed n x.peerAddr
    then releaseSession i s else s) s)
/-- NET_CONFIG (R91). -/
def execNetConfig (p : Packet) (s : State) : Host.Outcome State Fault Refusal :=
  .next (request dNetConfig acceptAny runNetConfig p s)

def dSessionReset : OpDesc := { modOp 0x0122 .b (· = 0) with prio := true }
/-- The reply to SESSION_RESET is produced, and the session is reset in that instant; the reply itself stays deliverable. -/
def serveSessionReset (p : Packet) (s : State) : State :=
  let st := headerStatus dSessionReset p s
  if st ≠ Status.ok then replyTo dSessionReset p (refusePacket 0x0122 st p s)
  else
    let n := s.ocp.sessions[p.session].out.length
    let s := replyTo dSessionReset p (ok s)
    let kept := (s.ocp.sessions[p.session].out.drop n).map fun x => (OutKind.last, x.2)
    let s := endSession true p.session (modSession p.session (fun x => { x with out := x.out.take n }) s)
    modSession p.session (fun x => { x with out := kept }) s
/-- SESSION_RESET (R84, R91). -/
def execSessionReset (p : Packet) (s : State) : Host.Outcome State Fault Refusal :=
  .next (requestBy dSessionReset (serveSessionReset p) p s)

def dImageStreamSet : OpDesc := modOp 0x0123 .b (· = 4)
/-- DESIGN CHOICE: "PCIe only" is read as the PCIe session only; the command is answered PARAM_RANGE on any other (log entry
116). -/
def acceptImageStreamSet (p : Packet) (_ : State) : BitVec 16 :=
  if p.session.val = 0 && (parNat p 2 = 0 || (parIn p 2 2 64 && parIn p 3 1 256)) then Status.ok else Status.paramRange
def runImageStreamSet (p : Packet) (s : State) : Reply :=
  ok { s with ocp := { s.ocp with
    streamAddr := par64 p 0, streamSlots := par p 2, streamDiv := par p 3, streamNext := 0 } }
/-- IMAGE_STREAM_SET (R91, R105). -/
def execImageStreamSet (p : Packet) (s : State) : Host.Outcome State Fault Refusal :=
  .next (request dImageStreamSet acceptImageStreamSet runImageStreamSet p s)

def dHostInputPolicy : OpDesc := modOp 0x0124 .b (· = 2)
def acceptHostInputPolicy (p : Packet) (_ : State) : BitVec 16 :=
  if parIn p 0 1 255 && clsAllowed .note (par p 1) then Status.ok else Status.paramRange
def runHostInputPolicy (p : Packet) (s : State) : Reply :=
  ok { s with ocp := { s.ocp with nHost := par p 0, clsHostLost := clsOf (par p 1) } }
/-- HOST_INPUT_POLICY (R91, R104). -/
def execHostInputPolicy (p : Packet) (s : State) : Host.Outcome State Fault Refusal :=
  .next (request dHostInputPolicy acceptHostInputPolicy runHostInputPolicy p s)

/-! ### Transactions (R95 to R98) -/

def dStageOpen : OpDesc := modOp 0x1001 .b (· = 0)
def acceptStageOpen (p : Packet) (s : State) : BitVec 16 :=
  if s.ocp.sessions[p.session].txn.isSome then Status.transactionOpen else Status.ok
def runStageOpen (p : Packet) (s : State) : Reply :=
  ok (modSession p.session (fun x => { x with txn := some { last := s.dt } }) s)
/-- STAGE_OPEN (R95). -/
def execStageOpen (p : Packet) (s : State) : Host.Outcome State Fault Refusal :=
  .next (request dStageOpen acceptStageOpen runStageOpen p s)

def dStageCommit : OpDesc := modOp 0x1002 .b (· = 2)
def runStageCommit (p : Packet) (s : State) : Reply :=
  match s.ocp.sessions[p.session].txn with
  | none => answer Status.noTransaction s
  | some t =>
    let s := modSession p.session (fun x => { x with txn := none }) s
    match t.firstErr with
    | some e => answer e s
    | none => commitSet p.session p.seq (acceptedAt 0x1002 p s) (par64 p 0) t.cmds s
/-- STAGE_COMMIT (R59, R95). -/
def execStageCommit (p : Packet) (s : State) : Host.Outcome State Fault Refusal :=
  .next (request dStageCommit acceptAny runStageCommit p s)

def dStageAbort : OpDesc := { modOp 0x1003 .b (· = 0) with prio := true }
def runStageAbort (p : Packet) (s : State) : Reply :=
  match s.ocp.sessions[p.session].txn with
  | none => answer Status.noTransaction s
  | some t => okWith [natWord t.count] (modSession p.session (fun x => { x with txn := none }) s)
/-- STAGE_ABORT (R95, R98). -/
def execStageAbort (p : Packet) (s : State) : Host.Outcome State Fault Refusal :=
  .next (request dStageAbort acceptAny runStageAbort p s)

/-- The pending sets of a session.  DESIGN CHOICE: a set committed by a session that has ended stays pending and belongs to the
session that has its number next (log entry 117). -/
def sessionSets (s : State) (i : Fin 80) : List StagedSet :=
  s.stage.sets.filter fun x => x.session = BitVec.ofNat 16 i.val

def dStageStatus : OpDesc := modOp 0x1004 .a (· = 0)
def runStageStatus (p : Packet) (s : State) : Reply :=
  okWith (natWord ((s.ocp.sessions[p.session].txn.map (·.count)).getD 0)
    :: (sessionSets s p.session).flatMap fun x => x.seq :: words64 x.target) s
/-- STAGE_STATUS (R98). -/
def execStageStatus (p : Packet) (s : State) : Host.Outcome State Fault Refusal :=
  .next (request dStageStatus acceptAny runStageStatus p s)

def dStageCancel : OpDesc := modOp 0x1005 .b (· = 1)
/-- The key of a set by its session and sequence number. -/
def cancelKey (p : Packet) : BitVec 16 × Word := (BitVec.ofNat 16 p.session.val, par p 0)
/-- The cutoff is judged at the cancel's acceptance; a set that its pour has left out for this cancel is withdrawn (R97). -/
def runStageCancel (p : Packet) (s : State) : Reply :=
  if s.stage.cancelled.contains (cancelKey p) then
    ok { s with stage := { s.stage with cancelled := s.stage.cancelled.filter fun k => k ≠ cancelKey p } }
  else match (sessionSets s p.session).find? fun x => x.seq = par p 0 with
  | none => answer Status.stageNotPending s
  | some x =>
    if pourLen s ≠ 0 && x.target.toNat < pourFrom (acceptedAt 0x1005 p s) s then answer Status.stageAlreadyFinal s
    else ok { s with stage := { s.stage with sets := s.stage.sets.erase x } }
/-- STAGE_CANCEL (R97). -/
def execStageCancel (p : Packet) (s : State) : Host.Outcome State Fault Refusal :=
  .next (request dStageCancel acceptAny runStageCancel p s)

/-- A transaction idle for 1 s is aborted (R96). -/
def execStageTimeout (session : Fin 80) (s : State) : Host.Outcome State Fault Refusal :=
  .next (match s.ocp.sessions[session].txn with
    | none => s
    | some t => if hasPassed t.last 1000000000 s then
        note Ev.stageTimeout srcMgmt (natWord session.val) (natWord t.count) 0
          (modSession session (fun x => { x with txn := none }) s)
      else s)

end Sys2Proof.Machine
end

