-- ==== Sys2Proof/Machine/Can.lean ====
section
/-! DEFINITION. Group 0x0E: the CAN FD controllers, their queues, error states, sleep and time-triggered schedule
(R529 to R549). -/

namespace Sys2Proof.Machine

abbrev OutN := Host.Outcome State Fault Refusal

def modCanRegs (n : Fin 4) (f : CanRegs → CanRegs) (s : State) : State := modCan n (fun c => { c with regs := f c.regs }) s
/-- A counter of a controller, with its overflow flag. -/
def canCount (n : Fin 4) (get : CanRegs → Word) (set : CanRegs → Word → CanRegs) (s : State) : State :=
  modCanRegs n (fun r => { (set r (satInc (get r))) with cntOvf := r.cntOvf || satFull (get r) }) s
def canNote (n : Fin 4) (code : BitVec 16) (p0 p1 p2 : Word) (s : State) : State := note code (srcCan n) p0 p1 p2 s
/-- The controller as time has left it (R544). -/
def canSettle (n : Fin 4) (s : State) : State := modCan n (canNow s) s
/-- The controller is held in block reset. -/
def canHeld (s : State) (n : Fin 4) : Bool := s.power.blocks.contains (BitVec.ofNat 16 (0x200 + n.val))
/-- An event of a controller: nothing happens to one in block reset. -/
def canDo (n : Fin 4) (f : State → State) (s : State) : OutN := .next (if canHeld s n then s else f (canSettle n s))

/-! ### Completion of requests (R541) -/

/-- The request with this handle ends: exactly one completion, with attempts (and an error type) as P2. -/
def complete (n : Fin 4) (h : BitVec 16) (status : Fin 9) (p2 : Word) (s : State) : State :=
  let s := modCan n (fun c =>
    let txq := c.txq.filter fun q => q.handle ≠ h
    { c with
      txq := txq, onBus := if c.onBus = some h then none else c.onBus
      regs := { c.regs with
        txPending := BitVec.ofNat 6 txq.length
        completeCount := upd c.regs.completeCount status satInc
        cntOvf := c.regs.cntOvf || satFull c.regs.completeCount[status] } }) s
  canNote n Ev.txComplete (h.zeroExtend 32) (natWord status.val) p2 s
/-- Every pending request ends with a status. -/
def completeAll (n : Fin 4) (status : Fin 9) (s : State) : State :=
  s.cans[n].txq.foldl (fun s q => complete n q.handle status (natWord q.attempts) s) s

/-! ### What is on the bus (R540, R543) -/

/-- An identifier word as it counts on the bus: base bits first, then the extension. -/
def busRank (w : Word) : Nat :=
  let id := (w.extractLsb' 0 29).toNat
  if w.getLsbD 29 then id * 2 + 1 else (id / 2 ^ 18) * 2 ^ 18 * 2
/-- The request that arbitrates next (R540). -/
def nextReq (c : Can) : Option CanReq :=
  if c.regs.txqOrder then c.txq.head?
  else c.txq.foldl (fun (b : Option CanReq) q => match b with
    | none => some q
    | some x => if busRank q.ident < busRank x.ident then some q else b) none
/-- The controller may send from its queue: NORMAL, on the bus, and with a schedule only in an ARBITRATING window. -/
def maySend (c : Can) : Bool :=
  c.regs.mode = 1 && !c.regs.integrating && c.regs.errState.toNat < 2 && (!c.regs.ttRunning || c.ttWindow) && c.ttObject.isNone
/-- Twice the length in ns of a window of so many nominal bits. -/
def windowNs2 (r : CanRegs) (txen : Nat) : Nat := txen * 25 * (r.nbrp.toNat + 1) * (3 + r.ntseg1.toNat + r.ntseg2.toNat)
/-- After a frame in an ARBITRATING window: a further one may start before the window has ended (R545). -/
def windowAfter (n : Fin 4) (s : State) : State :=
  modCan n (fun c => { c with ttWindow := c.ttWindow && decide (s.dt.toNat < c.ttClose.toNat) }) s
/-- Before the queue changes: whether the frame of the next request is on the bus already is open. -/
def busLatch (n : Fin 4) (s : State) : State :=
  let c := s.cans[n]
  if c.onBus.isNone && maySend c && freeBool s
  then modCan n (fun c => { c with onBus := (nextReq c).map (·.handle) }) (drawn s) else drawn s
/-- The request whose frame a bus event is about. -/
def busReq (c : Can) : Option CanReq :=
  match c.onBus with
  | some h => c.txq.find? fun q => q.handle = h
  | none => nextReq c
def modReq (n : Fin 4) (h : BitVec 16) (f : CanReq → CanReq) (s : State) : State :=
  modCan n (fun c => { c with txq := c.txq.map fun q => if q.handle = h then f q else q, onBus := none }) s

/-! ### Error states (R534, R535) -/

/-- The controller is bus-off: recovery starts at once or waits, and the queue is flushed or kept. -/
def busOff (n : Fin 4) (s : State) : State :=
  let auto := !s.cans[n].regs.busoffRecovery
  let s := modCan n (fun c => { c with
    onBus := none, ttObject := none
    regs := { c.regs with errState := if auto then 3 else 2, busoffSeen := true } }) s
  let s := canNote n Ev.busOff 0 0 0 (canCount n (·.busoffCount) (fun r v => { r with busoffCount := v }) s)
  if s.cans[n].regs.busoffFlush then completeAll n 5 s else s
/-- TEC and REC take new values: the error state follows, with its events. -/
def setCounters (n : Fin 4) (tec : BitVec 9) (rec : BitVec 8) (s : State) : State :=
  let was := s.cans[n].regs.errState
  let s := modCanRegs n (fun r => { r with tec := tec, recField := rec }) s
  if 2 ≤ was.toNat then s
  else if 255 < tec.toNat then busOff n s
  else if 127 < tec.toNat || 127 < rec.toNat then
    let s := modCanRegs n (fun r => { r with errState := 1, passiveSeen := r.passiveSeen || was = 0 }) s
    if was = 0 then canNote n Ev.errorPassive (tec.zeroExtend 32) (rec.zeroExtend 32) 0 s else s
  else modCanRegs n (fun r => { r with errState := 0 }) s
/-- An error of a kind is counted: 1 bit, 2 stuff, 3 form, 4 CRC, 5 acknowledge. -/
def countError (n : Fin 4) (kind : Nat) (s : State) : State :=
  match kind with
  | 1 => canCount n (·.bitErrCount) (fun r v => { r with bitErrCount := v }) s
  | 2 => canCount n (·.stuffErrCount) (fun r v => { r with stuffErrCount := v }) s
  | 3 => canCount n (·.formErrCount) (fun r v => { r with formErrCount := v }) s
  | 4 => canCount n (·.crcErrCount) (fun r v => { r with crcErrCount := v }) s
  | 5 => canCount n (·.ackErrCount) (fun r v => { r with ackErrCount := v }) s
  | _ => s
/-- TEC after an error of a frame that the controller sent: 8 more, but for the acknowledge exception of an error-passive
node (R542) and the stuff exception, which applies or not (R534; the steps are those of ISO 11898-1). -/
def tecAfter (s : State) (r : CanRegs) (kind : Nat) : BitVec 9 :=
  if (kind = 5 && r.errState = 1) || (kind = 2 && freeBool s) then r.tec
  else BitVec.ofNat 9 (min 511 (r.tec.toNat + 8))

/-! ### The time-triggered schedule (R544 to R546) -/

/-- A TT frame missed, or ended by an error; the event at most once a millisecond. -/
def ttMissed (n : Fin 4) (j : Fin 64) (error : Bool) (s : State) : State :=
  let s := if error then canCount n (·.ttErrCount) (fun r v => { r with ttErrCount := v }) s
    else canCount n (·.ttMissedCount) (fun r v => { r with ttMissedCount := v }) s
  let due := s.cans[n].ttMissAt.all fun t => decide (t.toNat + 1000000 * 2 ^ 32 ≤ s.dt.toNat)
  if due then
    canNote n Ev.ttMissed (natWord j.val) (boolWord error) 0
      (modCan n (fun c => { c with ttMissAt := some s.dt, regs := { c.regs with ttMissedSeen := true } }) s)
  else s
/-- The schedule that was switched off ends with the frame on the bus. -/
def ttEnd (n : Fin 4) (s : State) : State :=
  modCan n (fun c => if c.ttStop then { c with ttStop := false, ttWindow := false, regs := { c.regs with ttRunning := false } } else c) s
/-- A window takes its object whole: updates at least 5 us old, and as many of the later ones as are in time (R546). -/
def ttTake (n : Fin 4) (j : Fin 64) (s : State) : State :=
  let l := s.cans[n].objNext[j]
  let old (x : CanObject × Fix) : Bool := decide (x.2.toNat + 5000 * 2 ^ 32 ≤ s.dt.toNat)
  let sure := (l.filter old).length
  let k := sure + freeNow s % (l.length - sure + 1)
  let taken := (l.take k).getLast?
  modCan n (fun c => { c with
    objects := upd c.objects j fun o => (taken.map (·.1)).getD o
    objNext := upd c.objNext j fun _ => l.drop k }) (drawn s)
/-- This ns is the column's instant in the basic cycle (R544, R545). -/
def atColumn (c : Can) (x : CanColumn) (dt : Fix) : Bool :=
  ((nsOf dt).toInt - c.regs.ttOrigin.toInt) % (max 1 c.regs.bcNs.toNat : Nat) = x.offset.toNat
/-- The frame of a TT object; that of a REFERENCE cell carries k in data byte 0 (R545). -/
def ttFrameOf (o : CanObject) (ref : Bool) (k : BitVec 5) : CanSent :=
  { ident := o.ident, dlc := o.dlc, fdf := o.fdf, brs := o.brs
    data := if ref then (match o.data with
      | w :: rest => ((w &&& 0xFFFFFF00) ||| k.zeroExtend 32) :: rest
      | [] => [k.zeroExtend 32]) else o.data }
/-- TT_COLUMN_INSTANT (R545): the instant of a column, and for how many nominal bits from it the bus stays busy. -/
def execTtColumnInstant (n : Fin 4) (col : Fin 64) (busy : Nat) (s : State) : OutN :=
  canDo n (fun s =>
    let c := s.cans[n]
    match c.columns[col] with
    | none => s
    | some x =>
      if !c.regs.ttRunning || c.regs.mode ≠ 1 || !atColumn c x s.dt then s
      else
        let cell := x.cells.getD c.regs.cycleNow.toNat 0
        let j : Fin 64 := (cell.extractLsb' 2 6).toFin
        let s := modCan n (fun c => { c with
          ttWindow := cell.extractLsb' 0 2 = 2 && decide (busy < x.txen.toNat)
          ttClose := fixNat (s.dt.toNat + windowNs2 c.regs x.txen.toNat * 2 ^ 31) }) s
        if cell.extractLsb' 0 2 = 1 || cell.extractLsb' 0 2 = 3 then
          let s := ttTake n j s
          if x.txen.toNat ≤ busy || c.regs.integrating || 2 ≤ c.regs.errState.toNat then ttMissed n j false s
          else modCan n (fun c => { c with
            ttObject := some j, ttFrame := ttFrameOf c.objects[j] (cell.extractLsb' 0 2 = 3) c.regs.cycleNow }) s
        else s) s
/-- TT_RESTART (R544): after a load of DT the schedule resumes at the next start of cycle 0. -/
def execTtRestart (n : Fin 4) (s : State) : OutN :=
  canDo n (fun s =>
    if (s.cans[n].ttReload).any fun t => decide (t.toNat ≤ s.dt.toNat) then
      canNote n Ev.ttRestart 0 0 0 (canCount n (·.ttRestartCount) (fun r v => { r with ttRestartCount := v })
        (modCan n (fun c => { c with ttReload := none, regs := { c.regs with ttRunning := true } }) s))
    else s) s

/-! ### Transmission (R540 to R543) -/

/-- The loop delay measured in a frame sent with BRS, in mtq, at most 127; a longer one counts a bit error (R532). -/
def measureLoop (n : Fin 4) (brs : Bool) (loop : Option Nat) (s : State) : State :=
  match loop, brs && s.cans[n].regs.tdcEn with
  | some d, true =>
    let s := modCanRegs n (fun r => { r with tdcv := BitVec.ofNat 7 (min 127 d) }) s
    if 127 < d then canCount n (·.bitErrCount) (fun r v => { r with bitErrCount := v }) s else s
  | _, _ => s
/-- A frame was sent: TEC falls by 1. -/
def sentFrame (n : Fin 4) (f : CanSent) (s : State) : State :=
  let r := s.cans[n].regs
  let s := modCan n (fun c => { c with sent := f }) (canCount n (·.txFrameCount) (fun r v => { r with txFrameCount := v }) s)
  setCounters n (if r.tec = 0 then 0 else r.tec - 1) r.recField s
/-- A frame that the controller sent met an error. -/
def failedFrame (n : Fin 4) (kind : Nat) (s : State) : State :=
  let r := s.cans[n].regs
  setCounters n (tecAfter s r kind) r.recField (drawn (countError n kind s))
/-- An attempt of a request failed; kind 6 is a lost arbitration. -/
def attemptFailed (n : Fin 4) (q : CanReq) (kind : Nat) (s : State) : State :=
  let attempts := q.attempts + 1
  let noAck := if kind = 5 then q.noAck + 1 else 0
  let s := modReq n q.handle (fun q => { q with attempts := attempts, noAck := noAck }) s
  if q.cancel then complete n q.handle 2 (natWord attempts) s
  else if q.oneShot then complete n q.handle 4 (natWord (attempts + kind * 256)) s
  else if kind = 5 && s.cans[n].regs.noAckLimit.toNat ≤ noAck then complete n q.handle 3 (natWord attempts) s
  else s
/-- The frame of a request. -/
def reqFrame (q : CanReq) : CanSent := { ident := q.ident, dlc := q.dlc, fdf := q.fdf, brs := q.brs, data := q.data }
/-- CAN_TX_FRAME_END (R541): the frame on the bus is transmitted (0) or meets an error of a kind 1 to 5; and the loop delay that
it gave, where it got as far as the res bit. -/
def execCanTxFrameEnd (n : Fin 4) (err : BitVec 3) (loop : Option Nat) (s : State) : OutN :=
  canDo n (fun s =>
    let c := s.cans[n]
    let kind := err.toNat
    if 5 < kind || c.regs.mode ≠ 1 || c.regs.integrating || 2 ≤ c.regs.errState.toNat then s
    else match c.ttObject with
      | some j =>
        let s := modCan n (fun c => { c with ttObject := none }) s
        let s := measureLoop n c.ttFrame.brs loop (ttEnd n s)
        if kind = 0 then sentFrame n c.ttFrame s else failedFrame n kind (ttMissed n j true s)
      | none =>
        match busReq c with
        | none => s
        | some q =>
          if c.regs.ttRunning && !c.ttWindow then s else
          let s := measureLoop n q.brs loop (ttEnd n (windowAfter n s))
          if kind = 0 then
            complete n q.handle (if q.cancel then 1 else 0) (natWord (q.attempts + 1)) (sentFrame n (reqFrame q) s)
          else failedFrame n kind (attemptFailed n q kind s)) s
/-- CAN_ARBITRATION_LOST (R540, R543). -/
def execCanArbitrationLost (n : Fin 4) (s : State) : OutN :=
  canDo n (fun s =>
    let c := s.cans[n]
    if c.regs.mode ≠ 1 || c.regs.integrating || 2 ≤ c.regs.errState.toNat then s
    else
      let count (s : State) : State := canCount n (·.arbLostCount) (fun r v => { r with arbLostCount := v }) s
      match c.ttObject with
      | some j => ttMissed n j false (ttEnd n (count (modCan n (fun c => { c with ttObject := none }) s)))
      | none =>
        match busReq c with
        | none => s
        | some q => if c.regs.ttRunning && !c.ttWindow then s else attemptFailed n q 6 (ttEnd n (windowAfter n (count s)))) s
/-- CAN_BUS_ON (R534): 128 occurrences of 11 recessive bits. -/
def execCanBusOn (n : Fin 4) (s : State) : OutN :=
  canDo n (fun s =>
    if s.cans[n].regs.errState = 3 then
      canNote n Ev.busOn 0 0 0 (modCanRegs n (fun r => { r with errState := 0, tec := 0, recField := 0 }) s)
    else s) s
/-- CAN_INTEGRATION_DONE (R533): 11 consecutive recessive bits. -/
def execCanIntegrationDone (n : Fin 4) (s : State) : OutN := canDo n (modCanRegs n (fun r => { r with integrating := false })) s

/-! ### Modes, sleep and wake (R533, R539) -/

/-- The controller leaves NORMAL: its schedule stops. -/
def ttOff (c : Can) : Can :=
  { c with ttStart := none, ttStop := false, ttReload := none, ttObject := none, ttWindow := false, regs := { c.regs with ttRunning := false } }
/-- A mode takes effect. -/
def enterMode (n : Fin 4) (m : BitVec 3) (s : State) : State :=
  let s := modCan n (fun c =>
    let c := if m = 1 then c else ttOff c
    { c with modeReq := none, sleepReq := false, onBus := none, regs := { c.regs with mode := m, integrating := m ≠ 0 } }) s
  if m = 0 then completeAll n 7 s else s
/-- CAN_MODE_CHANGE_APPLY (R533): no frame is on the bus any more. -/
def execCanModeChangeApply (n : Fin 4) (s : State) : OutN :=
  canDo n (fun s => match s.cans[n].modeReq with
    | some m => enterMode n m s
    | none => s) s
/-- CAN_SLEEP_ENTER (R539): the next bus idle. -/
def execCanSleepEnter (n : Fin 4) (s : State) : OutN :=
  canDo n (fun s =>
    if s.cans[n].sleepReq then
      completeAll n 6 (modCan n (fun c =>
        let c := ttOff c
        { c with sleepReq := false, modeReq := none, onBus := none
                 regs := { c.regs with mode := 4, integrating := false, wakeErrCount := 0 } }) s)
    else s) s
/-- The controller wakes for a cause: 0 edge, 1 frame, 2 error fallback. -/
def wake (n : Fin 4) (cause : Word) (s : State) : State := canNote n Ev.wake cause 0 0 (enterMode n 1 s)
/-- A sleeping controller counts a frame that carries an error. -/
def wakeError (n : Fin 4) (s : State) : State :=
  let s := canCount n (·.wakeErrCount) (fun r v => { r with wakeErrCount := v }) s
  if 32 ≤ s.cans[n].regs.wakeErrCount.toNat then wake n 2 s else s
/-- A frame wakes the controller: identifier and first data byte match under their masks. -/
def wakeMatch (r : CanRegs) (f : CanFrame) : Bool :=
  let mask := r.wakeData0.extractLsb' 8 8
  ((f.ident ^^^ r.wakeId) &&& r.wakeMask) = 0 && (match f.data with
    | b :: _ => ((b ^^^ r.wakeData0.extractLsb' 0 8) &&& mask) = 0
    | [] => mask = 0)
/-- CAN_WAKE (R539): what a sleeping controller sees. -/
def execCanWake (n : Fin 4) (w : CanWake) (s : State) : OutN :=
  canDo n (fun s =>
    let r := s.cans[n].regs
    if r.mode ≠ 4 then s
    else match w, r.wakeMode with
      | .edge ns, false => if r.wakeFilt.toNat * 100 ≤ ns then wake n 0 s else s
      | .frame f, true => if wakeMatch r f then wake n 1 s else s
      | .error, true => wakeError n s
      | _, _ => s) s

/-- What the rules of ISO 11898-1 add for an error: 1 or 8 to REC as a receiver, 8 to TEC as a transmitter, or nothing. -/
def isoCounters (r : CanRegs) (rule : Fin 4) : BitVec 9 × BitVec 8 :=
  match rule with
  | 0 => (r.tec, r.recField)
  | 1 => (r.tec, BitVec.ofNat 8 (min 255 (r.recField.toNat + 1)))
  | 2 => (r.tec, BitVec.ofNat 8 (min 255 (r.recField.toNat + 8)))
  | 3 => (BitVec.ofNat 9 (min 511 (r.tec.toNat + 8)), r.recField)
/-- CAN_BUS_ERROR (R534): an error of a kind on the bus, and which rule of the standard for the counters applies to it. -/
def execCanBusError (n : Fin 4) (kind : BitVec 3) (rule : Fin 4) (s : State) : OutN :=
  canDo n (fun s =>
    let r := s.cans[n].regs
    if r.mode = 4 then (if r.wakeMode then wakeError n s else s)
    else if r.mode = 0 || r.integrating || 2 ≤ r.errState.toNat then s
    else
      let s := countError n kind.toNat s
      if r.mode = 1 then setCounters n (isoCounters r rule).1 (isoCounters r rule).2 s
      else if r.mode = 2 then modCanRegs n (fun r => { r with integrating := true }) s
      else s) s

/-! ### Receiving (R536 to R538) -/

/-- Data bytes of a DLC. -/
def dlcBytes (fdf : Bool) (dlc : BitVec 4) : Nat :=
  let d := dlc.toNat
  if d ≤ 8 then d
  else if !fdf then 8
  else match d with
    | 9 => 12 | 10 => 16 | 11 => 20 | 12 => 24 | 13 => 32 | 14 => 48 | _ => 64
/-- Sixteen words of data bytes. -/
def dataWords (bs : List (BitVec 8)) : List Word :=
  (List.range 16).map fun i => bs.getD (4 * i + 3) 0 ++ bs.getD (4 * i + 2) 0 ++ bs.getD (4 * i + 1) 0 ++ bs.getD (4 * i) 0
/-- The 20 words of an entry (R537). -/
def rxEntry (f : CanFrame) (filter : Option Nat) (seq : BitVec 16) : List Word :=
  let fdf := f.ident.getLsbD 30
  let rtr := f.ident.getLsbD 31
  let n := if rtr then 0 else dlcBytes fdf f.dlc
  let flt : Word := match filter with
    | some k => natWord (k * 256)
    | none => natWord (31 * 256 + 8192)
  [(f.ident &&& 0x3FFFFFFF) ||| bitAt rtr 30,
    f.dlc.zeroExtend 32 ||| bitAt fdf 4 ||| bitAt f.brs 5 ||| bitAt f.esi 6 ||| flt ||| (seq.zeroExtend 32 <<< 16),
    f.sof.extractLsb' 0 32, f.sof.extractLsb' 32 32] ++ dataWords (f.data.take n)
/-- The filters in force at a start of frame (R536). -/
def filtersAt (cur : Vector CanFilterRegs 32) (sof : BitVec 64) : List (Fix × Vector CanFilterRegs 32) → Vector CanFilterRegs 32
  | [] => cur
  | (t, v) :: rest => if (nsOf t).toNat < sof.toNat then cur else filtersAt v sof rest
/-- A frame finds its queue full. -/
def rxOverflow (n : Fin 4) (q : Fin 2) (s : State) : State :=
  let s := modCan n (fun c => { c with
    rxq := upd c.rxq q fun r => { r with rxOvfCount := satInc r.rxOvfCount }
    lostSince := upd c.lostSince q (· + 1)
    regs := { c.regs with rxOvfSeen := true, cntOvf := c.regs.cntOvf || satFull c.rxq[q].rxOvfCount } }) s
  let due := s.cans[n].lostAt[q].all fun t => decide (t.toNat + 1000000 * 2 ^ 32 ≤ s.dt.toNat)
  if due then
    canNote n Ev.rxOverflow (natWord q.val) (natWord s.cans[n].lostSince[q]) 0
      (modCan n (fun c => { c with lostSince := upd c.lostSince q fun _ => 0, lostAt := upd c.lostAt q fun _ => some s.dt }) s)
  else s
def setEntries (n : Fin 4) (q : Fin 2) (l : List (List Word)) (s : State) : State :=
  modCan n (fun c => { c with
    entries := upd c.entries q fun _ => l, rxq := upd c.rxq q fun r => { r with fill := BitVec.ofNat 7 l.length } }) s
/-- A frame is stored in a queue (R538). -/
def rxStore (n : Fin 4) (q : Fin 2) (f : CanFrame) (filter : Option Nat) (s : State) : State :=
  let c := s.cans[n]
  let r := c.rxq[q]
  let l := c.entries[q]
  let full := 64 ≤ l.length
  let s := if full then rxOverflow n q s else s
  if full && !r.ovfPolicy then s
  else
    let l := if full then l.eraseIdx (if r.locked then 1 else 0) else l
    let s := setEntries n q (l ++ [rxEntry f filter r.nextSeq]) s
    let s := modCan n (fun c => { c with rxq := upd c.rxq q fun r => { r with nextSeq := r.nextSeq + 1 } }) s
    if l.length < r.watermark.toNat && r.watermark.toNat ≤ l.length + 1 then canNote n Ev.rxWatermark (natWord q.val) 0 0 s else s
/-- REC after a frame received without error (R534; ISO 11898-1). -/
def recAfter (s : State) (rec : BitVec 8) : BitVec 8 :=
  if rec = 0 then 0 else if rec.toNat ≤ 127 then rec - 1 else BitVec.ofInt 8 (freeIn s 119 127)
/-- CAN_FRAME_RECEIVE (R536): a frame that is valid for a receiver. -/
def execCanFrameReceive (n : Fin 4) (f : CanFrame) (s : State) : OutN :=
  canDo n (fun s =>
    let c := s.cans[n]
    if c.regs.mode = 0 || c.regs.mode = 4 || c.regs.integrating || 2 ≤ c.regs.errState.toNat || (f.ident.getLsbD 30 && !c.regs.fdEn) then s
    else
      let s := canCount n (·.rxFrameCount) (fun r v => { r with rxFrameCount := v }) s
      let s := if c.regs.mode = 1 then setCounters n c.regs.tec (recAfter s c.regs.recField) (drawn s) else s
      let fs := filtersAt c.filters f.sof c.filtersWas
      let s := modCan n (fun c => { c with filtersWas := c.filtersWas.filter fun x => decide (f.sof.toNat ≤ (nsOf x.1).toNat) }) s
      match (List.finRange 32).find? fun k => fs[k].fltEn && ((f.ident ^^^ fs[k].fltMatch) &&& fs[k].fltMask) = 0 with
      | some k =>
        if fs[k].fltAction = 0 then rxStore n 0 f (some k.val) s
        else if fs[k].fltAction = 1 then rxStore n 1 f (some k.val) s
        else s
      | none =>
        let s := canCount n (·.nomatchCount) (fun r v => { r with nomatchCount := v }) s
        if c.regs.nomatchField then rxStore n 1 f none s else s) s
/-- What a read of a window word does to the queue (R538). -/
def rxqRead (n : Fin 4) (q : Fin 2) (w : Nat) (s : State) : State :=
  let c := s.cans[n]
  if canHeld s n || c.entries[q].isEmpty then s
  else if w = 0 then modCan n (fun c => { c with rxq := upd c.rxq q fun r => { r with locked := true } }) s
  else if w = 19 && c.rxq[q].locked then
    setEntries n q (c.entries[q].drop 1) (modCan n (fun c => { c with rxq := upd c.rxq q fun r => { r with locked := false } }) s)
  else s
/-- RXQ_WIN_READ (R538): word 0 locks the head entry, word 19 under the lock removes it. -/
def execRxqWinRead (n : Fin 4) (q : Fin 2) (w : Fin 20) (s : State) : OutN := .next (rxqRead n q w.val s)

/-! ### Commands (R548) -/

def canOf (p : Packet) : Fin 4 := Fin.ofNat 4 (tgt p)
def canOp (op : BitVec 16) (cls : ReplyClass) (params : Nat → Bool) : OpDesc :=
  { op := op, cls := cls, target := tBelow 4, params := params, block := fun n => if n < 4 then some (0x200 + n) else none }
/-- A command on the controller as time has left it. -/
def canRun (f : Packet → State → Reply) (p : Packet) (s : State) : Reply := f p (canSettle (canOf p) s)

/-- Time quanta of a bit, times BRP: mtq of a bit. -/
def bitMtq (p : Packet) (i : Nat) : Nat := parNat p i * (1 + parNat p (i + 1) + parNat p (i + 2))
def phaseOk (p : Packet) (i t1lo t1hi t2lo t2hi quanta : Nat) : Bool :=
  parIn p i 1 32 && parIn p (i + 1) t1lo t1hi && parIn p (i + 2) t2lo t2hi && parIn p (i + 3) 1 (parNat p (i + 2))
    && decide (quanta ≤ 1 + parNat p (i + 1) + parNat p (i + 2))
def dCanConfig : OpDesc := canOp 0x0E01 .b (· = 16)
def acceptCanConfig (p : Packet) (s : State) : BitVec 16 :=
  if !(parIn p 8 0 1 && parIn p 9 0 127 && parIn p 10 0 1 && parIn p 11 1 255 && parIn p 12 0 1 && parIn p 13 0 1 && parIn p 14 0 1
      && parIn p 15 0 1) then Status.paramRange
  else if s.cans[canOf p].regs.mode ≠ 0 then Status.canNotConfigMode
  else if !(phaseOk p 0 2 256 2 128 8 && phaseOk p 4 1 32 1 16 5) || bitMtq p 0 < 80 || bitMtq p 4 < 10 || bitMtq p 0 < bitMtq p 4
  then Status.bitTimingInvalid
  else if bitMtq p 4 < 40 && !parBool p 8 then Status.tdcRequired
  else Status.ok
def runCanConfig (p : Packet) (s : State) : Reply :=
  let m (i w : Nat) : BitVec w := BitVec.ofNat w (parNat p i - 1)
  ok (modCanRegs (canOf p) (fun r => { r with
    nbrp := m 0 5, ntseg1 := m 1 8, ntseg2 := m 2 7, nsjw := m 3 7, dbrp := m 4 5, dtseg1 := m 5 5, dtseg2 := m 6 4, dsjw := m 7 4
    tdcEn := parBool p 8, tdco := parBits p 9 7, fdEn := parBool p 10, noAckLimit := parBits p 11 8, busoffRecovery := parBool p 12
    busoffFlush := parBool p 13, txqOrder := parBool p 14, nomatchField := parBool p 15 }) s)
/-- CAN_CONFIG (R530, R532): nominal BRP, TSEG1, TSEG2, SJW, then those of the data phase. -/
def execCanConfig (p : Packet) (s : State) : OutN := .next (request dCanConfig acceptCanConfig (canRun runCanConfig) p s)

def dCanModeSet : OpDesc := canOp 0x0E02 .b (· = 1)
def acceptCanModeSet (p : Packet) (_ : State) : BitVec 16 := if parIn p 0 0 3 then Status.ok else Status.paramRange
def runCanModeSet (p : Packet) (s : State) : Reply :=
  let n := canOf p
  let m := parBits p 0 3
  if s.cans[n].regs.mode = 0 then ok (if m = 0 then modCan n (fun c => { c with modeReq := none }) s else enterMode n m s)
  else ok (modCan n (fun c => { c with modeReq := if m = c.regs.mode then none else some m }) s)
/-- CAN_MODE_SET (R533): from CONFIG at once, else when no frame is on the bus. -/
def execCanModeSet (p : Packet) (s : State) : OutN := .next (request dCanModeSet acceptCanModeSet (canRun runCanModeSet) p s)

def dCanFilterSet : OpDesc := canOp 0x0E03 .b (· = 5)
def acceptCanFilterSet (p : Packet) (_ : State) : BitVec 16 :=
  if parIn p 0 0 31 && parIn p 3 0 2 && parIn p 4 0 1 then Status.ok else Status.paramRange
def runCanFilterSet (p : Packet) (s : State) : Reply :=
  ok (modCan (canOf p) (fun c => { c with
    filtersWas := (s.dt, c.filters) :: c.filtersWas
    filters := upd c.filters (Fin.ofNat 32 (parNat p 0)) fun _ =>
      { fltMatch := par p 1, fltMask := par p 2, fltAction := parBits p 3 2, fltEn := parBool p 4 } }) s)
/-- CAN_FILTER_SET (R536). -/
def execCanFilterSet (p : Packet) (s : State) : OutN := .next (request dCanFilterSet acceptCanFilterSet (canRun runCanFilterSet) p s)

def dCanRxqConfig : OpDesc := canOp 0x0E04 .b (· = 3)
def acceptCanRxqConfig (p : Packet) (_ : State) : BitVec 16 :=
  if parIn p 0 0 1 && parIn p 1 1 64 && parIn p 2 0 1 then Status.ok else Status.paramRange
def runCanRxqConfig (p : Packet) (s : State) : Reply :=
  ok (modCan (canOf p) (fun c => { c with
    rxq := upd c.rxq (Fin.ofNat 2 (parNat p 0)) fun r => { r with watermark := parBits p 1 7, ovfPolicy := parBool p 2 } }) s)
/-- CAN_RXQ_CONFIG (R538). -/
def execCanRxqConfig (p : Packet) (s : State) : OutN := .next (request dCanRxqConfig acceptCanRxqConfig (canRun runCanRxqConfig) p s)

def dCanRxRead : OpDesc := canOp 0x0E05 .a (· = 2)
def acceptCanRxRead (p : Packet) (s : State) : BitVec 16 :=
  if !(parIn p 0 0 1 && parIn p 1 1 50) then Status.paramRange
  else if (s.cans[canOf p].rxq[Fin.ofNat 2 (parNat p 0)]).locked then Status.rxqLocked else Status.ok
def runCanRxRead (p : Packet) (s : State) : Reply :=
  let q : Fin 2 := Fin.ofNat 2 (parNat p 0)
  let l := s.cans[canOf p].entries[q]
  let k := parNat p 1
  okWith ((l.take k).flatten ++ [natWord (l.drop k).length]) (setEntries (canOf p) q (l.drop k) s)
/-- CAN_RX_READ (R538). -/
def execCanRxRead (p : Packet) (s : State) : OutN := .next (request dCanRxRead acceptCanRxRead (canRun runCanRxRead) p s)

/-- DLC, FDF and BRS of a frame to send: BRS and a DLC above 8 only with FDF. -/
def frameOk (p : Packet) (dlc fdf brs : Nat) : Bool :=
  parIn p dlc 0 15 && parIn p fdf 0 1 && parIn p brs 0 1 && (parBool p fdf || (!parBool p brs && parIn p dlc 0 8))
def dCanTx : OpDesc := canOp 0x0E06 .b (fun n => 5 ≤ n && n ≤ 21)
def acceptCanTx (p : Packet) (s : State) : BitVec 16 :=
  let c := s.cans[canOf p]
  if !(frameOk p 1 2 3 && parIn p 4 0 1) then Status.paramRange
  else if c.regs.mode ≠ 1 then Status.canNoTxMode
  else if 32 ≤ c.txq.length then Status.txqFull else Status.ok
def runCanTx (p : Packet) (s : State) : Reply :=
  let n := canOf p
  let s := busLatch n s
  let h := s.cans[n].nextHandle
  let q : CanReq := { handle := h, ident := par p 0, dlc := parBits p 1 4, fdf := parBool p 2, brs := parBool p 3, oneShot := parBool p 4
                      data := p.params.drop 5 }
  okWith [h.zeroExtend 32] (canCount n (·.txRequested) (fun r v => { r with txRequested := v }) (modCan n (fun c => { c with
    nextHandle := h + 1, txq := c.txq ++ [q], regs := { c.regs with txPending := BitVec.ofNat 6 (c.txq.length + 1) } }) s))
/-- CAN_TX (R540). -/
def execCanTx (p : Packet) (s : State) : OutN := .next (request dCanTx acceptCanTx (canRun runCanTx) p s)

def dCanTxCancel : OpDesc := canOp 0x0E07 .b (· = 1)
def runCanTxCancel (p : Packet) (s : State) : Reply :=
  let n := canOf p
  match s.cans[n].txq.find? fun q => q.handle.toNat = parNat p 0 with
  | none => answer Status.cancelUnknown s
  | some q =>
    let s := busLatch n s
    if s.cans[n].onBus = some q.handle then
      ok (modCan n (fun c => { c with txq := c.txq.map fun x => if x.handle = q.handle then { x with cancel := true } else x }) s)
    else ok (complete n q.handle 2 (natWord q.attempts) s)
/-- CAN_TX_CANCEL (R543). -/
def execCanTxCancel (p : Packet) (s : State) : OutN := .next (request dCanTxCancel acceptAny (canRun runCanTxCancel) p s)

def dCanBusoffRecover : OpDesc := canOp 0x0E08 .b (· = 0)
def runCanBusoffRecover (p : Packet) (s : State) : Reply :=
  if s.cans[canOf p].regs.errState = 2 then ok (modCanRegs (canOf p) (fun r => { r with errState := 3 }) s)
  else answer Status.notBusOff s
/-- CAN_BUSOFF_RECOVER (R534). -/
def execCanBusoffRecover (p : Packet) (s : State) : OutN :=
  .next (request dCanBusoffRecover acceptAny (canRun runCanBusoffRecover) p s)

def dCanSleep : OpDesc := canOp 0x0E09 .b (· = 6)
def acceptCanSleep (p : Packet) (s : State) : BitVec 16 :=
  if !(parIn p 0 0 1 && parIn p 1 5 50 && parIn p 4 0 255 && parIn p 5 0 255) then Status.paramRange
  else if parBool p 0 && anyEnabled s then Status.wakeFrameInService else Status.ok
def runCanSleep (p : Packet) (s : State) : Reply :=
  ok (modCan (canOf p) (fun c => { c with
    sleepReq := true
    regs := { c.regs with
      wakeMode := parBool p 0, wakeFilt := parBits p 1 6, wakeId := par p 2, wakeMask := par p 3
      wakeData0 := (parBits p 5 8 : BitVec 8) ++ (parBits p 4 8 : BitVec 8) } }) s)
/-- CAN_SLEEP (R539). -/
def execCanSleep (p : Packet) (s : State) : OutN := .next (request dCanSleep acceptCanSleep (canRun runCanSleep) p s)

def dCanTtConfig : OpDesc := canOp 0x0E0A .b (· = 4)
def acceptCanTtConfig (p : Packet) (s : State) : BitVec 16 :=
  if !([1, 2, 4, 8, 16, 32].contains (parNat p 0) && parIn p 1 50000 1000000000) then Status.paramRange
  else if s.cans[canOf p].regs.mode ≠ 0 then Status.canNotConfigMode else Status.ok
def runCanTtConfig (p : Packet) (s : State) : Reply :=
  ok (modCanRegs (canOf p) (fun r => { r with nbc := parBits p 0 6, bcNs := par p 1, ttOrigin := par64 p 2 }) s)
/-- CAN_TT_CONFIG (R544). -/
def execCanTtConfig (p : Packet) (s : State) : OutN := .next (request dCanTtConfig acceptCanTtConfig (canRun runCanTtConfig) p s)

def dCanTtColumnSet : OpDesc := canOp 0x0E0B .b (fun n => 4 ≤ n && n ≤ 11)
/-- The column lies between its neighbours and inside the basic cycle (R545). -/
def columnFits (c : Can) (k offset txen : Nat) : Bool :=
  let last := (List.range 64).filterMap fun i => if i < k then (c.columns.getD i none).map (·.offset.toNat) else none
  let next := (List.range 64).filterMap fun i => if k < i then (c.columns.getD i none).map (·.offset.toNat) else none
  let stop := 2 * offset + windowNs2 c.regs txen
  (match last.getLast? with
    | some o => decide (o < offset)
    | none => true)
  && (match next.head? with
    | some o => decide (stop ≤ 2 * o)
    | none => true)
  && decide (stop ≤ 2 * c.regs.bcNs.toNat)
def acceptCanTtColumnSet (p : Packet) (s : State) : BitVec 16 :=
  let c := canNow s s.cans[canOf p]
  if p.params.length ≠ 3 + (c.regs.nbc.toNat + 3) / 4 then Status.paramCount
  else if !(parIn p 0 0 63 && parIn p 2 1 16) then Status.paramRange
  else if c.regs.ttRunning || c.ttReload.isSome then Status.ttActive
  else if !columnFits c (parNat p 0) (parNat p 1) (parNat p 2) then Status.ttMatrixInvalid
  else Status.ok
def runCanTtColumnSet (p : Packet) (s : State) : Reply :=
  let n := canOf p
  let cells := ((p.params.drop 3).flatMap wordBytes).take s.cans[n].regs.nbc.toNat
  ok (modCan n (fun c => { c with
    columns := upd c.columns (Fin.ofNat 64 (parNat p 0)) fun _ => some { offset := par p 1, txen := parBits p 2 5, cells := cells } }) s)
/-- CAN_TT_COLUMN_SET (R545): the cell bytes four to a word, the first lowest. -/
def execCanTtColumnSet (p : Packet) (s : State) : OutN :=
  .next (request dCanTtColumnSet acceptCanTtColumnSet (canRun runCanTtColumnSet) p s)

def dCanTtData : OpDesc := canOp 0x0E0C .b (fun n => 5 ≤ n && n ≤ 21)
def acceptCanTtData (p : Packet) (_ : State) : BitVec 16 := if parIn p 0 0 63 && frameOk p 2 3 4 then Status.ok else Status.paramRange
def runCanTtData (p : Packet) (s : State) : Reply :=
  let o : CanObject := { ident := par p 1, dlc := parBits p 2 4, fdf := parBool p 3, brs := parBool p 4, data := p.params.drop 5 }
  ok (modCan (canOf p) (fun c => { c with objNext := upd c.objNext (Fin.ofNat 64 (parNat p 0)) fun l => l ++ [(o, s.dt)] }) s)
/-- CAN_TT_DATA (R546). -/
def execCanTtData (p : Packet) (s : State) : OutN := .next (request dCanTtData acceptCanTtData (canRun runCanTtData) p s)

def dCanTtEnable : OpDesc := canOp 0x0E0D .b (· = 1)
def acceptCanTtEnable (p : Packet) (s : State) : BitVec 16 :=
  if !parIn p 0 0 1 then Status.paramRange else if s.cans[canOf p].regs.mode ≠ 1 then Status.canNoTxMode else Status.ok
def runCanTtEnable (p : Packet) (s : State) : Reply :=
  let n := canOf p
  if parBool p 0 then
    ok (modCan n (fun c => if c.regs.ttRunning || c.ttReload.isSome then { c with ttStop := false }
      else { c with ttStart := some (nextCycle0 c.regs s.dt) }) s)
  else
    ok (modCan n (fun c =>
      if c.regs.ttRunning && (c.ttObject.isSome || c.onBus.isSome) then { c with ttStop := true }
      else { c with ttStart := none, ttReload := none, ttWindow := false, regs := { c.regs with ttRunning := false } }) s)
/-- CAN_TT_ENABLE (R545). -/
def execCanTtEnable (p : Packet) (s : State) : OutN := .next (request dCanTtEnable acceptCanTtEnable (canRun runCanTtEnable) p s)

def dCanStatus : OpDesc := canOp 0x0E0E .a (· = 0)
def runCanStatus (p : Packet) (s : State) : Reply := okWith (wordsOf (canWord s (canOf p)) 0 49) s
/-- CAN_STATUS (R549). -/
def execCanStatus (p : Packet) (s : State) : OutN := .next (request dCanStatus acceptAny (canRun runCanStatus) p s)

/-- A block reset of the controller ends its requests and empties its queues; the counts that its completion reports stand
until then (R33, R549). -/
def endCan (n : Fin 4) (s : State) : State :=
  let s := completeAll n 8 s
  modCan n (fun c => { c with
    entries := Vector.replicate 2 []
    rxq := Vector.ofFn fun q => { c.rxq[q] with fill := 0, locked := false, rxOvfCount := satAdd c.rxq[q].rxOvfCount c.entries[q].length } }) s

end Sys2Proof.Machine
end

