-- ==== Sys2Proof/Machine/Fio.lean ====
section
/-! DEFINITION. Group 0x0D: field inputs and outputs, their faults, the supply sag and the field I/O channel (R506 to R528). -/

namespace Sys2Proof.Machine

abbrev OutF := Host.Outcome State Fault Refusal

def modFieldIo (f : FieldIo → FieldIo) (s : State) : State := { s with fio := f s.fio }
def modFioRegs (c : Fin 24) (f : FioRegs → FioRegs) (s : State) : State := modFio c (fun x => { x with regs := f x.regs }) s
def modFioModule (f : FioModuleRegs → FioModuleRegs) (s : State) : State := modFieldIo (fun x => { x with regs := f x.regs }) s
def refreshFio (s : State) : State := modFieldIo (fioRefresh s.dt) s

/-- DT rounded down to 100 ns (R509). -/
def down100 (t : Fix) : Fix := fixNat ((nsOf t).toNat / 100 * 100)
/-- A record of the field side: uncertainty 200 (R510, R525). -/
def fioNote (code src : BitVec 16) (p0 p1 : Word) (s : State) : State :=
  record { code := code, src := src, t := down100 s.dt, unc := 200, p0 := p0, p1 := p1 } s

/-! ### Inputs (R507 to R512) -/

/-- FIO_INPUT_QUALIFY (R509): a transition qualifies on the field die, its debounce time after its first raw edge or later; that
edge by the die's own counter, which the last time transfer maps onto DT to within 50 ns (R510).  The next frame carries it. -/
def execFioInputQualify (c : Fin 24) (on : Bool) (edge : BitVec 96) (s : State) : OutF :=
  let x := s.fio.chans[c]
  if x.fieldQual = on || !hasPassed (edge + s.fio.timeMap) (1000 * x.regs.deb.toNat - 50) s then .next s
  else .next (modFio c (fun x => { x with fieldQual := on, changes := x.changes ++ [(on, down100 (edge + s.fio.timeMap))] }) s)

/-- A qualified transition reaches the logic side (R203, R511). -/
def fioChange (c : Fin 24) (on : Bool) (t : Fix) (s : State) : State :=
  let r := s.fio.chans[c].regs
  let s := modFioRegs c (fun r => { r with
    qual := on, lastEdgeDt := nsOf t, edgeCount := satInc r.edgeCount, cntOvf := r.cntOvf || satFull r.edgeCount }) s
  let s := if (on && r.cosRise) || (!on && r.cosFall)
    then record { code := Ev.fioChange, src := srcFio c, t := t, unc := 200, p0 := boolWord on } s else s
  inputEdge (BitVec.ofNat 8 (c.val + 1)) t 200 s
/-- The transitions that the frame carries for one channel. -/
def fioChanges (c : Fin 24) (s : State) : State :=
  let l := s.fio.chans[c].changes
  l.foldl (fun s x => fioChange c x.1 x.2 s) (modFio c (fun x => { x with changes := [] }) s)
/-- FIO_FRAME_RECEIVE (R512): a frame on the logic side. -/
def execFioFrameReceive (crcOk : Bool) (f : FioFrame) (s : State) : OutF :=
  if !crcOk then
    .next (modFioModule (fun r => { r with
      linkCrcErrCount := satInc r.linkCrcErrCount, cntOvf := r.cntOvf || satFull r.linkCrcErrCount }) s)
  else
    let s := clearCond Ev.fioLinkFault allAxes s
    let s := modFieldIo (fun x => { x with
      linkFault := false, compActive := f.reverse, frameAt := s.dt
      overAt := Vector.ofFn fun g => if 2500 < f.current[g].toNat then some (x.overAt[g].getD s.dt) else none
      vinAt := if 15700 ≤ f.vin.toNat then some (x.vinAt.getD s.dt) else none
      vinHighAt := if 17000 ≤ f.vin.toNat then some (x.vinHighAt.getD s.dt) else none
      chans := Vector.ofFn fun c =>
        let ch := x.chans[c]
        { ch with
          rawAt := if ch.regs.raw = f.raw.getLsbD c.val then ch.rawAt else s.dt
          regs := { ch.regs with raw := f.raw.getLsbD c.val, curLimit := f.limit.getLsbD c.val } }
      groups := Vector.ofFn fun g => { x.groups[g] with groupCurrent := f.current[g] }
      regs := { x.regs with linkOk := true, vinMv := BitVec.ofNat 16 (f.vin.toNat / 100 * 100) } }) s
    .next ((List.finRange 24).foldl (fun s c => fioChanges c s) s)

/-- FIO_TIME_TRANSFER (R510): what added to the field die's counter gives DT. -/
def execFioTimeTransfer (map : BitVec 96) (s : State) : OutF := .next (modFieldIo (fun x => { x with timeMap := map }) s)

/-! ### Outputs (R513 to R517) -/

/-- Commanded states. -/
def fioCmds (f : FieldIo) : BitVec 24 :=
  (List.finRange 24).foldl (fun (w : BitVec 24) c => if f.chans[c].regs.cmd then w ||| (1 <<< c.val) else w) 0
/-- The field die takes the commanded states; a channel commanded off loses its shutdown count (R518). -/
def fioTake (now : Fix) (f : FieldIo) : FieldIo :=
  let cmds := fioCmds f
  fioRefresh now { f with
    sent := cmds
    chans := Vector.ofFn fun c =>
      let x := f.chans[c]
      if f.sent.getLsbD c.val && !cmds.getLsbD c.val then { x with hot := false, regs := { x.regs with shutdowns := 0 } } else x }
/-- FIO_FRAME_APPLY (R515): a frame with a good CRC on the field die; all its changes apply in one clock. -/
def execFioFrameApply (s : State) : OutF := .next (modFieldIo (fun f => fioTake s.dt { f with fsLink := false, applyAt := s.dt }) s)
/-- FIO_FAILSAFE (R524): no good frame on the field die for 100 us. -/
def execFioFailsafe (s : State) : OutF :=
  .next (if hasPassed s.fio.applyAt 100000 s then modFieldIo (fun f => fioFailsafeOn s.dt (fun _ => true) { f with fsLink := true }) s
    else s)
/-- The axes whose limit or home input is a field channel. -/
def fioAxes (s : State) : List (Fin 112) := hostAxes.filter fun a =>
  let r := s.axes[a].regs
  [r.limPosSrc, r.limNegSrc, r.homeSrc].any fun c => 1 ≤ c.toNat && c.toNat ≤ 0x18
/-- FIO_LINK_FAULT (R524): no frame on the logic side for 20 us. -/
def execFioLinkFault (s : State) : OutF :=
  if s.fio.linkFault || !hasPassed s.fio.frameAt 20000 s then .next s
  else
    let s := modFieldIo (fun f => { f with
      linkFault := true
      regs := { f.regs with
        linkOk := false, linkFaultSeen := true, linkFaultCount := satInc f.regs.linkFaultCount
        cntOvf := f.regs.cntOvf || satFull f.regs.linkFaultCount } }) s
    .next (raiseEv { code := Ev.fioLinkFault, src := srcFioGroup 0, t := down100 s.dt, unc := 200, cls := s.policy.fioLink } true (fioAxes s) s)

/-- What a pour point does to the outputs: commanded states of cyclic channels, and the end of FAILSAFE (R514, R517). -/
def fioPour (s : State) : State :=
  modFieldIo (fun f => fioReturn s.dt { f with chans := Vector.ofFn fun c =>
    let x := f.chans[c]
    if x.regs.cyclicEn then { x with regs := { x.regs with cmd := s.cyclic.inForce.fio.getLsbD c.val } } else x }) s

/-! ### Faults (R518 to R521) -/

/-- OUT_THERMAL_SHUTDOWN (R518): the third one latches the channel off. -/
def execOutThermalShutdown (c : Fin 24) (s : State) : OutF :=
  let r := s.fio.chans[c].regs
  if !r.applied then .next s
  else if r.shutdowns.toNat < 2 then
    .next (refreshFio (modFio c (fun x => { x with hot := true, heatAt := s.dt, regs := { x.regs with shutdowns := x.regs.shutdowns + 1 } }) s))
  else
    .next (fioNote Ev.outOverload (srcFio c) 0 0 (refreshFio (modFio c (fun x => { x with
      hot := false, heatAt := s.dt
      regs := { x.regs with
        shutdowns := 3, overload := true, overloadSeen := true, overloadCount := satInc x.regs.overloadCount
        cntOvf := x.regs.cntOvf || satFull x.regs.overloadCount } }) s)))
/-- OUT_THERMAL_RESTART (R518): the switch has cooled by 15 K after a shutdown. -/
def execOutThermalRestart (c : Fin 24) (s : State) : OutF :=
  .next (if s.fio.chans[c].hot then refreshFio (modFio c (fun x => { x with hot := false, heatAt := s.dt }) s) else s)
/-- SHUTDOWN_COUNT_RESET (R518): the channel has conducted for 1 s without a shutdown. -/
def execShutdownCountReset (c : Fin 24) (s : State) : OutF :=
  let x := s.fio.chans[c]
  .next (if x.regs.applied && hasPassed x.appliedAt 1000000000 s && hasPassed x.heatAt 1000000000 s then modFioRegs c (fun r => { r with shutdowns := 0 }) s else s)

def shortVin (c : Fin 24) (s : State) : State :=
  fioNote Ev.outShortVin (srcFio c) 0 0 (modFioRegs c (fun r => { r with shortVin := true, shortVinSeen := true }) s)
/-- The channel is the subject of the search in progress. -/
def fioSearched (s : State) (c : Fin 24) : Bool := s.fio.regs.searchActive && s.fio.regs.searchSubject.toNat = c.val
/-- The land has read this level for 10 ms. -/
def rawFor10 (on : Bool) (c : Fin 24) (s : State) : Bool :=
  let x := s.fio.chans[c]
  x.regs.raw == on && hasPassed x.rawAt 10000000 s
/-- OUT_SHORT_VIN (R519): the readback of a channel applied off has been on for 10 ms. -/
def execOutShortVin (c : Fin 24) (s : State) : OutF :=
  let x := s.fio.chans[c]
  let r := x.regs
  .next (if r.dir && !r.applied && !r.shortVin && !fioSearched s c && rawFor10 true c s && hasPassed x.appliedAt 10000000 s
    then shortVin c s else s)
/-- SHORT_VIN_CLEAR (R519): the readback has been off for 10 ms. -/
def execShortVinClear (c : Fin 24) (s : State) : OutF :=
  .next (if rawFor10 false c s then modFioRegs c (fun r => { r with shortVin := false }) s else s)

/-- No search runs. -/
def searchStop (s : State) : State :=
  refreshFio (modFieldIo (fun f => { f with
    candidate := none, candidates := []
    chans := f.chans.map fun x => { x with searchOff := false }
    regs := { f.regs with searchActive := false } }) s)
/-- The next candidate still applied on is switched off; with none, the search ends without a culprit and the subject has a
short to VIN. -/
def searchNext (subject : Fin 24) (s : State) : State :=
  match s.fio.candidates.filter fun c => s.fio.chans[c].regs.applied with
  | c :: rest => refreshFio (modFio c (fun x => { x with searchOff := true })
      (modFieldIo (fun f => { f with candidate := some c, candidateAt := s.dt, candidates := rest }) s))
  | [] => shortVin subject (searchStop s)
/-- A search starts for a subject (R520). -/
def searchStart (c : Fin 24) (s : State) : State :=
  searchNext c (modFieldIo (fun f => { f with
    candidates := (List.finRange 24).filter fun k => k ≠ c && f.chans[k].regs.applied && !f.chans[k].regs.searchExclude
    regs := { f.regs with searchActive := true, searchSubject := BitVec.ofNat 5 c.val } }) s)
/-- Subjects that waited start their searches, one after the other, until one has a candidate to try. -/
def searchWaiting : Nat → State → State
  | 0, s => s
  | n + 1, s =>
    if s.fio.regs.searchActive then s
    else match s.fio.subjects with
      | [] => s
      | c :: rest => searchWaiting n (searchStart c (modFieldIo (fun f => { f with subjects := rest }) s))
/-- BACKFEED_SEARCH_START (R520): reverse current into a channel applied off for 50 us. -/
def execBackfeedSearchStart (c : Fin 24) (s : State) : OutF :=
  let r := s.fio.chans[c].regs
  if !r.dir || r.applied || !hasPassed s.fio.chans[c].appliedAt 50000 s || r.backfeed || fioSearched s c || s.fio.subjects.contains c || s.fio.regs.undervolt then .next s
  else
    .next (searchWaiting 25 (modFieldIo (fun f => { f with
      compActive := f.compActive ||| (1 <<< c.val), subjects := f.subjects ++ [c] }) s))
def backfed (c p : Fin 24) (subject : Bool) (s : State) : State :=
  modFio c (fun x => { x with
    partner := some p, subject := subject
    regs := { x.regs with
      backfeed := true, backfeedSeen := true, backfeedCount := satInc x.regs.backfeedCount
      cntOvf := x.regs.cntOvf || satFull x.regs.backfeedCount } }) s
/-- BACKFEED_CANDIDATE_CHECK (R520): 1 ms after a candidate went off, whether the comparator of the subject is still active. -/
def execBackfeedCandidateCheck (active : Bool) (s : State) : OutF :=
  match s.fio.candidate, asFin 24 s.fio.regs.searchSubject.toNat with
  | some k, some c =>
    if !hasPassed s.fio.candidateAt 1000000 s then .next s else
    let bit : BitVec 24 := 1 <<< c.val
    let s := modFieldIo (fun f => { f with compActive := if active then f.compActive ||| bit else f.compActive &&& ~~~bit }) s
    let s := modFio k (fun x => { x with searchOff := false }) s
    if active then .next (searchWaiting 25 (searchNext c (refreshFio s)))
    else
      .next (searchWaiting 25 (searchStop (fioNote Ev.outBackfeed (srcFio c) (natWord c.val) (natWord k.val)
        (backfed k c false (backfed c k true s)))))
  | _, _ => .next s

/-- GROUP_OVERLOAD (R521): the group's current has exceeded 2.5 A for 10 ms. -/
def execGroupOverload (g : Fin 3) (s : State) : OutF :=
  let mA := s.fio.groups[g].groupCurrent
  if s.fio.groups[g].groupOverload || !(s.fio.overAt[g].any fun t => hasPassed t 10000000 s) then .next s
  else
    .next (fioNote Ev.groupOverload (srcFioGroup g.val) 0 (mA.zeroExtend 32) (refreshFio (modFieldIo (fun f => { f with
      groups := upd f.groups g fun r => { r with
        groupOverload := true, groupOlSeen := true, groupOlCount := satInc r.groupOlCount
        cntOvf := r.cntOvf || satFull r.groupOlCount } }) s)))

/-! ### Supply sag (R522, R523) -/

/-- OUT_UNDERVOLT (R522): VIN at 15.0 V, within 0.3 V, switches every output off; a search in progress is abandoned. -/
def execOutUndervolt (mv : BitVec 16) (s : State) : OutF :=
  if s.fio.regs.undervolt || 15300 < mv.toNat then .next s
  else
    let s := searchStop (modFieldIo (fun f => { f with subjects := [], vinAt := none }) s)
    .next (fioNote Ev.outUndervolt (srcFioGroup 0) 7 (mv.zeroExtend 32) (refreshFio (modFioModule (fun r => { r with
      undervolt := true, undervoltSeen := true, undervoltCount := satInc r.undervoltCount
      cntOvf := r.cntOvf || satFull r.undervoltCount }) s)))
def outputsBack (s : State) : State :=
  fioNote Ev.outRestored (srcFioGroup 0) 0 0 (modFieldIo (fun f => fioTake s.dt { f with restoreOwed := false }) s)
/-- UNDERVOLT_END (R523): VIN has stayed at or above 16.0 V, within 0.3 V, for 10 ms. -/
def execUndervoltEnd (s : State) : OutF :=
  if !s.fio.regs.undervolt || !(s.fio.vinAt.any fun t => hasPassed t 10000000 s) then .next s
  else
    let s := modFioModule (fun r => { r with undervolt := false }) s
    .next (if s.fio.regs.restore then refreshFio (modFieldIo (fun f => { f with restoreOwed := true }) s) else outputsBack s)

/-! ### Commands (R526) -/

def fioOf (p : Packet) : Fin 24 := Fin.ofNat 24 (tgt p)
/-- An axis uses the channel as limit or home input (R506). -/
def fioNamed (s : State) (c : Fin 24) : Bool :=
  hostAxes.any fun a =>
    let r := s.axes[a].regs
    [r.limPosSrc, r.limNegSrc, r.homeSrc].any fun x => x.toNat = c.val + 1
def stFioConfig : StageOp :=
  { d := { op := 0x0D01, cls := .b, stage := .yes, target := tBelow 24, params := (· = 7) }
    accept := fun p _ => if parIn p 0 0 1 && parIn p 1 1 65535 && parIn p 2 0 1 && parIn p 3 0 1 && parIn p 4 0 1 && parIn p 5 0 1
        && parIn p 6 0 1 then Status.ok else Status.paramRange
    check := fun p s => if parBool p 0 && fioNamed s (fioOf p) then Status.fioInUse else Status.ok
    apply := fun p s => refreshFio (modFioRegs (fioOf p) (fun r => { r with
      dir := parBool p 0, deb := parBits p 1 16, cosRise := parBool p 2, cosFall := parBool p 3, cyclicEn := parBool p 4
      failsafe := parBool p 5, searchExclude := parBool p 6 }) s) }
/-- FIO_CONFIG (R506). -/
def execFioConfig (p : Packet) (s : State) : OutF := .next (stageRequest stFioConfig p s)

def fioMasked (p : Packet) : List (Fin 24) := (List.finRange 24).filter fun c => (par p 0).getLsbD c.val
def stFioOutSet : StageOp :=
  { d := { op := 0x0D02, cls := .b, stage := .yes, target := tModule, params := (· = 2)
           reservedOk := fun p => decide (parNat p 0 < 2 ^ 24) && decide (parNat p 1 < 2 ^ 24) }
    check := fun p s =>
      if (fioMasked p).any fun c => !s.fio.chans[c].regs.dir then Status.fioNotOutput
      else if (fioMasked p).any fun c => s.fio.chans[c].regs.cyclicEn then Status.fioCyclicOwned
      else Status.ok
    apply := fun p s => (fioMasked p).foldl (fun s c => modFioRegs c (fun r => { r with cmd := (par p 1).getLsbD c.val }) s) s }
/-- FIO_OUT_SET (R514): the commanded states; the next frame carries them to the field die (R515). -/
def execFioOutSet (p : Packet) (s : State) : OutF := .next (stageRequest stFioOutSet p s)

def dFioFaultClear : OpDesc :=
  { op := 0x0D03, cls := .b, target := fun n => n < 24 || (0x100 ≤ n && n < 0x103), params := (· = 0) }
/-- The comparator of the subject of the channel's pair is active. -/
def fioPairActive (s : State) (c : Fin 24) : Bool :=
  let x := s.fio.chans[c]
  x.regs.backfeed && (match x.subject, x.partner with
    | true, _ => s.fio.compActive.getLsbD c.val
    | false, some k => s.fio.compActive.getLsbD k.val
    | false, none => false)
def releasePair (c : Fin 24) (s : State) : State :=
  let one (c : Fin 24) : State → State := modFio c (fun x => { x with partner := none, subject := false, regs := { x.regs with backfeed := false } })
  match s.fio.chans[c].partner with
  | some k => one k (one c s)
  | none => one c s
def runFioFaultClear (p : Packet) (s : State) : Reply :=
  match asFin 24 (tgt p) with
  | some c =>
    let busy := fioPairActive s c
    let s := if s.fio.chans[c].regs.overload then modFioRegs c (fun r => { r with overload := false, shutdowns := 0 }) s else s
    if busy then answer Status.fioFaultActive (refreshFio s)
    else ok (refreshFio (releasePair c s))
  | none =>
    match asFin 3 (tgt p - 0x100) with
    | some g => ok (refreshFio (modFieldIo (fun f => { f with groups := upd f.groups g fun r => { r with groupOverload := false } }) s))
    | none => ok s
/-- FIO_FAULT_CLEAR (R518, R520, R521): OVERLOAD always clears; a BACKFEED pair while its comparator is not active. -/
def execFioFaultClear (p : Packet) (s : State) : OutF := .next (request dFioFaultClear acceptAny runFioFaultClear p s)

def dFioPolicySet : OpDesc := { op := 0x0D04, cls := .b, target := tModule, params := (· = 2) }
def acceptFioPolicy (p : Packet) (_ : State) : BitVec 16 :=
  if parIn p 0 0 1 && clsAllowed .note (par p 1) then Status.ok else Status.paramRange
def runFioPolicySet (p : Packet) (s : State) : Reply :=
  ok { modFioModule (fun r => { r with restore := parBool p 0 }) s with policy := { s.policy with fioLink := clsOf (par p 1) } }
/-- FIO_POLICY_SET (R523, R524). -/
def execFioPolicySet (p : Packet) (s : State) : OutF := .next (request dFioPolicySet acceptFioPolicy runFioPolicySet p s)

def dFioRestore : OpDesc := { op := 0x0D05, cls := .b, target := tModule, params := (· = 0) }
def runFioRestore (p : Packet) (s : State) : Reply :=
  let _ := p
  if s.fio.regs.undervolt then answer Status.vinLow s else ok (outputsBack s)
/-- FIO_RESTORE (R523). -/
def execFioRestore (p : Packet) (s : State) : OutF := .next (request dFioRestore acceptAny runFioRestore p s)

def dFioStatus : OpDesc := { op := 0x0D06, cls := .a, target := tModule, params := (· = 0) }
def runFioStatus (p : Packet) (s : State) : Reply :=
  let _ := p
  okWith (wordsOf (readFioModuleRegs s.fio.regs) 0 6 ++ s.fio.chans.toList.map (fun c => readFioRegs c.regs 4)
    ++ s.fio.groups.toList.map fun g => readFioGroupRegs g 0) s
/-- FIO_STATUS (R526). -/
def execFioStatus (p : Packet) (s : State) : OutF := .next (request dFioStatus acceptAny runFioStatus p s)

end Sys2Proof.Machine
end

