-- ==== Sys2Proof/Machine/Flags.lean ====
section
/-! DEFINITION. Flag and arithmetic computations of the loop engines: the ALU results with their flags (R283, R284, R291),
binary32 arithmetic, and sine and cosine. -/

namespace Sys2Proof.Machine

/-! ### SR[15:0] (R283) -/

/-- SR with bit k at b. -/
def srPut (k : Nat) (b : Bool) (sr : BitVec 16) : BitVec 16 :=
  if b then sr ||| BitVec.ofNat 16 (2 ^ k) else sr &&& ~~~BitVec.ofNat 16 (2 ^ k)
/-- A sticky bit: set by hardware, left otherwise. -/
def srStick (k : Nat) (b : Bool) (sr : BitVec 16) : BitVec 16 := if b then srPut k true sr else sr

/-- A result with the flags its instruction changes; none leaves the flag. -/
structure Alu where
  val : Word
  zn : Bool := true
  c : Option Bool := none
  v : Option Bool := none
  satg : Bool := false
  fpe : Bool := false
deriving DecidableEq, Repr

/-- SR after a result: Z, N, C, V in [3:0], SATG in [8], FPE in [11]. -/
def aluSr (r : Alu) (sr : BitVec 16) : BitVec 16 :=
  let sr := if r.zn then srPut 1 r.val.msb (srPut 0 (r.val = 0) sr) else sr
  let sr := match r.c with | some b => srPut 2 b sr | none => sr
  let sr := match r.v with | some b => srPut 3 b sr | none => sr
  srStick 11 r.fpe (srStick 8 r.satg sr)

/-- The condition field of BR (R292); 15 is illegal and never holds. -/
def condHolds (cond : BitVec 4) (sr : BitVec 16) : Bool :=
  let z := sr.getLsbD 0
  let n := sr.getLsbD 1
  let c := sr.getLsbD 2
  let v := sr.getLsbD 3
  let sat := sr.extractLsb' 8 4 ≠ 0
  match cond.toNat with
  | 0 => true
  | 1 => z
  | 2 => !z
  | 3 => n != v
  | 4 => n == v
  | 5 => !z && n == v
  | 6 => z || n != v
  | 7 => c
  | 8 => !c
  | 9 => v
  | 10 => !v
  | 11 => n
  | 12 => !n
  | 13 => sat
  | 14 => !sat
  | _ => false

/-! ### Integer results (R284, R291) -/

/-- The value does not fit a signed 32-bit word. -/
def over32 (x : Int) : Bool := decide (x < -2147483648) || decide (2147483647 < x)
def wrap32 (x : Int) : Word := BitVec.ofInt 32 x

/-- ADD: C carry out, V signed overflow. -/
def aluAdd (a b : Word) : Alu :=
  { val := a + b, c := some (decide (2 ^ 32 ≤ a.toNat + b.toNat)), v := some (over32 (a.toInt + b.toInt)) }
/-- SUB and CMP: C no borrow. -/
def aluSub (a b : Word) : Alu :=
  { val := a - b, c := some (decide (b.toNat ≤ a.toNat)), v := some (over32 (a.toInt - b.toInt)) }
/-- A saturated result: V and SATG say that it clipped. -/
def aluSatV (x : Int) : Alu := { val := sat32 x, v := some (over32 x), satg := over32 x }
/-- A saturated result of an instruction that leaves V. -/
def aluSat (x : Int) : Alu := { val := sat32 x, satg := over32 x }
/-- A result with Z and N only. -/
def aluZn (x : Word) : Alu := { val := x }

/-- SHL, SHR and ASR by 0 to 63: C is the last bit shifted out; with a count of 0 none is, and C is the value given. -/
def aluShl (a : Word) (n : Nat) (none_ : Bool) : Alu :=
  { val := a <<< n, c := some (if n = 0 then none_ else decide (n ≤ 32) && a.getLsbD (32 - n)) }
def aluShr (a : Word) (n : Nat) (none_ : Bool) : Alu :=
  { val := a >>> n, c := some (if n = 0 then none_ else a.getLsbD (n - 1)) }
def aluAsr (a : Word) (n : Nat) (none_ : Bool) : Alu :=
  { val := a.sshiftRight n, c := some (if n = 0 then none_ else if n ≤ 32 then a.getLsbD (n - 1) else a.msb) }

/-- CLAMP: min(max(d, a), b); C and SATG say that the value changed. -/
def aluClamp (d a b : Word) : Alu :=
  let m := if d.toInt < a.toInt then a else d
  let r := if b.toInt < m.toInt then b else m
  { val := r, c := some (r != d), satg := r != d }
def aluMin (a b : Word) : Alu := aluZn (if b.toInt < a.toInt then b else a)
def aluMax (a b : Word) : Alu := aluZn (if a.toInt < b.toInt then b else a)

/-! ### Accumulators (R284) -/

/-- An accumulator result saturates at 80 bits; the flag says that it did. -/
def acSat (x : Int) : BitVec 80 × Bool :=
  let lo : Int := -(2 ^ 79)
  let hi : Int := 2 ^ 79 - 1
  (BitVec.ofInt 80 (clampInt lo hi x), decide (x < lo) || decide (hi < x))
/-- Saturation to w bits. -/
def satBits (w : Nat) (x : Int) : Int := clampInt (-(2 ^ (w - 1))) (2 ^ (w - 1) - 1) x
/-- Arithmetic shift, rounding toward minus infinity. -/
def shrInt (x : Int) (n : Nat) : Int := x / 2 ^ n

/-! ### binary32 (R291): round to nearest even, subnormals flushed to zero -/

/-- A decoded operand; the value of a finite one is (-1)^neg × m × 2^e. -/
inductive F32 where
  | nan (signalling : Bool)
  | inf (neg : Bool)
  | fin (neg : Bool) (m : Nat) (e : Int)
deriving DecidableEq, Repr

def f32Decode (w : Word) : F32 :=
  let ex := (w.extractLsb' 23 8).toNat
  let m := (w.extractLsb' 0 23).toNat
  if ex = 255 then (if m = 0 then .inf w.msb else .nan (!w.getLsbD 22))
  else if ex = 0 then .fin w.msb 0 0
  else .fin w.msb (m + 2 ^ 23) (ex - 150)

/-- A result and whether it overflowed. -/
def f32Sign (neg : Bool) : Word := if neg then 0x80000000 else 0

/-- m / 2^n to the nearest integer, ties to even. -/
def rneShift (m n : Nat) : Nat :=
  let q := m / 2 ^ n
  let r := 2 * (m % 2 ^ n)
  if r < 2 ^ n then q else if 2 ^ n < r then q + 1 else q + q % 2

/-- The binary32 word of (-1)^neg × m × 2^e, and whether it overflowed; a subnormal result is a zero of its sign. -/
def f32Round (neg : Bool) (m : Nat) (e : Int) : Word × Bool :=
  if m = 0 then (f32Sign neg, false)
  else
    let q0 : Int := max (e + (Nat.log2 m + 1 : Nat) - 24) (-149)
    let k := if q0 ≤ e then m * 2 ^ (e - q0).toNat else rneShift m (q0 - e).toNat
    let q := if k = 2 ^ 24 then q0 + 1 else q0
    let k := if k = 2 ^ 24 then 2 ^ 23 else k
    if k < 2 ^ 23 then (f32Sign neg, false)
    else if 255 ≤ q + 150 then (f32Sign neg ||| 0x7F800000, true)
    else (f32Sign neg ||| BitVec.ofNat 32 ((q + 150).toNat * 2 ^ 23 + (k - 2 ^ 23)), false)

/-- A quiet NaN; IEEE 754 leaves its sign and payload open. -/
def f32NaN (free : Word) : Word := (free &&& 0x803FFFFF) ||| 0x7FC00000

/-- Result word and FPE: an invalid operation or an overflow. -/
def f32Add (a b : Word) (free : Word) : Word × Bool :=
  match f32Decode a, f32Decode b with
  | .nan x, .nan y => (f32NaN free, x || y)
  | .nan x, _ => (f32NaN free, x)
  | _, .nan y => (f32NaN free, y)
  | .inf x, .inf y => if x = y then (f32Sign x ||| 0x7F800000, false) else (f32NaN free, true)
  | .inf x, _ => (f32Sign x ||| 0x7F800000, false)
  | _, .inf y => (f32Sign y ||| 0x7F800000, false)
  | .fin na ma ea, .fin nb mb eb =>
    let e := min ea eb
    let va : Int := (if na then -1 else 1) * (ma * 2 ^ (ea - e).toNat : Nat)
    let vb : Int := (if nb then -1 else 1) * (mb * 2 ^ (eb - e).toNat : Nat)
    let r := va + vb
    if r = 0 then (f32Sign (na && nb), false) else f32Round (decide (r < 0)) r.natAbs e
def f32Mul (a b : Word) (free : Word) : Word × Bool :=
  match f32Decode a, f32Decode b with
  | .nan x, .nan y => (f32NaN free, x || y)
  | .nan x, _ => (f32NaN free, x)
  | _, .nan y => (f32NaN free, y)
  | .inf x, .inf y => (f32Sign (x != y) ||| 0x7F800000, false)
  | .inf x, .fin y m _ => if m = 0 then (f32NaN free, true) else (f32Sign (x != y) ||| 0x7F800000, false)
  | .fin x m _, .inf y => if m = 0 then (f32NaN free, true) else (f32Sign (x != y) ||| 0x7F800000, false)
  | .fin na ma ea, .fin nb mb eb => f32Round (na != nb) (ma * mb) (ea + eb)
/-- The word with its sign changed, as FSUB uses it; a NaN keeps its kind. -/
def f32Neg (a : Word) : Word := a ^^^ 0x80000000
def f32OfInt (a : Word) : Word := (f32Round (decide (a.toInt < 0)) a.toInt.natAbs 0).1
/-- FCVTFI: to nearest, ties to even, saturating; NaN gives 0. The flag says invalid: NaN, or out of range. -/
def f32ToInt (a : Word) : Word × Bool :=
  match f32Decode a with
  | .nan _ => (0, true)
  | .inf x => (if x then 0x80000000 else 0x7FFFFFFF, true)
  | .fin neg m e =>
    let k : Nat := if 0 ≤ e then m * 2 ^ e.toNat else rneShift m (-e).toNat
    let v : Int := if neg then -(k : Int) else k
    (sat32 v, over32 v)

/-- The value of a finite binary32 word in units of 2^-n, rounded down; 0 for NaN and infinity. -/
def f32Fixed (n : Nat) (w : Word) : Int :=
  match f32Decode w with
  | .fin neg m e =>
    let s : Int := if neg then -1 else 1
    if 0 ≤ e + n then s * (m * 2 ^ (e + n).toNat : Nat) else (s * (m : Int)) / 2 ^ (-(e + n)).toNat
  | _ => 0

/-! ### Sine and cosine (R291 SINCOS) -/

/-- 2π in units of 2^-80. -/
def twoPi80 : Nat := 7595904947272677161575987
/-- Σ of the sine series from term t of index k on, x2 = x², all in units of 2^-80. -/
def sinSeries : Nat → Int → Int → Int → Int
  | 0, _, _, _ => 0
  | n + 1, k, t, x2 => t + sinSeries n (k + 2) (-(t * x2 / 2 ^ 80) / ((k + 1) * (k + 2))) x2
/-- sin(2π × a / 2^32) in units of 2^-80, within 2^-60. -/
def sin80 (a : Word) : Int :=
  let x : Int := a.toInt * twoPi80 / 2 ^ 32
  sinSeries 24 1 x (x * x / 2 ^ 80)
def cos80 (a : Word) : Int := sin80 (a + 0x40000000)
/-- A Q1.31 value within lsb of the sine: the spec fixes the error's bound only. -/
def sinFree (s : State) (lsb : Int) (x80 : Int) : Word :=
  sat32 (freeIn s (-((lsb * 2 ^ 49 - x80) / 2 ^ 49)) ((x80 + lsb * 2 ^ 49) / 2 ^ 49))

end Sys2Proof.Machine
end

