-- ==== Sys2Proof/Machine/Legs.lean ====
section
/-! DEFINITION. The legs of a tile: edges placed in a segment of the carrier period, short intervals, carries (R320 to R331),
and the arming for LOAD_ALL (R335). -/

namespace Sys2Proof.Machine

/-- An interval that never ends as far as the widths in force say. -/
def forever : Nat := 1000000000
/-- A toggle that the widths in force call for: its time in the segment, the level that it begins, and the length of the
interval that it begins. -/
abbrev Toggle := Nat × Bool × Nat

/-- A leg while the edges of a segment are placed. -/
structure Placing where
  high : Bool
  /-- When the interval in progress began, before the segment where negative. -/
  since : Int
  edges : List Nat := []
  long : Bool
  kept : Bool := false
  drops : Nat := 0
  stretches : Nat := 0

/-- Places one toggle (R330): a short interval is dropped or lengthened, and one that has lasted less than t_m is held to
t_m. -/
def placeToggle (stretch : Bool) (tm segLen : Nat) (g : Toggle) (x : Placing) : Placing :=
  if g.2.1 = x.high then { x with kept := false }
  else if 0 < g.2.2 && g.2.2 < tm && !stretch then { x with drops := x.drops + 1, kept := true }
  else
    let early := decide ((g.1 : Int) < x.since + tm)
    let at_ := if early then (x.since + tm).toNat else g.1
    let forced := if early && !x.long then 1 else 0
    if segLen ≤ at_ || (early && g.1 + g.2.2 ≤ at_) then { x with stretches := x.stretches + forced, long := x.long || early }
    else
      let short := decide (0 < g.2.2) && decide (g.2.2 < tm)
      { x with
        high := g.2.1, since := at_, edges := x.edges ++ [at_], long := short, kept := false
        stretches := x.stretches + forced + (if short then 1 else 0) }

/-- The level of the leg at time e of the segment, and how long it has lasted. -/
def Leg.at_ (l : Leg) (e : Nat) : Bool × Nat :=
  l.edges.foldl (fun (x : Bool × Nat) t => if t ≤ e then (!x.1, e - t) else x) (l.high, l.age + e)

/-- The time the leg is high in the first e units of the segment. -/
def Leg.highTime (l : Leg) (e : Nat) : Nat :=
  let (lvl, last, sum) := l.edges.foldl (fun (x : Bool × Nat × Nat) t =>
    if t ≤ e then (!x.1, t, if x.1 then x.2.2 + (t - x.2.1) else x.2.2) else x) (l.high, 0, 0)
  if lvl then sum + (e - last) else sum

/-- The segment in progress ends after e units. -/
def Leg.cut (e : Nat) (l : Leg) : Leg :=
  let (h, a) := l.at_ e
  { l with high := h, age := min a forever, edges := [], real := l.real + l.highTime e }

/-- The toggles of a leg that follows its duty: the whole width w of a period p, its high interval starting at a where the
carrier is centred and updated once; under double update, the half width before or after the centre (R326). -/
def dutyToggles (centre double half kept : Bool) (p w a lead : Nat) : List Toggle :=
  if w = 0 then [(0, false, forever)]
  else if p ≤ w then [(0, true, forever)]
  else if !centre then [(0, true, w), (w, false, p - w)]
  else
    let begin_ (h : Bool) (n : Nat) : List Toggle := if kept || n = 0 then [] else [(0, h, n)]
    if !double then
      begin_ false a ++ [(a, true, w), (a + w, false, p - w)]
    else if !half then begin_ false (p / 2 - lead) ++ [(p / 2 - lead, true, w)]
    else begin_ true lead ++ [(lead, false, p - w)]

/-- The toggles of a leg in a forced state: OFF and LOW hold it low, HIGH holds it high (R334). -/
def forcedToggles (f : BitVec 2) : List Toggle := [(0, decide (f = 3), forever)]

/-- The toggles of the duty's plan that are left e units into the segment: the last one past acts now. -/
def planRest (e : Nat) (gs : List Toggle) : List Toggle :=
  let past := gs.filter fun g => g.1 ≤ e
  let left := (gs.filter fun g => e < g.1).map fun g => (g.1 - e, g.2)
  match past.getLast? with
  | some g => (0, g.2.1, g.1 + g.2.2 - e) :: left
  | none => left

/-- 78.125 ps units since the segment in force began. -/
def segNow (s : State) (tl : Tile) : Nat :=
  let e := (s.dt.toNat - tl.pw.segStart.toNat) / 0x14000000
  if e ≤ tl.pw.segLen then e else tl.pw.segLen

/-- t_m of half-bridge h (R330). -/
def minInterval (tl : Tile) (h : Fin 4) : Nat := tl.regs.minPulse.toNat + tl.regs.deadtime[h].toNat

/-- Counts what the placing of a leg dropped and stretched. -/
def countShort (x : Placing) (r : TileRegs) : TileRegs :=
  { r with
    dropCount := satAdd r.dropCount x.drops, stretchCount := satAdd r.stretchCount x.stretches
    cntOvf := r.cntOvf || decide (2 ^ 32 ≤ r.dropCount.toNat + x.drops) || decide (2 ^ 32 ≤ r.stretchCount.toNat + x.stretches) }

/-- Places the edges of leg h in the segment that begins now. -/
def placeLeg (h : Fin 4) (gs : List Toggle) (tl : Tile) : Tile :=
  let l := tl.pw.legs[h]
  let x : Placing := gs.foldl (fun x g => placeToggle tl.regs.minpulse (minInterval tl h) tl.pw.segLen g x)
    { high := l.high, since := -(l.age : Int), long := l.long }
  { tl with
    regs := countShort x tl.regs
    pw := { tl.pw with legs := tl.pw.legs.set h { l with edges := x.edges, long := x.long, kept := x.kept } } }

/-- All legs hold the levels they have at this instant (R343). -/
def holdLegs (t : Fin 16) (s : State) : State :=
  modTile t (fun tl => { tl with pw := { tl.pw with legs := tl.pw.legs.map fun l => l.cut (segNow s tl) } }) s

/-- The carry of a leg at the end of a period of p units: commanded less realised, held at ±p; the excess (R331). -/
def newCarry (p : Nat) (cmd : Int) (real : Nat) : Int × Nat :=
  let c := cmd - real
  let k := clampInt (-p) p c
  (k, (c - k).natAbs)

/-- A tile is armed for LOAD_ALL; further arms before the take add nothing (R335). -/
def armLoadAll (t : Fin 16) (s : State) : State :=
  if s.tiles[t].regs.loadPending then s
  else writeTileStatus t (modTile t (fun tl => { tl with
    pw := { tl.pw with armAt := s.dt }, regs := { tl.regs with loadPending := true } }) s)

end Sys2Proof.Machine
end

