-- ==== Sys2Proof/Machine/LeCore.lean ====
section
/-! DEFINITION. How a loop engine issues one instruction: delay slots, late results, the address map, faults, halts and the
end of a tick (R281 to R312). -/

namespace Sys2Proof.Machine

/-! ### Registers -/

def Engine.bank (en : Engine) : Bank := if en.inTick then en.shadow else en.main
def Engine.g (en : Engine) (i : Fin 16) : Word := en.bank.g[i]
def Engine.setBank (shadow : Bool) (f : Bank → Bank) (en : Engine) : Engine :=
  if shadow then { en with shadow := f en.shadow } else { en with main := f en.main }
/-- Writes a general register of the bank in use. -/
def Engine.put (i : Fin 16) (v : Word) (en : Engine) : Engine :=
  en.setBank en.inTick fun b => { b with g := b.g.set i v }
def Engine.sr (en : Engine) : BitVec 16 := en.bank.sr
def Engine.putSr (v : BitVec 16) (en : Engine) : Engine := en.setBank en.inTick fun b => { b with sr := v }
/-- SR as MOVSR reads it (R283). -/
def Engine.srWord (en : Engine) : Word :=
  en.sr.zeroExtend 32 ||| bitAt en.inTick 16 ||| bitAt (decide (0 < en.rep)) 17
def Engine.ac (en : Engine) (n : Bool) : BitVec 80 := if n then en.ac1 else en.ac0
/-- The accumulator as the extractions see it, one slot behind. -/
def Engine.lag (en : Engine) (n : Bool) : BitVec 80 := if n then en.lag1 else en.lag0
def Engine.putAc (n : Bool) (v : BitVec 80) (en : Engine) : Engine := if n then { en with ac1 := v } else { en with ac0 := v }
/-- An accumulator result: it saturates at 80 bits with its sticky flag (R284). -/
def Engine.setAc (n : Bool) (x : Int) (en : Engine) : Engine :=
  let (v, sat) := acSat x
  (en.putAc n v).putSr (srStick (if n then 10 else 9) sat en.sr)

/-! ### Faults and halts (R309, R311, R343) -/

/-- The results on their way complete when issue stops. -/
def Engine.land (d : Late) (en : Engine) : Engine :=
  match d.dest with
  | .g i => en.setBank d.shadow fun b => { b with g := b.g.set i (d.val.truncate 32) }
  | .ac n => if n then { en with ac1 := d.val, lag1 := d.val } else { en with ac0 := d.val, lag0 := d.val }
  | .adr k i =>
    match k.toNat with
    | 0 => { en with p := en.p.set i (d.val.truncate 16) }
    | 1 => { en with md := en.md.set i (d.val.truncate 16) }
    | 2 => { en with len := en.len.set i (d.val.truncate 15) }
    | _ => { en with base := en.base.set i (d.val.truncate 16) }
  | .port _ => en

/-- A store of a LEG_CTL word arms the local tiles that its LOAD_MASK names (R334, R335). -/
def legCtlArm (c : Fin 4) (a : Nat) (v : Word) (s : State) : State :=
  if 0x4000 ≤ a && a < 0x4300 && (a - 0x4000) % 0xC0 = 0x84 then
    (List.finRange 16).foldl (fun s t =>
      if tileCluster t = c && v.getLsbD (16 + t.val % 4) && s.tiles[t].regs.localField then
        armLoadAll t s
      else s) s
  else s

/-- A result lands; a port word becomes visible to the cluster. -/
def landLate (e : Fin 32) (d : Late) (s : State) : State :=
  match d.dest with
  | .port a => legCtlArm (engineCluster e) a.toNat (d.val.truncate 32)
      (portPut (engineCluster e) a.toNat (d.val.truncate 32) s)
  | _ => modEngine e (fun en => en.land d) s

/-- All late results land, as when issue stops. -/
def flushLate (e : Fin 32) (s : State) : State :=
  let ds := s.engines[e].late
  modEngine e (fun en => { en with late := [] }) (ds.foldl (fun s d => landLate e d s) s)

/-- LE_FAULT: the engine stops at the instruction, its free loops stop, and every axis with a loop on it takes the class
(R309). -/
def leFault (e : Fin 32) (cause : BitVec 8) (pc : BitVec 13) (addr : Word) (s : State) : State :=
  let s := flushLate e s
  let en := s.engines[e]
  let s := modEngine e (fun en => { en with
    ticks := en.ticks.map fun tk => { tk with pending := false }
    transfer := none, rep := 0
    regs := { en.regs with
      leState := 3, faultCause := cause, faultPc := pc, faultAddr := addr.truncate 16, faultSeen := true } }) s
  let s := stopFree e s
  raise Ev.leFault (srcEngine e) en.clsFault true (cause.zeroExtend 32) (pc.zeroExtend 32) addr (engineAxes en) s

/-- The tiles whose port grant the engine holds. -/
def grantedTiles (e : Fin 32) (en : Engine) : List (Fin 16) :=
  (List.finRange 16).filter fun t => tileCluster t = engineCluster e && en.grant.getLsbD (t.val % 4)

/-- A tile freezes (R343): a debug halt, or a stop of its clock.  A vented or unconfigured tile has nothing to hold. -/
def freezeTile (halt : Bool) (t : Fin 16) (s : State) : State :=
  let tl := s.tiles[t]
  if tl.regs.tileState = 1 || tl.regs.tileState = 2 then
    let s := modTile t (fun tl =>
      let tl := setTileState 4 tl
      { tl with
        pw := { tl.pw with frozenHalt := halt }
        regs := { tl.regs with
          freezeCount := satInc tl.regs.freezeCount, cntOvf := tl.regs.cntOvf || satFull tl.regs.freezeCount
          frozenSeen := true } }) (holdLegs t (abortIdent t s))
    writeTileStatus t (note Ev.tileFrozen (srcTile t) (if halt then 0 else 1) 0 0 s)
  else s

/-- A frozen tile returns to OFF with zero carries (R345). -/
def thawTile (halt : Bool) (t : Fin 16) (s : State) : State :=
  let tl := s.tiles[t]
  if tl.regs.tileState = 4 && tl.pw.frozenHalt = halt then
    writeTileStatus t (modTile t (fun tl =>
      let tl := setTileState 1 tl
      { tl with regs := { tl.regs with carry := Vector.replicate 4 0 } }) s)
  else s

/-- A debug halt at the program counter (R311). -/
def debugHalt (e : Fin 32) (pc : BitVec 13) (s : State) : State :=
  let en := s.engines[e]
  if en.regs.leState = 2 then
    let s := flushLate e s
    let s := modEngine e (fun en => { en with haltOverrun := false, regs := { en.regs with leState := 4 } }) s
    let s := note Ev.leDebugHalt (srcEngine e) (pc.zeroExtend 32) 0 0 s
    (grantedTiles e en).foldl (fun s t => freezeTile true t s) s
  else s

/-! ### The end of a tick (R301, R306 to R308) -/

/-- Forwards the output of a loop that has just run; a trim reaches IN_TRIM on its own engine too (R243, R307). -/
def forwardOut (e : Fin 32) (i : Fin 96) (s : State) : State :=
  match innerLoop s i with
  | none => s
  | some (j, true) => writeTrim j s
  | some (j, false) =>
    match loopPlace s j with
    | none => s
    | some (e', k, c) =>
      if e' = e then s
      else stagingWrite e' (some k) (c + 0x10) [nodeWord s i 8] s

/-- Collects the FLAGS of a loop into LOOP_FLAGS (R308, R257). -/
def collectFlags (e : Fin 32) (c : Nat) (i : Fin 96) (s : State) : State :=
  let w := dataWord s.engines[e] (c + 0x13)
  let s := modLoop i (fun l => { l with
    satSince := if w.getLsbD 6 then some (l.satSince.getD s.dt) else none
    satRaised := w.getLsbD 6 && l.satRaised
    regs := { l.regs with
      satErr := l.regs.satErr || w.getLsbD 0, satP := l.regs.satP || w.getLsbD 1, satI := l.regs.satI || w.getLsbD 2
      satD := l.regs.satD || w.getLsbD 3, satFf := l.regs.satFf || w.getLsbD 4
      satSum := l.regs.satSum || w.getLsbD 5, satOut := l.regs.satOut || w.getLsbD 6
      satOutCount := if w.getLsbD 6 then satInc l.regs.satOutCount else l.regs.satOutCount
      cntOvf := l.regs.cntOvf || (w.getLsbD 6 && satFull l.regs.satOutCount) } }) s
  let s := if w.getLsbD 6 then s
    else clearCond Ev.loopOutputSaturated ((loopAxis i).toList) s
  modEngine e (fun en => { en with data := memPutWord en.data (c + 0x13) 0 }) s

/-- Direct coefficient words waiting for a loop that no running or pending entry holds are written (R306). -/
def coefWord (l : Loop) (k : Fin 7) (v : Word) : Loop :=
  { l with regs := match k with
    | 0 => { l.regs with kp := v }
    | 1 => { l.regs with ki := v }
    | 2 => { l.regs with kd := v }
    | 3 => { l.regs with kff := v }
    | 4 => { l.regs with dFilt := v }
    | 5 => { l.regs with outMin := v }
    | 6 => { l.regs with outMax := v } }

/-- The tick on engine e ends. -/
def tickExit (e : Fin 32) (s : State) : State :=
  let en := s.engines[e]
  match en.running with
  | none => s
  | some k =>
    let tk := en.ticks[k]
    let ls := entryLoops tk.regs
    let s := ls.foldl (fun s x => (List.finRange 4).foldl (fun s u =>
      if u = engineCluster e then traceTick x.2 tk.due u s else s) s) s
    let s := ls.foldl (fun s x => forwardOut e x.2 (collectFlags e (loopCtx tk.regs x.1) x.2 s)) s
    let s := ls.foldl (fun s x => match loopTile x.2 with
      | some t => if x.2.val % 4 = 0 && s.axes[tileAxis t].enabled then
          modTile t (fun tl => { tl with pw := { tl.pw with firstTick := true } }) s else s
      | none => s) s
    let spent := (s.engines[e].cycle - tk.start)
    let inPour := (s.engines[e].cycle - s.engines[e].busyFrom)
    modEngine e (fun en =>
      let en := { en with
        running := none, busy := en.busy + inPour.toNat
        regs := { en.regs with maxCycles := upd en.regs.maxCycles k fun m => if m.toNat < spent.toNat then spent else m } }
      let en := stagingFlush en
      if en.ticks.toList.any (·.pending) then { en with transfer := none }
      else { en with inTick := false, pc := en.backPc, transfer := en.backTransfer, backTransfer := none, waiting := false }) s

/-! ### Issue (R294 to R296) -/

/-- What an instruction does to its engine. -/
inductive LeOut where
  | fault (cause : BitVec 8) (addr : Word)
  | done (en : Engine) (late : List Late) (cycles : Nat)

/-- The engine issues: it runs, does not wait, and between two ticks with an entry pending nothing is issued. -/
def Engine.issues (en : Engine) : Bool :=
  en.regs.leState = 2 && !en.waiting && (!en.inTick || en.running.isSome)

/-- Two results that land in the same slot in the same place. -/
def lateClash (ds : List Late) : Bool :=
  match ds with
  | [] => false
  | d :: ds => ds.any (fun x => x.dest = d.dest && x.shadow = d.shadow) || lateClash ds

/-- The control transfer after the slot just issued. -/
def advance (old en : Engine) : Engine × Bool :=
  if 1 < old.rep then (en, false)
  else match old.transfer with
    | some (t, 1) =>
      match t with
      | .jump a => ({ en with pc := a, transfer := none }, false)
      | .exit_ => ({ en with pc := en.pc + 1, transfer := none }, true)
      | .none_ => ({ en with pc := en.pc + 1, transfer := none }, false)
    | some (t, k) => ({ en with pc := en.pc + 1, transfer := some (t, k - 1) }, false)
    | none => ({ en with pc := en.pc + 1 }, false)

/-- The instruction's effects, the results that land with it, and the next program counter. -/
def finishIssue (e : Fin 32) (old en : Engine) (new : List Late) (cycles : Nat) (s : State) : State :=
  let left := old.late.map fun d => { d with left := d.left - 1 }
  let due := left.filter fun d => d.left = 0
  let keep := left.filter fun d => d.left ≠ 0
  let new := new.map fun d => { d with left := d.left + (old.rep - 1) }
  let keep := if 0 < old.rep then keep.filter fun d => !new.any (fun x => x.dest = d.dest && x.left = d.left) else keep
  let clash := lateClash due
  let due := if clash && freeBool s then due.reverse else due
  let s := if clash then drawn s else s
  let en := { en with
    late := keep ++ new, lag0 := old.ac0, lag1 := old.ac1, cycle := old.cycle + BitVec.ofNat 32 cycles
    rep := if 0 < old.rep then old.rep - 1 else en.rep }
  let (en, exits) := advance old en
  let s := due.foldl (fun s d => landLate e d s) (modEngine e (fun _ => en) s)
  if exits then tickExit e s else s

/-- One instruction: control transfers, RPT, TEXIT and WAIT may not stand in a delay slot, and some may not follow an RPT. -/
def issue (e : Fin 32) (slotOk repOk : Bool) (body : Engine → State → LeOut) (s : State) : State :=
  let en := s.engines[e]
  if !en.issues then s
  else if 0 < en.rep && !repOk then leFault e 2 (en.pc - 1) 0 s
  else if en.transfer.isSome && !slotOk then leFault e 2 en.pc 0 s
  else match body en s with
    | .fault c a => leFault e c en.pc a s
    | .done en' late cycles => finishIssue e en en' late cycles s

/-- An instruction whose result the spec bounds only: its body draws the free value. -/
def issueFree (e : Fin 32) (body : Engine → State → LeOut) (s : State) : State :=
  if s.engines[e].issues then issue e true true (fun en _ => body en s) (drawn s) else s

/-- A result of the ALU: no slot. -/
def aluOut (en : Engine) (d : Fin 16) (r : Alu) : LeOut := .done ((en.put d r.val).putSr (aluSr r en.sr)) [] 1
/-- A result that lands after n slots. -/
def lateG (en : Engine) (i : Fin 16) (v : Word) (n : Nat) : Late :=
  { dest := .g i, shadow := en.inTick, val := v.zeroExtend 80, left := n }

/-! ### The address map (R285 to R289, R309) -/

/-- Regions of R285. -/
inductive Region where
  | data | port | control | none_
deriving DecidableEq, Repr

def regionOf (a : Nat) : Region :=
  if a < 0x4000 then .data else if a < 0x4400 then .port else if 0x6000 ≤ a && a ≤ 0x6007 then .control else .none_

/-- What a store to a port word does: it is made, has no effect (a word that holds 0), or faults. -/
inductive PortStore where
  | store | ignored | fault (cause : BitVec 8)
deriving DecidableEq, Repr

/-- Words 0x80 to 0xBF of the area of a tile in the mode, for the engine with the grant (R334, R382, R407). -/
def grantedStore (mode : BitVec 2) (w : Nat) : PortStore :=
  if w = 0x85 || w = 0x86 then .ignored
  else if w < 0x88 then .store
  else if mode = 1 then
    if w = 0x8A || w = 0x8B || w = 0x93 then .ignored
    else if 0x8C ≤ w && w ≤ 0x92 then .store else .fault 4
  else if mode = 2 || mode = 3 then
    if w = 0x8B then .ignored else if w ≤ 0x8A then .store else .fault 4
  else .fault 4

/-- A store to word w of the area of tile t (R288). -/
def tileStore (en : Engine) (tl : Tile) (t : Fin 16) (w : Nat) : PortStore :=
  if w < 0x80 then .fault 4
  else if !en.grant.getLsbD (t.val % 4) then .fault 5
  else grantedStore tl.regs.mode w

/-- Engine e's mailbox holds the word. -/
def ownMailbox (e : Fin 32) (a : Nat) : Bool := (a - 0x4300) / 0x20 = e.val % 8

/-- A store by engine e to a port word (R288). -/
def portStore (s : State) (e : Fin 32) (a : Nat) : PortStore :=
  if 0x4300 ≤ a then (if ownMailbox e a then .store else .fault 5)
  else match asFin 16 (4 * (engineCluster e).val + (a - 0x4000) / 0xC0) with
    | some t => tileStore s.engines[e] s.tiles[t] t ((a - 0x4000) % 0xC0)
    | none => .fault 3

/-- A word of the control space (R289). -/
def controlWord (s : State) (e : Fin 32) (en : Engine) (a : Nat) : Word :=
  match a - 0x6000 with
  | 0 => en.cycle
  | 1 => BitVec.ofNat 32 e.val ||| (BitVec.ofNat 32 (engineCluster e).val <<< 8)
  | 2 => match en.running with
    | some k => BitVec.ofNat 32 k.val
    | none => 0xFF
  | 3 => (pourNum s).truncate 32
  | 4 => nsLo s.dt
  | 5 => nsHi en.dtCap
  | 6 => fracOf en.dtCap
  | _ => 0

/-- A read of one word: its value, the slots of its load, and the engine after it. -/
def readWord (s : State) (e : Fin 32) (en : Engine) (a : Nat) : Option (Word × Nat × Engine) :=
  match regionOf a with
  | .data => some (dataWord en a, 2, en)
  | .port => some (portGet s (engineCluster e) a, 4, en)
  | .control => some (controlWord s e en a, 6, if a = 0x6004 then { en with dtCap := s.dt } else en)
  | .none_ => none

/-- A store of one word: data memory at once, port memory after two slots. -/
def storeWord (s : State) (e : Fin 32) (en : Engine) (a : Nat) (v : Word) : LeOut :=
  match regionOf a with
  | .data => .done { en with data := memPutWord en.data a v } [] 1
  | .port =>
    match portStore s e a with
    | .store => .done en [{ dest := .port (BitVec.ofNat 16 a), shadow := false, val := v.zeroExtend 80, left := 2 }] 1
    | .ignored => .done en [] 1
    | .fault c => .fault c (BitVec.ofNat 32 a)
  | .control => .fault 4 (BitVec.ofNat 32 a)
  | .none_ => .fault 3 (BitVec.ofNat 32 a)

/-- Stores of consecutive words, each as storeWord does. -/
def storeWords (s : State) (e : Fin 32) (en : Engine) (a : Nat) : List Word → List Late → LeOut
  | [], late => .done en late 1
  | v :: vs, late =>
    match storeWord s e en a v with
    | .fault c x => .fault c x
    | .done en l _ => storeWords s e en (a + 1) vs (late ++ l)

/-- A load of one word into Gd. -/
def loadG (s : State) (e : Fin 32) (en : Engine) (d : Fin 16) (a : Nat) : LeOut :=
  match readWord s e en a with
  | some (v, n, en') => .done en' [lateG en d v n] 1
  | none => .fault 3 (BitVec.ofNat 32 a)

/-- Whether n words from a on lie in the region; the address that does not and its cause otherwise. -/
def allIn (r : Region) (a n : Nat) : Option (BitVec 8 × Nat) :=
  match (List.range n).find? fun i => regionOf (a + i) ≠ r with
  | some i => some (if regionOf (a + i) = .none_ then 3 else 4, a + i)
  | none => none

/-- The next value of Pi (R287). -/
def postModify (en : Engine) (i : Fin 8) : BitVec 16 :=
  let p := en.p[i]
  let m := en.md[i].toInt
  let l := en.len[i].toNat
  if l = 0 then BitVec.ofInt 16 (p.toNat + m)
  else BitVec.ofInt 16 (en.base[i].toNat + ((p.toNat : Int) - en.base[i].toNat + m) % l)
def Engine.modP (i : Fin 8) (en : Engine) : Engine := { en with p := en.p.set i (postModify en i) }

end Sys2Proof.Machine
end

