-- ==== Sys2Proof/Machine/LeCmd.lean ====
section
/-! DEFINITION. The engines' images, commands, scrubber and debug halt (R310 to R317). -/

namespace Sys2Proof.Machine

/-! ### Starting an engine (R309, R312, R314) -/

/-- The condition of LE_FAULT ends on the axes that no other faulted engine serves. -/
def clearLeFault (e : Fin 32) (s : State) : State :=
  let others := (List.finRange 32).filter fun x => x ≠ e && s.engines[x].regs.leState = 3
  clearCond Ev.leFault ((engineAxes s.engines[e]).filter fun a => !others.any fun x =>
    (engineAxes s.engines[x]).contains a) s

/-- The engine restarts at address 0 with its data memory as in its image and the context area zero; a fault that stood ends
(log entry 131). -/
def startEngine (e : Fin 32) (s : State) : State :=
  let s := modEngine e (fun en =>
    let en := resetEngine en
    let en := match en.image with
      | some im => { en with prog := im.prog, data := im.data }
      | none => { en with data := [] }
    { en with deferred := [], regs := { en.regs with leState := 2 } }) (clearLeFault e s)
  note Ev.leStarted (srcEngine e) 0 0 0 s

/-- An enabled axis has a loop on the engine. -/
def axisOnEngine (s : State) (e : Fin 32) : Bool := (engineAxes s.engines[e]).any fun a => s.axes[a].enabled

/-! ### Images (R313, R314) -/

def loadWord (ld : EngineLoad) (i : Nat) : Word := memWord ld.data i
/-- The tick entries that an image header describes. -/
def imageTick (ld : EngineLoad) (k : Nat) : TickRegs :=
  if k < (loadWord ld 3).toNat % 32 then
    loadTickRegs (loadTickRegs (loadTickRegs {} 0x100 (loadWord ld (4 + 4 * k))) 0x104 (loadWord ld (5 + 4 * k)))
      0x108 (loadWord ld (6 + 4 * k))
  else {}

/-- Whether a tick entry's source, DIV, PHASE and context are within R297 and R303. -/
def tickSourceOk (tk : TickRegs) : Bool :=
  let n := tk.sourceNum.toNat
  (match tk.sourceKind.toNat with
    | 1 => decide (n < 16) && decide (tk.div.toNat < 32)
    | 2 => true
    | 3 => decide (n < 16)
    | 4 => decide (n < 16)
    | _ => false) && decide (tk.phase.toNat ≤ tk.div.toNat)
def tickCtxOk (tk : TickRegs) : Bool :=
  decide (0x3000 ≤ tk.tickCtx.toNat) && decide (tk.tickCtx.toNat + 320 ≤ 0x4000) && decide (tk.tickCtx.toNat % 64 = 0)

/-- A current loop of a tile: loops 4a and 4a + 3. -/
def isCurrent (i : Fin 96) : Bool := i.val < 64 && (i.val % 4 = 0 || i.val % 4 = 3)

/-- The loops that the tick entries of an image run. -/
def imageLoops (ld : EngineLoad) : List (Fin 96) :=
  (((List.range (min ((loadWord ld 3).toNat % 32) 16)).map (imageTick ld)).flatMap fun tk =>
    (entryLoops tk).map (·.2)).eraseDups
/-- A tile whose current loop an image for the engine places outside the tile's cluster (R13). -/
def strayTile (e : Fin 32) (ld : EngineLoad) : Option (Fin 16) :=
  ((imageLoops ld).find? fun i => isCurrent i && (loopTile i).map tileCluster ≠ some (engineCluster e)).bind loopTile

/-- MHz of an engine clock code (R313). -/
def clockMhz (clock : BitVec 4) : Nat :=
  match clock.toNat with
  | 1 => 200
  | 2 => 300
  | 3 => 400
  | 4 => 600
  | _ => 0
/-- The time between two firings of an entry in pour cycles, as a fraction; none for a source that no pour cycle paces. -/
def entryPace (s : State) (tk : TickRegs) : Option (Nat × Nat) :=
  if tk.sourceKind = 1 then
    (asFin 16 tk.sourceNum.toNat).map fun t => (tk.div.toNat + 1, max 1 s.loops[tileLoop t 2].regs.k.toNat)
  else if tk.sourceKind = 2 then some (tk.div.toNat + 1, 1) else none
/-- How often an entry can be due between two firings of another; one that nothing paces once (log entry 132). -/
def dueIn (a : Nat × Nat) (b : Option (Nat × Nat)) : Nat :=
  match b with
  | some b => (a.1 * b.2 + a.2 * b.1 - 1) / max 1 (a.2 * b.1)
  | none => 1
/-- The axis-tick entry k leaves too little time: the worst cases of the entries that can be due between two of its firings,
with 24 cycles each, exceed that interval (R302).  With no pour cycle in force the interval has no length the spec states, and
the answer is free. -/
def overruns (s : State) (e : Fin 32) (ld : EngineLoad) (n k : Nat) : Bool :=
  let tk := imageTick ld k
  match (if tk.sourceKind = 1 then entryPace s tk else none) with
  | some a =>
    let need := ((List.range n).map fun i => dueIn a (entryPace s (imageTick ld i)) * ((loadWord ld (7 + 4 * i)).toNat + 24)).foldl
      (· + ·) 0
    if pourLen s = 0 then freeBool s
    else decide (clockMhz s.engines[e].regs.clock * pourLen s * a.1 < need * 1000 * a.2)
  | none => false
/-- Entry 0 runs a current loop and (24 + F + B) engine cycles exceed 200 ns: F the fill words of its header and of its loops'
coefficients, B the longest RPT count in background code (R302). -/
def entersLate (s : State) (e : Fin 32) (ld : EngineLoad) : Bool :=
  let ls := entryLoops (imageTick ld 0)
  let fill := 13 + 9 * ls.length
  let rpt := (loadWord ld 3).toNat / 65536
  ls.any (fun x => isCurrent x.2) && decide (200 * clockMhz s.engines[e].regs.clock < (24 + fill + rpt) * 1000)
/-- The first of the checks of R302 that fails, with the entry. -/
def scheduleFails (s : State) (e : Fin 32) (ld : EngineLoad) (n : Nat) : Option Nat :=
  let ks := List.range n
  match ks.find? fun k => k ≠ 0 && (entryLoops (imageTick ld k)).any fun x => isCurrent x.2 with
  | some k => some k
  | none => if entersLate s e ld then some 0 else ks.find? fun k => overruns s e ld n k

/-- The first check of R314 that fails, with what IMAGE_CHECK holds; none where the image passes. -/
def imageCheck (s : State) (e : Fin 32) (ld : EngineLoad) : Option (BitVec 16 × Nat) :=
  let en := s.engines[e]
  let w1 := loadWord ld 1
  let w2 := loadWord ld 2
  let prog := w1.toNat % 16384
  let data := (w1 >>> 16).toNat % 16384
  let n := (loadWord ld 3).toNat % 32
  let ks := List.range (min n 16)
  let loops := imageLoops ld
  let cur := loops.filter isCurrent
  let grant := loadWord ld 0x44
  let first (p : Nat → Bool) : Option Nat := ks.find? p
  let badGrant := (List.finRange 16).find? fun t =>
    tileCluster t = engineCluster e && grant.getLsbD (t.val % 4) && !loops.contains (tileLoop t 0)
  if crcWords (memWords ld.data 0 ld.size) ≠ ld.crc then some (Status.imageInvalid, 0)
  else if crcWords (memWords ld.data 0 0x7F) ≠ loadWord ld 0x7F then some (Status.imageInvalid, 0x7F)
  else if loadWord ld 0 ≠ 0x4C450001 then some (Status.imageInvalid, 0)
  else if prog = 0 || 8192 < prog || 12288 < data || ld.size ≠ 128 + prog + data then some (Status.imageInvalid, 1)
  else if (w2.extractLsb' 8 5).toNat ≠ e.val then some (Status.imageInvalid, 2)
  else if w2.extractLsb' 0 4 ≠ en.regs.clock then some (Status.imageInvalid, 2)
  else if 16 < n || loops.any (fun i => !(engineLoops en).contains i) || (engineLoops en).any (fun i => !loops.contains i) then
    some (Status.imageInvalid, 3)
  else match first (fun k => !(tickSourceOk (imageTick ld k) && tickCtxOk (imageTick ld k))) with
  | some k => some (Status.leTickSource, k)
  | none =>
    match strayTile e ld with
    | some t => some (Status.leImageCluster, t.val)
    | none =>
      match badGrant with
      | some t => some (Status.imageInvalid, t.val)
      | none =>
        if cur.any fun i => cur.any fun j => i.val / 4 ≠ j.val / 4 then
          some (Status.imageInvalid, (cur.head?.map fun i => i.val / 4).getD 0)
        else (scheduleFails s e ld ks.length).map fun k => (Status.leSchedule, k)

/-- A checked image is installed: program, data, tick entries, port grant and the loops' engine. -/
def installImage (e : Fin 32) (ld : EngineLoad) (s : State) : State :=
  let w1 := loadWord ld 1
  let prog := w1.toNat % 16384
  let data := (w1 >>> 16).toNat % 16384
  let s := modEngine e (fun en => { en with
    image := some { hdr := memWords ld.data 0 128
                    prog := memPutWords [] 0 (memWords ld.data 128 prog)
                    data := memPutWords [] 0 (memWords ld.data (128 + prog) data) }
    load := none
    grant := (loadWord ld 0x44).truncate 4
    ticks := Vector.ofFn fun k => { regs := { imageTick ld k.val with overrunCount := en.ticks[k].regs.overrunCount } }
    regs := { en.regs with
      imageCrc := ld.crc, imageCheck := 0
      wcet := Vector.ofFn fun k : Fin 16 => loadWord ld (7 + 4 * k.val) } }) s
  (engineLoops s.engines[e]).foldl (fun s i => modLoop i (fun l => { l with
    regs := { l.regs with engine := BitVec.ofNat 5 e.val } }) s) s

/-- LE_IMAGE_END ends with OP_COMPLETE (R86, R314). -/
def execLeImageCheckComplete (e : Fin 32) (s : State) : Host.Outcome State Fault Refusal :=
  let own (o : PendingOp) : Bool := o.op = 0x0703 && o.target = BitVec.ofNat 16 e.val
  .next (match s.engines[e].load, s.ocp.ops.any own with
    | some ld, true =>
      match imageCheck s e ld with
      | some (st, x) => endOps own st (modEngine e (fun en => { en with
          regs := { en.regs with imageCheck := BitVec.ofNat 16 x } }) (drawn s))
      | none => endOps own Status.ok (startEngine e (installImage e ld (drawn s)))
    | _, _ => s)

/-! ### Commands (R316) -/

def engineBlock (n : Nat) : Option Nat := some n
def engOp (op : BitVec 16) (cls : ReplyClass) (params : Nat → Bool) : OpDesc :=
  { op := op, cls := cls, target := tBelow 32, params := params, block := engineBlock }
/-- The engine that the target names; the header checks keep it below 32. -/
def engOf (p : Packet) : Fin 32 := Fin.ofNat 32 (tgt p)

def dLeImageBegin : OpDesc := engOp 0x0701 .b (· = 2)
def acceptLeImageBegin (p : Packet) (s : State) : BitVec 16 :=
  if axisOnEngine s (engOf p) then Status.axisEnabled else Status.ok
def runLeImageBegin (p : Packet) (s : State) : Reply :=
  let e := engOf p
  let s := stopFree e s
  ok (modEngine e (fun en => { (resetEngine en) with
    load := some { size := parNat p 0, crc := par p 1, data := [] }
    regs := { en.regs with leState := 1 } }) s)
/-- LE_IMAGE_BEGIN: the engine enters LOADING. -/
def execLeImageBegin (p : Packet) (s : State) : Host.Outcome State Fault Refusal :=
  .next (request dLeImageBegin acceptLeImageBegin runLeImageBegin p s)

def dLeImageData : OpDesc := engOp 0x0702 .b (fun n => 2 ≤ n && n ≤ 1001)
def acceptLeImageData (p : Packet) (s : State) : BitVec 16 :=
  match s.engines[engOf p].load with
  | none => Status.leImageSequence
  | some ld => if ld.size < parNat p 0 + (p.params.length - 1) then Status.leImageRange else Status.ok
def runLeImageData (p : Packet) (s : State) : Reply :=
  ok (modEngine (engOf p) (fun en => { en with load := en.load.map fun ld =>
    { ld with data := memPutWords ld.data (parNat p 0) (p.params.drop 1) } }) s)
/-- LE_IMAGE_DATA. -/
def execLeImageData (p : Packet) (s : State) : Host.Outcome State Fault Refusal :=
  .next (request dLeImageData acceptLeImageData runLeImageData p s)

def dLeImageEnd : OpDesc := engOp 0x0703 .c (· = 0)
def acceptLeImageEnd (p : Packet) (s : State) : BitVec 16 :=
  if s.power.regs.kettleState = 3 then Status.thermalGated
  else if s.engines[engOf p].load.isNone then Status.leImageSequence else Status.ok
def runLeImageEnd (p : Packet) (s : State) : Reply := startOp 0x0703 p s
/-- LE_IMAGE_END: class C; LE_IMAGE_CHECK_COMPLETE ends it. -/
def execLeImageEnd (p : Packet) (s : State) : Host.Outcome State Fault Refusal :=
  .next (request dLeImageEnd acceptLeImageEnd runLeImageEnd p s)

def dLeStatus : OpDesc := engOp 0x0704 .a (· = 0)
def runLeStatus (p : Packet) (s : State) : Reply := okWith (wordsOf (engineWord s (engOf p)) 0 17) s
/-- LE_STATUS: words 0x000 to 0x040. -/
def execLeStatus (p : Packet) (s : State) : Host.Outcome State Fault Refusal :=
  .next (request dLeStatus acceptAny runLeStatus p s)

/-- LE_TICK_SET: EN, DIV and PHASE of an entry; the source stays. -/
def tickSetRegs (p : Packet) (tk : TickRegs) : TickRegs :=
  { tk with en := parBool p 1, div := BitVec.ofNat 8 (parNat p 2 - 1), phase := parBits p 3 8 }
def acceptLeTickSet (p : Packet) (s : State) : BitVec 16 :=
  let en := s.engines[engOf p]
  if en.regs.leState = 1 then Status.leLoading
  else if !(parIn p 0 0 15 && parIn p 1 0 1) then Status.paramRange
  else if !(parIn p 2 1 256 && parIn p 3 0 255 && tickSourceOk (tickSetRegs p (en.ticks.getD (parNat p 0) {}).regs)) then
    Status.leTickSource
  else Status.ok
/-- An entry that is no longer enabled leaves the queue of the engine. -/
def dropPending (en : Engine) : Engine :=
  if en.inTick && en.running.isNone && !en.ticks.toList.any (·.pending) then
    { en with inTick := false, pc := en.backPc, transfer := en.backTransfer, backTransfer := none, waiting := false }
  else en
def applyLeTickSet (p : Packet) (s : State) : State :=
  modEngine (engOf p) (fun en => dropPending { en with ticks := upd en.ticks (Fin.ofNat 16 (parNat p 0)) fun tk =>
    let r := tickSetRegs p tk.regs
    { tk with regs := r, pending := tk.pending && r.en, occ := if tk.regs.en then tk.occ else 0 } }) s
def stLeTickSet : StageOp :=
  { d := { engOp 0x0705 .b (· = 4) with stage := .yes }, accept := acceptLeTickSet, check := acceptLeTickSet
    apply := applyLeTickSet }
/-- LE_TICK_SET, staged. -/
def execLeTickSet (p : Packet) (s : State) : Host.Outcome State Fault Refusal := .next (stageRequest stLeTickSet p s)

def dLePolicySet : OpDesc := engOp 0x0706 .b (· = 2)
def acceptLePolicySet (p : Packet) (_ : State) : BitVec 16 :=
  if clsAllowed .vent (par p 0) && clsAllowed .note (par p 1) then Status.ok else Status.paramRange
def runLePolicySet (p : Packet) (s : State) : Reply :=
  ok (modEngine (engOf p) (fun en => { en with clsFault := clsOf (par p 0), clsOverrun := clsOf (par p 1) }) s)
/-- LE_POLICY_SET: classes of LE_FAULT and TICK_OVERRUN. -/
def execLePolicySet (p : Packet) (s : State) : Host.Outcome State Fault Refusal :=
  .next (request dLePolicySet acceptLePolicySet runLePolicySet p s)

/-- The counters of an engine, MAX_CYCLES and LOAD_PEAK at zero. -/
def clearEngineCounters (en : Engine) : Engine :=
  { en with
    ticks := en.ticks.map fun tk => { tk with regs := { tk.regs with overrunCount := 0 } }
    regs := { en.regs with
      eccCorrProg := 0, eccCorrData := 0, eccCorrPort := 0, userEventCount := 0, loadPeak := 0
      maxCycles := Vector.replicate 16 0 } }
def dLeCountersClear : OpDesc :=
  { op := 0x0707, cls := .b, target := fun n => n < 32 || n = 0xFFFF, params := (· = 0)
    block := fun n => if n < 32 then some n else none }
def runLeCountersClear (p : Packet) (s : State) : Reply :=
  ok (if tgt p = 0xFFFF then { s with engines := s.engines.map clearEngineCounters }
      else modEngine (engOf p) clearEngineCounters s)
/-- LE_COUNTERS_CLEAR. -/
def execLeCountersClear (p : Packet) (s : State) : Host.Outcome State Fault Refusal :=
  .next (request dLeCountersClear acceptAny runLeCountersClear p s)

def dLeDataRead : OpDesc := engOp 0x0708 .a (· = 2)
def acceptLeDataRead (p : Packet) (_ : State) : BitVec 16 :=
  if parIn p 1 1 1000 && decide (parNat p 0 + parNat p 1 ≤ 0x4000) then Status.ok else Status.paramRange
def runLeDataRead (p : Packet) (s : State) : Reply :=
  okWith (memWords s.engines[engOf p].data (parNat p 0) (parNat p 1)) s
/-- LE_DATA_READ: words of data memory as in the window. -/
def execLeDataRead (p : Packet) (s : State) : Host.Outcome State Fault Refusal :=
  .next (request dLeDataRead acceptLeDataRead runLeDataRead p s)

def dLeRestart : OpDesc := engOp 0x0709 .b (· = 0)
def acceptLeRestart (p : Packet) (s : State) : BitVec 16 :=
  if s.power.regs.kettleState = 3 then Status.thermalGated
  else if s.engines[engOf p].regs.leState ≠ 3 then Status.leNotFaulted
  else if axisOnEngine s (engOf p) then Status.axisEnabled else Status.ok
def runLeRestart (p : Packet) (s : State) : Reply := ok (startEngine (engOf p) s)
/-- LE_RESTART: reloads the data memory and restarts a faulted engine. -/
def execLeRestart (p : Packet) (s : State) : Host.Outcome State Fault Refusal :=
  .next (request dLeRestart acceptLeRestart runLeRestart p s)

/-! ### Scrubber and debug port (R310, R311) -/

/-- ECC_CORRECTED is raised at most once per second per engine. -/
def eccDue (last : Option Fix) (now : Fix) : Bool :=
  match last with
  | none => true
  | some t => decide (t.toNat + 1000000000 * 2 ^ 32 ≤ now.toNat)

/-- A word of program (0), data (1) or port (2) memory is read with no, a single-bit (1) or a double-bit (2) error. -/
def scrub (e : Fin 32) (kind : Fin 3) (addr : BitVec 16) (err : Fin 3) (s : State) : State :=
  match err with
  | 0 => s
  | 1 =>
    let s := modEngine e (fun en => { en with regs := match kind with
      | 0 => { en.regs with eccCorrProg := satInc en.regs.eccCorrProg, cntOvf := en.regs.cntOvf || satFull en.regs.eccCorrProg }
      | 1 => { en.regs with eccCorrData := satInc en.regs.eccCorrData, cntOvf := en.regs.cntOvf || satFull en.regs.eccCorrData }
      | 2 => { en.regs with eccCorrPort := satInc en.regs.eccCorrPort, cntOvf := en.regs.cntOvf || satFull en.regs.eccCorrPort } }) s
    if eccDue s.engines[e].eccAt s.dt = true then
      note Ev.eccCorrected (srcEngine e) (BitVec.ofNat 32 kind.val) (addr.zeroExtend 32) 0
        (modEngine e (fun en => { en with eccAt := some s.dt, regs := { en.regs with eccSeen := true } }) s)
    else s
  | 2 => assertControlReset (BitVec.ofNat 8 (kind.val + 1)) (addr.zeroExtend 32) s

/-- MEMORY_SCRUB. -/
def execMemoryScrub (e : Fin 32) (kind : Fin 3) (addr : BitVec 16) (err : Fin 3) (s : State) : Host.Outcome State Fault Refusal :=
  .next (scrub e kind addr err s)
/-- The debug port's say on BKPT; the spec gives the port's registers nowhere, so it comes with the port's own events (log
entry 130). -/
def setBkpt (e : Fin 32) (bkpt : Bool) (s : State) : State := modEngine e (fun en => { en with bkptEn := bkpt }) s
/-- DEBUG_HALT by the debug port. -/
def execDebugHalt (e : Fin 32) (bkpt : Bool) (s : State) : Host.Outcome State Fault Refusal :=
  .next (debugHalt e s.engines[e].pc (setBkpt e bkpt s))
/-- DEBUG_RESUME: issue goes on and the engine's tiles leave FROZEN (R345). -/
def execDebugResume (e : Fin 32) (bkpt : Bool) (s : State) : Host.Outcome State Fault Refusal :=
  let s := setBkpt e bkpt s
  .next (if s.engines[e].regs.leState = 4 then
      (grantedTiles e s.engines[e]).foldl (fun s t => thawTile true t s)
        (modEngine e (fun en => { en with haltOverrun := false, regs := { en.regs with leState := 2 } }) s)
    else s)

end Sys2Proof.Machine
end

