-- ==== Sys2Proof/Machine/Loops.lean ====
section
/-! DEFINITION. Group 0x06: loop settings, direct coefficients, supervisors and trace units (R241 to R280).  What the loops
compute at a tick stands in Ticks.lean. -/

namespace Sys2Proof.Machine

def modLoopRegs (i : Fin 96) (f : LoopRegs → LoopRegs) (s : State) : State := modLoop i (fun l => { l with regs := f l.regs }) s
def loopAxisOp (op : BitVec 16) (n : Nat) : OpDesc :=
  { op := op, cls := .b, stage := .yes, target := tBelow 16, params := (· = n) }
def loopOp (op : BitVec 16) (stage : Stageable) (n : Nat) : OpDesc :=
  { op := op, cls := .b, stage := stage, target := tBelow 96, params := (· = n) }
def tileOf (p : Packet) : Fin 16 := Fin.ofNat 16 (tgt p)
def loopOf (p : Packet) : Fin 96 := Fin.ofNat 96 (tgt p)
/-- Loop 4a + 2, which holds the rates of the axis. -/
def rateLoop (s : State) (t : Fin 16) : LoopRegs := s.loops[tileLoop t 2].regs
def srcLoop (s : State) (i : Fin 96) : BitVec 16 :=
  match loopAxis i with
  | some a => srcAxis a
  | none => srcEngine s.loops[i].regs.engine.toFin
/-- The axis is enabled: a setting of its loops is refused (R244, R248, R276). -/
def axisOff (p : Packet) (s : State) : BitVec 16 :=
  if (s.axes[tileAxis (tileOf p)]).enabled then Status.axisEnabled else Status.ok

/-! ### Programs, rates, top (R244, R248, R276) -/

/-- The engines of the axis's loops carry a custom program (R314). -/
def carriesProgram (s : State) (t : Fin 16) (id : Nat) : Bool :=
  (List.finRange 4).any fun l => match loopPlace s (tileLoop t l) with
    | some (e, k, _) => s.engines[e].ticks[k].regs.programId.toNat = id
    | none => false
def programSuits (s : State) (t : Fin 16) (id : Nat) : Bool :=
  let mode := s.tiles[t].regs.mode.toNat
  if id = 1 || id = 2 || id = 3 then mode = 1
  else if id = 0x10 || id = 0x11 then mode = 2
  else if id = 0x20 then mode = 3
  else decide (0x8000 ≤ id) && decide (id ≤ 0x80FF) && carriesProgram s t id
def checkLoopProgram (p : Packet) (s : State) : BitVec 16 :=
  firstBad [axisOff p s, if programSuits s (tileOf p) (parNat p 0) then Status.ok else Status.programUnsupported]
/-- The version of a program that the module carries is the program's own: the spec gives none, so it is free. -/
def applyLoopProgram (p : Packet) (s : State) : State :=
  let ver : BitVec 16 := BitVec.ofNat 16 (freeNow s)
  (List.finRange 4).foldl (fun s l => modLoopRegs (tileLoop (tileOf p) l) (fun r => { r with
    programId := parBits p 0 16, programVer := ver }) s) (drawn s)
def stLoopProgramSelect : StageOp :=
  { d := loopAxisOp 0x0601 1, check := checkLoopProgram, apply := applyLoopProgram }
/-- LOOP_PROGRAM_SELECT (R276). -/
def execLoopProgramSelect (p : Packet) (s : State) : Host.Outcome State Fault Refusal := .next (stageRequest stLoopProgramSelect p s)

/-- T_c of K ticks a pour is at least 10 us, once L is fixed. -/
def rateFits (s : State) (k : Nat) : Bool := pourLen s = 0 || 10000 * k ≤ pourLen s
def acceptLoopRate (p : Packet) (s : State) : BitVec 16 :=
  let tl := s.tiles[tileOf p]
  if !(parIn p 0 1 32 && parIn p 1 1 8 && parIn p 2 1 8 && parIn p 3 1 32 && parIn p 4 0 1 && parIn p 5 0 1) then Status.paramRange
  else if tl.regs.localField then
    if 4000 ≤ parNat p 3 * tl.regs.periodClk.toNat then Status.ok else Status.loopRateInvalid
  else if rateFits s (parNat p 0) && parNat p 0 % (parNat p 1 * parNat p 2) = 0 then Status.ok
  else Status.loopRateInvalid
/-- Every how many current ticks an entry of axis t's loops fires: its fastest loop decides (R244, R297). -/
def entryDiv (t : Fin 16) (kv kp : Nat) (tk : TickRegs) : Nat :=
  let own (l : Fin 4) : Bool := (entryLoops tk).any fun x => x.2 = tileLoop t l
  if own 0 || own 3 then 1 else if own 1 then kv else kv * kp
/-- An entry of a Fjareb program on the current ticks of axis t, for its loops. -/
def fjarebEntry (t : Fin 16) (tk : TickRegs) : Bool :=
  (tk.sourceKind = 1 || tk.sourceKind = 4) && tk.sourceNum.toNat = t.val && tk.programId.toNat < 0x8000
    && (entryLoops tk).any fun x => decide (loopTile x.2 = some t)
/-- LOOP_RATE_SET rewrites DIV and PHASE of the axis's entries of Fjareb programs (R297). -/
def rateEntry (t : Fin 16) (kv kp : Nat) (x : TickEntry) : TickEntry :=
  if fjarebEntry t x.regs then { x with regs := { x.regs with div := BitVec.ofNat 8 (entryDiv t kv kp x.regs - 1), phase := 0 } }
  else x
def rateEntries (t : Fin 16) (kv kp : Nat) (s : State) : State :=
  { s with engines := s.engines.map fun en => { en with ticks := en.ticks.map (rateEntry t kv kp) } }
def applyLoopRate (p : Packet) (s : State) : State :=
  rateEntries (tileOf p) (parNat p 1) (parNat p 2) (modLoopRegs (tileLoop (tileOf p) 2) (fun r => { r with
    k := parBits p 0 6, kv := parBits p 1 4, kpDiv := parBits p 2 4, localDiv := parBits p 3 6, spInterp := parBool p 4
    innerInterp := parBool p 5 }) s)
def stLoopRateSet : StageOp := { d := loopAxisOp 0x0602 6, accept := acceptLoopRate, check := axisOff, apply := applyLoopRate }
/-- LOOP_RATE_SET (R244, R247). -/
def execLoopRateSet (p : Packet) (s : State) : Host.Outcome State Fault Refusal := .next (stageRequest stLoopRateSet p s)

def stLoopTopSet : StageOp :=
  { d := loopAxisOp 0x0603 1
    accept := fun p _ => if parIn p 0 0 2 then Status.ok else Status.paramRange
    check := axisOff
    apply := fun p s => modLoopRegs (tileLoop (tileOf p) 2) (fun r => { r with top := parBits p 0 2 }) s }
/-- LOOP_TOP_SET (R248). -/
def execLoopTopSet (p : Packet) (s : State) : Host.Outcome State Fault Refusal := .next (stageRequest stLoopTopSet p s)

/-! ### Coefficients, modes, tuning (R259 to R267) -/

/-- The coefficient words 0x20 to 0x28 of the loop's context are filled (R305). -/
def fillCoefs (i : Fin 96) (s : State) : State :=
  match loopPlace s i with
  | none => s
  | some (e, k, c) =>
    let r := s.loops[i].regs
    stagingWrite e (some k) (c + 0x20) [r.kp, r.ki, r.kd, r.kff, r.dFilt, r.outMin, r.outMax,
      BitVec.ofInt 32 r.inShift.toInt, r.manOut] s
def acceptLoopCoef (p : Packet) (_ : State) : BitVec 16 :=
  let sh := (par p 7).toInt
  if (par p 6).toInt ≤ (par p 5).toInt || sh < -16 || 15 < sh || !parIn p 8 0 10000 then Status.paramRange else Status.ok
def applyLoopCoef (p : Packet) (s : State) : State :=
  fillCoefs (loopOf p) (modLoopRegs (loopOf p) (fun r => { r with
    kp := par p 0, ki := par p 1, kd := par p 2, kff := par p 3, dFilt := par p 4, outMin := par p 5, outMax := par p 6
    inShift := parBits p 7 6, satTime := parBits p 8 14 }) s)
def stLoopCoefSet : StageOp := { d := loopOp 0x0604 .mode 9, accept := acceptLoopCoef, apply := applyLoopCoef }
/-- LOOP_COEF_SET (R263). -/
def execLoopCoefSet (p : Packet) (s : State) : Host.Outcome State Fault Refusal := .next (stageRequest stLoopCoefSet p s)

def acceptLoopMode (p : Packet) (_ : State) : BitVec 16 :=
  if parIn p 0 0 1 && parIn p 1 0 1 && parIn p 2 0 1 then Status.ok else Status.paramRange
/-- The mode is taken at the loop's first tick at or after this instant (R259, R262).  A MAN_OUT other than the last one is
the value that overrides a tracked output (log entry 14). -/
def applyLoopMode (p : Packet) (s : State) : State :=
  fillCoefs (loopOf p) (modLoop (loopOf p) (fun l => { l with
    modeNext := some (parBits p 0 2), manStaged := par p 3 ≠ l.regs.manOut
    regs := { l.regs with reqMode := parBool p 0, bumpless := parBool p 1, manTrack := parBool p 2, manOut := par p 3 } }) s)
def stLoopModeSet : StageOp := { d := loopOp 0x0605 .mode 4, accept := acceptLoopMode, apply := applyLoopMode }
/-- LOOP_MODE_SET (R259 to R262). -/
def execLoopModeSet (p : Packet) (s : State) : Host.Outcome State Fault Refusal := .next (stageRequest stLoopModeSet p s)

def stLoopTuningSet : StageOp :=
  { d := loopOp 0x0606 .mode 1
    accept := fun p _ => if parIn p 0 0 1 then Status.ok else Status.paramRange
    apply := fun p s => modLoopRegs (loopOf p) (fun r => { r with tuning := parBool p 0 }) s }
/-- LOOP_TUNING_SET (R264, R267). -/
def execLoopTuningSet (p : Packet) (s : State) : Host.Outcome State Fault Refusal := .next (stageRequest stLoopTuningSet p s)

/-- A direct coefficient word reaches the module: it waits for its tick in tuning mode, and is ignored and counted outside
it (R264 to R267). -/
def directWrite (i : Fin 96) (coef : Fin 7) (v : Word) (s : State) : State :=
  if s.loops[i].regs.tuning then
    modLoop i (fun l => { l with direct := l.direct ++ [{ coef := coef, v := v, at_ := s.dt }] }) s
  else modLoopRegs i (fun r => { r with
    dwIgnoredSeen := true, dwIgnoredCount := satInc r.dwIgnoredCount, cntOvf := r.cntOvf || satFull r.dwIgnoredCount }) s
/-- DIRECT_COEF_WRITE (R264, R267). -/
def execDirectCoefWrite (i : Fin 96) (coef : Fin 7) (v : Word) (s : State) : Host.Outcome State Fault Refusal :=
  .next (directWrite i coef v s)

/-- The entry that holds a loop is running or pending. -/
def loopBusy (s : State) (i : Fin 96) : Bool :=
  match loopPlace s i with
  | some (e, k, _) => s.engines[e].running = some k || s.engines[e].ticks[k].pending
  | none => false
/-- A direct word goes into the loop's context; those after it wait. -/
def applyDirect (i : Fin 96) (w : DirectWrite) (rest : List DirectWrite) (s : State) : State :=
  fillCoefs i (modLoop i (fun l =>
    let l := coefWord { l with direct := rest } w.coef w.v
    { l with regs := { l.regs with
      dwWriteCount := satInc l.regs.dwWriteCount, cntOvf := l.regs.cntOvf || satFull l.regs.dwWriteCount } }) s)
def applyDirects (i : Fin 96) : List DirectWrite → List DirectWrite → State → State
  | [], _, s => s
  | w :: ws, rest, s => applyDirects i ws rest (applyDirect i w (ws ++ rest) s)
/-- The direct words that reached the module at least 1 us before a tick of the loop is due are in force at it (R265). -/
def takeDirects (i : Fin 96) (due : Fix) (s : State) : State :=
  let ws := s.loops[i].direct
  let old := ws.takeWhile fun w => decide (w.at_.toNat + 1000 * 2 ^ 32 ≤ due.toNat)
  if loopBusy s i then s else applyDirects i old (ws.drop old.length) s
/-- DIRECT_COEF_APPLY (R265, R306): the oldest direct word goes into the loop's context, while no entry that holds the loop
runs or is pending. -/
def execDirectCoefApply (i : Fin 96) (s : State) : Host.Outcome State Fault Refusal :=
  match s.loops[i].direct with
  | [] => .next s
  | w :: ws => .next (if loopBusy s i then s else applyDirect i w ws s)

/-! ### Supervisor, limiter, free loops (R243, R252, R268, R269) -/

/-- The loop that a supervisor model watches (R268). -/
def watchedLoop (t : Fin 16) (model : Nat) : Option (Fin 96) :=
  if model = 1 then some (tileLoop t 1) else if model = 2 then some (tileLoop t 2) else if model = 3 then some (tileLoop t 0) else none
/-- LOAD_BW is a float32 from 0.1 to 10 Hz, in units of 2^-16 Hz. -/
def loadBwOk (w : Word) : Bool := decide (6553 ≤ f32Fixed 16 w) && decide (f32Fixed 16 w ≤ 655360)
def acceptSupervisor (p : Packet) (_ : State) : BitVec 16 :=
  if parIn p 0 0 3 && (par p 0 ≠ 1 || loadBwOk (par p 4)) && parIn p 6 100 100000 && parIn p 7 1 1000
      && clsAllowed .note (par p 8) then Status.ok else Status.paramRange
/-- The loop watched takes the parameters; the axis's other loops carry no model (log entry 13). -/
def applySupervisor (p : Packet) (s : State) : State :=
  let t := tileOf p
  let s := (List.finRange 4).foldl (fun s l => modLoop (tileLoop t l) (fun x => { x with
    supSince := none, regs := { x.regs with supModel := 0, supActive := false } }) s) s
  match watchedLoop t (parNat p 0) with
  | none => s
  | some i => modLoop i (fun l => { l with
      clsSup := clsOf (par p 8)
      regs := { l.regs with
        supModel := parBits p 0 2, supKaKq := par p 1, supKbDb := par p 2, supKf := par p 3, supLoadBw := par p 4
        thrSup := par p 5, tauSup := parBits p 6 17, tSup := parBits p 7 10 } }) s
def stSupervisorConfig : StageOp := { d := loopAxisOp 0x0607 9, accept := acceptSupervisor, apply := applySupervisor }
/-- SUPERVISOR_CONFIG (R268, R269). -/
def execSupervisorConfig (p : Packet) (s : State) : Host.Outcome State Fault Refusal := .next (stageRequest stSupervisorConfig p s)

def acceptLimiter (p : Packet) (_ : State) : BitVec 16 :=
  let l := (par64 p 0).toNat
  if 1 ≤ l && decide (l ≤ 2 ^ 62) && clsAllowed .note (par p 2) then Status.ok else Status.paramRange
def stLimiterSet : StageOp :=
  { d := { op := 0x0608, cls := .b, stage := .yes, target := tBelow 80, params := (· = 3) }
    accept := acceptLimiter
    apply := fun p s => modAxis (axOf p) (fun ax => { ax with lagMax := par64 p 0, clsLag := clsOf (par p 2) }) s }
/-- LIMITER_SET (R252). -/
def execLimiterSet (p : Packet) (s : State) : Host.Outcome State Fault Refusal := .next (stageRequest stLimiterSet p s)

def acceptFreeLoop (p : Packet) (_ : State) : BitVec 16 :=
  if parIn p 3 0 2 && parIn p 4 0 15 then Status.ok else Status.paramRange
/-- The loop and the axis loop that it reaches run in one cluster (R243). -/
def checkFreeLoop (p : Packet) (s : State) : BitVec 16 :=
  let dest := if par p 3 = 1 then asFin 96 (4 * parNat p 4 + 1) else if par p 3 = 2 then asFin 96 (4 * parNat p 4) else none
  match dest with
  | none => Status.ok
  | some j =>
    if s.loops[j].regs.engine.toNat / 8 = s.loops[loopOf p].regs.engine.toNat / 8 then Status.ok else Status.freeLoopSource
def stFreeLoopConfig : StageOp :=
  { d := { op := 0x0609, cls := .b, stage := .yes, target := tBetween 64 95, params := (· = 5) }
    accept := acceptFreeLoop, check := checkFreeLoop
    apply := fun p s => modLoop (loopOf p) (fun l => { l with
      free := { configured := true, sp := par p 0, fb := par p 1, tick := par p 2, dest := parBits p 3 2, axis := parBits p 4 7 } }) s }
/-- FREE_LOOP_CONFIG (R243). -/
def execFreeLoopConfig (p : Packet) (s : State) : Host.Outcome State Fault Refusal := .next (stageRequest stFreeLoopConfig p s)

def dLoopStatus : OpDesc := { op := 0x060A, cls := .a, target := tBelow 96, params := (· = 0) }
def runLoopStatus (p : Packet) (s : State) : Reply :=
  okWith (wordsOf (loopWord s (loopOf p)) 0 21 ++ wordsOf (loopWord s (loopOf p)) 0x180 14) s
/-- LOOP_STATUS (R278). -/
def execLoopStatus (p : Packet) (s : State) : Host.Outcome State Fault Refusal :=
  .next (request dLoopStatus acceptAny runLoopStatus p s)

def dLoopPolicySet : OpDesc := { op := 0x060B, cls := .b, target := fun n => n < 96 || n = 0xFFFF, params := (· = 1) }
def acceptLoopPolicy (p : Packet) (_ : State) : BitVec 16 := if clsAllowed .note (par p 0) then Status.ok else Status.paramRange
def runLoopPolicy (p : Packet) (s : State) : Reply :=
  ok (if tgt p = 0xFFFF then { s with loops := s.loops.map fun l => { l with clsSat := clsOf (par p 0) } }
    else modLoop (loopOf p) (fun l => { l with clsSat := clsOf (par p 0) }) s)
/-- LOOP_POLICY_SET (R278). -/
def execLoopPolicySet (p : Packet) (s : State) : Host.Outcome State Fault Refusal :=
  .next (request dLoopPolicySet acceptLoopPolicy runLoopPolicy p s)

/-- LOOP_OUTPUT_SATURATED (R257): OUT has stayed clamped for longer than SAT_TIME; once in a run. -/
def execLoopOutputSaturated (i : Fin 96) (s : State) : Host.Outcome State Fault Refusal :=
  let l := s.loops[i]
  let isOver : Bool := l.satSince.any fun t => hasPassed t (l.regs.satTime.toNat * 1000000) s
  if isOver && !l.satRaised && l.regs.satTime ≠ 0 then
    .next (raise Ev.loopOutputSaturated (srcLoop s i) l.clsSat true (natWord i.val) 0 0 (loopAxis i).toList
      (modLoop i (fun l => { l with satRaised := true }) s))
  else .next s

/-- FEEDBACK_IMPLAUSIBLE (R269): the filtered residual has stayed above its threshold for T_SUP. -/
def execFeedbackImplausible (i : Fin 96) (s : State) : Host.Outcome State Fault Refusal :=
  let l := s.loops[i]
  let isOver : Bool := l.supSince.any fun t => hasPassed t (l.regs.tSup.toNat * 1000000) s
  if l.regs.supModel ≠ 0 && l.regs.supActive && isOver then
    .next (raise Ev.feedbackImplausible (srcLoop s i) l.clsSup false (natWord i.val) l.supRes 0 (loopAxis i).toList
      (modLoop i (fun l => { l with
        supSince := none
        regs := { l.regs with
          supViolSeen := true, supViolCount := satInc l.regs.supViolCount
          cntOvf := l.regs.cntOvf || satFull l.regs.supViolCount } }) s))
  else .next s

/-! ### Trace units (R271 to R275) -/

def unitOf (p : Packet) : Fin 4 := Fin.ofNat 4 (tgt p)
def traceOp (op : BitVec 16) (cls : ReplyClass) (params : Nat → Bool) : OpDesc :=
  { op := op, cls := cls, target := tBelow 4, params := params, block := fun n => if n < 4 then some (0x400 + n) else none }
/-- A unit that is armed or still records. -/
def traceArmed (tr : Trace) : Bool := tr.regs.trState = 1 || tr.regs.trState = 2 || tr.regs.trState = 3
/-- A selector that a unit of cluster c may record (R272). -/
def selectorStatus (s : State) (c : Fin 4) (w : Word) : BitVec 16 :=
  let kind := (w >>> 28).toNat
  let unit := (w.extractLsb' 16 7).toNat
  if kind = 0 then
    match asFin 96 unit with
    | some i =>
      if 12 ≤ (w.extractLsb' 0 4).toNat then Status.paramRange
      else if s.loops[i].regs.engine.toNat / 8 = c.val then Status.ok else Status.traceSignalCluster
    | none => Status.paramRange
  else if kind = 1 then (if unit < 112 && (w.extractLsb' 0 4).toNat ≤ 6 then Status.ok else Status.paramRange)
  else if kind = 2 then (if (w.extractLsb' 16 5).toNat / 8 = c.val then Status.ok else Status.traceSignalCluster)
  else Status.paramRange
def dTraceConfig : OpDesc := traceOp 0x0610 .b (fun n => 15 ≤ n && n ≤ 78)
/-- Bytes of the other units' partitions. -/
def traceOthers (s : State) (u : Fin 4) : Nat :=
  ((List.finRange 4).map fun v => if v = u then 0 else s.traces[v].regs.memSize.toNat).foldl (· + ·) 0
def acceptTraceConfig (p : Packet) (s : State) : BitVec 16 :=
  let u := unitOf p
  let n := parNat p 13
  let bytes := 65536 * parNat p 0
  let inCluster : Bool := (asFin 96 (parNat p 1)).any fun i => s.loops[i].regs.engine.toNat / 8 = u.val
  if traceArmed s.traces[u] then Status.traceBusy
  else if !(parIn p 0 0 64 && parIn p 1 0 95 && parIn p 2 1 65536 && parIn p 5 0 15 && parIn p 11 0 3 && parIn p 12 0 15
      && parIn p 13 1 64 && parNat p 9 < n && p.params.length = 14 + n) then Status.paramRange
  else if !inCluster then Status.traceSignalCluster
  else if bytes ≠ 0 && bytes < (parNat p 3 + parNat p 4 + 1) * (4 * (2 + n)) then Status.paramRange
  else if 4194304 < traceOthers s u + bytes then Status.traceMemoryFull
  else firstBad ((p.params.drop 14).map (selectorStatus s u))
/-- The lowest base at which a partition of n bytes overlaps no other unit's; with none, the end of the others. -/
def traceBase (s : State) (u : Fin 4) (n : Nat) : Nat :=
  let others := ((List.finRange 4).filter fun v => v ≠ u).map fun v =>
    (s.traces[v].regs.memBase.toNat, s.traces[v].regs.memBase.toNat + s.traces[v].regs.memSize.toNat)
  let free (b : Nat) : Bool := decide (b + n ≤ 4194304) && others.all fun x => decide (x.1 = x.2) || decide (b + n ≤ x.1) || decide (x.2 ≤ b)
  let ends := 0 :: others.map (·.2)
  match ends.filter free with
  | [] => traceOthers s u
  | b :: bs => bs.foldl min b
def runTraceConfig (p : Packet) (s : State) : Reply :=
  let u := unitOf p
  let sels := p.params.drop 14
  let bytes := 65536 * parNat p 0
  ok (modTrace u (fun tr => { tr with
    loop := parBits p 1 7, div := parNat p 2, pre := parNat p 3, post := parNat p 4, conds := parBits p 5 4
    evCode := parBits p 6 16, evMask := parBits p 7 16, evValue := parBits p 8 16, sigIdx := parNat p 9, thr := par p 10
    edge := parBits p 11 2, cu := parBits p 12 4, nSig := parNat p 13, ticks := 0, wrote := 0, sincePost := 0, dues := []
    regs := { tr.regs with
      trState := 0, memBase := natWord (traceBase s u bytes), memSize := natWord bytes
      signalSel := Vector.ofFn fun i => sels.getD i.val 0 } }) s)
/-- TRACE_CONFIG (R271, R272, R274). -/
def execTraceConfig (p : Packet) (s : State) : Host.Outcome State Fault Refusal :=
  .next (request dTraceConfig acceptTraceConfig runTraceConfig p s)

def dTraceArm : OpDesc := traceOp 0x0611 .b (· = 0)
/-- A unit without a partition or a signal has nothing to record into. -/
def acceptTraceArm (p : Packet) (s : State) : BitVec 16 :=
  let tr := s.traces[unitOf p]
  if tr.nSig = 0 || tr.regs.memSize = 0 then Status.notConfigured else Status.ok
def armTrace (tr : Trace) : Trace :=
  { tr with
    ticks := 0, wrote := 0, sincePost := 0, dues := [], lostDue := none, evAt := none, cmpAt := none, force := false
    regs := { tr.regs with
      trState := if tr.pre = 0 then 2 else 1, recordsWritten := 0, oldestOffset := 0 } }
def runTraceArm (p : Packet) (s : State) : Reply := ok (modTrace (unitOf p) armTrace s)
/-- TRACE_ARM (R274). -/
def execTraceArm (p : Packet) (s : State) : Host.Outcome State Fault Refusal :=
  .next (request dTraceArm acceptTraceArm runTraceArm p s)

def dTraceForce : OpDesc := { traceOp 0x0612 .b (· = 0) with prio := true }
def runTraceForce (p : Packet) (s : State) : Reply :=
  ok (modTrace (unitOf p) (fun tr => if tr.regs.trState = 1 || tr.regs.trState = 2 then { tr with force := true } else tr) s)
/-- TRACE_FORCE (R274). -/
def execTraceForce (p : Packet) (s : State) : Host.Outcome State Fault Refusal :=
  .next (request dTraceForce acceptAny runTraceForce p s)

def dTraceStop : OpDesc := traceOp 0x0613 .b (· = 0)
/-- A recording ends at once, with TRACE_COMPLETE (R275). -/
def stopTrace (u : Fin 4) (s : State) : State :=
  if traceArmed s.traces[u] then
    note Ev.traceComplete (srcTrace u) 1 0 0 (modTrace u (fun tr => { tr with regs := { tr.regs with trState := 5, completeSeen := true } }) s)
  else s
def runTraceStop (p : Packet) (s : State) : Reply :=
  okWith [s.traces[unitOf p].regs.recordsWritten] (stopTrace (unitOf p) s)
/-- TRACE_STOP (R275). -/
def execTraceStop (p : Packet) (s : State) : Host.Outcome State Fault Refusal :=
  .next (request dTraceStop acceptAny runTraceStop p s)

def dTraceStatus : OpDesc := traceOp 0x0614 .a (· = 0)
def runTraceStatus (p : Packet) (s : State) : Reply := okWith (wordsOf (readTraceRegs s.traces[unitOf p].regs) 0 11) s
/-- TRACE_STATUS (R278). -/
def execTraceStatus (p : Packet) (s : State) : Host.Outcome State Fault Refusal :=
  .next (request dTraceStatus acceptAny runTraceStatus p s)

/-- TRACE_COMPLETE (R274): the unit has its POST samples. -/
def execTraceComplete (u : Fin 4) (s : State) : Host.Outcome State Fault Refusal := .next (traceDone u s)

end Sys2Proof.Machine
end

