-- ==== Sys2Proof/Machine/Tiles.lean ====
section
/-! DEFINITION. Group 0x08: power tiles, their carrier and update instants, faults, block commutation, brake choppers and
DC-link groups (R318 to R355). -/

namespace Sys2Proof.Machine

def modTileRegs (t : Fin 16) (f : TileRegs → TileRegs) (s : State) : State := modTile t (fun tl => { tl with regs := f tl.regs }) s
def modFoc (t : Fin 16) (f : Foc → Foc) (s : State) : State := modTile t (fun tl => { tl with foc := f tl.foc }) s
def modFocRegs (t : Fin 16) (f : FocRegs → FocRegs) (s : State) : State := modFoc t (fun x => { x with regs := f x.regs }) s
def tileOp (op : BitVec 16) (stage : Stageable) (n : Nat) : OpDesc :=
  { op := op, cls := .b, stage := stage, target := tBelow 16, params := (· = n) }
def tileFromPacket (p : Packet) : Fin 16 := Fin.ofNat 16 (tgt p)

/-! ### The carrier (R324 to R327) -/

/-- The integer nearest to n / d, a tie going either way. -/
def nearest (k : Nat) (n d : Nat) : Nat :=
  if 2 * (n % d) = d then n / d + Config.freeNat k % 2 else if 2 * (n % d) < d then n / d else n / d + 1

/-- 400 MHz clocks since DT 0. -/
def clockNow (s : State) : Nat := s.dt.toNat / 0x280000000

/-- Length of the transition period to a new grid that starts at clock b (R327). -/
def transitionLen (b period phase : Nat) : Nat :=
  let lo := b + (period + 1) / 2
  lo + (phase + period - lo % period) % period - b

/-- The settings in force become these. -/
def putSettings (x : PwmSettings) (r : TileRegs) : TileRegs :=
  { r with
    periodClk := x.period, phaseClk := x.phase, centre := x.centre, double := x.double, minpulse := x.stretch
    minPulse := x.minPulse, deadtime := x.deadtime, dtcEn := x.dtcEn }

/-! ### Closing a period (R331) -/

/-- The carry of leg h at the end of its period. -/
def closeLeg (t : Fin 16) (h : Fin 4) (s : State) : State :=
  let tl := s.tiles[t]
  let l := tl.pw.legs[h].cut tl.pw.segLen
  let p := 32 * tl.pw.periodNow
  let s := modTile t (fun tl => { tl with pw := { tl.pw with legs := tl.pw.legs.set h { l with real := 0 } } }) s
  if l.force ≠ 0 then s
  else
    let (c, lost) := newCarry p l.cmd l.real
    let s := modTileRegs t (fun r => { r with carry := r.carry.set h (BitVec.ofInt 32 c) }) s
    if lost = 0 then s
    else
      note Ev.pwmCarrySat (srcTile t) (natWord h.val) (BitVec.ofNat 32 (min lost 0xFFFFFFFF)) 0
        (modTileRegs t (fun r => { r with
          carryLost := satAdd r.carryLost lost, carrySatCount := satInc r.carrySatCount, carrySatSeen := true
          cntOvf := r.cntOvf || satFull r.carrySatCount || decide (2 ^ 64 ≤ r.carryLost.toNat + lost) }) s)

/-- The half-bridges that follow duty words in the tile's mode (R318). -/
def dutyLegs (mode : BitVec 2) : List (Fin 4) :=
  if mode = 1 then [0, 1, 2] else if mode = 3 then [0, 1, 2, 3] else []

/-! ### Sample windows of LEG_SHUNT (R366 to R368) -/

/-- The tile measures in its legs. -/
def legShunt (tl : Tile) : Bool := tl.regs.mode = 1 && tl.foc.regs.sense
/-- WIN_LEN and T_SETTLE, in fifths of 78.125 ps units. -/
def windowFifths (tl : Tile) (h : Fin 4) : Nat :=
  64 * (tl.foc.regs.winLen.toNat + tl.foc.regs.tSettle.toNat) + 5 * tl.regs.deadtime[h].toNat
/-- The window of phase h at the end of the period was valid: its low side had settled. -/
def windowValid (tl : Tile) (h : Fin 4) : Bool :=
  let (hi, age) := (tl.pw.legs[h]).at_ tl.pw.segLen
  !hi && windowFifths tl h ≤ 5 * age
/-- Start of the high interval of width w in a period p: centred, or moved to free the window (R367). -/
def legStart (tl : Tile) (h : Fin 4) (p w : Nat) : Nat × Bool :=
  let a := (p - w) / 2
  if !(legShunt tl && tl.foc.regs.shiftEn) || w = 0 || p ≤ w then (a, false)
  else if 5 * (a + w) + windowFifths tl h ≤ 5 * p then (a, false)
  else if 5 * p < windowFifths tl h + 5 * w then (a, false)
  else
    let a' := (2 * (5 * p - windowFifths tl h - 5 * w) + 5) / 10
    (if a' < minInterval tl h then 0 else a', true)

/-- The tile reports the window of the period that ends (R368). -/
def closeWindow (t : Fin 16) (s : State) : State :=
  let tl := s.tiles[t]
  if !legShunt tl then s
  else
    let v (h : Fin 4) : Bool := windowValid tl h
    let n := (if v 0 then 1 else 0) + (if v 1 then 1 else 0) + (if v 2 then 1 else 0)
    let case_ : Nat := if n = 3 then 0 else if n = 2 then 1 else 2
    let missing : Nat := if n ≠ 2 then 0 else if !v 0 then 0 else if !v 1 then 1 else 2
    let shifted := tl.foc.shifted
    let word := bitAt (v 0) 0 ||| bitAt (v 1) 1 ||| bitAt (v 2) 2 ||| (shifted.zeroExtend 32 <<< 3) ||| (natWord case_ <<< 6)
      ||| (natWord missing <<< 8) ||| (tl.regs.periodCount <<< 16)
    let sh := case_ ≠ 2 && shifted ≠ 0
    let good := if case_ = 2 then 0 else tl.foc.goodRun + 1
    let ends := tl.foc.noWindow && 64 ≤ good
    let s := modFoc t (fun f => { f with
      senseStat := word, winDt := nsLo s.dt, predRun := if case_ = 2 then f.predRun + 1 else 0, goodRun := good
      noWindow := f.noWindow && !ends
      regs := { f.regs with
        shiftCount := if sh then satInc f.regs.shiftCount else f.regs.shiftCount
        reconCount := if case_ = 1 then satInc f.regs.reconCount else f.regs.reconCount
        predictCount := if case_ = 2 then satInc f.regs.predictCount else f.regs.predictCount
        cntOvf := f.regs.cntOvf || (sh && satFull f.regs.shiftCount) || (case_ = 1 && satFull f.regs.reconCount)
          || (case_ = 2 && satFull f.regs.predictCount) } }) s
    if ends then clearCond Ev.senseNoWindow [tileAxis t] s else s

/-! ### Update instants (R326 to R335) -/

/-- Forced state of half-bridge h: that of LEG_CTL, else in block commutation its Hall entry (R334, R336). -/
def legForce (tl : Tile) (h : Fin 4) : BitVec 2 :=
  let f := (tl.regs.legCtlInForce.extractLsb' (2 * h.val) 2)
  if f ≠ 0 then f
  else if tl.regs.block && tl.regs.mode = 1 && h.val < 3 then
    (tl.regs.hallEntry[tl.regs.hallState.toFin]).extractLsb' (2 * h.val) 2
  else 0

/-- Commanded leg-high time of half-bridge h before its carry: the duty, compensated for dead time (R328, R329). -/
def dutyWidth (tl : Tile) (h : Fin 4) (p k : Nat) : Int :=
  let d := tl.regs.dutyInForce[h]
  let w : Nat := if d = 0xFFFFFFFF then p else nearest k (d.toNat * p) (2 ^ 32)
  if tl.regs.dtcEn.getLsbD h.val then
    (if tl.regs.legCtlInForce.getLsbD (8 + h.val) then (w : Int) - tl.regs.deadtime[h].toNat
      else (w : Int) + tl.regs.deadtime[h].toNat)
  else w

/-- Places the edges of leg h for the segment that begins now: the period, or its second half. -/
def startLeg (half : Bool) (k : Nat) (h : Fin 4) (tl : Tile) : Tile :=
  let p := 32 * tl.pw.periodNow
  let f := legForce tl h
  let l := tl.pw.legs[h]
  let want := dutyWidth tl h p k + tl.regs.carry[h].toInt
  let w := (clampInt 0 p want).toNat
  let (a, sh) := legStart tl h p w
  let cmd := if half then (if (l.cmd + want) % 2 = 0 then (l.cmd + want) / 2 else (l.cmd + want) / 2 + (Config.freeNat k % 2 : Nat))
    else want
  let lead := if w % 2 = 0 then w / 2 else w / 2 + Config.freeNat k % 2
  let gs := dutyToggles tl.regs.centre tl.regs.double half l.kept p w a lead
  let l := { l with force := f, cmd := cmd, plan := gs }
  let tl := { tl with
    pw := { tl.pw with legs := tl.pw.legs.set h l }
    foc := if half then tl.foc else { tl.foc with
      shifted := if sh && f = 0 then tl.foc.shifted ||| BitVec.ofNat 3 (2 ^ h.val)
        else tl.foc.shifted &&& ~~~(BitVec.ofNat 3 (2 ^ h.val)) } }
  placeLeg h (if f ≠ 0 then forcedToggles f else gs) tl

/-- The segment that begins now, on every leg that follows duties; one free value per leg for the roundings that the spec
leaves open. -/
def startSegment (t : Fin 16) (half : Bool) (s : State) : State :=
  let k := s.freeCtr
  let len := if s.tiles[t].regs.double then 16 * s.tiles[t].pw.periodNow else 32 * s.tiles[t].pw.periodNow
  let s := modTile t (fun tl =>
    let tl := { tl with pw := { tl.pw with segStart := s.dt, segLen := len } }
    (dutyLegs tl.regs.mode).foldl (fun tl h => startLeg half (k + h.val) h tl) tl) s
  { s with freeCtr := k + 4 }

/-- The tile takes its duty words and its PWM control group (R333, R334). -/
def takeWords (t : Fin 16) (s : State) : State :=
  let legCtl := tileGet s t 0x84
  let tag := tileGet s t 0x87
  let duty : Vector Word 4 := Vector.ofFn fun h => tileGet s t (0x80 + h.val)
  modTile t (fun tl => { tl with
    regs := { tl.regs with dutyInForce := duty, legCtlInForce := legCtl }
    pw := { tl.pw with tag := tag.extractLsb' 0 16 } }) s

/-- One parameter packet of TILE_PWM_SET as settings. -/
def settingsOf (p : Packet) : PwmSettings :=
  { period := parBits p 0 18, phase := parBits p 1 18, centre := parBool p 2, double := parBool p 3, stretch := parBool p 4
    minPulse := parBits p 5 16
    deadtime := #v[parBits p 6 16, parBits p 7 16, parBits p 8 16, parBits p 9 16], dtcEn := parBits p 10 4 }

/-- A period boundary: new settings apply, with a transition period where the grid of a synchronised tile changes (R327). -/
def takeSettings (t : Fin 16) (s : State) : State :=
  let tl := s.tiles[t]
  match tl.pw.pwmNext with
  | none => modTile t (fun tl => { tl with pw := { tl.pw with periodNow := tl.regs.periodClk.toNat, transition := false } }) s
  | some x =>
    let moved := !tl.regs.localField && (x.period ≠ tl.regs.periodClk || x.phase ≠ tl.regs.phaseClk)
    let len := if moved then transitionLen (clockNow s) x.period.toNat x.phase.toNat else x.period.toNat
    modTile t (fun tl => { tl with
      regs := putSettings x tl.regs
      pw := { tl.pw with pwmNext := none, periodNow := len, transition := moved } }) s

/-- A local tile takes what LOAD_ALL armed at the boundary: an arm less than 3 clocks old may wait for the next (R335). -/
def takesLoad (s : State) (t : Fin 16) : Bool :=
  let tl := s.tiles[t]
  tl.regs.loadPending && (decide (3 * 0x280000000 ≤ s.dt.toNat - tl.pw.armAt.toNat) || freeBool s)
def takeLoadAll (t : Fin 16) (s : State) : State :=
  let q := s.tiles[t].pw.loadQ
  let s := takeWords t (drawn s)
  modTile t (fun tl => { tl with
    regs := { tl.regs with
      loadPending := false, loadAllCount := satInc tl.regs.loadAllCount
      cntOvf := tl.regs.cntOvf || satFull tl.regs.loadAllCount }
    pw := { tl.pw with loadQ := [], pwmNext := match q.getLast? with
      | some c => some (settingsOf c.p)
      | none => tl.pw.pwmNext } }) s

/-- Counts an update instant and writes the status group (R338). -/
def countUpdate (t : Fin 16) (s : State) : State :=
  writeTileStatus t (modTile t (fun tl => { tl with pw := { tl.pw with updates := tl.pw.updates + 1 } }) s)

/-- An update instant takes the tile from OFF to RUN where its first current tick is done (R322). -/
def enterRun (t : Fin 16) (s : State) : State :=
  if entersRun s t then
    modTile t (fun tl =>
      let tl := setTileState 2 tl
      { tl with pw := { tl.pw with legs := Vector.replicate 4 {}, firstTick := false }, foc := { tl.foc with stateAt := s.dt } }) s
  else s
/-- A period starts; the flag says that the one before it ran to its end, so that its carries and window count. -/
def startPeriod (t : Fin 16) (whole : Bool) (s : State) : State :=
  let was := s.tiles[t].regs.tileState = 2
  let s := if was && whole then (dutyLegs s.tiles[t].regs.mode).foldl (fun s h => closeLeg t h s) (closeWindow t s)
    else modTile t (fun tl => { tl with pw := { tl.pw with legs := tl.pw.legs.map fun l => { l.cut (segNow s tl) with real := 0 } } }) s
  let s := if s.tiles[t].regs.localField then (if takesLoad s t then takeLoadAll t s else s) else takeWords t s
  let s := takeSettings t (enterRun t s)
  let s := modTile t (fun tl => { tl with
    regs := { tl.regs with periodCount := tl.regs.periodCount + 1 }
    pw := { tl.pw with periodStart := s.dt } }) s
  countUpdate t (if s.tiles[t].regs.tileState = 2 then startSegment t false s else s)

/-- The centre of a period under double update. -/
def centreUpdate (t : Fin 16) (s : State) : State :=
  let s := modTile t (fun tl => { tl with pw := { tl.pw with legs := tl.pw.legs.map fun l => l.cut tl.pw.segLen } }) s
  let s := if s.tiles[t].regs.localField then s else enterRun t (takeWords t s)
  countUpdate t (if s.tiles[t].regs.tileState = 2 then startSegment t true s else s)

/-- This 400 MHz edge is a period boundary of the tile's carrier, or under double update its centre: on the grid of DT for a
synchronised tile, a transition period running its length, and on the tile's own grid in local mode (R325 to R327).  The centre
of a period of an odd number of clocks lies between two edges, and either may be taken. -/
def onCarrier (s : State) (t : Fin 16) (centre : Bool) : Bool :=
  let tl := s.tiles[t]
  let now := clockNow s
  let from_ := tl.pw.periodStart.toNat / 0x280000000
  let p := max 1 tl.pw.periodNow
  if centre then decide (from_ ≤ now) && (now - from_ = p / 2 || now - from_ = (p + 1) / 2)
  else if tl.regs.localField then tl.regs.tileState ≠ 2 || (decide (from_ < now) && (now - from_) % p = 0)
  else
    let n := max 1 tl.regs.periodClk.toNat
    (now + n - tl.regs.phaseClk.toNat % n) % n = 0 && (!tl.pw.transition || now < from_ || decide (from_ + p ≤ now))
/-- PWM_UPDATE_INSTANT on the tile's hardware (R333). -/
def pwmUpdate (t : Fin 16) (centre : Bool) (s : State) : State :=
  if !carrierRuns s t || !onCarrier s t centre then s
  else if centre then (if s.tiles[t].regs.double then centreUpdate t s else s)
  else startPeriod t true s

/-- A compare unit restarts the carrier of a local tile (R327, R330). -/
def resyncTile (t : Fin 16) (s : State) : State :=
  let tl := s.tiles[t]
  if tl.regs.localField && tl.regs.tileState = 2 then
    startPeriod t false (modTileRegs t (fun r => { r with
      resyncCount := satInc r.resyncCount, cntOvf := r.cntOvf || satFull r.resyncCount }) s)
  else s

/-- The legs take new forced states in the middle of a segment: what remains of it is placed anew (R330, R336). -/
def reforceLegs (t : Fin 16) (s : State) : State :=
  modTile t (fun tl =>
    let e := segNow s tl
    let gone := { tl with pw := { tl.pw with segStart := s.dt, segLen := tl.pw.segLen - e } }
    (dutyLegs tl.regs.mode).foldl (fun (acc : Tile) h =>
      let l := tl.pw.legs[h]
      let f := legForce tl h
      let rest := planRest e l.plan
      placeLeg h (if f ≠ 0 then forcedToggles f else rest) { acc with pw := { acc.pw with legs := acc.pw.legs.set h { l.cut e with force := f, plan := rest } } }) gone) s

/-! ### Fault input (R339 to R342) -/

/-- TILE_FAULT_INPUT (R340): Ttt_FLT_n has been low for this long, or is high again. -/
def execTileFaultInput (t : Fin 16) (low : Bool) (ns : Nat) (s : State) : Host.Outcome State Fault Refusal :=
  let tl := s.tiles[t]
  let need := if tl.regs.fltFilt = 0 then 5 else 10 * tl.regs.fltFilt.toNat
  let trips := need ≤ ns || (need ≤ ns + 20 && freeBool s)
  if !low then .next (modTileRegs t (fun r => { r with tripInput := false }) s)
  else if !tl.regs.fltEn || tl.regs.tripInput then .next s
  else if !trips then .next (drawn s)
  else
    let s := modTileRegs t (fun r => { r with
      trip := true, tripInput := true, tripSeen := true, lastTripDt := nsOf s.dt, tripCount := satInc r.tripCount
      cntOvf := r.cntOvf || satFull r.tripCount }) (drawn s)
    let s := record { code := Ev.tileTrip, src := srcTile t, t := s.dt, cls := .vent, p0 := natWord tl.regs.fltFilt.toNat } s
    .next (ventTile t 0 (latchFault Ev.tileTrip true (tileAxis t) s))

/-! ### Block commutation (R336, R337) -/

def hallRuns (tl : Tile) : Bool := tl.regs.block && tl.regs.mode = 1
/-- HALL_EDGE (R336, R337): the encoder inputs of the tile show a new Hall state. -/
def execHallEdge (t : Fin 16) (h : BitVec 3) (s : State) : Host.Outcome State Fault Refusal :=
  if !hallRuns s.tiles[t] then .next s
  else
    let bad := h = 0 || h = 7
    let s := modTile t (fun tl => { tl with
      pw := { tl.pw with hallBad := bad }
      regs := { tl.regs with
        hallState := h, hallEdgeCount := satInc tl.regs.hallEdgeCount
        hallIllegalCount := if bad then satInc tl.regs.hallIllegalCount else tl.regs.hallIllegalCount
        hallIllegalSeen := tl.regs.hallIllegalSeen || bad
        cntOvf := tl.regs.cntOvf || satFull tl.regs.hallEdgeCount || (bad && satFull tl.regs.hallIllegalCount) } }) s
    let s := if s.tiles[t].regs.tileState = 2 then reforceLegs t s else s
    let s := writeTileStatus t s
    .next (if bad then raise Ev.hallIllegal (srcTile t) s.policy.hallIllegal true (h.zeroExtend 32) 0 0 [tileAxis t] s
      else clearCond Ev.hallIllegal [tileAxis t] s)

/-! ### Brake choppers and DC-link groups (R346 to R351) -/

/-- The group of a member tile. -/
def tileGroup (tl : Tile) : Option (Fin 4) := if tl.regs.dclMember then some tl.regs.dcl.toFin else none
/-- An SD3 sample in mV (R346). -/
def vdcMilli (s : State) (g : Fin 4) (sample : Word) : Word :=
  sat32 (sample.toInt * (s.dcls[g].regs.vdcFsMv.toNat : Int) / 2 ^ 31)
/-- Member axes of a group. -/
def groupAxes (s : State) (g : Fin 4) : List (Fin 112) := (dclMembers s g).map tileAxis
/-- Source of a group's events: its lowest member. -/
def srcGroup (s : State) (g : Fin 4) : BitVec 16 :=
  match dclMembers s g with
  | t :: _ => srcTile t
  | [] => srcTile 0
/-- The group registers that follow from its members. -/
def dclRefresh (g : Fin 4) (s : State) : State :=
  let ms := dclMembers s g
  let mask := ms.foldl (fun (x : BitVec 16) t => x ||| BitVec.ofNat 16 (2 ^ t.val)) 0
  let vs := (ms.filter fun t => s.tiles[t].pw.vdcSeen).map fun t => s.tiles[t].pw.vdc
  modDcl g (fun x => { x with regs := { x.regs with
    members := mask, chopperOnAny := ms.any fun t => s.tiles[t].pw.chopOn
    vdcMax := vs.foldl (fun a v => if a.toInt < v.toInt then v else a) (vs.headD 0)
    vdcMin := vs.foldl (fun a v => if v.toInt < a.toInt then v else a) (vs.headD 0) } }) s

/-- The chopper changes at an instant: a turn-on notes its reading and is counted (R347, R348). -/
def chopperToggle (t : Fin 16) (g : Fin 4) (at_ : Fix) (s : State) : State :=
  if s.tiles[t].pw.chopOn then
    writeTileStatus t (modTile t (fun tl => { tl with pw := { tl.pw with chopOn := false, chopOffAt := at_, chopDue := none } }) s)
  else
    let s := modTile t (fun tl => { tl with pw := { tl.pw with chopOn := true, chopAt := at_, chopOk := false, chopDue := none } }) s
    writeTileStatus t (modDcl g (fun x => { x with regs := { x.regs with
      chopperOnCount := satInc x.regs.chopperOnCount, cntOvf := x.regs.cntOvf || satFull x.regs.chopperOnCount } }) s)
/-- A change that waited for the end of t_m has taken place by now. -/
def chopperSettle (t : Fin 16) (g : Fin 4) (s : State) : State :=
  match s.tiles[t].pw.chopDue with
  | some at_ => if at_.toNat ≤ s.dt.toNat then chopperToggle t g at_ s else s
  | none => s
/-- The chopper is to change: its interval, which obeys R330, ends at t_m at the earliest, with MIN_PULSE for t_m since dead
time does not apply; what waits is counted as a stretch (R347). -/
def chopperChange (t : Fin 16) (g : Fin 4) (s : State) : State :=
  let tl := s.tiles[t]
  let since := if tl.pw.chopOn then tl.pw.chopAt else tl.pw.chopOffAt
  let end_ := since.toNat + 0x14000000 * tl.regs.minPulse.toNat
  if tl.pw.chopDue.isSome then s
  else if s.dt.toNat < end_ then
    modTile t (fun tl => { tl with
      pw := { tl.pw with chopDue := some (BitVec.ofNat 96 end_) }
      regs := { tl.regs with
        stretchCount := satInc tl.regs.stretchCount, cntOvf := tl.regs.cntOvf || satFull tl.regs.stretchCount } }) s
  else chopperToggle t g s.dt s
/-- The chopper of a tile at its own SD3 reading (R347, R348); it works in RUN (log entry 91). -/
def chopperSample (t : Fin 16) (g : Fin 4) (v : Word) (s : State) : State :=
  let s := chopperSettle t g s
  let tl := s.tiles[t]
  let r := s.dcls[g].regs
  let may := tl.regs.tileState = 2 && tl.regs.mode = 1 && tl.regs.brakeEn && !tl.regs.chopperVented
  let on := decide ((r.vBrkOn.toNat : Int) ≤ v.toInt) && r.vBrkOn ≠ 0
  if tl.pw.chopOn then
    if v.toInt ≤ r.vBrkOff.toNat then chopperChange t g s
    else if v.toInt ≤ tl.pw.chopV.toInt - r.dvChk.toNat then
      modTile t (fun tl => { tl with pw := { tl.pw with chopOk := true } }) s
    else s
  else if may && on then chopperChange t g (modTile t (fun tl => { tl with pw := { tl.pw with chopV := v } }) s)
  else s

/-- DCL_OVERVOLT (R350): every member vents. -/
def dclOvervolt (g : Fin 4) (v : Word) (s : State) : State :=
  let s := modDcl g (fun x => { x with regs := { x.regs with
    ovpVented := true, ovpSeen := true, ovpCount := satInc x.regs.ovpCount, cntOvf := x.regs.cntOvf || satFull x.regs.ovpCount } }) s
  let s := record { code := Ev.dclOvervolt, src := srcGroup s g, t := s.dt, cls := .vent, p0 := natWord g.val, p1 := v } s
  (dclMembers s g).foldl (fun s t => ventTile t 2 (latchFault Ev.dclOvervolt true (tileAxis t) s)) s

/-- DCL_UNDERVOLT (R351). -/
def dclUndervolt (g : Fin 4) (v : Word) (s : State) : State :=
  let s := modDcl g (fun x => { x with regs := { x.regs with
    undervolt := true, uvSeen := true, uvCount := satInc x.regs.uvCount, cntOvf := x.regs.cntOvf || satFull x.regs.uvCount } }) s
  raise Ev.dclUndervolt (srcGroup s g) s.policy.dclUnder true (natWord g.val) v 0 (groupAxes s g) s

/-- Every member reads above the level at which DCL_UNDERVOLT clears (R351). -/
def uvGone (s : State) (g : Fin 4) : Bool :=
  let r := s.dcls[g].regs
  (dclMembers s g).all fun t =>
    decide (16 * (r.vUv.toNat : Int) + ((r.vBrkOff.toNat : Int) - r.vUv.toNat) < 16 * s.tiles[t].pw.vdc.toInt)
/-- How long they have read so. -/
def uvWatch (g : Fin 4) (s : State) : State :=
  let from_ := if uvGone s g then some ((s.dcls[g].uvFrom).getD s.dt) else none
  modDcl g (fun x => { x with uvFrom := from_ }) s

/-- An SD3 sample of a member tile. -/
def vdcSample (t : Fin 16) (sample : Word) (s : State) : State :=
  match tileGroup s.tiles[t] with
  | none => s
  | some g =>
    let v := vdcMilli s g sample
    let s := modTile t (fun tl => { tl with pw := { tl.pw with vdc := v, vdcSeen := true } }) s
    let s := uvWatch g (dclRefresh g (chopperSample t g v s))
    let r := s.dcls[g].regs
    let s := if r.vOvp ≠ 0 && (r.vOvp.toNat : Int) ≤ v.toInt && !r.ovpVented then dclOvervolt g v s else s
    if r.vUv ≠ 0 && v.toInt < (r.vUv.toNat : Int) && !r.undervolt then dclUndervolt g v s else s

/-- BRAKE_CHECK_EXPIRY (R348, R349): T_CHK after the turn-on nothing has shown the brake resistor working. -/
def execBrakeCheckExpiry (t : Fin 16) (s : State) : Host.Outcome State Fault Refusal :=
  match tileGroup s.tiles[t] with
  | none => .next s
  | some g =>
    let s := chopperSettle t g s
    let tl := s.tiles[t]
    if !tl.pw.chopOn || tl.pw.chopOk || !hasPassed tl.pw.chopAt (1000 * s.dcls[g].regs.tChk.toNat) s then .next s
    else
      let s := modTile t (fun tl => { tl with
        pw := { tl.pw with chopOn := false, chopDue := none }, regs := { tl.regs with chopperVented := true } }) s
      let s := modDcl g (fun x => { x with regs := { x.regs with
        brakeIneff := true, brakeSeen := true, regenLimited := true, brakeIneffCount := satInc x.regs.brakeIneffCount
        cntOvf := x.regs.cntOvf || satFull x.regs.brakeIneffCount } }) s
      let s := raise Ev.brakeIneffective (srcGroup s g) s.policy.brakeIneff true (natWord g.val) tl.pw.chopV 0 (groupAxes s g) s
      let s := (dclMembers s g).foldl (fun s u => writeTileStatus u (modTileRegs u (fun r => { r with regenClamp := true }) s)) s
      .next (dclRefresh g (note Ev.regenLimited (srcGroup s g) (natWord g.val) 0 0 s))

/-- DCL_UNDERVOLT_CLEAR (R351): the members have read above the level for 10 ms. -/
def execDclUndervoltClear (g : Fin 4) (s : State) : Host.Outcome State Fault Refusal :=
  if s.dcls[g].regs.undervolt && uvGone s g && (s.dcls[g].uvFrom).any (fun t => hasPassed t 10000000 s) then
    .next (clearCond Ev.dclUndervolt (groupAxes s g) (modDcl g (fun x => { x with regs := { x.regs with undervolt := false } }) s))
  else .next s

/-! ### Commands (R353) -/

def acceptTileMode (p : Packet) (_ : State) : BitVec 16 :=
  if parIn p 0 0 3 && parIn p 1 0 1 && parIn p 2 0 1 && parIn p 3 0 1 && parIn p 4 0 3 && parIn p 5 0 1 then Status.ok
  else Status.paramRange
def checkTileMode (p : Packet) (s : State) : BitVec 16 :=
  if (s.axes[tileAxis (tileFromPacket p)]).enabled then Status.axisEnabled else Status.ok
/-- A tile of another mode has zero carries and no chopper in progress (R331). -/
def applyTileMode (p : Packet) (s : State) : State :=
  let t := tileFromPacket p
  let s := modTile t (fun tl =>
    let tl := if parBits p 0 2 = tl.regs.mode then tl
      else { tl with regs := { tl.regs with carry := Vector.replicate 4 0 }, sv := { tl.sv with chop := Vector.replicate 2 {} } }
    let tl := { tl with regs := { tl.regs with
      mode := parBits p 0 2, localField := parBool p 1, block := parBool p 2, brakeEn := parBool p 3, dcl := parBits p 4 2
      dclMember := parBool p 5 } }
    if tl.regs.mode ≠ 0 && tl.regs.tileState = 0 then setTileState 1 tl else tl) (if parBits p 0 2 = s.tiles[t].regs.mode then s else tilePuts t 0x88 (List.replicate 56 0) s)
  writeTileStatus t ((List.finRange 4).foldl (fun s g => dclRefresh g s) s)
def stTileModeSet : StageOp :=
  { d := tileOp 0x0801 .mode 6, accept := acceptTileMode, check := checkTileMode, apply := applyTileMode }
/-- TILE_MODE_SET (R318, R319). -/
def execTileModeSet (p : Packet) (s : State) : Host.Outcome State Fault Refusal := .next (stageRequest stTileModeSet p s)

def pwmRanges (p : Packet) : Bool :=
  parIn p 0 4000 200000 && parNat p 1 < parNat p 0 && parIn p 2 0 1 && parIn p 3 0 1 && parIn p 4 0 1 && parIn p 5 0 51200
    && parIn p 6 0 51200 && parIn p 7 0 51200 && parIn p 8 0 51200 && parIn p 9 0 51200 && parIn p 10 0 15
def acceptTilePwm (p : Packet) (_ : State) : BitVec 16 :=
  if !pwmRanges p then Status.paramRange
  else if parBool p 3 && !parBool p 2 then Status.doubleNeedsCentre
  else if [6, 7, 8, 9].any fun i => parNat p 0 * 32 < 2 * (parNat p 5 + parNat p i) then Status.pwmTimingInvalid
  else Status.ok
/-- A LEG_SHUNT tile keeps a centred carrier updated once (R365). -/
def checkTilePwm (p : Packet) (s : State) : BitVec 16 :=
  if legShunt s.tiles[tileFromPacket p] && (!parBool p 2 || parBool p 3) then Status.senseCarrierInvalid else Status.ok
/-- The settings go into the tile's shadow; with no carrier running they are in force at once. -/
def applyTilePwm (p : Packet) (s : State) : State :=
  let t := tileFromPacket p
  if carrierRuns s t then modTile t (fun tl => { tl with pw := { tl.pw with pwmNext := some (settingsOf p) } }) s
  else modTileRegs t (putSettings (settingsOf p)) s
def stTilePwmSet : StageOp :=
  { d := tileOp 0x0802 .mode 11, accept := acceptTilePwm, check := checkTilePwm, apply := applyTilePwm, atLoad := true }
/-- TILE_PWM_SET (R326, R327, R332). -/
def execTilePwmSet (p : Packet) (s : State) : Host.Outcome State Fault Refusal := .next (stageRequest stTilePwmSet p s)

def stTileFaultInputSet : StageOp :=
  { d := tileOp 0x0803 .mode 2
    accept := fun p _ => if parIn p 0 0 1 && parIn p 1 0 100 then Status.ok else Status.paramRange
    apply := fun p s => modTileRegs (tileFromPacket p) (fun r => { r with fltEn := parBool p 0, fltFilt := parBits p 1 7 }) s }
/-- TILE_FAULT_INPUT_SET (R340). -/
def execTileFaultInputSet (p : Packet) (s : State) : Host.Outcome State Fault Refusal := .next (stageRequest stTileFaultInputSet p s)

def stHallTableSet : StageOp :=
  { d := tileOp 0x0804 .mode 8
    accept := fun p _ => if (List.range 8).all fun i => parIn p i 0 63 then Status.ok else Status.paramRange
    apply := fun p s =>
      let t := tileFromPacket p
      let s := modTileRegs t (fun r => { r with hallEntry := Vector.ofFn fun i => parBits p i.val 6 }) s
      if hallRuns s.tiles[t] && s.tiles[t].regs.tileState = 2 then reforceLegs t s else s }
/-- HALL_TABLE_SET (R336). -/
def execHallTableSet (p : Packet) (s : State) : Host.Outcome State Fault Refusal := .next (stageRequest stHallTableSet p s)

def dTileTripClear : OpDesc :=
  { op := 0x0805, cls := .b, target := fun n => n < 16 || (0x100 ≤ n && n ≤ 0x103), params := (· = 0) }
/-- TRIP of one tile: refused while its input is low (R342). -/
def tripClearTile (t : Fin 16) (s : State) : Reply :=
  if s.tiles[t].regs.tripInput then
    answer Status.tripActive (modTileRegs t (fun r => { r with
      tripClearRefusedCount := satInc r.tripClearRefusedCount, cntOvf := r.cntOvf || satFull r.tripClearRefusedCount }) s)
  else ok (clearCond Ev.tileTrip [tileAxis t] (unventTile t 0 (modTileRegs t (fun r => { r with trip := false }) s)))
/-- The overvoltage vent of a group: refused while a member reads V_brk_off or above (R350). -/
def tripClearGroup (g : Fin 4) (s : State) : Reply :=
  let ms := dclMembers s g
  if ms.any fun t => s.tiles[t].pw.vdcSeen && decide ((s.dcls[g].regs.vBrkOff.toNat : Int) ≤ s.tiles[t].pw.vdc.toInt) then
    answer Status.dclOvpActive s
  else
    let s := modDcl g (fun x => { x with regs := { x.regs with ovpVented := false } }) s
    ok (ms.foldl (fun s t => clearCond Ev.dclOvervolt [tileAxis t] (unventTile t 2 s)) s)
def runTileTripClear (p : Packet) (s : State) : Reply :=
  if tgt p < 16 then tripClearTile (tileFromPacket p) s else tripClearGroup (Fin.ofNat 4 (tgt p - 0x100)) s
/-- TILE_TRIP_CLEAR (R342, R350). -/
def execTileTripClear (p : Packet) (s : State) : Host.Outcome State Fault Refusal :=
  .next (request dTileTripClear acceptAny runTileTripClear p s)

def dTileLoadAll : OpDesc :=
  { op := 0x0806, cls := .b, prio := true, target := tModule, params := (· = 1), reservedOk := fun p => par p 0 >>> 16 = 0 }
def loadAllTiles (p : Packet) : List (Fin 16) := (List.finRange 16).filter fun t => (par p 0).getLsbD t.val
def acceptTileLoadAll (p : Packet) (s : State) : BitVec 16 :=
  if (loadAllTiles p).all fun t => s.tiles[t].regs.localField then Status.ok else Status.tileNotLocal
def runTileLoadAll (p : Packet) (s : State) : Reply := ok ((loadAllTiles p).foldl (fun s t => armLoadAll t s) s)
/-- TILE_LOAD_ALL (R335). -/
def execTileLoadAll (p : Packet) (s : State) : Host.Outcome State Fault Refusal :=
  .next (request dTileLoadAll acceptTileLoadAll runTileLoadAll p s)

def dTileStatus : OpDesc := { op := 0x0807, cls := .a, target := tBelow 16, params := (· = 0) }
def runTileStatus (p : Packet) (s : State) : Reply := okWith (wordsOf (tileBlockWord s (tileFromPacket p)) 0 69) s
/-- TILE_STATUS (R353). -/
def execTileStatus (p : Packet) (s : State) : Host.Outcome State Fault Refusal :=
  .next (request dTileStatus acceptAny runTileStatus p s)

def dTilePolicySet : OpDesc := { op := 0x0808, cls := .b, target := tModule, params := (· = 3) }
def acceptTilePolicy (p : Packet) (_ : State) : BitVec 16 :=
  if clsAllowed .note (par p 0) && clsAllowed .note (par p 1) && clsAllowed .note (par p 2) then Status.ok else Status.paramRange
def runTilePolicy (p : Packet) (s : State) : Reply :=
  ok { s with policy := { s.policy with
    hallIllegal := clsOf (par p 0), brakeIneff := clsOf (par p 1), dclUnder := clsOf (par p 2) } }
/-- TILE_POLICY_SET (R353). -/
def execTilePolicySet (p : Packet) (s : State) : Host.Outcome State Fault Refusal :=
  .next (request dTilePolicySet acceptTilePolicy runTilePolicy p s)

def groupFromPacket (p : Packet) : Fin 4 := Fin.ofNat 4 (tgt p)
def acceptDclConfig (p : Packet) (_ : State) : BitVec 16 :=
  if !parIn p 5 100 100000 then Status.paramRange
  else if parNat p 6 < parNat p 2 && parNat p 2 < parNat p 1 && parNat p 1 < parNat p 3
      && parNat p 4 ≤ parNat p 1 - parNat p 2 then Status.ok
  else Status.dclThresholdOrder
def stDclConfig : StageOp :=
  { d := { op := 0x0810, cls := .b, stage := .yes, target := tBelow 4, params := (· = 7) }
    accept := acceptDclConfig
    apply := fun p s => modDcl (groupFromPacket p) (fun x => { x with regs := { x.regs with
      vdcFsMv := par p 0, vBrkOn := par p 1, vBrkOff := par p 2, vOvp := par p 3, dvChk := par p 4, tChk := parBits p 5 17
      vUv := par p 6 } }) s }
/-- DCL_CONFIG (R346). -/
def execDclConfig (p : Packet) (s : State) : Host.Outcome State Fault Refusal := .next (stageRequest stDclConfig p s)

def dDclStatus : OpDesc := { op := 0x0811, cls := .a, target := tBelow 4, params := (· = 0) }
def runDclStatus (p : Packet) (s : State) : Reply := okWith (wordsOf (readDclRegs s.dcls[groupFromPacket p].regs) 0 15) s
/-- DCL_STATUS (R353). -/
def execDclStatus (p : Packet) (s : State) : Host.Outcome State Fault Refusal :=
  .next (request dDclStatus acceptAny runDclStatus p s)

def dBrakeClear : OpDesc := { op := 0x0812, cls := .b, target := tBelow 4, params := (· = 0) }
def acceptBrakeClear (p : Packet) (s : State) : BitVec 16 :=
  let g := groupFromPacket p
  if (dclMembers s g).any fun t => s.tiles[t].pw.vdcSeen && decide ((s.dcls[g].regs.vBrkOn.toNat : Int) ≤ s.tiles[t].pw.vdc.toInt)
  then Status.vdcHigh else Status.ok
/-- At its pour the clamp is lifted and the chopper is armed again (R16, R349). -/
def applyBrakeClear (p : Packet) (s : State) : State :=
  let g := groupFromPacket p
  let s := modDcl g (fun x => { x with regs := { x.regs with regenLimited := false, brakeIneff := false } }) s
  let s := (dclMembers s g).foldl (fun s t => writeTileStatus t (modTileRegs t (fun r => { r with
    regenClamp := false, chopperVented := false }) s)) s
  clearCond Ev.brakeIneffective (groupAxes s g) s
/-- The module's own staged clear. -/
def stBrakeClear : StageOp :=
  { d := dBrakeClear, accept := acceptBrakeClear, check := acceptBrakeClear, apply := applyBrakeClear }
def runBrakeClear (p : Packet) (s : State) : Reply := ok (moduleSet [{ op := 0x0812, p := p }] s)
/-- BRAKE_CLEAR (R16, R349): a set of its own, staged for the first eligible pour. -/
def execBrakeClear (p : Packet) (s : State) : Host.Outcome State Fault Refusal :=
  .next (request dBrakeClear acceptBrakeClear runBrakeClear p s)

end Sys2Proof.Machine
end

