-- ==== Sys2Proof/Machine/Law.lean ====
section
/-! DEFINITION. The standard loop law on a loop's context, its modes, and where its inputs come from (R242 to R262). -/

namespace Sys2Proof.Machine

/-! ### Contexts (R303, R304) -/

def ctxGet (s : State) (e : Fin 32) (c w : Nat) : Word := dataWord s.engines[e] (c + w)
def ctxPut (e : Fin 32) (c w : Nat) (v : Word) (s : State) : State :=
  modEngine e (fun en => { en with data := memPutWord en.data (c + w) v }) s
def ctxPuts (e : Fin 32) (c w : Nat) (vs : List Word) (s : State) : State :=
  modEngine e (fun en => { en with data := memPutWords en.data (c + w) vs }) s
/-- Bits set in FLAGS (R304). -/
def ctxFlag (e : Fin 32) (c : Nat) (v : Word) (s : State) : State := ctxPut e c 0x13 (ctxGet s e c 0x13 ||| v) s
/-- The first n words of a context and its FLAGS are zero (R258, R305). -/
def ctxZero (e : Fin 32) (c : Nat) (s : State) : State :=
  ctxPut e c 0x13 0 (ctxPuts e c 0 (List.replicate 16 0) s)

/-! ### The law (R254 to R257, R259 to R262) -/

/-- What a loop's tick runs on: the nodes SP and FB, the difference SP - FB in units of 2^-32, the feed-forward input, KP
in force, the output clamp in force, and the SUM that a tracking loop is given. -/
structure LawIn where
  sp : Word
  fb : Word
  x : Int
  ff : Word
  /-- The feed-forward input was saturated as it was formed. -/
  ffOver : Bool := false
  kp : Word
  lo : Word
  hi : Word
  track : Int

/-- What the law leaves: nodes 2 to 9, the integrator and the derivative state, FLAGS, the clamps, and the part of a bumpless
preset that the integrator could not take. -/
structure LawOut where
  nodes : List Word
  iAcc : Int
  dState : Word
  dPrev : Word
  flags : Word
  high : Bool
  low : Bool
  residual : Option Int

def sat56 (x : Int) : Int := clampInt (-(2 ^ 55)) (2 ^ 55 - 1) x
/-- A 64.32 quantity in 2^-32 units as the loop takes it (R253). -/
def shiftIn (sh : Int) (x : Int) : Int := x / (2 : Int) ^ (32 + sh).toNat
/-- The loop's IN_SHIFT. -/
def inShiftOf (s : State) (e : Fin 32) (c : Nat) : Int := clampInt (-16) 15 (ctxGet s e c 0x27).toInt

/-- One tick of the standard law on the coefficients and the state of the context. -/
def law (get : Nat → Word) (l : Loop) (mode : BitVec 2) (first : Bool) (x : LawIn) : LawOut :=
  let sh := clampInt (-16) 15 (get 0x27).toInt
  let errX := shiftIn sh x.x
  let err := sat32 errX
  let pX := x.kp.toInt * err.toInt / 2 ^ 24
  let ki := (get 0x21).toInt
  let acc := ((get 0x0D) ++ (get 0x0C)).toInt
  let hold := (l.clampHi && decide (0 < ki * err.toInt)) || (l.clampLo && decide (ki * err.toInt < 0))
  let accX := if hold then acc else acc + ki * err.toInt
  let dsX := (get 0x0E).toInt + (get 0x24).toInt * (err.toInt - (get 0x0E).toInt) / 2 ^ 24
  let ds := sat32 dsX
  let dX := (get 0x22).toInt * (ds.toInt - (get 0x0F).toInt) / 2 ^ 24
  let ffX := (get 0x23).toInt * x.ff.toInt / 2 ^ 24
  let p := (sat32 pX).toInt
  let d := (sat32 dX).toInt
  let ff := (sat32 ffX).toInt
  let preset : Option Int :=
    if mode = 2 then some (x.track - (p + d + ff)) else if first then some ((get 8).toInt - (p + d + ff)) else none
  let accX := match preset with
    | some i => i * 2 ^ 24
    | none => accX
  let acc' := sat56 accX
  let i := acc' / 2 ^ 24
  let sumX := p + i + d + ff
  let sum := (sat32 sumX).toInt
  let want := if mode = 1 then (get 9).toInt else sum
  let out := if x.hi.toInt < want then x.hi.toInt else if want < x.lo.toInt then x.lo.toInt else want
  let man := if mode = 0 && l.regs.manTrack then BitVec.ofInt 32 out else get 9
  { nodes := [BitVec.ofInt 32 err.toInt, BitVec.ofInt 32 p, BitVec.ofInt 32 i, BitVec.ofInt 32 d, BitVec.ofInt 32 ff,
      BitVec.ofInt 32 sum, BitVec.ofInt 32 out, man]
    iAcc := acc'
    dState := ds
    dPrev := ds
    flags := bitAt (over32 errX) 0 ||| bitAt (over32 pX) 1 ||| bitAt (acc' ≠ accX) 2 ||| bitAt (over32 dsX || over32 dX) 3
      ||| bitAt (x.ffOver || over32 ffX) 4 ||| bitAt (over32 sumX) 5 ||| bitAt (out ≠ want) 6
    high := decide (x.hi.toInt < want)
    low := decide (want < x.lo.toInt)
    residual := match preset with
      | some w => if mode = 0 && acc' ≠ accX then some (i - w) else none
      | none => none }

/-- Runs the law on loop i in its context c of engine e. -/
def runLaw (i : Fin 96) (e : Fin 32) (c : Nat) (x : LawIn) (s : State) : State :=
  let l := s.loops[i]
  let m := ctxGet s e c 0x14
  let mode := m.extractLsb' 0 2
  let r := law (ctxGet s e c) l mode (m.getLsbD 4) x
  let s := ctxPuts e c 0 (x.sp :: x.fb :: r.nodes) s
  let s := ctxPuts e c 0x0C (words64 (BitVec.ofInt 64 r.iAcc) ++ [r.dState, r.dPrev]) s
  let s := ctxPut e c 0x11 x.ff (ctxFlag e c r.flags s)
  let s := modLoop i (fun l => { l with clampHi := r.high, clampLo := r.low }) s
  match r.residual with
  | some d => note Ev.bumpResidual (srcLoop s i) (sat32 d) 0 0 (modLoopRegs i (fun g => { g with
      bumpSeen := true, bumpCount := satInc g.bumpCount, cntOvf := g.cntOvf || satFull g.bumpCount }) s)
  | none => s

/-! ### Modes (R258 to R262) -/

/-- A loop that no axis owns is never OFF by R258. -/
def loopIsOff (s : State) (i : Fin 96) : Bool := i.val < 64 && s.loops[i].regs.loopMode = 3

/-- The loop inward of loop 4a + 1 or 4a + 2. -/
def inward (i : Fin 96) : Option (Fin 96) :=
  if i.val < 64 && (i.val % 4 = 1 || i.val % 4 = 2) then asFin 96 (i.val - 1) else none
/-- A loop inward of this one is in MANUAL. -/
def innerManual (s : State) (i : Fin 96) : Bool :=
  match inward i with
  | none => false
  | some j => s.loops[j].regs.loopMode = 1 || (match inward j with
    | none => false
    | some k => s.loops[k].regs.loopMode = 1)
/-- A sensorless axis that is not CLOSED, or an alignment, keeps its velocity and position loops in TRACK (R375). -/
def startTracks (s : State) (i : Fin 96) : Bool :=
  match loopTile i with
  | some t =>
    let tl := s.tiles[t]
    (i.val % 4 = 1 || i.val % 4 = 2) && tl.regs.mode = 1
      && ((tl.foc.regs.angleSrc && tl.foc.regs.startState ≠ 7) || tl.foc.regs.startState = 4)
  | none => false

/-- The mode that the loop runs at this tick. -/
def modeNow (s : State) (i : Fin 96) : BitVec 2 :=
  let l := s.loops[i]
  let man : Bool := match l.modeNext with
    | some m => decide (m = 1)
    | none => (l.regs.reqMode && decide (l.regs.loopMode ≠ 2)) || decide (l.regs.loopMode = 1)
  if man then 1 else if innerManual s i || startTracks s i then 2 else 0

/-- The loop takes its mode at its tick: MAN_OUT in force, the MODE word, LOOP_MODE and its event. -/
def takeMode (i : Fin 96) (e : Fin 32) (c : Nat) (s : State) : State :=
  let l := s.loops[i]
  let old := l.regs.loopMode
  let m := modeNow s i
  let first := m = 0 && (l.bumpNext || (old = 1 && l.regs.bumpless))
  let keeps := m = 1 && old ≠ 1 && l.regs.manTrack && !l.manStaged
  let setMan := (m = 1 && !keeps && (old ≠ 1 || (l.modeNext.isSome && l.manStaged))) || (m ≠ 1 && !l.regs.manTrack)
  let word := m.zeroExtend 32 ||| bitAt l.regs.bumpless 2 ||| bitAt l.regs.manTrack 3 ||| bitAt first 4
  let s := modLoop i (fun l => { l with
    modeNext := none, manStaged := false, bumpNext := l.bumpNext && m ≠ 0, regs := { l.regs with loopMode := m } }) s
  let s := ctxPut e c 0x14 word (if setMan then ctxPut e c 9 (ctxGet s e c 0x28) s else s)
  if old ≠ m && old ≠ 3 then
    note Ev.loopModeChanged (srcLoop s i) (natWord i.val) (m.zeroExtend 32) 0 (modLoopRegs i (fun g => { g with
      modeSwitchCount := satInc g.modeSwitchCount, cntOvf := g.cntOvf || satFull g.modeSwitchCount }) s)
  else s

/-! ### Set-points and feedback (R248 to R250, R436) -/

/-- The count C of the source in force (R436). -/
def srcCount (en : Encoder) : BitVec 64 := if en.regs.fbSrc = 1 then en.regs.count else en.regs.absCount
/-- STEPPER_CLOSED runs on the axis of the tile (R401). -/
def stepperClosed (s : State) (t : Fin 16) : Bool :=
  s.tiles[t].regs.mode = 2 && s.loops[tileLoop t 0].regs.programId = 0x11
/-- A count of the source in 2^-32 counts of the axis: a closed stepper's is converted to addresses (R401). -/
def axisCount (s : State) (t : Fin 16) (c : BitVec 64) : Int :=
  let r := s.tiles[t].sv.regs
  if stepperClosed s t then c.toInt * r.stepEncNum.toNat * 2 ^ 32 / (max 1 r.stepEncDen.toNat : Nat) else c.toInt * 2 ^ 32
/-- The actual position at the current tick, in 2^-32 counts: that of the last pour and what the source had counted since at
the tick's due edge (R424). -/
def posNow (s : State) (t : Fin 16) : Int :=
  let ax := s.axes[tileAxis t]
  let en := s.encs[tileEnc t]
  ax.regs.actPos.toInt + (if en.regs.fbSrc = 0 then 0 else axisCount s t en.tickC - axisCount s t en.lastC)

/-- The outer output as the inner loop's tick takes it: held, or on its way from the output before it (R250). -/
def interpolate (k : Nat) (on : Bool) (prev new : Int) (m n : Nat) : Int :=
  if on && m < n && n ≠ 0 then prev + roundAt k ((new - prev) * m) n else new

/-- The position and velocity set-points at time t after the pour, t in 2^-32 ns (R249). -/
def spAt (k : Nat) (taylor : Bool) (ax : Axis) (t : Int) : Int × Int :=
  let v := ax.regs.spVel.toInt
  let a := ax.regs.spAcc.toInt
  if taylor then
    (ax.regs.spPos.toInt + roundAt k (v * t * (2 * 10 ^ 9 * 2 ^ 32) + a * t * t) (2 * 10 ^ 18 * 2 ^ 64),
     v + roundAt (k + 1) (a * t) (10 ^ 9 * 2 ^ 32))
  else (ax.regs.spPos.toInt, v)

/-- The output clamp of a context. -/
def ctxLo (s : State) (e : Fin 32) (c : Nat) : Word := ctxGet s e c 0x25
def ctxHi (s : State) (e : Fin 32) (c : Nat) : Word := ctxGet s e c 0x26
def ctxTrim (s : State) (e : Fin 32) (c : Nat) : Int := (ctxGet s e c 0x12).toInt

/-- The loop that takes loop i's output: a valve without velocity loop hands its position output to the coil (R403). -/
def inwardOf (s : State) (i : Fin 96) : Option (Fin 96) :=
  match loopTile i with
  | some t =>
    if i.val % 4 = 2 && s.tiles[t].regs.mode = 3 && !s.tiles[t].sv.regs.velEn then asFin 96 (i.val - 2) else inward i
  | none => none

/-- The SUM that makes the set-point of the loop inward equal to its feedback (R259). -/
def trackTarget (s : State) (i : Fin 96) : Int :=
  match inwardOf s i with
  | none => 0
  | some j =>
    let ff : Int := if j.val % 4 = 1 then (nodeWord s j 6).toInt else 0
    let trim : Int := match loopPlace s j with
      | some (e, _, c) => ctxTrim s e c
      | none => 0
    (nodeWord s j 1).toInt - ff - trim

/-- Where an outer loop's output stands for the loop at context c of engine e: in the outer loop's node on the same engine,
else in IN_SP (R246, R307). -/
def outerOut (s : State) (outer : Fin 96) (e : Fin 32) (c : Nat) : Int :=
  match loopPlace s outer with
  | some (e', _, c') => if e' = e then (ctxGet s e' c' 8).toInt else (ctxGet s e c 0x10).toInt
  | none => 0

/-- The outer loop has just ticked: its inner loop starts a new ramp from the output before this one (R250). -/
def outerTicked (inner : Fin 96) (prev : Word) (s : State) : State :=
  modLoop inner (fun l => { l with prevOuter := prev, innerTick := 0 }) s
def innerTicked (i : Fin 96) (s : State) : State := modLoop i (fun l => { l with innerTick := l.innerTick + 1 }) s

/-- The axis as its loops see its set-point: a local-mode axis's as its last position-loop tick took it in (R247). -/
def loopAxisOf (s : State) (t : Fin 16) : Axis :=
  let ax := s.axes[tileAxis t]
  if s.tiles[t].regs.localField then
    { ax with regs := { ax.regs with spPos := ax.takenPos, spVel := ax.takenVel, spAcc := ax.takenAcc } }
  else ax
/-- Time from the instant at which the set-point was taken in to an edge, in 2^-32 ns (R247, R249). -/
def sinceTaken (s : State) (t : Fin 16) (due : Fix) : Int :=
  due.toInt - (if s.tiles[t].regs.localField then s.axes[tileAxis t].takenAt else pourAt s (pourNum s).toNat).toInt

/-- A tick of a position loop at time t after the pour. -/
def positionTick (t : Fin 16) (i : Fin 96) (e : Fin 32) (c : Nat) (tau : Int) (s : State) : State :=
  let ax := loopAxisOf s t
  let sh := inShiftOf s e c
  let r := rateLoop s t
  let (sp, _) := spAt s.freeCtr r.spInterp ax tau
  let fb := posNow s t
  let x := if ax.regs.kind then shortWay ax (sp - fb) else sp - fb
  let prev := ctxGet s e c 8
  let s := runLaw i e c {
    sp := sat32 (shiftIn sh sp), fb := sat32 (shiftIn sh fb), x := x, ff := sat32 (shiftIn sh ax.regs.spVel.toInt)
    ffOver := over32 (shiftIn sh ax.regs.spVel.toInt)
    kp := ctxGet s e c 0x20, lo := ctxLo s e c, hi := ctxHi s e c, track := trackTarget s i } (drew 2 s)
  let tl := s.tiles[t]
  outerTicked (tileLoop t (if tl.regs.mode = 3 && !tl.sv.regs.velEn then 0 else 1)) prev s

/-- The feedback of a velocity loop in 2^-32 counts per second: the actual velocity, the observer's, or a cylinder's from two
readings of its transducer (R373, R403). -/
def velocityFb (s : State) (t : Fin 16) : Int :=
  let tl := s.tiles[t]
  let en := s.encs[tileEnc t]
  if tl.regs.mode = 1 && tl.foc.regs.angleSrc then tl.foc.omegaObs.toInt * 2 ^ 32
  else if tl.regs.mode = 3 && en.regs.fbSrc = 2 then
    let ns := (en.absDt - en.prevDt).toNat
    if ns = 0 then 0 else roundAt s.freeCtr ((en.regs.absCount - en.prevCount).toInt * 10 ^ 9 * 2 ^ 32) ns
  else s.axes[tileAxis t].regs.actVel.toInt

/-- A tick of a velocity loop at time t after the pour. -/
def velocityTick (t : Fin 16) (i : Fin 96) (e : Fin 32) (c : Nat) (tau : Int) (s : State) : State :=
  let ax := loopAxisOf s t
  let sh := inShiftOf s e c
  let r := rateLoop s t
  let l := s.loops[i]
  let (_, v) := spAt s.freeCtr r.spInterp ax tau
  let ffIn := sat32 (shiftIn sh ax.regs.spAcc.toInt)
  let ffNode := sat32 ((ctxGet s e c 0x23).toInt * ffIn.toInt / 2 ^ 24)
  let unit : Int := (2 : Int) ^ (32 + sh).toNat
  let outer := interpolate (s.freeCtr + 2) r.innerInterp l.prevOuter.toInt (outerOut s (tileLoop t 2) e c) l.innerTick r.kpDiv.toNat
  let sp := if r.top = 1 then v + ctxTrim s e c * unit else (outer + ffNode.toInt + ctxTrim s e c) * unit
  let fb := velocityFb { s with freeCtr := s.freeCtr + 3 } t
  let prev := ctxGet s e c 8
  let s := runLaw i e c {
    sp := sat32 (shiftIn sh sp), fb := sat32 (shiftIn sh fb), x := sp - fb, ff := ffIn, ffOver := over32 (shiftIn sh ax.regs.spAcc.toInt)
    kp := ctxGet s e c 0x20, lo := ctxLo s e c, hi := ctxHi s e c, track := trackTarget s i } (drew 4 s)
  outerTicked (tileLoop t 0) prev (innerTicked i s)

/-- A tick of a loop whose set-point and feedback are words in its own units: a coil current, a free loop. -/
def wordTick (i : Fin 96) (e : Fin 32) (c : Nat) (sp fb ff : Word) (s : State) : State :=
  runLaw i e c {
    sp := sp, fb := fb, x := (sp.toInt - fb.toInt) * 2 ^ 32, ff := ff
    kp := ctxGet s e c 0x20, lo := ctxLo s e c, hi := ctxHi s e c, track := trackTarget s i } s

end Sys2Proof.Machine
end

