-- ==== Sys2Proof/Machine/FocTick.lean ====
section
/-! DEFINITION. The current tick of a tile in SERVO3: currents, angle, start states, set-point limits, the two current loops,
voltage limit and modulation (R356 to R379, R382). -/

namespace Sys2Proof.Machine

/-- π² as num / den. -/
def piSqNum : Int := (twoPi80 : Int) * twoPi80
def piSqDen : Int := 2 ^ 162
/-- √3 in units of 2^-80. -/
def sqrt3 : Int := 2093920942154385339393396
/-- The exact value of a finite float32 in units of 2^-149. -/
def f149 (w : Word) : Int := f32Fixed 149 w

/-! ### Currents (R357, R363, R364, R368) -/

/-- The latest sample of a channel whose SDn_DT is at or before an instant (R363, R454). -/
def sdAt (s : State) (c : Fin 160) (due : Word) : Word :=
  let ch := s.sds[c]
  if 0 ≤ (due - ch.regs.sampleDt).toInt then ch.regs.sample else ch.prev

def abs32 (w : Word) : Nat := w.toInt.natAbs
/-- -(a + b), saturating. -/
def negSum (a b : Word) : Word := sat32 (-(a.toInt + b.toInt))

/-- The phase currents of the tick; a predicted period's are free (R368). -/
def phaseCurrents (s : State) (t : Fin 16) (due : Word) : Word × Word × Word :=
  let f := s.tiles[t].foc
  let m (k : Fin 10) : Word := s.sds[tileSd t k].regs.sample
  if f.regs.sense then
    let case_ := f.senseStat.extractLsb' 6 2
    let miss := f.senseStat.extractLsb' 8 2
    if case_ = 2 then
      (BitVec.ofNat 32 (Config.freeNat s.freeCtr), BitVec.ofNat 32 (Config.freeNat (s.freeCtr + 1)),
        BitVec.ofNat 32 (Config.freeNat (s.freeCtr + 2)))
    else if case_ = 0 then (m 0, m 1, m 2)
    else if miss = 0 then (negSum (m 1) (m 2), m 1, m 2)
    else if miss = 1 then (m 0, negSum (m 0) (m 2), m 2)
    else (m 0, m 1, negSum (m 0) (m 1))
  else
    let u := sdAt s (tileSd t 0) due
    let v := sdAt s (tileSd t 1) due
    (u, v, if f.regs.three then sdAt s (tileSd t 2) due else negSum u v)

/-- Takes the currents: INLINE with three channels checks their sum. -/
def takeCurrents (t : Fin 16) (due : Word) (s : State) : State :=
  let (u, v, w) := phaseCurrents s t due
  modFoc t (fun f =>
    let sums := !f.regs.sense && f.regs.three && f.regs.iSumThr ≠ 0
      && decide (f.regs.iSumThr.toNat < (u.toInt + v.toInt + w.toInt).natAbs)
    { f with iu := u, iv := v, iw := w, sumRun := if sums then f.sumRun + 1 else 0 }) (drew 3 s)

/-- i_d and i_q at an angle: the amplitude-invariant Clarke transform and the Park transform. -/
def clarkePark (k : Nat) (u v w : Word) (theta : Word) : Word × Word :=
  let a := 2 * u.toInt - v.toInt - w.toInt
  let b := v.toInt - w.toInt
  let d := 3 * sqrt3 * 2 ^ 80
  let c := cos80 theta
  let z := sin80 theta
  (sat32 (roundAt k (a * c * sqrt3 + 3 * b * z * 2 ^ 80) d), sat32 (roundAt (k + 1) (3 * b * c * 2 ^ 80 - a * z * sqrt3) d))

/-! ### Angle and speed (R369 to R377) -/

/-- Counts per second as a number of electrical periods per second, num / den. -/
def elecFreq (f : Foc) (v32 : Int) : Int × Int :=
  if f.regs.angleSrc then (v32, 65536 * 2 ^ 32)
  else (v32 * f.regs.eperiodDen.toNat, (max 1 f.regs.eperiodNum.toNat : Nat) * 2 ^ 32)

/-- The encoder's electrical angle (R369). -/
def encoderAngle (f : Foc) (count : BitVec 64) : Word :=
  BitVec.ofInt 32 (count.toInt * f.regs.eperiodDen.toNat * 2 ^ 32 / (max 1 f.regs.eperiodNum.toNat : Nat)) + f.regs.angleOffset

/-- The program of the axis runs the observer (R371, R374). -/
def runsObserver (s : State) (t : Fin 16) : Bool :=
  let id := s.loops[tileLoop t 0].regs.programId
  s.tiles[t].foc.regs.angleSrc || id = 2 || id = 3

/-- The observer's tick: its angle, speed and error are free (R371); the runs of R372 and R377 follow from them.  Beside an
encoder OBS_CONVERGED ends with its condition; a sensorless axis keeps it until it leaves CLOSED (log entry 133). -/
def observerTick (t : Fin 16) (s : State) : State :=
  if !runsObserver s t then s
  else
    let k := s.freeCtr
    let w (i : Nat) : Word := BitVec.ofNat 32 (Config.freeNat (k + i))
    modFoc t (fun f =>
      let err := abs32 (w 2)
      let conv := decide (err ≤ f.regs.convThr.toNat) && decide (f.regs.obsMinSpeed.toNat ≤ abs32 (w 1))
      let lost := decide (4 * f.regs.convThr.toNat < err)
      { f with
        omegaObs := w 1, convSince := if conv then some (f.convSince.getD s.dt) else none
        lostSince := if lost then some (f.lostSince.getD s.dt) else none
        regs := { f.regs with
          thetaObs := w 0, pllErr := w 2, obsConverged := f.regs.obsConverged && (conv || f.regs.angleSrc) } }) (drew 3 s)

/-- The start state that the tick works in: before RUN, the one that RUN begins with (R375). -/
def startNow (tl : Tile) : BitVec 3 := if tl.regs.tileState = 2 then tl.foc.regs.startState else focFirst tl.foc

/-- The angle a quarter of an electrical period behind the direction of the start (R375). -/
def thetaZero (pos : Bool) : Word := if pos then 0xC0000000 else 0x40000000

/-- The open-loop speed after one tick toward the limited set-point: it grows by at most A_START (R375). -/
def olSpeed (k : Nat) (v target : Int) (aStart : Nat) (tn td : Nat) : Int :=
  let same := (0 ≤ v && 0 ≤ target) || (v ≤ 0 && target ≤ 0)
  let from_ := if same then v else 0
  if target.natAbs ≤ from_.natAbs then target
  else
    let step := roundAt k ((aStart * 2 ^ 32 * tn : Nat) : Int) ((td * 10 ^ 9 : Nat) : Int)
    if from_ ≤ target && 0 ≤ target then min target (from_ + step) else max target (from_ - step)

/-- A start state is entered. -/
def enterStart (st : BitVec 3) (s : State) (f : Foc) : Foc :=
  { f with
    stateAt := s.dt, zeroAt := none
    regs := { f.regs with
      startState := st, startCount := if st = 4 then satInc f.regs.startCount else f.regs.startCount
      cntOvf := f.regs.cntOvf || (st = 4 && satFull f.regs.startCount)
      obsConverged := f.regs.obsConverged && st = 7 } }

/-- READY to ALIGN, with the direction of the set-point. -/
def leaveReady (v : Int) (s : State) (f : Foc) : Foc :=
  if v = 0 then f
  else enterStart 4 s { f with startPos := decide (0 < v), olTheta := thetaZero (decide (0 < v)), olVel := 0 }

/-- RAMP and HANDOVER: the open-loop angle goes on; RAMP hands over at V_HANDOVER or comes to rest (R375, R377). -/
def rampTick (v : Int) (tn td : Nat) (s : State) (f : Foc) : Foc :=
  let k := s.freeCtr
  let ol := olSpeed k f.olVel.toInt v f.regs.aStart.toNat tn td
  let th := f.olTheta + BitVec.ofInt 32 (roundAt (k + 1) (ol * tn) (65536 * 10 ^ 9 * td))
  let f := { f with olVel := fixRaw ol, olTheta := th }
  if f.regs.startState = 5 then
    if (f.regs.vHandover.toNat : Int) * 2 ^ 32 ≤ ol.natAbs then enterStart 6 s f
    else if v = 0 && ol = 0 then
      let z := f.zeroAt.getD s.dt
      if 10000000 ≤ nsSince s z then enterStart 3 s f else { f with zeroAt := some z }
    else { f with zeroAt := none }
  else f

/-- CLOSED on the observer: the angle's movement adds to the position (R373); too slow falls back to RAMP (R377). -/
def closedTick (s : State) (f : Foc) : Foc :=
  let moved := f.moved + BitVec.ofInt 128 ((f.regs.thetaObs - f.prevTheta).toInt * 2 ^ 16)
  let f := { f with prevTheta := f.regs.thetaObs, moved := moved }
  if abs32 f.omegaObs < f.regs.obsMinSpeed.toNat then
    enterStart 5 s { f with olTheta := f.regs.thetaObs, olVel := fixInt f.omegaObs.toInt, blendAt := none }
  else f

/-- The start states at a tick of a sensorless axis in RUN. -/
def startTick (t : Fin 16) (s : State) : State :=
  let tl := s.tiles[t]
  let v := s.axes[tileAxis t].regs.spVel.toInt
  let (tn, td) := tickLen s t
  if !tl.foc.regs.angleSrc || tl.regs.tileState ≠ 2 || tl.foc.retryAt.isSome then s
  else
    let s' := drew 2 s
    match tl.foc.regs.startState.toNat with
    | 3 => modFoc t (leaveReady v s) (if v = 0 then s' else markUncertain (tileAxis t) s')
    | 5 => modFoc t (rampTick v tn td s) s'
    | 6 => modFoc t (rampTick v tn td s) s'
    | 7 => modFoc t (closedTick s) s'
    | _ => s'

/-- The angle in use, and the speed in 2^-32 counts per second. -/
def focAngle (k : Nat) (s : State) (t : Fin 16) : Word × Int :=
  let tl := s.tiles[t]
  let f := tl.foc
  let st := startNow tl
  if !f.regs.angleSrc then
    (if st = 4 then 0 else encoderAngle f s.encs[tileEnc t].tickC, s.axes[tileAxis t].regs.actVel.toInt)
  else if st = 7 then
    let th := match f.blendAt with
      | some b =>
        let len := f.regs.tBlend.toNat * 1000000
        let e := (nsSince s b).toNat
        if e < len then f.regs.thetaObs + BitVec.ofInt 32 (roundAt k (f.olTheta.toInt * (len - e : Nat)) len)
        else f.regs.thetaObs
      | none => f.regs.thetaObs
    (th, f.omegaObs.toInt * 2 ^ 32)
  else (f.olTheta, f.olVel.toInt)

/-! ### Set-points and their limits (R357, R358) -/

/-- n times the derating factor (R578), in whole units. -/
def derated (k : Nat) (s : State) (t : Fin 16) (n : Nat) : Nat :=
  let c := s.tiles[t].ntc
  if c.ntcEn then (roundAt k (n * c.derate.toNat : Nat) 32768).toNat else n

/-- The current of homing on a hard stop, in per mille of the rated one (R202). -/
def homeCurrent (k : Nat) (s : State) (a : Fin 112) : Option Nat :=
  let ax := s.axes[a]
  match ax.home with
  | some h => if h.method = 9 || h.method = 10 then
      some (roundAt k (ax.regs.iHome.toNat * h.rated.toNat : Nat) 1000).toNat else none
  | none => none

/-- I_max of the tick (R358). -/
def currentLimit (k : Nat) (s : State) (t : Fin 16) : Nat :=
  let m := derated k s t s.tiles[t].foc.regs.iMax.toNat
  match homeCurrent (k + 1) s (tileAxis t) with
  | some h => min m h
  | none => m

/-- The q current set-point before its limits: the velocity loop's OUT, or the host's record with TOP = 2, and the trims. -/
def qDemand (k : Nat) (s : State) (t : Fin 16) (e : Fin 32) (c : Nat) : Int :=
  let r := rateLoop s t
  let l := s.loops[tileLoop t 0]
  let outer : Int := if r.top = 2 then
      ((List.finRange 64).findSome? fun i =>
        if (s.cyclic.recAxis[i]).toNat = t.val then some (s.cyclic.inForce.recs.getD (4 * i.val + 3) 0).toInt else none).getD 0
    else interpolate k r.innerInterp l.prevOuter.toInt (outerOut s (tileLoop t 1) e c) l.innerTick r.kv.toNat
  outer + ctxTrim s e c

/-- The set-points of a tick before their limits, by start state (R357, R375, R377); those of an identification are free
(R381). -/
def focDemand (s : State) (t : Fin 16) (e : Fin 32) (c : Nat) : Int × Int :=
  let tl := s.tiles[t]
  let f := tl.foc
  let k := s.freeCtr
  if f.regs.identifying then
    ((BitVec.ofNat 32 (Config.freeNat k)).toInt, (BitVec.ofNat 32 (Config.freeNat (k + 1))).toInt)
  else match (startNow tl).toNat with
    | 4 => (f.regs.iAlign.toInt, 0)
    | 5 => (match f.zeroAt with
      | some z => roundAt k (f.regs.iStart.toInt * (10000000 - nsSince s z)) 10000000
      | none => f.regs.iStart.toInt, 0)
    | 6 => (f.regs.iStart.toInt, 0)
    | 7 => (f.regs.idRef.toInt, qDemand k s t e c)
    | _ => (0, 0)

/-- An integer square root of n, the exact one lying between two integers being free. -/
def sqrtAt (k : Nat) (n : Nat) : Nat :=
  let r := isqrt n
  if r * r = n then r else r + Config.freeNat k % 2

/-- The limited set-points, which way the velocity loop is held, and whether regeneration was cut (R358). -/
structure Limited where
  id : Word
  iq : Word
  flag : Bool
  high : Bool
  low : Bool
  regen : Bool

def limitCurrents (k : Nat) (s : State) (t : Fin 16) (w : Int) (d : Int × Int) : Limited :=
  let m := currentLimit k s t
  let id := clampInt (-m) m d.1
  let q := sqrtAt (k + 2) (m * m - id.natAbs * id.natAbs)
  let iq := clampInt (-q) q d.2
  let opp := s.tiles[t].regs.regenClamp && ((decide (0 < iq) && decide (w < 0)) || (decide (iq < 0) && decide (0 < w)))
  { id := BitVec.ofInt 32 id, iq := if opp then 0 else BitVec.ofInt 32 iq
    flag := id ≠ d.1 || iq ≠ d.2 || opp
    high := decide (iq < d.2) || (opp && decide (0 < iq)), low := decide (d.2 < iq) || (opp && decide (iq < 0)), regen := opp }

/-- A clamp of the current set-point shows on the velocity loop (R358). -/
def holdVelocity (t : Fin 16) (e : Fin 32) (x : Limited) (s : State) : State :=
  let i := tileLoop t 1
  if !x.flag then s
  else
    let s := modLoop i (fun l => { l with clampHi := l.clampHi || x.high, clampLo := l.clampLo || x.low }) s
    match loopPlace s i with
    | some (e', _, c) => if e' = e then ctxFlag e c 0x40 s else modLoopRegs i (fun r => { r with satOut := true }) s
    | none => s

/-! ### The loops (R357, R359, R362) -/

/-- A decoupling voltage ω × L × i, or ω × ψ with i absent, as the loop takes it; free where the link reads no voltage. -/
def ffVolt (k : Nat) (s : State) (t : Fin 16) (w : Int × Int) (l149 : Int) (i : Option Int) : Int :=
  let f := s.tiles[t].foc
  let mv := (vdcMilli s s.tiles[t].regs.dcl.toFin s.sds[tileSd t 3].regs.sample).toInt
  if mv ≤ 0 then (BitVec.ofNat 32 (Config.freeNat k)).toInt
  else match i with
    | some i => roundAt k (piSqNum * w.1 * l149 * i * f.regs.iFsMa.toNat) (piSqDen * w.2 * 2 ^ 149 * mv)
    | none => roundAt k (piSqNum * w.1 * l149 * 1000 * 2 ^ 31) (piSqDen * w.2 * 2 ^ 149 * mv)

/-- Whether M as a square exceeds n / 1000. -/
def beyondM (m2 : Nat) (n : Nat) : Bool := decide (n * n * 2 ^ 62 < m2 * 1000000)
/-- The region of a demanded M, given as a square (R361). -/
def regionOfM (m2 : Nat) : BitVec 2 :=
  if (2 ^ 31 - 2 ^ 16) * (2 ^ 31 - 2 ^ 16) ≤ m2 then 3 else if beyondM m2 952 then 2 else if beyondM m2 907 then 1 else 0

/-- The average over the last n samples. -/
def avgOf (k : Nat) (xs : List Word) : Int :=
  if xs.length = 0 then 0 else roundAt k (xs.foldl (fun a x => a + x.toInt) 0) xs.length

/-- i_d and i_q as the loops take them: averaged over a sixth of an electrical period above M = 0.952 (R362). -/
def feedbackDq (k : Nat) (s : State) (t : Fin 16) (w : Int × Int) (d q : Word) : Word × Word :=
  let f := s.tiles[t].foc
  let (tn, td) := tickLen s t
  if f.regs.modRegion.toNat < 2 then (d, q)
  else
    let n : Nat := if w.1 = 0 || tn = 0 then 64
      else (clampInt 1 64 (roundAt k (w.2 * td * 10 ^ 9) (6 * w.1.natAbs * tn : Nat))).toNat
    let xs := f.avg.take n
    (sat32 (avgOf (k + 1) (xs.map (·.1))), sat32 (avgOf (k + 2) (xs.map (·.2))))

/-- KP in force: times OM_GAIN above M = 0.952. -/
def focKp (k : Nat) (s : State) (t : Fin 16) (kp : Word) : Word :=
  let f := s.tiles[t].foc
  if f.regs.modRegion.toNat < 2 then kp else sat32 (roundAt k (kp.toInt * f.regs.omGain.toNat) (2 ^ 24))

/-- The tighter of two upper, lower bounds. -/
def tighterHi (a : Word) (b : Nat) : Word := if a.toInt ≤ (b : Int) then a else BitVec.ofNat 32 b
def tighterLo (a : Word) (b : Nat) : Word := if -(b : Int) ≤ a.toInt then a else BitVec.ofInt 32 (-(b : Int))

/-! ### Modulation (R361) -/

/-- The phase references v_u, v_v, v_w in units of 2^-161 of Q1.31, of a voltage vector at an angle. -/
def phaseRefs (ud uq : Int) (theta : Word) : List Int :=
  let a := ud * cos80 theta - uq * sin80 theta
  let b := ud * sin80 theta + uq * cos80 theta
  let x := 2 * a * 2 ^ 80
  let y := b * sqrt3
  [x, -a * 2 ^ 80 + y, -a * 2 ^ 80 - y]

/-- The three duty words (R361): as demanded in the linear range; in region I the angle kept and the magnitude raised by a factor,
clipped to the hexagon side; in region II on the hexagon side, two legs at 0 and the full period; each leg there in six-step.
The table that gives the factor, and the angle on the side, is not in the spec: they are free (log entry 134). -/
def duties (k : Nat) (region : BitVec 2) (vs : List Int) : List Word :=
  let hi := vs.foldl max (vs.headD 0)
  let lo := vs.foldl min (vs.headD 0)
  let den := 907 * sqrt3 * 2 ^ 161
  let gain : Int := if region = 1 then 65536 + (Config.freeNat (k + 3) : Nat) else 65536
  let inside := decide ((hi - lo) * 1000 * 2 ^ 80 * gain < 2 ^ 31 * den * 65536)
  (List.range 3).map fun i =>
    let v := vs.getD i 0
    if region = 0 || (region = 1 && inside) then
      BitVec.ofInt 32 (clampInt 0 (2 ^ 32 - 1) (2 ^ 31 + roundAt (k + i) ((2 * v - hi - lo) * 1000 * 2 ^ 80 * gain) (den * 65536)))
    else if region = 1 then BitVec.ofInt 32 (clampInt 0 (2 ^ 32 - 1) (roundAt (k + i) ((v - lo) * 2 ^ 32) (hi - lo)))
    else if region = 2 then
      (if v = hi then 0xFFFFFFFF else if v = lo then 0 else BitVec.ofNat 32 (Config.freeNat (k + i)))
    else if 0 < v || (v = 0 && Config.freeNat (k + i) % 2 = 1) then 0xFFFFFFFF else 0

/-- Forced states of HB0 to HB2: OFF while listening and between retries, LOW while braking (R375, R378). -/
def focForced (tl : Tile) : Word :=
  let st := startNow tl
  if tl.foc.retryAt.isSome || st = 1 then 0x15 else if st = 2 then 0x2A else 0

/-- Writes a port word of the tile; a LEG_CTL word arms what its LOAD_MASK names. -/
def focPort (t : Fin 16) (w : Nat) (v : Word) (s : State) : State :=
  legCtlArm (tileCluster t) (tileWord t w) v (tilePut t w v s)

/-- The duty words and the control group of the tick; a local tile arms itself. -/
def writeDuties (t : Fin 16) (ds : List Word) (s : State) : State :=
  let tl := s.tiles[t]
  let sign (w : Word) (k : Nat) : Word := bitAt (decide (w.toInt < 0)) k
  let ctl := focForced tl ||| sign tl.foc.iu 8 ||| sign tl.foc.iv 9 ||| sign tl.foc.iw 10
    ||| bitAt tl.regs.localField (16 + t.val % 4)
  let s := tilePuts t 0x80 (ds ++ [freeWord s]) (drawn s)
  focPort t 0x84 ctl s

/-- What the tick shows in port words 0x8C to 0x92 and in the registers (R382, R385). -/
def showFoc (t : Fin 16) (theta : Word) (w : Int) (m : Word) (region : BitVec 2) (d q : Word) (regen : Bool) (s : State) :
    State :=
  let s := modFocRegs t (fun r => { r with
    thetaE := theta, omegaE := sat32 (roundAt s.freeCtr w (2 ^ 32)), modIndex := m, modRegion := region, idMeas := d, iqMeas := q })
    (drawn s)
  let tl := s.tiles[t]
  let r := tl.foc.regs
  let flags := (startNow tl).zeroExtend 32 ||| (region.zeroExtend 32 <<< 4) ||| bitAt r.obsConverged 6 ||| bitAt regen 7
    ||| bitAt r.identifying 8
  tilePuts t 0x8C ([r.thetaE, r.omegaE, m, flags] ++ (if runsObserver s t then [r.thetaObs, tl.foc.omegaObs, r.pllErr] else [0, 0, 0])) s

/-! ### The tick -/

/-- A catch at the first tick of an encoder axis with FLY_EN (R380): the q loop takes over the motor's voltage, and the
set-point its speed. -/
def presetLoop (i : Fin 96) (e : Fin 32) (c : Nat) (u : Word) (s : State) : State :=
  ctxPut e c 0x14 (ctxGet s e c 0x14 ||| 0x10) (ctxPut e c 8 u (modLoop i (fun l => { l with bumpNext := false }) s))
def flyingCatch (t : Fin 16) (w : Word) (s : State) : State :=
  note Ev.flyingCatch (srcTile t) 0 w 0 (modFocRegs t (fun r => { r with
    catchCount := satInc r.catchCount, startCount := satInc r.startCount
    cntOvf := r.cntOvf || satFull r.catchCount || satFull r.startCount }) s)
def catches (tl : Tile) : Bool := tl.regs.tileState = 1 && !tl.pw.firstTick && tl.foc.regs.flyEn && !tl.foc.regs.angleSrc && focFirst tl.foc = 7

/-- Runs one current loop of the tick. -/
def currentLoop (i : Fin 96) (e : Fin 32) (c : Nat) (sp fb ff kp lo hi : Word) (s : State) : State :=
  runLaw i e c { sp := sp, fb := fb, x := (sp.toInt - fb.toInt) * 2 ^ 32, ff := ff, kp := kp, lo := lo, hi := hi
                 track := trackTarget s i } s

/-- The lowest step of a mask. -/
def firstStep (m : BitVec 5) : Nat := ((List.range 5).find? fun i => m.getLsbD i).getD 0
/-- The running step of an identification may end at a tick, and the next of the mask begins: the spec gives the steps no
length, so whether it does is free (R381, R386).  The OFFSET step, done, sets OFFSET_VALID (R370). -/
def identTick (t : Fin 16) (s : State) : State :=
  let f := s.tiles[t].foc
  if !f.regs.identifying then s
  else
    let cur := f.ident.identState.toNat - 1
    match (List.range 5).find? fun i => cur < i && f.identMask.getLsbD i with
    | some n =>
      if freeBool s then modFoc t (fun f => { f with
          regs := { f.regs with offsetValid := f.regs.offsetValid || cur = 0 }
          ident := { f.ident with
          identState := BitVec.ofNat 4 (n + 1), identDone := f.ident.identDone ||| BitVec.ofNat 5 (2 ^ cur) } }) (drawn s)
      else drawn s
    | none => s

/-- The current tick of tile t, with the contexts of its loops 4a and 4a + 3 on engine e (R357). -/
def focTick (t : Fin 16) (e : Fin 32) (cq cd : Nat) (due : Word) (s : State) : State :=
  let iq := tileLoop t 0
  let idl := tileLoop t 3
  let s := identTick t (startTick t (observerTick t (takeCurrents t due s)))
  let (theta, v) := focAngle s.freeCtr s t
  let f := s.tiles[t].foc
  let w := elecFreq f v
  let (d, q) := clarkePark (s.freeCtr + 1) f.iu f.iv f.iw theta
  let s := modFoc t (fun f => { f with avg := ((d, q) :: f.avg).take 64 }) (drew 3 s)
  let (fd, fq) := feedbackDq s.freeCtr s t w d q
  let s := drew 3 s
  let x := limitCurrents (s.freeCtr + 3) s t v (focDemand s t e cq)
  let s := modAxis (tileAxis t) (fun ax => { ax with atIHome := x.flag }) (drew 6 s)
  let s := innerTicked iq (holdVelocity t e x s)
  let k := s.freeCtr
  let ffd := sat32 (-(ffVolt k s t w (f149 f.regs.lq) (some q.toInt)))
  let ffq := sat32 (ffVolt (k + 1) s t w (f149 f.regs.ld) (some d.toInt) + ffVolt (k + 2) s t w (f149 f.regs.psi) none)
  let kpd := focKp (k + 3) s t (ctxGet s e cd 0x20)
  let kpq := focKp (k + 4) s t (ctxGet s e cq 0x20)
  let s := drew 5 s
  let s := if catches s.tiles[t] then
      let a := s.axes[tileAxis t]
      let s := presetLoop idl e cd 0 (presetLoop iq e cq ffq s)
      flyingCatch t (sat32 (v / 2 ^ 32)) (modAxis (tileAxis t) (fun ax => { ax with regs := { ax.regs with spVel := a.regs.actVel, spAcc := 0 } }) s)
    else s
  let s := currentLoop idl e cd x.id fd ffd kpd (ctxLo s e cd) (ctxHi s e cd) s
  let mm := f.regs.mMax.toNat
  let ud := clampInt (-mm) mm (ctxGet s e cd 8).toInt
  let qb := sqrtAt s.freeCtr (mm * mm - ud.natAbs * ud.natAbs)
  let s := currentLoop iq e cq x.iq fq ffq kpq (tighterLo (ctxLo s e cq) qb) (tighterHi (ctxHi s e cq) qb) (drawn s)
  let uq := (ctxGet s e cq 8).toInt
  let m2 := ud.natAbs * ud.natAbs + uq.natAbs * uq.natAbs
  let region := regionOfM m2
  let m : Word := if region = 3 then 0x80000000 else BitVec.ofNat 32 (sqrtAt s.freeCtr m2)
  let adv := BitVec.ofInt 32 (roundAt (s.freeCtr + 1) (w.1 * f.regs.angleAdv.toNat * 2 ^ 32) (w.2 * 10 ^ 9))
  let st := startNow s.tiles[t]
  let ds := if st = 3 then [0x80000000, 0x80000000, 0x80000000]
    else if f.regs.identifying then (List.range 3).map fun i => BitVec.ofNat 32 (Config.freeNat (s.freeCtr + 2 + i))
    else duties (s.freeCtr + 2) region (phaseRefs ud uq (theta + adv))
  let s := writeDuties t ds (modFoc t (fun f => { f with ud := BitVec.ofInt 32 ud, uq := BitVec.ofInt 32 uq }) (drew 6 s))
  showFoc t theta v m region d q x.regen s

end Sys2Proof.Machine
end

