-- ==== Sys2Proof/Machine/SvTick.lean ====
section
/-! DEFINITION. Stepper and valve tiles: microstep addresses, the bitstream chopper, the current tick of both modes
(R388 to R406). -/

namespace Sys2Proof.Machine

def modSv (t : Fin 16) (f : Sv → Sv) (s : State) : State := modTile t (fun tl => { tl with sv := f tl.sv }) s
def modSvRegs (t : Fin 16) (f : SvRegs → SvRegs) (s : State) : State := modSv t (fun v => { v with regs := f v.regs }) s
def modChop (t : Fin 16) (c : Fin 2) (f : Chopper → Chopper) (s : State) : State :=
  modSv t (fun v => { v with chop := upd v.chop c f }) s

/-! ### Microstepping (R390 to R392, R400) -/

/-- A table entry: A the cosine, B the sine of table 0, or the loaded pair (R390). -/
def stepEntry (s : State) (t : Fin 16) (c : Fin 2) : Int :=
  let v := s.tiles[t].sv
  let k := appliedAddr s t
  if v.regs.tableSel then
    let w := memWord v.table k.toNat
    (if c = 0 then w.extractLsb' 0 16 else w.extractLsb' 16 16).toInt
  else
    let a : Word := k.zeroExtend 32 <<< 22
    (32767 * (if c = 0 then cos80 a else sin80 a) + 2 ^ 79) / 2 ^ 80
/-- The reference of a coil, in units of 2^-15. -/
def coilRef (s : State) (t : Fin 16) (c : Fin 2) : Int := s.tiles[t].sv.amp.toInt * stepEntry s t c

/-- The set-point and position of a stopped stepper are its frozen count (R400). -/
def frozenPos (x : Fix) (c : Word) : Fix :=
  fixInt (x.toInt / 2 ^ 32 + (c - BitVec.ofInt 32 (x.toInt / 2 ^ 32)).toInt)

/-- The due edge of a current tick: the tile takes STEP_TARGET and STEP_AMP; a stop in force freezes the address that it has
reached; before the first tick since enable nothing has been written (R391, R400). -/
def stepTake (t : Fin 16) (due : Fix) (s : State) : State :=
  let a := tileAxis t
  let tl := s.tiles[t]
  if tl.regs.mode ≠ 2 then s
  else if tl.sv.frozen then
    let held := s.axes[a].stopping || s.axes[a].holdSince.isSome
    let s := modSv t (fun v => { v with prevTarget := v.target, takeAt := due, frozen := held, amp := tileGet s t 0x89 }) s
    let s := if s.axes[a].slotStop then disableAxis a s else s
    modAxis a (fun ax => { ax with regs := { ax.regs with
      spPos := frozenPos ax.regs.spPos tl.sv.target, spVel := 0, spAcc := 0
      actPos := if stepperClosed s t then ax.regs.actPos else frozenPos ax.regs.spPos tl.sv.target } }) s
  else
    let first := !tl.pw.firstTick
    let target := if first then nsLo s.axes[a].regs.spPos else tileGet s t 0x88
    let s := modSv t (fun v => { v with
      prevTarget := if first then target else v.target, target := target, takeAt := due
      moved := if first then 0 else v.moved
      amp := if first then 0 else tileGet s t 0x89 }) s
    tilePut t 0x8F (nsLo due) s

/-- STEP_AMP at a tick: I_RUN while the set-point moves, I_HOLD after T_IDLE, derated, limited while homing on a stop
(R392, R578, R202). -/
def stepAmp (k : Nat) (s : State) (t : Fin 16) : Nat :=
  let v := s.tiles[t].sv
  let i := if v.idle && !stepperClosed s t then v.regs.iHold.toNat else v.regs.iRun.toNat
  let m := derated k s t i
  match homeCurrent (k + 1) s (tileAxis t) with
  | some h => min m h
  | none => m

/-- The load angle is estimated at this tick: the applied address is fast enough (R398). -/
def stallReads (s : State) (t : Fin 16) : Bool :=
  let tl := s.tiles[t]
  let (n, d) := tickLen s t
  tl.regs.tileState = 2 && tl.sv.regs.stallThr ≠ 0 && 0 < n
    && decide (tl.sv.regs.stallMinSpeed.toNat * n ≤ (tl.sv.target - tl.sv.prevTarget).toInt.natAbs * d * 10 ^ 9)

/-- The load angle: SD4 and SD5 have no stated scale, so the estimate itself is free (R398). -/
def stallTick (t : Fin 16) (s : State) : State :=
  if stallReads s t then
    let x := freeIn s (-32768) 32767
    let s := modSv t (fun v => { v with
      stallRun := if v.regs.stallThr.toNat < x.natAbs then v.stallRun + 1 else 0
      regs := { v.regs with loadAngle := BitVec.ofInt 32 x } }) (drawn s)
    s
  else modSv t (fun v => { v with stallRun := 0 }) s

/-- The current tick of a stepper program (R391, R392, R398, R401). -/
def stepTick (t : Fin 16) (e : Fin 32) (ca cb : Nat) (tau : Int) (due : Word) (s : State) : State :=
  let a := tileAxis t
  let ax := s.axes[a]
  let moves := decide (ax.regs.spVel ≠ 0)
  let s := modSv t (fun v => { v with
    idleSince := if moves then none else some (v.idleSince.getD s.dt), idle := v.idle && !moves }) s
  let (sp, _) := spAt s.freeCtr (rateLoop s t).spInterp ax tau
  let target : Word := if stepperClosed s t then
      BitVec.ofInt 32 (posNow s t / 2 ^ 32 + clampInt (-256) 256 (outerOut s (tileLoop t 1) e ca))
    else BitVec.ofInt 32 (sp / 2 ^ 32)
  let amp := stepAmp (s.freeCtr + 2) s t
  let s := stallTick t (drew 4 s)
  let k := s.freeCtr
  let s := tilePuts t 0x88 [target, BitVec.ofNat 32 amp, s.tiles[t].sv.regs.loadAngle] s
  let node (c : Fin 2) : List Word := [sat32 (roundAt (k + c.val) (coilRef s t c) (2 ^ 15)),
    sdAt s (tileSd t (if c = 0 then 0 else 1)) due]
  ctxPuts e cb 0 (node 1) (ctxPuts e ca 0 (node 0) (drew 2 s))

/-! ### The bitstream chopper (R393 to R397) -/

/-- Port words 0x8C and 0x8D (R407). -/
def chopWord (c : Chopper) : Word :=
  bitAt (c.state = 1) 0 ||| bitAt (c.state = 3) 1 ||| bitAt (c.state = 2) 2 ||| bitAt c.blank 3 ||| bitAt c.under 4
    ||| (c.cycles.zeroExtend 32 <<< 16)
def showChop (t : Fin 16) (c : Fin 2) (s : State) : State := tilePut t (0x8C + c.val) (chopWord s.tiles[t].sv.chop[c]) s

/-- Levels of the first and second leg of a coil in a state, with the polarity of its reference (R394). -/
def chopLegs (st : BitVec 2) (pos : Bool) : Bool × Bool :=
  if st = 1 then (pos, !pos) else if st = 3 then (!pos, pos) else (false, false)

/-- A leg of a coil takes a level: an interval in progress is stretched to t_m (R395). -/
def chopLeg (t : Fin 16) (c : Fin 2) (i : Fin 2) (lvl : Bool) (s : State) : State :=
  let tl := s.tiles[t]
  let h : Fin 4 := ⟨2 * c.val + i.val, by omega⟩
  let x := tl.sv.chop[c]
  if x.high[i] = lvl then s
  else
    let ends := x.since[i].toNat + minInterval tl h * 0x14000000
    let short := decide (s.dt.toNat < ends)
    let s := modChop t c (fun x => { x with
      high := x.high.set i lvl, since := x.since.set i (if short then BitVec.ofNat 96 ends else s.dt) }) s
    if short then modTileRegs t (fun r => { r with
      stretchCount := satInc r.stretchCount, cntOvf := r.cntOvf || satFull r.stretchCount }) s else s

/-- The chopper of a coil enters a state; a leg change starts the blanking (R395). -/
def setChop (t : Fin 16) (c : Fin 2) (st : BitVec 2) (pos : Bool) (s : State) : State :=
  let (h0, h1) := chopLegs st pos
  let old := s.tiles[t].sv.chop[c]
  let changed := old.high[(0 : Fin 2)] ≠ h0 || old.high[(1 : Fin 2)] ≠ h1
  let s := chopLeg t c 1 h1 (chopLeg t c 0 h0 s)
  modChop t c (fun x => { x with
    state := st, blank := if changed then s.tiles[t].sv.regs.tBlank ≠ 0 else x.blank
    blankAt := if changed then s.dt else x.blankAt
    fastAt := if st = 3 then s.dt else x.fastAt }) s

def ofsOf (r : SvRegs) (c : Fin 2) : Word := if c = 0 then r.ofsA else r.ofsB
/-- The offset after a cycle of mean m (R396). -/
def newOfs (r : SvRegs) (ofs : Int) (ref m : Int) (pos : Bool) : Int :=
  let e := (sat32 (ref - (if pos then m else -m))).toInt
  clampInt (-(r.ofsMax.toNat : Int)) r.ofsMax.toNat (sat32 (ofs + e / 2 ^ r.ofsShift.toNat)).toInt

/-- The cycle that ends as a new DRIVE interval starts: its mean moves the offset, unless it was underdriven. -/
def endCycle (t : Fin 16) (c : Fin 2) (ref : Int) (s : State) : State :=
  let x := s.tiles[t].sv.chop[c]
  if x.driveAt = 0 || x.n = 0 then s
  else
    let m := roundAt s.freeCtr x.sum.toInt x.n
    let r := roundAt (s.freeCtr + 1) ref.natAbs (2 ^ 15)
    let put (v : Sv) : Sv :=
      let ofs := BitVec.ofInt 32 (newOfs v.regs (ofsOf v.regs c).toInt r m (decide (0 ≤ ref)))
      let g := v.regs
      let g := if c = 0 then { g with meanA := BitVec.ofInt 32 m, ofsA := if x.under then g.ofsA else ofs }
        else { g with meanB := BitVec.ofInt 32 m, ofsB := if x.under then g.ofsB else ofs }
      { v with regs := if c = 0 then { g with chopCyclesA := satInc g.chopCyclesA, cntOvf := g.cntOvf || satFull g.chopCyclesA }
                  else { g with chopCyclesB := satInc g.chopCyclesB, cntOvf := g.cntOvf || satFull g.chopCyclesB } }
    modChop t c (fun x => { x with cycles := x.cycles + 1 }) (modSv t put (drew 2 s))

/-- A DRIVE interval starts. -/
def startDrive (t : Fin 16) (c : Fin 2) (ref : Int) (s : State) : State :=
  let s := endCycle t c ref s
  setChop t c 1 (decide (0 < ref)) (modChop t c (fun x => { x with
    sum := 0, n := 0, driveAt := s.dt, reached := false, under := false }) s)

/-- U is reached: decay of the kind set; the run of underdriven cycles ends (R394, R397). -/
def startDecay (t : Fin 16) (c : Fin 2) (ref : Int) (s : State) : State :=
  let s := modSvRegs t (fun r => { r with underdrive := r.underdrive &&& ~~~(BitVec.ofNat 2 (2 ^ c.val)) }) s
  setChop t c (if s.tiles[t].sv.regs.decay = 0 then 2 else 3) (decide (0 < ref)) (modChop t c (fun x => { x with told := false }) s)

/-- The decision of the chopper on its estimate (R394). -/
def chopDecide (t : Fin 16) (c : Fin 2) (s : State) : State :=
  let tl := s.tiles[t]
  let x := tl.sv.chop[c]
  let ref := coilRef s t c
  let pos := decide (0 < ref)
  -- s × i_s1, U and Lo in units of 2^-16
  let v : Int := (if pos then x.est.toInt else -x.est.toInt) * 2 ^ 16
  let mid := 2 * (ref.natAbs : Int) + (ofsOf tl.sv.regs c).toInt * 2 ^ 16
  let half := (tl.sv.regs.hyst.toNat : Int) * 2 ^ 15
  if tl.regs.tileState ≠ 2 || tl.regs.mode ≠ 2 then s
  else if ref = 0 then (if x.state = 2 then s else setChop t c 2 true s)
  else if x.state = 1 then (if mid + half ≤ v then startDecay t c ref s else setChop t c 1 pos s)
  else if v ≤ mid - half then startDrive t c ref s
  else if x.state = 0 then setChop t c 2 pos s
  else setChop t c x.state pos s

/-- One bit of the coil's bitstream (R393); no estimate before CHOP_N bits. -/
def chopBit (t : Fin 16) (c : Fin 2) (b : Bool) (s : State) : State :=
  let r := s.tiles[t].sv.regs
  let n := r.chopN.toNat
  let x := s.tiles[t].sv.chop[c]
  let w := (b :: x.window).take n
  if w.length < n || n = 0 then modChop t c (fun x => { x with window := w }) s
  else
    let ones : Int := (w.filter id).length
    let est := clampInt (-(2 ^ 31)) (2 ^ 31 - 1) (roundAt s.freeCtr ((2 * ones - n) * 2 ^ 31) n)
    let s := modChop t c (fun x => { x with
      window := w, est := BitVec.ofInt 32 est, sum := x.sum + BitVec.ofInt 64 est, n := x.n + 1
      reached := x.reached || decide (r.hyst.toNat ≤ est.natAbs) }) (drawn s)
    if x.blank then s else chopDecide t c s

/-! ### Valves (R402 to R404) -/

/-- The dither at an instant in ns, whole and frac: DITHER_AMP × w(φ) (R404). -/
def ditherAt (k : Nat) (r : SvRegs) (dt : Fix) : Int :=
  if r.ditherF = 0 then 0
  else
    let one := 10 ^ 9 * 2 ^ 32
    let ph := dt.toNat * r.ditherF.toNat % one
    if r.ditherWave then
      let w : Int := if 4 * ph < one then 4 * ph else if 4 * ph < 3 * one then 2 * one - 4 * ph else 4 * ph - 4 * one
      roundAt k (r.ditherAmp.toInt * w) one
    else roundAt k (r.ditherAmp.toInt * sin80 (BitVec.ofNat 32 (ph * 2 ^ 32 / one))) (2 ^ 80)

/-- The coil demand before dither: the OUT of the next loop outward, or the host's record with TOP = 2. -/
def valveDemand (k : Nat) (s : State) (t : Fin 16) (e : Fin 32) (c : Nat) : Int :=
  let r := rateLoop s t
  let l := s.loops[tileLoop t 0]
  if r.top = 2 then qDemand k s t e c
  else if s.tiles[t].sv.regs.velEn then qDemand k s t e c
  else interpolate k r.innerInterp l.prevOuter.toInt (outerOut s (tileLoop t 2) e c) l.innerTick (r.kv.toNat * r.kpDiv.toNat)
    + ctxTrim s e c

/-- Word 1 of the axis's host input record. -/
def hostWord1 (s : State) (t : Fin 16) : Word :=
  ((List.finRange 64).findSome? fun i =>
    if (s.cyclic.recAxis[i]).toNat = t.val then some (s.cyclic.inForce.recs.getD (4 * i.val + 1) 0) else none).getD 0

/-- The set-points of both coils for the demand d (R402). -/
def coilSplit (mode : BitVec 2) (d : Int) (free1 : Word) : Int × Int :=
  if mode = 0 then (d, 0) else if mode = 1 then (max d 0, max (-d) 0) else if mode = 2 then (d, d) else (d, free1.toInt)

/-- A coil loop that stays clamped with next to no current (R406). -/
def openRun (t : Fin 16) (c : Fin 2) (i : Fin 96) (sp fb : Word) (s : State) : State :=
  let l := s.loops[i]
  let bad := (l.clampHi || l.clampLo) && decide (8 * abs32 fb < abs32 sp)
  modSv t (fun v => { v with openSince := upd v.openSince c fun o => if bad then some (o.getD s.dt) else none }) s

/-- The duty of the first half-bridge of a coil for an OUT; the second one's is its mirror (R402). -/
def coilDuty (k : Nat) (out : Word) : List Word :=
  let h := roundAt k out.toInt 2
  [BitVec.ofInt 32 (2 ^ 31 + h), BitVec.ofInt 32 (2 ^ 31 - h)]

/-- The current tick of a valve (R402 to R404). -/
def valveTick (t : Fin 16) (e : Fin 32) (c0 c1 : Nat) (due : Fix) (s : State) : State :=
  let tl := s.tiles[t]
  let r := tl.sv.regs
  let k := s.freeCtr
  let w := ditherAt k r due
  let m : Int := derated (k + 1) s t r.iCoilMax.toNat
  let m := match homeCurrent (k + 3) s (tileAxis t) with
    | some h => min m h
    | none => m
  let x := valveDemand (k + 2) s t e c0 + w
  let d := clampInt (-m) m x
  let s := modAxis (tileAxis t) (fun ax => { ax with atIHome := decide (m ≤ x.natAbs) }) s
  let (x0, x1) := coilSplit r.coil1Mode d (hostWord1 s t)
  let sp0 := sat32 x0
  let sp1 := sat32 x1
  let fb0 := sdAt s (tileSd t 0) (nsLo due)
  let fb1 := sdAt s (tileSd t 1) (nsLo due)
  let i0 := tileLoop t 0
  let i1 := tileLoop t 3
  let s := innerTicked i0 (modSvRegs t (fun r => { r with ditherOn := r.ditherF ≠ 0 }) (drew 4 s))
  let s := wordTick i0 e c0 sp0 fb0 (ctxGet s e c0 0x11) s
  let s := wordTick i1 e c1 sp1 fb1 (ctxGet s e c1 0x11) s
  let s := openRun t 1 i1 sp1 fb1 (openRun t 0 i0 sp0 fb0 s)
  let ds := coilDuty s.freeCtr (ctxGet s e c0 8) ++ coilDuty (s.freeCtr + 1) (ctxGet s e c1 8)
  let sign (b : Bool) (k : Nat) : Word := bitAt b k
  let ctl := (if r.coil1Mode = 0 then (0x50 : Word) else 0) ||| sign (fb0.toInt < 0) 8 ||| sign (0 < fb0.toInt) 9
    ||| sign (fb1.toInt < 0) 10 ||| sign (0 < fb1.toInt) 11 ||| bitAt tl.regs.localField (16 + t.val % 4)
  focPort t 0x84 ctl (tilePuts t 0x88 [sp0, sp1, sat32 w] (tilePuts t 0x80 ds (drew 2 s)))

end Sys2Proof.Machine
end

