-- ==== Sys2Proof/Machine/Foc.lean ====
section
/-! DEFINITION. Group 0x09, field control: starting without a sensor, identification, the events and commands
(R370 to R387). -/

namespace Sys2Proof.Machine

abbrev Out9 := Host.Outcome State Fault Refusal

/-- The tile is in SERVO3 and RUN in the start state. -/
def inStart (s : State) (t : Fin 16) (st : BitVec 3) : Bool :=
  let tl := s.tiles[t]
  tl.regs.mode = 1 && tl.regs.tileState = 2 && tl.foc.retryAt.isNone && tl.foc.regs.startState = st
def sensorlessTile (s : State) (t : Fin 16) : Bool := s.tiles[t].regs.mode = 1 && s.tiles[t].foc.regs.angleSrc

/-! ### Starting (R370, R375 to R380) -/

/-- OUT of a loop is given, and its next AUTO tick takes it over without a bump (R376, R380). -/
def presetOut (i : Fin 96) (v : Word) (s : State) : State :=
  match loopPlace s i with
  | some (e, k, c) => stagingWrite e (some k) (c + 8) [v] (modLoop i (fun l => { l with bumpNext := true }) s)
  | none => s

/-- The axis's velocity set-point starts from a speed in counts per second. -/
def startSpeed (t : Fin 16) (w : Word) (s : State) : State :=
  modAxis (tileAxis t) (fun ax => { ax with regs := { ax.regs with spVel := fixInt w.toInt, spAcc := 0 } }) s

/-- LISTEN finds the motor turning fast enough: CLOSED at its speed, on its own voltage (R379, R380). -/
def catchMotor (t : Fin 16) (emf omega : Word) (s : State) : State :=
  let u : Word := if omega.toInt < 0 then -emf else emf
  let s := modFoc t (fun f =>
    let f := enterStart 7 s f
    { f with omegaObs := omega, prevTheta := f.regs.thetaObs, blendAt := none
             regs := { f.regs with obsConverged := true } }) s
  let s := presetOut (tileLoop t 1) 0 (presetOut (tileLoop t 0) u (presetOut (tileLoop t 3) 0 s))
  flyingCatch t omega (startSpeed t omega (markUncertain (tileAxis t) s))

/-- The start state in force has lasted so many ms. -/
def inStartFor (s : State) (t : Fin 16) (ms : Nat) : Bool := hasPassed s.tiles[t].foc.stateAt (1000000 * ms) s

/-- LISTEN_END (R379): 5 ms of listening, with the back-EMF amplitude in Q1.31 of 2 V_dc / π and the observer's speed. -/
def execListenEnd (t : Fin 16) (emf omega : Word) (s : State) : Out9 :=
  if !(sensorlessTile s t && inStart s t 1 && inStartFor s t 5) then .next s
  else
    let r := s.tiles[t].foc.regs
    let go (st : BitVec 3) : State := modFoc t (enterStart st s) s
    if emf.toNat < r.flyMinEmf.toNat then .next (go 3)
    else if abs32 omega < r.vCatch.toNat then .next (go 2)
    else if 20 * emf.toNat ≤ 19 * r.mMax.toNat then .next (catchMotor t emf omega s)
    else .next s

/-- BRAKE_END (R375): T_BRAKE has elapsed. -/
def execBrakeEnd (t : Fin 16) (s : State) : Out9 :=
  if sensorlessTile s t && inStart s t 2 && inStartFor s t s.tiles[t].foc.regs.tBrake.toNat then .next (modFoc t (enterStart 3 s) s) else .next s

/-- ALIGN_END (R370, R375): T_ALIGN has elapsed; an encoder axis now knows its angle. -/
def execAlignEnd (t : Fin 16) (s : State) : Out9 :=
  if !(inStart s t 4 && inStartFor s t s.tiles[t].foc.regs.tAlign.toNat) then .next s
  else if sensorlessTile s t then .next (modFoc t (fun f => { enterStart 5 s f with olVel := 0 }) s)
  else
    .next (modFoc t (fun f =>
      let raw := encoderAngle { f with regs := { f.regs with angleOffset := 0 } } (srcCount s.encs[tileEnc t])
      { enterStart 7 s f with
        aligning := false, regs := { (enterStart 7 s f).regs with angleOffset := -raw, offsetValid := true } }) s)

/-- HANDOVER ends: the angle moves over to the observer's, the velocity loop takes over the open-loop current (R376). -/
def handOver (t : Fin 16) (s : State) : State :=
  let f := s.tiles[t].foc
  let d := f.olTheta - f.regs.thetaObs
  let q := sat32 (roundAt s.freeCtr (f.regs.iStart.toInt * sin80 d) (2 ^ 80))
  let s := modFoc t (fun f => { enterStart 7 s f with
    olTheta := d, blendAt := some s.dt, prevTheta := f.regs.thetaObs }) (drawn s)
  startSpeed t f.omegaObs (presetOut (tileLoop t 1) q s)

/-- OBS_CONVERGED_EVT (R372): the error has stayed within CONV_THR for CONV_TIME at sufficient speed. -/
def execObsConvergedEvt (t : Fin 16) (s : State) : Out9 :=
  let f := s.tiles[t].foc
  let may := runsObserver s t && s.tiles[t].regs.mode = 1 && !f.regs.obsConverged
    && f.convSince.any (fun b => hasPassed b (1000000 * f.regs.convTime.toNat) s)
    && (!f.regs.angleSrc || inStart s t 6)
  if !may then .next s
  else
    let s := note Ev.obsConvergedEvt (srcTile t) 0 0 0 (modFocRegs t (fun r => { r with obsConverged := true }) s)
    .next (if f.regs.angleSrc then handOver t s else s)

/-- START_TIMEOUT (R378): T_START_TIMEOUT without convergence, or with the motor too fast to catch. -/
def execStartTimeout (t : Fin 16) (s : State) : Out9 :=
  if !(sensorlessTile s t && (inStart s t 6 || inStart s t 1)
      && inStartFor s t s.tiles[t].foc.regs.tStartTimeout.toNat) then .next s
  else
    let r := s.tiles[t].foc.regs
    if r.startTries.toNat < r.startRetries.toNat then
      let n := r.startTries + 1
      .next (note Ev.startRetry (srcTile t) (n.zeroExtend 32) 0 0 (modFoc t (fun f => { enterStart 0 s f with
        retryAt := some s.dt, regs := { (enterStart 0 s f).regs with startTries := n } }) s))
    else
      let s := modFocRegs t (fun r => { r with
        startFailCount := satInc r.startFailCount, startFailSeen := true, cntOvf := r.cntOvf || satFull r.startFailCount }) s
      let a := tileAxis t
      .next (disableAxis a (raise Ev.startFailed (srcTile t) s.policy.startFailed false (r.startTries.zeroExtend 32) 0 0 [a] s))

/-- START_RETRY_WAIT_END (R378): the start is made again. -/
def execStartRetryWaitEnd (t : Fin 16) (s : State) : Out9 :=
  let f := s.tiles[t].foc
  if sensorlessTile s t && s.tiles[t].regs.tileState = 2
      && f.retryAt.any (fun b => hasPassed b (1000000 * f.regs.tRetryWait.toNat) s) then
    let s := if f.regs.flyEn then s else markUncertain (tileAxis t) s
    .next (modFoc t (fun f => { enterStart (if f.regs.flyEn then 1 else 4) s f with
      retryAt := none, olTheta := thetaZero f.startPos, olVel := 0 }) s)
  else .next s

/-- OBSERVER_LOST (R377): the error has exceeded 4 × CONV_THR for CONV_TIME; the axis goes on in RAMP. -/
def execObserverLost (t : Fin 16) (s : State) : Out9 :=
  let f := s.tiles[t].foc
  if !(sensorlessTile s t && inStart s t 7
      && f.lostSince.any (fun b => hasPassed b (1000000 * f.regs.convTime.toNat) s)) then .next s
  else
    let s := modFoc t (fun f => { enterStart 5 s f with
      lostSince := none, olTheta := f.regs.thetaObs, olVel := fixInt f.omegaObs.toInt, blendAt := none
      regs := { (enterStart 5 s f).regs with obsLostSeen := true } }) s
    .next (raise Ev.observerLost (srcTile t) s.policy.obsLost false 0 f.regs.pllErr 0 [tileAxis t] s)

/-! ### Current sensing (R364, R368) -/

/-- CURRENT_SUM_ERROR (R364): the sum has been off on 8 ticks in a row. -/
def execCurrentSumError (t : Fin 16) (s : State) : Out9 :=
  let f := s.tiles[t].foc
  if f.sumRun < 8 then .next s
  else
    let s := modFoc t (fun f => { f with sumRun := 0, regs := { f.regs with sumErrSeen := true } }) s
    .next (raise Ev.currentSumError (srcTile t) s.policy.sumErr false 0 (sat32 (f.iu.toInt + f.iv.toInt + f.iw.toInt)) 0
      [tileAxis t] s)

/-- SENSE_NO_WINDOW (R368): more than PRED_MAX periods in a row are predicted. -/
def execSenseNoWindow (t : Fin 16) (s : State) : Out9 :=
  let f := s.tiles[t].foc
  if f.noWindow || f.predRun ≤ f.regs.predMax.toNat then .next s
  else
    let s := modFoc t (fun f => { f with noWindow := true, goodRun := 0, regs := { f.regs with noWindowSeen := true } }) s
    .next (raise Ev.senseNoWindow (srcTile t) s.policy.noWindow true (natWord f.predRun) 0 0 [tileAxis t] s)

/-! ### Identification (R381, R386) -/

/-- A result outside 10^-4 to 10^4 times the parameter in force, negative, or no number (R381); beside a parameter of 0 the spec
states no bound, and whether the result passes is free (log entry 135). -/
def implausible (s : State) (new old : Word) : Bool :=
  let x := f149 new
  let y := f149 old
  new.extractLsb' 23 8 = 0xFF || decide (x < 0)
    || (if y = 0 then freeBool s else decide (x * 10000 < y) || decide (10000 * y < x))
/-- Step i of an identification found a result that is not plausible. -/
def stepImplausible (s : State) (t : Fin 16) (r : IdentOutcome) (i : Nat) : Bool :=
  let f := s.tiles[t].foc.regs
  let l := s.loops[tileLoop t 1].regs
  match i with
  | 1 => implausible s r.rs f.rs
  | 2 => implausible s r.ld f.ld || implausible s r.lq f.lq
  | 3 => implausible s r.psi f.psi
  | 4 => implausible s r.ka l.supKaKq || implausible s r.kb l.supKbDb || implausible s r.kf l.supKf
  | _ => false

/-- IDENT_COMPLETE (R381): the run ends with what its steps measured.  A step whose result is not plausible ends it; the aborts
are the effects of the stops, faults and vents themselves. -/
def execIdentComplete (t : Fin 16) (r : IdentOutcome) (s : State) : Out9 :=
  let f := s.tiles[t].foc
  if !f.regs.identifying then .next s
  else
    let fails := (List.range 5).find? fun i => f.identMask.getLsbD i && stepImplausible s t r i
    let done := f.identMask &&& (match fails with
      | some i => BitVec.ofNat 5 (2 ^ i - 1)
      | none => 31)
    let pick (i : Nat) (new old : Word) : Word := if done.getLsbD i then new else old
    let st := if fails.isSome then Status.identImplausible else Status.ok
    let s := modFoc t (fun f => { f with
      regs := { f.regs with identifying := false, offsetValid := f.regs.offsetValid || done.getLsbD 0 }
      ident := { f.ident with
        identDone := done, identFailStep := (fails.map (BitVec.ofNat 3)).getD 7, identState := if fails.isSome then 7 else 6
        idOffset := pick 0 r.offset f.ident.idOffset, idRs := pick 1 r.rs f.ident.idRs, idLd := pick 2 r.ld f.ident.idLd
        idLq := pick 2 r.lq f.ident.idLq, idPsi := pick 3 r.psi f.ident.idPsi, idKa := pick 4 r.ka f.ident.idKa
        idKb := pick 4 r.kb f.ident.idKb, idKf := pick 4 r.kf f.ident.idKf, idRunDt := nsLo s.dt } }) (drawn s)
    .next (endOps (fun o => o.op = 0x0907 && o.target.toNat = t.val) st s)

/-! ### Commands (R384) -/

def servo3 (p : Packet) (s : State) : BitVec 16 :=
  if s.tiles[tileFromPacket p].regs.mode = 1 then Status.ok else Status.notServo3
/-- A finite float32 above zero. -/
def f32Positive (w : Word) : Bool := decide (0 < f149 w)
/-- A finite float32 from lo to hi. -/
def f32In (lo hi : Nat) (w : Word) : Bool := decide ((lo : Int) * 2 ^ 149 ≤ f149 w) && decide (f149 w ≤ (hi : Int) * 2 ^ 149)

def stFocMotorSet : StageOp :=
  { d := tileOp 0x0901 .yes 9
    accept := fun p _ => if [0, 1, 2, 3].all (fun i => f32Positive (par p i)) && par p 5 ≠ 0 && parIn p 8 0 1 then Status.ok
      else Status.paramRange
    check := servo3
    apply := fun p => modFocRegs (tileFromPacket p) (fun r => { r with
      rs := par p 0, ld := par p 1, lq := par p 2, psi := par p 3, iFsMa := par p 4, eperiodNum := par p 5, eperiodDen := par p 6
      angleOffset := if parBool p 8 then par p 7 else r.angleOffset, offsetValid := parBool p 8 || r.offsetValid }) }
/-- FOC_MOTOR_SET (R356, R369, R370). -/
def execFocMotorSet (p : Packet) (s : State) : Out9 := .next (stageRequest stFocMotorSet p s)

/-- The windows of a LEG_SHUNT tile hold at least 3R modulator periods of each phase's channel (R416). -/
def windowHolds (s : State) (t : Fin 16) (winLen : Nat) : Bool :=
  ([0, 1, 2] : List (Fin 10)).all fun k =>
    let r := s.sds[tileSd t k].regs
    decide (15 * r.r.toNat * (s.sdClks.getD r.clkSel.toNat {}).div.toNat ≤ 2 * winLen)
def acceptFocConfig (p : Packet) (_ : State) : BitVec 16 :=
  if ([0, 1, 2, 5, 6, 7, 8] : List Nat).all (fun i => parIn p i 0 1) && parIn p 3 1000 20000 && parIn p 4 0 5000
      && parIn p 9 0 100000 && parIn p 14 1 255 then Status.ok else Status.paramRange
def checkFocConfig (p : Packet) (s : State) : BitVec 16 :=
  let t := tileFromPacket p
  let tl := s.tiles[t]
  let r := tl.foc.regs
  if tl.regs.mode ≠ 1 then Status.notServo3
  else if parBool p 0 && (!tl.regs.centre || tl.regs.double) then Status.senseCarrierInvalid
  else if parBool p 0 && !windowHolds s t (parNat p 3) then Status.sdWindowShort
  else if (s.axes[tileAxis t]).enabled && (parBool p 0 ≠ r.sense || parBool p 5 ≠ r.angleSrc) then Status.axisEnabled
  else Status.ok
def applyFocConfig (p : Packet) (s : State) : State :=
  let t := tileFromPacket p
  modFocRegs t (fun r => { r with
    sense := parBool p 0, three := parBool p 1, shiftEn := parBool p 2, winLen := parBits p 3 15, tSettle := parBits p 4 13
    angleSrc := parBool p 5, voltSrc := parBool p 6, alignAtEnable := parBool p 7, flyEn := parBool p 8
    angleAdv := parBits p 9 17, idRef := par p 10, iMax := par p 11, iTrip := par p 12, iSumThr := par p 13
    predMax := parBits p 14 8 }) s
def stFocConfig : StageOp :=
  { d := tileOp 0x0902 .yes 15, accept := acceptFocConfig, check := checkFocConfig, apply := applyFocConfig }
/-- FOC_CONFIG (R357 to R369). -/
def execFocConfig (p : Packet) (s : State) : Out9 := .next (stageRequest stFocConfig p s)

def stFocModulationSet : StageOp :=
  { d := tileOp 0x0903 .yes 2
    accept := fun p _ => if parIn p 0 214748365 (2 ^ 31) && parIn p 1 0 (2 ^ 24) then Status.ok else Status.paramRange
    check := servo3
    apply := fun p => modFocRegs (tileFromPacket p) (fun r => { r with mMax := par p 0, omGain := par p 1 }) }
/-- FOC_MODULATION_SET (R359, R362). -/
def execFocModulationSet (p : Packet) (s : State) : Out9 := .next (stageRequest stFocModulationSet p s)

def stObserverConfig : StageOp :=
  { d := tileOp 0x0904 .yes 5
    accept := fun p _ => if f32In 50 5000 (par p 0) && f32In 5 500 (par p 1) && parIn p 3 0 0xFFFF && parIn p 4 1 1000
      then Status.ok else Status.paramRange
    check := servo3
    apply := fun p => modFocRegs (tileFromPacket p) (fun r => { r with
      obsBw := par p 0, pllBw := par p 1, obsMinSpeed := par p 2, convThr := parBits p 3 16, convTime := parBits p 4 10 }) }
/-- OBSERVER_CONFIG (R371, R372). -/
def execObserverConfig (p : Packet) (s : State) : Out9 := .next (stageRequest stObserverConfig p s)

def acceptStartConfig (p : Packet) (s : State) : BitVec 16 :=
  if parIn p 1 0 16383 && parIn p 5 0 100 && parIn p 6 10 10000 && parIn p 7 0 15 && parIn p 8 0 10000 && parIn p 10 0 10000
      && (s.tiles[tileFromPacket p]).foc.regs.obsMinSpeed.toNat ≤ parNat p 4 then Status.ok else Status.paramRange
def stStartConfig : StageOp :=
  { d := tileOp 0x0905 .yes 12
    accept := acceptStartConfig, check := servo3
    apply := fun p => modFocRegs (tileFromPacket p) (fun r => { r with
      iAlign := par p 0, tAlign := parBits p 1 14, iStart := par p 2, aStart := par p 3, vHandover := par p 4
      tBlend := parBits p 5 7, tStartTimeout := parBits p 6 14, startRetries := parBits p 7 4, tRetryWait := parBits p 8 14
      vCatch := par p 9, tBrake := parBits p 10 14, flyMinEmf := par p 11 }) }
/-- START_CONFIG (R375 to R379). -/
def execStartConfig (p : Packet) (s : State) : Out9 := .next (stageRequest stStartConfig p s)

def dFocPolicySet : OpDesc := { op := 0x0906, cls := .b, target := tModule, params := (· = 5) }
def acceptFocPolicy (p : Packet) (_ : State) : BitVec 16 :=
  if clsAllowed .vent (par p 0) && clsAllowed .note (par p 1) && clsAllowed .note (par p 2) && clsAllowed .stop (par p 3)
      && clsAllowed .stop (par p 4) then Status.ok else Status.paramRange
def runFocPolicy (p : Packet) (s : State) : Reply :=
  ok { s with policy := { s.policy with
    phaseOc := clsOf (par p 0), sumErr := clsOf (par p 1), noWindow := clsOf (par p 2), startFailed := clsOf (par p 3)
    obsLost := clsOf (par p 4) } }
/-- FOC_POLICY_SET (R384). -/
def execFocPolicySet (p : Packet) (s : State) : Out9 := .next (request dFocPolicySet acceptFocPolicy runFocPolicy p s)

def dMotorIdentify : OpDesc := { op := 0x0907, cls := .c, target := tBelow 16, params := (· = 4) }
/-- Steps that turn the rotor need ROTATE_OK; the offset step is for encoder axes (R381). -/
def acceptIdentify (p : Packet) (s : State) : BitVec 16 :=
  let t := tileFromPacket p
  let ax := s.axes[tileAxis t]
  if s.tiles[t].regs.mode ≠ 1 then Status.notServo3
  else if !parIn p 0 1 31 || !parIn p 3 0 1 || (8 ≤ parNat p 0 && !parBool p 3)
      || ((par p 0).getLsbD 0 && s.tiles[t].foc.regs.angleSrc) then Status.paramRange
  else if !ax.enabled then Status.axisNotEnabled
  else if ax.home.isSome then Status.axisHoming
  else if ax.regs.spVel ≠ 0 || ax.source ≠ 0 then Status.axisMoving
  else identStatus s (tileAxis t)
/-- The state in which a run may start at its pour. -/
def checkIdentify (p : Packet) (s : State) : BitVec 16 :=
  let t := tileFromPacket p
  let ax := s.axes[tileAxis t]
  if s.tiles[t].regs.mode ≠ 1 then Status.notServo3
  else if !ax.enabled then Status.axisNotEnabled
  else if ax.home.isSome then Status.axisHoming
  else if ax.regs.spVel ≠ 0 || ax.source ≠ 0 then Status.axisMoving
  else Status.ok
def applyIdentify (p : Packet) (s : State) : State :=
  modFoc (tileFromPacket p) (fun f => { f with
    identMask := parBits p 0 5, identI := par p 1, identSpeed := par p 2, identRotate := parBool p 3
    regs := { f.regs with identifying := true }
    ident := { identFailStep := 7, identState := BitVec.ofNat 4 (1 + firstStep (parBits p 0 5)) } }) s
/-- The module's own staged start of the run. -/
def stMotorIdentify : StageOp :=
  { d := dMotorIdentify, accept := acceptIdentify, check := checkIdentify, apply := applyIdentify }
def runMotorIdentify (p : Packet) (s : State) : Reply :=
  startOp 0x0907 p (moduleSet [{ op := 0x0907, p := p }] s)
/-- MOTOR_IDENTIFY (R381). -/
def execMotorIdentify (p : Packet) (s : State) : Out9 := .next (request dMotorIdentify acceptIdentify runMotorIdentify p s)

def dIdentResult : OpDesc := { op := 0x0908, cls := .a, target := tBelow 16, params := (· = 0) }
def runIdentResult (p : Packet) (s : State) : Reply := okWith (wordsOf (tileBlockWord s (tileFromPacket p)) 0x500 10) s
/-- IDENT_RESULT (R384). -/
def execIdentResult (p : Packet) (s : State) : Out9 := .next (request dIdentResult servo3 runIdentResult p s)

def dFocStatus : OpDesc := { op := 0x0909, cls := .a, target := tBelow 16, params := (· = 0) }
def runFocStatus (p : Packet) (s : State) : Reply :=
  let w := tileBlockWord s (tileFromPacket p)
  okWith (wordsOf w 0x400 1 ++ wordsOf w 0x4C0 16) s
/-- FOC_STATUS (R384). -/
def execFocStatus (p : Packet) (s : State) : Out9 := .next (request dFocStatus servo3 runFocStatus p s)

end Sys2Proof.Machine
end

