-- ==== Sys2Proof/Machine/Valve.lean ====
section
/-! DEFINITION. Group 0x09, stepper and valve modes: the chopper's events, stall, coil measurement, and the commands
(R389 to R410). -/

namespace Sys2Proof.Machine

/-! ### Chopper events (R393 to R397) -/

/-- COIL_FAULT with a cause (R397, R406). -/
def coilFault (t : Fin 16) (c : Fin 2) (cause : Word) (s : State) : State :=
  let s := modSvRegs t (fun r => { r with
    coilFaultCount := satInc r.coilFaultCount, coilFaultSeen := true, cntOvf := r.cntOvf || satFull r.coilFaultCount }) s
  raise Ev.coilFault (srcTile t) s.policy.coilFault false cause (natWord c.val) 0 [tileAxis t] s

/-- CHOPPER_THRESHOLD_CROSS (R393, R394): bits of the coil's bitstream, each moving the estimate and the decision. -/
def execChopperThresholdCross (t : Fin 16) (c : Fin 2) (bits : List Bool) (s : State) : Out9 :=
  let inv := s.sds[tileSd t (c.castLE (by decide))].regs.invert
  .next (showChop t c (bits.foldl (fun s b => chopBit t c (b != inv) s) s))

/-- BLANKING_END (R395): a crossing still present acts now. -/
def execBlankingEnd (t : Fin 16) (c : Fin 2) (s : State) : Out9 :=
  let v := s.tiles[t].sv
  if v.chop[c].blank && hasPassed v.chop[c].blankAt v.regs.tBlank.toNat s then
    .next (showChop t c (chopDecide t c (modChop t c (fun x => { x with blank := false }) s)))
  else .next s

/-- CHOPPER_FAST_END (R394): MIXED decay goes on as SLOW after T_FAST. -/
def execChopperFastEnd (t : Fin 16) (c : Fin 2) (s : State) : Out9 :=
  let v := s.tiles[t].sv
  if v.chop[c].state = 3 && v.regs.decay = 2 && hasPassed v.chop[c].fastAt v.regs.tFast.toNat s then
    .next (showChop t c (setChop t c 2 (decide (0 < coilRef s t c)) s))
  else .next s

/-- CHOPPER_DRIVE_TIMEOUT (R397): DRIVE has lasted T_DRIVE_MAX without reaching U. -/
def execChopperDriveTimeout (t : Fin 16) (c : Fin 2) (s : State) : Out9 :=
  let x := s.tiles[t].sv.chop[c]
  if x.state ≠ 1 || x.under || !hasPassed x.driveAt (1000 * s.tiles[t].sv.regs.tDriveMax.toNat) s then .next s
  else
    let s := modSvRegs t (fun r => { r with
      underdrive := r.underdrive ||| BitVec.ofNat 2 (2 ^ c.val), underdriveCount := satInc r.underdriveCount
      underdriveSeen := true, cntOvf := r.cntOvf || satFull r.underdriveCount })
      (modChop t c (fun x => { x with under := true, told := x.told || x.reached }) s)
    .next (showChop t c (if !x.reached then coilFault t c 4 s
      else if x.told then s else note Ev.coilUnderdrive (srcTile t) (natWord c.val) 0 0 s))

/-- STEP_IDLE_TIMEOUT (R392): the set-point velocity has been zero for T_IDLE. -/
def execStepIdleTimeout (t : Fin 16) (s : State) : Out9 :=
  let v := s.tiles[t].sv
  if v.idleSince.any fun b => hasPassed b (1000000 * v.regs.tIdle.toNat) s then
    .next (modSv t (fun v => { v with idle := true }) s)
  else .next s

/-- The step commanded 256 counts before the stall is the reference; the axis returns from there (R202, R399). -/
def stallHome (a : Fin 112) (s : State) : State :=
  match s.axes[a].home with
  | some h =>
    if s.axes[a].regs.homePhase = 2 then
      let pos := s.axes[a].regs.spPos.toInt + (if h.dirPos then -(256 * 2 ^ 32) else 256 * 2 ^ 32)
      showLatch a (homePhase a 3 (fun h => { latchHere pos s h with edge := fixRaw pos }) s)
    else s
  | none => s

/-- STALL (R398, R399): STALL_N ticks in a row beyond STALL_THR. -/
def execStall (t : Fin 16) (s : State) : Out9 :=
  let v := s.tiles[t].sv
  let a := tileAxis t
  if v.stallRun < v.regs.stallN.toNat || v.regs.stalled then .next s
  else
    let homing : Bool := (s.axes[a].home).any fun h => h.method = 9 || h.method = 10
    let s := modSv t (fun v => { v with
      stallRun := 0
      regs := { v.regs with
        stalled := !homing, stallCount := satInc v.regs.stallCount, stallSeen := true
        cntOvf := v.regs.cntOvf || satFull v.regs.stallCount } }) s
    if homing then .next (stallHome a (note Ev.stall (srcTile t) 0 v.regs.loadAngle 0 s))
    else .next (raise Ev.stall (srcTile t) s.policy.stall false 0 v.regs.loadAngle 0 [a] (markUncertain a s))

/-! ### Coil measurement (R405, R406) -/

/-- The coils that COIL1_MODE uses. -/
def usedCoils (m : BitVec 2) : BitVec 2 := if m = 0 then 1 else 3
/-- a / b in binary32, rounded to nearest even; free where b is no finite number other than 0. -/
def f32Div (a b : Word) (free : Word) : Word :=
  match f32Decode a, f32Decode b with
  | .fin na ma ea, .fin nb mb eb =>
    if mb = 0 then free
    else
      let q := ma * 2 ^ 64 / mb
      let q := if ma * 2 ^ 64 % mb = 0 then q else q ||| 1
      (f32Round (na != nb) q (ea - eb - 64)).1
  | _, _ => free

/-- The constant demand of a measurement on the coils used: the legs of the others stay OFF. -/
def measureDuties (t : Fin 16) (s : State) : State :=
  let r := s.tiles[t].sv.regs
  let h := roundAt s.freeCtr r.vMeas.toNat 2
  let hi := BitVec.ofInt 32 (clampInt 0 (2 ^ 32 - 1) (2 ^ 31 + h))
  let lo := BitVec.ofInt 32 (clampInt 0 (2 ^ 32 - 1) (2 ^ 31 - h))
  focPort t 0x84 ((if r.coil1Mode = 0 then (0x50 : Word) else 0) ||| bitAt s.tiles[t].regs.localField (16 + t.val % 4))
    (tilePuts t 0x80 [hi, lo, hi, lo] (drawn s))

/-- A measurement starts with the enabling pour: the loops stay OFF (R405). -/
def startMeasure (t : Fin 16) (s : State) : State :=
  let s := modTile t (fun tl => { tl with
    pw.firstTick := true, sv.measLeft := usedCoils tl.sv.regs.coil1Mode, sv.settling := false, sv.measAt := s.dt,
    sv.regs.measState := 1 }) s
  measureDuties t s

/-- KP of both coil loops and KI, in Q8.24 (R405); free where the link reads no voltage. -/
def coilCoefs (k : Nat) (s : State) (t : Fin 16) (r l : Word) : Word × Word :=
  let g := s.tiles[t].sv.regs
  let mv := (vdcMilli s s.tiles[t].regs.dcl.toFin s.sds[tileSd t 3].regs.sample).toInt
  let (tn, td) := tickLen s t
  if mv ≤ 0 then (BitVec.ofNat 32 (Config.freeNat k), BitVec.ofNat 32 (Config.freeNat (k + 1)))
  else
    let base : Int := (twoPi80 : Int) * f149 g.bwCoil * g.svIFsMa.toNat * 2 ^ 24
    let d : Int := 2 ^ 80 * 2 ^ 149 * 2 ^ 149 * mv
    (sat32 (roundAt k (base * f149 l) d), sat32 (roundAt (k + 1) (base * f149 r * tn) (d * td * 10 ^ 9)))

/-- LOOP_COEF_SET of a coil loop with new KP and KI. -/
def coefCmd (s : State) (p : Packet) (i : Fin 96) (kp ki : Word) : StagedCmd :=
  let r := s.loops[i].regs
  { op := 0x0604
    p := { p with target := BitVec.ofNat 16 i.val
                  params := [kp, ki, r.kd, r.kff, r.dFilt, r.outMin, r.outMax, BitVec.ofInt 32 r.inShift.toInt, r.satTime.zeroExtend 32] } }
/-- A packet that the module stages for itself, with sequence number 0. -/
def ownPacket (target : BitVec 16) (ps : List Word) : Packet :=
  { session := 0, version := 2, staged := true, priority := false, chained := false, zeros := 0, seq := 0, target := target
    pour := none, params := ps }

/-- Step 3 done on every coil: the parameters are staged, with the coefficients under AUTO_COEF, and both coils are forced LOW
(R405). -/
def stageCoils (t : Fin 16) (s : State) : State :=
  let g := s.tiles[t].sv.regs
  let p := ownPacket (BitVec.ofNat 16 t.val) [g.measR0, g.measL0, g.measR1, g.measL1]
  let p := if g.coil1Mode = 0 then { p with params := [g.measR0, g.measL0, g.coilR1, g.coilL1] } else p
  let k := s.freeCtr
  let c0 := coilCoefs k s t g.measR0 g.measL0
  let c1 := coilCoefs (k + 2) s t g.measR1 g.measL1
  let coefs := if g.autoCoef then
      coefCmd s p (tileLoop t 0) c0.1 c0.2 :: (if g.coil1Mode = 0 then [] else [coefCmd s p (tileLoop t 3) c1.1 c1.2])
    else []
  let s := moduleSet ({ op := 0x0917, p := p } :: coefs) (drew 4 s)
  let s := modSv t (fun v => { v with settling := true, measAt := s.dt, regs := { v.regs with measState := 2 } }) s
  focPort t 0x84 (0xAA ||| bitAt s.tiles[t].regs.localField (16 + t.val % 4)) s

/-- A measurement fails: COIL_FAULT, and the enable ends (R406). -/
def measureFails (t : Fin 16) (c : Fin 2) (cause : Word) (s : State) : State :=
  let s := modSv t (fun v => { v with measLeft := 0, settling := false, regs := { v.regs with measState := 3 } }) s
  disableAxis (tileAxis t) (coilFault t c cause s)

/-- Milliohms, microhenries: a float32 times 10^n as an unsigned word. -/
def f32Scaled (k : Nat) (m : Nat) (w : Word) : Word :=
  BitVec.ofInt 32 (clampInt 0 (2 ^ 32 - 1) (roundAt k (f149 w * m) (2 ^ 149)))

/-- A current in A below 1 % of full scale (R406). -/
def lowCurrent (r : SvRegs) (amps : Word) : Bool := decide ((f149 amps).natAbs * 100000 < r.svIFsMa.toNat * 2 ^ 149)
/-- COIL_MEASURE_END (R405, R406): T_MEAS is over on a coil. -/
def execCoilMeasureEnd (t : Fin 16) (c : Fin 2) (m : CoilMeasure) (s : State) : Out9 :=
  let v := s.tiles[t].sv
  if !v.measLeft.getLsbD c.val || !hasPassed v.measAt (1000000 * v.regs.tMeas.toNat) s then .next s
  else
    let k := s.freeCtr
    let r := f32Div m.volts m.amps (freeWord s)
    let l := (f32Mul r m.tau (BitVec.ofNat 32 (Config.freeNat (k + 1)))).1
    let s := modSv t (fun v => { v with
      measLeft := v.measLeft &&& ~~~(BitVec.ofNat 2 (2 ^ c.val))
      regs := if c = 0 then { v.regs with measR0 := r, measL0 := l } else { v.regs with measR1 := r, measL1 := l } }) (drew 4 s)
    let s := note Ev.coilMeasured (srcTile t) (natWord c.val) (f32Scaled (k + 2) 1000 r) (f32Scaled (k + 3) 1000000 l) s
    if f149 r < f149 v.regs.rMin then .next (measureFails t c 1 s)
    else if lowCurrent v.regs m.amps || (0 < f149 v.regs.rMax && f149 v.regs.rMax < f149 r) then .next (measureFails t c 2 s)
    else if s.tiles[t].sv.measLeft = 0 then .next (stageCoils t s)
    else .next s

/-- The loops of an axis start from zero state at their next ticks: those that TOP and the mode use (R248, R258). -/
def startLoops (t : Fin 16) (s : State) : State :=
  let top := (rateLoop s t).top
  let tl := s.tiles[t]
  let used (l : Fin 4) : Bool :=
    if l = 2 then top = 0 else if l = 1 then top.toNat ≤ 1 && !(tl.regs.mode = 3 && !tl.sv.regs.velEn) else true
  -- STEPPER_OPEN and custom stages run the loops their program has (R276)
  let open_ := tl.regs.mode = 2 && s.loops[tileLoop t 0].regs.programId = 0x10
  (List.finRange 4).foldl (fun s l =>
    let i := tileLoop t l
    if !used l || (open_ && (l = 1 || l = 2)) then s
    else
      let s := modLoop i (fun x => { (loopOff x) with
        modeNext := if x.regs.reqMode then some 1 else none, manStaged := x.regs.reqMode
        regs := { (loopOff x).regs with loopMode := if x.regs.reqMode then 1 else 0 } }) s
      match loopPlace s i with
      | some (e, k, c) => stagingWrite e (some k) (c + 0x13) [0] (stagingWrite e (some k) c (List.replicate 16 0) s)
      | none => s) s

/-- COIL_MEAS_SETTLE_END (R405): after 1 ms of LOW the set-point is the actual position and the loops start. -/
def execCoilMeasSettleEnd (t : Fin 16) (s : State) : Out9 :=
  if !s.tiles[t].sv.settling || !hasPassed s.tiles[t].sv.measAt 1000000 s then .next s
  else
    let a := tileAxis t
    let s := modSv t (fun v => { v with settling := false }) s
    .next (startLoops t (modAxis a (fun ax => { ax with regs := { ax.regs with
      spPos := ax.regs.actPos, spVel := 0, spAcc := 0 } }) s))

/-- COIL_OPEN_DETECT (R406): clamped for T_OPEN with next to no current. -/
def execCoilOpenDetect (t : Fin 16) (c : Fin 2) (s : State) : Out9 :=
  if s.tiles[t].regs.mode = 3 && (s.tiles[t].sv.openSince[c]).any (fun b => hasPassed b (1000000 * s.tiles[t].sv.regs.tOpen.toNat) s) then
    .next (coilFault t c 3 (modSv t (fun v => { v with openSince := v.openSince.set c none }) s))
  else .next s

/-! ### Commands (R409) -/

def inStepper (p : Packet) (s : State) : BitVec 16 :=
  if s.tiles[tileFromPacket p].regs.mode = 2 then Status.ok else Status.notStepper2
def inValve (p : Packet) (s : State) : BitVec 16 :=
  if s.tiles[tileFromPacket p].regs.mode = 3 then Status.ok else Status.notValve2

def stStepConfig : StageOp :=
  { d := tileOp 0x0910 .yes 9
    accept := fun p _ => if parIn p 0 0 0x7FFFFFFF && parIn p 1 0 0x7FFFFFFF && parIn p 2 0 10000 && parIn p 3 0 1023
        && parIn p 4 0 0xFFFF && parIn p 5 1 255 then Status.ok else Status.paramRange
    check := inStepper
    apply := fun p => modSvRegs (tileFromPacket p) (fun r => { r with
      iRun := par p 0, iHold := par p 1, tIdle := parBits p 2 14, stepOffset := parBits p 3 10, stallThr := parBits p 4 16
      stallN := parBits p 5 8, stallMinSpeed := par p 6, stepEncNum := par p 7, stepEncDen := par p 8 }) }
/-- STEP_CONFIG (R391, R392, R398, R401). -/
def execStepConfig (p : Packet) (s : State) : Out9 := .next (stageRequest stStepConfig p s)

def acceptChopper (p : Packet) (_ : State) : BitVec 16 :=
  if !(parIn p 0 8 64 && parIn p 1 0 0x7FFFFFFF && parIn p 2 0 2 && parIn p 3 0 8191 && parIn p 4 0 5000 && parIn p 5 0 7
      && parIn p 6 0 0x7FFFFFFF && parIn p 7 10 10000) then Status.paramRange
  else if parNat p 1 * parNat p 0 < 2 ^ 33 then Status.chopperWindow else Status.ok
def stChopperConfig : StageOp :=
  { d := tileOp 0x0911 .yes 8
    accept := acceptChopper, check := inStepper
    apply := fun p => modSvRegs (tileFromPacket p) (fun r => { r with
      chopN := parBits p 0 7, hyst := par p 1, decay := parBits p 2 2, tFast := parBits p 3 13, tBlank := parBits p 4 13
      ofsShift := parBits p 5 3, ofsMax := parBits p 6 31, tDriveMax := parBits p 7 14 }) }
/-- CHOPPER_CONFIG (R393 to R397). -/
def execChopperConfig (p : Packet) (s : State) : Out9 := .next (stageRequest stChopperConfig p s)

def dStepTableLoad : OpDesc :=
  { op := 0x0912, cls := .b, target := tBelow 16, params := fun n => decide (2 ≤ n) && decide (n ≤ 257) }
def acceptTableLoad (p : Packet) (s : State) : BitVec 16 :=
  let t := tileFromPacket p
  if s.tiles[t].regs.mode ≠ 2 then Status.notStepper2
  else if 1024 < parNat p 0 + (p.params.length - 1) then Status.paramRange
  else if (s.axes[tileAxis t]).enabled then Status.axisEnabled else Status.ok
def runTableLoad (p : Packet) (s : State) : Reply :=
  ok (modSv (tileFromPacket p) (fun v => { v with
    table := memPutWords v.table (parNat p 0) (p.params.drop 1)
    loaded := v.loaded ++ [(parNat p 0, p.params.length - 1)] }) s)
/-- STEP_TABLE_LOAD (R390). -/
def execStepTableLoad (p : Packet) (s : State) : Out9 := .next (request dStepTableLoad acceptTableLoad runTableLoad p s)

/-- Every pair of table 1 has been loaded. -/
def tableFull (v : Sv) : Bool :=
  (List.range 1024).all fun i => v.loaded.any fun r => decide (r.1 ≤ i) && decide (i < r.1 + r.2)
def checkTableSelect (p : Packet) (s : State) : BitVec 16 :=
  if inStepper p s ≠ Status.ok then Status.notStepper2
  else if parBool p 0 && !tableFull s.tiles[tileFromPacket p].sv then Status.stepTableEmpty else Status.ok
def stStepTableSelect : StageOp :=
  { d := tileOp 0x0913 .yes 1
    accept := fun p _ => if parIn p 0 0 1 then Status.ok else Status.paramRange
    check := checkTableSelect
    apply := fun p => modSvRegs (tileFromPacket p) (fun r => { r with tableSel := parBool p 0 }) }
/-- STEP_TABLE_SELECT (R390). -/
def execStepTableSelect (p : Packet) (s : State) : Out9 := .next (stageRequest stStepTableSelect p s)

def checkValveConfig (p : Packet) (s : State) : BitVec 16 :=
  let t := tileFromPacket p
  if s.tiles[t].regs.mode ≠ 3 then Status.notValve2
  else if (s.axes[tileAxis t]).enabled && parBits p 0 2 ≠ s.tiles[t].sv.regs.coil1Mode then Status.axisEnabled else Status.ok
def stValveConfig : StageOp :=
  { d := tileOp 0x0914 .yes 4
    accept := fun p _ => if parIn p 0 0 3 && parIn p 1 0 1 && parIn p 3 1 1000 then Status.ok else Status.paramRange
    check := checkValveConfig
    apply := fun p => modSvRegs (tileFromPacket p) (fun r => { r with
      coil1Mode := parBits p 0 2, velEn := parBool p 1, iCoilMax := par p 2, tOpen := parBits p 3 10 }) }
/-- VALVE_CONFIG (R402, R403, R406). -/
def execValveConfig (p : Packet) (s : State) : Out9 := .next (stageRequest stValveConfig p s)

def stDitherSet : StageOp :=
  { d := tileOp 0x0915 .mode 3
    accept := fun p _ => if (par p 0 = 0 || parIn p 0 50 400) && parIn p 2 0 1 then Status.ok else Status.paramRange
    check := inValve
    apply := fun p => modSvRegs (tileFromPacket p) (fun r => { r with
      ditherF := parBits p 0 9, ditherAmp := par p 1, ditherWave := parBool p 2, ditherOn := r.ditherOn && par p 0 ≠ 0 }) }
/-- DITHER_SET (R404). -/
def execDitherSet (p : Packet) (s : State) : Out9 := .next (stageRequest stDitherSet p s)

def stCoilMeasureConfig : StageOp :=
  { d := tileOp 0x0916 .yes 7
    accept := fun p _ => if parIn p 0 0 1 && parIn p 2 1 100 && parIn p 6 0 1 then Status.ok else Status.paramRange
    check := inValve
    apply := fun p => modSvRegs (tileFromPacket p) (fun r => { r with
      measAtEnable := parBool p 0, vMeas := par p 1, tMeas := parBits p 2 7, rMin := par p 3, rMax := par p 4, bwCoil := par p 5
      autoCoef := parBool p 6 }) }
/-- COIL_MEASURE_CONFIG (R405, R406). -/
def execCoilMeasureConfig (p : Packet) (s : State) : Out9 := .next (stageRequest stCoilMeasureConfig p s)

/-- The coil parameters serve both modes (R398, R405). -/
def stCoilParamSet : StageOp :=
  { d := tileOp 0x0917 .yes 4
    accept := fun p _ => if [0, 1, 2, 3].any fun i => decide (f149 (par p i) < 0) then Status.paramRange else Status.ok
    check := fun p s => if inStepper p s = Status.ok then Status.ok else inValve p s
    apply := fun p => modSvRegs (tileFromPacket p) (fun r => { r with
      coilR0 := par p 0, coilL0 := par p 1, coilR1 := par p 2, coilL1 := par p 3 }) }
/-- COIL_PARAM_SET (R398, R405). -/
def execCoilParamSet (p : Packet) (s : State) : Out9 := .next (stageRequest stCoilParamSet p s)

def stSvCurrentSet : StageOp :=
  { d := tileOp 0x0918 .yes 2
    check := fun p s => if inStepper p s = Status.ok then Status.ok else inValve p s
    apply := fun p => modSvRegs (tileFromPacket p) (fun r => { r with svIFsMa := par p 0, iTripSv := par p 1 }) }
/-- SV_CURRENT_SET (R388, R389). -/
def execSvCurrentSet (p : Packet) (s : State) : Out9 := .next (stageRequest stSvCurrentSet p s)

def dSvPolicySet : OpDesc := { op := 0x0919, cls := .b, target := tModule, params := (· = 3) }
def acceptSvPolicy (p : Packet) (_ : State) : BitVec 16 :=
  if clsAllowed .note (par p 0) && clsAllowed .vent (par p 1) && clsAllowed .note (par p 2) then Status.ok else Status.paramRange
def runSvPolicy (p : Packet) (s : State) : Reply :=
  ok { s with policy := { s.policy with stall := clsOf (par p 0), coilOc := clsOf (par p 1), coilFault := clsOf (par p 2) } }
/-- SV_POLICY_SET (R409). -/
def execSvPolicySet (p : Packet) (s : State) : Out9 := .next (request dSvPolicySet acceptSvPolicy runSvPolicy p s)

def dSvStatus : OpDesc := { op := 0x091A, cls := .a, target := tBelow 16, params := (· = 0) }
def acceptSvStatus (p : Packet) (s : State) : BitVec 16 := if inStepper p s = Status.ok then Status.ok else inValve p s
def runSvStatus (p : Packet) (s : State) : Reply :=
  let w := tileBlockWord s (tileFromPacket p)
  okWith (wordsOf w 0x600 1 ++ wordsOf w 0x680 25) s
/-- SV_STATUS (R409). -/
def execSvStatus (p : Packet) (s : State) : Out9 := .next (request dSvStatus acceptSvStatus runSvStatus p s)

end Sys2Proof.Machine
end

