-- ==== Sys2Proof/Machine/Feedback.lean ====
section
/-! DEFINITION. Group 0x0A: sigma-delta samples and their detectors, incremental, SSI and sin/cos encoders
(R411 to R440, R577, R578, R614). -/

namespace Sys2Proof.Machine

def modEncRegs (e : Fin 17) (f : EncRegs → EncRegs) (s : State) : State := modEnc e (fun en => { en with regs := f en.regs }) s
def modSdRegs (c : Fin 160) (f : SdRegs → SdRegs) (s : State) : State := modSd c (fun ch => { ch with regs := f ch.regs }) s
/-- The tile of an encoder interface; none for MENC. -/
def encTile (e : Fin 17) : Option (Fin 16) := asFin 16 e.val
def sdIdx (c : Fin 160) : Nat := c.val % 10

/-! ### Angles -/

/-- The angle of (x, y) in [0, 2^31) of half a turn, y ≥ 0, rounded down. -/
def halfAngle (x y : Int) : Nat :=
  (List.range 31).foldl (fun acc i =>
    let m := acc + 2 ^ (30 - i)
    if 0 ≤ cos80 (BitVec.ofNat 32 m) * y - sin80 (BitVec.ofNat 32 m) * x then m else acc) 0
/-- The angle of (x, y) in 2^-32 of a turn, rounded down. -/
def angleOf (x y : Int) : Word :=
  if y < 0 || (y = 0 && x < 0) then BitVec.ofNat 32 (2 ^ 31 + halfAngle (-x) (-y)) else BitVec.ofNat 32 (halfAngle x y)

/-- Σ y^(2k+1) / (2k+1), y in units of 2^-100. -/
def atanhSeries : Nat → Nat → Int → Int → Int
  | 0, _, _, _ => 0
  | n + 1, k, t, y2 => t / (2 * k + 1 : Nat) + atanhSeries n (k + 1) (t * y2 / 2 ^ 100) y2
/-- ln of m / 2^100, m from 2^100 to 2^101, in units of 2^-100. -/
def lnUnit (m : Int) : Int :=
  let y := (m - 2 ^ 100) * 2 ^ 100 / (m + 2 ^ 100)
  2 * atanhSeries 34 0 y (y * y / 2 ^ 100)
def ln2 : Int := 878668439483319573618263538048
/-- ln (n / d) in units of 2^-100, n and d above 0. -/
def lnRatio (n d : Nat) : Int :=
  let k : Int := (Nat.log2 n : Int) - Nat.log2 d
  let m : Int := if 0 ≤ k then (n : Int) * 2 ^ 100 / (d * 2 ^ k.toNat : Nat) else (n : Int) * 2 ^ (100 + (-k).toNat) / (d : Int)
  if m < 2 ^ 100 then lnUnit (2 * m) + (k - 1) * ln2 else lnUnit m + k * ln2

/-! ### NTC (R577, R578) -/

/-- The temperature in 0.01 °C at a divider reading x of 2^32. -/
def ntcTemp (k : Nat) (r : NtcRegs) (x : Nat) : Word :=
  let ser := f149 r.ntcRser
  let nom := f149 r.ntcRNom
  let beta := f149 r.ntcBeta
  let free : Word := BitVec.ofNat 32 (Config.freeNat k)
  if ser ≤ 0 || nom ≤ 0 || beta ≤ 0 || x = 0 || 2 ^ 32 ≤ x then free
  else
    let l := lnRatio (ser.toNat * x) (nom.toNat * (2 ^ 32 - x))
    let d := 100 * beta * 2 ^ 100 + 29815 * l * 2 ^ 149
    if d ≤ 0 then free else sat32 (roundAt k (100 * beta * 29815 * 2 ^ 100) d - 27315)

/-- The derating factor in Q1.15 at a temperature in 0.01 °C (R578). -/
def derateAt (k : Nat) (r : NtcRegs) (temp : Int) : BitVec 16 :=
  let lo : Int := 10 * r.tDs.toNat
  let hi : Int := 10 * r.tDe.toNat
  if !r.ntcEn || temp < lo then 0x8000
  else if hi ≤ temp then 0
  else BitVec.ofInt 16 (roundAt k (32768 * (hi - temp)) (hi - lo))

/-- The factor is in force: TEMP_DERATING as it first falls below 1, cleared when it is back (R578). -/
def setDerate (t : Fin 16) (f : BitVec 16) (s : State) : State :=
  let tl := s.tiles[t]
  let below := decide (f.toNat < 0x8000)
  let s := modTile t (fun tl => { tl with
    derated := below, ntc := { tl.ntc with derate := f, derateSeen := tl.ntc.derateSeen || (below && !tl.derated) } }) s
  if below && !tl.derated then note Ev.tempDerating (srcTile t) 0 tl.ntc.ntcTemp 0 s else s

/-- An SD7 sample (R577). -/
def ntcSample (t : Fin 16) (sample : Word) (s : State) : State :=
  let x := (sample.toInt + 2 ^ 31).toNat
  if 1000 * x < 5 * 2 ^ 32 || 995 * 2 ^ 32 < 1000 * x then modTile t (fun tl => { tl with ntcRun := tl.ntcRun + 1 }) s
  else
    let was := s.tiles[t].ntc.ntcFault
    let k := s.freeCtr
    let temp := ntcTemp k s.tiles[t].ntc x
    let s := modTile t (fun tl => { tl with ntcRun := 0, ntc := { tl.ntc with ntcTemp := temp, ntcFault := false } }) (drew 2 s)
    let s := if was then clearCond Ev.ntcFault [tileAxis t] s else s
    setDerate t (derateAt (k + 1) s.tiles[t].ntc temp.toInt) s

/-- NTC_FAULT (R577): ten samples in a row were out of range. -/
def execNtcFault (t : Fin 16) (s : State) : Out9 :=
  let tl := s.tiles[t]
  if tl.ntcRun < 10 || tl.ntc.ntcFault then .next s
  else .next (raise Ev.ntcFault (srcTile t) s.policy.ntcFault true 0 0 0 [tileAxis t] (modTile t (fun tl => { tl with
    ntc := { tl.ntc with ntcFault := true, ntcFaultSeen := true } }) s))

/-! ### Absolute readings (R427 to R434) -/

/-- The absolute group (R431). -/
def absWrite (e : Fin 17) (s : State) : State :=
  match encTile e with
  | none => s
  | some t =>
    let en := s.encs[e]
    tilePuts t 0x24 [en.regs.absCount.extractLsb' 0 32, en.regs.absCount.extractLsb' 32 32, en.absDt,
      bitAt en.absOk 0 ||| (en.absCause.zeroExtend 32 <<< 1) ||| (en.absCtr.zeroExtend 32 <<< 16)] s

/-- A reading is rejected for a cause. -/
def absReject (e : Fin 17) (cause : BitVec 3) (s : State) : State :=
  absWrite e (modEnc e (fun en => { en with
    fails := en.fails + 1, absOk := false, absCause := cause, absCtr := en.absCtr + 1
    regs := { en.regs with
      rejectCount := satInc en.regs.rejectCount, rejectSeen := true, cntOvf := en.regs.cntOvf || satFull en.regs.rejectCount } }) s)

/-- A reading is accepted with its count and the DT at which it applies. -/
def absAccept (e : Fin 17) (count : BitVec 64) (dt : Word) (s : State) : State :=
  let was := s.encs[e].failed
  let s := absWrite e (modEnc e (fun en => { en with
    fails := 0, failed := false, absOk := true, absCause := 0, absCtr := en.absCtr + 1
    prevCount := en.regs.absCount, prevDt := en.absDt, absDt := dt, regs := { en.regs with absCount := count } }) s)
  if was then match encTile e with
    | some t => clearCond Ev.absReadFailed [tileAxis t] s
    | none => s
  else s

/-- x reduced modulo 2^w into [-2^(w-1), 2^(w-1)). -/
def wrapBits (w : Nat) (x : Int) : Int := (x + 2 ^ (w - 1)) % 2 ^ w - 2 ^ (w - 1)

/-- The field of an SSI frame whose bit n stands at place BITS - n (R426). -/
def ssiWidth (r : EncRegs) : Nat := r.posLsb.toNat + 1 - r.posMsb.toNat
def grayFold : Nat → Nat → Nat → Nat
  | 0, _, acc => acc
  | n + 1, g, acc => grayFold n (g / 2) (acc ^^^ g)
def ssiField (r : EncRegs) (frame : BitVec 64) : Nat :=
  let w := ssiWidth r
  let f := frame.toNat / 2 ^ (r.bits.toNat - r.posLsb.toNat) % 2 ^ w
  if r.gray then grayFold w f 0 else f

/-- The position reached by the difference from a vault's saved field (R558): it is added as an increment. -/
def absChecked (e : Fin 17) (t : Fin 16) (saved : BitVec 64) (field : Nat) (s : State) : State :=
  let d := wrapBits (ssiWidth s.encs[e].regs) ((field : Int) - saved.toNat)
  let far := decide ((s.power.policies[t.castLE (by decide : 16 ≤ 80)]).vaultTol.toNat < d.natAbs)
  let s := modEnc e (fun en => { en with
    absCheck := none, lastC := BitVec.ofInt 64 ((field : Int) - d), tickC := BitVec.ofInt 64 ((field : Int) - d) }) s
  if far then markUncertain (tileAxis t) (modAxis (tileAxis t) (fun ax => { ax with homed := false }) s) else s

/-- A field is read: it extends into the count, is rejected for a jump, or rebases (R430, log entry 136). -/
def ssiReading (e : Fin 17) (t : Fin 16) (field : Nat) (dt : Word) (s : State) : State :=
  let en := s.encs[e]
  let put (s : State) : State := modEnc e (fun en => { en with lastField := some (BitVec.ofNat 64 field), jumps := 0 }) s
  match en.lastField with
  | none =>
    let s := absAccept e (BitVec.ofNat 64 field) dt (put s)
    match en.absCheck with
    | some saved => absChecked e t saved field s
    | none => s
  | some last =>
    let d := wrapBits (ssiWidth en.regs) ((field : Int) - last.toNat)
    if 3 ≤ en.jumps then
      let s := modEncRegs e (fun r => { r with
        rebaseCount := satInc r.rebaseCount, rebaseSeen := true, cntOvf := r.cntOvf || satFull r.rebaseCount })
        (absAccept e en.regs.absCount dt (put s))
      markUncertain (tileAxis t) (note Ev.absRebased (srcEnc e) 0 0 0 s)
    else if en.regs.jumpMax ≠ 0 && en.regs.jumpMax.toNat < d.natAbs then
      absReject e 3 (modEnc e (fun en => { en with jumps := en.jumps + 1 }) s)
    else absAccept e (en.regs.absCount + BitVec.ofInt 64 d) dt (put s)

/-- SSI_FRAME_START (R427): the first falling edge leaves now, within 2 clocks of the due edge of an SSI_TICK_DIV-th current
tick. -/
def execSsiFrameStart (e : Fin 16) (s : State) : Out9 :=
  let e : Fin 17 := e.castSucc
  let en := s.encs[e]
  let due := (en.tickJ.any fun j => j % max 1 en.regs.ssiTickDiv.toNat = 0)
    && decide (en.tickAt.toNat ≤ s.dt.toNat) && decide (s.dt.toNat ≤ en.tickAt.toNat + 2 * 0x280000000)
  if en.ssiSet && due then .next (modEnc e (fun en => { en with frameAt := some s.dt }) s) else .next s

/-- SSI_ACK_TIMEOUT (R428): no acknowledge within 2,000 ns. -/
def execSsiAckTimeout (e : Fin 16) (s : State) : Out9 :=
  let e : Fin 17 := e.castSucc
  if (s.encs[e].frameAt).any (fun b => hasPassed b 2000 s) then .next (absReject e 1 (modEnc e (fun en => { en with frameAt := none }) s)) else .next s

/-- The mean of the frames measured, in ps. -/
def meanDrt (l : List Nat) : Nat := l.sum / max 1 l.length
/-- SSI_FRAME_COMPLETE (R428 to R430): the round trip measured, in units of 2.5 ns up to 2,000 ns, and the bits of the frame;
its last bit is sampled D_rt after the edge that follows its BITS periods. -/
def execSsiFrameComplete (e : Fin 16) (drt : Fin 801) (frame : BitVec 64) (s : State) : Out9 :=
  let t := e
  let e : Fin 17 := e.castSucc
  match s.encs[e].frameAt with
  | none => .next s
  | some at_ =>
    if !hasPassed at_ (5 * s.encs[e].regs.ssiHalf.toNat * s.encs[e].regs.bits.toNat) s then .next s else
    let s := modEnc e (fun en =>
      let l := (2500 * drt.val :: en.drts).take 8
      let m := meanDrt l
      let dev := 1000 * en.regs.ssiDevDelay.toNat
      { en with
        frameAt := none, drts := l
        regs := { en.regs with
          ssiDrt := natWord m, ssiLen := natWord ((m - dev) * en.regs.ssiPf.toNat * 299792458 / (2 * 10 ^ 13)) } }) s
    let r := s.encs[e].regs
    let latch := fixRaw (at_.toInt + (((r.ssiDrt.toNat : Int) - 1000 * r.ssiDevDelay.toNat) * 2 ^ 32) / 2000)
    let bad := r.errEn && frame.getLsbD (r.bits.toNat - r.errBit.toNat) = r.errPol
    .next (if bad then absReject e 2 s else ssiReading e t (ssiField r frame) (nsLo latch) s)

/-- ABS_READ_FAILED (R437): FAIL_N readings in a row were rejected. -/
def execAbsReadFailed (e : Fin 16) (s : State) : Out9 :=
  let t := e
  let e : Fin 17 := e.castSucc
  let en := s.encs[e]
  if en.failed || en.fails < en.regs.failN.toNat || en.fails = 0 then .next s
  else .next (raise Ev.absReadFailed (srcEnc e) s.policy.absFailed true (en.absCause.zeroExtend 32) 0 0 [tileAxis t]
    (modEnc e (fun en => { en with failed := true }) s))

/-- The quadrature count at an instant, of what the interface keeps. -/
def countAt (en : Encoder) (t : Int) : BitVec 64 :=
  match en.edges.find? fun x => decide (x.1.toInt ≤ t) with
  | some x => x.2
  | none => match en.edges.getLast? with
    | some x => x.2
    | none => en.regs.count

/-- An SD9 boundary of a sin/cos encoder (R432 to R434). -/
def sincosSample (t : Fin 16) (s : State) : State :=
  let e := tileEnc t
  let en := s.encs[e]
  if !en.sincosSet then s
  else
    let r := en.regs
    let k := s.freeCtr
    let c := s.sds[tileSd t 9]
    let y := s.sds[tileSd t 8].regs.sample.toInt - r.ofsSin.toInt
    let x := roundAt k ((c.regs.sample.toInt - r.ofsCos.toInt) * r.gainCos.toInt) (2 ^ 30)
    let phi := (((angleOf x y).toNat / 2 ^ 18 : Nat) : Int) + freeIn (drawn s) (-1) 1
    let fine : BitVec 14 := BitVec.ofInt 14 phi
    let amp := sqrtAt (k + 2) (x.natAbs * x.natAbs + y.natAbs * y.natAbs)
    let out := decide (amp < r.ampMin.toNat) || decide (r.ampMax.toNat < amp)
    let div := (s.sdClks.getD c.regs.clkSel.toNat {}).div.toNat
    let at_ := s.dt.toInt - 3 * (c.regs.r.toNat - 1 : Nat) * div * 5 * 2 ^ 30
    let dt := nsLo (fixRaw at_)
    let s := modEnc e (fun en => { en with
      ampRun := if out then en.ampRun + 1 else 0, regs := { en.regs with amp := BitVec.ofNat 32 amp, fine := fine } }) (drew 3 s)
    if 4 ≤ s.encs[e].ampRun then absReject e 5 s
    else if r.coarse then
      let d := match en.lastFine with
        | some f => wrapBits 14 ((fine.toNat : Int) - f.toNat)
        | none => 0
      absAccept e (r.absCount + BitVec.ofInt 64 d) dt (modEnc e (fun en => { en with lastFine := some fine }) s)
    else
      let q := (countAt en at_).toInt
      let fq := (fine.toNat / 2 ^ 12 : Nat)
      let d := ((q + r.quadAlign.toNat) % 4 - fq + 2) % 4 - 2
      if d = -2 then absReject e 4 s
      else absAccept e (BitVec.ofInt 64 ((q + r.quadAlign.toNat - d - fq) / 4 * 16384 + fine.toNat)) dt s

/-! ### Sigma-delta samples (R411 to R419) -/

/-- The sample of a sinc3 output y at ratio R (R414). -/
def sincSample (r y : Nat) : Word := sat32 (roundDiv ((2 * y - (r : Int) ^ 3) * 2 ^ 31) ((r : Int) ^ 3))

/-- PHASE_OVERCURRENT, COIL_OVERCURRENT: the comparator of a current channel (R360, R389). -/
def currentTrip (t : Fin 16) (k : Nat) (v : Word) (s : State) : State :=
  let tl := s.tiles[t]
  if tl.regs.mode = 1 then
    if abs32 v < tl.foc.regs.iTrip.toNat then s
    else
      let s := modFocRegs t (fun r => { r with
        overcurrentCount := satInc r.overcurrentCount, overcurrentSeen := true, cntOvf := r.cntOvf || satFull r.overcurrentCount }) s
      raise Ev.phaseOvercurrent (srcTile t) s.policy.phaseOc false (natWord k) v 0 [tileAxis t] s
  else if (tl.regs.mode = 2 || tl.regs.mode = 3) && k < 2 then
    if abs32 v < tl.sv.regs.iTripSv.toNat then s
    else
      let s := modSvRegs t (fun r => { r with
        coilOcCount := satInc r.coilOcCount, coilOcSeen := true, cntOvf := r.cntOvf || satFull r.coilOcCount }) s
      raise Ev.coilOvercurrent (srcTile t) s.policy.coilOc false (natWord k) v 0 [tileAxis t] s
  else s

/-- Samples resume on a stuck input (R419). -/
def sdResume (c : Fin 160) (s : State) : State :=
  if s.sds[c].regs.stuck then
    clearCond Ev.sdStuck [tileAxis (sdTile c)] (modSdRegs c (fun r => { r with stuck := false }) s)
  else s

/-- A sample is written, with the over-range run of R418. -/
def sdWrite (c : Fin 160) (v : Word) (s : State) : State :=
  let s := sdResume c s
  let t := sdTile c
  let s := modSd c (fun ch =>
    let hi := decide (ch.regs.orThr.toNat ≤ abs32 v)
    { ch with
      prev := ch.regs.sample, orRun := if hi = ch.regs.overrange then 0 else ch.orRun + 1
      regs := { ch.regs with sample := v, sampleDt := nsLo s.dt } }) s
  let s := tilePut t (0x10 + sdIdx c) (nsLo s.dt) (tilePut t (sdIdx c) v s)
  if s.sds[c].regs.overrange && s.sds[c].regs.orN.toNat ≤ s.sds[c].orRun then
    clearCond Ev.sdOverrange [tileAxis t] (modSd c (fun ch => { ch with orRun := 0, regs := { ch.regs with overrange := false } }) s)
  else s

/-- The sample goes to the owner of the input's role (R388, R411). -/
def sdRole (c : Fin 160) (v : Word) (s : State) : State :=
  let t := sdTile c
  match sdIdx c with
  | 0 => currentTrip t 0 v s
  | 1 => currentTrip t 1 v s
  | 2 => currentTrip t 2 v s
  | 3 => vdcSample t v s
  | 7 => ntcSample t v s
  | 9 => sincosSample t s
  | _ => s

/-- The clock of an input, and whether samples of the input go on: its clock runs, and stuck, it has shown transitions again
(R412, R419). -/
def sdClock (s : State) (c : Fin 160) : SdClk := s.sdClks.getD s.sds[c].regs.clkSel.toNat {}
def sdGoes (s : State) (c : Fin 160) (live : Bool) : Bool := (sdClock s c).en && (!s.sds[c].regs.stuck || live)
/-- The sample of an input whose land gave a sinc3 output y: with INVERT each bit counts inverted (R413, R414). -/
def sdValue (s : State) (c : Fin 160) (y : Nat) : Word :=
  let r := s.sds[c].regs
  let top := r.r.toNat ^ 3
  let y := min y top
  sincSample r.r.toNat (if r.invert then top - y else y)
/-- This 400 MHz edge is a boundary of a free-running input (R415). -/
def sdBoundary (s : State) (c : Fin 160) : Bool := clockNow s % max 1 ((sdClock s c).div.toNat * s.sds[c].regs.r.toNat) = 0

/-- SD_SAMPLE (R414, R415): the sinc3 output at a boundary, and whether the bitstream has shown transitions again. -/
def execSdSample (c : Fin 160) (y : Nat) (live : Bool) (s : State) : Out9 :=
  if isWindowed s c || !sdGoes s c live || !sdBoundary s c then .next s
  else
    let v := sdValue s c y
    .next (sdRole c v (sdWrite c v s))

/-- SD_WINDOW_SAMPLE (R416, R382): the samples of a LEG_SHUNT window, with SENSE_STAT and WIN_DT; which of the three bitstreams
have shown transitions again. -/
def execSdWindowSample (t : Fin 16) (yu yv yw : Nat) (live : BitVec 3) (s : State) : Out9 :=
  if !legShunt s.tiles[t] then .next s
  else
    let one (k : Fin 10) (y : Nat) (s : State) : State :=
      let c := tileSd t k
      if sdGoes s c (live.getLsbD k.val) then sdWrite c (sdValue s c y) s else s
    let s := one 2 yw (one 1 yv (one 0 yu s))
    let f := s.tiles[t].foc
    let s := tilePuts t 0x88 [f.senseStat, f.winDt] s
    .next (([0, 1, 2] : List (Fin 10)).foldl (fun s k =>
      if f.senseStat.getLsbD k.val then currentTrip t k.val s.sds[tileSd t k].regs.sample s else s) s)

/-- SD_OVERRANGE (R418): OR_N samples in a row at or above OR_THR. -/
def execSdOverrange (c : Fin 160) (s : State) : Out9 :=
  let ch := s.sds[c]
  if ch.regs.overrange || ch.orRun < ch.regs.orN.toNat || ch.orRun = 0 then .next s
  else
    let s := modSd c (fun ch => { ch with
      orRun := 0
      regs := { ch.regs with
        overrange := true, orSeen := true, orCount := satInc ch.regs.orCount, cntOvf := ch.regs.cntOvf || satFull ch.regs.orCount } }) s
    .next (raise Ev.sdOverrange (srcSd c) s.policy.sdOver true 0 ch.regs.sample 0 [tileAxis (sdTile c)] s)

/-- The class of SD_STUCK on an input: a current or DC-link channel of a running tile takes VENT at least (R614). -/
def stuckCls (s : State) (c : Fin 160) : Cls :=
  if sdIdx c < 4 && s.axes[tileAxis (sdTile c)].enabled then clsMax s.policy.sdStuck .vent else s.policy.sdStuck
/-- SD_STUCK (R419): STUCK_N bits without a transition. -/
def execSdStuck (c : Fin 160) (s : State) : Out9 :=
  if s.sds[c].regs.stuck then .next s
  else
    let cls := stuckCls s c
    let s := modSdRegs c (fun r => { r with
      stuck := true, stuckSeen := true, stuckCount := satInc r.stuckCount, cntOvf := r.cntOvf || satFull r.stuckCount }) s
    .next (raise Ev.sdStuck (srcSd c) cls true 0 0 0 [tileAxis (sdTile c)] s)

/-! ### Incremental encoders (R420 to R425) -/

/-- The change of the quadrature count for levels of A and B, before and after: A leading B counts up. -/
def quadStep (a0 b0 a b : Bool) : Int :=
  let place (a b : Bool) : Int := if a then (if b then 2 else 1) else (if b then 3 else 0)
  let d := (place a b - place a0 b0) % 4
  if d = 1 then 1 else if d = 3 then -1 else 0

/-- Axes whose feedback source is the interface (R421). -/
def encAxes (s : State) (e : Fin 17) : List (Fin 112) :=
  match encTile e with
  | some t => if s.encs[e].regs.fbSrc ≠ 0 then [tileAxis t] else []
  | none => []

/-- ENC_ILLEGAL (R421). -/
def encIllegal (e : Fin 17) (s : State) : State :=
  let s := modEnc e (fun en => { en with
    illSince := true, illegal := true
    regs := { en.regs with
      illegalCount := satInc en.regs.illegalCount, illegalSeen := true, cntOvf := en.regs.cntOvf || satFull en.regs.illegalCount } }) s
  let axs := encAxes s e
  let s := axs.foldl (fun s a => markUncertain a s) s
  raise Ev.encIllegal (srcEnc e) s.policy.encIllegal false (s.encs[e].regs.count.truncate 32) 0 0 axs s

/-- ENCODER_EDGE (R420): the filtered levels from this instant on. -/
def execEncoderEdge (e : Fin 17) (a b z : Bool) (s : State) : Out9 :=
  let r := s.encs[e].regs
  let a0 := r.levels.getLsbD 0
  let b0 := r.levels.getLsbD 1
  let lv : BitVec 3 := (bitAt a 0 ||| bitAt b 1 ||| bitAt z 2).truncate 3
  let ill := a ≠ a0 && b ≠ b0
  let d := if ill then 0 else quadStep a0 b0 a b
  let n := r.count + BitVec.ofInt 64 (if r.dir then -d else d)
  let s := modEnc e (fun en =>
    { en with
      regs := { en.regs with levels := lv, count := n }
      edges := if en.sincosSet && !en.regs.coarse && d ≠ 0 then
          (s.dt, n) :: en.edges.takeWhile (fun x => decide (s.dt.toNat < x.1.toNat + 100000 * 2 ^ 32))
            ++ ((en.edges.dropWhile fun x => decide (s.dt.toNat < x.1.toNat + 100000 * 2 ^ 32)).take 1)
        else en.edges }) s
  .next (if ill then encIllegal e s else s)

/-- The index latch is armed, by the host or by a homing run (R423, R199). -/
def indexArmed (s : State) (e : Fin 17) : Bool :=
  s.encs[e].regs.idxMode ≠ 0 || (match encTile e with
    | some t => match s.axes[tileAxis t].home with
      | some h => h.method = 3 || h.method = 4 || h.method = 7 || h.method = 8
      | none => false
    | none => false)
/-- The gate of Z (R423). -/
def gateMatches (r : EncRegs) : Bool :=
  let a := r.levels.getLsbD 0
  let b := r.levels.getLsbD 1
  r.zGate = 0 || (r.zGate = 1 && a && b) || (r.zGate = 2 && a && !b) || (r.zGate = 3 && !a && b)

/-- INDEX_EDGE (R423): a rising edge of Z. -/
def execIndexEdge (e : Fin 17) (s : State) : Out9 :=
  let r := s.encs[e].regs
  if !r.zEn || !gateMatches r || !indexArmed s e then .next s
  else
    let raw := s.dt - BitVec.ofNat 96 ((r.glitch.toNat + 1) * 0x280000000)
    let s := modEnc e (fun en => { en with
      idxSince := true
      regs := { en.regs with
        idxCount := r.count, idxDt := nsOf raw, idxLatched := true, idxMode := if r.idxMode = 1 then 0 else r.idxMode
        indexCount := satInc r.indexCount, cntOvf := r.cntOvf || satFull r.indexCount } }) s
    let s := record { code := Ev.indexLatched, src := srcEnc e, t := raw, p0 := r.count.truncate 32, p1 := nsLo raw } s
    match encTile e with
    | none => .next s
    | some t =>
      let known := if r.fbSrc = 1 then
          some (unwrapped s.axes[tileAxis t] + axisCount s t r.count - axisCount s t s.encs[e].lastC) else none
      .next (homeEdge (tileAxis t) .index true raw 5 known s)

/-- Word 0x23 of an encoder group. -/
def encStatusWord (en : Encoder) : Word :=
  en.regs.levels.zeroExtend 32 ||| bitAt en.illSince 3 ||| bitAt en.idxSince 4 ||| (en.latchCtr.zeroExtend 32 <<< 16)
/-- An interface latches its count at an edge and writes its group (R424); MENC writes one in every cluster (R425). -/
def encLatch (e : Fin 17) (dt : Fix) (s : State) : State :=
  let s := modEnc e (fun en => { en with latchCtr := en.latchCtr + 1, tickC := srcCount en }) s
  let en := s.encs[e]
  let ws := [en.regs.count.extractLsb' 0 32, en.regs.count.extractLsb' 32 32, nsLo dt, encStatusWord en]
  let s := match encTile e with
    | some t => tilePuts t 0x20 ws s
    | none => (List.finRange 4).foldl (fun s c => portPuts c (0x4000 + 0x28) ws s) s
  modEnc e (fun en => { en with illSince := false, idxSince := false }) s

/-! ### Commands (R438) -/

def clkOf (p : Packet) : Fin 8 := Fin.ofNat 8 (tgt p)
def sdFromPacket (p : Packet) : Fin 160 := Fin.ofNat 160 (tgt p)
def encFromPacket (p : Packet) : Fin 17 := Fin.ofNat 17 (tgt p)
def sdEnabled (s : State) (c : Fin 160) : Bool := s.axes[tileAxis (sdTile c)].enabled

def stSdclkConfig : StageOp :=
  { d := { op := 0x0A01, cls := .b, stage := .yes, target := tBelow 8, params := (· = 2) }
    accept := fun p _ => if parIn p 0 16 80 && parIn p 1 0 1 then Status.ok else Status.paramRange
    check := fun p s => if (List.finRange 160).any fun c => s.sds[c].regs.clkSel.toNat = tgt p && sdEnabled s c
      then Status.axisEnabled else Status.ok
    apply := fun p s => { s with sdClks := upd s.sdClks (clkOf p) fun _ => { div := parBits p 0 7, en := parBool p 1 } } }
/-- SDCLK_CONFIG (R412). -/
def execSdclkConfig (p : Packet) (s : State) : Out9 := .next (stageRequest stSdclkConfig p s)

def checkSdConfig (p : Packet) (s : State) : BitVec 16 :=
  let c := sdFromPacket p
  let r := s.sds[c].regs
  let div := (s.sdClks.getD (parNat p 1) {}).div.toNat
  if isWindowed s c && 2 * s.tiles[sdTile c].foc.regs.winLen.toNat < 15 * parNat p 0 * div then Status.sdWindowShort
  else if sdEnabled s c && (parNat p 0 ≠ r.r.toNat || parNat p 1 ≠ r.clkSel.toNat || parNat p 2 ≠ r.sampleDly.toNat
      || parBool p 3 ≠ r.invert) then Status.axisEnabled
  else Status.ok
def stSdConfig : StageOp :=
  { d := { op := 0x0A02, cls := .b, stage := .yes, target := tBelow 160, params := (· = 7) }
    accept := fun p _ => if parIn p 0 16 256 && parIn p 1 0 7 && parIn p 2 0 63 && parIn p 3 0 1 && parIn p 5 1 255
        && parIn p 6 16 1023 then Status.ok else Status.paramRange
    check := checkSdConfig
    apply := fun p => modSdRegs (sdFromPacket p) (fun r => { r with
      r := parBits p 0 9, clkSel := parBits p 1 3, sampleDly := parBits p 2 6, invert := parBool p 3, orThr := par p 4
      orN := parBits p 5 8, stuckN := parBits p 6 10 }) }
/-- SD_CONFIG (R413 to R419). -/
def execSdConfig (p : Packet) (s : State) : Out9 := .next (stageRequest stSdConfig p s)

def checkEncConfig (p : Packet) (s : State) : BitVec 16 :=
  match asFin 16 (tgt p) with
  | some t => if s.axes[tileAxis t].enabled && parBool p 1 ≠ s.encs[tileEnc t].regs.dir then Status.axisEnabled else Status.ok
  | none => Status.ok
def stEncConfig : StageOp :=
  { d := { op := 0x0A03, cls := .b, stage := .mode, target := tBelow 17, params := (· = 4) }
    accept := fun p _ => if parIn p 0 0 6 && parIn p 1 0 1 && parIn p 2 0 1 && parIn p 3 0 3 then Status.ok else Status.paramRange
    check := checkEncConfig
    apply := fun p => modEncRegs (encFromPacket p) (fun r => { r with
      glitch := parBits p 0 3, dir := parBool p 1, zEn := parBool p 2, zGate := parBits p 3 2 }) }
/-- ENC_CONFIG (R420, R423). -/
def execEncConfig (p : Packet) (s : State) : Out9 := .next (stageRequest stEncConfig p s)

def dIndexArm : OpDesc := { op := 0x0A04, cls := .b, target := tBelow 17, params := (· = 1) }
def acceptIndexArm (p : Packet) (s : State) : BitVec 16 :=
  if !parIn p 0 0 2 then Status.paramRange
  else match asFin 16 (tgt p) with
    | some t => if (s.axes[tileAxis t].home).isSome then Status.axisHoming else Status.ok
    | none => Status.ok
def runIndexArm (p : Packet) (s : State) : Reply :=
  ok (modEncRegs (encFromPacket p) (fun r => { r with idxMode := parBits p 0 2, idxLatched := r.idxLatched && par p 0 = 0 }) s)
/-- INDEX_ARM (R423). -/
def execIndexArm (p : Packet) (s : State) : Out9 := .next (request dIndexArm acceptIndexArm runIndexArm p s)

def acceptSsi (p : Packet) (_ : State) : BitVec 16 :=
  if !(parIn p 0 8 64 && parIn p 1 0 1 && parIn p 4 0 1 && parIn p 5 0 63 && parIn p 6 0 1 && parIn p 7 20 2000
      && parIn p 8 1 32 && parIn p 9 1 100 && parIn p 11 1 255 && parIn p 12 50 99 && parIn p 13 0 1000) then Status.paramRange
  else if parNat p 2 = 0 || parNat p 0 < parNat p 3 || parNat p 3 < parNat p 2 || 62 < parNat p 3 + 1 - parNat p 2
      || (parBool p 4 && (parNat p 5 = 0 || parNat p 0 < parNat p 5)) then Status.ssiFieldInvalid
  else Status.ok
/-- The frame time fits the trigger interval (R427); before the domain starts there is no tick to hold it against. -/
def checkSsi (p : Packet) (s : State) : BitVec 16 :=
  let (tn, td) := tickLen s (Fin.ofNat 16 (tgt p))
  if tn ≠ 0 && parNat p 8 * tn < (5 * parNat p 7 * (parNat p 0 + 1) + 2000 + 1000 * parNat p 9) * td then Status.ssiTimingInvalid
  else Status.ok
def stSsiConfig : StageOp :=
  { d := { op := 0x0A05, cls := .b, stage := .mode, target := tBelow 16, params := (· = 14) }
    accept := acceptSsi, check := checkSsi
    apply := fun p => modEnc (encFromPacket p) (fun en => { en with
      ssiSet := true, drts := []
      regs := { en.regs with
        bits := parBits p 0 7, gray := parBool p 1, posMsb := parBits p 2 7, posLsb := parBits p 3 7, errEn := parBool p 4
        errBit := parBits p 5 6, errPol := parBool p 6, ssiHalf := parBits p 7 11, ssiTickDiv := parBits p 8 5
        tMono := parBits p 9 7, jumpMax := par p 10, failN := parBits p 11 8, ssiPf := parBits p 12 7
        ssiDevDelay := parBits p 13 10 } }) }
/-- SSI_CONFIG (R426 to R430). -/
def execSsiConfig (p : Packet) (s : State) : Out9 := .next (stageRequest stSsiConfig p s)

def checkSincos (p : Packet) (s : State) : BitVec 16 :=
  let t : Fin 16 := Fin.ofNat 16 (tgt p)
  let a := s.sds[tileSd t 8].regs
  let b := s.sds[tileSd t 9].regs
  if a.clkSel = b.clkSel && a.r = b.r then Status.ok else Status.sincosClockMismatch
def stSincosConfig : StageOp :=
  { d := { op := 0x0A06, cls := .b, stage := .mode, target := tBelow 16, params := (· = 8) }
    accept := fun p _ => if parIn p 0 0 1 && parIn p 1 0 3 && parIn p 7 1 255 then Status.ok else Status.paramRange
    check := checkSincos
    apply := fun p => modEnc (encFromPacket p) (fun en => { en with
      sincosSet := true
      regs := { en.regs with
        coarse := parBool p 0, quadAlign := parBits p 1 2, ofsSin := par p 2, ofsCos := par p 3, gainCos := par p 4
        ampMin := par p 5, ampMax := par p 6, failN := parBits p 7 8 } }) }
/-- SINCOS_CONFIG (R432 to R434). -/
def execSincosConfig (p : Packet) (s : State) : Out9 := .next (stageRequest stSincosConfig p s)

def checkFeedback (p : Packet) (s : State) : BitVec 16 :=
  let t : Fin 16 := Fin.ofNat 16 (tgt p)
  let en := s.encs[tileEnc t]
  let clocked := ([8, 9] : List (Fin 10)).all fun k => (s.sdClks.getD s.sds[tileSd t k].regs.clkSel.toNat {}).en
  if s.axes[tileAxis t].enabled then Status.axisEnabled
  else if (par p 0 = 2 && !en.ssiSet) || (par p 0 = 3 && (!en.sincosSet || !clocked)) then Status.fbSourceUnconfigured
  else Status.ok
/-- The axis takes the new source's increments from the next pour on (R436). -/
def stFeedbackSelect : StageOp :=
  { d := { op := 0x0A07, cls := .b, stage := .mode, target := tBelow 16, params := (· = 1) }
    accept := fun p _ => if parIn p 0 0 3 then Status.ok else Status.paramRange
    check := checkFeedback
    apply := fun p => modEnc (encFromPacket p) (fun en =>
      let en := { en with regs := { en.regs with fbSrc := parBits p 0 3 } }
      { en with lastC := srcCount en, tickC := srcCount en }) }
/-- FEEDBACK_SELECT (R435, R436). -/
def execFeedbackSelect (p : Packet) (s : State) : Out9 := .next (stageRequest stFeedbackSelect p s)

def dFbPolicySet : OpDesc := { op := 0x0A08, cls := .b, target := tModule, params := (· = 4) }
def acceptFbPolicy (p : Packet) (_ : State) : BitVec 16 :=
  if [0, 1, 2, 3].all fun i => clsAllowed .note (par p i) then Status.ok else Status.paramRange
def runFbPolicy (p : Packet) (s : State) : Reply :=
  ok { s with policy := { s.policy with
    sdOver := clsOf (par p 0), sdStuck := clsOf (par p 1), encIllegal := clsOf (par p 2), absFailed := clsOf (par p 3) } }
/-- FB_POLICY_SET (R438, R614). -/
def execFbPolicySet (p : Packet) (s : State) : Out9 := .next (request dFbPolicySet acceptFbPolicy runFbPolicy p s)

def dSdStatus : OpDesc := { op := 0x0A09, cls := .a, target := tBelow 160, params := (· = 0) }
def runSdStatus (p : Packet) (s : State) : Reply := okWith (wordsOf (feedbackWord s) (0x20 * tgt p) 8) s
/-- SD_STATUS (R438). -/
def execSdStatus (p : Packet) (s : State) : Out9 := .next (request dSdStatus acceptAny runSdStatus p s)

def dFbStatus : OpDesc := { op := 0x0A0A, cls := .a, target := tBelow 17, params := (· = 0) }
def runFbStatus (p : Packet) (s : State) : Reply := okWith (wordsOf (feedbackWord s) (0x4000 + 0x100 * tgt p) 49) s
/-- FB_STATUS (R438). -/
def execFbStatus (p : Packet) (s : State) : Out9 := .next (request dFbStatus acceptAny runFbStatus p s)

end Sys2Proof.Machine
end

