-- ==== Sys2Proof/Machine/Capture.lean ====
section
/-! DEFINITION. Geyser's capture inputs, the history of poured positions, position latches, the capture ring and the mark
slots (R441 to R451, R464 to R468). -/

namespace Sys2Proof.Machine

/-! ### Instants -/

/-- An instant in units of 50 ps: a DT and a TDC_FINE (R442). -/
def t50 (t : Fix) (fine : BitVec 6) : Int := (t.toNat * 20 / 2 ^ 32 : Nat) + fine.toNat
def RawEdge.at50 (e : RawEdge) : Int := t50 e.t e.fine
/-- Uncertainty of an edge (R442, R443). -/
def RawEdge.unc (e : RawEdge) : BitVec 8 := if e.fineOk then 1 else 5

/-! ### The history of poured positions (R446) -/

/-- A sample newer than the newest one joins the history. -/
def histPush (a : Fin 112) (h : HistSample) (s : State) : State :=
  modAxis a (fun ax =>
    let newer : Bool := match ax.posHist with
      | [] => true
      | x :: _ => decide (x.t.toNat < h.t.toNat)
    if newer then { ax with posHist := h :: ax.posHist } else ax) s
/-- The instant of a DT ns[31:0] in the past. -/
def pastNs (s : State) (w : Word) : Fix :=
  fixNat ((nsOf s.dt).toNat - (nsLo s.dt - w).toNat)
/-- A latch of the interface of tile t's axis at an edge: the source count with its DT, as a position (R424, R431, R446). -/
def histLatch (t : Fin 16) (due : Fix) (s : State) : State :=
  let en := s.encs[tileEnc t]
  let a := tileAxis t
  let ax := s.axes[a]
  if en.regs.fbSrc = 0 then s
  else histPush a
    { t := if en.regs.fbSrc = 1 then due else pastNs s en.absDt
      u := unwrapped ax + (axisCount s t en.tickC - axisCount s t en.lastC), sp := ax.regs.spPos.toInt, unconf := false } s
/-- The sample of a pour point: ACT_POS and SP_POS, or the latch of the axis's interface; a slot that is IDLE or ARMING has no
history (R446, R448). -/
def histPour (a : Fin 112) (s : State) : State :=
  let ax := s.axes[a]
  let here : HistSample := { t := s.dt, u := unwrapped ax, sp := ax.regs.spPos.toInt, unconf := ax.unconfirmed }
  let keep (s : State) : State := modAxis a (fun ax =>
    if ax.home.isSome || pourLen s = 0 then ax
    else { ax with posHist := ax.posHist.filter fun h => decide (s.dt.toNat ≤ h.t.toNat + 66 * pourLen s * 2 ^ 32) }) s
  match axisTile a with
  | some t => keep (if s.encs[tileEnc t].regs.fbSrc = 0 then histPush a here s else histLatch t s.dt s)
  | none =>
    match asFin 32 (a.val - 80) with
    | some i =>
      if 80 ≤ a.val && s.slots[i].regs.slotState.toNat < 2 then modAxis a (fun ax => { ax with posHist := [] }) s
      else keep (histPush a here s)
    | none => keep (histPush a here s)

/-- Due edge of current tick j of the tile's axis in this pour cycle (R245). -/
def currentDue (s : State) (t : Fin 16) (j : Nat) : Fix :=
  pourAt s (pourNum s).toNat + BitVec.ofNat 96 (j * pourLen s * 2 / (5 * max 1 (rateLoop s t).k.toNat) * 0x280000000)

/-! ### Position latches (R447, R448) -/

/-- The samples around an edge: the last at or before it and the first after it. -/
def edgePair (e : RawEdge) : List HistSample → Option HistSample → Option (HistSample × HistSample)
  | [], _ => none
  | h :: rest, after => if t50 h.t 0 ≤ e.at50 then after.map fun n => (h, n) else edgePair e rest (some h)
/-- The interpolation between two samples, off the grid of 2^-32 count either neighbour. -/
def latchBetween (s : State) (e : RawEdge) (sp : Bool) (a b : HistSample) : Int :=
  let x (z : HistSample) : Int := if sp then z.sp else z.u
  let den := 20 * (b.t.toInt - a.t.toInt)
  let num := 20 * (e.t.toInt - a.t.toInt) + e.fine.toNat * 2 ^ 32
  x a + freeRound s ((x b - x a) * num) den
/-- What a latch of an axis gives at an edge: nothing while the sample after the edge has not arrived, a failure, or the
position with its UNCONFIRMED mark.  Samples of the last 64 pour cycles are held; an older one may have left. -/
def latchAt (s : State) (a : Fin 112) (sp : Bool) (e : RawEdge) : Option (Option (Int × Bool)) :=
  let ax := s.axes[a]
  let idle : Bool := (asFin 32 (a.val - 80)).any fun i => 80 ≤ a.val && s.slots[i].regs.slotState.toNat < 2
  let sp := sp && 16 ≤ a.val && a.val < 80
  if idle then some none
  else match ax.posHist with
    | [] => none
    | n :: _ =>
      if t50 n.t 0 ≤ e.at50 then none
      else match edgePair e ax.posHist none with
        | some (x, y) =>
          if s.dt.toNat ≤ x.t.toNat + 64 * pourLen s * 2 ^ 32 || freeBool (drawn s)
          then some (some (latchBetween s e sp x y, x.unconf || y.unconf)) else some none
        | none =>
          if freeBool (drawn s) then some (some ((fixRaw (freeNow s)).toInt, false)) else some none

/-! ### The capture ring (R449 to R451) -/

def modRing (f : MarkRegs → MarkRegs) (s : State) : State :=
  { s with geyser := { s.geyser with ringRegs := f s.geyser.ringRegs } }
/-- The record with this number has been consumed. -/
def consumedYet (r : MarkRegs) (q : BitVec 16) : Bool := decide ((r.nextSeq - r.consumedSeq).toNat ≤ (q - r.consumedSeq).toNat)
/-- A record is dropped: its slot is occupied (R450). -/
def capLost (c : Fin 48) (s : State) : State :=
  let s := modRing (fun r => { r with
    capLostCount := satInc r.capLostCount, cntOvf := r.cntOvf || satFull r.capLostCount }) s
  let g := s.geyser
  let due : Bool := (g.lostAt).all fun t => decide (t.toNat + 1000000 * 2 ^ 32 ≤ s.dt.toNat)
  if due then
    note Ev.capRingLost (srcCap c) (natWord (g.lostSince + 1)) 0 0
      { s with geyser := { g with lostSince := 0, lostAt := some s.dt } }
  else { s with geyser := { g with lostSince := g.lostSince + 1 } }
/-- Writes a record into its slot. -/
def capWrite (c : Fin 48) (seq : BitVec 16) (ws : List Word) (s : State) : State :=
  let slot := seq.toNat % 1024
  if s.geyser.ringHeld.any fun q => q.toNat % 1024 = slot then capLost c s
  else
    let held := s.geyser.ringHeld ++ (if consumedYet s.geyser.ringRegs seq then [] else [seq])
    modRing (fun r => { r with fill := BitVec.ofNat 11 held.length })
      { s with geyser := { s.geyser with
        ring := (slot, ws) :: s.geyser.ring.filter fun x => x.1 ≠ slot
        ringHeld := held } }
/-- CONSUMED_SEQ moves on to c; backward, or beyond the next number, is ignored (R451). -/
def consumeTo (c : BitVec 16) (s : State) : State :=
  let r := s.geyser.ringRegs
  if (c - r.consumedSeq).toNat ≤ (r.nextSeq - r.consumedSeq).toNat then
    let held := s.geyser.ringHeld.filter fun q => decide ((c - r.consumedSeq).toNat ≤ (q - r.consumedSeq).toNat)
    modRing (fun r => { r with consumedSeq := c, fill := BitVec.ofNat 11 held.length })
      { s with geyser := { s.geyser with ringHeld := held } }
  else s
/-- CAP_CONSUMED (R451). -/
def execCapConsumed (seq : BitVec 16) (s : State) : Out9 := .next (consumeTo seq s)

/-- Position and turns as a record reports them (R447). -/
def latchWords (ax : Axis) (u : Int) : List Word :=
  if ax.regs.kind then words96 (fixRaw (u % modRaw ax)) ++ [BitVec.ofInt 32 (u / modRaw ax)]
  else words96 (fixRaw (u - excessOf u * 2 ^ 32)) ++ [0]
/-- The 16 words of a capture record (R449). -/
def capWords (s : State) (seq : BitVec 16) (c : Fin 48) (e : RawEdge) (l0 l1 : LatchReq) (r0 r1 : Option (Int × Bool)) : List Word :=
  let pos (l : LatchReq) (r : Option (Int × Bool)) : List Word := match asFin 112 l.axis.toNat, r with
    | some a, some x => latchWords s.axes[a] x.1
    | _, _ => [0, 0, 0, 0]
  let un (r : Option (Int × Bool)) : Bool := match r with
    | some x => x.2
    | none => false
  [seq.zeroExtend 32 ||| (natWord c.val <<< 16) ||| bitAt e.rising 22 ||| bitAt e.fineOk 23 ||| (e.fine.zeroExtend 32 <<< 24)
      ||| bitAt r0.isSome 30 ||| bitAt r1.isSome 31,
    nsLo e.t, nsHi e.t,
    e.unc.zeroExtend 32 ||| bitAt (un r0) 8 ||| bitAt (un r1) 9 ||| bitAt (halfNs e.t) 10]
  ++ pos l0 r0 ++ pos l1 r1 ++ [l0.axis.zeroExtend 32 ||| (l1.axis.zeroExtend 32 <<< 8), 0, 0, 0]

/-! ### Raw edges and qualification (R441 to R445, R203) -/

def modCapRegs (c : Fin 48) (f : CapRegs → CapRegs) (s : State) : State := modCap c (fun ci => { ci with regs := f ci.regs }) s
/-- The 48 raw levels. -/
def capLevels (s : State) : BitVec 48 :=
  (List.finRange 48).foldl (fun (w : BitVec 48) c => if s.geyser.caps[c].regs.level then w ||| (1 <<< c.val) else w) 0
/-- A latch of an axis failed (R448). -/
def latchFailed (c : Fin 48) (n : Nat) (s : State) : State :=
  modCapRegs c (fun r => { r with
    latchFailCount := satAdd r.latchFailCount n
    cntOvf := r.cntOvf || decide (r.latchFailCount.toNat + n ≥ 2 ^ 32) }) s

/-- The latches that a MARK slot takes at a qualified edge of an input (R464). -/
def markLatches (s : State) (c : Fin 48) (e : RawEdge) : List PendLatch :=
  (List.finRange 8).flatMap fun u => (List.finRange 8).filterMap fun k =>
    let m := s.geyser.units[u].meas[k]
    let start := m.start.toNat = c.val && m.startPol == e.rising
    let stop := m.stop.toNat = c.val && m.stopPol == e.rising
    if m.kind = 8 && (start || stop) then some { what := .mark c u k start stop, edge := e } else none

/-- The edge takes the next sequence number; with latches its record waits for them (R449, R450). -/
def capRecord (c : Fin 48) (e : RawEdge) (s : State) : State :=
  let r := s.geyser.caps[c].regs
  let seq := s.geyser.ringRegs.nextSeq
  let s := modRing (fun r => { r with nextSeq := r.nextSeq + 1 }) s
  let s := if r.evtEn then
      record { code := Ev.capEdge, src := srcCap c, t := e.t, unc := e.unc, tdc := e.fine, p0 := seq.zeroExtend 32, p1 := boolWord e.rising } s
    else s
  let l0 : LatchReq := { axis := r.latch0Axis, sp := r.latch0Sp }
  let l1 : LatchReq := { axis := r.latch1Axis, sp := r.latch1Sp }
  if r.latch0Axis = 0x7F && r.latch1Axis = 0x7F then capWrite c seq (capWords s seq c e l0 l1 none none) s
  else { s with geyser := { s.geyser with latches := s.geyser.latches ++ [{ what := .record seq c l0 l1, edge := e }] } }

/-- The pending transition of an input qualifies (R203, R444). -/
def capQualify (c : Fin 48) (s : State) : State :=
  let ci := s.geyser.caps[c]
  match ci.pend with
  | none => s
  | some e =>
    let s := modCap c (fun ci => { ci with
      pend := none
      regs := { ci.regs with
        qualLevel := ci.regs.level, edgeCount := satInc ci.regs.edgeCount, cntOvf := ci.regs.cntOvf || satFull ci.regs.edgeCount } }) s
    let s := { s with geyser := { s.geyser with
      latches := s.geyser.latches ++ markLatches s c e
      units := s.geyser.units.map fun g =>
        if 1 ≤ g.regs.guState.toNat && g.regs.guState.toNat ≤ 3
        then { g with edges := { input := BitVec.ofNat 6 c.val, edge := e } :: g.edges } else g } }
    let s := if ci.regs.edgeSel.getLsbD (if e.rising then 0 else 1) then capRecord c e s else s
    inputEdge (BitVec.ofNat 8 (0x40 + c.val)) (e.t + fixRaw (freeRound s (e.fine.toNat * 2 ^ 32) 20)) e.unc (drawn s)

/-- A raw edge of an input now: less than 10 ns after the last converted one it keeps its tick only (R442, R443). -/
def rawEdge (s : State) (c : Fin 48) (level : Bool) (tdc : BitVec 6) : RawEdge :=
  let near (l : RawEdge) : Bool := decide (t50 s.dt tdc - l.at50 < 200)
  if s.geyser.caps[c].lastConv.any near then { rising := level, t := s.dt, fine := 0, fineOk := false }
  else { rising := level, t := s.dt, fine := tdc, fineOk := true }
/-- The input has stayed at its level for its debounce time (R203, R444). -/
def capStable (s : State) (c : Fin 48) : Bool :=
  hasPassed s.geyser.caps[c].lastRaw (10 * s.geyser.caps[c].regs.deb.toNat) s
/-- A raw edge of an input to a level (R441 to R443); a transition that had stood its debounce time has qualified before; without debounce it qualifies at this sample (R444). -/
def capRaw (c : Fin 48) (level : Bool) (tdc : BitVec 6) (s : State) : State :=
  let r := s.geyser.caps[c].regs
  let s := if r.level ≠ r.qualLevel && capStable s c then capQualify c s else s
  let ci := s.geyser.caps[c]
  let e := rawEdge s c level tdc
  let close := !e.fineOk
  let stale := ci.regs.level = ci.regs.qualLevel && capStable s c
  let pend := if stale then none else ci.pend
  let same : Bool := s.geyser.edgeAt = some s.dt
  let s := { s with geyser := { s.geyser with
    edgeAt := some s.dt
    edgeWas := if same then s.geyser.edgeWas else capLevels s
    edgeNum := if same then s.geyser.edgeNum + 1 else 1 } }
  let s := modCap c (fun ci => { ci with
    lastConv := if close then ci.lastConv else some e
    lastRaw := s.dt
    pend := match pend with
      | some p => some p
      | none => if level = ci.regs.qualLevel then none else some e
    regs := { ci.regs with
      level := level, rawEdgeCount := satInc ci.regs.rawEdgeCount
      closeEdgeCount := if close then satInc ci.regs.closeEdgeCount else ci.regs.closeEdgeCount
      cntOvf := ci.regs.cntOvf || satFull ci.regs.rawEdgeCount || (close && satFull ci.regs.closeEdgeCount) } }) s
  if ci.regs.deb = 0 then capQualify c s else s

/-- CAPTURE_QUALIFY (R444): the input has stayed in its new state for the debounce time. -/
def execCaptureQualify (c : Fin 48) (s : State) : Out9 :=
  let r := s.geyser.caps[c].regs
  .next (if r.level = r.qualLevel || !capStable s c then s else capQualify c s)

/-! ### Marks (R464) -/

def modMark (u k : Fin 8) (f : MarkMeasRegs → MarkMeasRegs) (s : State) : State :=
  modGu u (fun g => { g with marks := upd g.marks k f }) s
def guOvf (u : Fin 8) (b : Bool) (s : State) : State :=
  if b then modGu u (fun g => { g with regs := { g.regs with cntOvf := true } }) s else s
def markGated (u k : Fin 8) (s : State) : State :=
  guOvf u (satFull s.geyser.units[u].marks[k].gatedCount) (modMark u k (fun m => { m with gatedCount := satInc m.gatedCount }) s)
def setHeld (u k : Fin 8) (h : Option HeldStart) (s : State) : State :=
  modGu u (fun g => { g with held := upd g.held k fun _ => h }) s
/-- An accepted measurement: it is counted and given to the register controllers that name the unit and slot (R235). -/
def markAccept (u k : Fin 8) (e : RawEdge) (d : Int) (s : State) : State :=
  let s := guOvf u (satFull s.geyser.units[u].marks[k].markCount) (modMark u k (fun m => { m with
    lastDist := fixRaw d, lastMarkDt := nsLo e.t, markCount := satInc m.markCount, markSeq := m.markSeq + 1 }) s)
  let s := modGu u (fun g =>
    if 1 ≤ g.regs.guState.toNat && g.regs.guState.toNat ≤ 3
    then { g with marksIn := { slot := k, edge := e, dist := d } :: g.marksIn } else g) s
  hostAxes.foldl (fun s a =>
    let c := s.axes[a].regCfg
    if c.unit.toNat = u.val && c.channel.toNat = k.val then regMeasure a d s else s) s
/-- A START or STOP latch of the slot completes. -/
def markEdge (u k : Fin 8) (start stop : Bool) (e : RawEdge) (r : Option (Int × Bool)) (s : State) : State :=
  let g := s.geyser.units[u]
  let m := g.meas[k]
  let here : HeldStart := match r with
    | some (p, un) => { pos := some p, unconf := un }
    | none => { pos := none, unconf := false }
  let next : Option HeldStart := if m.start = m.stop then some here else none
  if !stop then setHeld u k (some here) s
  else match g.held[k] with
    | none =>
      let s := guOvf u (satFull g.marks[k].orphanCount) (modMark u k (fun m => { m with orphanCount := satInc m.orphanCount }) s)
      if start then setHeld u k (some here) s else s
    | some h =>
      match h.pos, here.pos with
      | some p, some q =>
        let d := q - p
        if m.gateMin ≠ 0 && d < m.gateMin.toNat * (2 ^ 32 : Int) then markGated u k s
        else if m.gateMax ≠ 0 && m.gateMax.toNat * (2 ^ 32 : Int) < d then setHeld u k next (markGated u k s)
        else if h.unconf || here.unconf then setHeld u k next (markGated u k s)
        else setHeld u k next (markAccept u k e d s)
      | _, _ => setHeld u k next (markGated u k s)

/-- The latch at place n has been taken. -/
def dropLatch (n : Nat) (s : State) : State := { s with geyser := { s.geyser with latches := s.geyser.latches.eraseIdx n } }
/-- A slot takes its latches in the order of their edges. -/
def markFirst (l : List PendLatch) (n : Nat) (u k : Fin 8) : Bool :=
  (l.take n).all fun p => match p.what with
    | .mark _ v j _ _ => !(v = u && j = k)
    | .record .. => true
/-- The latch of an axis of a record: nothing to take where the record names none. -/
def recordLatch (s : State) (l : LatchReq) (e : RawEdge) : Option (Option (Int × Bool)) :=
  match asFin 112 l.axis.toNat with
  | some a => latchAt s a l.sp e
  | none => some none
def namesAxis (l : LatchReq) : Bool := l.axis.toNat < 112
/-- LATCH_COMPLETE (R448): the n-th latch waiting, oldest first, completes or fails; it goes on waiting while the sample
after its edge has not arrived. -/
def execLatchComplete (n : Nat) (s : State) : Out9 :=
  match s.geyser.latches[n]? with
  | none => .next s
  | some p =>
    match p.what with
    | .record seq c l0 l1 =>
      match recordLatch s l0 p.edge, recordLatch (drew 2 s) l1 p.edge with
      | some r0, some r1 =>
        let fails := (if namesAxis l0 && r0.isNone then 1 else 0) + (if namesAxis l1 && r1.isNone then 1 else 0)
        .next (capWrite c seq (capWords s seq c p.edge l0 l1 r0 r1) (latchFailed c fails (drew 4 (dropLatch n s))))
      | _, _ => .next s
    | .mark c u k start stop =>
      match asFin 112 s.geyser.units[u].meas[k].axis.toNat, markFirst s.geyser.latches n u k with
      | some a, true =>
        match latchAt s a false p.edge with
        | some r => .next (markEdge u k start stop p.edge r (latchFailed c (if r.isNone then 1 else 0) (drew 2 (dropLatch n s))))
        | none => .next s
      | _, _ => .next s

/-! ### Commands (R466) -/

def capOf (p : Packet) : Fin 48 := Fin.ofNat 48 (tgt p)
def latchAxisOk (n : Nat) : Bool := n < 112 || n = 0x7F
def stCapConfig : StageOp :=
  { d := { op := 0x0B01, cls := .b, stage := .yes, target := tBelow 48, params := (· = 7) }
    accept := fun p _ => if parIn p 0 0 16777215 && parIn p 1 1 3 && parIn p 2 0 1 && parIn p 3 0 1 && latchAxisOk (parNat p 4)
        && latchAxisOk (parNat p 5) && parIn p 6 0 3 then Status.ok else Status.paramRange
    apply := fun p s =>
      let c := capOf p
      let was := s.geyser.caps[c].regs
      let s := modCapRegs c (fun r => { r with
        deb := parBits p 0 24, edgeSel := parBits p 1 2, invert := parBool p 2, evtEn := parBool p 3, latch0Axis := parBits p 4 7
        latch1Axis := parBits p 5 7, latch0Sp := (par p 6).getLsbD 0, latch1Sp := (par p 6).getLsbD 1 }) s
      if was.invert = parBool p 2 then s
      else capRaw c (!was.level) (BitVec.ofNat 6 (freeNow s % 50)) (drawn s) }
/-- CAP_CONFIG (R444, R449): a change of INVERT changes the sampled level, which is a raw edge (R441). -/
def execCapConfig (p : Packet) (s : State) : Out9 := .next (stageRequest stCapConfig p s)

def dCapRead : OpDesc := { op := 0x0B02, cls := .a, target := tModule, params := (· = 3) }
/-- Up to n records held from sequence number q on, and the number after the last one looked at; the read stops at a record
whose latches have not completed. -/
def capTake (s : State) : Nat → Nat → BitVec 16 → List Word × BitVec 16
  | 0, _, q => ([], q)
  | fuel + 1, n, q =>
    let waits := s.geyser.latches.any fun p => match p.what with
      | .record x _ _ _ => x = q
      | .mark .. => false
    if n = 0 || waits || q = s.geyser.ringRegs.nextSeq then ([], q)
    else if s.geyser.ringHeld.contains q then
      let ws := ((s.geyser.ring.find? fun x => x.1 = q.toNat % 1024).map (·.2)).getD []
      let (rest, e) := capTake s fuel (n - 1) (q + 1)
      (ws ++ rest, e)
    else capTake s fuel n (q + 1)
def acceptCapRead (p : Packet) (_ : State) : BitVec 16 :=
  if parIn p 0 0 65535 && parIn p 1 1 60 && parIn p 2 0 1 then Status.ok else Status.paramRange
def runCapRead (p : Packet) (s : State) : Reply :=
  let r := s.geyser.ringRegs
  let q := parBits p 0 16
  let ahead := (r.nextSeq - r.consumedSeq).toNat
  let start := if (q - r.consumedSeq).toNat ≤ ahead then q else r.consumedSeq
  let (ws, e) := capTake s ahead (parNat p 1) start
  okWith (ws ++ [e.zeroExtend 32, r.capLostCount]) (if parBool p 2 then consumeTo e s else s)
/-- CAP_READ (R451). -/
def execCapRead (p : Packet) (s : State) : Out9 := .next (request dCapRead acceptCapRead runCapRead p s)

def dCapStatus : OpDesc := { op := 0x0B03, cls := .a, target := tBelow 48, params := (· = 0) }
def runCapStatus (p : Packet) (s : State) : Reply := okWith (wordsOf (readCapRegs s.geyser.caps[capOf p].regs) 0 8) s
/-- CAP_STATUS (R467). -/
def execCapStatus (p : Packet) (s : State) : Out9 := .next (request dCapStatus acceptAny runCapStatus p s)

end Sys2Proof.Machine
end

