-- ==== Sys2Proof/Machine/Geyser.lean ====
section
/-! DEFINITION. Geyser's acquisition units: partitions, samples, triggers, records and measurements (R452 to R466, R469). -/

namespace Sys2Proof.Machine

def modGuRegs (u : Fin 8) (f : GuRegs → GuRegs) (s : State) : State := modGu u (fun g => { g with regs := f g.regs }) s
/-- The unit fills, waits or records. -/
def guArmed (g : GeyserUnit) : Bool := 1 ≤ g.regs.guState.toNat && g.regs.guState.toNat ≤ 3
def guN (g : GeyserUnit) : Nat := g.regs.pre.toNat + g.regs.post.toNat + 1

/-! ### Channels (R453) -/

/-- A selector that a unit may record. -/
def guSelOk (w : Word) : Bool :=
  let unit := (w.extractLsb' 16 7).toNat
  match (w >>> 28).toNat with
  | 0 => decide (unit < 96) && decide ((w.extractLsb' 0 4).toNat < 12)
  | 1 => decide (unit < 112) && decide ((w.extractLsb' 0 4).toNat ≤ 4)
  | 3 => decide ((w.extractLsb' 0 8).toNat < 160)
  | 4 => true
  | 5 => decide ((w.extractLsb' 0 5).toNat < 17)
  | _ => false
/-- The value of a channel at this instant. -/
def guValue (s : State) (w : Word) : Word :=
  match (w >>> 28).toNat with
  | 3 => match asFin 160 (w.extractLsb' 0 8).toNat with
    | some c => sdAt s c (nsLo s.dt)
    | none => 0
  | 4 => if w.getLsbD 0 then ((capLevels s).extractLsb' 32 16).zeroExtend 32 else (capLevels s).extractLsb' 0 32
  | 5 => match asFin 17 (w.extractLsb' 0 5).toNat with
    | some e => (srcCount s.encs[e]).extractLsb' 0 32
    | none => 0
  | _ => signalWord s w

/-! ### Measurements (R463) -/

/-- n / d to the nearest integer, either neighbour of a tie. -/
def nearestAt (k : Nat) (n : Int) (d : Nat) : Int :=
  let r := n % d
  if 2 * r < d then n / d else if (d : Int) < 2 * r then n / d + 1 else n / d + (Config.freeNat k : Int) % 2
/-- A result in one word; one that does not fit is free. -/
def fitWord (k : Nat) (x : Int) : Word := if 0 ≤ x && x < 2 ^ 32 then BitVec.ofInt 32 x else BitVec.ofNat 32 (Config.freeNat k)
/-- The pulses of a level that lie whole in a list of edges, oldest first: their widths. -/
def pulseWidths (level : Bool) : List RawEdge → List Int
  | a :: b :: rest => if a.rising == level && b.rising != level then (b.at50 - a.at50) :: pulseWidths level (b :: rest)
      else pulseWidths level (b :: rest)
  | _ => []
/-- The four words of a slot for the window from t0 to t1; k and k + 1 are the indices of its free values. -/
def measWords (k : Nat) (g : GeyserUnit) (slot : Fin 8) (m : GuMeas) (samples : List (Fix × List Word)) (t0 t1 : Fix) : List Word :=
  let inside (e : RawEdge) : Bool := decide (t50 t0 0 ≤ e.at50) && decide (e.at50 ≤ t50 t1 0)
  let es := (g.edges.filter fun x => x.input = m.ch && inside x.edge).reverse.map (·.edge)
  let pol := es.filter fun e => e.rising == m.pol
  let span (l : List RawEdge) : Int := match l.head?, l.getLast? with
    | some a, some b => b.at50 - a.at50
    | _, _ => 0
  let vals := samples.filterMap fun x => (x.2[m.ch.toNat]?).map (·.toInt)
  let n := vals.length
  match m.kind.toNat with
  | 1 => let c := pol.length - 1
    if c = 0 then [0, 0, 0, 0] else [natWord c, fitWord (k + 1) (roundAt k (span pol) c), 0, 0]
  | 2 => let ws := pulseWidths m.pol es
    if ws = [] then [0, 0, 0, 0] else [natWord ws.length, fitWord (k + 1) (roundAt k (ws.foldl (· + ·) 0) ws.length), 0, 0]
  | 3 =>
    let ups := es.filter (·.rising)
    let c := ups.length - 1
    let whole := match ups.head?, ups.getLast? with
      | some a, some b => es.filter fun e => decide (a.at50 ≤ e.at50) && decide (e.at50 ≤ b.at50)
      | _, _ => []
    if c = 0 || span ups ≤ 0 then [0, 0, 0, 0]
    else [natWord c, BitVec.ofInt 32 (clampInt 0 (2 ^ 32 - 1)
      (roundAt k ((pulseWidths true whole).foldl (· + ·) 0 * 2 ^ 32) (span ups))), 0, 0]
  | 4 => [natWord pol.length, 0, 0, 0]
  | 5 => match vals with
    | [] => [0, 0, 0, 0]
    | v :: vs => [natWord n, BitVec.ofInt 32 (vs.foldl max v - vs.foldl min v), 0, 0]
  | 6 => if n = 0 then [0, 0, 0, 0] else [natWord n, BitVec.ofInt 32 (nearestAt k (vals.foldl (· + ·) 0) n), 0, 0]
  | 7 =>
    if n = 0 then [0, 0, 0, 0]
    else
      let sq := (vals.map fun v => v.natAbs * v.natAbs).foldl (· + ·) 0
      let r := isqrt (sq / n)
      [natWord n, natWord (if r * r * n = sq then r else r + Config.freeNat k % 2), 0, 0]
  | 8 =>
    let ds := (g.marksIn.filter fun x => x.slot = slot && inside x.edge).map (·.dist)
    if ds = [] then [0, 0, 0, 0] else natWord ds.length :: words96 (fixRaw (roundAt k (ds.foldl (· + ·) 0) ds.length))
  | _ => [0, 0, 0, 0]
/-- The settings for a window that starts at w: those in force after every pour before it (R463). -/
def measFor (cur : Vector GuMeas 8) (w : Fix) : List (Fix × Vector GuMeas 8) → Vector GuMeas 8
  | [] => cur
  | (p, v) :: rest => if p.toNat < w.toNat then cur else measFor v w rest

/-! ### Records (R455, R458, R460, R462) -/

/-- A segment that is neither held nor active; which of them is open. -/
def guFree (s : State) (g : GeyserUnit) : Option (Fin 64) :=
  let l := (List.finRange 64).filter fun k => k.val < g.regs.segCount.toNat && !g.regs.segHold[k] && !g.regs.segActive[k]
  l[freeNow s % max 1 l.length]?
def guActive (g : GeyserUnit) : Option (Fin 64) := (List.finRange 64).find? fun k => g.regs.segActive[k]
/-- The unit fills its active segment from the start (R458). -/
def guRefill (g : GeyserUnit) : GeyserUnit :=
  { g with
    count := 0, ring := [], gone := none, trig := none, edges := [], marksIn := []
    regs := { g.regs with guState := if g.regs.pre = 0 then 2 else 1 } }
/-- Header and samples of the record in progress, its trigger tr. -/
def guRecord (s : State) (u : Fin 8) (tr : GuTrig) (truncated : Bool) : List Word :=
  let g := s.geyser.units[u]
  let oldest := g.count - g.ring.length
  let first := max oldest (tr.idx - g.regs.pre.toNat)
  let last := min (g.count - 1) (tr.idx + g.regs.post.toNat)
  let samples := (g.ring.reverse.drop (first - oldest)).take (last + 1 - first)
  let t0 := (samples.head?.map (·.1)).getD 0
  let t1 := (samples.getLast?.map (·.1)).getD 0
  let ms := measFor g.meas t0 g.measWas
  let c := g.sels.length
  [g.regs.nextRecSeq.zeroExtend 32 ||| (natWord u.val <<< 16) ||| bitAt truncated 19 ||| (tr.mask.zeroExtend 32 <<< 20)
      ||| bitAt tr.late 25 ||| (natWord c <<< 26),
    nsLo tr.met.t, nsHi tr.met.t,
    tr.met.fine.zeroExtend 32 ||| bitAt tr.met.fineOk 6 ||| bitAt (halfNs tr.met.t) 7 ||| (tr.met.unc.zeroExtend 32 <<< 8),
    natWord samples.length, natWord (tr.idx - first), nsLo t0, nsHi t0]
  ++ (List.range 32).map (fun i => g.sels.getD i 0)
  ++ (List.finRange 8).flatMap (fun k => measWords (s.freeCtr + 1 + 2 * k.val) g k ms[k] samples t0 t1)
  ++ samples.flatMap fun x => nsLo x.1 :: x.2
/-- The record ends: written, with another segment free, or lost. -/
def guEnd (u : Fin 8) (tr : GuTrig) (truncated mayWrite : Bool) (s : State) : State :=
  let g := s.geyser.units[u]
  match guActive g, (if mayWrite then guFree s g else none) with
  | some a, some k =>
    let s := { s with acq := memPutWords s.acq (g.regs.memBase.toNat / 4 + a.val * (g.regs.segSize.toNat / 4)) (guRecord s u tr truncated) }
    let s := modGuRegs u (fun r => { r with
      segHold := upd r.segHold a fun _ => true, segSeq := upd r.segSeq a fun _ => r.nextRecSeq
      segActive := upd (upd r.segActive a fun _ => false) k fun _ => true
      segHeld := r.segHeld + 1, nextRecSeq := r.nextRecSeq + 1
      recordsWritten := satInc r.recordsWritten, cntOvf := r.cntOvf || satFull r.recordsWritten }) s
    note Ev.guRecordWritten (srcGu u) (natWord a.val) (g.regs.nextRecSeq.zeroExtend 32) 0
      (modGu u (fun g => { g with trig := none }) (drew 20 s))
  | _, _ =>
    note Ev.guRecordLost (srcGu u) 0 (g.regs.nextRecSeq.zeroExtend 32) 0
      (modGu u (fun g => { g with
        trig := none
        regs := { g.regs with
          nextRecSeq := g.regs.nextRecSeq + 1, lostSeen := true
          recordsLost := satInc g.regs.recordsLost, cntOvf := g.regs.cntOvf || satFull g.regs.recordsLost } }) s)
/-- GU_COMPLETE with the state it names: 4 complete, 5 stopped. -/
def guFinish (u : Fin 8) (stopped : Bool) (s : State) : State :=
  note Ev.guComplete (srcGu u) (boolWord stopped) 0 0
    (modGu u (fun g => { g with
      mets := [], regs := { g.regs with guState := if stopped then 5 else 4, completeSeen := true } }) s)
/-- The record has all its samples: it is written or lost, and the unit completes or fills again (R460). -/
def guSettle (u : Fin 8) (s : State) : State :=
  let g := s.geyser.units[u]
  match g.trig with
  | none => s
  | some tr =>
    if g.count < tr.idx + g.regs.post.toNat + 1 then s
    else
      let s := guEnd u tr false true s
      if g.regs.mode then modGu u guRefill s else guFinish u false s
/-- GU_RECORD_COMPLETE (R460): POST samples after the trigger point have been written. -/
def execGuRecordComplete (u : Fin 8) (s : State) : Out9 := .next (guSettle u s)

/-! ### Triggers (R456 to R459) -/

def GuMet.at50 (m : GuMet) : Int := t50 m.t m.fine
/-- Conditions whose trigger point is sample k of the fill (R458, R459). -/
def guJudge (u : Fin 8) (k : Nat) (late : Bool) (ms : List GuMet) (s : State) : State :=
  let g := s.geyser.units[u]
  match ms with
  | [] => s
  | m :: rest =>
    let first (a b : GuMet) : GuMet := if b.n < a.n then b else a
    let mask := ms.foldl (fun (w : BitVec 5) x => w ||| (1 <<< x.n.val)) 0
    match g.trig with
    | none =>
      if k < g.regs.pre.toNat then
        modGuRegs u (fun r => { r with
          ignoredPretrig := satAdd r.ignoredPretrig ms.length
          cntOvf := r.cntOvf || decide (r.ignoredPretrig.toNat + ms.length ≥ 2 ^ 32) }) s
      else
        note Ev.guTriggered (srcGu u) (mask.zeroExtend 32) (g.regs.nextRecSeq.zeroExtend 32) 0
          (modGu u (fun g => { g with
            trig := some { met := rest.foldl first m, mask := mask, late := late, idx := k }
            regs := { g.regs with
              guState := 3, trigLateSeen := g.regs.trigLateSeen || late
              trigAccepted := satInc g.regs.trigAccepted, cntOvf := g.regs.cntOvf || satFull g.regs.trigAccepted } }) s)
    | some tr =>
      if k = tr.idx then
        modGu u (fun g => { g with
          trig := some { tr with met := ms.foldl first tr.met, mask := tr.mask ||| mask, late := tr.late || late }
          regs := { g.regs with trigLateSeen := g.regs.trigLateSeen || late } }) s
      else
        modGuRegs u (fun r => { r with
          ignoredBusy := satAdd r.ignoredBusy ms.length
          cntOvf := r.cntOvf || decide (r.ignoredBusy.toNat + ms.length ≥ 2 ^ 32) }) s
/-- The trigger point of a condition among the samples held, with TRIG_LATE; none while its sample is to come (R457). -/
def guPoint (g : GeyserUnit) (m : GuMet) : Option (Nat × Bool) :=
  let oldest := g.count - g.ring.length
  let dues := g.ring.reverse.map (·.1)
  ((List.range dues.length).find? fun i => decide (m.at50 ≤ t50 (dues.getD i 0) 0)).map fun i =>
    (oldest + i, i = 0 && (match g.gone with
      | some d => decide (m.at50 ≤ t50 d 0)
      | none => false))
/-- A condition of a unit is met; it waits for its trigger point or is judged at it. -/
def guMeet (u : Fin 8) (m : GuMet) (s : State) : State :=
  let s := guSettle u s
  let g := s.geyser.units[u]
  if !guArmed g then s
  else match guPoint g m with
    | some (k, late) => guJudge u k late [m] s
    | none => modGu u (fun g => { g with mets := g.mets ++ [m] }) s
/-- Meets the conditions of every unit that the test names. -/
def guMeetAll (test : GuCond → Option GuMet) (s : State) : State :=
  (List.finRange 8).foldl (fun s u => (List.finRange 4).foldl (fun s n =>
    match test s.geyser.units[u].conds[n] with
    | some m => guMeet u { m with n := n.castSucc } s
    | none => s) s) s
/-- A local event reaches the units' fabric crossing. -/
def guEvent (e : EventRec) (s : State) : State :=
  guMeetAll (fun c => if c.kind = 3 && (e.code &&& c.emask) = c.evalue
    then some { n := 0, t := e.t, fine := e.tdc, fineOk := e.code = Ev.capEdge && e.unc = 1, unc := e.unc } else none) s
/-- A compare unit fires now with action bit 1 set. -/
def guCompare (cu : Fin 16) (s : State) : State :=
  guMeetAll (fun c => if c.kind = 4 && c.cu.toNat = cu.val
    then some { n := 0, t := s.dt, fine := 0, fineOk := false, unc := 5 } else none) s

/-- The pattern holds on the levels. -/
def patternOn (c : GuCond) (w : BitVec 48) : Bool := (w &&& c.mask) = (c.value &&& c.mask)
/-- The pattern triggers after a raw edge: judged over all inputs that have changed at this 400 MHz edge. -/
def guPattern (tdcOf : RawEdge) (s : State) : State :=
  let one := s.geyser.edgeNum = 1
  let was := s.geyser.edgeWas
  let now := capLevels s
  (List.finRange 8).foldl (fun s u => (List.finRange 4).foldl (fun s n =>
    let c : GuCond := s.geyser.units[u].conds[n]
    if c.kind ≠ 1 then s
    else
      let s := modGu u (fun g => { g with mets := g.mets.filter fun m => !(m.n = n.castSucc && m.t = s.dt) }) s
      if patternOn c now && !patternOn c was then
        guMeet u { n := n.castSucc, t := s.dt, fine := if one then tdcOf.fine else 0, fineOk := one && tdcOf.fineOk
                   unc := if one then tdcOf.unc else 5 } s
      else s) s) s
/-- CAPTURE_EDGE (R441 to R445): the input, after INVERT, is sampled at a new level. -/
def execCaptureEdge (c : Fin 48) (level : Bool) (tdc : BitVec 6) (s : State) : Out9 :=
  let r := s.geyser.caps[c].regs
  let l := level != r.invert
  if l = r.level then .next s
  else .next (guPattern (rawEdge s c l tdc) (capRaw c l tdc s))

/-- An analogue condition on the value v of its channel (R456), and the condition with its memory of the sample. -/
def guAnalogue (c : GuCond) (v : Int) : Bool × GuCond :=
  let thr := c.thr.toInt
  let h := (c.hyst.toNat : Int)
  let rise := c.wasLow && decide (thr ≤ v)
  let fall := c.wasHigh && decide (v ≤ thr)
  let met := match c.amode.toNat with
    | 0 => decide (thr < v)
    | 1 => decide (v < thr)
    | 2 => rise
    | 3 => fall
    | _ => rise || fall
  (met, { c with wasLow := (c.wasLow && !rise) || decide (v ≤ thr - h), wasHigh := (c.wasHigh && !fall) || decide (thr + h ≤ v) })
/-- This instant is an occurrence of the sample clock: the due edge of a current tick of the axis, on the pour grid or, in
local mode, at its carrier periods (R245, R247), or the pour point. -/
def sampleDue (s : State) (src : BitVec 8) : Bool :=
  match asFin 16 src.toNat with
  | some t =>
    if s.tiles[t].regs.localField then
      carrierRuns s t && s.dt = s.tiles[t].pw.periodStart
        && s.tiles[t].regs.periodCount.toNat % max 1 (rateLoop s t).localDiv.toNat = 0
    else (List.range (max 1 (rateLoop s t).k.toNat)).any fun j => currentDue s t j = s.dt
  | none => pourAt s (pourNum s).toNat = s.dt
/-- GU_SAMPLE (R454): an occurrence of the unit's sample clock at this instant; every DIV-th is sampled. -/
def execGuSample (u : Fin 8) (s : State) : Out9 :=
  let g := s.geyser.units[u]
  if !guArmed g || !sampleDue s g.regs.sampleSrc || g.occAt = some s.dt then .next s
  else
    let s := guSettle u s
    let g := s.geyser.units[u]
    if !guArmed g then .next s
    else
      let s := modGu u (fun g => { g with occ := g.occ + 1, occAt := some s.dt }) s
      if g.occ % (g.regs.div.toNat + 1) ≠ 0 then .next s
      else
        let vals := g.sels.map (guValue s)
        let judged := (List.finRange 4).map fun n =>
          let c := g.conds[n]
          match vals[c.ch.toNat]? with
          | some v => if c.kind = 2 then (guAnalogue c v.toInt) else (false, c)
          | none => (false, c)
        let mets := (List.finRange 4).filterMap fun n =>
          if (judged.getD n.val (false, {})).1
          then some ({ n := n.castSucc, t := s.dt, fine := 0, fineOk := false, unc := 5 } : GuMet) else none
        let ring := (s.dt, vals) :: g.ring
        let due := g.mets.filter fun m => decide (m.at50 ≤ t50 s.dt 0)
        let s := modGu u (fun g => { g with
          conds := Vector.ofFn fun n => (judged.getD n.val (false, g.conds[n])).2
          ring := ring.take (guN g), count := g.count + 1
          gone := match ring[guN g]? with
            | some x => some x.1
            | none => g.gone
          mets := g.mets.filter fun m => decide (t50 s.dt 0 < m.at50)
          regs := { g.regs with
            guState := if g.regs.guState = 1 && g.regs.pre.toNat ≤ g.count + 1 then 2 else g.regs.guState } }) s
        let s := modGu u (fun g =>
          let oldest := ((g.ring.getLast?).map (·.1)).getD s.dt
          { g with
            edges := g.edges.filter fun x => decide (t50 oldest 0 ≤ x.edge.at50)
            marksIn := g.marksIn.filter fun x => decide (t50 oldest 0 ≤ x.edge.at50)
            measWas := g.measWas.filter fun x => decide (oldest.toNat ≤ x.1.toNat) }) s
        .next (guJudge u g.count false (due ++ mets) s)

/-! ### Segments (R460) -/

/-- A held segment is freed; the active segment and one that is free are left. -/
def releaseSeg (u : Fin 8) (k : Fin 64) (s : State) : State :=
  if s.geyser.units[u].regs.segHold[k] then
    modGuRegs u (fun r => { r with segHold := upd r.segHold k fun _ => false, segHeld := r.segHeld - 1 }) s
  else s
/-- SEG_RELEASE (R460): a write of the register. -/
def execSegRelease (u : Fin 8) (seg : BitVec 16) (s : State) : Out9 :=
  match asFin 64 seg.toNat with
  | some k => .next (if s.power.blocks.contains (BitVec.ofNat 16 (0x100 + u.val)) then s else releaseSeg u k s)
  | none => .next s

/-! ### Commands (R466) -/

def guOf (p : Packet) : Fin 8 := Fin.ofNat 8 (tgt p)
def guOp (op : BitVec 16) (cls : ReplyClass) (params : Nat → Bool) : OpDesc :=
  { op := op, cls := cls, target := tBelow 8, params := params, block := fun n => if n < 8 then some (0x100 + n) else none }

/-- Bytes of one segment (R452). -/
def segBytes (pre post c : Nat) : Nat := (4 * (72 + (pre + post + 1) * (1 + c)) + 255) / 256 * 256
def guOthers (s : State) (u : Fin 8) : Nat :=
  ((List.finRange 8).map fun v => if v = u then 0 else s.geyser.units[v].regs.memSize.toNat).foldl (· + ·) 0
def dGuConfig : OpDesc := guOp 0x0B10 .b (fun n => 8 ≤ n && n ≤ 39)
def acceptGuConfig (p : Packet) (s : State) : BitVec 16 :=
  let u := guOf p
  let c := parNat p 6
  let src := parNat p 1
  if !(parIn p 0 0 128 && (src < 16 || src = 0x80) && parIn p 2 1 65536 && parIn p 3 0 65535 && parIn p 4 0 65535 && parIn p 5 0 1
      && parIn p 6 1 32) then Status.paramRange
  else if p.params.length ≠ 7 + c then Status.paramCount
  else if guArmed s.geyser.units[u] then Status.guBusy
  else if (p.params.drop 7).any fun w => !guSelOk w then Status.guSelectorInvalid
  else if 8388608 < guOthers s u + 65536 * parNat p 0 then Status.acqMemoryFull
  else if 65536 * parNat p 0 / segBytes (parNat p 3) (parNat p 4) c < 2 then Status.recordTooLarge
  else Status.ok
/-- The partitions lie in unit order (R452). -/
def guBases (s : State) : State :=
  (List.finRange 8).foldl (fun s u =>
    let base := ((List.finRange 8).map fun v => if v < u then s.geyser.units[v].regs.memSize.toNat else 0).foldl (· + ·) 0
    modGuRegs u (fun r => { r with memBase := natWord (if r.memSize = 0 then 0 else base) }) s) s
def runGuConfig (p : Packet) (s : State) : Reply :=
  let c := parNat p 6
  let bytes := 65536 * parNat p 0
  let seg := segBytes (parNat p 3) (parNat p 4) c
  ok (guBases (modGu (guOf p) (fun g => { g with
    sels := p.params.drop 7
    regs := { g.regs with
      memSize := natWord bytes, segSize := natWord seg, segCount := BitVec.ofNat 7 (min 64 (bytes / seg))
      sampleSrc := parBits p 1 8, div := BitVec.ofNat 16 (parNat p 2 - 1), pre := parBits p 3 16, post := parBits p 4 16
      mode := parBool p 5 } }) s))
/-- GU_CONFIG (R452 to R454). -/
def execGuConfig (p : Packet) (s : State) : Out9 := .next (request dGuConfig acceptGuConfig runGuConfig p s)

def dGuTriggerSet : OpDesc := guOp 0x0B11 .b (· = 13)
def acceptGuTriggerSet (p : Packet) (s : State) : BitVec 16 :=
  if !(parIn p 0 0 3 && parIn p 1 0 4 && parIn p 6 0 31 && parIn p 7 0 4 && parIn p 10 0 65535 && parIn p 11 0 65535 && parIn p 12 0 15)
  then Status.paramRange
  else if guArmed s.geyser.units[guOf p] then Status.guBusy else Status.ok
def runGuTriggerSet (p : Packet) (s : State) : Reply :=
  ok (modGu (guOf p) (fun g => { g with conds := upd g.conds (Fin.ofNat 4 (parNat p 0)) fun _ =>
    { kind := parBits p 1 3, mask := (par64 p 2).truncate 48, value := (par64 p 4).truncate 48, ch := parBits p 6 5
      amode := parBits p 7 3, thr := par p 8, hyst := par p 9, emask := parBits p 10 16, evalue := parBits p 11 16
      cu := parBits p 12 4 } }) s)
/-- GU_TRIGGER_SET (R456). -/
def execGuTriggerSet (p : Packet) (s : State) : Out9 := .next (request dGuTriggerSet acceptGuTriggerSet runGuTriggerSet p s)

/-- An input with its polarity in one word: [5:0] input, [8] 1 rising. -/
def edgeWordOk (w : Word) : Bool := decide ((w.extractLsb' 0 8).toNat < 48) && decide (w.toNat < 512)
def acceptMeas (p : Packet) (_ : State) : BitVec 16 :=
  let kind := parNat p 1
  let chOk := if kind = 0 || kind = 8 then true else if kind ≤ 4 then parIn p 2 0 47 else parIn p 2 0 31
  let markOk := kind ≠ 8 || (edgeWordOk (par p 4) && edgeWordOk (par p 5) && parIn p 6 0 111)
  if parIn p 0 0 7 && parIn p 1 0 8 && chOk && parIn p 3 0 1 && markOk then Status.ok else Status.paramRange
def stGuMeasureSet : StageOp :=
  { d := { guOp 0x0B12 .b (· = 11) with stage := .yes }
    accept := acceptMeas
    apply := fun p s =>
      let u := guOf p
      let k := Fin.ofNat 8 (parNat p 0)
      let s := { s with geyser := { s.geyser with latches := s.geyser.latches.filter fun x => match x.what with
        | .mark _ v j _ _ => !(v = u && j = k)
        | .record .. => true } }
      modGu u (fun g => { g with
        meas := upd g.meas k fun _ =>
          { kind := parBits p 1 4, ch := parBits p 2 6, pol := parBool p 3, start := parBits p 4 6, startPol := (par p 4).getLsbD 8
            stop := parBits p 5 6, stopPol := (par p 5).getLsbD 8, axis := parBits p 6 7, gateMin := par64 p 7, gateMax := par64 p 9 }
        measWas := (s.dt, g.meas) :: g.measWas
        held := upd g.held k fun _ => none }) s }
/-- GU_MEASURE_SET (R463, R464). -/
def execGuMeasureSet (p : Packet) (s : State) : Out9 := .next (stageRequest stGuMeasureSet p s)

def dGuArm : OpDesc := guOp 0x0B13 .b (· = 0)
def acceptGuArm (p : Packet) (s : State) : BitVec 16 :=
  if s.geyser.units[guOf p].regs.memSize = 0 then Status.notConfigured else Status.ok
def runGuArm (p : Packet) (s : State) : Reply :=
  let u := guOf p
  let s := guSettle u s
  let s := match s.geyser.units[u].trig with
    | some tr => guEnd u tr true false s
    | none => s
  ok (modGu u (fun g => guRefill { g with
    occ := 0, occAt := none, mets := [], measWas := [], conds := g.conds.map fun c => { c with wasLow := false, wasHigh := false }
    regs := { g.regs with
      segHold := Vector.replicate 64 false, segHeld := 0
      segActive := Vector.ofFn fun k => k.val = freeNow s % max 1 g.regs.segCount.toNat } }) (drawn s))
/-- GU_ARM (R458, R462): every segment is free; a record in progress ends as lost. -/
def execGuArm (p : Packet) (s : State) : Out9 := .next (request dGuArm acceptGuArm runGuArm p s)

def dGuForce : OpDesc := { guOp 0x0B14 .b (· = 0) with prio := true }
def runGuForce (p : Packet) (s : State) : Reply :=
  ok (guMeet (guOf p) { n := 4, t := s.dt, fine := 0, fineOk := false, unc := 5 } s)
/-- GU_FORCE (R456, R459). -/
def execGuForce (p : Packet) (s : State) : Out9 := .next (request dGuForce acceptAny runGuForce p s)

def dGuStop : OpDesc := guOp 0x0B15 .b (· = 0)
def stopGu (u : Fin 8) (s : State) : State :=
  let s := guSettle u s
  let g := s.geyser.units[u]
  if !guArmed g then s
  else guFinish u true (match g.trig with
    | some tr => guEnd u tr true true s
    | none => s)
def runGuStop (p : Packet) (s : State) : Reply :=
  let s := stopGu (guOf p) s
  let r := s.geyser.units[guOf p].regs
  okWith [r.trigAccepted, r.recordsWritten, r.recordsLost] s
/-- GU_STOP (R462). -/
def execGuStop (p : Packet) (s : State) : Out9 := .next (request dGuStop acceptAny runGuStop p s)

def dGuRelease : OpDesc := guOp 0x0B16 .b (· = 1)
def acceptGuRelease (p : Packet) (_ : State) : BitVec 16 := if parIn p 0 0 63 || par p 0 = 0xFFFF then Status.ok else Status.paramRange
def runGuRelease (p : Packet) (s : State) : Reply :=
  ok (match asFin 64 (parNat p 0) with
    | some k => releaseSeg (guOf p) k s
    | none => (List.finRange 64).foldl (fun s k => releaseSeg (guOf p) k s) s)
/-- GU_RELEASE (R460). -/
def execGuRelease (p : Packet) (s : State) : Out9 := .next (request dGuRelease acceptGuRelease runGuRelease p s)

def dGuStatus : OpDesc := guOp 0x0B17 .a (· = 0)
def runGuStatus (p : Packet) (s : State) : Reply := okWith (wordsOf (readGuRegs s.geyser.units[guOf p].regs) 0 80) s
/-- GU_STATUS (R469). -/
def execGuStatus (p : Packet) (s : State) : Out9 := .next (request dGuStatus acceptAny runGuStatus p s)

def dMarkStatus : OpDesc := guOp 0x0B18 .a (· = 1)
def acceptMarkStatus (p : Packet) (_ : State) : BitVec 16 := if parIn p 0 0 7 then Status.ok else Status.paramRange
def runMarkStatus (p : Packet) (s : State) : Reply :=
  okWith (wordsOf (readMarkMeasRegs s.geyser.units[guOf p].marks[Fin.ofNat 8 (parNat p 0)]) 0x200 8) s
/-- MARK_STATUS (R469). -/
def execMarkStatus (p : Packet) (s : State) : Out9 := .next (request dMarkStatus acceptMarkStatus runMarkStatus p s)

/-- A block reset of the unit (R462, R33): a record in progress ends as lost, then the unit is at its reset values; its
segments, their records and the partition stay until the next GU_ARM. -/
def resetGu (u : Fin 8) (s : State) : State :=
  let s := match s.geyser.units[u].trig with
    | some tr => guEnd u tr true false s
    | none => s
  let s := { s with geyser := { s.geyser with latches := s.geyser.latches.filter fun x => match x.what with
    | .mark _ v _ _ _ => v ≠ u
    | .record .. => true } }
  modGu u (fun g =>
    { regs := { memBase := g.regs.memBase, memSize := g.regs.memSize, segSize := g.regs.segSize, segCount := g.regs.segCount
                segHeld := g.regs.segHeld, segSeq := g.regs.segSeq, segHold := g.regs.segHold
                sampleSrc := g.regs.sampleSrc, div := g.regs.div, pre := g.regs.pre, post := g.regs.post, mode := g.regs.mode }
      sels := g.sels }) s

end Sys2Proof.Machine
end

