-- ==== Sys2Proof/Machine/Time.lean ====
section
/-! DEFINITION. Group 0x02, domain time: the time unit and its states, the grandmaster's PTP input, compare units and pulse
outputs (R36 to R53, R65 to R68). -/

namespace Sys2Proof.Machine

def modTime (f : TimeUnit → TimeUnit) (s : State) : State := { s with time := f s.time }
def modTimeRegs (f : TimeRegs → TimeRegs) (s : State) : State := modTime (fun t => { t with regs := f t.regs }) s

/-- Axes in domain-synchronised operation: those an event of the time unit affects. -/
def syncAxes (s : State) : List (Fin 112) :=
  hostAxes.filter fun a => !((axisTile a).map fun t => s.tiles[t].regs.localField).getD false

/-! ### Loading DT (R40, R45) -/

/-- The nearest multiple of 2.5 ns: a 400 MHz edge lies on one (R615). -/
def onGrid (x : Int) : Fix := fixRaw (roundDiv x 0x280000000 * 0x280000000)

/-- DT is loaded: the module has a DT of its own, OFFSET reads 0 until the next measurement, and a time-triggered CAN
schedule starts again (R40, R67, R544). -/
def loadDt (x : Int) (s : State) : State :=
  { s with
    dt := onGrid x
    time := { s.time with ownDt := true, regs := { s.time.regs with offset := 0 } }
    cans := s.cans.map (canDtLoad (onGrid x)) }

/-- The upstream DT that the last measurement gave: own DT less the offset; beyond the range of OFFSET it is not known. -/
def upstreamDt (s : State) : Int :=
  let ps := s.time.regs.offset.toInt
  if ps = 2147483647 || ps = -2147483648 then (freeNow s : Int)
  else s.dt.toInt - roundDiv (ps * 2 ^ 32) 1000

/-! ### The state of the time unit and the outputs that follow it (R39, R53) -/

/-- A pulse output under SUPPRESS while the time unit is FREE or ACQUIRE holds its inactive level: a pulse being output ends at
once, its trailing edge is one of the skipped edges, and a running train reads suppressed (R53). -/
def quietOutput (x : PulseOut) : PulseOut :=
  if x.runUnlocked || x.regs.ppsState ≠ 2 then x
  else { x with
    active := false, skipped := if x.active then x.skipped + 1 else x.skipped
    regs := { x.regs with ppsState := if x.active && x.period = 0 then 0 else 3 } }

/-- The time unit enters a state; the pulse outputs follow their policy from then on (R39, R53). -/
def enterTimeState (st : BitVec 2) (s : State) : State :=
  let s := modTimeRegs (fun r => { r with state := st }) s
  if st.toNat < 2 then { s with pps := s.pps.map quietOutput } else s

/-- FREE: no servo term, and OFFSET reads 0 until the next measurement (R39, R67). -/
def enterFree (s : State) : State :=
  enterTimeState 0 (modTime (fun t => { t with
    lockRun := 0, unlockRun := 0, regs := { t.regs with rateAdj := 0, offset := 0 } }) s)

/-! ### Measurements (R38, R39, R41, R44) -/

/-- The clamp of R38 in units of 2^-40. -/
def rateClamp : Int := 219902325

/-- The servo demands a rate: it is held in the clamp, and beyond it RATE_CLAMPED is raised (R38). -/
def setRate (demand : Int) (s : State) : State :=
  let beyond := decide (demand < -rateClamp) || decide (rateClamp < demand)
  let s := if beyond && !s.time.clamped then note Ev.rateClamped srcServo 0 0 0 s else s
  modTime (fun t => { t with
    clamped := beyond
    regs := { t.regs with
      rateAdj := BitVec.ofInt 32 (clampInt (-rateClamp) rateClamp demand), rateClamped := t.regs.rateClamped || beyond } }) s

/-- TIME_FAULT (R44). -/
def timeFault (s : State) : State :=
  if s.time.faulted then s
  else raise Ev.timeFault srcServo s.time.clsFault true 0 0 0 (syncAxes s)
    (modTime (fun t => { t with faulted := true, regs := { t.regs with timeFaultSeen := true } }) s)

/-- One offset in ps has been measured: OFFSET, the runs that lock and unlock, and the entry to ACQUIRE from FREE and from
HOLDOVER (R39, R41). -/
def noteOffset (offset : Word) (s : State) : State :=
  let a := offset.toInt.natAbs
  let st := s.time.regs.state
  enterTimeState (if st = 2 then 2 else 1) (modTime (fun t => { t with
    measured := true, missRun := 0
    lockRun := if st = 0 || st = 3 then (if a ≤ 2000 then 1 else 0) else if a ≤ 2000 then t.lockRun + 1 else 0
    unlockRun := if 8000 < a then t.unlockRun + 1 else 0
    regs := { t.regs with offset := offset } }) s)

/-- An offset beyond 1 us (R44). -/
def offsetFault (offset : Word) : Bool := decide (1000000 < offset.toInt.natAbs)

/-- One measurement of a module that is not the grandmaster.  The demand of the PI servo is a free value; beyond 1 us the
servo slews at the clamp rate (R38, R39, R44). -/
def measure (offset : Word) (s : State) : State :=
  let s := noteOffset offset s
  if offsetFault offset then
    timeFault (modTimeRegs (fun r => { r with
      rateAdj := BitVec.ofInt 32 (if 0 ≤ offset.toInt then -rateClamp else rateClamp) }) s)
  else drawn (setRate (freeIn s (-2147483648) 2147483647) s)

/-- 64 measurements in a row within 2 ns: LOCKED (R39).  The conditions of the time events end. -/
def execTimeLocked (s : State) : Host.Outcome State Fault Refusal :=
  .next (
    if s.time.regs.state = 1 && 64 ≤ s.time.lockRun then
      let s := enterTimeState 2 (modTime (fun t => { t with unlockRun := 0, faulted := false, unlocked := false }) s)
      let s := clearCond Ev.timeUnlocked allAxes (clearCond Ev.holdoverExpired allAxes (clearCond Ev.timeFault allAxes s))
      note Ev.timeLocked srcServo 0 0 0 s
    else s)

/-- 4 measurements in a row beyond 8 ns: back to ACQUIRE without a load (R41). -/
def execTimeUnlocked (s : State) : Host.Outcome State Fault Refusal :=
  .next (
    if s.time.regs.state = 2 && 4 ≤ s.time.unlockRun then
      raise Ev.timeUnlocked srcServo s.time.clsUnlocked true 0 0 0 (syncAxes s)
        (enterTimeState 1 (modTime (fun t => { t with
          lockRun := 0, unlocked := true
          regs := { t.regs with
            unlockSeen := true, unlockCount := satInc t.regs.unlockCount
            cntOvf := t.regs.cntOvf || satFull t.regs.unlockCount } }) s))
    else s)

/-- HOLDOVER is entered: the PI term is frozen (R39, R43). -/
def enterHoldover (s : State) : State :=
  note Ev.timeHoldover srcServo 0 0 0
    (modTime (fun t => { t with
      holdoverAt := s.dt, holdoverDone := false, lockRun := 0, unlockRun := 0
      regs := { t.regs with
        state := 3, holdoverSeen := true, holdoverCount := satInc t.regs.holdoverCount
        cntOvf := t.regs.cntOvf || satFull t.regs.holdoverCount } }) s)

/-- No valid measurement for 4 pour cycles in a row while LOCKED (R39). -/
def execHoldoverEntry (s : State) : Host.Outcome State Fault Refusal :=
  .next (if s.time.regs.state = 2 && 4 ≤ s.time.missRun then enterHoldover s else s)

/-- HOLDOVER has lasted longer than T_hold. -/
def heldTooLong (s : State) : Bool := decide (s.time.holdoverAt.toNat + s.time.tHoldMs.toNat * 1000000 * 2 ^ 32 < s.dt.toNat)

/-- HOLDOVER has lasted longer than T_hold (R43). -/
def execHoldoverExpired (s : State) : Host.Outcome State Fault Refusal :=
  .next (
    if s.time.regs.state = 3 && !s.time.holdoverDone && heldTooLong s then
      raise Ev.holdoverExpired srcServo s.time.clsHoldover true 0 0 0 (syncAxes s)
        (modTime (fun t => { t with holdoverDone := true }) s)
    else s)

/-! ### The grandmaster and PTP (R46, R47) -/

/-- TAI - EPOCH_TAI - DT in ns. -/
def taiOffset (tai : BitVec 64) (s : State) : Int :=
  (tai.toNat : Int) - s.time.regs.epochTai.toNat * 1000000000 - (nsOf s.dt).toNat

/-- The greatest steering contribution, 20 ppm in units of 2^-40 (R47). -/
def steerLimit : Int := 21990232

/-- The steering toward TAI - EPOCH_TAI, off being that less DT: none without a valid epoch, beyond 100 ms, or at no
difference; otherwise of the difference's sign and at most 20 ppm.  Its size is a free value (log entry 108). -/
def steering (off : Int) (s : State) : Int :=
  if !s.time.regs.epochValid || 100000000 < off.natAbs || off = 0 then 0
  else if 0 < off then freeIn s 1 steerLimit else -freeIn s 1 steerLimit

/-- A PTP message of the grandmaster's master: its rate with the steering contribution disciplines DT, TAI_OFFSET follows, and
a difference beyond 100 ms stops the phase steering while the rate is still followed (R47). -/
def ptpMessage (rate offset : Word) (tai : BitVec 64) (locked : Bool) (s : State) : State :=
  let off := taiOffset tai s
  let large := s.time.regs.epochValid && decide (100000000 < off.natAbs)
  let s := if large && !s.time.ptpLarge then note Ev.ptpOffsetLarge srcServo 0 0 0 s else s
  let s := modTime (fun t => { t with
    ptpLost := false, ptpLarge := large
    regs := { t.regs with ptpLocked := locked, taiOffset := sat32 off } }) s
  let s := noteOffset offset s
  let s := if offsetFault offset then timeFault s else s
  drawn (setRate (rate.toInt + steering off s) s)

def execPtpMessageReceive (eth : Fin 2) (domain : BitVec 8) (rate offset : BitVec 32) (tai : BitVec 64) (locked : Bool)
    (s : State) : Host.Outcome State Fault Refusal :=
  .next (
    if s.time.regs.roleGm && s.time.source.toNat = 2 + eth.val && s.time.ptp[eth].domain = domain.setWidth 32 then
      ptpMessage rate offset tai locked s
    else s)

/-- PTP messages have stopped for 3 announce intervals (R47). -/
def execPtpLost (s : State) : Host.Outcome State Fault Refusal :=
  .next (
    if s.time.regs.roleGm && 2 ≤ s.time.source.toNat && !s.time.ptpLost then
      enterHoldover (note Ev.ptpLost srcServo 0 0 0
        (modTime (fun t => { t with ptpLost := true, regs := { t.regs with ptpLostSeen := true, ptpLocked := false } }) s))
    else s)

/-! ### Compare units (R48 to R51) -/

/-- The signed 40-bit difference TARGET - DT (R48). -/
def compareDiff (target ns : BitVec 64) : Int := (target.truncate 40 - ns.truncate 40 : BitVec 40).toInt

/-- The unit's arm ends without firing. -/
def cancelCompare (u : Fin 16) (s : State) : State :=
  if s.compares[u].regs.cmpState = 0 then s
  else note Ev.timerCancelled (srcCompare u) 0 0 0
    (modCompare u (fun c => { c with regs := { c.regs with cmpState := 0 } }) s)

/-- The unit schedules its next target; targets of the series that have passed are skipped and counted (R50). -/
def rearmCompare (u : Fin 16) (s : State) : State :=
  let c := s.compares[u]
  let per := c.period.toNat
  if per = 0 then modCompare u (fun c => { c with regs := { c.regs with cmpState := 0 } }) s
  else
    let skips := ((nsOf s.dt).toNat - c.regs.target.toNat) / per
    let s := modCompare u (fun c => { c with regs := { c.regs with
      target := BitVec.ofNat 64 (c.regs.target.toNat + (skips + 1) * per)
      fireSkipCount := satAdd c.regs.fireSkipCount skips } }) s
    if 65535 < c.regs.fireSkipCount.toNat + skips then modTimeRegs (fun r => { r with cntOvf := true }) s else s

/-! ### Pulse outputs (R52, R53) -/

def modPpsRegs (n : Fin 8) (f : PpsRegs → PpsRegs) (s : State) : State := modPps n (fun x => { x with regs := f x.regs }) s

/-- One edge has been output. -/
def countEdge (n : Fin 8) (s : State) : State :=
  let full := satFull s.pps[n].regs.edgeCount
  let s := modPpsRegs n (fun r => { r with edgeCount := satInc r.edgeCount }) s
  if full then modTimeRegs (fun r => { r with cntOvf := true }) s else s

/-- DT has reached the 2.5 ns interval in which an edge lies. -/
def edgeDue (t : Fix) (s : State) : Bool := decide (t.toNat < s.dt.toNat + 0x280000000)

/-- The leading edge: output, or skipped and counted, with the trailing edge of its pulse, under SUPPRESS while FREE or
ACQUIRE (R53; log entry 109). -/
def ppsLeading (n : Fin 8) (s : State) : State :=
  let x := s.pps[n]
  let quiet := !x.runUnlocked && s.time.regs.state.toNat < 2
  let nxt := x.next + x.period
  let s := modPps n (fun x => { x with
    active := !quiet, trailing := x.next + fixNat x.width.toNat, next := nxt
    skipped := if quiet then x.skipped + 2 else x.skipped
    regs := { x.regs with
      nextEdge := nsOf nxt
      ppsState := if quiet then (if x.period = 0 then 0 else 3) else 2 } }) s
  if quiet then s else countEdge n s

/-- The trailing edge; a single pulse then ends. -/
def ppsTrailing (n : Fin 8) (s : State) : State :=
  countEdge n (modPps n (fun x => { x with
    active := false, regs := { x.regs with ppsState := if x.period = 0 then 0 else x.regs.ppsState } }) s)

/-- PPS_EDGE (R52): the next edge that is due. -/
def execPpsEdge (n : Fin 8) (s : State) : Host.Outcome State Fault Refusal :=
  .next (
    let x := s.pps[n]
    if x.active then (if edgeDue x.trailing s then ppsTrailing n s else s)
    else if x.regs.ppsState ≠ 0 && edgeDue x.next s then ppsLeading n s
    else s)

/-- A running output is cancelled by TIME_RELOAD (R45).  DESIGN CHOICE: every output that is not stopped counts as running, an
armed and a suppressed one too (log entry 104). -/
def cancelPps (n : Fin 8) (s : State) : State :=
  if s.pps[n].regs.ppsState = 0 then s
  else note Ev.timerCancelled (srcPps n) 0 0 0
    (modPps n (fun x => { x with active := false, regs := { x.regs with ppsState := 0 } }) s)

/-! ### Commands (R66) -/

def dTimeRead : OpDesc := modOp 0x0201 .a (· = 0)
def runTimeRead (_ : Packet) (s : State) : Reply :=
  okWith (words96 s.dt ++ [s.time.regs.state.zeroExtend 32] ++ words64 (pourNum s)) s
/-- TIME_READ (R66). -/
def execTimeRead (p : Packet) (s : State) : Host.Outcome State Fault Refusal :=
  .next (request dTimeRead acceptAny runTimeRead p s)

def dTimeStatus : OpDesc := modOp 0x0202 .a (· = 0)
def runTimeStatus (_ : Packet) (s : State) : Reply :=
  okWith ([0x010, 0x018, 0x014, 0x01C, 0x034, 0x038].map (timeWord s)) s
/-- TIME_STATUS (R66, R67). -/
def execTimeStatus (p : Packet) (s : State) : Host.Outcome State Fault Refusal :=
  .next (request dTimeStatus acceptAny runTimeStatus p s)

def dTimeSourceSet : OpDesc := modOp 0x0203 .b (· = 1)
def acceptTimeSourceSet (p : Packet) (s : State) : BitVec 16 :=
  if !(parNat p 0 = 0 || parIn p 0 2 3) then Status.paramRange
  else if !s.time.regs.roleGm then Status.notGrandmaster else Status.ok
def runTimeSourceSet (p : Packet) (s : State) : Reply :=
  let src : BitVec 2 := parBits p 0 2
  let s := modTime (fun t => { t with
    source := src
    ptpLost := t.ptpLost && src = t.source
    ptpLarge := t.ptpLarge && src = t.source
    regs := { t.regs with source := src, ptpLocked := t.regs.ptpLocked && src = t.source } }) s
  ok (if src = 0 then enterFree s else s)
/-- TIME_SOURCE_SET (R47, R66): a grandmaster with the crystal as source is FREE. -/
def execTimeSourceSet (p : Packet) (s : State) : Host.Outcome State Fault Refusal :=
  .next (request dTimeSourceSet acceptTimeSourceSet runTimeSourceSet p s)

def dPtpConfig : OpDesc := { op := 0x0204, cls := .b, target := tBelow 2, params := fun n => n = 5 || n = 6 }
def acceptPtpConfig (p : Packet) (_ : State) : BitVec 16 :=
  if !(parIn p 0 0 1 && parIn p 1 0 1 && parIn p 2 0 127) then Status.paramRange
  else if (parNat p 0 = 0) ≠ (p.params.length = 6) then Status.paramCount else Status.ok
def runPtpConfig (p : Packet) (s : State) : Reply :=
  ok (modTime (fun t => { t with ptp := upd t.ptp (Fin.ofNat 2 (tgt p)) fun _ =>
    { transport := par p 0, delayMech := par p 1, domain := par p 2, announceInt := par p 3, syncInt := par p 4,
      ipv4 := par p 5 } }) s)
/-- PTP_CONFIG (R46, R66). -/
def execPtpConfig (p : Packet) (s : State) : Host.Outcome State Fault Refusal :=
  .next (request dPtpConfig acceptPtpConfig runPtpConfig p s)

def dTimePolicySet : OpDesc := modOp 0x0205 .b (· = 4)
def acceptTimePolicySet (p : Packet) (_ : State) : BitVec 16 :=
  if clsAllowed .note (par p 0) && clsAllowed .note (par p 1) && clsAllowed .stop (par p 2) && parIn p 3 100 600000
  then Status.ok else Status.paramRange
def runTimePolicySet (p : Packet) (s : State) : Reply :=
  ok (modTime (fun t => { t with
    clsUnlocked := clsOf (par p 0), clsHoldover := clsOf (par p 1), clsFault := clsOf (par p 2), tHoldMs := par p 3 }) s)
/-- TIME_POLICY_SET (R43, R44, R65). -/
def execTimePolicySet (p : Packet) (s : State) : Host.Outcome State Fault Refusal :=
  .next (request dTimePolicySet acceptTimePolicySet runTimePolicySet p s)

/-- The compare unit, the pulse output that the target names. -/
def cmpOf (p : Packet) : Fin 16 := Fin.ofNat 16 (tgt p)
def ppsOf (p : Packet) : Fin 8 := Fin.ofNat 8 (tgt p)

/-- Window check of R49. -/
def windowStatus (target now : Int) : BitVec 16 :=
  if 549755813887 < target - now then Status.targetBeyondWindow
  else if target - now ≤ 0 then Status.targetPast
  else Status.ok

def dCompareArm : OpDesc :=
  { op := 0x0206, cls := .b, target := tBelow 16, params := (· = 7)
    reservedOk := fun p => par p 4 &&& 0xFFFFFFF0 = 0 && par p 5 &&& 0xFFFF0000 = 0 }
def acceptCompareArm (p : Packet) (s : State) : BitVec 16 :=
  let per := (par64 p 2).toNat
  let st := windowStatus (par64 p 0).toNat (nsOf s.dt).toNat
  if per ≠ 0 && (per < 100 || 549755813887 < per) then Status.paramRange
  else if st ≠ Status.ok then st
  else if (par p 4).getLsbD 2 && (List.finRange 16).any fun t => (par p 5).getLsbD t.val && !s.tiles[t].regs.localField then
    Status.tileNotLocal
  else Status.ok
def runCompareArm (p : Packet) (s : State) : Reply :=
  ok (modCompare (cmpOf p) (fun c => { c with
    period := par64 p 2, actions := parBits p 4 4, tiles := parBits p 5 16, engines := par p 6
    regs := { c.regs with target := par64 p 0, cmpState := if par64 p 2 = 0 then 1 else 2 } }) (cancelCompare (cmpOf p) s))
/-- COMPARE_ARM (R49 to R51). -/
def execCompareArm (p : Packet) (s : State) : Host.Outcome State Fault Refusal :=
  .next (request dCompareArm acceptCompareArm runCompareArm p s)

def dCompareCancel : OpDesc := { op := 0x0207, cls := .b, target := tBelow 16, params := (· = 0) }
def runCompareCancel (p : Packet) (s : State) : Reply :=
  okWith [s.compares[cmpOf p].regs.fireCount.zeroExtend 32] (cancelCompare (cmpOf p) s)
/-- COMPARE_CANCEL (R66). -/
def execCompareCancel (p : Packet) (s : State) : Host.Outcome State Fault Refusal :=
  .next (request dCompareCancel acceptAny runCompareCancel p s)

/-- The first instant after DT at k pour cycles plus a signed start. -/
def firstAligned (start : Int) (s : State) : Int :=
  let l : Int := pourLen s * 2 ^ 32
  start + ((s.dt.toInt - start) / l + 1) * l

def dPpsConfig : OpDesc := { op := 0x0208, cls := .b, target := tBelow 8, params := (· = 10) }
/-- Start and period that a PPS_CONFIG asks for: POUR_ALIGNED takes L as the period and measures the start from a pour (R53).
DESIGN CHOICE: a period of 0 asks for the single pulse of R52 (log entry 105). -/
def ppsSchedule (p : Packet) (s : State) : Fix × Fix :=
  if parBool p 8 then (fixRaw (firstAligned (par96 p 0).toInt s), fixNat (pourLen s)) else (par96 p 0, par96 p 3)
def acceptPpsConfig (p : Packet) (s : State) : BitVec 16 :=
  let (start, per) := ppsSchedule p s
  let w := parNat p 6 * 2 ^ 32
  if !(parIn p 7 0 1 && parIn p 8 0 1 && parIn p 9 0 1) then Status.paramRange
  else if parBool p 8 && pourLen s = 0 then Status.paramRange
  else if per ≠ 0 && (per.toNat < 100 * 2 ^ 32 || 549755813887 * 2 ^ 32 < per.toNat) then Status.paramRange
  else if w < 10 * 2 ^ 32 || (per ≠ 0 && per.toNat < w + 10 * 2 ^ 32) then Status.paramRange
  else windowStatus (nsOf start).toNat (nsOf s.dt).toNat
def runPpsConfig (p : Packet) (s : State) : Reply :=
  let (start, per) := ppsSchedule p s
  ok (modPps (ppsOf p) (fun x => { x with
    next := start, period := per, width := par p 6, polarity := parBool p 7, pourAligned := parBool p 8
    runUnlocked := parBool p 9, active := false
    regs := { x.regs with nextEdge := nsOf start, ppsState := 1 } }) s)
/-- PPS_CONFIG (R52, R53). -/
def execPpsConfig (p : Packet) (s : State) : Host.Outcome State Fault Refusal :=
  .next (request dPpsConfig acceptPpsConfig runPpsConfig p s)

def dPpsStop : OpDesc := { op := 0x0209, cls := .b, target := tBelow 8, params := (· = 0) }
def runPpsStop (p : Packet) (s : State) : Reply :=
  okWith [s.pps[ppsOf p].regs.edgeCount]
    (modPps (ppsOf p) (fun x => { x with active := false, regs := { x.regs with ppsState := 0 } }) s)
/-- PPS_STOP (R66). -/
def execPpsStop (p : Packet) (s : State) : Host.Outcome State Fault Refusal :=
  .next (request dPpsStop acceptAny runPpsStop p s)

def dPourStatus : OpDesc := modOp 0x020A .a (· = 0)
def runPourStatus (_ : Packet) (s : State) : Reply :=
  okWith ([natWord (pourLen s), s.stage.regs.domainD.zeroExtend 32] ++ words64 (pourNum s)
    ++ [natWord (hostSets s).length] ++ words64 (nextTarget s)) s
/-- POUR_STATUS (R66, R68). -/
def execPourStatus (p : Packet) (s : State) : Host.Outcome State Fault Refusal :=
  .next (request dPourStatus acceptAny runPourStatus p s)

def dTimeReload : OpDesc := modOp 0x020B .b (· = 0)
def acceptTimeReload (_ : Packet) (s : State) : BitVec 16 :=
  if s.time.regs.roleGm || s.time.regs.state = 2 || (syncAxes s).any (fun a => s.axes[a].enabled) then
    Status.timeReloadRefused
  else Status.ok
def runTimeReload (_ : Packet) (s : State) : Reply :=
  let s := (List.finRange 16).foldl (fun s u => cancelCompare u s) s
  let s := (List.finRange 8).foldl (fun s n => cancelPps n s) s
  let s := clearCond Ev.timeFault allAxes (modTime (fun t => { t with faulted := false }) s)
  ok (drawn (loadDt (upstreamDt s) s))
/-- TIME_RELOAD (R40, R45). -/
def execTimeReload (p : Packet) (s : State) : Host.Outcome State Fault Refusal :=
  .next (request dTimeReload acceptTimeReload runTimeReload p s)

end Sys2Proof.Machine
end

