-- ==== Sys2Proof/Machine/Ring.lean ====
section
/-! DEFINITION. The rings of the module (R109 to R113), what leaves its ports, the words of a frame (R121 to R124, R127), and the
plan's arithmetic (R126 to R131). -/

namespace Sys2Proof.Machine

def modLink (f : Link → Link) (s : State) : State := { s with link := f s.link }
def modSeg (f : SegmentRegs → SegmentRegs) (s : State) : State := modLink (fun l => { l with seg := f l.seg }) s
def modLinkRing (r : Fin 2) (f : Ring → Ring) (s : State) : State := modLink (fun l => { l with rings := upd l.rings r f }) s
def modPortRegs (i : Fin 4) (f : PortRegs → PortRegs) (s : State) : State := modPort i (fun x => { x with regs := f x.regs }) s

/-- Source of segment-level events: instance 0 (R147). -/
def srcSegment : BitVec 16 := srcPort 0

/-! ### Rings -/

/-- Ring 0 is that of the module's own segment, ring 1 a bridge's child ring (R109). -/
def ringPlan (s : State) (r : Fin 2) : RingPlan := if r = 0 then s.link.plan.own else s.link.plan.child.getD {}
def ringN (s : State) (r : Fin 2) : Nat := (ringPlan s r).n.toNat
/-- The module's position in the ring: position 0 is the master (R110). -/
def ringPosOf (s : State) (r : Fin 2) : Nat := if s.link.rings[r].master then 0 else (ringPlan s r).pos.toNat
/-- The ring that the plan gives the port to (R109). -/
def ringOf (s : State) (port : Fin 4) : Option (Fin 2) :=
  (List.finRange 2).find? fun r => (ringPlan s r).west = some port || (ringPlan s r).east = some port
def isEast (s : State) (r : Fin 2) (port : Fin 4) : Bool := (ringPlan s r).east = some port
/-- The module's other port in the ring. -/
def otherPort (s : State) (r : Fin 2) (port : Fin 4) : Option (Fin 4) :=
  if isEast s r port then (ringPlan s r).west else (ringPlan s r).east
/-- RING_STATE of a ring; the register gives that of the module's own segment (log entry 120). -/
def ringState (s : State) (r : Fin 2) : BitVec 2 := if r = 0 then s.link.seg.ringState else s.link.rings[r].state
def setRingState (r : Fin 2) (v : BitVec 2) (s : State) : State :=
  if r = 0 then modSeg (fun x => { x with ringState := v }) s else modLinkRing r (fun x => { x with state := v }) s
/-- The module is the master of some segment. -/
def anyMaster (s : State) : Bool := s.link.rings.toList.any (·.master)
/-- The segment whose master the module is, its own where it is both (log entry 120). -/
def masterRing (s : State) : Fin 2 := if s.link.rings[0].master then 0 else 1

/-! ### What leaves a port (R108, R109) -/

/-- A port that the plan does not name, or whose medium is absent, keeps its transmitter off (R108, R109). -/
def transmits (s : State) (port : Fin 4) : Bool := (ringOf s port).isSome && !s.link.ports[port].regs.det
/-- A command that sends starts with nothing sent. -/
def unsent (s : State) : State := modLink (fun l => { l with sent := [] }) s
def emit (o : LinkOut) (s : State) : State := modLink (fun l => { l with sent := l.sent ++ [o] }) s
def emitAt (port : Fin 4) (o : LinkOut) (s : State) : State := if transmits s port then emit o s else s
/-- One ordered set on the module's other port of the port's ring, where it has one. -/
def emitOther (r : Fin 2) (port : Fin 4) (o : Fin 4 → LinkOut) (s : State) : State :=
  match otherPort s r port with
  | some q => emitAt q (o q) s
  | none => s
/-- Segment masters alone launch; every other module passes a notice on towards its master (R141, R145). -/
def passNotice (r : Fin 2) (port : Fin 4) (o : Fin 4 → LinkOut) (s : State) : State :=
  if s.link.rings[r].master then s else emitOther r port o s

/-! ### Words of a frame (R121 to R124, R127) -/

/-- The header: direction, WRAPPED and REPLAY are the flags. -/
def frameHeader (type flags hops : BitVec 8) (seg : BitVec 4) (pour : BitVec 64) (tx : Fix) (crc : Word) : List Word :=
  let body := [fieldAt type 0 ||| fieldAt flags 8 ||| fieldAt seg 16 ||| fieldAt hops 24] ++ words64 pour
    ++ [tx.extractLsb' 32 32, tx.extractLsb' 0 32, crc, 0]
  body ++ [crcWords body]
/-- Flags byte of a frame (R122). -/
def frameFlags (west wrapped replay : Bool) : BitVec 8 :=
  (if west then 1 else 0) ||| (if wrapped then 2 else 0) ||| (if replay then 4 else 0)

/-- A master entry as its four words (R124). -/
def entryWords (e : MasterEntry) : List Word :=
  words96 e.pos ++ [fieldAt e.pour 0 ||| flagAt e.valid 16 ||| flagAt e.replay 17 ||| flagAt e.lateHop 18
    ||| flagAt e.stopping 19 ||| flagAt e.uncertain 20 ||| fieldAt e.bridges 24]
/-- The entry that four words spell; who publishes it the plan says. -/
def readEntry (publisher : BitVec 64) (writer index : Nat) (ws : List Word) : MasterEntry :=
  let st := ws.getD 3 0
  { publisher := publisher, writer := writer, index := index
    pos := ws.getD 2 0 ++ ws.getD 1 0 ++ ws.getD 0 0, pour := st.extractLsb' 0 16
    valid := st.getLsbD 16, replay := st.getLsbD 17, lateHop := st.getLsbD 18, stopping := st.getLsbD 19
    uncertain := st.getLsbD 20, bridges := st.extractLsb' 24 8 }

/-- Bytes of a slot (R123). -/
def slotBytes (x : SlotPlan) : Nat := 8 + 16 * x.entries.length + 4 * x.cyc
/-- A slot: writer, entry count, length, entries, cyclic data and SLOT_CRC over the pour number and the rest (R123). -/
def frameSlotWords (pos : Nat) (len : Nat) (pour : BitVec 64) (es : List MasterEntry) (cyc : List Word) : List Word :=
  let body := natWord (pos % 256 + es.length % 256 * 256 + len % 65536 * 65536) :: es.flatMap entryWords ++ cyc
  body ++ [crcWords (words64 pour ++ body)]
/-- SLOT_CRC of the words of a slot is good. -/
def slotGood (pour : BitVec 64) (ws : List Word) : Bool :=
  crcWords (words64 pour ++ ws.dropLast) = ws.getLastD 0
/-- Bytes before slot k, the header among them. -/
def slotStart (rp : RingPlan) (k : Nat) : Nat := 32 + ((rp.slots.take k).map slotBytes).foldl (· + ·) 0
/-- The plan of the slot at position k. -/
def slotPlan (rp : RingPlan) (k : Nat) : SlotPlan := rp.slots.getD k { entries := [], cyc := 0 }
def slotEnd (rp : RingPlan) (k : Nat) : Nat := slotStart rp k + slotBytes (slotPlan rp k)
/-- Master entries of the segment, and the replay area: a count and two records of 20 bytes for each (R127). -/
def ringEntries (rp : RingPlan) : Nat := (rp.slots.map fun x => x.entries.length).foldl (· + ·) 0
def replayBytes (rp : RingPlan) : Nat := 4 + 40 * ringEntries rp
/-- Slots and replay area (R126). -/
def ringBytes (rp : RingPlan) : Nat := (rp.slots.map slotBytes).foldl (· + ·) 0 + replayBytes rp
/-- Words of the frame in place of the n from i on. -/
def putWords (ws : List Word) (i : Nat) (xs : List Word) : List Word := ws.take i ++ xs ++ ws.drop (i + xs.length)

/-- This module's slot in the frame of a pour: the entries latched for it; a quarantined module writes VALID = 0 and zeros
(R124, R135). -/
def ownSlot (s : State) (r : Fin 2) (pour : BitVec 64) : List Word :=
  let rp := ringPlan s r
  let k := ringPosOf s r
  let x := s.link.rings[r]
  let q := s.ocp.ident.quarantined
  let es := ((x.published.find? fun p => p.1 = pour).getD (x.published.headD (0, []))).2
  let es := (List.range (slotPlan rp k).entries.length).map fun i =>
    let e := es.getD i { publisher := s.ocp.ident.moduleId, writer := k, index := i, pos := 0, pour := 0, valid := false }
    { e with valid := e.valid && !q }
  frameSlotWords k (slotBytes (slotPlan rp k)) pour es
    (if q then List.replicate (slotPlan rp k).cyc 0 else (List.range (slotPlan rp k).cyc).map fun i => x.cyc.getD i 0)
/-- A frame with this module's slot written into it. -/
def withOwnSlot (s : State) (r : Fin 2) (pour : BitVec 64) (ws : List Word) : List Word :=
  if ws.length ≤ 8 then ws else putWords ws (slotStart (ringPlan s r) (ringPosOf s r) / 4) (ownSlot s r pour)

/-! ### The plan's arithmetic (R126, R128, R129, R131) -/

/-- C(L). -/
def capacity (l : Nat) : Nat := 2875 * l / 10000
/-- L of n. -/
def pourOfExp (n : Nat) : Nat := 15625 * 2 ^ n
/-- t_fifo in ps of an engine clock code: 7 clocks, as the spec rounds them (R128). -/
def fifoPs (clock : Nat) : Nat := if clock = 4 then 12000 else if clock = 3 then 17500 else if clock = 2 then 23400 else 35000
/-- The slowest loop engine of this module that has an image; 600 MHz where none has. -/
def ownClock (s : State) : Nat :=
  (s.engines.toList.filter fun e => e.image.isSome).foldl (fun m e => min m e.regs.clock.toNat) 4
/-- LINK_DELAY in ps of the link east of position k: measured at this module's own ports, else as its members reported it; not
reported yet, it is a free value (R131). -/
def ringDelay (s : State) (r : Fin 2) (k : Nat) : Nat :=
  let rp := ringPlan s r
  let own (p : Option (Fin 4)) : Nat := (p.map fun p => s.link.ports[p].regs.linkDelay.toNat).getD 0
  let p := ringPosOf s r
  if k = p then own rp.east
  else if k + 1 = p || (p = 0 && k + 1 = rp.n.toNat) then own rp.west
  else (s.link.delays[k]?).getD (Config.freeNat (s.freeCtr + k))
/-- Clock code of the slowest engine at position k (R131). -/
def ringClock (s : State) (r : Fin 2) (k : Nat) : Nat :=
  if k = ringPosOf s r then ownClock s else (s.link.clocks[k]?).getD (1 + Config.freeNat (s.freeCtr + 65 + k) % 4)
def sumNat (l : List Nat) : Nat := l.foldl (· + ·) 0
/-- The delays of the links from position a on, b of them. -/
def delaySum (s : State) (r : Fin 2) (a b : Nat) : Nat := sumNat ((List.range b).map fun i => ringDelay s r (a + i))
/-- t_arr in ps of h link crossings and wraps over so much cable (R128). -/
def arrivalPs (h propPs endOff fifo : Nat) : Nat := 40000 + h * 180000 + propPs + 3200 * endOff + fifo
/-- In an intact ring the east-bound copy brings an entry to a reader above its writer, the west-bound one to a reader below
it, counted from the launch at the master (R125, R128). -/
def intactPs (s : State) (r : Fin 2) (x : PlanPair) : Nat :=
  let n := ringN s r
  let e := slotEnd (ringPlan s r) x.writer
  let f := fifoPs (ringClock s r x.reader)
  if x.writer < x.reader then arrivalPs x.reader (delaySum s r 0 x.reader) e f
  else arrivalPs (n - x.reader) (delaySum s r x.reader (n - x.reader)) e f
/-- In a wrapped ring every unbroken link is crossed twice; the worst break is at the shortest link (R128). -/
def wrappedPs (s : State) (r : Fin 2) (x : PlanPair) : Nat :=
  let n := ringN s r
  let all := delaySum s r 0 n
  let short := ((List.range n).map (ringDelay s r)).foldl min all
  arrivalPs (2 * (n - 1) + 2) (2 * (all - short)) (slotEnd (ringPlan s r) x.writer) (fifoPs (ringClock s r x.reader))
/-- D_min of a pair. -/
def pairDMin (tConf l b arr : Nat) : Nat := b + (arr + (tConf + 500) * 1000 + (l * 1000 - 1)) / (l * 1000)
def dMin (s : State) (r : Fin 2) (arr : State → Fin 2 → PlanPair → Nat) (l : Nat) : Nat :=
  ((ringPlan s r).pairs.map fun x => pairDMin s.link.plan.tConf l x.bridges (arr s r x)).foldl max 0
def worstPs (s : State) (r : Fin 2) (arr : State → Fin 2 → PlanPair → Nat) : Nat :=
  ((ringPlan s r).pairs.map (arr s r)).foldl max 0
/-- D_MIN as the register gives it: 15 above 8. -/
def dMinField (n : Nat) : BitVec 4 := if 8 < n then 15 else BitVec.ofNat 4 n
/-- The ring whose plan the module evaluates: its segment's, or the one that it masters as a bridge. -/
def planRing (s : State) : Fin 2 := if anyMaster s then masterRing s else 0

/-- The plan evaluated at L: D_min, worst arrivals in ns and bytes used enter the segment block. -/
def evalPlan (l : Nat) (s : State) : State :=
  let r := planRing s
  let di := dMin s r intactPs l
  let dw := dMin s r wrappedPs l
  let wi := worstPs s r intactPs
  let ww := worstPs s r wrappedPs
  let s := drew 130 s
  let i := freeRound s wi 1000
  let s := drawn s
  let w := freeRound s ww 1000
  modSeg (fun x => { x with
    dMinIntact := dMinField di, dMinWrapped := dMinField dw
    worstArrIntact := natWord i.toNat, worstArrWrapped := natWord w.toNat
    bytesUsed := BitVec.ofNat 20 (ringBytes (ringPlan s r)) }) (drawn s)

/-- What a plan must keep to: positions and ring sizes, slot lengths, entry counts and t_conf (R110, R123, R152). -/
def ringPlanOk (low high : Nat) (rp : RingPlan) : Bool :=
  let n := rp.n.toNat
  n = 0 || (decide (low ≤ n) && decide (n ≤ high) && decide (rp.pos.toNat < n)
    && rp.slots.length ≤ n && rp.slots.all (fun x => decide (x.entries.length ≤ 15))
    && rp.pairs.all (fun x => decide (x.writer < n) && decide (x.reader < n))
    && (rp.west.isNone || rp.west ≠ rp.east))
def planOk (p : Plan) : Bool :=
  ringPlanOk (if p.own.segNum = 0 then 1 else 2) (if p.own.segNum = 0 then 64 else 65) p.own
    && (p.child.all fun c => ringPlanOk 2 65 c && c.pos = 0)
    && decide (2000 ≤ p.tConf) && decide (p.tConf ≤ 20000) && decide (p.tConf % 250 = 0)

end Sys2Proof.Machine
end

