-- ==== Sys2Proof/Machine/Link.lean ====
section
/-! DEFINITION. Group 0x03, the Uaxabel link and domains (R106 to R150): ports, time transfer, launch of frames, domain start,
identity and quarantine, fragments and credits, ring break and wrap.  The arrival of a frame stands in FrameRx.lean. -/

namespace Sys2Proof.Machine

/-! ### Bring-up (R114 to R116) -/

/-- The condition of LINK_DOWN ends when no port holds it. -/
def clearLinkDown (s : State) : State :=
  if s.link.ports.toList.any (·.downHeld) then s else clearCond Ev.linkDown allAxes s

/-! ### Challenges (R134) -/

def modMap (r : Fin 2) (pos : Fin 65) (f : MapEntry → MapEntry) (s : State) : State :=
  modLinkRing r (fun x => { x with map := upd x.map pos f }) s
/-- Eight free words: the 32 random bytes of a challenge. -/
def freeNonce (s : State) : BitVec 256 := BitVec.ofNat 256 (freeNow s)
/-- A position is challenged: 32 random bytes go out, and 100 ms run (R134). -/
def challengePos (r : Fin 2) (pos : Fin 65) (s : State) : State :=
  let n := freeNonce s
  emit (.challenge pos.val n) (modMap r pos (fun m => { m with challenged := some (n, s.dt) }) (drawn s))
/-- At segment start the master challenges every other position (R134). -/
def challengeAll (r : Fin 2) (s : State) : State :=
  ((List.finRange 65).filter fun p => p.val ≠ 0 && decide (p.val < ringN s r)).foldl (fun s p => challengePos r p s) s
/-- The ring in which this module challenges the position: a segment master every other, position 1 its segment master. -/
def challengeRing (s : State) (pos : Fin 65) : Option (Fin 2) :=
  if pos.val ≠ 0 then (if anyMaster s then some (masterRing s) else none)
  else if !s.link.rings[0].master && ringPosOf s 0 = 1 then some 0 else none
/-- A port has reached UP beside a module that the running map does not hold: its position is challenged by the master, and
the master by position 1 (R134). -/
def challengeNeighbour (port : Fin 4) (s : State) : State :=
  match ringOf s port with
  | none => s
  | some r =>
    let id := s.link.ports[port].regs.nbrId
    let n := ringN s r
    let k := ringPosOf s r
    let pos : Fin 65 := Fin.ofNat 65 (if isEast s r port then (k + 1) % n else (k + n - 1) % n)
    if n < 2 || s.link.rings[r].map.toList.any (fun m => m.running = id) then s
    else if s.link.rings[r].master || (k = 1 && pos.val = 0) then
      challengePos r pos (modMap r pos (fun m => { m with running := id }) s)
    else s

/-- The first pour point at least 1 us from now. -/
def pourAfterUs (s : State) : BitVec 64 :=
  if pourLen s = 0 then 0
  else BitVec.ofNat 64 ((s.dt.toNat + 1000 * 2 ^ 32 + pourLen s * 2 ^ 32 - 1) / (pourLen s * 2 ^ 32))

/-- The broken link is back: its end tells the master on its other port; both ends and the master change at the first pour
point at least 1 us after the notice (R145; for the ends counted from the notice that they send, log entry 121). -/
def sendRestore (port : Fin 4) (s : State) : State :=
  match ringOf s port with
  | some r =>
    if s.link.ports[port].regs.wrapping then
      modLinkRing r (fun x => { x with twoCopiesFrom := some (pourAfterUs s) })
        (if s.link.rings[r].master then s else emitOther r port .restoreNotice s)
    else s
  | none => s

/-- The port reaches UP: 32 credits, counts since link-up at zero, LINK_UP; a broken link is restored, and an unknown neighbour
is challenged (R114, R134, R138, R139, R145). -/
def portUp (i : Fin 4) (s : State) : State :=
  challengeNeighbour i (sendRestore i (clearLinkDown (note Ev.linkUp (srcPort i) 0 0 0
    (modPort i (fun x => { x with
      downHeld := false, sentFrags := 0, returned := 0, goodFrags := 0, gSeen := 0
      regs := { x.regs with portState := 4, txCredits := 32, rxBusy := 0, broken := false } }) s))))

/-- The port returns to DOWN; leaving UP or CYCLIC raises LINK_DOWN (R114, R147).  Fragments stored in its receive buffers go
on without them. -/
def portDown (i : Fin 4) (s : State) : State :=
  let was := 4 ≤ s.link.ports[i].regs.portState.toNat
  let s := modLink (fun l => { l with
    outbox := l.outbox.map fun f => if f.port = some i then { f with port := none } else f })
    (modPort i (fun x => { x with
      locked := false, delays := [], delayReq := false, capMismatch := false
      regs := { x.regs with portState := 0, txCredits := 0, rxBusy := 0 } }) s)
  if was then
    raise Ev.linkDown (srcPort i) s.link.ports[i].clsDown true 0 0 0 (syncAxes s)
      (modPort i (fun x => { x with
        downHeld := true
        regs := { x.regs with
          linkDownCount := satInc x.regs.linkDownCount, linkDownSeen := true
          cntOvf := x.regs.cntOvf || satFull x.regs.linkDownCount } }) s)
  else s

/-- Signal at a port: LOS low, and for twinax the module's own detector (R108). -/
def signalOk (x : Port) : Bool := !x.regs.los && (x.regs.medium || x.signal)

/-- PORT_SIGNAL_CHANGE (R108, R114): the levels of UXn_DET and UXn_LOS, the 8b/10b lock and the module's own signal detector. -/
def execPortSignalChange (port : Fin 4) (det los lock sig : Bool) (s : State) : Host.Outcome State Fault Refusal :=
  .next (
    let was := s.link.ports[port].locked
    let s := modPort port (fun x => { x with
      locked := lock, signal := sig, lockAt := if lock && !was then s.dt else x.lockAt
      regs := { x.regs with det := det, los := los } }) s
    let st := s.link.ports[port].regs.portState.toNat
    if det || !signalOk s.link.ports[port] || (was && !lock) then portDown port s
    else if st = 0 then modPortRegs port (fun r => { r with portState := 1 }) s
    else if 2 ≤ st && !lock then portDown port s
    else s)

/-- The six capability words that a port sends (R115). -/
def capabilityWords (port : Fin 4) (s : State) : List Word :=
  let up (i : Fin 4) : Word := flagAt (4 ≤ s.link.ports[i].regs.portState.toNat) (8 + i.val)
  let l := s.link
  [1 ||| natWord (port.val * 16) ||| up 0 ||| up 1 ||| up 2 ||| up 3 ||| 0x72160000, s.ocp.ident.fwLevel
  , fieldAt l.population 0 ||| flagAt l.mayMaster 16 ||| flagAt l.mayBridge 17 ||| flagAt l.mayGrand 18
      ||| flagAt (2 ≤ s.time.source.toNat) 19 ||| fieldAt l.priority 24
  , l.plan.crc] ++ words64 s.ocp.ident.moduleId

/-- Alignment and lock have held for 100 us: CAPABILITY, and this side's capability words leave (R114, R115). -/
def execPortSyncLock (port : Fin 4) (s : State) : Host.Outcome State Fault Refusal :=
  .next (
    let x := s.link.ports[port]
    if x.regs.portState = 1 && x.locked && hasPassed x.lockAt 100000 s then
      let s := modPortRegs port (fun r => { r with portState := 2 }) (unsent s)
      emitAt port (.capability port (capabilityWords port s)) s
    else s)

/-- CAPABILITY_RECEIVE (R115, R116). -/
def execCapabilityReceive (port : Fin 4) (w0 w1 w2 w3 w4 w5 : Word) (s : State) : Host.Outcome State Fault Refusal :=
  .next (
    let x := s.link.ports[port]
    if x.regs.portState ≠ 2 then s
    else
      let s := modPortRegs port (fun r => { r with nbrId := w5 ++ w4, nbrCap := #v[w0, w1, w2, w3] }) s
      if w0.extractLsb' 0 4 ≠ 1 || w1.extractLsb' 16 16 ≠ s.ocp.ident.fwLevel.extractLsb' 16 16 then
        if x.capMismatch then s
        else note Ev.capMismatch (srcPort port) 0 0 0 (modPort port (fun x => { x with capMismatch := true }) s)
      else modPort port (fun x => { x with delays := [], regs := { x.regs with portState := 3 } }) s)

/-! ### Delays (R118, R119) -/

/-- Every 64 us a delay request leaves a port whose capabilities are accepted (R118). -/
def execDelayRequest (port : Fin 4) (s : State) : Host.Outcome State Fault Refusal :=
  .next (if 3 ≤ s.link.ports[port].regs.portState.toNat && transmits s port then
    modPort port (fun x => { x with delayReq := true }) s else s)

/-- A delay request of the neighbour is answered with the turnaround time (R118). -/
def execDelayRequestReceive (port : Fin 4) (s : State) : Host.Outcome State Fault Refusal :=
  .next (if 3 ≤ s.link.ports[port].regs.portState.toNat then
    modPort port (fun x => { x with answeredAt := some s.dt }) s else s)

/-- The propagation factor in 0.01 units: as configured, else 0.70 for twinax and 0.68 for fibre (R119). -/
def pfOf (x : Port) : Nat := (x.pf.map fun w => w.toNat).getD (if x.regs.medium then 68 else 70)
/-- Cable length in 0.1 m from the link delay (R119). -/
def cableLength (s : State) (port : Fin 4) (delay : Nat) : Word :=
  let x := s.link.ports[port]
  let ps : Int := delay - Config.tPhy port.val - x.sfpDelay.toNat
  sat32 (clampInt 0 2147483647 (freeRound s (ps * pfOf x * 299792458) (10 ^ 13)))

/-- The mean of 16 delays is in force as LINK_DELAY; a change of more than 2 ns between means raises DELAY_STEP (R118). -/
def newLinkDelay (port : Fin 4) (first : Bool) (mean : Nat) (s : State) : State :=
  let old := s.link.ports[port].regs.linkDelay
  let step : Int := mean - old.toNat
  let s := modPortRegs port (fun r => { r with linkDelay := natWord mean, cableLen := cableLength s port mean }) (drawn s)
  if !first && 2000 < step.natAbs then
    note Ev.delayStep (srcPort port) (BitVec.ofInt 32 step) 0 0 (modPortRegs port (fun r => { r with delayStepSeen := true }) s)
  else s

/-- DELAY_RESPONSE_RECEIVE (R118): round trip and turnaround in ps. -/
def execDelayResponseReceive (port : Fin 4) (roundTrip turnaround : Nat) (s : State) : Host.Outcome State Fault Refusal :=
  .next (
    let x := s.link.ports[port]
    if !x.delayReq then s
    else
      let half := freeRound s ((roundTrip : Int) - turnaround) 2
      let d := (half + x.asym.toInt).toNat
      let had := x.delays.length
      let s := drawn (modPort port (fun x => { x with
        delayReq := false, delays := (d :: x.delays).take 16, regs := { x.regs with roundTrip := natWord roundTrip } }) s)
      let l := s.link.ports[port].delays
      if l.length < 16 then s
      else
        let s := newLinkDelay port (decide (had < 16)) (freeRound s (l.foldl (· + ·) 0 : Nat) 16).toNat (drawn s)
        if s.link.ports[port].regs.portState = 3 then portUp port s else s)

/-! ### Election (R111) -/

/-- The best of the candidates: lowest priority, then lowest module ID; 255, no master role and quarantine exclude. -/
def electBest (l : List (BitVec 8 × BitVec 64 × Bool × Bool)) : Option (BitVec 8 × BitVec 64) :=
  l.foldl (fun best c =>
    let (pr, id, may, quar) := c
    if pr = 255 || !may || quar then best
    else match best with
      | none => some (pr, id)
      | some (bp, bi) => if pr.toNat < bp.toNat || (pr = bp && id.toNat < bi.toNat) then some (pr, id) else best) none

/-- The segment has this master; of segment 0 it is the grandmaster, whose servo has no upstream (R39, R67, R112).  A module
that becomes the master challenges the ring (R134). -/
def setMaster (id : BitVec 64) (s : State) : State :=
  let mine := id = s.ocp.ident.moduleId && id ≠ 0
  let gm := mine && s.link.seg.segNum = 0
  let s := modLinkRing 0 (fun x => { x with master := mine }) s
  let s := modSeg (fun r => { r with
      masterId := id, segMaster := anyMaster s, grandmaster := gm, ringPos := BitVec.ofNat 7 (ringPosOf s 0)
      ringState := if r.ringState = 0 then 1 else r.ringState }) s
  let was := s.time.regs.roleGm
  let s := modTimeRegs (fun r => { r with roleGm := gm }) s
  let s := if gm && !was then enterFree (modTimeRegs (fun r => { r with source := s.time.source }) s)
    else if !gm && was then modTimeRegs (fun r => { r with source := 1 }) s else s
  if mine then challengeAll 0 s else s

/-- The segment has no master. -/
def noMaster (r : Fin 2) (s : State) : State :=
  let s := modLinkRing r (fun x => { x with master := false }) s
  let s := modSeg (fun x => { x with segMaster := anyMaster s }) s
  if r = 0 then modTimeRegs (fun t => { t with roleGm := false })
    (modSeg (fun x => { x with masterId := 0, grandmaster := false, ringPos := BitVec.ofNat 7 (ringPosOf s 0) }) s) else s

/-- Segment start: no domain runs, segment 0 has no master yet, and the ports of the ring are UP (R111, R146). -/
def electable (s : State) : Bool :=
  let up (p : Option (Fin 4)) : Bool := p.all fun p => 4 ≤ s.link.ports[p].regs.portState.toNat
  !s.link.started && !s.link.split && s.link.seg.segNum = 0 && s.link.seg.masterId = 0
    && up s.link.plan.own.west && up s.link.plan.own.east

/-- SEGMENT_ELECTION (R111): candidates are priority, module ID, master role, quarantined; this module stands with its own. -/
def execSegmentElection (candidates : List (BitVec 8 × BitVec 64 × Bool × Bool)) (s : State) :
    Host.Outcome State Fault Refusal :=
  .next (
    if !electable s then s
    else
      let own := (s.link.priority, s.ocp.ident.moduleId, s.link.mayMaster, s.ocp.ident.quarantined)
      match electBest (own :: candidates) with
      | some (_, id) => setMaster id (unsent s)
      | none => noMaster 0 s)

/-! ### Identity and quarantine (R134 to R136) -/

/-- The words of the node's answer: its module ID, ring position and segment number, and its signature over them and the
challenge (R134). -/
def answerWords (r : Fin 2) (nonce : BitVec 256) (s : State) : List Word :=
  let id := s.ocp.ident.moduleId
  let pos := ringPosOf s r
  let seg := (ringPlan s r).segNum.toNat
  words64 id ++ [natWord pos, natWord seg] ++ (List.range 16).map fun i => Config.nodeSignature nonce id pos seg i

/-- NODE_CHALLENGE (R134): this module challenges the position, whose running ID it has; or, standing at it, it is challenged
with those 32 bytes and answers. -/
def execNodeChallenge (pos : Fin 65) (runningId : BitVec 64) (nonce : BitVec 256) (s : State) :
    Host.Outcome State Fault Refusal :=
  .next (match challengeRing s pos with
    | some r => challengePos r pos (modMap r pos (fun m => { m with running := runningId }) (unsent s))
    | none =>
      match (List.finRange 2).find? fun r => ringN s r ≠ 0 && ringPosOf s r = pos.val with
      | some r => emit (.answer pos.val (answerWords r nonce s)) (modMap r pos (fun m => { m with
          running := s.ocp.ident.moduleId, challenged := some (nonce, s.dt) }) (unsent s))
      | none => s)

/-- The ring in which a challenge of the position is open. -/
def openChallenge (s : State) (pos : Fin 65) : Option (Fin 2) :=
  (List.finRange 2).find? fun r => s.link.rings[r].map[pos].challenged.isSome

/-- The module itself stands at the position of the ring. -/
def standsAt (s : State) (r : Fin 2) (pos : Fin 65) : Bool := ringPosOf s r = pos.val

/-- The position fails: it is quarantined, and a master that fails is excluded (R134, R135). -/
def failNode (r : Fin 2) (pos : Fin 65) (s : State) : State :=
  let own := standsAt s r pos
  let s := modMap r pos (fun m => { m with quarantined := true, challenged := none, accepting := false }) s
  let s := if own then
      { s with ocp := { s.ocp with ident := { s.ocp.ident with quarantined := true } } } else s
  let s := if pos.val = 0 then noMaster r s else s
  note Ev.nodeQuarantined srcSegment (natWord pos.val) 0 0 s

/-- The position passes and is no longer quarantined; where NODE_ACCEPT had it challenged again, NODE_ACCEPTED is raised
(R136). -/
def passNode (r : Fin 2) (pos : Fin 65) (s : State) : State :=
  let accepting := s.link.rings[r].map[pos].accepting
  let own := standsAt s r pos
  let s := modMap r pos (fun m => { m with quarantined := false, challenged := none, accepting := false }) s
  let s := if own then
      { s with ocp := { s.ocp with ident := { s.ocp.ident with quarantined := false } } } else s
  if accepting then note Ev.nodeAccepted srcSegment 0 0 0 s else s

/-- CHALLENGE_RESPONSE (R134): the signature, under the public key given, and the ID against the commissioned map or the
acceptance list, whose entry the key must be that of (R136). -/
def execChallengeResponse (pos : Fin 65) (id : BitVec 64) (key : BitVec 512) (sigOk : Bool) (s : State) :
    Host.Outcome State Fault Refusal :=
  .next (match openChallenge s pos with
    | none => s
    | some r =>
      let known := id = s.link.rings[r].map[pos].commissioned || s.link.acceptList.contains (pos.val, id, key)
      let s := modMap r pos (fun m => { m with key := key, running := id }) s
      if sigOk && known then passNode r pos s else failNode r pos s)

/-- No answer within 100 ms (R134). -/
def execChallengeTimeout (pos : Fin 65) (s : State) : Host.Outcome State Fault Refusal :=
  .next (match openChallenge s pos with
    | some r =>
      if (s.link.rings[r].map[pos].challenged).any fun c => hasPassed c.2 100000000 s then failNode r pos s else s
    | none => s)

/-- The 60 s of ACCEPT_LOCKED have passed (R136). -/
def execAcceptLockExpiry (s : State) : Host.Outcome State Fault Refusal :=
  .next (if s.link.lockUntil.any fun t => decide (t.toNat ≤ s.dt.toNat) then
    modLink (fun l => { l with lockUntil := none, wrongCodes := 0 }) s else s)

/-! ### Fragments and credits (R137 to R140) -/

/-- A span of so many 32-bit words on the link, 3.2 ns a byte. -/
def linkSpan (words : Nat) : Int := (words : Int) * 128 * 2 ^ 32 / 10

/-- A fragment of n words ends at least 200 ns before the pour frame is due on the port, L after the last one (R137). -/
def gapFits (s : State) (port : Fin 4) (n : Nat) : Bool :=
  pourLen s = 0 || (s.link.ports[port].frameAt.all fun t =>
    decide (s.dt.toInt + linkSpan n + 200 * 2 ^ 32 ≤ t.toInt + pourLen s * 2 ^ 32))

/-- The port on the shorter intact path to the module, east where both are alike; any port of the plan where its place in the
ring is not known, and only the unbroken side at a break end (R137, log entry 122). -/
def onRoute (s : State) (port : Fin 4) (dest : BitVec 64) : Bool :=
  match ringOf s port with
  | none => false
  | some r =>
    let x := s.link.rings[r]
    let n := ringN s r
    match (List.finRange 65).find? fun p => decide (p.val < n) && (x.map[p].running = dest || x.map[p].commissioned = dest) with
    | none => true
    | some p =>
      let d := (p.val + n - ringPosOf s r) % n
      let east := if x.wrapEast then false else if x.wrapWest then true else decide (2 * d ≤ n)
      isEast s r port = east

/-- The first of the waiting fragments that is this one leaves the list. -/
def dropFrag (f : Fragment) : List FragWait → Option (Fin 4) × List FragWait
  | [] => (none, [])
  | x :: xs => if x.frag = f then (x.port, xs) else let (p, ys) := dropFrag f xs; (p, x :: ys)

/-- A receive buffer is free again: its credit goes back to the neighbour (R138). -/
def freeBuffer (port : Fin 4) (s : State) : State :=
  emitAt port (.creditReturn port 1) (modPort port (fun x => { x with
    returned := x.returned + 1, regs := { x.regs with rxBusy := if x.regs.rxBusy = 0 then 0 else x.regs.rxBusy - 1 } }) s)

/-- FRAGMENT_SEND (R137, R138): a fragment starts on a port of its route at UP or above, with a credit, of at most 512 bytes,
where it fits into the gap; one that was stored for forwarding frees its receive buffer. -/
def execFragmentSend (port : Fin 4) (frag : Fragment) (s : State) : Host.Outcome State Fault Refusal :=
  .next (
    let r := s.link.ports[port].regs
    let n := frag.words.length + 1
    if 4 ≤ r.portState.toNat && r.txCredits ≠ 0 && decide (frag.words.length ≤ fragmentWords) && gapFits s port n
        && onRoute s port frag.dest then
      let (from_, rest) := dropFrag frag s.link.outbox
      let s := modPort port (fun x => { x with
        sentFrags := x.sentFrags + 1, regs := { x.regs with txCredits := x.regs.txCredits - 1 } })
        (modLink (fun l => { l with outbox := rest }) (unsent s))
      let s := emit (.fragment port (frag.words ++ [crcWords frag.words])) s
      match from_ with
      | some q => freeBuffer q s
      | none => s
    else s)

/-- FRAGMENT_RECEIVE (R137 to R140): a good fragment for this module is taken from its receive buffer at once, another waits in
it to be sent on; a bad one is counted, and a forwarded event for this module lost with it too. -/
def execFragmentReceive (port : Fin 4) (crcOk : Bool) (frag : Fragment) (s : State) : Host.Outcome State Fault Refusal :=
  .next (
    let r := s.link.ports[port].regs
    let here := frag.dest = s.ocp.ident.moduleId
    if r.portState.toNat < 4 then s
    else if crcOk then
      let s := modPort port (fun x => { x with
        goodFrags := x.goodFrags + 1, regs := { x.regs with rxBusy := if x.regs.rxBusy = 32 then 32 else x.regs.rxBusy + 1 } }) (unsent s)
      if here then freeBuffer port s
      else modLink (fun l => { l with outbox := l.outbox ++ [{ frag := frag, port := some port }] }) s
    else
      let s := modPortRegs port (fun r => { r with
        fragCrcErrCount := satInc r.fragCrcErrCount, cntOvf := r.cntOvf || satFull r.fragCrcErrCount }) s
      if here && frag.kind = 1 then
        modSeg (fun r => { r with fwdEventLost := satInc r.fwdEventLost, cntOvf := r.cntOvf || satFull r.fwdEventLost }) s
      else s)

/-- A sender's credits after n came back: at most 32 (R138). -/
def addCredits (c : BitVec 6) (n : Nat) : BitVec 6 := BitVec.ofNat 6 (min 32 (c.toNat + n))

/-- CREDIT_RETURN_RECEIVE (R138). -/
def execCreditReturnReceive (port : Fin 4) (n : Nat) (s : State) : Host.Outcome State Fault Refusal :=
  .next (
    if s.link.ports[port].regs.portState.toNat < 4 then s
    else modPort port (fun x => { x with
      gSeen := x.gSeen + BitVec.ofNat 16 n, regs := { x.regs with txCredits := addCredits x.regs.txCredits n } }) s)

/-- Credits recovered by an audit are counted and told (R139). -/
def recovered (port : Fin 4) (n : Nat) (s : State) : State :=
  if n = 0 then s
  else note Ev.creditRecovered (srcPort port) (natWord n) 0 0
    (modPortRegs port (fun r => { r with
      creditRecoveredCount := satAdd r.creditRecoveredCount n
      cntOvf := r.cntOvf || decide (2 ^ 32 ≤ r.creditRecoveredCount.toNat + n) }) s)

/-- AUDIT_RECEIVE (R139): S the neighbour's fragments sent, G its credits returned. -/
def execAuditReceive (port : Fin 4) (sent given : BitVec 16) (s : State) : Host.Outcome State Fault Refusal :=
  .next (
    let x := s.link.ports[port]
    if x.regs.portState.toNat < 4 then s
    else
      let lost := (sent - x.goodFrags).toNat
      let back := (given - x.gSeen).toNat
      let s := modPort port (fun x => { x with
        goodFrags := sent, returned := x.returned + BitVec.ofNat 16 lost, gSeen := given
        regs := { x.regs with txCredits := addCredits x.regs.txCredits back } }) s
      recovered port back (recovered port lost s))

/-! ### Time frames (R120) -/

/-- A frame without slots on both ports of a ring. -/
def launchBare (type : BitVec 8) (r : Fin 2) (s : State) : State :=
  let rp := ringPlan s r
  let ws (west : Bool) : List Word := frameHeader type (frameFlags west false false) 0 rp.segNum (pourNum s) s.dt s.link.plan.crc
  let s := match rp.east with
    | some p => emitAt p (.frame p (ws false)) s
    | none => s
  match rp.west with
  | some p => emitAt p (.frame p (ws true)) s
  | none => s

/-- TIME_FRAME_LAUNCH (R120): before the domain start. -/
def execTimeFrameLaunch (s : State) : Host.Outcome State Fault Refusal :=
  .next (
    if s.link.started then s
    else ((List.finRange 2).filter fun r => s.link.rings[r].master).foldl (fun s r => launchBare 0xA6 r s) (unsent s))

/-! ### Domain start and stop (R131 to R133) -/

/-- R126 holds for a ring: its bytes fit C(L) and no slot is longer than 256 bytes. -/
def ringFits (l : Nat) (rp : RingPlan) : Bool :=
  decide (ringBytes rp ≤ capacity l) && rp.slots.all fun x => decide (slotBytes x ≤ 256)
/-- t_conf exceeds L - 1 us (R152). -/
def tConfLong (l : Nat) (p : Plan) : Bool := decide (l < p.tConf + 1000)
/-- The first failure of a start, in the table's order; OK where there is none. -/
def startStatus (r : DomainChecks) (n d : Nat) (wrap : Bool) (s : State) : BitVec 16 :=
  let l := pourOfExp n
  let pl := s.link.plan
  let g := planRing s
  if !r.complete then Status.segmentIncomplete
  else if !r.planMatch then Status.planMismatch
  else if r.anyEnabled || anyEnabled s then Status.axesEnabled
  else if !r.capacityOk || !ringFits l (ringPlan s g) then Status.planOverCapacity
  else if !r.dOk || d < dMin s g intactPs l || (wrap && d < dMin s g wrappedPs l) then Status.dTooSmall
  else if !r.locked then Status.lockTimeout
  else if !r.tConfOk || tConfLong l pl then Status.tconfTooLong
  else Status.ok

/-- L and D are fixed and the domain is started (R132). -/
def fixDomain (n : BitVec 3) (d : BitVec 4) (wrap : Bool) (s : State) : State :=
  note Ev.domainStartedEvt srcSegment 0 0 0
    { s with
      stage := { s.stage with regs := { s.stage.regs with
        pourLen := natWord (pourOfExp n.toNat), pourExp := n, domainD := d } }
      link := { s.link with started := true, wrapCheck := wrap, domainReq := none, split := false } }

/-- The first pour at least 2 s after the start instant, in the DT that the start loads, carries slots (R133). -/
def firstSlots (start : Fix) (s : State) : State :=
  let l := pourLen s
  modLink (fun k => { k with firstSlotPour := BitVec.ofNat 64 (((nsOf start).toNat + 2000000000 + (l - 1)) / l) }) s

/-- The grandmaster's epoch and DT at the start instant (R37, R133). -/
def startEpoch (r : DomainChecks) (s : State) : State :=
  if s.time.regs.ptpLocked then
    loadDt r.taiDt.toInt (modTimeRegs (fun t => { t with epochTai := r.tai, epochValid := true }) s)
  else loadDt 0 (modTimeRegs (fun t => { t with epochValid := false }) s)

/-- Every other module discards its DT and waits in FREE for the first measurement (R133). -/
def discardDt (r : DomainChecks) (s : State) : State :=
  modTime (fun t => { t with
    ownDt := false, lockRun := 0, unlockRun := 0, missRun := 0
    regs := { t.regs with
      state := 0, rateAdj := 0, offset := 0, epochValid := r.epochValid, epochTai := if r.epochValid then r.tai else t.regs.epochTai } }) s

/-- The members' reports for the evaluation of the plan (R131). -/
def noteReports (r : DomainChecks) (s : State) : State := modLink (fun l => { l with delays := r.delays, clocks := r.clocks }) s

/-- DOMAIN_START_COMPLETE (R132, R133): on the grandmaster it ends the operation; another module takes the start. -/
def execDomainStartComplete (r : DomainChecks) (s : State) : Host.Outcome State Fault Refusal :=
  .next (
    match s.link.domainReq with
    | some q =>
      -- acceptance leaves no exponent above 6
      if 6 < q.exp.toNat then s else
      let s := evalPlan (pourOfExp q.exp.toNat) (noteReports r s)
      let st := startStatus r q.exp.toNat q.d.toNat q.wrapCheck s
      let own (o : PendingOp) : Bool := o.op = 0x0306
      if st = Status.ok then endOps own st (let t := startEpoch r (fixDomain q.exp q.d q.wrapCheck s); firstSlots t.dt t)
      else endOps own st (modLink (fun l => { l with domainReq := none }) s)
    | none =>
      if s.time.regs.roleGm || s.link.started || 6 < r.exp.toNat then s
      else
        let s := evalPlan (pourOfExp r.exp.toNat) (noteReports r s)
        if startStatus r r.exp.toNat r.d.toNat r.wrapCheck s = Status.ok then
          firstSlots (if r.epochValid then r.taiDt else 0) (discardDt r (fixDomain r.exp r.d r.wrapCheck s))
        else s)

/-- The domain returns to time frames; a ring that had split waits for a new segment start (R133, R146). -/
def stopDomain (s : State) : State :=
  let split := s.link.split
  let s := modLink (fun l => { l with
    started := false, split := false
    rings := l.rings.map fun x => { x with oneCopyFrom := none, twoCopiesFrom := none, published := [], store := [] } }) s
  if split then setRingState 0 0 (noMaster 0 s) else s

/-- DOMAIN_STOP_COMPLETE (R133): no axis of the domain may be enabled. -/
def execDomainStopComplete (anyOn : Bool) (s : State) : Host.Outcome State Fault Refusal :=
  .next (
    let own (o : PendingOp) : Bool := o.op = 0x0307
    if s.ocp.ops.any own then
      if anyOn || anyEnabled s then endOps own Status.axesEnabled s else endOps own Status.ok (stopDomain s)
    else if s.time.regs.roleGm || anyOn || anyEnabled s then s
    else stopDomain s)

/-! ### Break, wrap and restore (R141 to R146) -/

/-- The ring is wrapped; each entry to that state is counted (R150).  A split ring stays split (R146). -/
def enterWrapped (r : Fin 2) (s : State) : State :=
  if 2 ≤ (ringState s r).toNat then s
  else setRingState r 2 (modLinkRing r (fun x => { x with replayDone := false })
    (modSeg (fun x => { x with wrapCount := satInc x.wrapCount, cntOvf := x.cntOvf || satFull x.wrapCount }) s))

/-- The segment master launches only the east-bound copy from that pour on (R143). -/
def masterWraps (r : Fin 2) (s : State) : State :=
  if s.link.rings[r].master then modLinkRing r (fun x => { x with oneCopyFrom := some (pourAfterUs s), twoCopiesFrom := none }) s else s

/-- The port's side of its ring turns copies back; the notice leaves on the other port (R141, R142). -/
def declareBreak (port : Fin 4) (s : State) : State :=
  match ringOf s port with
  | none => s
  | some r =>
    if s.link.ports[port].regs.broken then s
    else
      let east := isEast s r port
      let s := modPortRegs port (fun x => { x with broken := true, breakSeen := true, wrapping := true }) s
      let s := enterWrapped r (modLinkRing r (fun x => { x with
        wrapEast := x.wrapEast || east, wrapWest := x.wrapWest || !east, twoCopiesFrom := none }) s)
      masterWraps r (emitOther r port .breakNotice (note Ev.linkWrapped (srcPort port) 0 0 0 s))
/-- BREAK_DECLARE (R141): the code and disparity errors in a row at the port are counted; signal lost, lock lost or 8 of them
make a break. -/
def execBreakDeclare (port : Fin 4) (viols : Nat) (s : State) : Host.Outcome State Fault Refusal :=
  .next (
    let s := modPortRegs port (fun r => { r with
      codeViolCount := satAdd r.codeViolCount viols
      cntOvf := r.cntOvf || decide (2 ^ 32 ≤ r.codeViolCount.toNat + viols) }) s
    let x := s.link.ports[port]
    if signalOk x && x.locked && viols < 8 then s else declareBreak port (unsent s))

/-- BREAK_NOTICE_RECEIVE (R141, R143): the notice goes on towards the master. -/
def execBreakNoticeReceive (port : Fin 4) (s : State) : Host.Outcome State Fault Refusal :=
  .next (match ringOf s port with
    | none => s
    | some r => masterWraps r (enterWrapped r (passNotice r port .breakNotice (unsent s))))

/-- RESTORE_NOTICE_RECEIVE (R145): the return to two copies begins at the pour after it. -/
def execRestoreNoticeReceive (port : Fin 4) (s : State) : Host.Outcome State Fault Refusal :=
  .next (match ringOf s port with
    | none => s
    | some r =>
      let s := passNotice r port .restoreNotice (unsent s)
      if ringState s r = 2 then modLinkRing r (fun x => { x with twoCopiesFrom := some (pourAfterUs s) }) s else s)

/-- At the pour of the return the ends stop wrapping, the master launches both copies and LINK_RESTORED is raised (R145). -/
def restoreRing (r : Fin 2) (s : State) : State :=
  match s.link.rings[r].twoCopiesFrom with
  | none => s
  | some p =>
    if (pourNum s).toNat < p.toNat then s
    else
      let ends := (List.finRange 4).filter fun i => ringOf s i = some r && s.link.ports[i].regs.wrapping
      let s := ends.foldl (fun s i => modPortRegs i (fun x => { x with wrapping := false }) s) s
      let s := modLinkRing r (fun x => { x with twoCopiesFrom := none, oneCopyFrom := none, wrapEast := false, wrapWest := false }) s
      note Ev.linkRestored (srcPort (ends.headD 0)) 0 0 0 (setRingState r 1 s)

/-- RING_SPLIT (R146). -/
def execRingSplit (s : State) : Host.Outcome State Fault Refusal :=
  .next (
    if s.link.split || !s.link.started || s.link.rings[0].master then s
    else note Ev.ringSplit srcSegment 0 0 0 (setRingState 0 3 (modLink (fun l => { l with split := true }) s)))

/-! ### Commands (R148) -/

/-- The port that the target names. -/
def portOf (p : Packet) : Fin 4 := Fin.ofNat 4 (tgt p)
def portBlock (n : Nat) : Option Nat := if n < 4 then some (0x300 + n) else none

def dLinkStatus : OpDesc := { op := 0x0301, cls := .a, target := tBelow 4, params := (· = 0), block := portBlock }
def runLinkStatus (p : Packet) (s : State) : Reply := okWith (wordsOf (readPortRegs s.link.ports[portOf p].regs) 0 16) s
/-- LINK_STATUS (R148). -/
def execLinkStatus (p : Packet) (s : State) : Host.Outcome State Fault Refusal :=
  .next (request dLinkStatus acceptAny runLinkStatus p s)

def dPortConfig : OpDesc := { op := 0x0302, cls := .b, target := tBelow 4, params := (· = 5), block := portBlock }
def acceptPortConfig (p : Packet) (s : State) : BitVec 16 :=
  let asym := (par p 3).toInt
  if !(parIn p 0 0 1 && parIn p 1 50 99 && parIn p 2 0 6 && decide (-10000 ≤ asym) && decide (asym ≤ 10000)
      && parIn p 4 0 20000) then Status.paramRange
  else if s.link.started && parBool p 0 ≠ s.link.ports[portOf p].regs.medium then Status.domainRunning
  else Status.ok
def runPortConfig (p : Packet) (s : State) : Reply :=
  let sfp := parBool p 0
  ok (modPort (portOf p) (fun x => { x with
    pf := some (par p 1), deEmphasis := if sfp then 0 else par p 2, asym := par p 3, sfpDelay := if sfp then par p 4 else 0
    regs := { x.regs with medium := sfp } }) s)
/-- PORT_CONFIG (R107, R118, R119, R148). -/
def execPortConfig (p : Packet) (s : State) : Host.Outcome State Fault Refusal :=
  .next (request dPortConfig acceptPortConfig runPortConfig p s)

def dSegmentStatus : OpDesc := modOp 0x0303 .a (· = 0)
def runSegmentStatus (_ : Packet) (s : State) : Reply := okWith (wordsOf (readSegmentRegs s.link.seg) 0 13) s
/-- SEGMENT_STATUS (R148). -/
def execSegmentStatus (p : Packet) (s : State) : Host.Outcome State Fault Refusal :=
  .next (request dSegmentStatus acceptAny runSegmentStatus p s)

/-- Only a segment master has the map. -/
def acceptMaster (_ : Packet) (s : State) : BitVec 16 := if anyMaster s then Status.ok else Status.notSegmentMaster

def dSegmentMapRead : OpDesc := { op := 0x0304, cls := .a, target := (· ≤ 64), params := (· = 0) }
def runSegmentMapRead (p : Packet) (s : State) : Reply :=
  let m := s.link.rings[masterRing s].map[Fin.ofNat 65 (tgt p)]
  let accepted := s.link.acceptList.any fun x => x.1 = tgt p && x.2.1 = m.running
  okWith (words64 m.commissioned ++ words64 m.running ++ [boolWord accepted, boolWord m.quarantined]) s
/-- SEGMENT_MAP_READ (R148). -/
def execSegmentMapRead (p : Packet) (s : State) : Host.Outcome State Fault Refusal :=
  .next (request dSegmentMapRead acceptMaster runSegmentMapRead p s)

def dNodeAccept : OpDesc := modOp 0x0305 .b (· = 5)
def acceptNodeAccept (p : Packet) (s : State) : BitVec 16 :=
  if 64 < parNat p 0 then Status.paramRange
  else if !anyMaster s then Status.notSegmentMaster
  else if s.link.lockUntil.isSome then Status.acceptLocked
  else if !s.link.rings[masterRing s].map[Fin.ofNat 65 (parNat p 0)].quarantined then Status.notQuarantined
  else Status.ok
/-- The code against the hash of the map: a match enters the ID, with the public key that the position last answered under, in
the acceptance list and challenges again; the third wrong code locks (R136). -/
def runNodeAccept (p : Packet) (s : State) : Reply :=
  let pos := Fin.ofNat 65 (parNat p 0)
  let r := masterRing s
  let m := s.link.rings[r].map[pos]
  if sha256Code (par64 p 3) = m.codeHash then
    ok (challengePos r pos (modMap r pos (fun m => { m with accepting := true, running := par64 p 1 })
      (modLink (fun l => { l with wrongCodes := 0, acceptList := (pos.val, par64 p 1, m.key) :: l.acceptList }) (unsent s))))
  else answer Status.codeMismatch (modLink (fun l => { l with
    wrongCodes := l.wrongCodes + 1
    lockUntil := if 3 ≤ l.wrongCodes + 1 then some (s.dt + fixNat 60000000000) else none }) s)
/-- NODE_ACCEPT (R136). -/
def execNodeAccept (p : Packet) (s : State) : Host.Outcome State Fault Refusal :=
  .next (request dNodeAccept acceptNodeAccept runNodeAccept p s)

def dDomainStart : OpDesc := modOp 0x0306 .c (· = 3)
def acceptDomainStart (p : Packet) (s : State) : BitVec 16 :=
  if !(parIn p 0 0 6 && parIn p 1 1 8 && parIn p 2 0 1) then Status.paramRange
  else if !(s.link.rings[0].master && s.link.seg.segNum = 0) then Status.notGrandmaster
  else if s.link.started || s.link.domainReq.isSome then Status.domainRunning
  else Status.ok
def runDomainStart (p : Packet) (s : State) : Reply :=
  startOp 0x0306 p (modLink (fun l => { l with
    domainReq := some { exp := parBits p 0 3, d := parBits p 1 4, wrapCheck := parBool p 2 } }) s)
/-- DOMAIN_START (R132). -/
def execDomainStart (p : Packet) (s : State) : Host.Outcome State Fault Refusal :=
  .next (request dDomainStart acceptDomainStart runDomainStart p s)

def dDomainStop : OpDesc := modOp 0x0307 .c (· = 0)
def acceptDomainStop (_ : Packet) (s : State) : BitVec 16 :=
  if !s.time.regs.roleGm then Status.notGrandmaster else if anyEnabled s then Status.axesEnabled else Status.ok
/-- DOMAIN_STOP (R133). -/
def execDomainStop (p : Packet) (s : State) : Host.Outcome State Fault Refusal :=
  .next (request dDomainStop acceptDomainStop (startOp 0x0307) p s)

def dPlanCheck : OpDesc := modOp 0x0308 .b (· = 2)
def acceptPlanCheck (p : Packet) (s : State) : BitVec 16 :=
  if !(parIn p 0 0 6 && parIn p 1 1 8) then Status.paramRange else acceptMaster p s
def runPlanCheck (p : Packet) (s : State) : Reply :=
  let l := pourOfExp (parNat p 0)
  let s := evalPlan l s
  let r := s.link.seg
  let ws := [r.dMinIntact.zeroExtend 32, r.dMinWrapped.zeroExtend 32, r.worstArrIntact, r.worstArrWrapped,
    natWord (ringBytes (ringPlan s (planRing s))), natWord (capacity l)]
  if tConfLong l s.link.plan then { st := Status.tconfTooLong, out := ws, s := s } else okWith ws s
/-- PLAN_CHECK (R126, R128, R129, R148); a t_conf above L - 1 us is reported as the status (R152). -/
def execPlanCheck (p : Packet) (s : State) : Host.Outcome State Fault Refusal :=
  .next (request dPlanCheck acceptPlanCheck runPlanCheck p s)

def dEventForwardSet : OpDesc := modOp 0x0309 .b (· = 4)
def acceptEventForwardSet (p : Packet) (_ : State) : BitVec 16 :=
  if clsAllowed .note (par p 2) then Status.ok else Status.paramRange
def runEventForwardSet (p : Packet) (s : State) : Reply :=
  ok (modLink (fun l => { l with fwdDest := par64 p 0, fwdMin := clsOf (par p 2), fwdGroups := par p 3 }) s)
/-- EVENT_FORWARD_SET (R140). -/
def execEventForwardSet (p : Packet) (s : State) : Host.Outcome State Fault Refusal :=
  .next (request dEventForwardSet acceptEventForwardSet runEventForwardSet p s)

def dLinkCountersClear : OpDesc :=
  { op := 0x030A, cls := .b, target := fun n => n < 4 || n = 0xFFFF, params := (· = 0), block := portBlock }
def runLinkCountersClear (p : Packet) (s : State) : Reply :=
  ok (if tgt p = 0xFFFF then
      modSeg (fun r => { r with wrapCount := 0, lateHopCount := 0, replayTakenCount := 0, fwdEventLost := 0 }) s
    else modPortRegs (portOf p) (fun r => { r with
      codeViolCount := 0, slotCrcErrCount := 0, fragCrcErrCount := 0, creditRecoveredCount := 0, linkDownCount := 0 }) s)
/-- LINK_COUNTERS_CLEAR (R148). -/
def execLinkCountersClear (p : Packet) (s : State) : Host.Outcome State Fault Refusal :=
  .next (request dLinkCountersClear acceptAny runLinkCountersClear p s)

def dLinkPolicySet : OpDesc :=
  { op := 0x030B, cls := .b, target := fun n => n < 4 || n = 0xFFFF, params := (· = 1), block := portBlock }
def acceptLinkPolicySet (p : Packet) (_ : State) : BitVec 16 :=
  if clsAllowed .note (par p 0) then Status.ok else Status.paramRange
def runLinkPolicySet (p : Packet) (s : State) : Reply :=
  let set (i : Fin 4) (s : State) : State := modPort i (fun x => { x with clsDown := clsOf (par p 0) }) s
  ok (if tgt p = 0xFFFF then (List.finRange 4).foldl (fun s i => set i s) s else set (portOf p) s)
/-- LINK_POLICY_SET (R148). -/
def execLinkPolicySet (p : Packet) (s : State) : Host.Outcome State Fault Refusal :=
  .next (request dLinkPolicySet acceptLinkPolicySet runLinkPolicySet p s)

/-! ### The link at a pour point (R113, R121, R124, R139, R143) -/

/-- An entry of this module's slot at the pour: an axis it publishes, with the position that pos gives it (R124). -/
def publishEntry (r : Fin 2) (pos : Fin 112 → Fix) (k : Nat) (x : EntryPlan) (a : Fin 112) (s : State) : MasterEntry :=
  let ax := s.axes[a]
  { publisher := x.publisher, writer := ringPosOf s r, index := k, pos := pos a
    pour := (pourNum s).truncate 16, valid := !s.ocp.ident.quarantined
    stopping := ax.stopping || axisVented s a || axisSto s a, uncertain := ax.uncertain, bridges := 0 }

/-- The oldest stored entry of a place leaves the store; the others wait on, late (R113, R130, log entry 123). -/
def takeStored (w k : Nat) : List (Bool × MasterEntry) → Option MasterEntry × List (Bool × MasterEntry)
  | [] => (none, [])
  | x :: xs =>
    if !x.1 && x.2.writer = w && x.2.index = k then
      (some x.2, xs.map fun y => if y.2.writer = w && y.2.index = k then (y.1, { y.2 with lateHop := true }) else y)
    else let (e, ys) := takeStored w k xs; (e, x :: ys)

/-- One entry of the slot, with what is left of the store; none where a bridge has nothing to forward. -/
def slotEntry (r : Fin 2) (pos : Fin 112 → Fix) (s : State) (acc : List MasterEntry × List (Bool × MasterEntry)) (x : EntryPlan) :
    List MasterEntry × List (Bool × MasterEntry) :=
  let k := acc.1.length
  let void : MasterEntry :=
    { publisher := x.publisher, writer := ringPosOf s r, index := k, pos := 0, pour := 0, valid := false }
  match x.axis, x.source with
  | some a, _ => (acc.1 ++ [publishEntry r pos k x a s], acc.2)
  | none, some (w, j) =>
    let (e, rest) := takeStored w j acc.2
    (acc.1 ++ [match e with
      | some e => { e with publisher := x.publisher, writer := ringPosOf s r, index := k }
      | none => void], rest)
  | none, none => (acc.1 ++ [void], acc.2)

/-- The module's slot in a ring takes the entries of this pour, and its cyclic data (R113, R123, R124). -/
def publishRing (r : Fin 2) (pos : Fin 112 → Fix) (s : State) : State :=
  let x := s.link.rings[r]
  let pl := slotPlan (ringPlan s r) (ringPosOf s r)
  let (es, rest) := pl.entries.foldl (slotEntry r pos s) ([], x.store)
  let (cyc, s) := freeWords pl.cyc s
  modLinkRing r (fun x => { x with
    published := ((pourNum s, es) :: x.published).take 3, store := rest.map fun y => (false, y.2), cyc := cyc }) s

/-- At each 64th pour every running port sends an audit set (R139). -/
def auditSend (s : State) : State :=
  if (pourNum s).toNat % 64 ≠ 0 then s
  else modLink (fun l => { l with ports := l.ports.map fun x =>
    if 4 ≤ x.regs.portState.toNat then { x with auditSent := some (x.sentFrags, x.returned) } else x }) s

/-- Whether frames carry slots yet (R133). -/
def slotsOn (s : State) : Bool := s.link.started && decide (s.link.firstSlotPour.toNat ≤ (pourNum s).toNat)

/-- The words of a copy that the master launches: its own slot written, the others and the replay area zero (R121, R127). -/
def launchWords (r : Fin 2) (flags hops : BitVec 8) (s : State) : List Word :=
  let rp := ringPlan s r
  let h := frameHeader 0xA7 flags hops rp.segNum (pourNum s) s.dt s.link.plan.crc
  if slotsOn s then withOwnSlot s r (pourNum s) (h ++ List.replicate (ringBytes rp / 4) 0) else h

/-- A copy leaves a port: the port is busy for its length (R142). -/
def sendFrame (port : Fin 4) (wrapped : Bool) (tx : Fix) (ws : List Word) (s : State) : State :=
  emitAt port (.frame port ws) (modPort port (fun x => { x with
    txUntil := some (fixRaw (tx.toInt + linkSpan ws.length), wrapped) }) s)
def sendFrameAt (port : Option (Fin 4)) (wrapped : Bool) (ws : List Word) (s : State) : State :=
  match port with
  | some p => sendFrame p wrapped s.dt ws s
  | none => s

/-- The master launches both copies, or in a wrapped ring the east-bound one alone, which it wraps at once where its own east
port is broken (R121, R143). -/
def launchRing (r : Fin 2) (s : State) : State :=
  let rp := ringPlan s r
  let x := s.link.rings[r]
  if !(x.master && s.link.started && decide (1 < ringN s r)) then s
  else
    let one : Bool := x.oneCopyFrom.any fun p => decide (p.toNat ≤ (pourNum s).toNat)
    let s := if x.wrapEast then sendFrameAt rp.west true (launchWords r (frameFlags true true false) 1 s) s
      else sendFrameAt rp.east false (launchWords r (frameFlags false false false) 0 s) s
    if one || x.wrapEast || x.wrapWest then s
    else sendFrameAt rp.west false (launchWords r (frameFlags true false false) 0 s) s

/-- The link at a pour: the audit sets, the return of a wrapped ring, the module's slots, the launch of the frames by a segment
master, and the measurement run of the servo. -/
def linkPour (pos : Fin 112 → Fix) (s : State) : State :=
  let s := restoreRing 1 (restoreRing 0 (auditSend (unsent s)))
  let s := modTime (fun t => { t with missRun := if t.measured then 0 else t.missRun + 1, measured := false }) s
  let s := if slotsOn s then publishRing 1 pos (publishRing 0 pos s) else s
  launchRing 1 (launchRing 0 s)

end Sys2Proof.Machine
end

