-- ==== Sys2Proof/Machine/Power.lean ====
section
/-! DEFINITION. Group 0x0F, reset, power and Kettle: supply and hibernation, the vault, resets and bring-up, the die thermal
manager, power-stage temperature (R550 to R583).  Block resets are in BlockReset. -/

namespace Sys2Proof.Machine

abbrev OutP := Host.Outcome State Fault Refusal

def modPowerRegs (f : PowerRegs → PowerRegs) (s : State) : State := modPower (fun p => { p with regs := f p.regs }) s
def modVault (f : Vault → Vault) (s : State) : State := modPower (fun p => { p with vault := f p.vault }) s

/-- A counter of the block counts once (R582). -/
def bumpPower (get : PowerRegs → Word) (set : PowerRegs → Word → PowerRegs) (s : State) : State :=
  modPowerRegs (fun r => { set r (satInc (get r)) with cntOvf := r.cntOvf || satFull (get r) }) s

/-! ### The vault (R554 to R557) -/

/-- COPIES_VALID: bit 0 copy A, bit 1 copy B. -/
def copiesValid (v : Vault) : BitVec 2 := (if v.copyA.good then 1 else 0) ||| (if v.copyB.good then 2 else 0)
/-- The newest copy whose CRC is good (R555). -/
def newestCopy (v : Vault) : Option SaveCopy :=
  if v.copyA.good && v.copyB.good then some (if v.copyA.seq < v.copyB.seq then v.copyB else v.copyA)
  else if v.copyA.good then some v.copyA else if v.copyB.good then some v.copyB else none
/-- The bits of word 0x02C that the copies give. -/
def showCopies (s : State) : State :=
  let v := s.power.vault
  modPowerRegs (fun r => { r with
    copiesValid := copiesValid v, stale := ((newestCopy v).map (·.stale)).getD false }) s
/-- Writes the copy whose turn it is. -/
def putCopy (intoB : Bool) (c : SaveCopy) (v : Vault) : Vault := if intoB then { v with copyB := c } else { v with copyA := c }

/-- A save starts, of the state at the last pour point, over the older copy; one that runs serves the demand too (R555). -/
def startSave (s : State) : State :=
  let v := s.power.vault
  if v.saving.isSome then s
  else
    let intoB := decide (v.copyB.seq < v.copyA.seq)
    let c : SaveCopy := { v.snap with
      good := true, stale := false, seq := v.seq + 1, imageCrc := s.power.imageCrc, moduleId := s.ocp.ident.moduleId }
    showCopies (modPowerRegs (fun r => { r with saving := true })
      (modVault (fun v => putCopy intoB { c with good := false } { v with saving := some c, intoB := intoB, seq := v.seq + 1 }) s))

/-- The HIBERNATE packets that waited for the save are answered (R552). -/
def dHibernate : OpDesc := modOp 0x0F04 .b (· = 0)
def hibernateReply (s : State) : State :=
  match s.power.hibernateP with
  | [] => s
  | l => l.foldl (fun s p => replyTo dHibernate p (ok s))
      (modPower (fun x => { x with hibernateP := [], hibernateOwed := true, hibernateAt := s.dt }) s)

/-- VAULT_SAVE_COMPLETE (R555): a copy whose write was cut short fails its CRC. -/
def execVaultSaveComplete (us : BitVec 16) (cut : Bool) (s : State) : OutP :=
  .next (match s.power.vault.saving with
    | none => s
    | some c =>
      let s := modVault (fun v => putCopy v.intoB { c with good := !cut } { v with saving := none }) s
      let s := showCopies (modPowerRegs (fun r => { r with saving := false }) s)
      if cut then s
      else
        let s := modPowerRegs (fun r => { r with lastSavePour := c.pour, lastSaveUs := us }) s
        let s := note Ev.vaultSaved srcMgmt (us.zeroExtend 32) (c.pour.truncate 32) 0 s
        hibernateReply (endOps (fun o => o.op = 0x0F05) Status.ok s))

/-- POWER_FAIL_WARN (R554): VIN in mV, at 16.5 V within 0.3 V; armed, it starts a save. -/
def srcSupply : BitVec 16 := srcFioGroup 0
def execPowerFailWarn (mv : BitVec 16) (s : State) : OutP :=
  .next (if !s.power.regs.pfArmed || 16800 < mv.toNat then s
    else startSave (record { code := Ev.powerFailWarn, src := srcSupply, t := s.dt, unc := 200, p1 := mv.zeroExtend 32 }
      (modPowerRegs (fun r => { r with pfArmed := false, pfSeen := true }) s)))
/-- POWER_RESTORED (R554): VIN has stayed at or above 17.0 V for 100 ms; every save copy is STALE, and the warning is armed again. -/
def execPowerRestored (s : State) : OutP :=
  .next (if s.power.regs.pfArmed || !(s.fio.vinHighAt.any fun t => hasPassed t 100000000 s) then s
    else
      let s := modVault (fun v => { v with
        copyA := { v.copyA with stale := true }, copyB := { v.copyB with stale := true }
        saving := v.saving.map fun c => { c with stale := true } }) s
      record { code := Ev.powerRestored, src := srcSupply, t := s.dt, unc := 200 }
        (showCopies (modPowerRegs (fun r => { r with pfArmed := true }) s)))

/-! ### Resets (R559 to R562) -/

/-- The counters and fields that the vault keeps (R582); the save engine runs on through every reset (R555). -/
def keptRegs (r : PowerRegs) : PowerRegs :=
  { poweronCount := r.poweronCount, coldCount := r.coldCount, cpResetCount := r.cpResetCount
    brownoutCount := r.brownoutCount, kettleTripCount := r.kettleTripCount, copiesValid := r.copiesValid, stale := r.stale
    lastSavePour := r.lastSavePour, vaultWearMax := r.vaultWearMax, saving := r.saving }

/-- What every reset of the whole module leaves: the vault, the boot store, the identity, the commands and packets outside,
and Caldera as given (R559). -/
def fresh (cal : Caldera) (p : Power) (s : State) : State :=
  { pending := s.pending, freeCtr := s.freeCtr
    events := { vault := s.events.vault }
    ocp := { ident := { moduleId := s.ocp.ident.moduleId, stepping := s.ocp.ident.stepping, partNumber := s.ocp.ident.partNumber }
             firmware := s.ocp.firmware, activeBank := s.ocp.activeBank, sent := s.ocp.sent }
    link := { acceptList := s.link.acceptList }
    caldera := cal
    power := p }

/-- Code of LAST_REACH (R582). -/
def Reach.code : Reach → BitVec 2
  | .block => 0 | .control => 1 | .cold => 2 | .powerOn => 3
/-- The episode is one of the whole module. -/
def wholeEpisode (p : Power) : Bool := p.reach = some .cold || p.reach = some .powerOn

/-- ANGLE_OFFSET and OFFSET_VALID outlast a cold reset where the tile's feedback is absolute (R370, R387). -/
def keepOffset (en : Encoder) (old tl : Tile) : Tile :=
  if en.regs.fbSrc = 2 then
    { tl with foc := { tl.foc with regs := { tl.foc.regs with
      angleOffset := old.foc.regs.angleOffset, offsetValid := old.foc.regs.offsetValid } } }
  else tl
def keepOffsets (old s : State) : State :=
  { s with tiles := Vector.ofFn fun t => keepOffset old.encs[tileEnc t] old.tiles[t] s.tiles[t] }
/-- A cold source is asserted, by its bit of LAST_SOURCES: the whole module but the vault, Caldera and V3A is reset and held;
an episode under way keeps its reach where that is larger (R559, R561, R562). -/
def assertCold (src : BitVec 6) (s : State) : State :=
  let p := s.power
  if p.boot = .off then s
  else
    let r := keptRegs p.regs
    let again := wholeEpisode p
    keepOffsets s (fresh s.caldera
      { vault := p.vault, wakeHigh := p.wakeHigh, v3aOn := p.v3aOn, v3aLimited := p.v3aLimited, pgood := p.pgood
        resetNHeld := p.resetNHeld, brownHeld := p.brownHeld, resetOutN := false, boot := .held
        reach := some (if p.reach = some .powerOn then .powerOn else .cold)
        sources := (if p.reach.isSome then p.sources else 0) ||| src
        regs := { r with
          coldCount := if again then r.coldCount else satInc r.coldCount, cntOvf := !again && satFull r.coldCount } } s)

/-- A power-on episode starts: the logic side has its supply (R550, R553, R561). -/
def assertPowerOn (s : State) : State :=
  let p := s.power
  let r := keptRegs p.regs
  fresh {}
    { vault := p.vault, wakeHigh := p.wakeHigh, resetNHeld := p.resetNHeld, resetOutN := false, boot := .held
      reach := some .powerOn, sources := 1
      regs := { r with poweronCount := satInc r.poweronCount, cntOvf := satFull r.poweronCount } } s

/-- A save whose write is cut short by the loss of the logic side (R555). -/
def cutSave (v : Vault) : Vault := { v with saving := none }
/-- The logic side is without supply. -/
def powerDown (hibernate : Bool) (s : State) : State :=
  let p := s.power
  showCopies (fresh {}
    { vault := cutSave p.vault, wakeHigh := p.wakeHigh, resetNHeld := p.resetNHeld, boot := .off, pgood := false
      v3aOn := false, resetOutN := false, hibernating := hibernate
      regs := { keptRegs p.regs with saving := false } } s)

/-- POWER_ON (R550). -/
def execPowerOn (s : State) : OutP :=
  .next (if s.power.boot = .off && !s.power.hibernating then assertPowerOn s else s)
/-- VIN_LOSS (R551, R553, R559): the reservoir no longer holds the logic side. -/
def execVinLoss (s : State) : OutP := .next (powerDown false s)
/-- WAKE_INPUT (R552, R553): the level at WAKE and how long it has lasted; between the limits the wake is a free choice. -/
def execWakeInput (mv ns : Nat) (s : State) : OutP :=
  let sure := decide (10000 ≤ mv) && decide (1000000 ≤ ns)
  let never := decide (mv < 5000)
  let high := if 10000 ≤ mv then true else if mv < 5000 then false else freeBool s
  let wakes := sure || (!never && freeBool (drawn s))
  let s := drew 2 (modPower (fun p => { p with wakeHigh := high }) s)
  .next (if s.power.hibernating && wakes then assertPowerOn s else s)
/-- BROWNOUT (R559): VIN at 13.0 V with the logic side still held. -/
def execBrownout (s : State) : OutP :=
  .next (if s.power.boot = .off then s
    else assertCold 0x04 (bumpPower (·.brownoutCount) (fun r v => { r with brownoutCount := v })
      (modPower (fun p => { p with brownHeld := true }) s)))
/-- RESET_N_INPUT (R560): the land is low and has been for the time given, or high.  Between 10 us and 25 us it is a free
choice whether the pulse is accepted. -/
def execResetNInput (low : Bool) (ns : Nat) (s : State) : OutP :=
  let taken := low && (decide (25000 ≤ ns) || (decide (10000 ≤ ns) && freeBool s))
  let s := drawn s
  .next (if taken then assertCold 0x02 (modPower (fun p => { p with resetNHeld := true }) s)
    else if low then s else modPower (fun p => { p with resetNHeld := false }) s)

/-- The episode ends: its reach and its sources are on record (R561, R582). -/
def recordEpisode (s : State) : State :=
  modPower (fun p => { p with regs := { p.regs with
    lastReach := (p.reach.map Reach.code).getD p.regs.lastReach, lastSources := p.sources } }) s
/-- RESET_RELEASE (R561): every asserted source of a whole-module episode is released, and its bring-up starts. -/
def execResetRelease (s : State) : OutP :=
  .next (if s.power.boot = .held && !s.power.resetNHeld then
      recordEpisode (modPower (fun p => { p with boot := .trim, brownHeld := false }) s)
    else s)

/-! ### Bring-up (R567 to R571) -/

/-- A BOOTSEL that names nothing, or host load without PCIe, is taken as 111 (R569). -/
def bootSelOf (b : BitVec 3) (spi : Bool) : BitVec 3 := if b.toNat < 3 || (b = 5 && spi) then 7 else b
/-- STRAP_SAMPLE (R569): lands BOOTSEL [2:0], CLKSEL [4:3], HOSTSEL [5]. -/
def sampleStraps (lands : BitVec 6) (s : State) : State :=
  let b := lands.extractLsb' 0 3
  let c := lands.extractLsb' 3 2
  let spi := lands.getLsbD 5
  let b' := bootSelOf b spi
  let c' : BitVec 2 := if c = 0 then 3 else c
  let bad := b ≠ b' || c = 0
  let s := { s with ocp := { s.ocp with ident := { s.ocp.ident with bootsel := b, clksel := c } } }
  let s := modPower (fun p => { p with
    bootSel := b', clkSel := c', boot := if b' = 3 then .rom else .clocks
    bankB := match s.ocp.activeBank with
      | some x => x
      | none => b' = 6
    triedOther := false, netTries := 0, imageOk := false
    regs := { p.regs with
      bootSrc := b', hostsel := spi, clkSrc := c', strapSeen := p.regs.strapSeen || bad } }) s
  if bad then note Ev.strapInvalid srcMgmt (lands.zeroExtend 32) 0 0 s else s
/-- TRIM_LOAD_COMPLETE (R568): three failed attempts in a row end in TRIM_FAIL. -/
def execTrimLoadComplete (crcOk : Bool) (straps : BitVec 6) (s : State) : OutP :=
  .next (if s.power.boot ≠ .trim then s
    else if crcOk then sampleStraps straps s
    else
      let n := s.power.regs.trimTries + 1
      let s := modPowerRegs (fun r => { r with trimTries := n }) s
      if n = 3 then
        { s with ocp := { s.ocp with ident := { s.ocp.ident with trimFail := true } }, power := { s.power with boot := .rom } }
      else s)

/-- Step 4 ends with the clock source in use: Caldera's self-test follows at power-on, its handshake at once in a cold
episode (R567). -/
def clocksLocked (src : BitVec 2) (s : State) : State :=
  modPower (fun p =>
    let p := { p with crystal := src = 3, regs := { p.regs with clkSrc := src } }
    if p.reach = some .powerOn then { p with boot := .caldera } else bootStart s.dt p) s
/-- CLK_FALLBACK (R571): the crystal serves instead. -/
def clkFallback (s : State) : State :=
  note Ev.clkFallback srcMgmt (s.power.clkSel.zeroExtend 32) 0 0
    (clocksLocked 3 (modPowerRegs (fun r => { r with clkFb := true }) s))
/-- CLOCK_LOCK (R571): whether REFCLK, or a recovered clock, is good. -/
def execClockLock (refOk : Bool) (s : State) : OutP :=
  .next (if s.power.boot ≠ .clocks then s
    else if s.power.clkSel = 3 then clocksLocked 3 s
    else if s.power.clkSel = 2 then (if refOk then clocksLocked 2 s else clkFallback s)
    else if refOk then clocksLocked 1 s else s)
/-- CLOCK_RECOVERY_TIMEOUT (R571). -/
def execClockRecoveryTimeout (s : State) : OutP :=
  .next (if s.power.boot = .clocks && s.power.clkSel = 1 then clkFallback s else s)

/-- The management boot is complete: RESET_OUT_n rises, OCP is served, and the events of the episode follow (R562, R567,
R576). -/
def finishBoot (level : Word) (s : State) : State :=
  let p := s.power
  let bank := decide (p.regs.bootSrc.toNat = 6)
  let s := { s with ocp := { s.ocp with ident := { s.ocp.ident with fwLevel := level, fwBank := bank } } }
  let s := modPower (fun p => { p with boot := .done, resetOutN := true, reach := none, sources := 0 }) s
  let s := note Ev.resetDone srcMgmt ((p.reach.map Reach.code).getD 0 |>.zeroExtend 32) (p.sources.zeroExtend 32) 0 s
  match p.sources.getLsbD 3, p.vault.trip with
  | true, some (t, sensor, peak) =>
    record { code := Ev.kettleTrip, src := srcMgmt, t := t, p0 := sensor.zeroExtend 32, p1 := peak } s
  | _, _ => s

/-- The source fails, coded as BOOTSEL, and another is tried: BOOT_FALLBACK (R570). -/
def bootFallback (failed : Word) (p : Power → Power) (s : State) : State :=
  note Ev.bootFallback srcMgmt failed 0 0 (modPower (fun x => { p x with regs := { (p x).regs with bootFb := true } }) s)
/-- A host or network load falls back to bank A. -/
def toBankA (p : Power) : Power := { p with boot := .boot, bankB := false, triedOther := false, imageOk := false }
/-- A network attempt has delivered no valid image; after the third, bank A (R570). -/
def networkFailed (s : State) : State :=
  let s := modPower (fun p => { p with netTries := p.netTries + 1, bootAt := s.dt }) s
  if 3 ≤ s.power.netTries then bootFallback 4 toBankA s else s

/-- Code of a bank as BOOTSEL codes it. -/
def bankCode (b : Bool) : BitVec 3 := if b then 6 else 7
/-- BOOT_COMPLETE (R567, R570): the outcome of the signature check of the source being booted. -/
def execBootComplete (sigOk : Bool) (fwLevel : Word) (s : State) : OutP :=
  let p := s.power
  .next (if p.boot = .networkLoad then
      if sigOk then finishBoot fwLevel s else networkFailed s
    else if p.boot ≠ .boot then s
    else if p.imageOk then finishBoot fwLevel s
    else if sigOk then finishBoot fwLevel (modPowerRegs (fun r => { r with bootSrc := bankCode p.bankB }) s)
    else if p.triedOther then modPower (fun p => { p with boot := .rom, regs := { p.regs with bootFb := true } }) s
    else bootFallback ((bankCode p.bankB).zeroExtend 32) (fun p => { p with bankB := !p.bankB, triedOther := true }) s)
/-- BOOT_DOORBELL (R570): the load magic closes the load area, and the image, at most 12 MiB long, is checked. -/
def execBootDoorbell (v : Word) (sigOk : Bool) (s : State) : OutP :=
  .next (if s.power.boot ≠ .hostLoad || v ≠ 0x4C4F4144 then s
    else if sigOk && s.power.bootLength.toNat ≤ 0xC00000 then modPower (fun p => { p with boot := .boot, imageOk := true }) s
    else bootFallback 5 toBankA s)
/-- The load has lasted 60 s (R570). -/
def loadOver (s : State) : Bool := hasPassed s.power.bootAt 60000000000 s
/-- HOST_LOAD_TIMEOUT (R570). -/
def execHostLoadTimeout (s : State) : OutP := .next (if s.power.boot = .hostLoad && loadOver s then bootFallback 5 toBankA s else s)
/-- NETWORK_LOAD_TIMEOUT (R570). -/
def execNetworkLoadTimeout (s : State) : OutP := .next (if s.power.boot = .networkLoad && loadOver s then networkFailed s else s)

/-- TEMP_COMP_UPDATE (R571): on the crystal the cubic, whose trim the spec does not give, is a free value; else 0. -/
def execTempCompUpdate (s : State) : OutP :=
  .next (if s.power.crystal then
      drawn { s with time := { s.time with regs := { s.time.regs with tempComp := freeWord s } } }
    else { s with time := { s.time with regs := { s.time.regs with tempComp := 0 } } })

/-! ### V3A (R551) -/

/-- V3A_OVERLOAD: every axis takes its class. -/
def execV3aOverload (s : State) : OutP :=
  .next (if !s.power.v3aOn || s.power.v3aLimited then s
    else raise Ev.v3aOverload srcMgmt s.policy.v3a true 0 0 0 allAxes
      (modPower (fun p => { p with v3aLimited := true, regs := { p.regs with v3aSeen := true } }) s))
/-- V3A_OVERLOAD_END: the load is back within 200 mA. -/
def execV3aOverloadEnd (s : State) : OutP :=
  .next (if s.power.v3aLimited then clearCond Ev.v3aOverload allAxes (modPower (fun p => { p with v3aLimited := false }) s)
    else s)

/-! ### Kettle (R573 to R576) -/

/-- The sensors that the thresholds watch. -/
def liveTemps (r : PowerRegs) : List Int :=
  (List.finRange 12).filterMap fun k => if r.sensorExcluded.getLsbD k.val then none else some r.temp[k].toInt
def excludedCount (r : PowerRegs) : Nat := ((List.range 12).filter fun k => r.sensorExcluded.getLsbD k).length
/-- The warning holds: a sensor at 115 degrees, or three excluded; it ends below 110 (R573). -/
def warnOn (r : PowerRegs) : Bool := (liveTemps r).any (11500 ≤ ·) || 3 ≤ excludedCount r
def warnOff (r : PowerRegs) : Bool := (liveTemps r).all (· < 11000) && excludedCount r < 3

/-- KETTLE_WARN (R575): an event in class F; in class R a STOP of every enabled axis. -/
def kettleWarn (sensor : Fin 12) (s : State) : State :=
  let f := s.power.regs.kettleClass
  let axs := if f then [] else allAxes.filter fun a => s.axes[a].enabled
  let s := bumpPower (·.warnCount) (fun r v => { r with warnCount := v }) s
  let s := modPower (fun p => { p with
    warned := true, warnAt := s.dt
    regs := { p.regs with
      warnSeen := true, kettleState := if f then 1 else if p.regs.kettleState = 3 then 3 else 2 } }) s
  raise Ev.kettleWarn srcMgmt (if f then .note else .stop) true (natWord sensor.val) s.power.regs.temp[sensor] 0 axs s
/-- The warning and its end, after a sensor has changed. -/
def kettleJudge (sensor : Fin 12) (s : State) : State :=
  if !s.power.warned && warnOn s.power.regs then kettleWarn sensor s
  else if s.power.warned && warnOff s.power.regs then
    clearCond Ev.kettleWarn allAxes (modPower (fun p => { p with
      warned := false, regs := { p.regs with kettleState := if p.regs.kettleState = 1 then 0 else p.regs.kettleState } }) s)
  else s

/-- The hardware trip (R576): every tile vents, the clocks stop, RESET_OUT_n falls and the sessions end. -/
def kettleTripped (sensor : Fin 12) (temp : Word) (s : State) : State :=
  let s := (List.finRange 16).foldl (fun s t => ventTile t 4 s) s
  let s := (List.finRange 80).foldl (fun s i => endSession false i s) s
  let s := bumpPower (·.kettleTripCount) (fun r v => { r with kettleTripCount := v }) s
  modPower (fun p => { p with
    tripped := true, resetOutN := false
    vault := { p.vault with trip := some (s.dt, BitVec.ofNat 4 sensor.val, temp) } }) s
/-- The trip record keeps the peak. -/
def tripPeak (sensor : Fin 12) (temp : Word) (v : Vault) : Vault :=
  { v with trip := v.trip.map fun x => if x.2.2.toInt < temp.toInt then (x.1, BitVec.ofNat 4 sensor.val, temp) else x }
/-- A reading from -50 to 160 degrees (R573). -/
def tempSound (temp : Word) : Bool := decide (-5000 ≤ temp.toInt) && decide (temp.toInt ≤ 16000)
/-- The sensor has not changed for 10 s while another has moved by 5 degrees: which are its neighbours is not given. -/
def sensorStuck (k : Fin 12) (s : State) : Bool :=
  let p := s.power
  hasPassed p.sameAt[k] 10000000000 s
    && (List.finRange 12).any fun j => j ≠ k && decide (500 ≤ (p.regs.temp[j].toInt - p.sameRef[k][j].toInt).natAbs)
/-- What the checks of R573 and R575 keep of a reading. -/
def kettleNote (sensor : Fin 12) (temp : Word) (s : State) : State :=
  modPower (fun p =>
    let same := p.regs.temp[sensor] = temp
    { p with
      sameAt := if same then p.sameAt else upd p.sameAt sensor fun _ => s.dt
      sameRef := if same then p.sameRef else upd p.sameRef sensor fun _ => p.regs.temp
      soundAt := upd p.soundAt sensor fun t => if tempSound temp then some (t.getD s.dt) else none }) s
/-- Since when every sensor has been below 105 degrees. -/
def kettleCool (s : State) : State :=
  modPower (fun p => { p with
    coolAt := if (liveTemps p.regs).all (· < 10500) then some (p.coolAt.getD s.dt) else none }) s
/-- A sensor reads a temperature: TEMP and TEMP_MAX. -/
def kettleRead (sensor : Fin 12) (temp : Word) (s : State) : State :=
  kettleCool <| modPowerRegs (fun r =>
    let r := { r with temp := upd r.temp sensor fun _ => temp }
    { r with tempMax := BitVec.ofInt 32 (r.temp.toList.foldl (fun m x => max m x.toInt) r.temp[sensor].toInt) }) (kettleNote sensor temp s)
/-- A sensor reads 135 degrees or more, and is not excluded: Kettle trips, or the peak rises. -/
def kettleOver (sensor : Fin 12) (temp : Word) (s : State) : State :=
  if s.power.regs.sensorExcluded.getLsbD sensor.val || temp.toInt < 13500 then s
  else if s.power.tripped then modVault (tripPeak sensor temp) s
  else if s.power.boot = .off then s
  else kettleTripped sensor temp s
/-- KETTLE_THRESHOLD (R573). -/
def execKettleThreshold (sensor : Fin 12) (temp : Word) (s : State) : OutP :=
  let s := kettleRead sensor temp s
  .next (if s.power.tripped then kettleOver sensor temp s else kettleOver sensor temp (kettleJudge sensor s))
/-- KETTLE_TRIP (R576). -/
def execKettleTrip (sensor : Fin 12) (temp : Word) (s : State) : OutP :=
  .next (kettleOver sensor temp (kettleRead sensor temp s))
/-- KETTLE_RESTART (R573, R576): every sensor below 100 degrees after a trip starts a cold episode. -/
def execKettleRestart (s : State) : OutP :=
  .next (if s.power.tripped && (liveTemps s.power.regs).all (· < 10000) then assertCold 0x08 s else s)

/-- KETTLE_SENSOR_FAULT (R573): a sensor out of range or stuck leaves the thresholds. -/
def execKettleSensorFault (sensor : Fin 12) (s : State) : OutP :=
  .next (if s.power.regs.sensorExcluded.getLsbD sensor.val || (tempSound s.power.regs.temp[sensor] && !sensorStuck sensor s) then s
    else kettleJudge sensor (note Ev.kettleSensorFault srcMgmt (natWord sensor.val) 0 0
      (modPowerRegs (fun r => { r with
        sensorExcluded := r.sensorExcluded ||| ((1 : BitVec 12) <<< sensor.val), sensorSeen := true }) s)))
/-- KETTLE_SENSOR_PLAUSIBLE (R573, R579): plausible for 10 s. -/
def execKettleSensorPlausible (sensor : Fin 12) (s : State) : OutP :=
  .next (if s.power.regs.sensorExcluded.getLsbD sensor.val && !sensorStuck sensor s
      && (s.power.soundAt[sensor].any fun t => hasPassed t 10000000000 s) then
      kettleJudge sensor (modPowerRegs (fun r => { r with
        sensorExcluded := r.sensorExcluded &&& ~~~((1 : BitVec 12) <<< sensor.val) }) s)
    else s)

/-- KETTLE_STOP_TIMEOUT (R575): the tiles of axes not yet disabled vent, every engine stops, Kettle is GATED. -/
def execKettleStopTimeout (s : State) : OutP :=
  .next (if s.power.regs.kettleState ≠ 2 || !hasPassed s.power.warnAt 200000000 s then s
    else
      let s := (List.finRange 16).foldl (fun s t => if s.axes[tileAxis t].enabled then ventTile t 1 s else s) s
      let s := { s with engines := s.engines.map fun en => if en.regs.leState = 1 then en else holdEngine en }
      modPowerRegs (fun r => { r with kettleState := 3 }) s)

/-- An engine that has an image and is in no reset restarts (R312). -/
def reloadEngine (e : Fin 32) (s : State) : State :=
  if s.engines[e].image.isSome && s.engines[e].regs.leState = 0 && !s.power.blocks.contains (BitVec.ofNat 16 e.val)
      && s.power.regs.kettleState ≠ 3 then startEngine e s
  else s
def reloadEngines (s : State) : State := (List.finRange 32).foldl (fun s e => reloadEngine e s) s
/-- KETTLE_RESUMED (R575): every sensor below 105 degrees for 10 s. -/
def execKettleResumed (s : State) : OutP :=
  .next (if s.power.regs.kettleState = 3 && (s.power.coolAt.any fun t => hasPassed t 10000000000 s) then
      note Ev.kettleResumed srcMgmt 0 0 0 (reloadEngines (modPowerRegs (fun r => { r with kettleState := 0 }) s))
    else s)

/-! ### Commands (R580) -/

def dResetStatus : OpDesc := modOp 0x0F01 .a (· = 0)
def runResetStatus (_ : Packet) (s : State) : Reply := okWith (wordsOf (powerWord s) 0 16) s
/-- RESET_STATUS (R580). -/
def execResetStatus (p : Packet) (s : State) : OutP := .next (request dResetStatus acceptAny runResetStatus p s)

def acceptHibernate (_ : Packet) (s : State) : BitVec 16 :=
  if anyEnabled s then Status.axesEnabled else if s.power.wakeHigh then Status.wakeActive else Status.ok
/-- The save starts; the reply waits for it (R552). -/
def serveHibernate (p : Packet) (s : State) : State :=
  let st := headerStatus dHibernate p s
  let st := if st = Status.ok then acceptHibernate p s else st
  if st ≠ Status.ok then replyTo dHibernate p (refusePacket 0x0F04 st p s)
  else startSave (modPower (fun x => { x with hibernateP := x.hibernateP ++ [p] }) (beginPacket 0x0F04 p s))
/-- HIBERNATE (R552). -/
def execHibernate (p : Packet) (s : State) : OutP :=
  .next (requestBy dHibernate (serveHibernate p) p s)
/-- HIBERNATE_ENTER (R552): 10 ms after the reply the outputs and the isolated converter are off. -/
def execHibernateEnter (s : State) : OutP := .next (if s.power.hibernateOwed && hasPassed s.power.hibernateAt 10000000 s then powerDown true s else s)

def dVaultSave : OpDesc := modOp 0x0F05 .c (· = 0)
def runVaultSave (p : Packet) (s : State) : Reply := startOp 0x0F05 p (startSave s)
/-- VAULT_SAVE (R555): ended by VAULT_SAVE_COMPLETE. -/
def execVaultSave (p : Packet) (s : State) : OutP := .next (request dVaultSave acceptAny runVaultSave p s)

def dVaultRead : OpDesc := modOp 0x0F06 .b (· = 2)
def acceptVaultRead (p : Packet) (_ : State) : BitVec 16 :=
  if parNat p 0 % 4 ≠ 0 || !parIn p 1 1 1000 then Status.paramRange
  else if 0x200000 < parNat p 0 + 4 * parNat p 1 then Status.vaultRange else Status.ok
/-- The vault word at a byte offset: the host area and the area that reads 0 are as R556 lays them out; the bytes of the
other areas, whose layout it does not give, are a free value. -/
def vaultWord (s : State) (free : Word) (o : Nat) : Word :=
  if 0x20000 ≤ o then 0 else if 0x10000 ≤ o then memWord s.power.vault.host ((o - 0x10000) / 4) else free
def runVaultRead (p : Packet) (s : State) : Reply :=
  let (ws, t) := freeWords (parNat p 1) s
  okWith (ws.mapIdx fun i w => vaultWord s w (parNat p 0 + 4 * i)) t
/-- VAULT_READ (R556). -/
def execVaultRead (p : Packet) (s : State) : OutP := .next (request dVaultRead acceptVaultRead runVaultRead p s)

def dVaultWrite : OpDesc := modOp 0x0F07 .b (fun n => 2 ≤ n && n ≤ 65)
/-- The block was written less than 100 ms ago. -/
def vaultBusy (s : State) (b : Nat) : Bool :=
  s.power.vault.wroteAt.any fun x => x.1 = b && decide (s.dt.toNat < x.2.toNat + 100000000 * 2 ^ 32)
def acceptVaultWrite (p : Packet) (s : State) : BitVec 16 :=
  let o := parNat p 0
  let n := 4 * (p.params.length - 1)
  if o % 4 ≠ 0 then Status.paramRange
  else if 0x10000 < o + n || o / 256 ≠ (o + n - 1) / 256 then Status.vaultRange
  else if vaultBusy s (o / 256) then Status.vaultRate else Status.ok
/-- Write count of a host block. -/
def wearOf (v : Vault) (b : Nat) : Nat := ((v.wear.find? fun x => x.1 = b).map (·.2)).getD 0
def runVaultWrite (p : Packet) (s : State) : Reply :=
  let b := parNat p 0 / 256
  let w := wearOf s.power.vault b + 1
  ok (modPower (fun x => { x with
    vault := { x.vault with
      host := memPutWords x.vault.host (parNat p 0 / 4) (p.params.drop 1)
      wear := (b, w) :: x.vault.wear.filter (·.1 ≠ b), wroteAt := (b, s.dt) :: x.vault.wroteAt.filter (·.1 ≠ b) }
    regs := { x.regs with vaultWearMax := natWord (min 0xFFFFFFFF (max x.regs.vaultWearMax.toNat w)) } }) s)
/-- VAULT_WRITE (R557). -/
def execVaultWrite (p : Packet) (s : State) : OutP := .next (request dVaultWrite acceptVaultWrite runVaultWrite p s)

def dKettleStatus : OpDesc := modOp 0x0F08 .a (· = 0)
def runKettleStatus (_ : Packet) (s : State) : Reply := okWith (wordsOf (powerWord s) 0x40 33) s
/-- KETTLE_STATUS (R580). -/
def execKettleStatus (p : Packet) (s : State) : OutP := .next (request dKettleStatus acceptAny runKettleStatus p s)

def ntcTile (p : Packet) : Fin 16 := Fin.ofNat 16 (tgt p)
def acceptNtcConfig (p : Packet) (_ : State) : BitVec 16 :=
  if parNat p 4 < parNat p 5 && parNat p 5 ≤ 2000 && parIn p 0 0 1 then Status.ok else Status.paramRange
/-- The settings are in force; the factor follows at the next SD7 sample, and is 1 at once with NTC_EN clear (R578). -/
def applyNtcConfig (p : Packet) (s : State) : State :=
  let t := ntcTile p
  let s := modTile t (fun tl => { tl with ntc := { tl.ntc with
    ntcEn := parBool p 0, ntcRNom := par p 1, ntcBeta := par p 2, ntcRser := par p 3
    tDs := parBits p 4 16, tDe := parBits p 5 16 } }) s
  if parBool p 0 then s else setDerate t 0x8000 s
def stNtcConfig : StageOp :=
  { d := { op := 0x0F09, cls := .b, stage := .yes, target := tBelow 16, params := (· = 6) }
    accept := acceptNtcConfig, check := acceptNtcConfig, apply := applyNtcConfig }
/-- NTC_CONFIG (R578), staged. -/
def execNtcConfig (p : Packet) (s : State) : OutP := .next (stageRequest stNtcConfig p s)

def dPowerPolicySet : OpDesc := modOp 0x0F0A .b (· = 2)
def acceptPowerPolicySet (p : Packet) (_ : State) : BitVec 16 :=
  if clsAllowed .note (par p 0) && clsAllowed .note (par p 1) then Status.ok else Status.paramRange
def runPowerPolicySet (p : Packet) (s : State) : Reply :=
  ok { s with policy := { s.policy with ntcFault := clsOf (par p 0), v3a := clsOf (par p 1) } }
/-- POWER_POLICY_SET (R580): classes of NTC_FAULT and V3A_OVERLOAD. -/
def execPowerPolicySet (p : Packet) (s : State) : OutP :=
  .next (request dPowerPolicySet acceptPowerPolicySet runPowerPolicySet p s)

def dDiagRead : OpDesc := modOp 0x0F0B .a (· = 1)
def acceptDiagRead (p : Packet) (_ : State) : BitVec 16 := if parIn p 0 0 3 then Status.ok else Status.paramRange
/-- The strap lands as sampled; trim words, raw sensor codes and the boot log, whose contents the spec does not give, are
free words. -/
def runDiagRead (p : Packet) (s : State) : Reply :=
  if par p 0 = 2 then
    let i := s.ocp.ident
    okWith [i.bootsel.zeroExtend 32 ||| (i.clksel.zeroExtend 32 <<< 3) ||| bitAt s.power.regs.hostsel 5] s
  else
    let (ws, t) := freeWords (if par p 0 = 1 then 12 else freeNow s % 1001) (drawn s)
    okWith ws t
/-- DIAG_READ (R580). -/
def execDiagRead (p : Packet) (s : State) : OutP := .next (request dDiagRead acceptDiagRead runDiagRead p s)

/-! ### The control-plane reset (R563 to R565) -/

/-- The axis whose state failed: the one whose block of the register window holds the failing address, else a free one. -/
def failingAxis (addr : Word) (s : State) : Fin 112 :=
  if 0x100000 ≤ addr.toNat && addr.toNat < 0x11C000 then Fin.ofNat 112 ((addr.toNat - 0x100000) / 0x400)
  else Fin.ofNat 112 (freeNow s)
/-- The axis keeps its position through its feedback count, or takes it from its slot (R564). -/
def keepsPosition (a : Fin 112) (s : State) : Bool :=
  match axisTile a with
  | some t => decide (s.encs[tileEnc t].regs.fbSrc ≠ 0)
  | none => 80 ≤ a.val
/-- The failed axis state of an axis without feedback: its position is a free value, POS_UNCERTAIN set and HOMED cleared
(R564). -/
def failAxis (a : Fin 112) (s : State) : State :=
  if !keepsPosition a s then
    let x := BitVec.ofNat 96 (freeNow s)
    markUncertain a (drawn (modAxis a (fun ax => { ax with
      homed := false, regs := { ax.regs with actPos := x, spPos := x } }) s))
  else s
/-- A critical-state error: source and failing address (R563 to R565). -/
def criticalError (src : BitVec 3) (addr : Word) (s : State) : State :=
  if src = 0 || src = 7 || s.power.cpReset || s.power.boot ≠ .done then s
  else
    let s := assertControlReset (src.zeroExtend 8) addr s
    if src = 5 then failAxis (failingAxis addr s) (drawn s)
    else if src = 6 then
      enterFree (modTime (fun t => { t with ownDt := false, measured := false, missRun := 0 }) s)
    else s
/-- CONTROL_PLANE_RESET (R563). -/
def execControlPlaneReset (src : BitVec 3) (addr : Word) (s : State) : OutP := .next (criticalError src addr s)

/-- POUR_REFUSED for each set that the reset discarded (R63). -/
def tellDiscarded (s : State) : State :=
  let gone := s.stage.discarded
  gone.foldl (fun s x => record
    { code := Ev.pourRefused, src := srcStaging, t := x.2, p0 := x.1.seq, p1 := Status.stageDiscardedReset.zeroExtend 32
      p2 := x.1.session.zeroExtend 32 } s) { s with stage := { s.stage with discarded := [] } }

/-- The bring-up of the control plane: the tiles leave that vent cause, the engines reload, the sets discarded are told, and
the field outputs take their commands again (R312, R339, R563). -/
def controlBringUp (s : State) : State :=
  let s := modPower (fun p => { p with cpReset := false, cpReleased := false }) s
  let s := (List.finRange 16).foldl (fun s t => unventTile t 3 s) s
  tellDiscarded (reloadEngines { s with fio := { s.fio with fsReset := false } })

end Sys2Proof.Machine
end

