-- ==== Sys2Proof/Machine/Slots.lean ====
section
/-! DEFINITION. Master slots: their commands and the events that need no steep (R151 to R179).  Arrival of an entry, steeping and
the pour itself stand in Pour.lean. -/

namespace Sys2Proof.Machine

def modSlotRegs (i : Fin 32) (f : SlotRegs → SlotRegs) (s : State) : State := modSlot i (fun x => { x with regs := f x.regs }) s
def srcSlot (i : Fin 32) : BitVec 16 := srcAxis (slotAxis i)
def slotOf (p : Packet) : Fin 32 := Fin.ofNat 32 (tgt p - 80)
def slotOp (op : BitVec 16) (cls : ReplyClass) (stage : Stageable) (n : Nat) : OpDesc :=
  { op := op, cls := cls, stage := stage, target := tBetween 80 111, params := (· = n) }

/-- Axes whose stage names the slot as its master source (R175). -/
def slotFollowers (s : State) (i : Fin 32) : List (Fin 112) :=
  hostAxes.filter fun a => hasStage s.axes[a] && (match axisMaster s.axes[a] with
    | .slot j => decide (j = i)
    | _ => false)

/-! ### Commands (R176) -/

def acceptSlotConfig (p : Packet) (_ : State) : BitVec 16 :=
  if parIn p 2 0 14 && parIn p 3 0 16777216 && parIn p 4 0 2 && parIn p 5 0 1 && parIn p 6 1 255 && parIn p 7 0 500
      && parIn p 8 0 2147483647 then Status.ok else Status.paramRange
def checkSlotConfig (p : Packet) (s : State) : BitVec 16 :=
  let r := s.slots[slotOf p].regs
  if r.slotState ≠ 0 && (r.pubId ≠ par64 p 0 || r.entryIndex ≠ parBits p 2 4) then Status.slotInUse else Status.ok
def stSlotConfig : StageOp :=
  { d := slotOp 0x0440 .b .yes 9, accept := acceptSlotConfig, check := checkSlotConfig
    apply := fun p s => modSlotRegs (slotOf p) (fun r => { r with
      pubId := par64 p 0, entryIndex := parBits p 2 4, w := par p 3, order := parBits p 4 2, policy := parBool p 5
      nLate := parBits p 6 8, tRide := parBits p 7 9, resumeLimit := parBits p 8 31 }) s }
/-- SLOT_CONFIG (R176). -/
def execSlotConfig (p : Packet) (s : State) : Host.Outcome State Fault Refusal := .next (stageRequest stSlotConfig p s)

/-- The slot arms at this pour; the sample of this pour does not count (R170). -/
def applySlotArm (p : Packet) (s : State) : State :=
  modSlot (slotOf p) (fun sl => { rearmSlot { sl with regs := { sl.regs with slotState := 1 } } with armingPour := pourNum s }) s
def stSlotArm : StageOp :=
  { d := slotOp 0x0441 .b .yes 0
    check := fun p s => if s.slots[slotOf p].regs.slotState = 0 then Status.ok else Status.slotInUse
    apply := applySlotArm }
/-- SLOT_ARM (R170). -/
def execSlotArm (p : Packet) (s : State) : Host.Outcome State Fault Refusal := .next (stageRequest stSlotArm p s)

/-- An enabled axis depends on the slot, directly or through its chain. -/
def slotHasFollowers (s : State) (i : Fin 32) : Bool :=
  hostAxes.any fun a => s.axes[a].enabled && decide (chainSlot s a = some i)
def applySlotDisarm (p : Packet) (s : State) : State :=
  modAxis (slotAxis (slotOf p)) (fun ax => { ax with source := 0 }) (modSlot (slotOf p) (fun sl =>
    let z := rearmSlot sl
    { z with regs := { z.regs with slotState := 0 } }) s)
def stSlotDisarm : StageOp :=
  { d := slotOp 0x0442 .b .yes 0
    check := fun p s => if slotHasFollowers s (slotOf p) then Status.slotHasFollowers else Status.ok
    apply := applySlotDisarm }
/-- SLOT_DISARM (R170). -/
def execSlotDisarm (p : Packet) (s : State) : Host.Outcome State Fault Refusal := .next (stageRequest stSlotDisarm p s)

def dSlotStatus : OpDesc := slotOp 0x0443 .a .no 0
def runSlotStatus (p : Packet) (s : State) : Reply :=
  let r := s.slots[slotOf p].regs
  okWith (readSlotRegs r 0x300 :: words64 r.armedPour ++ words64 r.confirmed ++ words64 r.corrected ++ words64 r.resteeped
    ++ words64 r.overrun ++ words64 r.lateReleased ++ words64 r.held ++ [r.lastResidual, r.lastArrivalLead]) s
/-- SLOT_STATUS (R176). -/
def execSlotStatus (p : Packet) (s : State) : Host.Outcome State Fault Refusal :=
  .next (request dSlotStatus acceptAny runSlotStatus p s)

def stMasterLeadSet : StageOp :=
  { d := followOp 0x0444 .b .yes (· = 1)
    accept := fun p _ => if parIn p 0 0 1 then Status.ok else Status.paramRange
    apply := fun p s => modAxis (axOf p) (fun ax => { ax with steep := { ax.steep with masterLead := parBool p 0 } }) s }
/-- MASTER_LEAD_SET (R174). -/
def execMasterLeadSet (p : Packet) (s : State) : Host.Outcome State Fault Refusal := .next (stageRequest stMasterLeadSet p s)

def dSlotPolicySet : OpDesc :=
  { op := 0x0445, cls := .b, target := fun n => (80 ≤ n && n < 112) || n = 0xFFFF, params := (· = 2) }
def acceptSlotPolicy (p : Packet) (_ : State) : BitVec 16 :=
  if clsAllowed .note (par p 0) && clsAllowed .stop (par p 1) then Status.ok else Status.paramRange
def runSlotPolicy (p : Packet) (s : State) : Reply :=
  let set (sl : Slot) : Slot := { sl with clsOverrun := clsOf (par p 0), clsRide := clsOf (par p 1) }
  ok (if tgt p = 0xFFFF then { s with slots := s.slots.map set } else modSlot (slotOf p) set s)
/-- SLOT_POLICY_SET (R176). -/
def execSlotPolicySet (p : Packet) (s : State) : Host.Outcome State Fault Refusal :=
  .next (request dSlotPolicySet acceptSlotPolicy runSlotPolicy p s)

/-! ### Late values (R166, R167) -/

/-- Whole counts, saturating; the spec leaves their rounding open. -/
def countsOf (s : State) (x : Int) : Word := sat32 (freeRound s x (2 ^ 32))

/-- The coming pour of the slot counts as late (R166): LATE_RUN, the state LATE and MASTER_LATE at the first of a run. -/
def slotLate (i : Fin 32) (s : State) : State :=
  let sl := s.slots[i]
  let code : BitVec 3 := if sl.regs.policy then 5 else 4
  let s := modSlot i (fun sl => { sl with
    outcome := some code
    regs := { sl.regs with
      lateRun := if sl.regs.slotState = 1 then 0 else satInc sl.regs.lateRun
      slotState := if sl.regs.slotState = 2 then 3 else sl.regs.slotState
      lateSeen := sl.regs.lateSeen || sl.regs.slotState = 2 } }) s
  if sl.regs.slotState = 2 then note Ev.masterLate (srcSlot i) 0 0 0 s else s

/-- The value of the coming pour is still missing and its outcome open. -/
def slotMissing (sl : Slot) : Bool :=
  sl.regs.slotState ≠ 0 && sl.steeping && sl.arrived.isNone && sl.outcome.isNone && sl.resteep.isNone

/-- RIDE_THROUGH_END (R167): T_ride in LOST is over; the direct followers stop and are disabled at standstill. -/
def execRideThroughEnd (i : Fin 32) (s : State) : Host.Outcome State Fault Refusal :=
  let sl := s.slots[i]
  if sl.regs.slotState ≠ 4 || !hasPassed sl.lostAt (sl.regs.tRide.toNat * 1000000) s then .next s
  else
    let axs := slotFollowers s i
    let s := raise Ev.rideThroughEnd (srcSlot i) s.slots[i].clsRide false 0 0 0 axs
      (modSlotRegs i (fun r => { r with slotState := 5 }) s)
    .next (axs.foldl (fun s a => modAxis a (fun ax => { ax with slotStop := ax.slotStop || (ax.enabled && ax.stopping) }) s) s)

/-- SLOT_ARMED (R170, R171): the run of on-time samples that the order needs is complete. -/
def execSlotArmed (i : Fin 32) (s : State) : Host.Outcome State Fault Refusal :=
  let sl := s.slots[i]
  if sl.regs.slotState = 1 && decide (sl.regs.order.toNat < sl.armRun) then
    .next (note Ev.slotArmed (srcSlot i) 0 0 0 (modAxis (slotAxis i) (fun ax => { ax with source := 4 })
      (modSlotRegs i (fun r => { r with
        slotState := 2, armedPour := pourNum s, lateRun := 0
        confirmed := 0, corrected := 0, resteeped := 0, overrun := 0, lateReleased := 0, held := 0 }) s)))
  else .next s

/-- An abandoned re-steep: the pour counts as overrun (R158). -/
def slotOverrun (i : Fin 32) (s : State) : State :=
  let sl := s.slots[i]
  raise Ev.steepOverrun (srcSlot i) sl.clsOverrun false ((pourNum s + 1).truncate 32) (countsOf s sl.residual.toInt) 0 (slotFollowers s i)
    (modSlot i (fun sl => { sl with resteep := none, outcome := some 3, regs := { sl.regs with overrunSeen := true } }) (drawn s))

end Sys2Proof.Machine
end

