-- ==== Sys2Proof/Machine/Enable.lean ====
section
/-! DEFINITION. AXIS_ENABLE with its refusals (R187, R212 and the enable rules of the chapters), and the stageable command
that an opcode names. -/

namespace Sys2Proof.Machine

/-- A loop of the axis runs on an engine in block reset (R62). -/
def onResetEngine (s : State) (t : Fin 16) : Bool :=
  (List.finRange 4).any fun l =>
    match loopPlace s (tileLoop t l) with
    | some (e, _, _) => s.power.blocks.contains (BitVec.ofNat 16 e.val)
    | none => false

/-- The refusals of R187, in its order, and of an enable while Kettle is GATED (R575). -/
def enableRefusal (s : State) (a : Fin 112) : BitVec 16 :=
  let ax := s.axes[a]
  if ax.fault then Status.axisFaulted
  else if axisVented s a then Status.axisVented
  else
    let cal := ((axisTile a).map fun t => calderaRefusal s t).getD Status.ok
    if cal ≠ Status.ok then cal
    else if s.ocp.ident.quarantined then Status.quarantined
    else if (axisTile a).isSome && snapshotOld s then Status.safetyRefused
    else if ((axisTile a).map fun t => onResetEngine s t).getD false then Status.blockInReset
    else if s.power.regs.kettleState = 3 then Status.thermalGated
    else Status.ok

/-- A maximum or stop limit is zero (R212). -/
def limitZero (r : AxisRegs) : Bool :=
  r.vMax = 0 || r.aMax = 0 || r.decMax = 0 || r.jMax = 0 || r.decStop = 0 || r.jStop = 0

/-- What the tile of an axis needs: its rates (R244), its DC-link group (R350), and what its mode asks for (R370, R373, R382,
R388, R398). -/
def tileRefusal (s : State) (t : Fin 16) : BitVec 16 :=
  let tl := s.tiles[t]
  let r := rateLoop s t
  let f := tl.foc.regs
  let v := tl.sv.regs
  if !tl.regs.localField && !rateFits s r.k.toNat then Status.loopRateInvalid
  else if tl.regs.dclMember && s.dcls[tl.regs.dcl.toFin].regs.vOvp = 0 then Status.dclUnconfigured
  else if tl.regs.mode = 1 then
    if f.iFsMa = 0 then Status.paramRange
    else if f.angleSrc && r.top = 0 then Status.sensorlessTop
    else if !f.angleSrc && !f.offsetValid && !f.alignAtEnable then Status.angleOffsetUnknown
    else Status.ok
  else if tl.regs.mode = 2 then
    if v.svIFsMa = 0 then Status.paramRange
    else if v.stallThr ≠ 0 && (v.coilR0 = 0 || v.coilL0 = 0 || v.coilR1 = 0 || v.coilL1 = 0) then Status.paramRange
    else Status.ok
  else if tl.regs.mode = 3 && v.svIFsMa = 0 then Status.paramRange
  else Status.ok

def checkAxisEnable (p : Packet) (s : State) : BitVec 16 :=
  let a := axOf p
  let st := enableRefusal s a
  if st ≠ Status.ok then st
  else if limitZero s.axes[a].regs then Status.paramRange
  else ((axisTile a).map fun t => tileRefusal s t).getD Status.ok

/-- Host input drives the axis: the configuration image names it for a record (R104). -/
def hostDriven (s : State) (a : Fin 112) : Bool := s.cyclic.recAxis.toList.any fun x => x.toNat = a.val

/-- The tile's part of an enable: its loops start from zero state, or its coils are measured first (R258, R405). -/
def enableTile (t : Fin 16) (s : State) : State :=
  let s := modTile t (fun tl => { tl with
    pw := { tl.pw with firstTick := false }
    sv := { tl.sv with frozen := false }
    foc := { tl.foc with regs := { tl.foc.regs with startTries := 0 } } }) s
  let s := if sensorless s (tileAxis t) then markUncertain (tileAxis t) s else s
  if s.tiles[t].regs.mode = 3 && s.tiles[t].sv.regs.measAtEnable then startMeasure t s else startLoops t s

/-- The axis is enabled: its set-point is its actual position, at rest (R187). -/
def applyAxisEnable (p : Packet) (s : State) : State :=
  let a := axOf p
  if s.axes[a].enabled then s
  else
    let host := hostDriven s a
    let s := modAxis a (fun ax => { (endFollow ax) with
      enabled := true, stopping := false, ramp := none, move := none, next := none, holdSince := none, restSince := none
      inPosition := false, slotStop := false, source := if host then 3 else 0, dSp := 0, confVel := 0
      regs := { ax.regs with spPos := ax.regs.actPos, spVel := 0, spAcc := 0 } }) s
    match axisTile a with
    | some t => enableTile t s
    | none => s
def stAxisEnable : StageOp := { d := axisOp 0x0406 .b .mode 0, check := checkAxisEnable, apply := applyAxisEnable }
/-- AXIS_ENABLE (R187). -/
def execAxisEnable (p : Packet) (s : State) : Host.Outcome State Fault Refusal := .next (stageRequest stAxisEnable p s)

/-- Every stageable command, and the commands that the module stages itself (R16). -/
def stageOps : List StageOp :=
  [stAxisEnable, stAxisConfig, stAxisDisable, stAxisLimitsSet, stCamEngage, stCamSwap]
  ++ [stCapConfig, stChopperConfig, stCoilMeasureConfig, stCoilParamSet, stDclConfig, stDitherSet]
  ++ [stEncConfig, stFaultClear, stFeedbackSelect, stFioConfig, stFioOutSet, stFocConfig]
  ++ [stFocModulationSet, stFocMotorSet, stFollowDisengage, stFreeLoopConfig, stGearChangeArm, stGearChangeCancel]
  ++ [stGearEngage, stGearRatioSet, stGearSourceSet, stGuMeasureSet, stHallTableSet, stHomeConfig]
  ++ [stHomeStart, stLeTickSet, stLimiterSet, stLoopCoefSet, stLoopModeSet, stLoopProgramSelect]
  ++ [stLoopRateSet, stLoopTopSet, stLoopTuningSet, stMasterLeadSet, stMotorIdentify, stMovePosition]
  ++ [stMoveStop, stMoveVelocity, stNtcConfig, stObserverConfig, stRegConfig, stRegEnable]
  ++ [stRegOffsetSet, stSdConfig, stSdclkConfig, stSincosConfig, stSlotArm, stSlotConfig]
  ++ [stSlotDisarm, stSoftLimitsSet, stSsiConfig, stStartConfig, stStepConfig, stStepTableSelect]
  ++ [stStopLimitsSet, stSupervisorConfig, stSvCurrentSet, stTileFaultInputSet, stTileModeSet, stTilePwmSet]
  ++ [stValveConfig, stBrakeClear]

/-- The stageable command of an opcode. -/
def stageOpOf (op : BitVec 16) : Option StageOp := stageOps.find? fun o => o.d.op = op

/-- A staged command writes a setting of a block under reset (R63). -/
def writesBlock (b : BitVec 16) (c : StagedCmd) : Bool :=
  match stageOpOf c.op with
  | some o => (o.d.block (tgt c.p)).map (BitVec.ofNat 16) = some b
  | none => false

end Sys2Proof.Machine
end

