-- ==== Sys2Proof/Machine/BlockReset.lean ====
section
/-! DEFINITION. Block resets and the end of a reset episode that leaves the module running (R33, R63, R312, R561, R563, R566). -/

namespace Sys2Proof.Machine

/-- The kinds of block that BLOCK_RESET names by its target (R566). -/
inductive Block where
  | engine (e : Fin 32)
  | unit (u : Fin 8)
  | can (n : Fin 4)
  | port (p : Fin 4)
  | trace (u : Fin 4)
deriving DecidableEq, Repr

/-- The block of a target; none for any other target. -/
def blockNamed (n : Nat) : Option Block :=
  if n < 0x100 then (asFin 32 n).map .engine
  else if n < 0x200 then (asFin 8 (n - 0x100)).map .unit
  else if n < 0x300 then (asFin 4 (n - 0x200)).map .can
  else if n < 0x400 then (asFin 4 (n - 0x300)).map .port
  else (asFin 4 (n - 0x400)).map .trace

/-- The source ID of a block (R26, R566). -/
def blockSrc : Block → BitVec 16
  | .engine e => srcEngine e
  | .unit u => srcGu u
  | .can n => srcCan n
  | .port p => srcPort p
  | .trace u => srcTrace u

def sumWord (l : List Word) : Word := natWord (min 0xFFFFFFFF ((l.map (·.toNat)).foldl (· + ·) 0))

/-- The counts of a block at its reset: P0, P1, P2 and then those of the report only (R566). -/
def blockCounts (s : State) : Block → List Word
  | .engine e =>
    let en := s.engines[e]
    let runs := en.ticks.toList.map (·.regs.overrunCount)
    [en.regs.eccCorrProg, en.regs.eccCorrData, sumWord runs, en.regs.eccCorrPort] ++ runs
  | .unit u =>
    let g := s.geyser.units[u]
    [g.regs.trigAccepted, g.regs.recordsWritten, satAdd g.regs.recordsLost (if g.trig.isSome then 1 else 0)]
      ++ [g.regs.ignoredPretrig, g.regs.ignoredBusy]
  | .can n =>
    let c := s.cans[n]
    [c.regs.txRequested, c.regs.completeCount[8], sumWord (c.rxq.toList.map (·.rxOvfCount))] ++ c.regs.completeCount.toList
  | .port p =>
    let x := s.link.ports[p]
    let r := x.regs
    [x.sentFrags.zeroExtend 32, x.returned.zeroExtend 32, r.txCredits.zeroExtend 32]
      ++ [r.codeViolCount, r.slotCrcErrCount, r.fragCrcErrCount, r.creditRecoveredCount, r.linkDownCount]
  | .trace u => [s.traces[u].regs.recordsWritten, s.traces[u].regs.ignoredPretrig, 0]
/-- How many they are. -/
def blockCountLen : Block → Nat
  | .engine _ => 20 | .unit _ => 5 | .can _ => 12 | .port _ => 8 | .trace _ => 3

/-- A loop goes OFF, and with loop 4a the field control of its tile (R312, R387). -/
def resetLoop (s : State) (i : Fin 96) : State :=
  let s := modLoop i loopOff s
  match loopTile i with
  | some t => if i.val % 4 = 0 then modTile t (fun tl => { tl with foc := focExit tl.foc }) (abortIdent t s) else s
  | none => s
/-- An engine enters its reset: its operations end, its loops go OFF, its axes take the class of LE_FAULT (R312). -/
def closeEngine (e : Fin 32) (s : State) : State :=
  let en := s.engines[e]
  let axs := engineAxes en
  let s := endOps (fun o => o.op = 0x0703 && o.target.toNat = e.val) Status.blockResetEnded s
  let s := stopFree e ((engineLoops en).foldl resetLoop s)
  let s := modEngine e (fun en => { (clearEngineCounters (holdEngine en)) with eccAt := none }) s
  react en.clsFault Ev.leFault (srcEngine e) axs (axs.foldl (fun s a => latchFault Ev.leFault false a s) s)

/-- The port's counts start again from zero (R33). -/
def zeroPort (x : Port) : Port :=
  { x with
    sentFrags := 0, returned := 0, goodFrags := 0, gSeen := 0, auditSent := none, crcSince := 0, crcAt := none
    regs := { x.regs with
      codeViolCount := 0, slotCrcErrCount := 0, fragCrcErrCount := 0, creditRecoveredCount := 0, linkDownCount := 0 } }

/-- The block is reset; its completions owed are delivered (R33, R566). -/
def closeBlock (b : Block) (s : State) : State :=
  match b with
  | .engine e => closeEngine e s
  | .unit u => resetGu u s
  | .can n => modCan n (fun _ => {}) s
  | .port p => modPort p zeroPort (portDown p (declareBreak p (unsent s)))
  | .trace u => modTrace u resetTrace s

/-- The reset of a block: its completions owed come first where they change its counts, the counts are kept for the report,
the wrapper closes, and the sets that write the block's settings are refused (R63, R566). -/
def assertBlock (target : BitVec 16) (b : Block) (s : State) : State :=
  let s := match b with
    | .can n => endCan n s
    | _ => s
  let words := blockCounts s b
  let s := closeBlock b s
  let s := discardSets (fun x => x.cmds.any (writesBlock target)) s
  bumpPower (·.blockResetCount) (fun r v => { r with blockResetCount := v }) (modPower (fun p => { p with
    blocks := target :: p.blocks, blocksAt := (target, s.dt) :: p.blocksAt, reach := some (p.reach.getD .block)
    reports := { target := target, words := words } :: p.reports.filter fun r => r.target ≠ target }) s)

/-- The counts kept for a block. -/
def reportOf (s : State) (target : BitVec 16) : Option (List Word) :=
  (s.power.reports.find? fun r => r.target = target).map (·.words)

/-- A block leaves its reset: an engine restarts, BLOCK_RESET_DONE is raised and the operation ends (R312, R566). -/
def openBlock (target : BitVec 16) (s : State) : State :=
  match blockNamed target.toNat with
  | none => s
  | some b =>
    let s := modPower (fun p => { p with
      blocks := p.blocks.filter (· ≠ target), blocksReleased := p.blocksReleased.filter (· ≠ target)
      blocksAt := p.blocksAt.filter (·.1 ≠ target) }) s
    let s := match b with
      | .engine e => reloadEngine e s
      | _ => s
    let w := (reportOf s target).getD []
    let s := note Ev.blockResetDone (blockSrc b) (w.getD 0 0) (w.getD 1 0) (w.getD 2 0) s
    endOps (fun o => o.op = 0x0F02 && o.target = target) Status.ok s

/-- The episode ends once every asserted source has been released, and only then do the bring-ups run: of the control plane
where the episode reached it, and of each block added (R561). -/
def endEpisode (s : State) : State :=
  let p := s.power
  if (p.cpReset && !p.cpReleased) || p.blocks.any fun b => !p.blocksReleased.contains b then s
  else
    let s := if p.cpReset then controlBringUp (recordEpisode s) else s
    let s := p.blocks.reverse.foldl (fun s b => openBlock b s) s
    tellDiscarded (modPower (fun p => { p with reach := none, sources := 0 }) s)

/-- CP_RESET_RELEASE (R563): 50 us after the assertion. -/
def execCpResetRelease (s : State) : Host.Outcome State Fault Refusal :=
  .next (if s.power.cpReset && !s.power.cpReleased && hasPassed s.power.cpAt 50000 s then endEpisode (modPower (fun p => { p with cpReleased := true }) s) else s)

/-- BLOCK_RESET_RELEASE (R566): 10 us after the reset of the block. -/
def execBlockResetRelease (target : BitVec 16) (s : State) : Host.Outcome State Fault Refusal :=
  let isOver := (s.power.blocksAt.find? (·.1 = target)).all fun x => hasPassed x.2 10000 s
  .next (if s.power.blocks.contains target && !s.power.blocksReleased.contains target && isOver then
      endEpisode (modPower (fun p => { p with blocksReleased := target :: p.blocksReleased }) s)
    else s)

/-! ### Commands (R580) -/

def blockOp (op : BitVec 16) (cls : ReplyClass) : OpDesc :=
  { op := op, cls := cls, target := fun n => (blockNamed n).isSome, params := (· = 0) }

def dBlockReset : OpDesc := { blockOp 0x0F02 .c with block := some }
/-- An engine or a trace unit is in reset with the control plane as well. -/
def acceptBlockReset (p : Packet) (s : State) : BitVec 16 :=
  match blockNamed (tgt p) with
  | some (.engine _) | some (.trace _) => if s.power.cpReset then Status.blockInReset else Status.ok
  | _ => Status.ok
def runBlockReset (p : Packet) (s : State) : Reply :=
  match blockNamed (tgt p) with
  | some b => startOp 0x0F02 p (assertBlock p.target b s)
  | none => answer Status.badTarget s
/-- BLOCK_RESET (R566): class C, ended at BLOCK_RESET_RELEASE. -/
def execBlockReset (p : Packet) (s : State) : Host.Outcome State Fault Refusal :=
  .next (request dBlockReset acceptBlockReset runBlockReset p s)

def dBlockResetReport : OpDesc := blockOp 0x0F03 .a
/-- The counts of the last reset; of a block that has had none the spec states no counts, and they are free words. -/
def runBlockResetReport (p : Packet) (s : State) : Reply :=
  match reportOf s p.target with
  | some ws => okWith ws s
  | none =>
    let (ws, t) := freeWords (((blockNamed (tgt p)).map blockCountLen).getD 0) s
    okWith ws t
/-- BLOCK_RESET_REPORT (R566). -/
def execBlockResetReport (p : Packet) (s : State) : Host.Outcome State Fault Refusal :=
  .next (request dBlockResetReport acceptAny runBlockResetReport p s)

end Sys2Proof.Machine
end

