-- ==== Sys2Proof/Machine/Commit.lean ====
section
/-! DEFINITION. CONFIG_COMMIT_COMPLETE: a configuration image is applied whole or not at all, and positions are restored from
the vault (R93, R314, R558, R574). -/

namespace Sys2Proof.Machine

/-! ### Fields of the image (R93) -/

/-- A field of an axis block. -/
def loadAxisWord (a : Fin 112) (o : Nat) (v : Word) (s : State) : State :=
  if o < 0x200 then modAxis a (fun x => { x with regs := loadAxisRegs x.regs o v }) s
  else if o < 0x300 then modAxis a (fun x => { x with follow := loadFollowRegs x.follow o v }) s
  else if 0x3C0 ≤ o then modAxis a (fun x => { x with steep := loadStageSteepRegs x.steep o v }) s
  else match asFin 32 (a.val - 80) with
    | some i => if 80 ≤ a.val then modSlot i (fun x => { x with regs := loadSlotRegs x.regs o v }) s else s
    | none => s

/-- A field of a loop block; LAG_MAX is the axis's. -/
def loadLoopWord (i : Fin 96) (o : Nat) (v : Word) (s : State) : State :=
  match o, loopAxis i with
  | 0x1B0, some a => modAxis a (fun x => { x with lagMax := x.lagMax.extractLsb' 32 32 ++ v }) s
  | 0x1B4, some a => modAxis a (fun x => { x with lagMax := v ++ x.lagMax.extractLsb' 0 32 }) s
  | _, _ => modLoop i (fun x => { x with regs := loadLoopRegs x.regs o v }) s

def loadTileWord (t : Fin 16) (o : Nat) (v : Word) (s : State) : State :=
  if o < 0x400 then modTile t (fun x => { x with regs := loadTileRegs x.regs o v }) s
  else if o < 0x500 then modTile t (fun x => { x with foc := { x.foc with regs := loadFocRegs x.foc.regs o v } }) s
  else if o < 0x600 then s
  else modTile t (fun x => { x with sv := { x.sv with regs := loadSvRegs x.sv.regs o v } }) s

/-- A field of an encoder interface; a transducer that the image sets is configured (R435). -/
def loadEncWord (e : Fin 17) (o : Nat) (v : Word) (s : State) : State :=
  modEnc e (fun x => { x with
    regs := loadEncRegs x.regs o v
    ssiSet := x.ssiSet || (decide (0x40 ≤ o) && decide (o < 0x5C))
    sincosSet := x.sincosSet || (decide (0x80 ≤ o) && decide (o < 0x98)) }) s

def loadFeedbackWord (o : Nat) (v : Word) (s : State) : State :=
  if o < 0x1400 then
    match asFin 160 (o / 0x20) with
    | some c => modSd c (fun x => { x with regs := loadSdRegs x.regs (o % 0x20) v }) s
    | none => s
  else if 0x2000 ≤ o && o < 0x2020 then
    match asFin 8 ((o - 0x2000) / 4) with
    | some k => { s with sdClks := upd s.sdClks k fun _ => { div := v.extractLsb' 0 7, en := v.getLsbD 8 } }
    | none => s
  else if 0x4000 ≤ o && o < 0x5100 then
    match asFin 17 ((o - 0x4000) / 0x100) with
    | some e => loadEncWord e (o % 0x100) v s
    | none => s
  else s

def loadPowerWord (o : Nat) (v : Word) (s : State) : State :=
  if 0x400 ≤ o && o < 0x600 then
    match asFin 16 ((o - 0x400) / 0x20) with
    | some t => modTile t (fun x => { x with ntc := loadNtcRegs x.ntc (o % 0x20) v }) s
    | none => s
  else if 0x800 ≤ o && o < 0x940 then
    match asFin 80 ((o - 0x800) / 4) with
    | some a => modPower (fun p => { p with policies := upd p.policies a fun x => loadVaultPolicyRegs x 0 v }) s
    | none => s
  else s

/-- A staged or locked field takes the word that the image gives at its window address. -/
def loadField (a : Nat) (v : Word) (s : State) : State :=
  if 0x100000 ≤ a && a < 0x200000 then
    match asFin 112 ((a - 0x100000) / 0x400) with
    | some x => loadAxisWord x (a % 0x400) v s
    | none => s
  else if 0x200000 ≤ a && a < 0x210000 then
    match asFin 96 ((a - 0x200000) / 0x200) with
    | some i => loadLoopWord i (a % 0x200) v s
    | none => s
  else if 0x1000000 ≤ a && a < 0x1010000 then
    match asFin 16 ((a - 0x1000000) / 0x1000) with
    | some t => loadTileWord t (a % 0x1000) v s
    | none => s
  else if 0x1010000 ≤ a && a < 0x1100000 then
    match asFin 4 ((a - 0x1010000) / 0x100) with
    | some g => modDcl g (fun x => { x with regs := loadDclRegs x.regs (a % 0x100) v }) s
    | none => s
  else if 0x1100000 ≤ a && a < 0x1200000 then loadFeedbackWord (a - 0x1100000) v s
  else if 0x1200000 ≤ a && a < 0x1200600 then
    match asFin 48 ((a - 0x1200000) / 0x20) with
    | some c => modCap c (fun x => { x with regs := loadCapRegs x.regs (a % 0x20) v }) s
    | none => s
  else if 0x1400000 ≤ a && a < 0x1400300 then
    match asFin 24 ((a - 0x1400000) / 0x20) with
    | some c => modFio c (fun x => { x with regs := loadFioRegs x.regs (a % 0x20) v }) s
    | none => s
  else if 0x1700000 ≤ a && a < 0x2000000 then loadPowerWord (a - 0x1700000) v s
  else s

/-- All fields of the image.  An axis whose kind or modulus they change has its position re-expressed (R611). -/
def loadFields (ws : List (BitVec 32 × Word)) (s0 : State) : State :=
  let s := ws.foldl (fun s x => loadField x.1.toNat x.2 s) s0
  (List.finRange 112).foldl (fun s a =>
    let o := s0.axes[a].regs
    let n := s.axes[a].regs
    if o.kind = n.kind && o.modulus = n.modulus then s
    else reexpress a n.kind n.modulus
      (modAxis a (fun x => { x with regs := { x.regs with kind := o.kind, modulus := o.modulus } }) s)) s

/-! ### Engine images (R313, R314, R574) -/

def imageLoad (ws : List Word) : EngineLoad := { size := ws.length, crc := crcWords ws, data := memPutWords [] 0 ws }
/-- The clock code of an engine image. -/
def imageClock (ws : List Word) : BitVec 4 := (ws.getD 2 0).extractLsb' 0 4
/-- An engine image with a good header for its engine. -/
def engineImageOk (x : Fin 32 × List Word) : Bool :=
  let w1 := x.2.getD 1 0
  let prog := w1.toNat % 16384
  let data := (w1 >>> 16).toNat % 16384
  crcWords (x.2.take 0x7F) = x.2.getD 0x7F 0 && x.2.getD 0 0 = 0x4C450001 && prog ≠ 0 && decide (prog ≤ 8192)
    && decide (data ≤ 12288) && x.2.length = 128 + prog + data && ((x.2.getD 2 0).extractLsb' 8 5).toNat = x.1.val
    && decide (1 ≤ (imageClock x.2).toNat) && decide ((imageClock x.2).toNat ≤ 4)
/-- Class R: at most 16 engines, none at 600 MHz (R574). -/
def classOk (img : ConfigImage) : Bool :=
  img.classF || (decide (img.engines.length ≤ 16) && img.engines.all fun x => (imageClock x.2).toNat ≤ 3)

/-- The engines take the image's programs; those without one stay held. -/
def loadEngines (img : ConfigImage) (s : State) : State :=
  let s := (List.finRange 32).foldl (fun s e => modEngine e (fun en => { (holdEngine en) with image := none }) s) s
  img.engines.foldl (fun s x => reloadEngine x.1 (installImage x.1 (imageLoad x.2)
    (modEngine x.1 (fun en => { en with regs := { en.regs with clock := imageClock x.2 } }) s))) s

/-! ### Positions from the vault (R558) -/

/-- Why a copy restores nothing: 0 it passes, 1 its CRC, 2 stale, 3 another image, 4 another module. -/
def copyCause (crc : Word) (s : State) (c : SaveCopy) : Nat :=
  if !c.good then 1 else if c.stale then 2 else if c.imageCrc ≠ crc then 3
  else if c.moduleId ≠ s.ocp.ident.moduleId then 4 else 0
/-- The newest copy that passes. -/
def restoreCopy (crc : Word) (s : State) : Option SaveCopy :=
  let v := s.power.vault
  let ok (c : SaveCopy) : Bool := copyCause crc s c = 0
  if ok v.copyA && ok v.copyB then some (if v.copyA.seq < v.copyB.seq then v.copyB else v.copyA)
  else if ok v.copyA then some v.copyA else if ok v.copyB then some v.copyB else none

/-- VAULT_POLICY in effect: ABS_CHECK needs an absolute source and a saved field, else it acts as UNCERTAIN. -/
def restorePolicy (s : State) (a : Fin 80) (c : SavedAxis) : Nat :=
  let p := s.power.policies[a].vaultPolicy.toNat
  let abs := ((axisTile (a.castLE (by decide))).map fun t =>
    2 ≤ s.encs[tileEnc t].regs.fbSrc.toNat && s.encs[tileEnc t].regs.fbSrc.toNat ≤ 3).getD false
  if p = 3 && !(abs && c.field.isSome) then 1 else p

/-- One axis takes its saved position, as a re-reference. -/
def restoreAxis (n : Fin 80) (c : SavedAxis) (s : State) : State :=
  let a : Fin 112 := n.castLE (by decide)
  let p := restorePolicy s n c
  if p = 0 then modAxis a (fun ax => { ax with homed := false }) s
  else
    let ax := s.axes[a]
    let u := if ax.regs.kind then c.turns.toInt * modRaw ax + c.pos.toInt else c.pos.toInt
    let s := rereference a (u - unwrapped ax) s
    let s := modAxis a (fun ax => { ax with
      homed := p ≠ 1 && c.status.getLsbD 3, uncertain := p = 1 || c.status.getLsbD 5
      regs := { ax.regs with actPos := c.pos, turns := if ax.regs.kind then c.turns else 0, spPos := c.pos } }) s
    match axisTile a with
    | some t => modEnc (tileEnc t) (fun en => { en with absCheck := if p = 3 then c.field else none }) s
    | none => s

def vaultRestore (crc : Word) (s : State) : State :=
  match restoreCopy crc s with
  | some c =>
    let n := ((List.finRange 80).filter fun a => restorePolicy s a c.axes[a] ≠ 0).length
    note Ev.vaultRestored srcMgmt (natWord n) 0 0 ((List.finRange 80).foldl (fun s a => restoreAxis a c.axes[a] s) s)
  | none =>
    let cause := match newestCopy s.power.vault with
      | some c => copyCause crc s c
      | none => 1
    note Ev.vaultRestoreSkipped srcMgmt (natWord cause) 0 0 s

/-! ### The commit (R93) -/

/-- The running map that a segment map starts as: commissioned IDs and code hashes (R134, R136). -/
def mapOf (m : List (BitVec 64 × BitVec 256)) : Vector MapEntry 65 :=
  Vector.ofFn fun i : Fin 65 =>
    match m[i.val]? with
    | some x => { commissioned := x.1, codeHash := x.2 }
    | none => {}
/-- A ring takes its map; a map ends the acceptance list (R136). -/
def loadMap (r : Fin 2) (m : Option (List (BitVec 64 × BitVec 256))) (s : State) : State :=
  match m with
  | none => s
  | some m => modLink (fun l => { l with acceptList := [] }) (modLinkRing r (fun x => { x with map := mapOf m }) s)
/-- RING_ROLE of a port under the plan (R149). -/
def ringRole (s : State) (port : Fin 4) : BitVec 2 :=
  match ringOf s port with
  | some r => if isEast s r port then 2 else 1
  | none => 0
/-- The link's part: the plan and the roles of the ports, the capabilities and the segment maps.  A new plan is a new segment
start: segment 0 has no master until it is elected; a child segment has the bridge that the plan names, and this module masters
the child segment that the plan gives it if it may be a bridge (R110 to R112). -/
def loadLink (img : ConfigImage) (s : State) : State :=
  let pl := img.plan.getD {}
  let id := s.ocp.ident.moduleId
  let bridge := pl.child.any fun c => c.bridgeId = id && img.roles.2.1
  let gm := s.time.regs.roleGm
  let s := { s with link := { s.link with
    plan := pl, priority := img.priority, mayMaster := img.roles.1, mayBridge := img.roles.2.1, mayGrand := img.roles.2.2
    population := img.population
    rings := #v[{ map := s.link.rings[0].map }, { map := s.link.rings[1].map, master := bridge }]
    seg := { s.link.seg with
      segNum := pl.own.segNum, ringPos := pl.own.pos, nModules := pl.own.n, bridge := pl.child.isSome, planCrc := pl.crc
      segMaster := bridge, grandmaster := false, masterId := pl.own.bridgeId, ringState := 0 } } }
  let s := if gm then modTimeRegs (fun t => { t with roleGm := false, source := 1 }) s else s
  let s := (List.finRange 4).foldl (fun s p => modPortRegs p (fun x => { x with ringRole := ringRole s p }) s) s
  loadMap 1 img.childMap (loadMap 0 img.map s)

/-- Every field that a block derives from the fields loaded: coefficients in their contexts, tiles with a mode out of
UNCONFIGURED (R321), counts from the sources in force. -/
def settleImage (s : State) : State :=
  let s := (List.finRange 96).foldl (fun s i => fillCoefs i s) s
  let s := (List.finRange 16).foldl (fun s t =>
    writeTileStatus t (modTile t (fun tl => if tl.regs.mode ≠ 0 && tl.regs.tileState = 0 then setTileState 1 tl else tl) s)) s
  { s with encs := s.encs.map fun en => { en with lastC := srcCount en, tickC := srcCount en } }

/-- A checked image is applied whole. -/
def applyImage (crc : Word) (img : ConfigImage) (s : State) : State :=
  let s := loadLink img (loadFields img.writes s)
  let s := { s with
    cyclic := { s.cyclic with recAxis := Vector.ofFn fun i : Fin 64 => img.recAxis.getD i.val 0xFF }
    power := { s.power with imageCrc := crc, regs := { s.power.regs with kettleClass := img.classF } }
    ocp := { s.ocp with config := none, ident := { s.ocp.ident with configCommitted := true } } }
  note Ev.configCommitted srcMgmt 0 0 0 (vaultRestore crc (settleImage (loadEngines img s)))

/-- The image that the load area holds, checked. -/
def commitImage (img : Option ConfigImage) (s : State) : Option (Word × ConfigImage) :=
  match s.ocp.config, img with
  | some l, some i => if loadCrcOk l && i.engines.all engineImageOk && classOk i && i.plan.all planOk then some (l.crc, i) else none
  | _, _ => none

/-- The first engine whose image places a current loop outside its tile's cluster, and the tile (R13). -/
def strayLoop (img : ConfigImage) : Option (Fin 32 × Fin 16) :=
  img.engines.findSome? fun x => (strayTile x.1 (imageLoad x.2)).map fun t => (x.1, t)

/-- CONFIG_COMMIT_COMPLETE (R93): the image is applied whole, or none of it.  An image that places a current loop outside its
tile's cluster is refused with LE_IMAGE_CLUSTER; IMAGE_CHECK of the engine names the tile, as R314 has it name the tile of an
engine image (R13). -/
def execConfigCommitComplete (img : Option ConfigImage) (s : State) : Host.Outcome State Fault Refusal :=
  if !s.ocp.ops.any fun o => o.op = 0x0112 then .next s
  else
    let done (st : BitVec 16) (s : State) : State := endOps (fun o => o.op = 0x0112) st s
    match commitImage img s with
    | some (crc, i) =>
      match strayLoop i with
      | some (e, t) => .next (done Status.leImageCluster (modEngine e (fun en => { en with
          regs := { en.regs with imageCheck := BitVec.ofNat 16 t.val } }) s))
      | none => .next (done Status.ok (applyImage crc i s))
    | none => .next (done Status.imageInvalid s)

end Sys2Proof.Machine
end

