-- ==== Sys2Proof/Machine/Ticks.lean ====
section
/-! DEFINITION. Firing and entry of engine ticks: the table's occurrences, the latches at a due edge, the context words of an
entry, the loops that it runs, and the supervisors (R268 to R270, R297 to R304, R424). -/

namespace Sys2Proof.Machine

/-! ### Firing (R297 to R299) -/

/-- The tile whose axis's current tick an entry names (kinds 1 and 4). -/
def tickTile (tk : TickRegs) : Option (Fin 16) :=
  if tk.sourceKind = 1 || tk.sourceKind = 4 then asFin 16 tk.sourceNum.toNat else none
/-- The entry holds the tile's loop 4a: its occurrences are the current ticks of the axis. -/
def holdsCurrent (tk : TickRegs) (t : Fin 16) : Bool := (entryLoops tk).any fun x => x.2 = tileLoop t 0

/-- Due edge of an occurrence: current tick j of the pour cycle, the pour point, or this instant (R245). -/
def tickDue (s : State) (tk : TickRegs) (j : Nat) : Fix :=
  let p := pourAt s (pourNum s).toNat
  if tk.sourceKind = 1 then
    match tickTile tk with
    | some t => currentDue s t j
    | none => p + BitVec.ofNat 96 (j * pourLen s * 2 / 5 * 0x280000000)
  else if tk.sourceKind = 2 then p else s.dt

/-- The period that starts holds a position-loop tick of the local tile. -/
def tickPeriod (s : State) (t : Fin 16) : Bool :=
  let r := rateLoop s t
  let n := max 1 r.localDiv.toNat * max 1 r.kv.toNat * max 1 r.kpDiv.toNat
  s.tiles[t].regs.periodCount.toNat % n = 0
/-- Header words 0x00 to 0x0C of an entry's context: the set-point, the position and the pour number (R303, R305). -/
def fillEntry (e : Fin 32) (k : Fin 16) (s : State) : State :=
  let tk := s.engines[e].ticks[k].regs
  let p := (pourNum s).truncate 32
  let ws := match ((entryLoops tk).head?.bind fun x => loopAxis x.2) with
    | some a =>
      let r := s.axes[a].regs
      words96 r.spPos ++ words96 r.spVel ++ words96 r.spAcc ++ words96 r.actPos ++ [p]
    | none => List.replicate 12 0 ++ [p]
  stagingWrite e (some k) tk.tickCtx.toNat ws s
/-- The axis of an entry is in local mode: its contexts are filled at its position-loop ticks (R247). -/
def localEntry (s : State) (tk : TickRegs) : Bool :=
  match ((entryLoops tk).head?.bind fun x => loopTile x.2) with
  | some t => s.tiles[t].regs.localField
  | none => false
/-- At a position-loop tick of a local-mode axis its loops take the poured set-point in (R189, R247). -/
def takeLocal (t : Fin 16) (tk : TickRegs) (due : Fix) (s : State) : State :=
  if tk.sourceKind ≠ 4 || !tickPeriod s t then s
  else
    let s := modAxis (tileAxis t) (fun ax => { ax with
      takenPos := ax.regs.spPos, takenVel := ax.regs.spVel, takenAcc := ax.regs.spAcc, takenAt := due }) s
    (List.finRange 32).foldl (fun s e => (List.finRange 16).foldl (fun s k =>
      let x := s.engines[e].ticks[k].regs
      if x.sourceKind ≠ 0 && s.engines[e].regs.leState = 2
          && ((entryLoops x).head?.bind fun y => loopTile y.2) = some t then fillEntry e k s else s) s) s

/-- The tile's encoder interface counts the current ticks since the pour point (R427). -/
def noteTick (t : Fin 16) (tk : TickRegs) (j : Nat) (due : Fix) (s : State) : State :=
  modEnc (tileEnc t) (fun en => { en with
    tickJ := some (if tk.sourceKind = 1 then j else (en.tickJ.map (· + 1)).getD 0), tickAt := due }) s
/-- What the due edge of a current tick does outside the engine: the interface of the tile and MENC latch, which at tick 0
the pour point has done already (R424, R425), and a stepper takes its target (R391). -/
def tickEdge (tk : TickRegs) (j : Nat) (due : Fix) (s : State) : State :=
  match tickTile tk with
  | none => s
  | some t =>
    if !holdsCurrent tk t then s
    else
      let s := noteTick t tk j due (takeLocal t tk due s)
      let s := if tk.sourceKind = 1 && j = 0 then s else histLatch t due (encLatch 16 due (encLatch (tileEnc t) due s))
      stepTake t due s

/-- The occurrence fires the entry. -/
def tickFires (s : State) (x : TickEntry) (j : Nat) : Bool :=
  let d := x.regs.div.toNat + 1
  let n := if x.regs.sourceKind = 1 then j else if x.regs.sourceKind = 2 then (pourNum s).toNat else x.occ
  n % d = x.regs.phase.toNat

/-- TICK_OVERRUN (R299): the firing is skipped. -/
def tickOverrun (e : Fin 32) (k : Fin 16) (raises : Bool) (s : State) : State :=
  let n := satInc s.engines[e].ticks[k].regs.overrunCount
  let s := modEngine e (fun en => { en with
    ticks := upd en.ticks k fun x => { x with regs := { x.regs with overrunCount := n } }
    regs := { en.regs with
      overrunSeen := true, cntOvf := en.regs.cntOvf || satFull s.engines[e].ticks[k].regs.overrunCount } }) s
  if !raises then s
  else
    let en := s.engines[e]
    let axs := ((entryLoops en.ticks[k].regs).filterMap fun x => loopAxis x.2).eraseDups
    raise Ev.tickOverrun (srcEngine e) en.clsOverrun false (natWord k.val) n 0 axs s

/-- The entry is fired: it becomes pending, or the firing is skipped or discarded. -/
def fireEntry (e : Fin 32) (k : Fin 16) (j : Nat) (due : Fix) (s : State) : State :=
  let en := s.engines[e]
  let x := en.ticks[k]
  let ls := entryLoops x.regs
  if !ls.isEmpty && ls.all fun l => loopIsOff s l.2 then s
  else if en.regs.leState = 4 then
    tickOverrun e k (!en.haltOverrun) (modEngine e (fun en => { en with haltOverrun := true }) s)
  else if en.regs.leState ≠ 2 then s
  else if x.pending || en.running = some k then tickOverrun e k true s
  else modEngine e (fun en => { en with ticks := upd en.ticks k fun x => { x with pending := true, due := due, j := j } }) s

/-- An occurrence of the source of entry k, with the number of the current tick in its pour cycle. -/
def occurs (e : Fin 32) (k : Fin 16) (j : Nat) (s : State) : State :=
  let x := s.engines[e].ticks[k]
  let due := tickDue s x.regs j
  let fires := tickFires s x j
  let n := if x.regs.sourceKind = 1 then j else x.occ
  let s := tickEdge x.regs j due s
  let s := (entryLoops x.regs).foldl (fun s l => takeDirects l.2 due s) s
  let s := modEngine e (fun en => { en with ticks := upd en.ticks k fun x => { x with occ := x.occ + 1 } }) s
  if fires then fireEntry e k n due s else s
/-- TICK_FIRING (R297).  The occurrences of a compare unit are COMPARE_FIRE's; a pour cycle has current ticks 0 to K - 1 (R245),
and a local tile one in LOCAL_DIV carrier periods (R247). -/
def execTickFiring (e : Fin 32) (k : Fin 16) (j : Nat) (s : State) : Out9 :=
  let x := s.engines[e].ticks[k]
  let none_ := match tickTile x.regs with
    | some t =>
      let r := rateLoop s t
      if x.regs.sourceKind = 1 then decide (max 1 r.k.toNat ≤ j)
      else s.tiles[t].regs.periodCount.toNat % max 1 r.localDiv.toNat ≠ 0
    | none => false
  .next (if !x.regs.en || x.regs.sourceKind = 0 || x.regs.sourceKind = 3 || none_ then s else occurs e k j s)

/-! ### Supervisors (R268 to R270) -/

/-- The supervisor of the axis stays inactive (R270). -/
def supIdle (s : State) (t : Fin 16) : Bool :=
  let a := tileAxis t
  let tl := s.tiles[t]
  let homing : Bool := (s.axes[a].home).any fun h => h.method = 9 || h.method = 10
  !s.axes[a].enabled || homing || tl.foc.regs.identifying || (tl.regs.mode = 1 && tl.foc.regs.startState ≠ 7)
    || (List.finRange 4).any fun l => s.loops[tileLoop t l].regs.loopMode = 1

/-- The dead zone of width w, in units of 2^-149. -/
def deadZone (u w : Int) : Int := if w < u then u - w else if u < -w then u + w else 0

/-- The rotary model's prediction at a tick of the velocity loop, in its node units, from the q current, the speed predicted last
and the load estimate (R268); free where KA is zero or less. -/
def rotaryPred (k : Nat) (s : State) (t : Fin 16) (i : Fin 96) : Int :=
  let l := s.loops[i]
  let r := l.regs
  let w := l.supPred.toInt
  let sh : Nat := (clampInt (-16) 15 r.inShift.toInt + 16).toNat
  let (n, d) := tickLen s t
  let ka := f149 r.supKaKq
  let sign : Int := if 0 < w then 1 else if w < 0 then -1 else 0
  let x := (nodeWord s (tileLoop t 0) 1).toInt * 2 ^ 165 - f149 r.supKbDb * w * 2 ^ sh - f149 r.supKf * sign * 2 ^ 16
    - l.supLoad.toInt * 2 ^ 165
  if ka ≤ 0 then (BitVec.ofNat 32 (Config.freeNat k)).toInt
  else w + roundAt k ((n * max 1 (rateLoop s t).kv.toNat : Nat) * x) ((d * 10 ^ 9 : Nat) * ka * 2 ^ sh)
/-- The load estimate moves in the direction of measured less predicted speed; its gain G is open, so by how much is free. -/
def rotaryLoad (k : Nat) (l : Loop) (err : Int) : Word :=
  sat32 (l.supLoad.toInt + (if 0 < err then (Config.freeNat k : Int) else if err < 0 then -(Config.freeNat k : Int) else 0))

/-- What the supervisor of loop i measures, and what it predicts (R268). -/
def supSides (s : State) (t : Fin 16) (i : Fin 96) : Int × Int :=
  let r := s.loops[i].regs
  let k := s.freeCtr
  if r.supModel = 1 then ((nodeWord s i 1).toInt, rotaryPred k s t i)
  else if r.supModel = 2 then
    let u := (nodeWord s i 8).toInt * 2 ^ 149
    (roundAt (k + 1) (velocityFb s t) (2 ^ 32), roundAt k (f149 r.supKaKq * deadZone u (f149 r.supKbDb)) (2 ^ 149 * 2 ^ 149))
  else
    let f := s.tiles[t].foc
    if abs32 f.omegaObs < f.regs.obsMinSpeed.toNat then (0, 0)
    else (roundAt k (f.regs.thetaObs - f.regs.thetaE).toInt 65536, 0)

/-- Nodes 10 and 11 of the loop's context (R253). -/
def supShow (i : Fin 96) (s : State) : State :=
  match loopPlace s i with
  | some (e, _, c) => ctxPuts e c 0x0A [s.loops[i].supRes, s.loops[i].supPred] s
  | none => s
/-- The residual's filter and the run above the threshold, at a tick of the watched loop (R269): the filtered value lies
between the last one and the residual. -/
def supTick (t : Fin 16) (i : Fin 96) (model : BitVec 2) (s : State) : State :=
  let l := s.loops[i]
  if l.regs.supModel ≠ model then s
  else if supIdle s t then
    modLoop i (fun l => { l with supSince := none, regs := { l.regs with supActive := false } }) s
  else
    let (meas, pred) := supSides s t i
    if !l.regs.supActive then
      supShow i (modLoop i (fun l => { l with
        supPred := sat32 meas, supLoad := 0, supRes := 0, supSince := none, regs := { l.regs with supActive := true } }) (drew 2 s))
    else
      let r := (sat32 (meas - pred)).toInt
      let old := l.supRes.toInt
      let s := drew 2 s
      let res := freeIn s (min old r) (max old r)
      supShow i (modLoop i (fun l => { l with
        supPred := sat32 pred, supRes := BitVec.ofInt 32 res
        supLoad := if model = 1 then rotaryLoad s.freeCtr l (meas - pred) else l.supLoad
        supSince := if l.regs.thrSup.toNat < res.natAbs then some (l.supSince.getD s.dt) else none }) (drew 2 s))

/-! ### Entry (R300, R303, R304) -/

/-- Header words 0x0D to 0x0F (R303). -/
def headerWords (s : State) (x : TickEntry) : List Word :=
  let p := pourAt s (pourNum s).toNat
  let ns := nsLo (x.due - p)
  match tickTile x.regs with
  | none => [natWord (x.j % 64), ns, 0]
  | some t =>
    let r := rateLoop s t
    let ax := s.axes[tileAxis t]
    let tl := s.tiles[t]
    [natWord (x.j % 64) ||| (r.k.zeroExtend 32 <<< 8) ||| (r.kv.zeroExtend 32 <<< 16) ||| (r.kpDiv.zeroExtend 32 <<< 20), ns,
      bitAt ax.enabled 0 ||| bitAt ax.stopping 1 ||| bitAt (tl.regs.tileState = 3) 2 ||| bitAt tl.regs.sto 3
        ||| bitAt tl.regs.localField 4 ||| bitAt ax.unconfirmed 5]

/-- A program of the module's own library runs the loop: the standard law (R254, R276). -/
def standardLoop (s : State) (i : Fin 96) : Bool :=
  let id := s.loops[i].regs.programId
  if i.val < 64 then id.toNat < 0x8000 else true

/-- The loop ticks at current tick j: the velocity loop at every Kv-th, the position loop at every Kv × Kp-th (R244). -/
def axisLoopTicks (s : State) (i : Fin 96) (j : Nat) : Bool :=
  match loopTile i with
  | none => false
  | some t =>
    let r := rateLoop s t
    let kv := max 1 r.kv.toNat
    let kp := max 1 r.kpDiv.toNat
    if loopIsOff s i then false
    else if !standardLoop s i then true
    else if i.val % 4 = 1 then j % kv = 0
    else if i.val % 4 = 2 then j % (kv * kp) = 0 else true

/-- A free loop ticks with the axis loop that its configuration names, or at the pour point; one without a configuration does not
(R243; the coding of the tick source is log entry 127). -/
def freeTicks (s : State) (i : Fin 96) (tk : TickRegs) (j : Nat) : Bool :=
  let f := s.loops[i].free
  match (if f.tick.toNat < 64 then asFin 96 f.tick.toNat else none) with
  | some l => f.configured && (match loopTile l with
    | some t => decide (tickTile tk = some t) && axisLoopTicks s l j
    | none => false)
  | none => f.configured && (tk.sourceKind = 2 || (tk.sourceKind = 1 && j = 0))
def loopTicks (s : State) (i : Fin 96) (tk : TickRegs) (j : Nat) : Bool :=
  if !standardLoop s i then !loopIsOff s i else if i.val < 64 then axisLoopTicks s i j else freeTicks s i tk j

/-- The loops of an entry that tick, with their contexts, inner ones first: currents, velocity, position. -/
def ticking (s : State) (x : TickEntry) : List (Fin 96 × Nat) :=
  let ls := ((entryLoops x.regs).map fun p => (p.2, loopCtx x.regs p.1)).filter fun p => loopTicks s p.1 x.regs x.j
  let role (r : Nat) := ls.filter fun p => p.1.val % 4 = r
  role 0 ++ role 3 ++ role 1 ++ role 2

/-- A free loop that has not run yet starts from zero state. -/
def startFree (e : Fin 32) (p : Fin 96 × Nat) (s : State) : State :=
  if 64 ≤ p.1.val && s.loops[p.1].regs.loopMode = 3 then
    ctxZero e p.2 (modLoop p.1 (fun l => { loopOff l with
      modeNext := if l.regs.reqMode then some 1 else none, manStaged := l.regs.reqMode
      regs := { (loopOff l).regs with loopMode := 0 } }) s)
  else s

/-- The current tick of the mode of the tile, with the context of loop 4a + 3 on the same engine (R357, R391, R402). -/
def currentTick (t : Fin 16) (e : Fin 32) (c : Nat) (tau : Int) (due : Fix) (s : State) : State :=
  match loopPlace s (tileLoop t 3) with
  | none => s
  | some (e', _, c') =>
    if e' ≠ e then s
    else if s.tiles[t].regs.mode = 1 then supTick t (tileLoop t 0) 3 (focTick t e c c' (nsLo due) s)
    else if s.tiles[t].regs.mode = 2 then stepTick t e c c' tau (nsLo due) s
    else if s.tiles[t].regs.mode = 3 then valveTick t e c c' due s else s

/-- What a free loop reads from a source (R243): a selector of R272; kind 3 an SD channel, kind 4 a word of a host input record
(their codes are log entry 127); any other code names nothing. -/
def freeSource (s : State) (k : Nat) (due : Fix) (sel : Word) : Word :=
  match (sel >>> 28).toNat with
  | 3 => ((asFin 160 (sel.extractLsb' 0 8).toNat).map fun c => sdAt s c (nsLo due)).getD 0
  | 4 => s.cyclic.inForce.recs.getD (4 * (sel.extractLsb' 16 6).toNat + (sel.extractLsb' 0 2).toNat) 0
  | n => if n < 3 then signalWord s sel else BitVec.ofNat 32 (Config.freeNat k)
def freeTick (i : Fin 96) (e : Fin 32) (c : Nat) (due : Fix) (s : State) : State :=
  let f := s.loops[i].free
  wordTick i e c (freeSource s s.freeCtr due f.sp) (freeSource s (s.freeCtr + 1) due f.fb) (ctxGet s e c 0x11) (drew 2 s)

/-- One loop of an entry runs. -/
def runLoop (e : Fin 32) (due : Fix) (p : Fin 96 × Nat) (s : State) : State :=
  if !standardLoop s p.1 then s
  else match loopTile p.1 with
    | none => freeTick p.1 e p.2 due s
    | some t =>
      let tau := sinceTaken s t due
      if p.1.val % 4 = 2 then supTick t p.1 2 (positionTick t p.1 e p.2 tau s)
      else if p.1.val % 4 = 1 then supTick t p.1 1 (velocityTick t p.1 e p.2 tau s)
      else if p.1.val % 4 = 0 then currentTick t e p.2 tau due s else s

/-- The loops of an entry take their modes and run, outer ones first (R246, R259). -/
def runLoops (e : Fin 32) (x : TickEntry) (s : State) : State :=
  let s := ((entryLoops x.regs).map fun p => (p.2, loopCtx x.regs p.1)).foldl (fun s p => startFree e p s) s
  let ls := ticking s x
  let s := ls.foldl (fun s p => takeMode p.1 e p.2 s) s
  ls.reverse.foldl (fun s p => runLoop e x.due p s) s

/-- The engine enters the tick: the banks swap, G15 and G13 of the shadow bank, the program counter (R300). -/
def enterTick (k : Fin 16) (x : TickEntry) (en : Engine) : Engine :=
  { en with
    inTick := true, running := some k, waiting := false, transfer := none
    backPc := if en.inTick then en.backPc else en.pc
    backTransfer := if en.inTick then en.backTransfer else en.transfer
    pc := x.regs.tickAddr
    shadow := { en.shadow with g := (en.shadow.g.set 15 (x.regs.tickCtx.zeroExtend 32)).set 13 (nsLo x.due) }
    ticks := upd en.ticks k fun x => { x with pending := false, start := en.cycle }, busyFrom := en.cycle }

/-- TICK_ENTRY (R300): the lowest pending entry enters once the instruction in issue is done. -/
def execTickEntry (e : Fin 32) (k : Fin 16) (s : State) : Out9 :=
  let en := s.engines[e]
  let x := en.ticks[k]
  let lower := (List.finRange 16).any fun i => i.val < k.val && en.ticks[i].pending
  if !x.pending || lower || en.running.isSome || en.regs.leState ≠ 2 || 0 < en.rep then .next s
  else
    let s := modEngine e (enterTick k x) s
    let s := modEngine e (fun en => { en with data := memPutWords en.data (x.regs.tickCtx.toNat + 0x0D) (headerWords s x) }) s
    .next (runLoops e x s)

end Sys2Proof.Machine
end

