-- ==== Sys2Proof/Machine/Events.lean ====
section
/-! DEFINITION. The event fabric, the merger and the log (R18, R26 to R31, R89, R90), and the firing of a compare unit (R48,
R50). -/

namespace Sys2Proof.Machine

/-! ### Compare units -/

/-- The tick entries that take the unit's firing as their occurrence fire, on the engines of its mask (R297). -/
def interruptEngines (u : Fin 16) (mask : Word) (s : State) : State :=
  (List.finRange 32).foldl (fun s e =>
    if mask.getLsbD e.val then
      (List.finRange 16).foldl (fun s k =>
        let x := s.engines[e].ticks[k].regs
        if x.en && x.sourceKind = 3 && x.sourceNum.toNat = u.val then occurs e k 0 s else s) s
    else s) s

/-- The trace units that the unit triggers (R275). -/
def traceCompare (u : Fin 16) (s : State) : State :=
  (List.finRange 4).foldl (fun s x =>
    if s.traces[x].conds.getLsbD 2 && s.traces[x].cu.toNat = u.val then traceBehind x s.dt 4 s else s) s

/-- The unit fires now: its actions, then its next target (R48, R50). -/
def fireCompare (u : Fin 16) (s : State) : State :=
  let c := s.compares[u]
  let act (k : Nat) (f : State → State) (s : State) : State := if c.actions.getLsbD k then f s else s
  let s := modCompare u (fun c => { c with regs := { c.regs with fired := true, fireCount := c.regs.fireCount + 1 } }) s
  let s := act 0 (note Ev.compareFired (srcCompare u) 0 0 0) s
  let s := traceCompare u (act 1 (guCompare u) s)
  let s := act 2 (fun s => (List.finRange 16).foldl (fun s t => if c.tiles.getLsbD t.val then resyncTile t s else s) s) s
  rearmCompare u (act 3 (interruptEngines u c.engines) s)

/-- COMPARE_FIRE (R48): the first edge at which the difference is not positive. -/
def execCompareFire (u : Fin 16) (s : State) : Host.Outcome State Fault Refusal :=
  let c := s.compares[u].regs
  .next (if c.cmpState ≠ 0 && decide (compareDiff c.target (nsOf s.dt) ≤ 0) then fireCompare u s else s)

/-! ### The fabric and the merger (R20, R29) -/

/-- The hold of a record with this timestamp has expired. -/
def holdOver (s : State) (e : EventRec) : Bool := decide (e.t.toNat + logHold s * 2 ^ 32 ≤ s.dt.toNat)

/-- The log ring holds 4,096 records; a further one overwrites the oldest and is counted (R30). -/
def keepLog (r : LogRec) (s : State) : State :=
  let full := decide (4096 ≤ s.events.log.length)
  let i := s.ocp.ident
  { s with
    events := { s.events with log := (r :: s.events.log).take 4096, nextIdx := s.events.nextIdx + 1, empty := false }
    ocp := { s.ocp with ident := if full then { i with
        logOverwriteCount := satInc i.logOverwriteCount, cntOvf := i.cntOvf || satFull i.logOverwriteCount }
      else i } }
/-- The vault keeps the last 256 records of class STOP and above (R30). -/
def keepVault (r : LogRec) (s : State) : State :=
  if r.ev.cls = .note then s else { s with events := { s.events with vault := (r :: s.events.vault).take 256 } }

/-- A subscription takes a record of this class and code (R90, R91). -/
def subTakes (sub : Option Subscription) (cls : Nat) (code : BitVec 16) : Bool :=
  match sub with
  | some x => decide (x.minCls.code ≤ cls) && x.groups.getLsbD (code.extractLsb' 8 8).toNat
  | none => false
def enqueuePush (ws : List Word) (x : Session) : Session := { x with pushQ := x.pushQ ++ [ws] }
/-- A record waits to be pushed on every session that subscribes to it. -/
def offerPush (take : Session → Bool) (ws : List Word) (s : State) : State :=
  { s with ocp := { s.ocp with sessions := s.ocp.sessions.map fun x => if take x then enqueuePush ws x else x } }

/-- EVENT_FORWARD_SET's module gets the record over Uaxabel where its class and its group are asked for (R140). -/
def forwardEvent (r : LogRec) (s : State) : State :=
  let l := s.link
  if l.fwdMin.code ≤ r.ev.cls.code && l.fwdGroups.getLsbD (r.ev.code.toNat / 256) then
    sendFragments l.fwdDest 1 (logWords r) s
  else s

/-- A record enters the log with the next index (R89). -/
def commitEvent (e : EventRec) (s : State) : State :=
  let r : LogRec := { ev := e, idx := s.events.nextIdx }
  forwardEvent r <| offerPush (fun x => subTakes x.sub e.cls.code e.code) (logWords r) (keepVault r (keepLog r s))

/-- The next record to arrive: each source's records come in the order it raised them; which source comes next the spec leaves
open within 3 us (R29). -/
def nextArrival (s : State) : Option EventRec :=
  let l := s.events.fabric
  match l[freeNow s % max 1 l.length]? with
  | some e => l.find? fun x => x.src = e.src
  | none => none

/-- The trace units that an event triggers (R275). -/
def traceEvent (e : EventRec) (s : State) : State :=
  (List.finRange 4).foldl (fun s u =>
    let tr := s.traces[u]
    if tr.conds.getLsbD 0 && (e.code &&& tr.evMask) = tr.evValue then traceBehind u e.t 1 s else s) s

/-- A record reaches the crossing: triggers take it at once; the merger holds it, or logs it late (R29). -/
def arrive (e : EventRec) (s : State) : State :=
  let s := { s with events := { s.events with fabric := s.events.fabric.erase e } }
  let s := guEvent e (traceEvent e s)
  if holdOver s e then commitEvent { e with late := true } s
  else { s with events := { s.events with held := s.events.held ++ [e] } }
/-- EVENT_FABRIC_ARRIVAL (R29). -/
def execEventFabricArrival (s : State) : Host.Outcome State Fault Refusal :=
  .next (match nextArrival s with
    | some e => arrive e (drawn s)
    | none => s)

/-- Order of the log: by timestamp at 2.5 ns, then by source (R27). -/
def logsBefore (a b : EventRec) : Bool :=
  let ta := a.t.toNat / 0x280000000
  let tb := b.t.toNat / 0x280000000
  decide (ta < tb) || (ta = tb && decide (a.src.toNat < b.src.toNat))
/-- The first in log order; of equals the one that came first. -/
def firstHeld : List EventRec → Option EventRec
  | [] => none
  | e :: l => match firstHeld l with
    | none => some e
    | some f => if logsBefore f e then some f else some e
/-- EVENT_HOLD_EXPIRY (R29): of the records whose hold has expired the first in order enters the log. -/
def execEventHoldExpiry (s : State) : Host.Outcome State Fault Refusal :=
  .next (match firstHeld (s.events.held.filter (holdOver s)) with
    | some e => commitEvent e { s with events := { s.events with held := s.events.held.erase e } }
    | none => s)

/-! ### Forwarded events and pushes (R31, R89, R90) -/

/-- Word 3 of a forwarded record: FORWARDED set, the uncertainty 6 wider. -/
def forwardWord (w : Word) : Word :=
  (w &&& 0xFFFFFC00) ||| 0x200 ||| (w &&& 0x100) ||| natWord (min 255 ((w &&& 0xFF).toNat + 6))
/-- The 10 words of a forwarded record. -/
def forwardedWords (origin : BitVec 64) (r : List Word) : List Word :=
  let g (i : Nat) : Word := r.getD i 0
  [g 0, g 1, g 2, forwardWord (g 3), g 4, g 5, g 6, g 7] ++ words64 origin
/-- FORWARDED_EVENT_RECEIVE (R31). -/
def execForwardedEventReceive (origin : BitVec 64) (rec : List Word) (s : State) : Host.Outcome State Fault Refusal :=
  let cls := ((rec.getD 3 0).extractLsb' 10 2).toNat
  let code : BitVec 16 := (rec.getD 0 0).truncate 16
  .next (offerPush (fun x => (x.sub.map (·.forwarded)).getD false && subTakes x.sub cls code) (forwardedWords origin rec) s)

/-- How many whole records one push carries: at most 120, and 1,019 words in all (R90). -/
def pushFits : Nat → Nat → List (List Word) → Nat
  | 0, _, _ => 0
  | _, _, [] => 0
  | n + 1, room, r :: rs => if r.length ≤ room then pushFits n (room - r.length) rs + 1 else 0
/-- A push packet (R90). -/
def pushWords (seq ns : Word) (rs : List (List Word)) : List Word :=
  let body := (0x28000000 ||| natWord (rs.flatten.length + 5)) :: seq :: 0x01800000 :: ns :: rs.flatten
  body ++ [crcWords body]
/-- The transport takes a push: the event ring has a free slot, SPI holds at most 64 entries; else it is dropped whole. -/
def sendPush (i : Fin 80) (ws : List Word) (s : State) : State :=
  if i = 0 then
    let n := s.ocp.ident.evtRingSize.toNat
    if s.ocp.ident.ringsEnable && s.ocp.evtUsed < n then
      let s := transmit i ws s
      { s with ocp := { s.ocp with evtUsed := s.ocp.evtUsed + 1, evtProd := (s.ocp.evtProd + 1) % n } }
    else s
  else if i = 1 then
    if 64 < s.ocp.sessions[i].out.length then s else modSession i (fun x => { x with out := x.out ++ [(.push, ws)] }) s
  else transmit i ws s
/-- EVENT_PUSH (R90): the records that wait on the session, as many as one push carries. -/
def execEventPush (session : Fin 80) (s : State) : Host.Outcome State Fault Refusal :=
  let x := s.ocp.sessions[session]
  let n := pushFits 120 1019 x.pushQ
  .next (if n = 0 then s
    else sendPush session (pushWords x.pushSeq (nsLo s.dt) (x.pushQ.take n))
      (modSession session (fun x => { x with pushQ := x.pushQ.drop n, pushSeq := x.pushSeq + 1 }) s))

end Sys2Proof.Machine
end

