-- ==== Sys2Proof/Machine/Pour.lean ====
section
/-! DEFINITION. The pour point with what leads to it: arrival of master values, steeping, staged sets, poured values, the cyclic
image (R55 to R62, R100 to R105, R151 to R179, R305, R436). -/

namespace Sys2Proof.Machine

/-! ### Steps of a set-point off the chain (R158, R172) -/

/-- The set-point stands d further than its source gave it; the next pour takes it back, outside of what followers see. -/
def overlay (a : Fin 112) (d : Int) (vel acc : Fix) (s : State) : State :=
  let ax := s.axes[a]
  let u := ax.regs.spPos.toInt + d
  let c := if ax.regs.kind then u % modRaw ax else clampInt linMin linMax u
  let took := if ax.regs.kind then d else c - ax.regs.spPos.toInt
  let s := modAxis a (fun ax => { ax with
    owed := inc128 took, regs := { ax.regs with spPos := fixRaw c, spVel := vel, spAcc := acc } }) s
  if 16 ≤ a.val then advanceAct a took (modAxis a (fun ax => { ax with regs := { ax.regs with actVel := vel } }) s) else s

/-! ### Slots: prediction (R154, R166, R167) -/

/-- A master value of the slot in the range of its axis. -/
def slotWrap (ax : Axis) (x : Int) : Fix := if ax.regs.kind then fixRaw (x % modRaw ax) else fixRaw x
/-- The value that a slot pours when nothing comes: extrapolated in its order, or at the last confirmed velocity once LOST. -/
def slotPredict (s : State) (i : Fin 32) : Fix :=
  let sl := s.slots[i]
  let ax := s.axes[slotAxis i]
  let d (x y : Fix) : Int := shortWay ax (x.toInt - y.toInt)
  let d1 := d sl.m1 sl.m2
  let d2 := d1 - d sl.m2 sl.m3
  if 4 ≤ sl.regs.slotState.toNat then slotWrap ax (sl.poured.toInt + sl.vel.toInt)
  else slotWrap ax (match sl.regs.order.toNat with
    | 0 => sl.m1.toInt
    | 1 => sl.m1.toInt + d1
    | _ => sl.m1.toInt + d1 + d2)
/-- The value from which the coming pour is steeped, as the slot stands. -/
def slotSteep (sl : Slot) : Fix := (sl.arrived).getD sl.predicted

/-- The slot gives a master value at a pour: the batch of its followers runs from the one before (R161). -/
def slotGive (i : Fin 32) (v : Fix) (s : State) : State :=
  modSlot i (fun sl => { sl with pouredPrev := sl.poured, poured := v }) s

/-! ### Staged sets at a pour (R60 to R62) -/

/-- Why a command of a set cannot take effect on the state; OK where it can. -/
def stagedStatus (o : StageOp) (c : StagedCmd) (s : State) : BitVec 16 :=
  if c.stale then Status.referenceChanged
  else if (match o.d.block (tgt c.p) with
    | some b => s.power.blocks.contains (BitVec.ofNat 16 b)
    | none => false) then Status.blockInReset
  else o.check c.p s
/-- Axes on which an AXIS_DISABLE among the commands that take effect at a pour begins a STOP ramp (R208). -/
def stopsAmong (cs : List StagedCmd) (s : State) : List (Fin 112) :=
  cs.filterMap fun c =>
    let a := axOf c.p
    let ax := s.axes[a]
    if c.op = 0x0407 && ax.enabled && !isStepper s a && (ax.regs.spVel ≠ 0 || ax.regs.spAcc ≠ 0) then some a else none
/-- A move whose pour is that of a STOP of its axis is refused (R210). -/
def stopGoverns (stops : List (Fin 112)) (c : StagedCmd) : Bool := (c.op = 0x0408 || c.op = 0x0409) && stops.contains (axOf c.p)
/-- The commands of a set one after the other, at a pour at which the axes named stop; the first failure refuses the whole. -/
def runSet (stops : List (Fin 112)) : List StagedCmd → State → Except (BitVec 16) State
  | [], s => .ok s
  | c :: rest, s =>
    match stageOpOf c.op with
    | none => runSet stops rest s
    | some o =>
      let st := if stopGoverns stops c then Status.axisStopping else stagedStatus o c s
      if st ≠ Status.ok then .error st else runSet stops rest (o.apply c.p s)

/-- Axes and slots whose stages a set writes (R172). -/
def setAxes (x : StagedSet) : List (Fin 112) :=
  x.cmds.filterMap fun c =>
    if c.op.extractLsb' 8 8 = 0x04 || c.op.extractLsb' 8 8 = 0x05 || c.op = 0x0608 then asFin 112 c.p.target.toNat else none
/-- The axis and the masters of its chain up to the slot. -/
def upChain (s : State) : Nat → Fin 112 → List (Fin 112)
  | 0, a => [a]
  | k + 1, a => match axisMaster s.axes[a] with
    | .slot i => [a, slotAxis i]
    | .computed b => if hasStage s.axes[a] then a :: upChain s k b else [a]
    | _ => [a]
/-- Enabled axes on chains from a slot that pass through a stage written. -/
def chainsOf (s : State) (ws : List (Fin 112)) : List (Fin 112) :=
  hostAxes.filter fun a => s.axes[a].enabled && (chainSlot s a).isSome && (upChain s 9 a).any ws.contains

/-- A set is refused at its pour (R62); one that the steep included holds its chains (R172). -/
def refuseSet (x : StagedSet) (st : BitVec 16) (s : State) : State :=
  let s := record { code := Ev.pourRefused, src := srcStaging, t := s.dt, p0 := x.seq, p1 := st.zeroExtend 32
                    p2 := x.session.zeroExtend 32 } s
  let s := { s with stage := { s.stage with regs := refusedRegs x st s.stage.regs } }
  if x.session = 0xFFFF && x.cmds.any (fun c => c.op = 0x0907) then
    endOps (fun o => o.op = 0x0907 && x.cmds.any fun c => c.op = 0x0907 && c.p.target = o.target) st s
  else s

/-- The due sets in commit order; the axes to be held are gathered. -/
def pourSets (stops : List (Fin 112)) : List StagedSet → List (Fin 112) → State → List (Fin 112) × State
  | [], hold, s => (hold, s)
  | x :: rest, hold, s =>
    match runSet stops x.cmds s with
    | .ok s' =>
      pourSets stops rest hold { s' with stage := { s'.stage with regs := { s'.stage.regs with
        lastSwapSeq := if x.session = 0xFFFF then s'.stage.regs.lastSwapSeq else x.seq
        swapCount := satInc s'.stage.regs.swapCount } } }
    | .error st => pourSets stops rest (if x.steeped then hold ++ chainsOf s (setAxes x) else hold) (refuseSet x st s)
/-- A STAGE_CANCEL of the set was accepted by its cutoff and has not executed yet (R97). -/
def cancelWaits (s : State) (x : StagedSet) : Bool :=
  match asFin 80 x.session.toNat with
  | none => false
  | some i => s.ocp.sessions[i].hist.any fun h =>
      h.op = 0x1005 && h.reply.isNone && !h.chained && (h.p.any fun p => p.params.getD 0 0 = x.seq)
        && decide (pourFrom h.acceptedAt s ≤ x.target.toNat)
/-- The sets due at a pour leave the queue and swap or are refused; one whose STAGE_CANCEL is owed its OK is left out. -/
def swapSets (s : State) : List (Fin 112) × State :=
  let q := (pourNum s).toNat
  let due := s.stage.sets.filter fun x => x.target.toNat ≤ q
  let gone := due.filter (cancelWaits s)
  let now := due.filter fun x => !cancelWaits s x
  pourSets (stopsAmong (now.flatMap (·.cmds)) s) now [] { s with stage := { s.stage with
    sets := s.stage.sets.filter fun x => decide (q < x.target.toNat)
    cancelled := s.stage.cancelled ++ gone.map fun x => (x.session, x.seq) } }

/-! ### Steeping (R151 to R154, R172, R178) -/

/-- What the steep of the coming pour starts from: the feedback as latched now, every set accepted for that pour applied. -/
def steepBase (s : State) : State :=
  let q := (pourNum s).toNat + 1
  let s : State := (List.finRange 16).foldl (fun s i =>
    modAxis (tileAxis i) (fun ax => { ax with dActPrev := ax.dAct, dAct := 0 }) s) s
  let shift (en : Encoder) : Encoder := { en with dCountPrev := en.dCount, dCount := 0 }
  let s := { s with encs := s.encs.map shift }
  let due := s.stage.sets.filter fun x => decide (x.target.toNat ≤ q)
  let stops := stopsAmong (due.flatMap (·.cmds)) s
  due.foldl (fun s x => match runSet stops x.cmds s with
    | .ok s' => s'
    | .error _ => s) s
/-- The steep on the master values as they stand. -/
def steepOn (value : Fin 32 → Fix) (s : State) : State :=
  let s := (List.finRange 32).foldl (fun s i => if s.slots[i].regs.slotState = 0 then s else slotGive i (value i) s) s
  evalChains none s
/-- The look-ahead registers of an axis after the steep n of pour q (R178). -/
def showAxis (n : State) (q : BitVec 64) (pend : List (Fin 112)) (a : Fin 112) (ax : Axis) : Axis :=
  if 80 ≤ a.val then ax
  else if ax.enabled && (chainSlot n a).isSome then
    { ax with steep := { ax.steep with
      laPour := q, laPos := n.axes[a].regs.spPos, laValid := true, laPendingSet := (upChain n 9 a).any pend.contains } }
  else { ax with steep := { ax.steep with laPour := q, laPos := ax.regs.spPos, laValid := false, laPendingSet := false } }
/-- The look-ahead registers of a slot (R177). -/
def showSlot (q : BitVec 64) (sl : Slot) : Slot :=
  if sl.regs.slotState = 0 then sl else { sl with regs := { sl.regs with laPour := q, laMaster := sl.predicted } }
/-- The steep of the coming pour, as the look-ahead registers show it. -/
def lookAhead (s : State) : State :=
  let q := pourNum s + 1
  let vals := s.slots.map slotSteep
  let pend := (s.stage.sets.filter fun x => decide (x.target.toNat ≤ q.toNat)).flatMap setAxes
  let n := steepOn (fun i => vals[i]) (steepBase s)
  let axs := Vector.ofFn fun a : Fin 112 => showAxis n q pend a s.axes[a]
  { s with freeCtr := n.freeCtr, axes := axs, slots := s.slots.map (showSlot q) }

/-! ### Arrival of a master value (R153, R155, R159, R166, R168, R169) -/

/-- Start and travel of a stage's input, from the predicted to the true value. -/
def inputMove (p t : State) (a : Fin 112) : Int × Int × Option Int :=
  let m := axisMaster p.axes[a]
  let bp := plainBatch p m
  let bt := plainBatch t m
  let lp := leadOf p p.axes[a] bp.m
  let lt := leadOf t t.axes[a] bt.m
  (bp.b + lp, bt.m - bp.m + (lt - lp), bp.modulus)
/-- A position lies in the closed interval of length d from x. -/
def within (modulus : Option Int) (x d pc : Int) : Bool :=
  match modulus with
  | none => decide (min x (x + d) ≤ pc) && decide (pc ≤ max x (x + d))
  | some k =>
    let y := (pc - x) % k
    (decide (0 ≤ d) && decide (y ≤ d)) || (decide (d ≤ 0) && (y = 0 || decide (d ≤ y - k)))
/-- An armed position event of the axis's stage lies in the residual interval (R159); the stage as it stands before the
batch, with the sets accepted for the pour. -/
def eventBetween (base p t : State) (a : Fin 112) : Bool :=
  let ax := base.axes[a]
  let (x, d, k) := inputMove p t a
  let gear := ax.follow.gearState ≠ 0
    && (ax.queue.any (fun c => within k x d c.pc.toInt) || (ax.follow.gearState = 1 && within k x d ax.engPos.toInt))
  let wait := ax.follow.camState = 1 && within k x d ax.camPos.toInt
  let swap : Bool := match ax.swap with
    | none => false
    | some w =>
      let c := camOf ax
      let tb := base.cams[c.table]
      let per := camLast tb - camFirst tb
      let b := plainBatch p (axisMaster p.axes[a])
      let u := c.u + b.m + (leadOf p p.axes[a] b.m - ax.lead.toInt)
      let m := if tb.periodic && decide (0 < per) then some per else none
      if w.wrap then tb.periodic && within m u d (camFirst tb) else within m u d w.us.toInt
  gear || wait || (2 ≤ ax.follow.camState.toNat && swap)
/-- Some stage that depends on the slot has such an event. -/
def armedBetween (i : Fin 32) (true_ : Fix) (s : State) : Bool × State :=
  let b := steepBase s
  let vals := s.slots.map slotSteep
  let p := steepOn (fun j => vals[j]) b
  let t := steepOn (fun j => if j = i then true_ else vals[j]) { b with freeCtr := p.freeCtr }
  (hostAxes.any (fun a => hasStage b.axes[a] && chainSlot b a = some i && eventBetween b p t a), { s with freeCtr := t.freeCtr })

/-- MASTER_RESUMED or RESUME_REFUSED for a LOST or STOPPED slot (R168): whether the value is taken. -/
def resumeSlot (i : Fin 32) (v : Fix) (s : State) : Bool × State :=
  let sl := s.slots[i]
  let r := shortWay s.axes[slotAxis i] (v.toInt - sl.predicted.toInt)
  if r.natAbs ≤ sl.regs.resumeLimit.toNat * 2 ^ 32 then
    (true, note Ev.masterResumed (srcSlot i) 0 0 0 (modSlot i (fun sl => { sl with
      resume := true, regs := { sl.regs with slotState := 2, lateRun := 0 } }) s))
  else
    (false, note Ev.resumeRefused (srcSlot i) (countsOf s r) 0 0 (modSlot i (fun sl => { sl with
      tardy := some v, regs := { sl.regs with resumeRefusedSeen := true } }) (drawn s)))

/-- An on-time value ends a run of late pours. -/
def endLateRun (i : Fin 32) (s : State) : State :=
  modSlotRegs i (fun r => { r with lateRun := 0, slotState := if r.slotState = 3 then 2 else r.slotState }) s

/-- m(P) is here before the steep of its pour begins: the steep uses it and the pour is confirmed (R153). -/
def takeEarly (i : Fin 32) (v : Fix) (s : State) : State :=
  let lost := decide (4 ≤ s.slots[i].regs.slotState.toNat)
  let (ok, s) := if lost then resumeSlot i v s else (true, s)
  if !ok then s
  else endLateRun i (modSlot i (fun sl => { sl with
    arrived := some v, predicted := v, outcome := some 0, residual := 0, regs := { sl.regs with lastResidual := 0 } }) s)

/-- m(P) arrives on time after the steep has begun (R155, R168). -/
def takeResidual (i : Fin 32) (v : Fix) (s : State) : State :=
  let sl := s.slots[i]
  let r := shortWay s.axes[slotAxis i] (v.toInt - sl.predicted.toInt)
  let lost := decide (4 ≤ sl.regs.slotState.toNat)
  let (ok, s) := if lost then resumeSlot i v s else (true, s)
  let s := drawn (modSlot i (fun sl => { sl with
    residual := fixRaw r, regs := { sl.regs with lastResidual := sat32 (freeRound s r (2 ^ 24)) } }) s)
  if !ok then s
  else
    let (event, s) := if r = 0 || lost then (false, s) else armedBetween i v s
    let near := decide (r.natAbs ≤ sl.regs.w.toNat * 2 ^ 32) && !event
    endLateRun i (modSlot i (fun sl =>
      let sl := { sl with arrived := some v }
      if lost then { sl with resteep := some s.dt }
      else if r = 0 then { sl with outcome := some 0 }
      else if near then { sl with outcome := some 1 }
      else { sl with resteep := some s.dt }) s)

/-- A real sample, by its full pour number, enters the last confirmed velocity (R166). -/
def confirmSample (i : Fin 32) (n : Nat) (v : Fix) (s : State) : State :=
  let ax := s.axes[slotAxis i]
  modSlot i (fun sl =>
    let d := shortWay ax (v.toInt - sl.onTime.toInt)
    if n = sl.onTimePour.toNat + 1 then { sl with vel := fixRaw d, onTime := v, onTimePour := BitVec.ofNat 64 n }
    else if sl.onTimePour.toNat < n then { sl with onTime := v, onTimePour := BitVec.ofNat 64 n }
    else if n + 1 = sl.onTimePour.toNat then { sl with vel := fixRaw (-d) }
    else sl) s

/-- A sample of a pour that is past replaces its substitute in the history (R154). -/
def takePast (i : Fin 32) (back : Nat) (n : Nat) (v : Fix) (s : State) : State :=
  confirmSample i n v (modSlot i (fun sl =>
    if back = 1 then { sl with m1 := v } else if back = 2 then { sl with m2 := v }
    else if back = 3 then { sl with m3 := v } else sl) s)

/-- The confirmation deadline of a pour (R152). -/
def deadlineOf (s : State) (q : Nat) : Int := (pourAt s q).toInt - s.link.plan.tConf * 2 ^ 32
/-- The entry's copy of the publisher's state and the lead of its arrival, in whole ns as the spec leaves them rounded. -/
def noteArrival (i : Fin 32) (m : MasterSample) (q : Nat) (s : State) : State :=
  let lead := freeRound s (deadlineOf s q - s.dt.toInt) (2 ^ 32)
  drawn (modSlotRegs i (fun r => { r with
    masterStopping := m.stopping, masterPosUncertain := m.uncertain, lastArrivalLead := sat32 lead }) s)

/-- Whether an arrival comes before the steep of the coming pour begins, 0.1 to 1.0 us after the pour point (R56). -/
def beforeSteep (s : State) : Bool :=
  let gone := s.dt.toNat - (pourAt s (pourNum s).toNat).toNat
  gone < 100 * 2 ^ 32 || (gone ≤ 1000 * 2 ^ 32 && freeBool s)

/-- A good entry with its sample's distance from the one that the coming pour needs. -/
def takeEntryAt (i : Fin 32) (m : MasterSample) (diff : Int) (s : State) : State :=
  let q := (pourNum s).toNat + 1
  let n := ((q : Int) - s.stage.regs.domainD.toNat + diff).toNat
  let s := noteArrival i m ((q : Int) + diff).toNat s
  let sl := s.slots[i]
  if 0 < diff then
    if sl.early.any fun x => x.1 = m.pour then s else modSlot i (fun sl => { sl with early := (sl.early ++ [(m.pour, m.pos)]).drop (sl.early.length - 15) }) s
  else if diff < 0 then takePast i (-diff).toNat n m.pos s
  else if sl.arrived.isSome || sl.tardy.isSome then s
  else if deadlineOf s q < s.dt.toInt then modSlot i (fun sl => { sl with tardy := some m.pos }) s
  else if beforeSteep s then lookAhead (takeEarly i m.pos (drawn s))
  else takeResidual i m.pos (drawn s)

/-- CONFIRMATION_DEADLINE (R166): t_conf before the coming pour point its value is missing. -/
def execConfirmationDeadline (i : Fin 32) (s : State) : Host.Outcome State Fault Refusal :=
  .next (if slotMissing s.slots[i] && decide (deadlineOf s ((pourNum s).toNat + 1) ≤ s.dt.toInt) then slotLate i s else s)

/-- MASTER_LOST (R167): N_late consecutive late pours.  T_ride runs from the pour that made them so many, and the pour being
steeped goes on at the last confirmed velocity. -/
def execMasterLost (i : Fin 32) (s : State) : Host.Outcome State Fault Refusal :=
  let r := s.slots[i].regs
  if r.slotState = 3 && decide (r.nLate.toNat ≤ r.lateRun.toNat) then
    let s := note Ev.masterLost (srcSlot i) 0 0 0 (modSlot i (fun sl => { sl with
      lostAt := pourAt s ((pourNum s).toNat + if sl.outcome.isSome then 1 else 0), regs := { sl.regs with slotState := 4, lostSeen := true } }) s)
    .next (if s.slots[i].steeping && s.slots[i].arrived.isNone then
      lookAhead (modSlot i (fun sl => { sl with predicted := slotPredict s i }) s) else s)
  else .next s

/-- RESTEEP_END (R158): within 3 us of arrival and 200 ns before the pour point its result is poured. -/
def execResteepEnd (i : Fin 32) (s : State) : Host.Outcome State Fault Refusal :=
  match s.slots[i].resteep with
  | none => .next s
  | some t0 =>
    let next := (pourAt s ((pourNum s).toNat + 1)).toNat
    if s.dt.toNat ≤ t0.toNat + 3000 * 2 ^ 32 && s.dt.toNat + 200 * 2 ^ 32 ≤ next then
      .next (lookAhead (modSlot i (fun sl => { sl with resteep := none, outcome := some 2 }) s))
    else .next (slotOverrun i s)

/-- The key of an entry of a slot's publisher (R125). -/
def entryKey (s : State) (i : Fin 32) (m : MasterSample) : BitVec 64 × Nat × BitVec 16 :=
  (s.slots[i].regs.pubId, s.slots[i].regs.entryIndex.toNat, m.pour)
/-- The keys of the entries taken, of the last 256 pours. -/
def keepTaken (p : BitVec 16) (l : List (BitVec 64 × Nat × BitVec 16)) : List (BitVec 64 × Nat × BitVec 16) :=
  l.filter fun k => (p - k.2.2).toInt < 256
/-- A slot receives an entry: one that is not valid, fails its CRC or comes far from its pour is treated as not arrived
(R155, R169). -/
def receiveEntry (i : Fin 32) (m : MasterSample) (s : State) : State :=
  let p : BitVec 16 := (pourNum s + 1 - s.stage.regs.domainD.zeroExtend 64).truncate 16
  let diff := (m.pour - p).toInt
  if pourLen s = 0 || s.slots[i].regs.slotState = 0 || !m.valid || !m.crcOk || decide (diff < -3) || decide (16 < diff) then s
  else takeEntryAt i m diff s
/-- MASTER_ENTRY_ARRIVAL (R125, R155, R169): of each entry the first good copy is received, and every later one ignored. -/
def execMasterEntryArrival (i : Fin 32) (m : MasterSample) (s : State) : Host.Outcome State Fault Refusal :=
  let k := entryKey s i m
  .next (if s.link.taken.contains k then s
    else receiveEntry i m (if m.valid && m.crcOk then
      modLink (fun l => { l with taken := k :: keepTaken m.pour l.taken }) s else s))

/-- Entries that came through the receive FIFOs before the next pour point, each at its own instant (R20, R152). -/
def drainRx (s : State) : State :=
  let next := pourAt s ((pourNum s).toNat + 1)
  let ready := s.link.rx.filter fun x => x.at_.toNat < next.toNat
  let now := s.dt
  let s := modLink (fun l => { l with rx := l.rx.filter fun x => decide (next.toNat ≤ x.at_.toNat) }) s
  let s := ready.foldl (fun s x => receiveEntry x.slot x.sample { s with dt := x.at_ }) s
  { s with dt := now }

/-! ### The cutoff (R59, R104, R172) -/

/-- The axes that a host input record drives. -/
def hostInputAxes (s : State) : List (Fin 112) := hostAxes.filter fun a => s.cyclic.recAxis.toList.any fun x => x.toNat = a.val

/-- The inputs for the coming pour are taken, or the pour counts as late (R104, R517). -/
def takeInputs (s : State) : State :=
  let q := pourNum s + 1
  let b := s.cyclic.inputs[(q.truncate 2 : BitVec 2).toFin]
  if b.tag = q.truncate 32 then
    clearCond Ev.hostInputLost (hostInputAxes s) { s with
      cyclic := { s.cyclic with taken := some b }
      ocp := { s.ocp with lateRun := 0, hostLost := false }, fio := { s.fio with fsHost := false } }
  else
    let run := s.ocp.lateRun + 1
    let s := { s with ocp := { s.ocp with lateRun := run } }
    if run < s.ocp.nHost.toNat || s.ocp.hostLost then s
    else
      let s := { s with
        ocp := { s.ocp with hostLost := true }
        fio := fioFailsafeOn s.dt (fun x => x.regs.cyclicEn) { s.fio with fsHost := true } }
      raise Ev.hostInputLost srcMgmt s.ocp.clsHostLost true 0 0 0 (hostInputAxes s) s

/-- Settings accepted after the steep read them: their chains are steeped again (R172). -/
def resteepSettings (s : State) : State :=
  let q := (pourNum s).toNat + 1
  let late := s.stage.sets.filter fun x => decide (x.target.toNat ≤ q) && !x.steeped
  if late.isEmpty then s
  else
    let axs := chainsOf s (late.flatMap setAxes)
    let s := axs.foldl (fun s a => modAxis a (fun ax => { ax with steep := { ax.steep with
      settingsResteepCount := satInc ax.steep.settingsResteepCount
      cntOvf := ax.steep.cntOvf || satFull ax.steep.settingsResteepCount } }) s) s
    lookAhead { s with stage := { s.stage with sets := s.stage.sets.map fun x =>
      if x.target.toNat ≤ q then { x with steeped := true } else x } }

/-- STAGING_CUTOFF (R59). -/
def execStagingCutoff (s : State) : Host.Outcome State Fault Refusal :=
  if pourLen s = 0 then .next s else .next (resteepSettings (takeInputs s))

/-! ### The pour: what closes before it -/

/-- A slot whose coming pour is still open takes its outcome: an unfinished re-steep is abandoned, a missing value is late. -/
def closeSlot (i : Fin 32) (s : State) : State :=
  let sl := s.slots[i]
  if sl.regs.slotState = 0 || sl.outcome.isSome then s
  else if sl.resteep.isSome then slotOverrun i s
  else slotLate i s
def closeSlots (s : State) : State := (List.finRange 32).foldl (fun s i => closeSlot i s) s

/-- The pour point that comes next; the present instant where it is one whose pour is still to be done. -/
def comingPour (s : State) : Nat :=
  let p := (pourNum s).toNat
  if s.dt = pourAt s p && s.stage.done ≠ some (BitVec.ofNat 64 p) then p else p + 1

/-! ### The pour: slots (R161, R163, R166, R170, R171) -/

/-- Master value poured for an outcome. -/
def pouredValue (s : State) (i : Fin 32) : Fix :=
  let sl := s.slots[i]
  match (sl.outcome.getD 4).toNat with
  | 3 | 4 => sl.predicted
  | 5 => slotWrap s.axes[slotAxis i] (sl.poured.toInt + sl.vel.toInt)
  | _ => slotSteep sl

/-- Adds 1 to the counter of the outcome. -/
def countOutcome (o : BitVec 3) (r : SlotRegs) : SlotRegs :=
  match o.toNat with
  | 0 => { r with confirmed := satInc r.confirmed }
  | 1 => { r with corrected := satInc r.corrected }
  | 2 => { r with resteeped := satInc r.resteeped }
  | 3 => { r with overrun := satInc r.overrun }
  | 4 => { r with lateReleased := satInc r.lateReleased }
  | _ => { r with held := satInc r.held }

/-- One slot at a pour: its poured value, history, counters and run; its axis takes the value. -/
def pourSlot (i : Fin 32) (s : State) : State :=
  let sl := s.slots[i]
  let a := slotAxis i
  let q := (pourNum s).toNat
  if sl.regs.slotState = 0 then modSlot i (fun sl => { sl with lastOutcome := 7, lastResidual := 0 }) s
  else
    let o := sl.outcome.getD 4
    let v := pouredValue s i
    let real := match sl.arrived with
      | some x => some x
      | none => sl.tardy
    let n := q - s.stage.regs.domainD.toNat
    let inc := shortWay s.axes[a] (v.toInt - sl.poured.toInt)
    let counts := decide (2 ≤ sl.regs.slotState.toNat)
    let s := match real with
      | some x => confirmSample i n x s
      | none => s
    let s := modSlot i (fun sl => { sl with
      m3 := sl.m2, m2 := sl.m1, m1 := real.getD v
      armRun := if sl.regs.slotState = 1 && decide (sl.armingPour.toNat < q) then (if sl.arrived.isSome then sl.armRun + 1 else 0) else 0
      lastOutcome := if counts then o else 7, lastResidual := sl.residual
      pouredPrev := sl.poured, poured := v
      steeping := false, arrived := none, tardy := none, outcome := none, resteep := none, residual := 0, resume := false
      regs := { (if counts then countOutcome o sl.regs else sl.regs) with unconfirmed := o = 3 || o = 4 || o = 5 } }) s
    advanceAct a inc (modAxis a (fun ax => { ax with regs := { ax.regs with actVel := fixRaw (inc * pourRate s) } }) s)
def pourSlots (s : State) : State := (List.finRange 32).foldl (fun s i => pourSlot i s) s

/-! ### The pour: feedback (R436, R391, R373) -/

/-- Increment of an axis from its own source since the last pour, in 2^-32 counts; none for an axis without a source. -/
def sourceInc (s : State) (t : Fin 16) : Option Int :=
  let ax := s.axes[tileAxis t]
  let en := s.encs[tileEnc t]
  let tl := s.tiles[t]
  if en.regs.fbSrc ≠ 0 then some (axisCount s t (srcCount en) - axisCount s t en.lastC)
  else if sensorless s (tileAxis t) then some tl.foc.moved.toInt
  else if tl.regs.mode = 2 then
    if tl.pw.firstTick then some (shortWay ax ((appliedCount s t - nsLo ax.regs.actPos).toInt * 2 ^ 32))
    else some 0
  else none

/-- The actual position of a physical axis at a pour point. -/
def pourFeedback (t : Fin 16) (s : State) : State :=
  let a := tileAxis t
  match sourceInc s t with
  | none => modAxis a (fun ax => { ax with dActPrev := ax.dAct, dAct := 0 }) s
  | some inc =>
    let s := modTile t (fun tl => { tl with foc := { tl.foc with moved := 0 } }) s
    advanceAct a inc (modAxis a (fun ax => { ax with
      dActPrev := ax.dAct, dAct := inc128 inc, regs := { ax.regs with actVel := fixRaw (inc * pourRate s) } }) s)

/-- Every count is latched at the edge (R424, R425, R436). -/
def latchCounts (s : State) : State :=
  let s := (List.finRange 16).foldl (fun s t => pourFeedback t s) s
  let s := (List.finRange 17).foldl (fun s e => encLatch e s.dt s) s
  { s with encs := s.encs.map fun en => { en with
    dCountPrev := en.dCount, dCount := en.regs.count - en.latched, latched := en.regs.count, lastC := srcCount en
    tickJ := none } }

/-- An axis that has no source of its own stands where its set-point does. -/
def followSp (before : State) (t : Fin 16) (s : State) : State :=
  let a := tileAxis t
  if (sourceInc s t).isSome || !s.axes[a].enabled then s
  else
    let inc := shortWay s.axes[a] (s.axes[a].regs.spPos.toInt - before.axes[a].regs.spPos.toInt)
    advanceAct a inc (modAxis a (fun ax => { ax with dAct := inc128 inc, regs := { ax.regs with actVel := ax.regs.spVel } }) s)

/-! ### The pour: set-points (R156 to R158, R161, R166, R172) -/

/-- Slots with an outcome at this pour. -/
def slotsWith (s : State) (o : BitVec 3) : List (Fin 32) :=
  (List.finRange 32).filter fun i => s.slots[i].regs.slotState ≠ 0 && s.slots[i].lastOutcome = o
def giveAll (v : Fin 32 → Fix) (is : List (Fin 32)) (s : State) : State :=
  is.foldl (fun s i => modSlot i (fun sl => { sl with poured := v i }) s) s

/-- The chains with the poured master values.  Where a slot was corrected, its cams are corrected from the predicted value;
where a re-steep was abandoned, the set-points alone carry the correction from the true one (R156 to R158). -/
def pourChains (pred true_ : Fin 32 → Fix) (s : State) : State :=
  let cor := slotsWith s 1
  let ovr := slotsWith s 3
  if cor.isEmpty && ovr.isEmpty then evalChains none s
  else
    let p := evalChains none (giveAll pred (cor ++ ovr) s)
    let n := evalChains (some (p, cor)) { s with freeCtr := p.freeCtr }
    if ovr.isEmpty then n
    else
      let t := evalChains (some (p, cor ++ ovr)) (giveAll true_ ovr { s with freeCtr := n.freeCtr })
      hostAxes.foldl (fun s a =>
        let x := t.axes[a]
        if x.enabled && (chainSlot n a).any ovr.contains then
          overlay a (shortWay x (x.regs.spPos.toInt - n.axes[a].regs.spPos.toInt)) x.regs.spVel x.regs.spAcc s
        else s) { n with freeCtr := t.freeCtr }

/-- An axis whose steep included a refused set goes on at its last confirmed velocity (R172). -/
def holdAxis (before : State) (a : Fin 112) (s : State) : State :=
  let ax := s.axes[a]
  if !ax.enabled || ax.ramp.isSome then s
  else
    let d := before.axes[a].regs.spPos.toInt + ax.confVel.toInt - ax.regs.spPos.toInt
    let s := overlay a (shortWay ax d) (fixRaw (ax.confVel.toInt * pourRate s)) 0 s
    modAxis a (fun ax => { ax with
      unconfirmed := true
      steep := { ax.steep with
        refusalHoldCount := satInc ax.steep.refusalHoldCount
        cntOvf := ax.steep.cntOvf || satFull ax.steep.refusalHoldCount } }) s

/-- UNCONFIRMED of every follower, and the velocity of the confirmed ones (R163, R166). -/
def markConfirmed (before : State) (held : List (Fin 112)) (s : State) : State :=
  hostAxes.foldl (fun s a =>
    let ax := s.axes[a]
    let un := ax.enabled && ((chainSlot s a).any fun i => s.slots[i].regs.unconfirmed)
    let d := shortWay ax (ax.regs.spPos.toInt - before.axes[a].regs.spPos.toInt)
    modAxis a (fun ax => { ax with
      unconfirmed := un || held.contains a
      confVel := if un || held.contains a then ax.confVel else fixRaw d }) s) s

/-! ### The pour: images (R57, R102, R105, R179, R512, R515) -/

/-- Image word of a slot (R179). -/
def outcomeWord (k : Nat) (sl : Slot) : Word :=
  let r := clampInt (-32767) 32767 (roundAt k sl.lastResidual.toInt (2 ^ 32))
  sl.lastOutcome.zeroExtend 32 ||| (sl.regs.slotState.zeroExtend 32 <<< 3) ||| bitAt sl.regs.masterStopping 6
    ||| bitAt sl.regs.masterPosUncertain 7 ||| (sl.regs.lateRun.zeroExtend 32 <<< 8)
    ||| (BitVec.ofInt 32 r <<< 16)

/-- Bits of the 24 field channels. -/
def fioBits (f : FioChannel → Bool) (s : State) : BitVec 24 :=
  (List.finRange 24).foldl (fun (w : BitVec 24) c => if f s.fio.chans[c] then w ||| (1 <<< c.val) else w) 0

/-- The image of the pour.  The applied current or valve output of a tile's axis has no stated scale: it is a free value. -/
def imageNow (s : State) : CyclicImage :=
  let was := s.cyclic.bufs[s.cyclic.pub.toFin]
  let link := s.fio.regs.linkOk
  { pour := pourNum s
    pourEnd := (pourNum s).truncate 32
    ident := globalStatus s
    time := readTimeRegs s.time.regs 0x010
    axes := Vector.ofFn fun a =>
      let ax := s.axes[a]
      { pos := ax.regs.actPos, vel := ax.regs.actVel, status := axisStatusWord s a
        applied := if a.val < 16 then BitVec.ofNat 32 (Config.freeNat (s.freeCtr + a.val)) else 0 }
    fioIn := if link then fioBits (fun x => !x.regs.dir && x.regs.qual) s else was.fioIn
    fioOut := if link then fioBits (fun x => x.regs.dir && x.regs.raw) s else was.fioOut
    fioFault := if link then fioBits (fun x => x.regs.overload || x.regs.shortVin || x.regs.backfeed || x.regs.forcedOff) s
      else was.fioFault
    safety := s.caldera.regs.chReleased, sbo := s.caldera.regs.sboOn
    cap := capLevels s
    outcomes := Vector.ofFn fun i => outcomeWord (s.freeCtr + 16 + i.val) s.slots[i] }

/-- The image of the last pour is still being written when the next pour comes: it is abandoned and counted (R57). -/
def abandonImage (s : State) : State :=
  if s.cyclic.writing then
    { s with stage := { s.stage with regs := { s.stage.regs with imageSkipCount := satInc s.stage.regs.imageSkipCount } } }
  else s
/-- The image goes into the idle buffer and is published, POUR_END last.  Whether the write completes before the next pour point
is a free choice: the spec says what happens where it does not (R57; log entry 52). -/
def publishImage (s : State) : State :=
  let s := abandonImage s
  let im := imageNow s
  let idle := ~~~s.cyclic.pub
  let s := drew 48 s
  let c := s.cyclic
  drawn (if freeBool s then
    { s with cyclic := { c with bufs := c.bufs.set idle.toFin im, pub := idle, writing := false } }
  else { s with cyclic := { c with
    bufs := c.bufs.set idle.toFin { im with pourEnd := (c.bufs[idle.toFin]).pourEnd }, writing := true } })

/-- The published image is copied to the host every divider-th pour; whether the copy before has ended by then is a free
choice (R105).  DESIGN CHOICE: the spec does not say from which pour the divider counts; a copy falls on the pours whose number
it divides (log entry 118). -/
def streamImage (s : State) : State :=
  let o := s.ocp
  if o.streamSlots = 0 || s.cyclic.writing || (pourNum s).toNat % (max 1 o.streamDiv.toNat) ≠ 0 then s
  else if o.streamBusy && freeBool s then countSession .streamDrop 1 0 (drawn s)
  else drawn { s with ocp := { s.ocp with streamBusy := true, streamNext := (o.streamNext + 1) % o.streamSlots.toNat } }

/-! ### The pour: contexts, snapshot, own slots -/

/-- Header words 0x00 to 0x0C of every context whose axis takes its set-point in at the pour (R303, R305, R247). -/
def fillContexts (s : State) : State :=
  (List.finRange 32).foldl (fun s e =>
    if s.engines[e].regs.leState ≠ 2 then s
    else (List.finRange 16).foldl (fun s k =>
      let tk := s.engines[e].ticks[k].regs
      if tk.sourceKind = 0 || localEntry s tk then s else fillEntry e k s) s) s

/-- LOAD_PERMILLE and LOAD_PEAK over the pour cycle that ends (R317), rounded down; cycles beyond 1,023 per mille read 1,023. -/
def engineLoadPour (p : BitVec 64) (l : Nat) (en : Engine) : Engine :=
  let spent := en.busy + (if en.running.isSome then (en.cycle - en.busyFrom).toNat else 0)
  let loads := (if spent = 0 then [] else [(p, spent)]) ++ en.loads.filter fun x => p.toNat < x.1.toNat + 1024
  let per (n cycles : Nat) : BitVec 10 :=
    BitVec.ofNat 10 (min 1023 (cycles * 1000000 / max 1 (n * clockMhz en.regs.clock * l)))
  let one := per 1 spent
  { en with
    busy := 0, busyFrom := en.cycle, loads := loads
    regs := { en.regs with
      loadPermille := per 1024 ((loads.map (·.2)).foldl (· + ·) 0)
      loadPeak := if en.regs.loadPeak.toNat < one.toNat then one else en.regs.loadPeak } }
def loadPours (s : State) : State :=
  { s with engines := s.engines.map (engineLoadPour (pourNum s) (pourLen s)) }

/-- What a save of this moment would write (R555, R556). -/
def vaultSnap (s : State) : SaveCopy :=
  { s.power.vault.snap with
    pour := pourNum s, dt := s.dt
    axes := Vector.ofFn fun n : Fin 80 =>
      let a : Fin 112 := n.castLE (by decide)
      let r := s.axes[a].regs
      let en := (axisTile a).map fun t => s.encs[tileEnc t]
      { pos := r.actPos, turns := r.turns, status := axisStatusWord s a
        count := (en.map fun x => x.regs.count).getD 0, field := en.bind fun x => x.lastField } }

/-- The slots that name this module have its entries at once (R164). -/
def ownEntries (s : State) : State :=
  match s.link.rings.toList.flatMap fun x => ((x.published.filter fun p => p.1 = pourNum s).flatMap (·.2)) with
  | [] => s
  | es =>
    (List.finRange 32).foldl (fun s i =>
      let r := s.slots[i].regs
      match es.find? fun e => r.slotState ≠ 0 && e.valid && e.publisher = r.pubId && e.publisher = s.ocp.ident.moduleId
          && e.index = r.entryIndex.toNat && e.pour = (pourNum s).truncate 16 with
      | some e => modSlot i (fun sl => { sl with
          early := sl.early ++ [(e.pour, e.pos)]
          regs := { sl.regs with masterStopping := e.stopping, masterPosUncertain := e.uncertain } }) s
      | none => s) s

/-- Steeping for the next pour begins: each slot's sample, if it is here already, else its prediction (R151, R153, R154). -/
def beginSlot (i : Fin 32) (s : State) : State :=
  let sl := s.slots[i]
  if sl.regs.slotState = 0 then s
  else
    let p : BitVec 16 := (pourNum s + 1 - s.stage.regs.domainD.zeroExtend 64).truncate 16
    let s := modSlot i (fun sl => { sl with
      steeping := true, predicted := slotPredict s i, early := sl.early.filter fun x => x.1 ≠ p }) s
    match sl.early.find? fun x => x.1 = p with
    | some x => takeEarly i x.2 s
    | none => s
def steepBegin (s : State) : State :=
  let q := (pourNum s).toNat + 1
  let s := (List.finRange 32).foldl (fun s i => beginSlot i s) s
  let s := lookAhead s
  { s with stage := { s.stage with sets := s.stage.sets.map fun x =>
    if x.target.toNat ≤ q then { x with steeped := true } else x } }

/-! ### POUR_POINT (R55, R56) -/

/-- The work of a pour at its instant. -/
def pourWork (pred true_ : Fin 32 → Fix) (s : State) : State :=
  let s := { s with cyclic := { s.cyclic with inForce := s.cyclic.taken.getD s.cyclic.inForce, taken := none } }
  let s := latchCounts (pourSlots s)
  let (held, s) := swapSets s
  let before := s
  let s := pourChains pred true_ s
  let s := held.eraseDups.foldl (fun s a => holdAxis before a s) s
  let s := markConfirmed before held s
  let s := (List.finRange 16).foldl (fun s t => followSp before t s) s
  let s := hostAxes.foldl (fun s a => inPositionPour a (rereferencePour a (hardStopPour a s))) s
  let s := (List.finRange 112).foldl (fun s a => histPour a s) s
  let s := linkPour (fun a => s.axes[a].regs.actPos) (fioPour s)
  let s := streamImage (publishImage (fillContexts (ownEntries (loadPours s))))
  let s := { s with
    genSeed := s.freeCtr, freeCtr := s.freeCtr + 1
    stage := { s.stage with done := some (pourNum s) }
    power := { s.power with vault := { s.power.vault with snap := vaultSnap s } } }
  drainRx (steepBegin s)

/-- POUR_POINT (R55): DT reaches the pour point; before a domain start there is none. -/
def execPourPoint (s : State) : Host.Outcome State Fault Refusal :=
  if pourLen s = 0 || !clocksRun s then .next s
  else
    let q := comingPour s
    let s := closeSlots s
    let pred := s.slots.map (·.predicted)
    let true_ := s.slots.map slotSteep
    .next (pourWork (fun i => pred[i]) (fun i => true_[i]) { s with dt := pourAt s q })

/-! ### PWM update instants (R333, R80) -/

/-- Unstaged commands of a local-mode tile wait for the position-loop tick, a period start of its division (R80, R189). -/
def flushTick (t : Fin 16) (s : State) : State :=
  let q := s.tiles[t].pw.tickQ
  let s := modTile t (fun tl => { tl with pw := { tl.pw with tickQ := [] } }) s
  q.foldl (fun s c => match stageOpOf c.op with
    | some o => if stagedStatus o c s = Status.ok then o.apply c.p s else s
    | none => s) s
/-- PWM_UPDATE_INSTANT (R333). -/
def execPwmUpdateInstant (t : Fin 16) (centre : Bool) (s : State) : Host.Outcome State Fault Refusal :=
  let s := pwmUpdate t centre s
  .next (if !centre && onCarrier s t false && (s.tiles[t].regs.tileState ≠ 2 || tickPeriod s t) then flushTick t s else s)

end Sys2Proof.Machine
end

