-- ==== Sys2Proof/Machine/FrameRx.lean ====
section
/-! DEFINITION. POUR_FRAME_ARRIVAL: a copy of a pour or time frame arrives at a port (R117, R120 to R125, R130, R142 to R144). -/

namespace Sys2Proof.Machine

/-! ### The header (R122) -/

def frameFlag (f : PourFrame) (i : Nat) : Bool := (f.words.getD 0 0).getLsbD (8 + i)
def frameWest (f : PourFrame) : Bool := frameFlag f 0
def frameWrapped (f : PourFrame) : Bool := frameFlag f 1
def frameIsPour (f : PourFrame) : Bool := (f.words.getD 0 0).extractLsb' 0 8 = 0xA7
def frameSegment (f : PourFrame) : BitVec 4 := (f.words.getD 0 0).extractLsb' 16 4
def frameHops (f : PourFrame) : BitVec 8 := (f.words.getD 0 0).extractLsb' 24 8
def framePour (f : PourFrame) : BitVec 64 := f.words.getD 2 0 ++ f.words.getD 1 0
/-- A frame of the ring: type, segment and HEADER_CRC are good.  Any other is dropped (log entry 124). -/
def frameGood (s : State) (r : Fin 2) (f : PourFrame) : Bool :=
  let t := (f.words.getD 0 0).extractLsb' 0 8
  (t = 0xA7 || t = 0xA6) && frameSegment f = (ringPlan s r).segNum && crcWords (f.words.take 7) = f.words.getD 7 0
    && 8 ≤ f.words.length

/-! ### Time (R39, R40, R120) -/

/-- The copy comes from the upstream neighbour: at an intact ring position k up to N / 2 the east-bound one, above it the
west-bound one; in a wrapped ring the first of the pour cycle, which comes on the path from the master (R120). -/
def upstreamCopy (s : State) (f : PourFrame) : Bool :=
  if ringState s 0 = 2 then !s.time.measured
  else if 2 * ringPosOf s 0 ≤ ringN s 0 then !frameWest f else frameWest f

/-- Own DT less the header stamp and LINK_DELAY, in 2^-32 ns; the stamp holds ns [31:0] (R120). -/
def frameOffset (port : Fin 4) (f : PourFrame) (s : State) : Int :=
  let d : BitVec 64 := s.dt.truncate 64 - (f.words.getD 3 0 ++ f.words.getD 4 0)
  d.toInt - roundDiv ((s.link.ports[port].regs.linkDelay.toNat : Int) * 2 ^ 32) 1000

/-- The offset of an upstream frame is measured once a pour cycle, or gives DT to a module that has none (R39, R40).  A
grandmaster that has lost its DT takes its ring position 1 as upstream for one load and resumes its role (R565). -/
def frameTime (port : Fin 4) (f : PourFrame) (s : State) : State :=
  if s.time.regs.roleGm && !s.time.ownDt && (ringPlan s 0).east = some port then
    loadDt (f.dtFull.toInt + roundDiv ((s.link.ports[port].regs.linkDelay.toNat : Int) * 2 ^ 32) 1000) s
  else if s.time.regs.roleGm || !upstreamCopy s f || (s.link.started && s.time.measured) then s
  else
    let s := modTimeRegs (fun r => { r with upstreamPort := BitVec.ofNat 2 port.val, source := 1 }) s
    if s.time.ownDt then
      let ps := freeRound s (frameOffset port f s * 1000) (2 ^ 32)
      measure (sat32 ps) (drawn s)
    else
      let delay := roundDiv ((s.link.ports[port].regs.linkDelay.toNat : Int) * 2 ^ 32) 1000
      let s := loadDt (f.dtFull.toInt + delay) s
      enterTimeState 1 (modTime (fun t => { t with measured := true, missRun := 0, lockRun := 0, unlockRun := 0 }) s)

/-! ### Entries (R113, R125, R130, R144) -/

/-- A slot with a bad SLOT_CRC: counted, and told at most once a millisecond (R147). -/
def slotCrcBad (port : Fin 4) (s : State) : State :=
  let s := modPort port (fun x => { x with
    crcSince := x.crcSince + 1
    regs := { x.regs with
      slotCrcErrCount := satInc x.regs.slotCrcErrCount, cntOvf := x.regs.cntOvf || satFull x.regs.slotCrcErrCount } }) s
  let x := s.link.ports[port]
  let due : Bool := (x.crcAt).all fun t => decide (t.toNat + 1000000 * 2 ^ 32 ≤ s.dt.toNat)
  if due = true then
    note Ev.slotCrcError (srcPort port) (natWord x.crcSince) 0 0
      (modPort port (fun x => { x with crcSince := 0, crcAt := some s.dt }) s)
  else s

/-- The master slots that follow an entry. -/
def entrySlots (s : State) (e : MasterEntry) : List (Fin 32) :=
  (List.finRange 32).filter fun i =>
    let r := s.slots[i].regs
    r.slotState ≠ 0 && r.pubId = e.publisher && r.entryIndex.toNat = e.index

/-- When a byte offset of the frame can be read behind the receive FIFO (R128, R152). -/
def readableAt (s : State) (off : Nat) : Fix :=
  fixRaw (s.dt.toInt + roundDiv (((3200 * off + fifoPs (ownClock s)) : Nat) * 2 ^ 32) 1000)

/-- An entry, by publisher and index, is delivered to its followers from the first good copy (R125, R144). -/
def deliverEntry (at_ : Fix) (e : MasterEntry) (s : State) : State :=
  let key := (e.publisher, e.index, e.pour)
  let is := entrySlots s e
  if !e.valid || is.isEmpty || s.link.taken.contains key then s
  else
    let m : MasterSample :=
      { pour := e.pour, pos := e.pos, valid := true, crcOk := true, stopping := e.stopping, uncertain := e.uncertain }
    let s := modLink (fun l => { l with
      taken := key :: keepTaken e.pour l.taken, rx := l.rx ++ is.map fun i => { at_ := at_, slot := i, sample := m } }) s
    if e.replay then modSeg (fun r => { r with
      replayTakenCount := satInc r.replayTakenCount, cntOvf := r.cntOvf || satFull r.replayTakenCount }) s else s

/-- A bridge stores an entry that its slot in the other ring forwards, with one bridge crossed more; one that came less than
1 us before the pour point waits a frame longer, with LATE_HOP (R113, R130). -/
def storeEntry (r : Fin 2) (at_ : Fix) (e : MasterEntry) (s : State) : State :=
  let o : Fin 2 := 1 - r
  let wanted := (slotPlan (ringPlan s o) (ringPosOf s o)).entries.any fun x => x.axis.isNone && x.source = some (e.writer, e.index)
  let key := (e.publisher, 65536 + e.writer * 16 + e.index, e.pour)
  if !wanted || s.link.taken.contains key then s
  else
    let late := decide ((pourAt s ((pourNum s).toNat + 1)).toNat < at_.toNat + 1000 * 2 ^ 32)
    let e := { e with replay := false, lateHop := e.lateHop || late, bridges := e.bridges + 1 }
    let s := modLinkRing o (fun x => { x with store := x.store ++ [(late, e)] })
      (modLink (fun l => { l with taken := key :: keepTaken e.pour l.taken }) s)
    if late then note Ev.bridgeLate srcSegment 0 0 0 (modSeg (fun r => { r with
      lateHopCount := satInc r.lateHopCount, cntOvf := r.cntOvf || satFull r.lateHopCount }) s)
    else s

/-- One entry of a frame: writer and place in the ring, and the words that carry it. -/
def takeEntry (r : Fin 2) (at_ : Fix) (writer k : Nat) (ws : List Word) (s : State) : State :=
  match (slotPlan (ringPlan s r) writer).entries[k]? with
  | none => s
  | some x =>
    let e := readEntry x.publisher writer k ws
    let s := if e.valid then storeEntry r at_ e s else s
    deliverEntry at_ { e with index := x.index } s

/-- The slot of a ring position: nothing written yet, a bad SLOT_CRC, or entries to take (R123, R125). -/
def takeSlot (port : Fin 4) (r : Fin 2) (f : PourFrame) (s : State) (k : Nat) : State :=
  let rp := ringPlan s r
  let n := slotBytes (slotPlan rp k) / 4
  let ws := (f.words.drop (slotStart rp k / 4)).take n
  if k = ringPosOf s r || ws.all (· = 0) then s
  else if !slotGood (framePour f) ws then slotCrcBad port s
  else (List.range (slotPlan rp k).entries.length).foldl (fun s i =>
    takeEntry r (readableAt s (slotEnd rp k)) k i ((ws.drop (1 + 4 * i)).take 4) s) s

/-- The words of the replay area, its count and its records of five words (R127). -/
def replayArea (rp : RingPlan) (f : PourFrame) : List Word := f.words.drop (slotStart rp rp.slots.length / 4)
def takeReplay (r : Fin 2) (f : PourFrame) (s : State) : State :=
  let rp := ringPlan s r
  let ws := replayArea rp f
  if !frameFlag f 2 then s
  else (List.range (min (ws.getD 0 0).toNat (2 * ringEntries rp))).foldl (fun s i =>
    let rec_ := (ws.drop (1 + 5 * i)).take 5
    let h := rec_.getD 0 0
    takeEntry r (readableAt s (slotStart rp rp.slots.length + 4 + 20 * (i + 1)))
      (h.extractLsb' 0 8).toNat (h.extractLsb' 8 8).toNat (rec_.drop 1) s) s

/-! ### The copy goes on (R117, R121, R142 to R144) -/

/-- The replay records of this module: its entries of the two pours before that of the frame, with REPLAY (R144). -/
def replayRecords (r : Fin 2) (pour : BitVec 64) (s : State) : List (List Word) :=
  let l := s.link.rings[r].published.filter fun p => p.1 ≠ pour
  (l.take 2).flatMap fun p => p.2.zipIdx.map fun e =>
    natWord (ringPosOf s r % 256 + e.2 % 256 * 256) :: entryWords { e.1 with replay := true }
/-- A frame with the records behind those that it has (R127). -/
def withReplay (rp : RingPlan) (recs : List (List Word)) (ws : List Word) : List Word :=
  let i := slotStart rp rp.slots.length / 4
  let n := (ws.getD i 0).toNat
  let m := min recs.length (2 * ringEntries rp - n)
  if ws.length ≤ i then ws
  else putWords (putWords ws i [natWord (n + m)]) (i + 1 + 5 * n) (recs.take m).flatten

/-- The copy ends here: it has come back to the segment master, or it is an unwrapped west-bound one at the end whose west port
is broken (R121, R142, R143). -/
def copyEnds (r : Fin 2) (port : Fin 4) (f : PourFrame) (s : State) : Bool :=
  let x := s.link.rings[r]
  if x.master then !isEast s r port || !frameWrapped f || x.wrapWest
  else x.wrapWest && frameWest f && !frameWrapped f

/-- A copy for a port on which another is leaving: a wrapped one ends an unwrapped one with an abort symbol, and an unwrapped one
ends before a wrapped one (R142). -/
def contend (port : Fin 4) (wrapped : Bool) (tx : Fix) (s : State) : Bool × State :=
  match s.link.ports[port].txUntil with
  | some (until_, w) =>
    if decide (until_.toNat ≤ tx.toNat) || w = wrapped then (true, s)
    else if wrapped then (true, emitAt port (.abort port) s)
    else (false, emitAt port (.abort port) s)
  | none => (true, s)

/-- The copy is forwarded 180 ns after its arrival, turned back at a break end, with the own slot and, in the first wrapped
frame, the replay records written, the stamp and the header CRC new (R117, R121, R122, R142, R144). -/
def forwardFrame (r : Fin 2) (port : Fin 4) (f : PourFrame) (s : State) : State :=
  let rp := ringPlan s r
  let x := s.link.rings[r]
  let turn := if frameWest f then x.wrapWest else x.wrapEast
  let wrapped := frameWrapped f || turn
  let west := if turn then !frameWest f else frameWest f
  let hops := frameHops f + 1 + (if turn then 1 else 0)
  let first := wrapped && !x.replayDone && frameIsPour f && slotsOn s
  let tx := s.dt + fixNat 180
  let body := if frameIsPour f then withOwnSlot s r (framePour f) f.words else f.words
  let recs := if first then replayRecords r (framePour f) s else []
  let body := if recs.isEmpty then body else withReplay rp recs body
  let head := frameHeader (if frameIsPour f then 0xA7 else 0xA6) (frameFlags west wrapped (frameFlag f 2 || !recs.isEmpty)) hops
    rp.segNum (framePour f) tx s.link.plan.crc
  let s := if first then modLinkRing r (fun x => { x with replayDone := true }) s else s
  match (if turn then some port else if west then rp.west else rp.east) with
  | none => s
  | some out =>
    let (go, s) := contend out wrapped tx s
    if go then sendFrame out wrapped tx (head ++ body.drop 8) s else s

/-- POUR_FRAME_ARRIVAL (R121 to R125, R130, R142, R144). -/
def execPourFrameArrival (port : Fin 4) (f : PourFrame) (s : State) : Host.Outcome State Fault Refusal :=
  .next (match ringOf s port with
    | none => s
    | some r =>
      if s.link.ports[port].regs.portState.toNat < 4 || !frameGood s r f then s
      else
        let s := modPort port (fun x => { x with frameAt := some s.dt }) (unsent s)
        let s := if r = 0 then frameTime port f s else s
        let s := if frameIsPour f && s.link.started then modPortRegs port (fun r => { r with portState := 5 }) s else s
        let s := if frameIsPour f then
            (if frameWrapped f then enterWrapped r s else if ringState s r = 0 then setRingState r 1 s else s)
          else s
        let rp := ringPlan s r
        let s := if frameIsPour f && rp.slots.length ≠ 0 && 8 < f.words.length then
            takeReplay r f ((List.range rp.slots.length).foldl (takeSlot port r f) s)
          else s
        let s := if copyEnds r port f s then s else forwardFrame r port f s
        drainRx s)

end Sys2Proof.Machine
end

