-- ==== Sys2Proof/Machine/Le.lean ====
section
/-! DEFINITION. The instructions of the loop engines (R290 to R296): engine e issues one. -/

namespace Sys2Proof.Machine

abbrev Out := Host.Outcome State Fault Refusal

/-! ### Control (opcode 0x00) -/

/-- NOP: none. -/
def execLeNop (e : Fin 32) (s : State) : Out :=
  .next (issue e true true (fun en _ => .done en [] 1) s)

/-- TEXIT: ends the tick after two delay slots; illegal in background code. -/
def execLeTexit (e : Fin 32) (s : State) : Out :=
  .next (issue e false false (fun en _ =>
    if en.inTick then .done { en with transfer := some (.exit_, 2) } [] 1 else .fault 1 0) s)

/-- WAIT: background only; issue stops until a tick has run. -/
def execLeWait (e : Fin 32) (s : State) : Out :=
  let t := issue e false false (fun en _ =>
    if en.inTick then .fault 1 0 else .done { en with waiting := true } [] 1) s
  .next (if t.engines[e].waiting then flushLate e t else t)

/-- BKPT: a debug halt if the debug port enables it for the engine, otherwise as NOP. -/
def execLeBkpt (e : Fin 32) (s : State) : Out :=
  let en := s.engines[e]
  let t := issue e true false (fun en _ => .done en [] 1) s
  .next (if en.issues && en.rep = 0 && en.bkptEn then debugHalt e en.pc t else t)

/-- CLRF: SR[15:8] loses the bits of imm[15:8]. -/
def execLeClrf (e : Fin 32) (imm : BitVec 16) (s : State) : Out :=
  .next (issue e true true (fun en _ => .done (en.putSr (en.sr &&& ~~~(imm &&& 0xFF00))) [] 1) s)

/-- MOVSR: Gd = SR. -/
def execLeMovsr (e : Fin 32) (d : Fin 16) (s : State) : Out :=
  .next (issue e true true (fun en _ => .done (en.put d en.srWord) [] 1) s)

/-- EVT: raises LE_USER_EVENT with P0 = imm16, P1 = Ga. -/
def execLeEvt (e : Fin 32) (a : Fin 16) (imm : BitVec 16) (s : State) : Out :=
  let en := s.engines[e]
  let s := if en.issues && en.rep = 0 then note Ev.leUserEvent (srcEngine e) (imm.zeroExtend 32) (en.g a) 0 s else s
  .next (issue e true false (fun en _ => .done { en with regs := { en.regs with
    userEventCount := satInc en.regs.userEventCount
    cntOvf := en.regs.cntOvf || satFull en.regs.userEventCount } } [] 1) s)

/-! ### ALU -/

/-- ADD: Gd = Ga + Gb. -/
def execLeAdd (e : Fin 32) (d a b : Fin 16) (s : State) : Out :=
  .next (issue e true true (fun en _ => aluOut en d (aluAdd (en.g a) (en.g b))) s)

/-- ADDS: Gd = sat32(Ga + Gb). -/
def execLeAdds (e : Fin 32) (d a b : Fin 16) (s : State) : Out :=
  .next (issue e true true (fun en _ => aluOut en d (aluSatV ((en.g a).toInt + (en.g b).toInt))) s)

/-- SUB: Gd = Ga − Gb. -/
def execLeSub (e : Fin 32) (d a b : Fin 16) (s : State) : Out :=
  .next (issue e true true (fun en _ => aluOut en d (aluSub (en.g a) (en.g b))) s)

/-- SUBS: Gd = sat32(Ga − Gb). -/
def execLeSubs (e : Fin 32) (d a b : Fin 16) (s : State) : Out :=
  .next (issue e true true (fun en _ => aluOut en d (aluSatV ((en.g a).toInt - (en.g b).toInt))) s)

/-- AND: bitwise. -/
def execLeAnd (e : Fin 32) (d a b : Fin 16) (s : State) : Out :=
  .next (issue e true true (fun en _ => aluOut en d (aluZn (en.g a &&& en.g b))) s)

/-- OR: bitwise. -/
def execLeOr (e : Fin 32) (d a b : Fin 16) (s : State) : Out :=
  .next (issue e true true (fun en _ => aluOut en d (aluZn (en.g a ||| en.g b))) s)

/-- XOR: bitwise. -/
def execLeXor (e : Fin 32) (d a b : Fin 16) (s : State) : Out :=
  .next (issue e true true (fun en _ => aluOut en d (aluZn (en.g a ^^^ en.g b))) s)

/-- SHL: shift by Gb[5:0]; with a count of 0 no bit is shifted out and C is free. -/
def execLeShl (e : Fin 32) (d a b : Fin 16) (s : State) : Out :=
  .next (issueFree e (fun en s => aluOut en d (aluShl (en.g a) ((en.g b).toNat % 64) (freeBool s))) s)

/-- SHR: shift by Gb[5:0]; with a count of 0 no bit is shifted out and C is free. -/
def execLeShr (e : Fin 32) (d a b : Fin 16) (s : State) : Out :=
  .next (issueFree e (fun en s => aluOut en d (aluShr (en.g a) ((en.g b).toNat % 64) (freeBool s))) s)

/-- ASR: shift by Gb[5:0]; with a count of 0 no bit is shifted out and C is free. -/
def execLeAsr (e : Fin 32) (d a b : Fin 16) (s : State) : Out :=
  .next (issueFree e (fun en s => aluOut en d (aluAsr (en.g a) ((en.g b).toNat % 64) (freeBool s))) s)

/-- MIN: signed. -/
def execLeMin (e : Fin 32) (d a b : Fin 16) (s : State) : Out :=
  .next (issue e true true (fun en _ => aluOut en d (aluMin (en.g a) (en.g b))) s)

/-- MAX: signed. -/
def execLeMax (e : Fin 32) (d a b : Fin 16) (s : State) : Out :=
  .next (issue e true true (fun en _ => aluOut en d (aluMax (en.g a) (en.g b))) s)

/-- ABSS: Gd = sat32(|Ga|). -/
def execLeAbss (e : Fin 32) (d a : Fin 16) (s : State) : Out :=
  .next (issue e true true (fun en _ => aluOut en d (aluSat (en.g a).toInt.natAbs)) s)

/-- NEGS: Gd = sat32(−Ga). -/
def execLeNegs (e : Fin 32) (d a : Fin 16) (s : State) : Out :=
  .next (issue e true true (fun en _ => aluOut en d (aluSat (-(en.g a).toInt))) s)

/-- CLAMP: Gd = min(max(Gd, Ga), Gb). -/
def execLeClamp (e : Fin 32) (d a b : Fin 16) (s : State) : Out :=
  .next (issue e true true (fun en _ => aluOut en d (aluClamp (en.g d) (en.g a) (en.g b))) s)

/-- MOV: Gd = Ga. -/
def execLeMov (e : Fin 32) (d a : Fin 16) (s : State) : Out :=
  .next (issue e true true (fun en _ => aluOut en d (aluZn (en.g a))) s)

/-- CMP: flags of Ga − Gb. -/
def execLeCmp (e : Fin 32) (a b : Fin 16) (s : State) : Out :=
  .next (issue e true true (fun en _ => .done (en.putSr (aluSr (aluSub (en.g a) (en.g b)) en.sr)) [] 1) s)

/-! ### Floating point and SINCOS -/

/-- A binary32 result lands after two slots; FPE at once. -/
def fpOut (en : Engine) (d : Fin 16) (r : Word × Bool) : LeOut :=
  .done (en.putSr (srStick 11 r.2 en.sr)) [lateG en d r.1 2] 1

/-- FADD: Gd = Ga + Gb. -/
def execLeFadd (e : Fin 32) (d a b : Fin 16) (s : State) : Out :=
  .next (issueFree e (fun en s => fpOut en d (f32Add (en.g a) (en.g b) (freeWord s))) s)

/-- FSUB: Gd = Ga − Gb. -/
def execLeFsub (e : Fin 32) (d a b : Fin 16) (s : State) : Out :=
  .next (issueFree e (fun en s => fpOut en d (f32Add (en.g a) (f32Neg (en.g b)) (freeWord s))) s)

/-- FMUL: Gd = Ga × Gb. -/
def execLeFmul (e : Fin 32) (d a b : Fin 16) (s : State) : Out :=
  .next (issueFree e (fun en s => fpOut en d (f32Mul (en.g a) (en.g b) (freeWord s))) s)

/-- FCVTIF: integer to binary32. -/
def execLeFcvtif (e : Fin 32) (d a : Fin 16) (s : State) : Out :=
  .next (issue e true true (fun en _ => fpOut en d (f32OfInt (en.g a), false)) s)

/-- FCVTFI: binary32 to integer. -/
def execLeFcvtfi (e : Fin 32) (d a : Fin 16) (s : State) : Out :=
  .next (issue e true true (fun en _ => fpOut en d (f32ToInt (en.g a))) s)

/-- SINCOS: Gd = sin, Gd+1 = cos of 2π × Ga ÷ 2^32 in Q1.31 within 4 LSB, after three slots; an odd Gd is illegal. -/
def execLeSincos (e : Fin 32) (d a : Fin 16) (s : State) : Out :=
  .next (issueFree e (fun en s =>
    if d.val % 2 = 1 then .fault 1 0
    else .done en [lateG en d (sinFree s 4 (sin80 (en.g a))) 3,
      lateG en (d + 1) (sinFree (drawn s) 4 (cos80 (en.g a))) 3] 1) (if s.engines[e].issues then drawn s else s))

/-! ### Immediates -/

/-- ADDI: Gd = Ga + imm. -/
def execLeAddi (e : Fin 32) (d a : Fin 16) (imm : BitVec 18) (s : State) : Out :=
  .next (issue e true true (fun en _ => aluOut en d (aluAdd (en.g a) (imm.signExtend 32))) s)

/-- ANDI: immediate zero-extended. -/
def execLeAndi (e : Fin 32) (d a : Fin 16) (imm : BitVec 18) (s : State) : Out :=
  .next (issue e true true (fun en _ => aluOut en d (aluZn (en.g a &&& imm.zeroExtend 32))) s)

/-- ORI: immediate zero-extended. -/
def execLeOri (e : Fin 32) (d a : Fin 16) (imm : BitVec 18) (s : State) : Out :=
  .next (issue e true true (fun en _ => aluOut en d (aluZn (en.g a ||| imm.zeroExtend 32))) s)

/-- SHLI: shift by imm[5:0]; with a count of 0 C is free. -/
def execLeShli (e : Fin 32) (d a : Fin 16) (imm : BitVec 18) (s : State) : Out :=
  .next (issueFree e (fun en s => aluOut en d (aluShl (en.g a) (imm.toNat % 64) (freeBool s))) s)

/-- SHRI: shift by imm[5:0]; with a count of 0 C is free. -/
def execLeShri (e : Fin 32) (d a : Fin 16) (imm : BitVec 18) (s : State) : Out :=
  .next (issueFree e (fun en s => aluOut en d (aluShr (en.g a) (imm.toNat % 64) (freeBool s))) s)

/-- ASRI: shift by imm[5:0]; with a count of 0 C is free. -/
def execLeAsri (e : Fin 32) (d a : Fin 16) (imm : BitVec 18) (s : State) : Out :=
  .next (issueFree e (fun en s => aluOut en d (aluAsr (en.g a) (imm.toNat % 64) (freeBool s))) s)

/-- CMPI: flags of Ga − imm. -/
def execLeCmpi (e : Fin 32) (a : Fin 16) (imm : BitVec 18) (s : State) : Out :=
  .next (issue e true true (fun en _ => .done (en.putSr (aluSr (aluSub (en.g a) (imm.signExtend 32)) en.sr)) [] 1) s)

/-- MOVI: Gd = imm. -/
def execLeMovi (e : Fin 32) (d : Fin 16) (imm : BitVec 18) (s : State) : Out :=
  .next (issue e true true (fun en _ => .done (en.put d (imm.signExtend 32)) [] 1) s)

/-- MOVHI: Gd[31:16] = imm16. -/
def execLeMovhi (e : Fin 32) (d : Fin 16) (imm : BitVec 16) (s : State) : Out :=
  .next (issue e true true (fun en _ => .done (en.put d (imm ++ (en.g d).extractLsb' 0 16)) [] 1) s)

/-! ### Control transfers and repetition -/

/-- JMPR: PC = Ga[12:0] after two delay slots. -/
def execLeJmpr (e : Fin 32) (a : Fin 16) (s : State) : Out :=
  .next (issue e false false (fun en _ =>
    .done { en with transfer := some (.jump ((en.g a).truncate 13), 2) } [] 1) s)

/-- DBNZ: Ga = Ga − 1; branches if it is not 0. -/
def execLeDbnz (e : Fin 32) (a : Fin 16) (target : BitVec 13) (s : State) : Out :=
  .next (issue e false false (fun en _ =>
    .done { (en.put a (en.g a - 1)) with transfer := some (if en.g a - 1 = 0 then .none_ else .jump target, 2) } [] 1) s)

/-- RPT: the next instruction issues n + 1 times, n being the field (R290 T). -/
def execLeRpt (e : Fin 32) (n : Fin 65536) (s : State) : Out :=
  .next (issue e false false (fun en _ => .done { en with rep := n.val + 1 } [] 1) s)

/-- BR: branches after two delay slots if the condition holds; condition 15 is illegal. -/
def execLeBr (e : Fin 32) (cond : BitVec 4) (target : BitVec 13) (s : State) : Out :=
  .next (issue e false false (fun en _ =>
    if cond = 15 then .fault 1 0 else .done { en with transfer := some (if condHolds cond en.sr then .jump target else .none_, 2) } [] 1) s)

/-- CALL: G14 = address of CALL + 3; branches after two delay slots. -/
def execLeCall (e : Fin 32) (target : BitVec 13) (s : State) : Out :=
  .next (issue e false false (fun en _ =>
    .done { (en.put 14 ((en.pc + 3).zeroExtend 32)) with transfer := some (.jump target, 2) } [] 1) s)

/-! ### Accumulators -/

/-- Ga × Gb, exact. -/
def prod (en : Engine) (a b : Fin 16) : Int := (en.g a).toInt * (en.g b).toInt

/-- MUL: ACn = Ga × Gb. -/
def execLeMul (e : Fin 32) (n : Bool) (a b : Fin 16) (s : State) : Out :=
  .next (issue e true true (fun en _ => .done (en.setAc n (prod en a b)) [] 1) s)

/-- MAC: ACn = ACn + Ga × Gb. -/
def execLeMac (e : Fin 32) (n : Bool) (a b : Fin 16) (s : State) : Out :=
  .next (issue e true true (fun en _ => .done (en.setAc n ((en.ac n).toInt + prod en a b)) [] 1) s)

/-- MSU: ACn = ACn − Ga × Gb. -/
def execLeMsu (e : Fin 32) (n : Bool) (a b : Fin 16) (s : State) : Out :=
  .next (issue e true true (fun en _ => .done (en.setAc n ((en.ac n).toInt - prod en a b)) [] 1) s)

/-- MACUS: ACn = ACn + zext(Ga) × Gb. -/
def execLeMacus (e : Fin 32) (n : Bool) (a b : Fin 16) (s : State) : Out :=
  .next (issue e true true (fun en _ =>
    .done (en.setAc n ((en.ac n).toInt + (en.g a).toNat * (en.g b).toInt)) [] 1) s)

/-- MAC2: AC0 += Ga × Gb and AC1 += Gc × Gd. -/
def execLeMac2 (e : Fin 32) (a b c d : Fin 16) (s : State) : Out :=
  .next (issue e true true (fun en _ =>
    .done ((en.setAc false (en.ac0.toInt + prod en a b)).setAc true (en.ac1.toInt + prod en c d)) [] 1) s)

/-- MLD: ACn += Ga × Gb; Gc = [Pi], Gg = [Pj], both post-modified in that order; data memory only. -/
def mldOut (en : Engine) (n : Bool) (a b c : Fin 16) (pi : Fin 8) (g : Fin 16) (pj : Fin 8) : LeOut :=
  let ai := en.p[pi].toNat
  let en1 := en.modP pi
  let aj := en1.p[pj].toNat
  match allIn .data ai 1, allIn .data aj 1 with
  | some (k, x), _ => .fault k (BitVec.ofNat 32 x)
  | none, some (k, x) => .fault k (BitVec.ofNat 32 x)
  | none, none => .done ((en1.modP pj).setAc n ((en.ac n).toInt + prod en a b))
      [lateG en c (dataWord en ai) 2, lateG en g (dataWord en aj) 2] 1

/-- MLD. -/
def execLeMld (e : Fin 32) (n : Bool) (a b c : Fin 16) (pi : Fin 8) (g : Fin 16) (pj : Fin 8) (s : State) : Out :=
  .next (issue e true true (fun en _ => mldOut en n a b c pi g pj) s)

/-- MULL: Gd = (Ga × Gb)[31:0] after one slot; its flags at once. -/
def execLeMull (e : Fin 32) (d a b : Fin 16) (s : State) : Out :=
  .next (issue e true true (fun en _ =>
    .done (en.putSr (aluSr (aluZn (en.g a * en.g b)) en.sr)) [lateG en d (en.g a * en.g b) 1] 1) s)

/-- CLRA: ACn = 0. -/
def execLeClra (e : Fin 32) (n : Bool) (s : State) : Out :=
  .next (issue e true true (fun en _ => .done (en.putAc n 0) [] 1) s)

/-- MOVA: ACn = sext({Ga, Gb}). -/
def execLeMova (e : Fin 32) (n : Bool) (a b : Fin 16) (s : State) : Out :=
  .next (issue e true true (fun en _ => .done (en.putAc n ((en.g a ++ en.g b).signExtend 80)) [] 1) s)

/-- ADDA: ACn = ACn + ACm. -/
def execLeAdda (e : Fin 32) (n m : Bool) (s : State) : Out :=
  .next (issue e true true (fun en _ => .done (en.setAc n ((en.ac n).toInt + (en.ac m).toInt)) [] 1) s)

/-- ASRA: ACn = ACn >> sh; a negative sh shifts left. -/
def execLeAsra (e : Fin 32) (n : Bool) (sh : BitVec 6) (s : State) : Out :=
  .next (issue e true true (fun en _ =>
    .done (en.setAc n (if sh.msb then (en.ac n).toInt * 2 ^ (-sh.toInt).toNat else shrInt (en.ac n).toInt sh.toNat)) [] 1) s)

/-- SATA: saturates ACn to w bits, w = 2 to 63; SATn where it changed. -/
def sataOut (en : Engine) (n : Bool) (w : BitVec 6) : LeOut :=
  if w.toNat < 2 then .fault 1 0
  else
    let x := (en.ac n).toInt
    let y := satBits w.toNat x
    .done ((en.putAc n (BitVec.ofInt 80 y)).putSr (srStick (if n then 10 else 9) (y != x) en.sr)) [] 1

/-- SATA. -/
def execLeSata (e : Fin 32) (n : Bool) (w : BitVec 6) (s : State) : Out :=
  .next (issue e true true (fun en _ => sataOut en n w) s)

/-- SATX: Gd = sat32(ACn >> sh) after one slot. -/
def satxOut (en : Engine) (d : Fin 16) (n : Bool) (sh : BitVec 6) : LeOut :=
  let x := shrInt (en.lag n).toInt sh.toNat
  .done (en.putSr (srStick 8 (over32 x) en.sr)) [lateG en d (sat32 x) 1] 1

/-- SATX. -/
def execLeSatx (e : Fin 32) (d : Fin 16) (n : Bool) (sh : BitVec 6) (s : State) : Out :=
  .next (issue e true true (fun en _ => satxOut en d n sh) s)

/-- EXTL: Gd = ACn[31:0]. -/
def execLeExtl (e : Fin 32) (d : Fin 16) (n : Bool) (s : State) : Out :=
  .next (issue e true true (fun en _ => .done en [lateG en d ((en.lag n).extractLsb' 0 32) 1] 1) s)

/-- EXTH: Gd = ACn[63:32]. -/
def execLeExth (e : Fin 32) (d : Fin 16) (n : Bool) (s : State) : Out :=
  .next (issue e true true (fun en _ => .done en [lateG en d ((en.lag n).extractLsb' 32 32) 1] 1) s)

/-- EXTG: Gd = sext(ACn[79:64]). -/
def execLeExtg (e : Fin 32) (d : Fin 16) (n : Bool) (s : State) : Out :=
  .next (issue e true true (fun en _ => .done en [lateG en d (((en.lag n).extractLsb' 64 16).signExtend 32) 1] 1) s)

/-! ### Loads and stores -/

/-- Ga + imm as a word address. -/
def ea (en : Engine) (a : Fin 16) (imm : BitVec 18) : Nat := (en.g a + imm.signExtend 32).toNat

/-- LD: loads a word; a read of 0x6004 captures DT. -/
def execLeLd (e : Fin 32) (d a : Fin 16) (imm : BitVec 18) (s : State) : Out :=
  .next (issue e true true (fun en s => loadG s e en d (ea en a imm)) s)

/-- ST: stores Gd. -/
def execLeSt (e : Fin 32) (d a : Fin 16) (imm : BitVec 18) (s : State) : Out :=
  .next (issue e true true (fun en s => storeWord s e en (ea en a imm) (en.g d)) s)

/-- LDA: absolute load. -/
def execLeLda (e : Fin 32) (d : Fin 16) (addr : BitVec 16) (s : State) : Out :=
  .next (issue e true true (fun en s => loadG s e en d addr.toNat) s)

/-- STA: absolute store of Gg. -/
def execLeSta (e : Fin 32) (g : Fin 16) (addr : BitVec 16) (s : State) : Out :=
  .next (issue e true true (fun en s => storeWord s e en addr.toNat (en.g g)) s)

/-- LDP: a load through Pi, then the post-modification. -/
def ldpOut (s : State) (e : Fin 32) (en : Engine) (d : Fin 16) (pi : Fin 8) : LeOut :=
  match loadG s e en d en.p[pi].toNat with
  | .fault c x => .fault c x
  | .done en l k => .done (en.modP pi) l k

/-- LDP. -/
def execLeLdp (e : Fin 32) (d : Fin 16) (pi : Fin 8) (s : State) : Out :=
  .next (issue e true true (fun en s => ldpOut s e en d pi) s)

/-- STP: a store through Pi, then the post-modification. -/
def stpOut (s : State) (e : Fin 32) (en : Engine) (g : Fin 16) (pi : Fin 8) : LeOut :=
  match storeWord s e en en.p[pi].toNat (en.g g) with
  | .fault c x => .fault c x
  | .done en l k => .done (en.modP pi) l k

/-- STP. -/
def execLeStp (e : Fin 32) (g : Fin 16) (pi : Fin 8) (s : State) : Out :=
  .next (issue e true true (fun en s => stpOut s e en g pi) s)

/-- LDD: Gd, Gd+1 from two words of data memory; an odd Gd is illegal. -/
def lddOut (en : Engine) (d : Fin 16) (x : Nat) : LeOut :=
  if d.val % 2 = 1 then .fault 1 0
  else match allIn .data x 2 with
    | some (k, y) => .fault k (BitVec.ofNat 32 y)
    | none => .done en [lateG en d (dataWord en x) 2, lateG en (d + 1) (dataWord en (x + 1)) 2] 1

/-- LDD. -/
def execLeLdd (e : Fin 32) (d a : Fin 16) (imm : BitVec 18) (s : State) : Out :=
  .next (issue e true true (fun en _ => lddOut en d (ea en a imm)) s)

/-- STD: Gd, Gd+1 to two words of data memory in two cycles. -/
def stdOut (en : Engine) (d : Fin 16) (x : Nat) : LeOut :=
  if d.val % 2 = 1 then .fault 1 0
  else match allIn .data x 2 with
    | some (k, y) => .fault k (BitVec.ofNat 32 y)
    | none => .done { en with data := memPutWords en.data x [en.g d, en.g (d + 1)] } [] 2

/-- STD: takes two cycles, so it may not follow an RPT. -/
def execLeStd (e : Fin 32) (d a : Fin 16) (imm : BitVec 18) (s : State) : Out :=
  .next (issue e true false (fun en _ => stdOut en d (ea en a imm)) s)

/-- The group of four port words at x; the address and cause of the fault otherwise. -/
def groupAt (x : Nat) : Option (BitVec 8 × Nat) := if x % 4 = 0 then allIn .port x 4 else some ((allIn .port x 1).getD (4, x))

/-- LDQ: four words of one aligned port group; a Gd that is not a multiple of 4 is illegal. -/
def ldqOut (s : State) (e : Fin 32) (en : Engine) (d : Fin 16) (x : Nat) : LeOut :=
  if d.val % 4 ≠ 0 then .fault 1 0
  else match groupAt x with
    | some (k, y) => .fault k (BitVec.ofNat 32 y)
    | none => .done en ((List.range 4).map fun i =>
        lateG en (d + Fin.ofNat 16 i) (portGet s (engineCluster e) (x + i)) 4) 1

/-- LDQ. -/
def execLeLdq (e : Fin 32) (d a : Fin 16) (imm : BitVec 18) (s : State) : Out :=
  .next (issue e true true (fun en s => ldqOut s e en d (ea en a imm)) s)

/-- STQ: Gd to Gd+3 into one aligned port group. -/
def stqOut (s : State) (e : Fin 32) (en : Engine) (d : Fin 16) (x : Nat) : LeOut :=
  if d.val % 4 ≠ 0 then .fault 1 0
  else match groupAt x with
    | some (k, y) => .fault k (BitVec.ofNat 32 y)
    | none => storeWords s e en x ((List.range 4).map fun i => en.g (d + Fin.ofNat 16 i)) []

/-- STQ. -/
def execLeStq (e : Fin 32) (d a : Fin 16) (imm : BitVec 18) (s : State) : Out :=
  .next (issue e true true (fun en s => stqOut s e en d (ea en a imm)) s)

/-- STAC: [31:0], [63:32] and sext([79:64]) of ACn to three words in three cycles. -/
def stacOut (s : State) (e : Fin 32) (en : Engine) (n : Bool) (x : Nat) : LeOut :=
  let v := en.lag n
  match storeWords s e en x [v.extractLsb' 0 32, v.extractLsb' 32 32, (v.extractLsb' 64 16).signExtend 32] [] with
  | .fault c y => .fault c y
  | .done en l _ => .done en l 3

/-- STAC. -/
def execLeStac (e : Fin 32) (n : Bool) (a : Fin 16) (imm : BitVec 18) (s : State) : Out :=
  .next (issue e true false (fun en s => stacOut s e en n (ea en a imm)) s)

/-- LDAC: ACn from three words, after two slots, in two cycles. -/
def ldacOut (s : State) (e : Fin 32) (en : Engine) (n : Bool) (x : Nat) : LeOut :=
  match readWord s e en x with
  | none => .fault 3 (BitVec.ofNat 32 x)
  | some (w0, _, en) =>
    match readWord s e en (x + 1) with
    | none => .fault 3 (BitVec.ofNat 32 (x + 1))
    | some (w1, _, en) =>
      match readWord s e en (x + 2) with
      | none => .fault 3 (BitVec.ofNat 32 (x + 2))
      | some (w2, _, en) => .done en
          [{ dest := .ac n, shadow := false, val := w2.extractLsb' 0 16 ++ w1 ++ w0, left := 2 }] 2

/-- LDAC. -/
def execLeLdac (e : Fin 32) (n : Bool) (a : Fin 16) (imm : BitVec 18) (s : State) : Out :=
  .next (issue e true false (fun en s => ldacOut s e en n (ea en a imm)) s)

/-! ### Address registers -/

/-- SETA: P, MOD, LEN or BASE i = Ga, after two slots. -/
def execLeSeta (e : Fin 32) (kind : BitVec 2) (i : Fin 8) (a : Fin 16) (s : State) : Out :=
  .next (issue e true true (fun en _ =>
    .done en [{ dest := .adr kind i, shadow := false, val := (en.g a).zeroExtend 80, left := 2 }] 1) s)

/-- An address register as GETA reads it: zero-extended, MOD sign-extended. -/
def adrWord (en : Engine) (kind : BitVec 2) (i : Fin 8) : Word :=
  match kind.toNat with
  | 0 => en.p[i].zeroExtend 32
  | 1 => en.md[i].signExtend 32
  | 2 => en.len[i].zeroExtend 32
  | _ => en.base[i].zeroExtend 32

/-- GETA: Gd = that register. -/
def execLeGeta (e : Fin 32) (d : Fin 16) (kind : BitVec 2) (i : Fin 8) (s : State) : Out :=
  .next (issue e true true (fun en _ => .done (en.put d (adrWord en kind i)) [] 1) s)

end Sys2Proof.Machine
end

