-- ==== Sys2Proof/Machine/Standing.lean ====
section
/-! DEFINITION.  The W1C bits whose condition is still present (R5): clearing such a bit sets it again.  DEDUCED (log entry 119):
a bit has a lasting condition where the state that its event reports lasts (an event in force, a state left only by its end); an
occurrence (a jump, a lost record, a passed deadline) is over when it has been reported, and a saturated counter is one.  The loop
flags are set again by the loop's next tick (R255). -/

namespace Sys2Proof.Machine

def standingTime (s : State) : Word :=
  flagAt s.time.unlocked 0 ||| flagAt (s.time.regs.state = 3) 1 ||| flagAt s.time.clamped 2 ||| flagAt s.time.faulted 3
    ||| flagAt s.time.ptpLost 4

/-- Axis, following stage and slot (R213, R241, R177). -/
def standingAxis (a : Fin 112) (o : Nat) (s : State) : Word :=
  let ax := s.axes[a]
  if o = 0x1E0 then flagAt ax.posSaturated 0 ||| flagAt (ax.limitPos || ax.limitNeg) 2 ||| flagAt ax.uncertain 3
  else if o = 0x2B0 then flagAt (ax.conds.contains Ev.markMissing) 2 ||| flagAt ax.regClamped 3
  else if o = 0x37C && 80 ≤ a.val then
    let st := (s.slots[Fin.ofNat 32 (a.val - 80)]).regs.slotState
    flagAt (st = 3) 1 ||| flagAt (st = 4) 2
  else 0

/-- Tile, field control, stepper and valve parts (R354, R385, R410). -/
def standingTile (t : Fin 16) (o : Nat) (s : State) : Word :=
  let tl := s.tiles[t]
  if o = 0x0D0 then
    flagAt tl.regs.trip 0 ||| flagAt tl.pw.hallBad 2 ||| flagAt (tl.regs.tileState = 4) 3
  else if o = 0x4FC then flagAt tl.foc.noWindow 2
  else if o = 0x6E0 then flagAt tl.sv.regs.stalled 0 ||| flagAt (tl.sv.regs.underdrive ≠ 0) 1
  else 0

def standingDcl (g : Fin 4) (o : Nat) (s : State) : Word :=
  let r := s.dcls[g].regs
  if o = 0x038 then flagAt r.ovpVented 0 ||| flagAt r.brakeIneff 1 ||| flagAt r.undervolt 2 else 0

/-- Feedback (R440), by the offset in its block. -/
def standingFeedback (o : Nat) (s : State) : Word :=
  if o < 0x1400 then
    match asFin 160 (o / 0x20) with
    | some c => if o % 0x20 = 0x14 then flagAt s.sds[c].regs.overrange 8 ||| flagAt s.sds[c].regs.stuck 9 else 0
    | none => 0
  else if 0x4000 ≤ o then
    match asFin 17 ((o - 0x4000) / 0x100) with
    | some e => if o % 0x100 = 0xC0 then flagAt s.encs[e].illegal 0 else 0
    | none => 0
  else 0

/-- Field I/O (R528), by the offset in its block. -/
def standingFio (o : Nat) (s : State) : Word :=
  if o < 0x300 then
    match asFin 24 (o / 0x20) with
    | some c =>
      let r := s.fio.chans[c].regs
      if o % 0x20 = 0x1C then flagAt r.overload 0 ||| flagAt r.shortVin 1 ||| flagAt r.backfeed 2 else 0
    | none => 0
  else if o = 0x40C || o = 0x42C || o = 0x44C then flagAt (s.fio.groups[Fin.ofNat 3 ((o - 0x400) / 0x20)]).groupOverload 0
  else if o = 0x814 then flagAt s.fio.regs.undervolt 0 ||| flagAt s.fio.linkFault 1
  else 0

/-- Reset, power and Kettle (R583), by the offset in its block. -/
def standingPower (o : Nat) (s : State) : Word :=
  if o = 0x0C0 then
    flagAt s.power.warned 1 ||| flagAt (s.power.regs.sensorExcluded ≠ 0) 2 ||| flagAt s.power.v3aLimited 4
  else if 0x400 ≤ o && o < 0x600 && o % 0x20 = 0x1C then
    let tl := s.tiles[Fin.ofNat 16 ((o - 0x400) / 0x20)]
    flagAt tl.derated 0 ||| flagAt tl.ntc.ntcFault 1
  else 0

/-- The W1C bits of the word at a whose condition is present. -/
def standing (s : State) (a : Nat) : Word :=
  if a = 0x24 then flagAt s.power.cpReset 0
  else if a = 0x10030 then standingTime s
  else if 0x100000 ≤ a && a < 0x11C000 then standingAxis (Fin.ofNat 112 ((a - 0x100000) / 0x400)) (a % 0x400) s
  else if 0x400000 ≤ a && a < 0x800000 then
    if a % 0x20000 = 0x040 then flagAt ((s.engines[Fin.ofNat 32 ((a - 0x400000) / 0x20000)]).regs.leState = 3) 2 else 0
  else if 0x1000000 ≤ a && a < 0x1010000 then standingTile (Fin.ofNat 16 ((a - 0x1000000) / 0x1000)) (a % 0x1000) s
  else if 0x1010000 ≤ a && a < 0x1010400 then standingDcl (Fin.ofNat 4 ((a - 0x1010000) / 0x100)) (a % 0x100) s
  else if 0x1100000 ≤ a && a < 0x1200000 then standingFeedback (a - 0x1100000) s
  else if 0x1400000 ≤ a && a < 0x1500000 then standingFio (a - 0x1400000) s
  else if 0x1500000 ≤ a && a < 0x1540000 then
    let st := (s.cans[Fin.ofNat 4 ((a - 0x1500000) / 0x10000)]).regs.errState
    if a % 0x10000 = 0x0C0 then flagAt (st = 1) 0 ||| flagAt (st = 2) 1 else 0
  else if 0x1600000 ≤ a && a < 0x1600400 then
    let p := s.link.ports[Fin.ofNat 4 ((a - 0x1600000) / 0x100)]
    if a % 0x100 = 0x040 then flagAt p.downHeld 0 ||| flagAt p.regs.broken 1 else 0
  else if 0x1700000 ≤ a && a < 0x1700600 then standingPower (a - 0x1700000) s
  else 0

end Sys2Proof.Machine
end

