-- ==== Sys2Proof/Machine/Transport.lean ====
section
/-! DEFINITION. The transports: packets from PCIe, SPI, UDP and the tunnel, replies waiting on them, session ends, and the
register window (R21, R69 to R78, R82 to R84, R99, R100). -/

namespace Sys2Proof.Machine

abbrev OutT := Host.Outcome State Fault Refusal

/-! ### Packets as a transport delivers them (R75 to R77) -/

/-- The opcodes of the command tables: group, and the ranges of the low byte. -/
def opcodeGroups : List (Nat × List (Nat × Nat)) :=
  [(0x01, [(1, 8), (16, 21), (32, 36)]), (0x02, [(1, 11)]), (0x03, [(1, 11)]), (0x04, [(1, 16), (64, 69)])]
  ++ [(0x05, [(1, 8), (16, 21), (32, 35)]), (0x06, [(1, 11), (16, 20)]), (0x07, [(1, 9)]), (0x08, [(1, 8), (16, 18)])]
  ++ [(0x09, [(1, 9), (16, 26)]), (0x0A, [(1, 10)]), (0x0B, [(1, 3), (16, 24)]), (0x0C, [(1, 4)])]
  ++ [(0x0D, [(1, 6)]), (0x0E, [(1, 14)]), (0x0F, [(1, 11)]), (0x10, [(1, 5)])]
/-- Some command table has the opcode. -/
def knownOpcode (op : BitVec 16) : Bool :=
  opcodeGroups.any fun g => g.1 = op.toNat / 256 && g.2.any fun r => r.1 ≤ op.toNat % 256 && op.toNat % 256 ≤ r.2

/-- How a transport's words stand (R77). -/
inductive Frame where
  | badLength | badCrc | isReply | good
deriving DecidableEq, Repr
/-- The length of word 0 is 4 to 1,024 and is that of the delivery, then the CRC, then REPLY. -/
def frameOf (ws : List Word) : Frame :=
  let len := (ws.getD 0 0 &&& 0xFFFF).toNat
  if len < 4 || 1024 < len || len ≠ ws.length then .badLength
  else if crcWords ws.dropLast ≠ ws.getLastD 0 then .badCrc
  else if (ws.getD 0 0).getLsbD 27 then .isReply
  else .good

/-- A packet whose opcode no table has is answered so (R77, R87). -/
def answerUnknown (op : BitVec 16) (p : Packet) (s : State) : State :=
  let st := if p.version ≠ 2 then Status.versionUnsupported else Status.unknownOpcode
  let r := refusePacket op st p s
  produceReply p.session p.seq (packetCrc op p) (replyWords op p r.st (nsLo s.dt) []) r.s
/-- A new packet is accepted.  One that forms a staged set by itself executes at its acceptance, which commits its set; of any
other its opcode's own command is the execution (R71, R77, R78). -/
def takeNew (op : BitVec 16) (p : Packet) (s : State) : State :=
  let crc := packetCrc op p
  if !knownOpcode op then answerUnknown op p (acceptPacket op p crc none s)
  else match stageOpOf op with
    | some o =>
      if o.d.stage = .no then acceptPacket op p crc none s else
      let t := acceptPacket op p crc (some (madeOf o p s)) s
      if p.staged && s.ocp.sessions[p.session].txn.isNone && !p.chained then runAccepted o.d (serveStage o p) p t else t
    | none => acceptPacket op p crc none s
/-- A good packet of a session: a copy for a duplicate, SEQUENCE_REUSED, or acceptance (R71, R77, R82).  Packets that a session
which ended has left are none of its duplicates (R84). -/
def takeGood (op : BitVec 16) (p : Packet) (s : State) : State :=
  let i := p.session
  let crc := packetCrc op p
  let ses := s.ocp.sessions[i]
  if creditsTaken i s then creditViolation i s
  else match arrival { ses with hist := ses.hist.filter fun h => !h.orphan } p.seq crc with
    | .waiting | .running => waitCopy i p.seq crc s
    | .duplicate ws => copyReply i ws s
    | .reused => answerReused op p s
    | .fresh => takeNew op p s
/-- Words that a transport delivers on a session (R77). -/
def receiveWords (i : Fin 80) (ws : List Word) (s : State) : State :=
  match frameOf ws with
  | .badCrc => discardPacket i .crcErr s
  | .good => match packetOf i ws with
    | some (op, p) => takeGood op p s
    | none => s
  | _ => discardPacket i .discard s

/-! ### PCIe (R72, R84) -/

/-- The host port is PCIe, or SPI (R569). -/
def viaPcie (s : State) : Bool := served s && !s.power.regs.hostsel
def viaSpi (s : State) : Bool := served s && s.power.regs.hostsel

/-- The packet that a slot of 1,024 words holds in place. -/
def slotWords (ws : List Word) : List Word :=
  let ws := (ws ++ List.replicate 1024 0).take 1024
  let len := (ws.getD 0 0 &&& 0xFFFF).toNat
  if 4 ≤ len && len ≤ 1024 then ws.take len else ws
/-- Entries that an index moved on by, in a ring of this size.  DESIGN CHOICE: the spec does not say whether an index runs on
through its 16 bits or starts again at the ring's size; entries are counted modulo the size, and an index that moved by a
multiple of the size moved by the whole ring (log entry 114). -/
def ringMoved (size : Nat) (old new : BitVec 16) : Nat :=
  let n := (new.toNat + 65536 - old.toNat) % size
  if n = 0 && old ≠ new then size else n
/-- REQ_DOORBELL (R72): the new producer index, and what the slots from the last one on hold. -/
def execReqDoorbell (prod : BitVec 16) (slots : List (List Word)) (s : State) : OutT :=
  let size := s.ocp.ident.reqRingSize.toNat
  .next (if !viaPcie s || !s.ocp.ident.ringsEnable || size = 0 then s
    else
      let n := ringMoved size s.ocp.reqProd prod
      let s := { s with ocp := { s.ocp with reqProd := prod } }
      ((List.range n).map fun k => slots.getD k []).foldl (fun s ws => receiveWords 0 (slotWords ws) s) s)

/-- One reply waits less: it is written to the ring slot that is free. -/
def drainOne (s : State) : State :=
  match s.ocp.sessions[(0 : Fin 80)].out with
  | (k, ws) :: rest =>
    if takesReply s 0 then
      let s := transmit 0 ws (modSession 0 (fun x => { x with out := rest }) s)
      let s := if k = .reply then freeCredit 0 s else s
      { s with ocp := { s.ocp with
        rspUsed := s.ocp.rspUsed + 1, rspProd := (s.ocp.rspProd + 1) % s.ocp.ident.rspRingSize.toNat } }
    else s
  | [] => s
def drainReplies : Nat → State → State
  | 0, s => s
  | n + 1, s => drainReplies n (drainOne s)
/-- RSP_DOORBELL (R72): slots consumed; replies that waited take them. -/
def rspConsumed (cons : BitVec 16) (s : State) : State :=
  let size := s.ocp.ident.rspRingSize.toNat
  if size = 0 then s
  else
    let s := { s with ocp := { s.ocp with rspUsed := s.ocp.rspUsed - ringMoved size s.ocp.rspCons cons, rspCons := cons } }
    drainReplies s.ocp.sessions[(0 : Fin 80)].out.length s
def execRspDoorbell (cons : BitVec 16) (s : State) : OutT := .next (if viaPcie s then rspConsumed cons s else s)
/-- EVT_DOORBELL (R72). -/
def evtConsumed (cons : BitVec 16) (s : State) : State :=
  let size := s.ocp.ident.evtRingSize.toNat
  if size = 0 then s
  else { s with ocp := { s.ocp with evtUsed := s.ocp.evtUsed - ringMoved size s.ocp.evtCons cons, evtCons := cons } }
def execEvtDoorbell (cons : BitVec 16) (s : State) : OutT := .next (if viaPcie s then evtConsumed cons s else s)

/-- PCIE_FUNCTION_RESET, PCIE_LINK_DOWN (R84). -/
def execPcieFunctionReset (s : State) : OutT := .next (if viaPcie s then endSession false 0 s else s)
def execPcieLinkDown (s : State) : OutT := .next (if viaPcie s then endSession false 0 s else s)

/-! ### UDP and the tunnel (R70, R74) -/

/-- The session among those from lo to below hi that a source has, or the lowest free one. -/
def sessionFor (lo hi : Nat) (mine : Session → Bool) (s : State) : Option (Fin 80 × Bool) :=
  let l := (List.finRange 80).filter fun i => lo ≤ i.val && i.val < hi
  match l.find? fun i => s.ocp.sessions[i].inUse && mine s.ocp.sessions[i] with
  | some i => some (i, true)
  | none => (l.find? fun i => !s.ocp.sessions[i].inUse).map fun i => (i, false)

/-- UDP_DATAGRAM_RECEIVE (R69, R74): source, payload length in bytes and its words.  A source address and port has one session,
whichever Ethernet port its datagrams come by. -/
def execUdpDatagramReceive (eth : Fin 2) (addr : Word) (port : BitVec 16) (bytes : Nat) (words : List Word) (s : State) : OutT :=
  .next (if !served s || !sourceAllowed s.ocp.net[eth] addr then s
    else match sessionFor 2 10 (fun x => x.peerAddr = addr && x.peerPort = port) s with
      | none => s
      | some (i, old) =>
        let s := modSession i (fun x => { x with peerEth := BitVec.ofNat 1 eth.val })
          (if old then s else modSession i (fun x => { x with
            inUse := true, peerAddr := addr, peerPort := port, lastSeen := s.dt
            hist := x.hist.filter (·.orphan), pushSeq := 0 }) s)
        if bytes ≠ 4 * words.length then discardPacket i .discard s else receiveWords i words s)

/-- TUNNEL_PACKET_RECEIVE (R70, R92). -/
def execTunnelPacketReceive (origin : BitVec 64) (words : List Word) (s : State) : OutT :=
  .next (if !served s then s
    else match sessionFor 16 80 (fun x => x.origin = origin) s with
      | none => discardPacket 10 .discard s
      | some (i, old) =>
        let s := if old then s else modSession i (fun x => { x with
          inUse := true, origin := origin, lastSeen := s.dt, hist := x.hist.filter (·.orphan), pushSeq := 0, regs := {} }) s
        receiveWords i words s)

/-- SESSION_IDLE_TIMEOUT (R70, R74): a UDP or tunnel session idle for 10 s ends. -/
def execSessionIdleTimeout (session : Fin 80) (s : State) : OutT :=
  .next (
    let x := s.ocp.sessions[session]
    if 2 ≤ session.val && x.inUse && hasPassed x.lastSeen 10000000000 s then releaseSession session s else s)

/-- The descriptor that a packet answered without execution needs. -/
def bareDesc (op : BitVec 16) : OpDesc :=
  { op := op, cls := .b, stage := if (stageOpOf op).isSome then .yes else .no, target := fun _ => true, params := fun _ => true }
/-- CHAIN_TIMEOUT (R78): 200 us after a chained packet's acceptance no predecessor has been accepted. -/
def execChainTimeout (session : Fin 80) (seq : Word) (s : State) : OutT :=
  let l := s.ocp.sessions[session].hist
  .next (match (l.filter fun h => h.seq = seq && h.chained && h.reply.isNone).getLast? with
    | some h =>
      if (predecessor l h.orphan seq).isSome || !hasPassed h.acceptedAt 200000 s then s
      else match h.p with
        | some p => serveBroken (bareDesc h.op) p s
        | none => s
    | none => s)

/-! ### Writes of the register window (R100) -/

/-- W1C fields of the axis block. -/
def clearAxisWord (a : Fin 112) (o : Nat) (v : Word) (s : State) : State :=
  if o < 0x200 then modAxis a (fun x => { x with regs := clearAxisRegs x.regs o v }) s
  else if o < 0x300 then modAxis a (fun x => { x with follow := clearFollowRegs x.follow o v }) s
  else if o < 0x3C0 then
    match asFin 32 (a.val - 80) with
    | some i => if 80 ≤ a.val then modSlot i (fun x => { x with regs := clearSlotRegs x.regs o v }) s else s
    | none => s
  else modAxis a (fun x => { x with steep := clearStageSteepRegs x.steep o v }) s
/-- A write in a loop's block: the direct coefficient words, and W1C fields (R264, R280). -/
def writeLoopWord (i : Fin 96) (o : Nat) (v : Word) (s : State) : State :=
  if 0x080 ≤ o && o ≤ 0x098 then directWrite i (Fin.ofNat 7 ((o - 0x080) / 4)) v s
  else modLoop i (fun x => { x with regs := clearLoopRegs x.regs o v }) s
def clearTileWord (t : Fin 16) (o : Nat) (v : Word) (s : State) : State :=
  modTile t (fun x =>
    if o < 0x400 then { x with regs := clearTileRegs x.regs o v }
    else if o < 0x500 then { x with foc := { x.foc with regs := clearFocRegs x.foc.regs o v } }
    else if 0x600 ≤ o then { x with sv := { x.sv with regs := clearSvRegs x.sv.regs o v } }
    else x) s
def clearFeedbackWord (o : Nat) (v : Word) (s : State) : State :=
  if o < 0x1400 then
    match asFin 160 (o / 0x20) with
    | some c => modSd c (fun x => { x with regs := clearSdRegs x.regs (o % 0x20) v }) s
    | none => s
  else if 0x4000 ≤ o then
    match asFin 17 ((o - 0x4000) / 0x100) with
    | some e => modEnc e (fun x => { x with regs := clearEncRegs x.regs (o % 0x100) v }) s
    | none => s
  else s
def writeGeyserWord (o : Nat) (v : Word) (s : State) : State :=
  if o = 0x804 then consumeTo (v.truncate 16) s
  else if o < 0x600 then
    match asFin 48 (o / 0x20) with
    | some c => modCap c (fun x => { x with regs := clearCapRegs x.regs (o % 0x20) v }) s
    | none => s
  else if 0x800 ≤ o && o < 0x820 then
    { s with geyser := { s.geyser with ringRegs := clearMarkRegs s.geyser.ringRegs (o - 0x800) v } }
  else if 0x2000 ≤ o then
    match asFin 8 ((o - 0x2000) / 0x400) with
    | some u =>
      if o % 0x400 = 0x038 then
        match asFin 64 (v &&& 0xFFFF).toNat with
        | some k => releaseSeg u k s
        | none => s
      else modGu u (fun x => { x with regs := clearGuRegs x.regs (o % 0x400) v }) s
    | none => s
  else s
def clearFioWord (o : Nat) (v : Word) (s : State) : State :=
  if o < 0x300 then
    match asFin 24 (o / 0x20) with
    | some c => modFio c (fun x => { x with regs := clearFioRegs x.regs (o % 0x20) v }) s
    | none => s
  else if 0x400 ≤ o && o < 0x460 then
    match asFin 3 ((o - 0x400) / 0x20) with
    | some g => { s with fio := { s.fio with groups := upd s.fio.groups g fun x => clearFioGroupRegs x (o % 0x20) v } }
    | none => s
  else if 0x800 ≤ o then { s with fio := { s.fio with regs := clearFioModuleRegs s.fio.regs (o - 0x800) v } }
  else s
/-- A write in the reset, power and Kettle block: BOOT_LENGTH, the doorbell, whose image check is free here, and W1C fields. -/
def writePowerWord (o : Nat) (v : Word) (s : State) : State :=
  if o = 0x04C then modPower (fun p => { p with bootLength := v }) s
  else if o = 0x028 then
    if s.power.boot ≠ .hostLoad || v ≠ 0x4C4F4144 then s
    else if freeBool s && s.power.bootLength.toNat ≤ 0xC00000 then modPower (fun p => { p with boot := .boot, imageOk := true }) (drawn s)
    else bootFallback 5 toBankA (drawn s)
  else if o < 0x400 then modPowerRegs (fun r => clearPowerRegs r o v) s
  else match asFin 16 ((o - 0x400) / 0x20) with
    | some t => modTile t (fun x => { x with ntc := clearNtcRegs x.ntc (o % 0x20) v }) s
    | none => s
/-- A ring size is a power of two from 32 to 4,096. -/
def ringSizeOk (n : Nat) : Bool := [32, 64, 128, 256, 512, 1024, 2048, 4096].contains n
def putLow (x : BitVec 64) (v : Word) : BitVec 64 := x.extractLsb' 32 32 ++ v
def putHigh (x : BitVec 64) (v : Word) : BitVec 64 := v ++ x.extractLsb' 0 32
/-- The transport fields: ring bases and sizes are ignored while the rings are enabled (R101). -/
def writeRings (o : Nat) (v : Word) (i : IdentRegs) : IdentRegs :=
  if o = 0x1030 then { i with ringsEnable := v.getLsbD 0 }
  else if i.ringsEnable then i
  else if o = 0x1000 then { i with reqRingBase := putLow i.reqRingBase v }
  else if o = 0x1004 then { i with reqRingBase := putHigh i.reqRingBase v }
  else if o = 0x1008 then { i with reqRingSize := if ringSizeOk (v &&& 0x1FFF).toNat then v.truncate 13 else i.reqRingSize }
  else if o = 0x1010 then { i with rspRingBase := putLow i.rspRingBase v }
  else if o = 0x1014 then { i with rspRingBase := putHigh i.rspRingBase v }
  else if o = 0x1018 then { i with rspRingSize := if ringSizeOk (v &&& 0x1FFF).toNat then v.truncate 13 else i.rspRingSize }
  else if o = 0x1020 then { i with evtRingBase := putLow i.evtRingBase v }
  else if o = 0x1024 then { i with evtRingBase := putHigh i.evtRingBase v }
  else if o = 0x1028 then { i with evtRingSize := if ringSizeOk (v &&& 0x1FFF).toNat then v.truncate 13 else i.evtRingSize }
  else clearIdentRegs i o v
/-- A write in the identity block.  The indices start at 0 as the rings are enabled; what REQ_DOORBELL makes the module read is
in the host's memory, so that write has its own command. -/
def writeIdentWord (o : Nat) (v : Word) (s : State) : State :=
  if o = 0x101C then (if s.power.regs.hostsel then s else rspConsumed (v.truncate 16) s)
  else if o = 0x102C then (if s.power.regs.hostsel then s else evtConsumed (v.truncate 16) s)
  else
    let was := s.ocp.ident.ringsEnable
    let s := { s with ocp := { s.ocp with ident := writeRings o v s.ocp.ident } }
    if !was && s.ocp.ident.ringsEnable then
      { s with ocp := { s.ocp with
        reqProd := 0, rspCons := 0, evtCons := 0, rspUsed := 0, rspProd := 0, evtUsed := 0, evtProd := 0 } }
    else s
/-- A host cyclic input buffer with word r written (R104). -/
def putInput (r : Nat) (v : Word) (h : HostInput) : HostInput :=
  if r = 0 then { h with tag := v }
  else if r = 0x410 then { h with fio := v }
  else if r < 0x10 then h
  else
    match asFin 256 ((r - 0x10) / 4) with
    | some j => { h with recs := upd h.recs j fun _ => v }
    | none => h
def writeInput (o : Nat) (v : Word) (s : State) : State :=
  { s with cyclic := { s.cyclic with
    inputs := upd s.cyclic.inputs (Fin.ofNat 4 (o / 0x1000)) (putInput (o % 0x1000) v) } }

/-- An aligned write outside a block in reset; elsewhere than on the fields that R100 names it is ignored. -/
def windowPut (a : Nat) (v : Word) (s : State) : State :=
  if a < 0x10000 then writeIdentWord a v s
  else if a < 0x20000 then
    let o := a - 0x10000
    if 0x100 ≤ o && o < 0x200 then
      match asFin 16 ((o - 0x100) / 0x10) with
      | some u => modCompare u (fun x => { x with regs := clearCompareRegs x.regs (0x100 + o % 0x10) v }) s
      | none => s
    else { s with time := { s.time with regs := clearTimeRegs s.time.regs o v } }
  else if a < 0x100000 then s
  else if a < 0x200000 then
    match asFin 112 ((a - 0x100000) / 0x400) with
    | some x => clearAxisWord x (a % 0x400) v s
    | none => s
  else if a < 0x210000 then
    match asFin 96 ((a - 0x200000) / 0x200) with
    | some i => writeLoopWord i (a % 0x200) v s
    | none => s
  else if a < 0x400000 then
    match asFin 4 ((a - 0x210000) / 0x1000) with
    | some u => modTrace u (fun x => { x with regs := clearTraceRegs x.regs (a % 0x1000) v }) s
    | none => s
  else windowPutHigh a v s
where
  /-- The blocks from the loop engines on. -/
  windowPutHigh (a : Nat) (v : Word) (s : State) : State :=
    if a < 0x1000000 then
      match asFin 32 ((a - 0x400000) / 0x20000) with
      | some e => modEngine e (fun x => { x with regs := clearEngineRegs x.regs (a % 0x20000) v }) s
      | none => s
    else if a < 0x1010000 then
      match asFin 16 ((a - 0x1000000) / 0x1000) with
      | some t => clearTileWord t (a % 0x1000) v s
      | none => s
    else if a < 0x1100000 then
      match asFin 4 ((a - 0x1010000) / 0x100) with
      | some g => modDcl g (fun x => { x with regs := clearDclRegs x.regs (a % 0x100) v }) s
      | none => s
    else if a < 0x1200000 then clearFeedbackWord (a - 0x1100000) v s
    else if a < 0x1300000 then writeGeyserWord (a - 0x1200000) v s
    else if a < 0x1400000 then s
    else if a < 0x1500000 then clearFioWord (a - 0x1400000) v s
    else if a < 0x1600000 then
      match asFin 4 ((a - 0x1500000) / 0x10000) with
      | some n => modCan n (fun x => { x with regs := clearCanRegs x.regs (a % 0x10000) v }) s
      | none => s
    else if a < 0x1700000 then
      if a < 0x1600400 then
        match asFin 4 ((a - 0x1600000) / 0x100) with
        | some p => modPort p (fun x => { x with regs := clearPortRegs x.regs (a % 0x100) v }) s
        | none => s
      else if 0x1600800 ≤ a && a < 0x1600900 then
        { s with link := { s.link with seg := clearSegmentRegs s.link.seg (a - 0x1600800) v } }
      else s
    else if a < 0x2000000 then writePowerWord (a - 0x1700000) v s
    else if 0x2080000 ≤ a && a < 0x2084000 then writeInput (a - 0x2080000) v s
    else if 0x8000000 ≤ a && a < 0x8C00000 && s.power.boot = .hostLoad then
      modPower (fun p => { p with loadArea := memPutWord p.loadArea ((a - 0x8000000) / 4) v }) s
    else s

/-! ### Accesses (R21, R73, R100) -/

/-- The window can be reached: OCP is served, or the host loads an image. -/
def windowOpen (s : State) : Bool := served s || s.power.boot = .hostLoad
/-- The outcome of a window access: what PCIe completes with, and the error that SPI shows in its status word. -/
def setAccessEnd (e : PcieEnd) (s : State) : State :=
  if s.power.regs.hostsel then { s with ocp := { s.ocp with spiErr := e ≠ .success } }
  else { s with ocp := { s.ocp with pcieEnd := e } }
/-- The access is a naturally aligned one of 32 bits (R100). -/
def wordAccess (a bytes : Nat) : Bool := a % 4 = 0 && bytes = 4
/-- One write: any but an aligned one of 32 bits is ignored with an error; one into a block in reset is discarded (R100,
R566).  A W1C bit whose condition is still present stays set (R5). -/
def busWrite (addr v : Word) (bytes : Nat) (s : State) : State :=
  let a := addr.toNat
  if !wordAccess a bytes then setAccessEnd .unsupportedRequest s
  else if inResetBlock s a then setAccessEnd .success s
  else windowPut a (v &&& ~~~standing s a) (setAccessEnd .success s)
/-- What a read of a receive window does to its queue (R538). -/
def windowReadEffect (a : Nat) (s : State) : State :=
  let o := (a - 0x1500000) % 0x10000
  if 0x1500000 ≤ a && a < 0x1540000 && 0x400 ≤ o && o < 0x500 then
    rxqRead (Fin.ofNat 4 ((a - 0x1500000) / 0x10000)) (Fin.ofNat 2 ((o - 0x400) / 0x80)) (o % 0x80 / 4) s
  else s
/-- One read of so many bytes: the word, and what the read does (R21, R100). -/
def busRead (addr : Word) (bytes : Nat) (s : State) : Word × State :=
  let a := addr.toNat
  if !wordAccess a bytes then (0xFFFFFFFF, setAccessEnd .unsupportedRequest s)
  else if inResetBlock s a then (0xFFFFFFFF, setAccessEnd .completerAbort s)
  else
    let (w, t) := readCapture a (setAccessEnd .success s)
    (w, windowReadEffect a t)

/-- WIDE_READ_CAPTURE (R21, R100): a read of the window, so many bytes wide. -/
def execWideReadCapture (addr : Word) (bytes : Nat) (s : State) : OutT :=
  .next (if !windowOpen s then s
    else
      let (w, t) := busRead addr bytes s
      { t with ocp := { t.ocp with readData := [w] } })
/-- REGISTER_WRITE (R100): a write of the window, so many bytes wide. -/
def execRegisterWrite (addr : Word) (v : Word) (bytes : Nat) (s : State) : OutT :=
  .next (if windowOpen s then busWrite addr v bytes s else s)

/-! ### SPI (R73) -/

/-- The words of a frame go to rising addresses; the error is that of any of them. -/
def spiPut : Word → List Word → State → Bool × State
  | _, [], s => (false, s)
  | a, v :: vs, s =>
    let s := busWrite a v 4 s
    let (e, t) := spiPut (a + 4) vs s
    (s.ocp.spiErr || e, t)
def spiGet : Nat → Word → State → List Word × Bool × State
  | 0, _, s => ([], false, s)
  | n + 1, a, s =>
    let (w, s) := busRead a 4 s
    let (ws, e, t) := spiGet n (a + 4) s
    (w :: ws, s.ocp.spiErr || e, t)
/-- SPI_WINDOW_WRITE. -/
def execSpiWindowWrite (addr : Word) (data : List Word) (s : State) : OutT :=
  .next (if !(windowOpen s && s.power.regs.hostsel) then s
    else
      let (e, t) := spiPut addr data s
      { t with ocp := { t.ocp with spiErr := e } })
/-- SPI_WINDOW_READ. -/
def execSpiWindowRead (addr : Word) (n : Nat) (s : State) : OutT :=
  .next (if !(windowOpen s && s.power.regs.hostsel) then s
    else
      let (ws, e, t) := spiGet n addr s
      { t with ocp := { t.ocp with readData := ws, spiErr := e } })
/-- SPI_PACKET_WRITE: one packet a frame; a frame that ends early or runs past the packet's length is discarded. -/
def execSpiPacketWrite (words : List Word) (s : State) : OutT := .next (if viaSpi s then receiveWords 1 words s else s)
/-- SPI_REPLY_READ: the oldest waiting reply or push leaves; word 0 reads 0 with none. -/
def execSpiReplyRead (s : State) : OutT :=
  .next (if !viaSpi s then s
    else match s.ocp.sessions[(1 : Fin 80)].out with
      | [] => { s with ocp := { s.ocp with readData := [0] } }
      | (k, ws) :: rest =>
        let s := transmit 1 ws (modSession 1 (fun x => { x with out := rest }) s)
        let s := if k = .reply then freeCredit 1 s else s
        { s with ocp := { s.ocp with readData := ws } })
/-- The status word: credits free, replies and pushes waiting, error on the last window access. -/
def spiStatus (s : State) : Word :=
  let x := s.ocp.sessions[(1 : Fin 80)]
  natWord (32 - x.regs.creditsInUse.toNat) ||| (natWord (min 255 x.out.length) <<< 8) ||| flagAt s.ocp.spiErr 16
/-- SPI_STATUS_READ. -/
def execSpiStatusRead (s : State) : OutT :=
  .next (if viaSpi s then { s with ocp := { s.ocp with readData := [spiStatus s] } } else s)

end Sys2Proof.Machine
end

