-- ==== Sys2Proof/Machine/Dispatch.lean ====
section
/-! DEFINITION. Which meaning each command has: one arm per constructor of Instr. -/

namespace Sys2Proof.Machine

def exec (i : Instr) (s : State) : Host.Outcome State Fault Refusal :=
  match i with
  | .pourPoint => Sys2Proof.Machine.execPourPoint s
  | .stagingCutoff => Sys2Proof.Machine.execStagingCutoff s
  | .confirmationDeadline x0 => Sys2Proof.Machine.execConfirmationDeadline x0 s
  | .masterLost x0 => Sys2Proof.Machine.execMasterLost x0 s
  | .rideThroughEnd x0 => Sys2Proof.Machine.execRideThroughEnd x0 s
  | .slotArmed x0 => Sys2Proof.Machine.execSlotArmed x0 s
  | .masterEntryArrival x0 x1 => Sys2Proof.Machine.execMasterEntryArrival x0 x1 s
  | .resteepEnd x0 => Sys2Proof.Machine.execResteepEnd x0 s
  | .compareFire x0 => Sys2Proof.Machine.execCompareFire x0 s
  | .ppsEdge x0 => Sys2Proof.Machine.execPpsEdge x0 s
  | .holdoverEntry => Sys2Proof.Machine.execHoldoverEntry s
  | .holdoverExpired => Sys2Proof.Machine.execHoldoverExpired s
  | .timeLocked => Sys2Proof.Machine.execTimeLocked s
  | .timeUnlocked => Sys2Proof.Machine.execTimeUnlocked s
  | .ptpMessageReceive x0 x1 x2 x3 x4 x5 => Sys2Proof.Machine.execPtpMessageReceive x0 x1 x2 x3 x4 x5 s
  | .ptpLost => Sys2Proof.Machine.execPtpLost s
  | .timeRead x0 => Sys2Proof.Machine.execTimeRead x0 s
  | .timeStatus x0 => Sys2Proof.Machine.execTimeStatus x0 s
  | .timeSourceSet x0 => Sys2Proof.Machine.execTimeSourceSet x0 s
  | .ptpConfig x0 => Sys2Proof.Machine.execPtpConfig x0 s
  | .timePolicySet x0 => Sys2Proof.Machine.execTimePolicySet x0 s
  | .compareArm x0 => Sys2Proof.Machine.execCompareArm x0 s
  | .compareCancel x0 => Sys2Proof.Machine.execCompareCancel x0 s
  | .ppsConfig x0 => Sys2Proof.Machine.execPpsConfig x0 s
  | .ppsStop x0 => Sys2Proof.Machine.execPpsStop x0 s
  | .pourStatus x0 => Sys2Proof.Machine.execPourStatus x0 s
  | .timeReload x0 => Sys2Proof.Machine.execTimeReload x0 s
  | .wideReadCapture x0 x1 => Sys2Proof.Machine.execWideReadCapture x0 x1 s
  | .registerWrite x0 x1 x2 => Sys2Proof.Machine.execRegisterWrite x0 x1 x2 s
  | .eventFabricArrival => Sys2Proof.Machine.execEventFabricArrival s
  | .eventHoldExpiry => Sys2Proof.Machine.execEventHoldExpiry s
  | .forwardedEventReceive x0 x1 => Sys2Proof.Machine.execForwardedEventReceive x0 x1 s
  | .eventPush x0 => Sys2Proof.Machine.execEventPush x0 s
  | .reqDoorbell x0 x1 => Sys2Proof.Machine.execReqDoorbell x0 x1 s
  | .rspDoorbell x0 => Sys2Proof.Machine.execRspDoorbell x0 s
  | .evtDoorbell x0 => Sys2Proof.Machine.execEvtDoorbell x0 s
  | .spiWindowWrite x0 x1 => Sys2Proof.Machine.execSpiWindowWrite x0 x1 s
  | .spiWindowRead x0 x1 => Sys2Proof.Machine.execSpiWindowRead x0 x1 s
  | .spiPacketWrite x0 => Sys2Proof.Machine.execSpiPacketWrite x0 s
  | .spiReplyRead => Sys2Proof.Machine.execSpiReplyRead s
  | .spiStatusRead => Sys2Proof.Machine.execSpiStatusRead s
  | .udpDatagramReceive x0 x1 x2 x3 x4 => Sys2Proof.Machine.execUdpDatagramReceive x0 x1 x2 x3 x4 s
  | .sessionIdleTimeout x0 => Sys2Proof.Machine.execSessionIdleTimeout x0 s
  | .chainTimeout x0 x1 => Sys2Proof.Machine.execChainTimeout x0 x1 s
  | .pcieFunctionReset => Sys2Proof.Machine.execPcieFunctionReset s
  | .pcieLinkDown => Sys2Proof.Machine.execPcieLinkDown s
  | .tunnelPacketReceive x0 x1 => Sys2Proof.Machine.execTunnelPacketReceive x0 x1 s
  | .tunnelInnerReply x0 x1 x2 => Sys2Proof.Machine.execTunnelInnerReply x0 x1 x2 s
  | .tunnelTimeout x0 x1 => Sys2Proof.Machine.execTunnelTimeout x0 x1 s
  | .identityRead x0 => Sys2Proof.Machine.execIdentityRead x0 s
  | .attest x0 => Sys2Proof.Machine.execAttest x0 s
  | .statusRead x0 => Sys2Proof.Machine.execStatusRead x0 s
  | .eventRead x0 => Sys2Proof.Machine.execEventRead x0 s
  | .eventSubscribe x0 => Sys2Proof.Machine.execEventSubscribe x0 s
  | .vaultEventsRead x0 => Sys2Proof.Machine.execVaultEventsRead x0 s
  | .echo x0 => Sys2Proof.Machine.execEcho x0 s
  | .countersRead x0 => Sys2Proof.Machine.execCountersRead x0 s
  | .configBegin x0 => Sys2Proof.Machine.execConfigBegin x0 s
  | .configData x0 => Sys2Proof.Machine.execConfigData x0 s
  | .configCommit x0 => Sys2Proof.Machine.execConfigCommit x0 s
  | .configCommitComplete x0 => Sys2Proof.Machine.execConfigCommitComplete x0 s
  | .firmwareBegin x0 => Sys2Proof.Machine.execFirmwareBegin x0 s
  | .firmwareData x0 => Sys2Proof.Machine.execFirmwareData x0 s
  | .firmwareActivate x0 => Sys2Proof.Machine.execFirmwareActivate x0 s
  | .firmwareActivateComplete x0 => Sys2Proof.Machine.execFirmwareActivateComplete x0 s
  | .tunnel x0 => Sys2Proof.Machine.execTunnel x0 s
  | .netConfig x0 => Sys2Proof.Machine.execNetConfig x0 s
  | .sessionReset x0 => Sys2Proof.Machine.execSessionReset x0 s
  | .imageStreamSet x0 => Sys2Proof.Machine.execImageStreamSet x0 s
  | .hostInputPolicy x0 => Sys2Proof.Machine.execHostInputPolicy x0 s
  | .stageOpen x0 => Sys2Proof.Machine.execStageOpen x0 s
  | .stageCommit x0 => Sys2Proof.Machine.execStageCommit x0 s
  | .stageAbort x0 => Sys2Proof.Machine.execStageAbort x0 s
  | .stageStatus x0 => Sys2Proof.Machine.execStageStatus x0 s
  | .stageCancel x0 => Sys2Proof.Machine.execStageCancel x0 s
  | .stageTimeout x0 => Sys2Proof.Machine.execStageTimeout x0 s
  | .portSignalChange x0 x1 x2 x3 x4 => Sys2Proof.Machine.execPortSignalChange x0 x1 x2 x3 x4 s
  | .portSyncLock x0 => Sys2Proof.Machine.execPortSyncLock x0 s
  | .capabilityReceive x0 x1 x2 x3 x4 x5 x6 => Sys2Proof.Machine.execCapabilityReceive x0 x1 x2 x3 x4 x5 x6 s
  | .delayRequest x0 => Sys2Proof.Machine.execDelayRequest x0 s
  | .delayResponseReceive x0 x1 x2 => Sys2Proof.Machine.execDelayResponseReceive x0 x1 x2 s
  | .segmentElection x0 => Sys2Proof.Machine.execSegmentElection x0 s
  | .timeFrameLaunch => Sys2Proof.Machine.execTimeFrameLaunch s
  | .pourFrameArrival x0 x1 => Sys2Proof.Machine.execPourFrameArrival x0 x1 s
  | .domainStart x0 => Sys2Proof.Machine.execDomainStart x0 s
  | .domainStartComplete x0 => Sys2Proof.Machine.execDomainStartComplete x0 s
  | .domainStop x0 => Sys2Proof.Machine.execDomainStop x0 s
  | .nodeChallenge x0 x1 x2 => Sys2Proof.Machine.execNodeChallenge x0 x1 x2 s
  | .challengeResponse x0 x1 x2 x3 => Sys2Proof.Machine.execChallengeResponse x0 x1 x2 x3 s
  | .challengeTimeout x0 => Sys2Proof.Machine.execChallengeTimeout x0 s
  | .nodeAccept x0 => Sys2Proof.Machine.execNodeAccept x0 s
  | .acceptLockExpiry => Sys2Proof.Machine.execAcceptLockExpiry s
  | .fragmentSend x0 x1 => Sys2Proof.Machine.execFragmentSend x0 x1 s
  | .fragmentReceive x0 x1 x2 => Sys2Proof.Machine.execFragmentReceive x0 x1 x2 s
  | .creditReturnReceive x0 x1 => Sys2Proof.Machine.execCreditReturnReceive x0 x1 s
  | .auditReceive x0 x1 x2 => Sys2Proof.Machine.execAuditReceive x0 x1 x2 s
  | .breakDeclare x0 x1 => Sys2Proof.Machine.execBreakDeclare x0 x1 s
  | .breakNoticeReceive x0 => Sys2Proof.Machine.execBreakNoticeReceive x0 s
  | .restoreNoticeReceive x0 => Sys2Proof.Machine.execRestoreNoticeReceive x0 s
  | .ringSplit => Sys2Proof.Machine.execRingSplit s
  | .linkStatus x0 => Sys2Proof.Machine.execLinkStatus x0 s
  | .portConfig x0 => Sys2Proof.Machine.execPortConfig x0 s
  | .segmentStatus x0 => Sys2Proof.Machine.execSegmentStatus x0 s
  | .segmentMapRead x0 => Sys2Proof.Machine.execSegmentMapRead x0 s
  | .planCheck x0 => Sys2Proof.Machine.execPlanCheck x0 s
  | .eventForwardSet x0 => Sys2Proof.Machine.execEventForwardSet x0 s
  | .linkCountersClear x0 => Sys2Proof.Machine.execLinkCountersClear x0 s
  | .linkPolicySet x0 => Sys2Proof.Machine.execLinkPolicySet x0 s
  | .slotConfig x0 => Sys2Proof.Machine.execSlotConfig x0 s
  | .slotArm x0 => Sys2Proof.Machine.execSlotArm x0 s
  | .slotDisarm x0 => Sys2Proof.Machine.execSlotDisarm x0 s
  | .slotStatus x0 => Sys2Proof.Machine.execSlotStatus x0 s
  | .masterLeadSet x0 => Sys2Proof.Machine.execMasterLeadSet x0 s
  | .slotPolicySet x0 => Sys2Proof.Machine.execSlotPolicySet x0 s
  | .axisConfig x0 => Sys2Proof.Machine.execAxisConfig x0 s
  | .axisScaleSet x0 => Sys2Proof.Machine.execAxisScaleSet x0 s
  | .axisLimitsSet x0 => Sys2Proof.Machine.execAxisLimitsSet x0 s
  | .stopLimitsSet x0 => Sys2Proof.Machine.execStopLimitsSet x0 s
  | .softLimitsSet x0 => Sys2Proof.Machine.execSoftLimitsSet x0 s
  | .axisEnable x0 => Sys2Proof.Machine.execAxisEnable x0 s
  | .axisDisable x0 => Sys2Proof.Machine.execAxisDisable x0 s
  | .movePosition x0 => Sys2Proof.Machine.execMovePosition x0 s
  | .moveVelocity x0 => Sys2Proof.Machine.execMoveVelocity x0 s
  | .moveStop x0 => Sys2Proof.Machine.execMoveStop x0 s
  | .homeConfig x0 => Sys2Proof.Machine.execHomeConfig x0 s
  | .homeStart x0 => Sys2Proof.Machine.execHomeStart x0 s
  | .faultClear x0 => Sys2Proof.Machine.execFaultClear x0 s
  | .axisStatus x0 => Sys2Proof.Machine.execAxisStatus x0 s
  | .homeResult x0 => Sys2Proof.Machine.execHomeResult x0 s
  | .axisPolicySet x0 => Sys2Proof.Machine.execAxisPolicySet x0 s
  | .hardStopDetect x0 => Sys2Proof.Machine.execHardStopDetect x0 s
  | .axisHoldExpiry x0 => Sys2Proof.Machine.execAxisHoldExpiry x0 s
  | .inPositionSet x0 => Sys2Proof.Machine.execInPositionSet x0 s
  | .gearSourceSet x0 => Sys2Proof.Machine.execGearSourceSet x0 s
  | .gearEngage x0 => Sys2Proof.Machine.execGearEngage x0 s
  | .gearRatioSet x0 => Sys2Proof.Machine.execGearRatioSet x0 s
  | .gearChangeArm x0 => Sys2Proof.Machine.execGearChangeArm x0 s
  | .gearChangeCancel x0 => Sys2Proof.Machine.execGearChangeCancel x0 s
  | .followDisengage x0 => Sys2Proof.Machine.execFollowDisengage x0 s
  | .followStatus x0 => Sys2Proof.Machine.execFollowStatus x0 s
  | .camLoadBegin x0 => Sys2Proof.Machine.execCamLoadBegin x0 s
  | .camLoadData x0 => Sys2Proof.Machine.execCamLoadData x0 s
  | .camLoadEnd x0 => Sys2Proof.Machine.execCamLoadEnd x0 s
  | .camTableStatus x0 => Sys2Proof.Machine.execCamTableStatus x0 s
  | .camEngage x0 => Sys2Proof.Machine.execCamEngage x0 s
  | .camSwap x0 => Sys2Proof.Machine.execCamSwap x0 s
  | .regConfig x0 => Sys2Proof.Machine.execRegConfig x0 s
  | .regEnable x0 => Sys2Proof.Machine.execRegEnable x0 s
  | .regOffsetSet x0 => Sys2Proof.Machine.execRegOffsetSet x0 s
  | .regStatus x0 => Sys2Proof.Machine.execRegStatus x0 s
  | .followPolicySet x0 => Sys2Proof.Machine.execFollowPolicySet x0 s
  | .markMissing x0 => Sys2Proof.Machine.execMarkMissing x0 s
  | .tickFiring x0 x1 x2 => Sys2Proof.Machine.execTickFiring x0 x1 x2 s
  | .tickEntry x0 x1 => Sys2Proof.Machine.execTickEntry x0 x1 s
  | .traceComplete x0 => Sys2Proof.Machine.execTraceComplete x0 s
  | .loopOutputSaturated x0 => Sys2Proof.Machine.execLoopOutputSaturated x0 s
  | .feedbackImplausible x0 => Sys2Proof.Machine.execFeedbackImplausible x0 s
  | .directCoefWrite x0 x1 x2 => Sys2Proof.Machine.execDirectCoefWrite x0 x1 x2 s
  | .directCoefApply x0 => Sys2Proof.Machine.execDirectCoefApply x0 s
  | .loopProgramSelect x0 => Sys2Proof.Machine.execLoopProgramSelect x0 s
  | .loopRateSet x0 => Sys2Proof.Machine.execLoopRateSet x0 s
  | .loopTopSet x0 => Sys2Proof.Machine.execLoopTopSet x0 s
  | .loopCoefSet x0 => Sys2Proof.Machine.execLoopCoefSet x0 s
  | .loopModeSet x0 => Sys2Proof.Machine.execLoopModeSet x0 s
  | .loopTuningSet x0 => Sys2Proof.Machine.execLoopTuningSet x0 s
  | .supervisorConfig x0 => Sys2Proof.Machine.execSupervisorConfig x0 s
  | .limiterSet x0 => Sys2Proof.Machine.execLimiterSet x0 s
  | .freeLoopConfig x0 => Sys2Proof.Machine.execFreeLoopConfig x0 s
  | .loopStatus x0 => Sys2Proof.Machine.execLoopStatus x0 s
  | .traceConfig x0 => Sys2Proof.Machine.execTraceConfig x0 s
  | .traceArm x0 => Sys2Proof.Machine.execTraceArm x0 s
  | .traceForce x0 => Sys2Proof.Machine.execTraceForce x0 s
  | .traceStop x0 => Sys2Proof.Machine.execTraceStop x0 s
  | .traceStatus x0 => Sys2Proof.Machine.execTraceStatus x0 s
  | .loopPolicySet x0 => Sys2Proof.Machine.execLoopPolicySet x0 s
  | .leNop x0 => Sys2Proof.Machine.execLeNop x0 s
  | .leTexit x0 => Sys2Proof.Machine.execLeTexit x0 s
  | .leWait x0 => Sys2Proof.Machine.execLeWait x0 s
  | .leBkpt x0 => Sys2Proof.Machine.execLeBkpt x0 s
  | .leClrf x0 x1 => Sys2Proof.Machine.execLeClrf x0 x1 s
  | .leMovsr x0 x1 => Sys2Proof.Machine.execLeMovsr x0 x1 s
  | .leEvt x0 x1 x2 => Sys2Proof.Machine.execLeEvt x0 x1 x2 s
  | .leAdd x0 x1 x2 x3 => Sys2Proof.Machine.execLeAdd x0 x1 x2 x3 s
  | .leAdds x0 x1 x2 x3 => Sys2Proof.Machine.execLeAdds x0 x1 x2 x3 s
  | .leSub x0 x1 x2 x3 => Sys2Proof.Machine.execLeSub x0 x1 x2 x3 s
  | .leSubs x0 x1 x2 x3 => Sys2Proof.Machine.execLeSubs x0 x1 x2 x3 s
  | .leAnd x0 x1 x2 x3 => Sys2Proof.Machine.execLeAnd x0 x1 x2 x3 s
  | .leOr x0 x1 x2 x3 => Sys2Proof.Machine.execLeOr x0 x1 x2 x3 s
  | .leXor x0 x1 x2 x3 => Sys2Proof.Machine.execLeXor x0 x1 x2 x3 s
  | .leShl x0 x1 x2 x3 => Sys2Proof.Machine.execLeShl x0 x1 x2 x3 s
  | .leShr x0 x1 x2 x3 => Sys2Proof.Machine.execLeShr x0 x1 x2 x3 s
  | .leAsr x0 x1 x2 x3 => Sys2Proof.Machine.execLeAsr x0 x1 x2 x3 s
  | .leMin x0 x1 x2 x3 => Sys2Proof.Machine.execLeMin x0 x1 x2 x3 s
  | .leMax x0 x1 x2 x3 => Sys2Proof.Machine.execLeMax x0 x1 x2 x3 s
  | .leAbss x0 x1 x2 => Sys2Proof.Machine.execLeAbss x0 x1 x2 s
  | .leNegs x0 x1 x2 => Sys2Proof.Machine.execLeNegs x0 x1 x2 s
  | .leClamp x0 x1 x2 x3 => Sys2Proof.Machine.execLeClamp x0 x1 x2 x3 s
  | .leMov x0 x1 x2 => Sys2Proof.Machine.execLeMov x0 x1 x2 s
  | .leCmp x0 x1 x2 => Sys2Proof.Machine.execLeCmp x0 x1 x2 s
  | .leFadd x0 x1 x2 x3 => Sys2Proof.Machine.execLeFadd x0 x1 x2 x3 s
  | .leFsub x0 x1 x2 x3 => Sys2Proof.Machine.execLeFsub x0 x1 x2 x3 s
  | .leFmul x0 x1 x2 x3 => Sys2Proof.Machine.execLeFmul x0 x1 x2 x3 s
  | .leFcvtif x0 x1 x2 => Sys2Proof.Machine.execLeFcvtif x0 x1 x2 s
  | .leFcvtfi x0 x1 x2 => Sys2Proof.Machine.execLeFcvtfi x0 x1 x2 s
  | .leSincos x0 x1 x2 => Sys2Proof.Machine.execLeSincos x0 x1 x2 s
  | .leAddi x0 x1 x2 x3 => Sys2Proof.Machine.execLeAddi x0 x1 x2 x3 s
  | .leAndi x0 x1 x2 x3 => Sys2Proof.Machine.execLeAndi x0 x1 x2 x3 s
  | .leOri x0 x1 x2 x3 => Sys2Proof.Machine.execLeOri x0 x1 x2 x3 s
  | .leShli x0 x1 x2 x3 => Sys2Proof.Machine.execLeShli x0 x1 x2 x3 s
  | .leShri x0 x1 x2 x3 => Sys2Proof.Machine.execLeShri x0 x1 x2 x3 s
  | .leAsri x0 x1 x2 x3 => Sys2Proof.Machine.execLeAsri x0 x1 x2 x3 s
  | .leCmpi x0 x1 x2 => Sys2Proof.Machine.execLeCmpi x0 x1 x2 s
  | .leMovi x0 x1 x2 => Sys2Proof.Machine.execLeMovi x0 x1 x2 s
  | .leMovhi x0 x1 x2 => Sys2Proof.Machine.execLeMovhi x0 x1 x2 s
  | .leJmpr x0 x1 => Sys2Proof.Machine.execLeJmpr x0 x1 s
  | .leDbnz x0 x1 x2 => Sys2Proof.Machine.execLeDbnz x0 x1 x2 s
  | .leRpt x0 x1 => Sys2Proof.Machine.execLeRpt x0 x1 s
  | .leMul x0 x1 x2 x3 => Sys2Proof.Machine.execLeMul x0 x1 x2 x3 s
  | .leMac x0 x1 x2 x3 => Sys2Proof.Machine.execLeMac x0 x1 x2 x3 s
  | .leMsu x0 x1 x2 x3 => Sys2Proof.Machine.execLeMsu x0 x1 x2 x3 s
  | .leMacus x0 x1 x2 x3 => Sys2Proof.Machine.execLeMacus x0 x1 x2 x3 s
  | .leMac2 x0 x1 x2 x3 x4 => Sys2Proof.Machine.execLeMac2 x0 x1 x2 x3 x4 s
  | .leMld x0 x1 x2 x3 x4 x5 x6 x7 => Sys2Proof.Machine.execLeMld x0 x1 x2 x3 x4 x5 x6 x7 s
  | .leMull x0 x1 x2 x3 => Sys2Proof.Machine.execLeMull x0 x1 x2 x3 s
  | .leStq x0 x1 x2 x3 => Sys2Proof.Machine.execLeStq x0 x1 x2 x3 s
  | .leClra x0 x1 => Sys2Proof.Machine.execLeClra x0 x1 s
  | .leMova x0 x1 x2 x3 => Sys2Proof.Machine.execLeMova x0 x1 x2 x3 s
  | .leAdda x0 x1 x2 => Sys2Proof.Machine.execLeAdda x0 x1 x2 s
  | .leAsra x0 x1 x2 => Sys2Proof.Machine.execLeAsra x0 x1 x2 s
  | .leSata x0 x1 x2 => Sys2Proof.Machine.execLeSata x0 x1 x2 s
  | .leSatx x0 x1 x2 x3 => Sys2Proof.Machine.execLeSatx x0 x1 x2 x3 s
  | .leExtl x0 x1 x2 => Sys2Proof.Machine.execLeExtl x0 x1 x2 s
  | .leExth x0 x1 x2 => Sys2Proof.Machine.execLeExth x0 x1 x2 s
  | .leExtg x0 x1 x2 => Sys2Proof.Machine.execLeExtg x0 x1 x2 s
  | .leLd x0 x1 x2 x3 => Sys2Proof.Machine.execLeLd x0 x1 x2 x3 s
  | .leSt x0 x1 x2 x3 => Sys2Proof.Machine.execLeSt x0 x1 x2 x3 s
  | .leLda x0 x1 x2 => Sys2Proof.Machine.execLeLda x0 x1 x2 s
  | .leSta x0 x1 x2 => Sys2Proof.Machine.execLeSta x0 x1 x2 s
  | .leLdp x0 x1 x2 => Sys2Proof.Machine.execLeLdp x0 x1 x2 s
  | .leStp x0 x1 x2 => Sys2Proof.Machine.execLeStp x0 x1 x2 s
  | .leLdd x0 x1 x2 x3 => Sys2Proof.Machine.execLeLdd x0 x1 x2 x3 s
  | .leStd x0 x1 x2 x3 => Sys2Proof.Machine.execLeStd x0 x1 x2 x3 s
  | .leLdq x0 x1 x2 x3 => Sys2Proof.Machine.execLeLdq x0 x1 x2 x3 s
  | .leStac x0 x1 x2 x3 => Sys2Proof.Machine.execLeStac x0 x1 x2 x3 s
  | .leLdac x0 x1 x2 x3 => Sys2Proof.Machine.execLeLdac x0 x1 x2 x3 s
  | .leSeta x0 x1 x2 x3 => Sys2Proof.Machine.execLeSeta x0 x1 x2 x3 s
  | .leGeta x0 x1 x2 x3 => Sys2Proof.Machine.execLeGeta x0 x1 x2 x3 s
  | .leBr x0 x1 x2 => Sys2Proof.Machine.execLeBr x0 x1 x2 s
  | .leCall x0 x1 => Sys2Proof.Machine.execLeCall x0 x1 s
  | .memoryScrub x0 x1 x2 x3 => Sys2Proof.Machine.execMemoryScrub x0 x1 x2 x3 s
  | .debugHalt x0 x1 => Sys2Proof.Machine.execDebugHalt x0 x1 s
  | .debugResume x0 x1 => Sys2Proof.Machine.execDebugResume x0 x1 s
  | .leImageBegin x0 => Sys2Proof.Machine.execLeImageBegin x0 s
  | .leImageData x0 => Sys2Proof.Machine.execLeImageData x0 s
  | .leImageEnd x0 => Sys2Proof.Machine.execLeImageEnd x0 s
  | .leImageCheckComplete x0 => Sys2Proof.Machine.execLeImageCheckComplete x0 s
  | .leStatus x0 => Sys2Proof.Machine.execLeStatus x0 s
  | .leTickSet x0 => Sys2Proof.Machine.execLeTickSet x0 s
  | .lePolicySet x0 => Sys2Proof.Machine.execLePolicySet x0 s
  | .leCountersClear x0 => Sys2Proof.Machine.execLeCountersClear x0 s
  | .leDataRead x0 => Sys2Proof.Machine.execLeDataRead x0 s
  | .leRestart x0 => Sys2Proof.Machine.execLeRestart x0 s
  | .pwmUpdateInstant x0 x1 => Sys2Proof.Machine.execPwmUpdateInstant x0 x1 s
  | .tileFaultInput x0 x1 x2 => Sys2Proof.Machine.execTileFaultInput x0 x1 x2 s
  | .hallEdge x0 x1 => Sys2Proof.Machine.execHallEdge x0 x1 s
  | .brakeCheckExpiry x0 => Sys2Proof.Machine.execBrakeCheckExpiry x0 s
  | .dclUndervoltClear x0 => Sys2Proof.Machine.execDclUndervoltClear x0 s
  | .tileModeSet x0 => Sys2Proof.Machine.execTileModeSet x0 s
  | .tilePwmSet x0 => Sys2Proof.Machine.execTilePwmSet x0 s
  | .tileFaultInputSet x0 => Sys2Proof.Machine.execTileFaultInputSet x0 s
  | .hallTableSet x0 => Sys2Proof.Machine.execHallTableSet x0 s
  | .tileTripClear x0 => Sys2Proof.Machine.execTileTripClear x0 s
  | .tileLoadAll x0 => Sys2Proof.Machine.execTileLoadAll x0 s
  | .tileStatus x0 => Sys2Proof.Machine.execTileStatus x0 s
  | .tilePolicySet x0 => Sys2Proof.Machine.execTilePolicySet x0 s
  | .dclConfig x0 => Sys2Proof.Machine.execDclConfig x0 s
  | .dclStatus x0 => Sys2Proof.Machine.execDclStatus x0 s
  | .brakeClear x0 => Sys2Proof.Machine.execBrakeClear x0 s
  | .sdSample x0 x1 x2 => Sys2Proof.Machine.execSdSample x0 x1 x2 s
  | .sdWindowSample x0 x1 x2 x3 x4 => Sys2Proof.Machine.execSdWindowSample x0 x1 x2 x3 x4 s
  | .ntcFault x0 => Sys2Proof.Machine.execNtcFault x0 s
  | .sdOverrange x0 => Sys2Proof.Machine.execSdOverrange x0 s
  | .sdStuck x0 => Sys2Proof.Machine.execSdStuck x0 s
  | .currentSumError x0 => Sys2Proof.Machine.execCurrentSumError x0 s
  | .senseNoWindow x0 => Sys2Proof.Machine.execSenseNoWindow x0 s
  | .listenEnd x0 x1 x2 => Sys2Proof.Machine.execListenEnd x0 x1 x2 s
  | .brakeEnd x0 => Sys2Proof.Machine.execBrakeEnd x0 s
  | .alignEnd x0 => Sys2Proof.Machine.execAlignEnd x0 s
  | .obsConvergedEvt x0 => Sys2Proof.Machine.execObsConvergedEvt x0 s
  | .startTimeout x0 => Sys2Proof.Machine.execStartTimeout x0 s
  | .startRetryWaitEnd x0 => Sys2Proof.Machine.execStartRetryWaitEnd x0 s
  | .observerLost x0 => Sys2Proof.Machine.execObserverLost x0 s
  | .identComplete x0 x1 => Sys2Proof.Machine.execIdentComplete x0 x1 s
  | .focMotorSet x0 => Sys2Proof.Machine.execFocMotorSet x0 s
  | .focConfig x0 => Sys2Proof.Machine.execFocConfig x0 s
  | .focModulationSet x0 => Sys2Proof.Machine.execFocModulationSet x0 s
  | .observerConfig x0 => Sys2Proof.Machine.execObserverConfig x0 s
  | .startConfig x0 => Sys2Proof.Machine.execStartConfig x0 s
  | .focPolicySet x0 => Sys2Proof.Machine.execFocPolicySet x0 s
  | .motorIdentify x0 => Sys2Proof.Machine.execMotorIdentify x0 s
  | .identResult x0 => Sys2Proof.Machine.execIdentResult x0 s
  | .focStatus x0 => Sys2Proof.Machine.execFocStatus x0 s
  | .chopperThresholdCross x0 x1 x2 => Sys2Proof.Machine.execChopperThresholdCross x0 x1 x2 s
  | .chopperFastEnd x0 x1 => Sys2Proof.Machine.execChopperFastEnd x0 x1 s
  | .chopperDriveTimeout x0 x1 => Sys2Proof.Machine.execChopperDriveTimeout x0 x1 s
  | .stepIdleTimeout x0 => Sys2Proof.Machine.execStepIdleTimeout x0 s
  | .stall x0 => Sys2Proof.Machine.execStall x0 s
  | .coilMeasureEnd x0 x1 x2 => Sys2Proof.Machine.execCoilMeasureEnd x0 x1 x2 s
  | .coilMeasSettleEnd x0 => Sys2Proof.Machine.execCoilMeasSettleEnd x0 s
  | .coilOpenDetect x0 x1 => Sys2Proof.Machine.execCoilOpenDetect x0 x1 s
  | .stepConfig x0 => Sys2Proof.Machine.execStepConfig x0 s
  | .chopperConfig x0 => Sys2Proof.Machine.execChopperConfig x0 s
  | .stepTableLoad x0 => Sys2Proof.Machine.execStepTableLoad x0 s
  | .stepTableSelect x0 => Sys2Proof.Machine.execStepTableSelect x0 s
  | .valveConfig x0 => Sys2Proof.Machine.execValveConfig x0 s
  | .ditherSet x0 => Sys2Proof.Machine.execDitherSet x0 s
  | .coilMeasureConfig x0 => Sys2Proof.Machine.execCoilMeasureConfig x0 s
  | .coilParamSet x0 => Sys2Proof.Machine.execCoilParamSet x0 s
  | .svCurrentSet x0 => Sys2Proof.Machine.execSvCurrentSet x0 s
  | .svPolicySet x0 => Sys2Proof.Machine.execSvPolicySet x0 s
  | .svStatus x0 => Sys2Proof.Machine.execSvStatus x0 s
  | .encoderEdge x0 x1 x2 x3 => Sys2Proof.Machine.execEncoderEdge x0 x1 x2 x3 s
  | .indexEdge x0 => Sys2Proof.Machine.execIndexEdge x0 s
  | .ssiFrameStart x0 => Sys2Proof.Machine.execSsiFrameStart x0 s
  | .ssiAckTimeout x0 => Sys2Proof.Machine.execSsiAckTimeout x0 s
  | .ssiFrameComplete x0 x1 x2 => Sys2Proof.Machine.execSsiFrameComplete x0 x1 x2 s
  | .absReadFailed x0 => Sys2Proof.Machine.execAbsReadFailed x0 s
  | .sdclkConfig x0 => Sys2Proof.Machine.execSdclkConfig x0 s
  | .sdConfig x0 => Sys2Proof.Machine.execSdConfig x0 s
  | .encConfig x0 => Sys2Proof.Machine.execEncConfig x0 s
  | .indexArm x0 => Sys2Proof.Machine.execIndexArm x0 s
  | .ssiConfig x0 => Sys2Proof.Machine.execSsiConfig x0 s
  | .sincosConfig x0 => Sys2Proof.Machine.execSincosConfig x0 s
  | .feedbackSelect x0 => Sys2Proof.Machine.execFeedbackSelect x0 s
  | .fbPolicySet x0 => Sys2Proof.Machine.execFbPolicySet x0 s
  | .sdStatus x0 => Sys2Proof.Machine.execSdStatus x0 s
  | .fbStatus x0 => Sys2Proof.Machine.execFbStatus x0 s
  | .captureEdge x0 x1 x2 => Sys2Proof.Machine.execCaptureEdge x0 x1 x2 s
  | .captureQualify x0 => Sys2Proof.Machine.execCaptureQualify x0 s
  | .latchComplete x0 => Sys2Proof.Machine.execLatchComplete x0 s
  | .capConsumed x0 => Sys2Proof.Machine.execCapConsumed x0 s
  | .guSample x0 => Sys2Proof.Machine.execGuSample x0 s
  | .guRecordComplete x0 => Sys2Proof.Machine.execGuRecordComplete x0 s
  | .segRelease x0 x1 => Sys2Proof.Machine.execSegRelease x0 x1 s
  | .capConfig x0 => Sys2Proof.Machine.execCapConfig x0 s
  | .capRead x0 => Sys2Proof.Machine.execCapRead x0 s
  | .capStatus x0 => Sys2Proof.Machine.execCapStatus x0 s
  | .guConfig x0 => Sys2Proof.Machine.execGuConfig x0 s
  | .guTriggerSet x0 => Sys2Proof.Machine.execGuTriggerSet x0 s
  | .guMeasureSet x0 => Sys2Proof.Machine.execGuMeasureSet x0 s
  | .guArm x0 => Sys2Proof.Machine.execGuArm x0 s
  | .guForce x0 => Sys2Proof.Machine.execGuForce x0 s
  | .guStop x0 => Sys2Proof.Machine.execGuStop x0 s
  | .guRelease x0 => Sys2Proof.Machine.execGuRelease x0 s
  | .guStatus x0 => Sys2Proof.Machine.execGuStatus x0 s
  | .markStatus x0 => Sys2Proof.Machine.execMarkStatus x0 s
  | .calderaCycle x0 => Sys2Proof.Machine.execCalderaCycle x0 s
  | .calderaClockCheck x0 x1 => Sys2Proof.Machine.execCalderaClockCheck x0 x1 s
  | .calderaSelfTest x0 => Sys2Proof.Machine.execCalderaSelfTest x0 s
  | .switchBankRead x0 => Sys2Proof.Machine.execSwitchBankRead x0 s
  | .testPulsePeriod x0 => Sys2Proof.Machine.execTestPulsePeriod x0 s
  | .safetyInputSample x0 => Sys2Proof.Machine.execSafetyInputSample x0 s
  | .filteredDemandChange x0 => Sys2Proof.Machine.execFilteredDemandChange x0 s
  | .discrepancy x0 => Sys2Proof.Machine.execDiscrepancy x0 s
  | .crossShort x0 x1 => Sys2Proof.Machine.execCrossShort x0 x1 s
  | .resetAccepted => Sys2Proof.Machine.execResetAccepted s
  | .genHalfPeriod x0 => Sys2Proof.Machine.execGenHalfPeriod x0 s
  | .heartbeatLoss x0 => Sys2Proof.Machine.execHeartbeatLoss x0 s
  | .heartbeatResume x0 => Sys2Proof.Machine.execHeartbeatResume x0 s
  | .ss1Timeout x0 => Sys2Proof.Machine.execSs1Timeout x0 s
  | .safeSpeedUpdate x0 x1 x2 x3 => Sys2Proof.Machine.execSafeSpeedUpdate x0 x1 x2 x3 s
  | .ss1rStandstill x0 => Sys2Proof.Machine.execSs1rStandstill x0 s
  | .slsMonitorStart x0 => Sys2Proof.Machine.execSlsMonitorStart x0 s
  | .sboTest x0 x1 x2 => Sys2Proof.Machine.execSboTest x0 x1 x2 s
  | .calderaSnapshot => Sys2Proof.Machine.execCalderaSnapshot s
  | .calderaStatus x0 => Sys2Proof.Machine.execCalderaStatus x0 s
  | .safecfgRead x0 => Sys2Proof.Machine.execSafecfgRead x0 s
  | .safeSpeedRead x0 => Sys2Proof.Machine.execSafeSpeedRead x0 s
  | .calderaFaultRead x0 => Sys2Proof.Machine.execCalderaFaultRead x0 s
  | .fioInputQualify x0 x1 x2 => Sys2Proof.Machine.execFioInputQualify x0 x1 x2 s
  | .fioFrameReceive x0 x1 => Sys2Proof.Machine.execFioFrameReceive x0 x1 s
  | .fioFrameApply => Sys2Proof.Machine.execFioFrameApply s
  | .fioTimeTransfer x0 => Sys2Proof.Machine.execFioTimeTransfer x0 s
  | .outThermalShutdown x0 => Sys2Proof.Machine.execOutThermalShutdown x0 s
  | .outShortVin x0 => Sys2Proof.Machine.execOutShortVin x0 s
  | .shortVinClear x0 => Sys2Proof.Machine.execShortVinClear x0 s
  | .backfeedSearchStart x0 => Sys2Proof.Machine.execBackfeedSearchStart x0 s
  | .backfeedCandidateCheck x0 => Sys2Proof.Machine.execBackfeedCandidateCheck x0 s
  | .groupOverload x0 => Sys2Proof.Machine.execGroupOverload x0 s
  | .outUndervolt x0 => Sys2Proof.Machine.execOutUndervolt x0 s
  | .undervoltEnd => Sys2Proof.Machine.execUndervoltEnd s
  | .fioFailsafe => Sys2Proof.Machine.execFioFailsafe s
  | .fioLinkFault => Sys2Proof.Machine.execFioLinkFault s
  | .fioConfig x0 => Sys2Proof.Machine.execFioConfig x0 s
  | .fioOutSet x0 => Sys2Proof.Machine.execFioOutSet x0 s
  | .fioFaultClear x0 => Sys2Proof.Machine.execFioFaultClear x0 s
  | .fioPolicySet x0 => Sys2Proof.Machine.execFioPolicySet x0 s
  | .fioRestore x0 => Sys2Proof.Machine.execFioRestore x0 s
  | .fioStatus x0 => Sys2Proof.Machine.execFioStatus x0 s
  | .canFrameReceive x0 x1 => Sys2Proof.Machine.execCanFrameReceive x0 x1 s
  | .canTxFrameEnd x0 x1 x2 => Sys2Proof.Machine.execCanTxFrameEnd x0 x1 x2 s
  | .canArbitrationLost x0 => Sys2Proof.Machine.execCanArbitrationLost x0 s
  | .canBusError x0 x1 x2 => Sys2Proof.Machine.execCanBusError x0 x1 x2 s
  | .canBusOn x0 => Sys2Proof.Machine.execCanBusOn x0 s
  | .canIntegrationDone x0 => Sys2Proof.Machine.execCanIntegrationDone x0 s
  | .canModeChangeApply x0 => Sys2Proof.Machine.execCanModeChangeApply x0 s
  | .canSleepEnter x0 => Sys2Proof.Machine.execCanSleepEnter x0 s
  | .canWake x0 x1 => Sys2Proof.Machine.execCanWake x0 x1 s
  | .rxqWinRead x0 x1 x2 => Sys2Proof.Machine.execRxqWinRead x0 x1 x2 s
  | .ttColumnInstant x0 x1 x2 => Sys2Proof.Machine.execTtColumnInstant x0 x1 x2 s
  | .ttRestart x0 => Sys2Proof.Machine.execTtRestart x0 s
  | .canConfig x0 => Sys2Proof.Machine.execCanConfig x0 s
  | .canModeSet x0 => Sys2Proof.Machine.execCanModeSet x0 s
  | .canFilterSet x0 => Sys2Proof.Machine.execCanFilterSet x0 s
  | .canRxqConfig x0 => Sys2Proof.Machine.execCanRxqConfig x0 s
  | .canRxRead x0 => Sys2Proof.Machine.execCanRxRead x0 s
  | .canTx x0 => Sys2Proof.Machine.execCanTx x0 s
  | .canTxCancel x0 => Sys2Proof.Machine.execCanTxCancel x0 s
  | .canBusoffRecover x0 => Sys2Proof.Machine.execCanBusoffRecover x0 s
  | .canSleep x0 => Sys2Proof.Machine.execCanSleep x0 s
  | .canTtConfig x0 => Sys2Proof.Machine.execCanTtConfig x0 s
  | .canTtColumnSet x0 => Sys2Proof.Machine.execCanTtColumnSet x0 s
  | .canTtData x0 => Sys2Proof.Machine.execCanTtData x0 s
  | .canTtEnable x0 => Sys2Proof.Machine.execCanTtEnable x0 s
  | .canStatus x0 => Sys2Proof.Machine.execCanStatus x0 s
  | .powerOn => Sys2Proof.Machine.execPowerOn s
  | .wakeInput x0 x1 => Sys2Proof.Machine.execWakeInput x0 x1 s
  | .v3aOverload => Sys2Proof.Machine.execV3aOverload s
  | .powerFailWarn x0 => Sys2Proof.Machine.execPowerFailWarn x0 s
  | .powerRestored => Sys2Proof.Machine.execPowerRestored s
  | .vaultSaveComplete x0 x1 => Sys2Proof.Machine.execVaultSaveComplete x0 x1 s
  | .brownout => Sys2Proof.Machine.execBrownout s
  | .resetNInput x0 x1 => Sys2Proof.Machine.execResetNInput x0 x1 s
  | .resetRelease => Sys2Proof.Machine.execResetRelease s
  | .trimLoadComplete x0 x1 => Sys2Proof.Machine.execTrimLoadComplete x0 x1 s
  | .clockLock x0 => Sys2Proof.Machine.execClockLock x0 s
  | .clockRecoveryTimeout => Sys2Proof.Machine.execClockRecoveryTimeout s
  | .bootComplete x0 x1 => Sys2Proof.Machine.execBootComplete x0 x1 s
  | .bootDoorbell x0 x1 => Sys2Proof.Machine.execBootDoorbell x0 x1 s
  | .hostLoadTimeout => Sys2Proof.Machine.execHostLoadTimeout s
  | .networkLoadTimeout => Sys2Proof.Machine.execNetworkLoadTimeout s
  | .tempCompUpdate => Sys2Proof.Machine.execTempCompUpdate s
  | .controlPlaneReset x0 x1 => Sys2Proof.Machine.execControlPlaneReset x0 x1 s
  | .cpResetRelease => Sys2Proof.Machine.execCpResetRelease s
  | .blockReset x0 => Sys2Proof.Machine.execBlockReset x0 s
  | .blockResetRelease x0 => Sys2Proof.Machine.execBlockResetRelease x0 s
  | .hibernate x0 => Sys2Proof.Machine.execHibernate x0 s
  | .hibernateEnter => Sys2Proof.Machine.execHibernateEnter s
  | .kettleThreshold x0 x1 => Sys2Proof.Machine.execKettleThreshold x0 x1 s
  | .kettleSensorFault x0 => Sys2Proof.Machine.execKettleSensorFault x0 s
  | .kettleStopTimeout => Sys2Proof.Machine.execKettleStopTimeout s
  | .kettleResumed => Sys2Proof.Machine.execKettleResumed s
  | .kettleTrip x0 x1 => Sys2Proof.Machine.execKettleTrip x0 x1 s
  | .kettleRestart => Sys2Proof.Machine.execKettleRestart s
  | .resetStatus x0 => Sys2Proof.Machine.execResetStatus x0 s
  | .blockResetReport x0 => Sys2Proof.Machine.execBlockResetReport x0 s
  | .vaultSave x0 => Sys2Proof.Machine.execVaultSave x0 s
  | .vaultRead x0 => Sys2Proof.Machine.execVaultRead x0 s
  | .vaultWrite x0 => Sys2Proof.Machine.execVaultWrite x0 s
  | .kettleStatus x0 => Sys2Proof.Machine.execKettleStatus x0 s
  | .ntcConfig x0 => Sys2Proof.Machine.execNtcConfig x0 s
  | .powerPolicySet x0 => Sys2Proof.Machine.execPowerPolicySet x0 s
  | .diagRead x0 => Sys2Proof.Machine.execDiagRead x0 s
  | .domainStopComplete x0 => Sys2Proof.Machine.execDomainStopComplete x0 s
  | .vinLoss => Sys2Proof.Machine.execVinLoss s
  | .delayRequestReceive x0 => Sys2Proof.Machine.execDelayRequestReceive x0 s
  | .blankingEnd x0 x1 => Sys2Proof.Machine.execBlankingEnd x0 x1 s
  | .outThermalRestart x0 => Sys2Proof.Machine.execOutThermalRestart x0 s
  | .shutdownCountReset x0 => Sys2Proof.Machine.execShutdownCountReset x0 s
  | .v3aOverloadEnd => Sys2Proof.Machine.execV3aOverloadEnd s
  | .kettleSensorPlausible x0 => Sys2Proof.Machine.execKettleSensorPlausible x0 s

end Sys2Proof.Machine
end

