-- ==== Sys2Proof/Safety.lean ====
section
/-! DEFINITION. What a safe state is, what a well-formed request is, and the rows of the command tables: the terms that
claims use. -/

namespace Sys2Proof.Machine

/-! ### The clock and the queue -/

/-- An instant on an edge of the 400 MHz clock lies on a whole nanosecond or 0.5 ns after one (R615). -/
def onHalf (t : Fix) : Prop := t.toNat % 0x80000000 = 0

/-- L is 0 before the domain starts, then one of the seven lengths of R54. -/
def legalLen (l : Word) : Prop := l = 0 ∨ ∃ n : Nat, n ≤ 6 ∧ l.toNat = 15625 * 2 ^ n

/-- The clock of the module is sound, and every waiting command is one that a sender can form. -/
structure State.Inv (s : State) : Prop where
  grid : onHalf s.dt
  len : legalLen s.stage.regs.pourLen
  queue : ∀ c ∈ s.pending, c.wf = true

/-- The queue, DT and L: what most operations leave alone. -/
def State.clock (s : State) : List Instr × Fix × Word := (s.pending, s.dt, s.stage.regs.pourLen)

/-- The command runs, and leaves this state. -/
abbrev Runs (c : Instr) (s t : State) : Prop := exec c s = .next t

/-! ### Requests -/

/-- A packet that its session has not seen, while OCP is served and a credit is left (R71, R77, R82). -/
abbrev Fresh (p : Packet) (s : State) : Prop :=
  served s = true ∧ (s.ocp.sessions[p.session].hist.all fun h => h.seq ≠ p.seq) = true
    ∧ s.ocp.sessions[p.session].regs.creditsInUse.toNat < 32

/-- In s, the state that has just accepted the packet, nothing in its session that waits to execute goes before it (R78, R81). -/
abbrev Turn (op : BitVec 16) (p : Packet) (s : State) : Prop :=
  hasTurn s.ocp.sessions[p.session].hist p.seq (packetCrc op p) = true

/-- A packet that passes every check after acceptance (R75 to R79, R92, R561 to R568). -/
abbrev Clean (d : OpDesc) (p : Packet) (s : State) : Prop :=
  p.version = 2 ∧ p.zeros = 0 ∧ d.params p.params.length = true ∧ d.reservedOk p = true
    ∧ (p.priority = true → d.cls = .a ∨ d.prio = true)
    ∧ d.target (tgt p) = true
    ∧ (p.staged = true → d.stage ≠ .no ∧ p.pour.isSome = true ∧ s.ocp.ident.quarantined = false)
    ∧ (p.staged = false → d.stage = .no ∨ (unitLocal s (targetUnit d.op (tgt p))).isSome = true)
    ∧ (diagOnly s = true → servedInDiag d = true)
    ∧ (d.control = true → s.power.cpReset = false)
    ∧ ((d.block (tgt p)).all fun b => !s.power.blocks.contains (BitVec.ofNat 16 b)) = true
    ∧ replyTooLarge d.op p = false
    ∧ (d.cls = .c → s.ocp.ops.length < 8)

/-- The state once the packet is accepted. -/
abbrev accepted (d : OpDesc) (p : Packet) (s : State) : State := acceptPacket d.op p (packetCrc d.op p) none s
/-- The state once a stageable packet is accepted: what its acceptance makes of it is kept with it (R185). -/
abbrev acceptedStage (o : StageOp) (p : Packet) (s : State) : State :=
  acceptPacket o.d.op p (packetCrc o.d.op p) (some (madeOf o p s)) s

/-- A request with its row of a command table: its common checks, its own checks, and what it does. -/
structure Request where
  d : OpDesc
  accept : Packet → State → BitVec 16
  run : Packet → State → Reply
  p : Packet

/-- A stageable request with its row. -/
structure StageRequest where
  o : StageOp
  p : Packet

/-- The row of a request that executes with its checks and has its reply at once. -/
def requestOf : Instr → Option Request
  | .timeRead p => some ⟨dTimeRead, acceptAny, runTimeRead, p⟩
  | .timeStatus p => some ⟨dTimeStatus, acceptAny, runTimeStatus, p⟩
  | .timeSourceSet p => some ⟨dTimeSourceSet, acceptTimeSourceSet, runTimeSourceSet, p⟩
  | .ptpConfig p => some ⟨dPtpConfig, acceptPtpConfig, runPtpConfig, p⟩
  | .timePolicySet p => some ⟨dTimePolicySet, acceptTimePolicySet, runTimePolicySet, p⟩
  | .compareArm p => some ⟨dCompareArm, acceptCompareArm, runCompareArm, p⟩
  | .compareCancel p => some ⟨dCompareCancel, acceptAny, runCompareCancel, p⟩
  | .ppsConfig p => some ⟨dPpsConfig, acceptPpsConfig, runPpsConfig, p⟩
  | .ppsStop p => some ⟨dPpsStop, acceptAny, runPpsStop, p⟩
  | .pourStatus p => some ⟨dPourStatus, acceptAny, runPourStatus, p⟩
  | .timeReload p => some ⟨dTimeReload, acceptTimeReload, runTimeReload, p⟩
  | .identityRead p => some ⟨dIdentityRead, acceptAny, runIdentityRead, p⟩
  | .attest p => some ⟨dAttest, acceptAny, runAttest, p⟩
  | .statusRead p => some ⟨dStatusRead, acceptAny, runStatusRead, p⟩
  | .eventRead p => some ⟨dEventRead, acceptEventRead, runEventRead, p⟩
  | .eventSubscribe p => some ⟨dEventSubscribe, acceptAny, runEventSubscribe, p⟩
  | .vaultEventsRead p => some ⟨dVaultEventsRead, acceptVaultEventsRead, runVaultEventsRead, p⟩
  | .echo p => some ⟨dEcho, acceptAny, runEcho, p⟩
  | .countersRead p => some ⟨dCountersRead, acceptAny, runCountersRead, p⟩
  | .configBegin p => some ⟨dConfigBegin, acceptConfigBegin, runConfigBegin, p⟩
  | .configData p => some ⟨dConfigData, acceptConfigData, runConfigData, p⟩
  | .configCommit p => some ⟨dConfigCommit, acceptConfigCommit, (startOp 0x0112), p⟩
  | .firmwareBegin p => some ⟨dFirmwareBegin, acceptFirmwareBegin, runFirmwareBegin, p⟩
  | .firmwareData p => some ⟨dFirmwareData, acceptFirmwareData, runFirmwareData, p⟩
  | .firmwareActivate p => some ⟨dFirmwareActivate, acceptAny, (startOp 0x0115), p⟩
  | .netConfig p => some ⟨dNetConfig, acceptAny, runNetConfig, p⟩
  | .imageStreamSet p => some ⟨dImageStreamSet, acceptImageStreamSet, runImageStreamSet, p⟩
  | .hostInputPolicy p => some ⟨dHostInputPolicy, acceptHostInputPolicy, runHostInputPolicy, p⟩
  | .stageOpen p => some ⟨dStageOpen, acceptStageOpen, runStageOpen, p⟩
  | .stageCommit p => some ⟨dStageCommit, acceptAny, runStageCommit, p⟩
  | .stageAbort p => some ⟨dStageAbort, acceptAny, runStageAbort, p⟩
  | .stageStatus p => some ⟨dStageStatus, acceptAny, runStageStatus, p⟩
  | .stageCancel p => some ⟨dStageCancel, acceptAny, runStageCancel, p⟩
  | .domainStart p => some ⟨dDomainStart, acceptDomainStart, runDomainStart, p⟩
  | .domainStop p => some ⟨dDomainStop, acceptDomainStop, (startOp 0x0307), p⟩
  | .nodeAccept p => some ⟨dNodeAccept, acceptNodeAccept, runNodeAccept, p⟩
  | .linkStatus p => some ⟨dLinkStatus, acceptAny, runLinkStatus, p⟩
  | .portConfig p => some ⟨dPortConfig, acceptPortConfig, runPortConfig, p⟩
  | .segmentStatus p => some ⟨dSegmentStatus, acceptAny, runSegmentStatus, p⟩
  | .segmentMapRead p => some ⟨dSegmentMapRead, acceptMaster, runSegmentMapRead, p⟩
  | .planCheck p => some ⟨dPlanCheck, acceptPlanCheck, runPlanCheck, p⟩
  | .eventForwardSet p => some ⟨dEventForwardSet, acceptEventForwardSet, runEventForwardSet, p⟩
  | .linkCountersClear p => some ⟨dLinkCountersClear, acceptAny, runLinkCountersClear, p⟩
  | .linkPolicySet p => some ⟨dLinkPolicySet, acceptLinkPolicySet, runLinkPolicySet, p⟩
  | .slotStatus p => some ⟨dSlotStatus, acceptAny, runSlotStatus, p⟩
  | .slotPolicySet p => some ⟨dSlotPolicySet, acceptSlotPolicy, runSlotPolicy, p⟩
  | .axisScaleSet p => some ⟨dAxisScaleSet, acceptAxisScale, runAxisScale, p⟩
  | .axisStatus p => some ⟨dAxisStatus, acceptAny, runAxisStatus, p⟩
  | .homeResult p => some ⟨dHomeResult, acceptAny, runHomeResult, p⟩
  | .axisPolicySet p => some ⟨dAxisPolicySet, acceptAxisPolicy, runAxisPolicy, p⟩
  | .followStatus p => some ⟨dFollowStatus, acceptAny, runFollowStatus, p⟩
  | .camLoadBegin p => some ⟨dCamLoadBegin, acceptCamBegin, runCamBegin, p⟩
  | .camLoadData p => some ⟨dCamLoadData, acceptCamData, runCamData, p⟩
  | .camLoadEnd p => some ⟨dCamLoadEnd, acceptCamEnd, runCamEnd, p⟩
  | .camTableStatus p => some ⟨dCamTableStatus, acceptCamStatus, runCamStatus, p⟩
  | .regStatus p => some ⟨dRegStatus, acceptAny, runRegStatus, p⟩
  | .followPolicySet p => some ⟨dFollowPolicySet, acceptFollowPolicy, runFollowPolicy, p⟩
  | .loopStatus p => some ⟨dLoopStatus, acceptAny, runLoopStatus, p⟩
  | .traceConfig p => some ⟨dTraceConfig, acceptTraceConfig, runTraceConfig, p⟩
  | .traceArm p => some ⟨dTraceArm, acceptTraceArm, runTraceArm, p⟩
  | .traceForce p => some ⟨dTraceForce, acceptAny, runTraceForce, p⟩
  | .traceStop p => some ⟨dTraceStop, acceptAny, runTraceStop, p⟩
  | .traceStatus p => some ⟨dTraceStatus, acceptAny, runTraceStatus, p⟩
  | .loopPolicySet p => some ⟨dLoopPolicySet, acceptLoopPolicy, runLoopPolicy, p⟩
  | .leImageBegin p => some ⟨dLeImageBegin, acceptLeImageBegin, runLeImageBegin, p⟩
  | .leImageData p => some ⟨dLeImageData, acceptLeImageData, runLeImageData, p⟩
  | .leImageEnd p => some ⟨dLeImageEnd, acceptLeImageEnd, runLeImageEnd, p⟩
  | .leStatus p => some ⟨dLeStatus, acceptAny, runLeStatus, p⟩
  | .lePolicySet p => some ⟨dLePolicySet, acceptLePolicySet, runLePolicySet, p⟩
  | .leCountersClear p => some ⟨dLeCountersClear, acceptAny, runLeCountersClear, p⟩
  | .leDataRead p => some ⟨dLeDataRead, acceptLeDataRead, runLeDataRead, p⟩
  | .leRestart p => some ⟨dLeRestart, acceptLeRestart, runLeRestart, p⟩
  | .tileTripClear p => some ⟨dTileTripClear, acceptAny, runTileTripClear, p⟩
  | .tileLoadAll p => some ⟨dTileLoadAll, acceptTileLoadAll, runTileLoadAll, p⟩
  | .tileStatus p => some ⟨dTileStatus, acceptAny, runTileStatus, p⟩
  | .tilePolicySet p => some ⟨dTilePolicySet, acceptTilePolicy, runTilePolicy, p⟩
  | .dclStatus p => some ⟨dDclStatus, acceptAny, runDclStatus, p⟩
  | .brakeClear p => some ⟨dBrakeClear, acceptBrakeClear, runBrakeClear, p⟩
  | .focPolicySet p => some ⟨dFocPolicySet, acceptFocPolicy, runFocPolicy, p⟩
  | .motorIdentify p => some ⟨dMotorIdentify, acceptIdentify, runMotorIdentify, p⟩
  | .identResult p => some ⟨dIdentResult, servo3, runIdentResult, p⟩
  | .focStatus p => some ⟨dFocStatus, servo3, runFocStatus, p⟩
  | .stepTableLoad p => some ⟨dStepTableLoad, acceptTableLoad, runTableLoad, p⟩
  | .svPolicySet p => some ⟨dSvPolicySet, acceptSvPolicy, runSvPolicy, p⟩
  | .svStatus p => some ⟨dSvStatus, acceptSvStatus, runSvStatus, p⟩
  | .indexArm p => some ⟨dIndexArm, acceptIndexArm, runIndexArm, p⟩
  | .fbPolicySet p => some ⟨dFbPolicySet, acceptFbPolicy, runFbPolicy, p⟩
  | .sdStatus p => some ⟨dSdStatus, acceptAny, runSdStatus, p⟩
  | .fbStatus p => some ⟨dFbStatus, acceptAny, runFbStatus, p⟩
  | .capRead p => some ⟨dCapRead, acceptCapRead, runCapRead, p⟩
  | .capStatus p => some ⟨dCapStatus, acceptAny, runCapStatus, p⟩
  | .guConfig p => some ⟨dGuConfig, acceptGuConfig, runGuConfig, p⟩
  | .guTriggerSet p => some ⟨dGuTriggerSet, acceptGuTriggerSet, runGuTriggerSet, p⟩
  | .guArm p => some ⟨dGuArm, acceptGuArm, runGuArm, p⟩
  | .guForce p => some ⟨dGuForce, acceptAny, runGuForce, p⟩
  | .guStop p => some ⟨dGuStop, acceptAny, runGuStop, p⟩
  | .guRelease p => some ⟨dGuRelease, acceptGuRelease, runGuRelease, p⟩
  | .guStatus p => some ⟨dGuStatus, acceptAny, runGuStatus, p⟩
  | .markStatus p => some ⟨dMarkStatus, acceptMarkStatus, runMarkStatus, p⟩
  | .calderaStatus p => some ⟨dCalderaStatus, acceptAny, runCalderaStatus, p⟩
  | .safecfgRead p => some ⟨dSafecfgRead, acceptAny, runSafecfgRead, p⟩
  | .safeSpeedRead p => some ⟨dSafeSpeedRead, acceptAny, runSafeSpeedRead, p⟩
  | .calderaFaultRead p => some ⟨dCalderaFaultRead, acceptFaultRead, runCalderaFaultRead, p⟩
  | .fioFaultClear p => some ⟨dFioFaultClear, acceptAny, runFioFaultClear, p⟩
  | .fioPolicySet p => some ⟨dFioPolicySet, acceptFioPolicy, runFioPolicySet, p⟩
  | .fioRestore p => some ⟨dFioRestore, acceptAny, runFioRestore, p⟩
  | .fioStatus p => some ⟨dFioStatus, acceptAny, runFioStatus, p⟩
  | .canConfig p => some ⟨dCanConfig, acceptCanConfig, (canRun runCanConfig), p⟩
  | .canModeSet p => some ⟨dCanModeSet, acceptCanModeSet, (canRun runCanModeSet), p⟩
  | .canFilterSet p => some ⟨dCanFilterSet, acceptCanFilterSet, (canRun runCanFilterSet), p⟩
  | .canRxqConfig p => some ⟨dCanRxqConfig, acceptCanRxqConfig, (canRun runCanRxqConfig), p⟩
  | .canRxRead p => some ⟨dCanRxRead, acceptCanRxRead, (canRun runCanRxRead), p⟩
  | .canTx p => some ⟨dCanTx, acceptCanTx, (canRun runCanTx), p⟩
  | .canTxCancel p => some ⟨dCanTxCancel, acceptAny, (canRun runCanTxCancel), p⟩
  | .canBusoffRecover p => some ⟨dCanBusoffRecover, acceptAny, (canRun runCanBusoffRecover), p⟩
  | .canSleep p => some ⟨dCanSleep, acceptCanSleep, (canRun runCanSleep), p⟩
  | .canTtConfig p => some ⟨dCanTtConfig, acceptCanTtConfig, (canRun runCanTtConfig), p⟩
  | .canTtColumnSet p => some ⟨dCanTtColumnSet, acceptCanTtColumnSet, (canRun runCanTtColumnSet), p⟩
  | .canTtData p => some ⟨dCanTtData, acceptCanTtData, (canRun runCanTtData), p⟩
  | .canTtEnable p => some ⟨dCanTtEnable, acceptCanTtEnable, (canRun runCanTtEnable), p⟩
  | .canStatus p => some ⟨dCanStatus, acceptAny, (canRun runCanStatus), p⟩
  | .blockReset p => some ⟨dBlockReset, acceptBlockReset, runBlockReset, p⟩
  | .blockResetReport p => some ⟨dBlockResetReport, acceptAny, runBlockResetReport, p⟩
  | .resetStatus p => some ⟨dResetStatus, acceptAny, runResetStatus, p⟩
  | .vaultSave p => some ⟨dVaultSave, acceptAny, runVaultSave, p⟩
  | .vaultRead p => some ⟨dVaultRead, acceptVaultRead, runVaultRead, p⟩
  | .vaultWrite p => some ⟨dVaultWrite, acceptVaultWrite, runVaultWrite, p⟩
  | .kettleStatus p => some ⟨dKettleStatus, acceptAny, runKettleStatus, p⟩
  | .powerPolicySet p => some ⟨dPowerPolicySet, acceptPowerPolicySet, runPowerPolicySet, p⟩
  | .diagRead p => some ⟨dDiagRead, acceptDiagRead, runDiagRead, p⟩
  | _ => none

/-- The row of a stageable request. -/
def stageOf : Instr → Option StageRequest
  | .slotConfig p => some ⟨stSlotConfig, p⟩
  | .slotArm p => some ⟨stSlotArm, p⟩
  | .slotDisarm p => some ⟨stSlotDisarm, p⟩
  | .masterLeadSet p => some ⟨stMasterLeadSet, p⟩
  | .axisConfig p => some ⟨stAxisConfig, p⟩
  | .axisLimitsSet p => some ⟨stAxisLimitsSet, p⟩
  | .stopLimitsSet p => some ⟨stStopLimitsSet, p⟩
  | .softLimitsSet p => some ⟨stSoftLimitsSet, p⟩
  | .axisDisable p => some ⟨stAxisDisable, p⟩
  | .movePosition p => some ⟨stMovePosition, p⟩
  | .moveVelocity p => some ⟨stMoveVelocity, p⟩
  | .moveStop p => some ⟨stMoveStop, p⟩
  | .homeConfig p => some ⟨stHomeConfig, p⟩
  | .homeStart p => some ⟨stHomeStart, p⟩
  | .faultClear p => some ⟨stFaultClear, p⟩
  | .axisEnable p => some ⟨stAxisEnable, p⟩
  | .gearSourceSet p => some ⟨stGearSourceSet, p⟩
  | .gearEngage p => some ⟨stGearEngage, p⟩
  | .gearRatioSet p => some ⟨stGearRatioSet, p⟩
  | .gearChangeArm p => some ⟨stGearChangeArm, p⟩
  | .gearChangeCancel p => some ⟨stGearChangeCancel, p⟩
  | .followDisengage p => some ⟨stFollowDisengage, p⟩
  | .camEngage p => some ⟨stCamEngage, p⟩
  | .camSwap p => some ⟨stCamSwap, p⟩
  | .regConfig p => some ⟨stRegConfig, p⟩
  | .regEnable p => some ⟨stRegEnable, p⟩
  | .regOffsetSet p => some ⟨stRegOffsetSet, p⟩
  | .loopProgramSelect p => some ⟨stLoopProgramSelect, p⟩
  | .loopRateSet p => some ⟨stLoopRateSet, p⟩
  | .loopTopSet p => some ⟨stLoopTopSet, p⟩
  | .loopCoefSet p => some ⟨stLoopCoefSet, p⟩
  | .loopModeSet p => some ⟨stLoopModeSet, p⟩
  | .loopTuningSet p => some ⟨stLoopTuningSet, p⟩
  | .supervisorConfig p => some ⟨stSupervisorConfig, p⟩
  | .limiterSet p => some ⟨stLimiterSet, p⟩
  | .freeLoopConfig p => some ⟨stFreeLoopConfig, p⟩
  | .leTickSet p => some ⟨stLeTickSet, p⟩
  | .tileModeSet p => some ⟨stTileModeSet, p⟩
  | .tilePwmSet p => some ⟨stTilePwmSet, p⟩
  | .tileFaultInputSet p => some ⟨stTileFaultInputSet, p⟩
  | .hallTableSet p => some ⟨stHallTableSet, p⟩
  | .dclConfig p => some ⟨stDclConfig, p⟩
  | .focMotorSet p => some ⟨stFocMotorSet, p⟩
  | .focConfig p => some ⟨stFocConfig, p⟩
  | .focModulationSet p => some ⟨stFocModulationSet, p⟩
  | .observerConfig p => some ⟨stObserverConfig, p⟩
  | .startConfig p => some ⟨stStartConfig, p⟩
  | .stepConfig p => some ⟨stStepConfig, p⟩
  | .chopperConfig p => some ⟨stChopperConfig, p⟩
  | .stepTableSelect p => some ⟨stStepTableSelect, p⟩
  | .valveConfig p => some ⟨stValveConfig, p⟩
  | .ditherSet p => some ⟨stDitherSet, p⟩
  | .coilMeasureConfig p => some ⟨stCoilMeasureConfig, p⟩
  | .coilParamSet p => some ⟨stCoilParamSet, p⟩
  | .svCurrentSet p => some ⟨stSvCurrentSet, p⟩
  | .sdclkConfig p => some ⟨stSdclkConfig, p⟩
  | .sdConfig p => some ⟨stSdConfig, p⟩
  | .encConfig p => some ⟨stEncConfig, p⟩
  | .ssiConfig p => some ⟨stSsiConfig, p⟩
  | .sincosConfig p => some ⟨stSincosConfig, p⟩
  | .feedbackSelect p => some ⟨stFeedbackSelect, p⟩
  | .capConfig p => some ⟨stCapConfig, p⟩
  | .guMeasureSet p => some ⟨stGuMeasureSet, p⟩
  | .fioConfig p => some ⟨stFioConfig, p⟩
  | .fioOutSet p => some ⟨stFioOutSet, p⟩
  | .ntcConfig p => some ⟨stNtcConfig, p⟩
  | _ => none

/-! ### One slot of a loop engine -/

/-- The engine issues, with no repeat, no transfer and no result on its way. -/
abbrev Plain (en : Engine) : Prop := en.issues = true ∧ en.rep = 0 ∧ en.transfer = none ∧ en.late = []

/-- A slot passes: the change f of the instruction, its results on their way, its cycles, and the next address (R294 to R296). -/
def Engine.slot (late : List Late) (cycles : Nat) (f : Engine → Engine) (en : Engine) : Engine :=
  { f en with late := late, lag0 := en.ac0, lag1 := en.ac1, cycle := en.cycle + BitVec.ofNat 32 cycles, pc := en.pc + 1 }

/-- The state after a slot of engine e. -/
abbrev leSlot (e : Fin 32) (late : List Late) (cycles : Nat) (f : Engine → Engine) (s : State) : State :=
  modEngine e (fun en => en.slot late cycles f) s

/-- The state after an ALU result: Gd and the flags that the result changes. -/
abbrev aluSlot (e : Fin 32) (d : Fin 16) (r : Alu) (s : State) : State :=
  leSlot e [] 1 (fun en => (en.put d r.val).putSr (aluSr r en.sr)) s

end Sys2Proof.Machine
end

