-- ==== Sys2Proof/Certificates/Slice0/Obligations.lean ====
section
/-! DEFINITION. The statements for the provers. -/

open Sys2Proof Sys2Proof.Machine



/-! ### The machine -/

/-- A step takes the command at the front of the queue and runs it on the state with the queue's rest. -/
def Obligations.StepRunsFront : Prop :=
  ∀ (c : Instr) (rest : List Instr) (s : State),
    step { s with pending := c :: rest } = exec c { s with pending := rest }

/-- On an empty queue one edge of the 400 MHz clock passes: DT goes on by 2.5 ns while the clocks run (the model's choice,
log entry 2). -/
def Obligations.IdleStepIsOneEdge : Prop :=
  ∀ s : State, s.pending = [] →
    (clocksRun s = true → step s = .next { s with dt := s.dt + 0x280000000 })
      ∧ (clocksRun s = false → step s = .next s)

/-- The state after reset: no command waits, DT and L are 0, no axis is enabled, no tile runs, every memory is empty, the log
is empty, every session has all its credits, and the straps are open (log entry 1 names the values the spec leaves open). -/
def Obligations.ResetState : Prop :=
  State.reset.pending = [] ∧ State.reset.dt = 0 ∧ State.reset.stage.regs.pourLen = 0 ∧ State.reset.stage.sets = []
    ∧ (∀ a : Fin 112, State.reset.axes[a].enabled = false ∧ State.reset.axes[a].regs.spPos = 0
        ∧ State.reset.axes[a].regs.scaleNum = 1 ∧ State.reset.axes[a].regs.scaleDen = 1)
    ∧ (∀ t : Fin 16, State.reset.tiles[t].regs.mode = 0 ∧ State.reset.tiles[t].regs.tileState = 0)
    ∧ (∀ e : Fin 32, State.reset.engines[e].prog = [] ∧ State.reset.engines[e].data = [])
    ∧ (∀ c : Fin 4, State.reset.portMem[c] = []) ∧ State.reset.acq = []
    ∧ State.reset.events.log = [] ∧ State.reset.events.empty = true
    ∧ (∀ i : Fin 80, State.reset.ocp.sessions[i].regs.creditsInUse = 0)
    ∧ State.reset.power.bootSel = 7 ∧ State.reset.power.boot = .done

/-- The state after reset meets the invariant. -/
def Obligations.ResetMeetsInvariant : Prop := State.reset.Inv

/-- Every step keeps the invariant: DT lies on a whole nanosecond or 0.5 ns after one (R615), L is 0 or one of the seven
lengths of R54, and every waiting command is one a sender can form. -/
def Obligations.StepKeepsInvariant : Prop :=
  ∀ s t : State, s.Inv → step s = .next t → t.Inv

/-- Every command in every state answers a next state, and leaves the queue to the step. -/
def Obligations.CommandsCompleteAndKeepTheQueue : Prop :=
  ∀ (c : Instr) (s : State), ∃ t, Runs c s t ∧ t.pending = s.pending

/-- The commands that may change L: the domain's start, and the resets of the module (R54, R133, R567). -/
def mayChangeLen : Instr → Bool
  | .domainStartComplete _ | .powerOn | .wakeInput .. | .vinLoss | .brownout | .resetNInput .. | .hibernateEnter
  | .kettleRestart => true
  | _ => false

/-- L changes at the start of the domain and in a reset of the module, and in no other command. -/
def Obligations.PourLengthFixedByDomainStart : Prop :=
  ∀ (c : Instr) (s t : State), Runs c s t → t.stage.regs.pourLen ≠ s.stage.regs.pourLen → mayChangeLen c = true

/-! ### Requests -/

/-- The checks after acceptance pass exactly for a clean packet: the right version, reserved bits 0, a parameter count and a
target that suit the opcode, priority, staging and chaining only where the opcode allows them, no diagnostic, quarantined or
block-reset refusal, and room for a class C operation. -/
def Obligations.HeaderChecksPassForCleanPackets : Prop :=
  ∀ (d : OpDesc) (p : Packet) (s : State), headerStatus d p s = Status.ok ↔ Clean d p s

/-- A new request that passes its checks, and before which nothing of its session waits, executes once, on the state in which
it is accepted, and its reply follows. -/
def Obligations.CleanRequestExecutes : Prop :=
  ∀ (c : Instr) (r : Request) (s : State), requestOf c = some r → Fresh r.p s → r.p.chained = false →
    let s' := accepted r.d r.p s
    Turn r.d.op r.p s' → Clean r.d r.p s' → r.accept r.p s' = Status.ok →
    Runs c s (replyTo r.d r.p (r.run r.p s'))

/-- A new request that fails a check has a reply with the status of the first check it fails, and no other effect: only its
session changes (a STAGED one counts in the session's open transaction), and on a tunnel session the fragments of its reply
wait to leave. -/
def Obligations.RefusedRequestHasNoEffect : Prop :=
  ∀ (c : Instr) (r : Request) (s : State), requestOf c = some r → Fresh r.p s → r.p.chained = false →
    let s' := accepted r.d r.p s
    Turn r.d.op r.p s' → ∀ st, st ≠ Status.ok →
      (headerStatus r.d r.p s' = st →
        ∃ t, Runs c s t ∧ t = replyTo r.d r.p (refusePacket r.d.op st r.p s')
          ∧ { t with ocp := s.ocp, link := { t.link with outbox := s.link.outbox } } = s)
      ∧ (headerStatus r.d r.p s' = Status.ok → r.accept r.p s' = st →
        ∃ t, Runs c s t ∧ t = replyTo r.d r.p (answer st s')
          ∧ { t with ocp := s.ocp, link := { t.link with outbox := s.link.outbox } } = s)

/-- A reply is sent once: on a session whose transport takes it, for a packet in the history with no reply and no waiting
copy, it leaves the module, enters the history, and gives its credit back; its word 3 is the DT of the packet's acceptance for
ACCEPTED_STAGED and ACCEPTED_PENDING, else the present; nothing but the transport changes. -/
def Obligations.OneReplyPerPacket : Prop :=
  ∀ (d : OpDesc) (p : Packet) (r : Reply) (h : HistEntry) (rest : List HistEntry),
    r.s.ocp.sessions[p.session].hist = h :: rest →
    h.seq = p.seq → h.crc = packetCrc d.op p → h.reply = none → h.orphan = false → h.copies = 0 →
    (∀ x ∈ rest, awaits p.seq (packetCrc d.op p) x = false) →
    2 ≤ p.session.val → r.s.ocp.sessions[p.session].out = [] →
    let t0 := if r.st = Status.acceptedStaged ∨ r.st = Status.acceptedPending then h.acceptedAt else r.s.dt
    let ws := replyWords d.op p r.st (nsLo t0) r.out
    let t := replyTo d p r
    t.ocp.sent = (p.session, ws) :: r.s.ocp.sent
      ∧ (t.ocp.sessions[p.session].hist.head?.bind (·.reply)) = some ws
      ∧ (r.s.ocp.sessions[p.session].regs.creditsInUse ≠ 0 →
          t.ocp.sessions[p.session].regs.creditsInUse = r.s.ocp.sessions[p.session].regs.creditsInUse - 1)
      ∧ { t with ocp := r.s.ocp, link := { t.link with outbox := r.s.link.outbox } } = r.s

/-- A packet that was accepted and answered before is not executed again: it is counted, and a copy of the stored reply goes.
A sequence number that belongs to another packet: the request is not executed and is answered SEQUENCE_REUSED, and it
enters the history with that reply, so that its own retransmission is a duplicate. -/
def Obligations.SequenceNumbersAreServedOnce : Prop :=
  (∀ (c : Instr) (s : State) (op : BitVec 16) (p : Packet) (h : HistEntry) (ws : List Word),
    ((∃ r, requestOf c = some r ∧ r.d.op = op ∧ r.p = p) ∨ (∃ r, stageOf c = some r ∧ r.o.d.op = op ∧ r.p = p)) →
    served s = true →
    (∀ x ∈ s.ocp.sessions[p.session].hist, awaits p.seq (packetCrc op p) x = false) →
    (s.ocp.sessions[p.session].hist.filter fun h => !h.orphan).find? (fun h => h.seq = p.seq && h.crc = packetCrc op p)
      = some h → h.reply = some ws →
    s.ocp.sessions[p.session].regs.creditsInUse.toNat < 32 →
    let t := copyReply p.session ws s
    Runs c s t
      ∧ (∀ i : Fin 80, i ≠ p.session → t.ocp.sessions[i] = s.ocp.sessions[i])
      ∧ t.ocp.sessions[p.session].regs.dupCount = satAdd s.ocp.sessions[p.session].regs.dupCount 1
      ∧ { t with ocp := s.ocp, link := { t.link with outbox := s.link.outbox } } = s)
  ∧ (∀ (c : Instr) (s : State) (d : OpDesc) (p : Packet),
    ((∃ r, requestOf c = some r ∧ r.d = d ∧ r.p = p) ∨ (∃ r, stageOf c = some r ∧ r.o.d = d ∧ r.p = p)) →
    served s = true →
    (s.ocp.sessions[p.session].hist.all fun h => !(h.seq = p.seq && h.crc = packetCrc d.op p)) = true →
    (s.ocp.sessions[p.session].hist.any fun h => h.seq = p.seq && !h.orphan) = true →
    s.ocp.sessions[p.session].regs.creditsInUse.toNat < 32 →
    let ws := replyWords d.op p Status.sequenceReused (nsLo s.dt) []
    ∃ t, Runs c s t ∧ { t with ocp := s.ocp, link := { t.link with outbox := s.link.outbox } } = s
      ∧ ((t.ocp.sessions[p.session].hist.head?.map fun h => (h.seq, h.crc, h.reply)) = some (p.seq, packetCrc d.op p, some ws))
      ∧ (2 ≤ p.session.val → s.ocp.sessions[p.session].out = [] → t.ocp.sent = (p.session, ws) :: s.ocp.sent))

/-- A packet that finds all 32 credits of its session taken is discarded: it is counted, has no reply and no effect. -/
def Obligations.CreditViolationIsDiscarded : Prop :=
  ∀ (c : Instr) (s : State) (op : BitVec 16) (p : Packet),
    ((∃ r, requestOf c = some r ∧ r.d.op = op ∧ r.p = p) ∨ (∃ r, stageOf c = some r ∧ r.o.d.op = op ∧ r.p = p)) →
    served s = true →
    (s.ocp.sessions[p.session].hist.all fun h => h.seq ≠ p.seq) = true →
    32 ≤ s.ocp.sessions[p.session].regs.creditsInUse.toNat →
    ∃ t, Runs c s t ∧ t.ocp.sent = s.ocp.sent
      ∧ t.ocp.sessions[p.session].regs.creditViolCount = satAdd s.ocp.sessions[p.session].regs.creditViolCount 1
      ∧ t.ocp.sessions[p.session].hist = s.ocp.sessions[p.session].hist
      ∧ { t with ocp := s.ocp, events := s.events } = s

/-- A chained packet waits while its predecessor has no reply, ends with CHAIN_BROKEN and no effect when the predecessor's
reply is an error, and executes when it is OK, ACCEPTED_STAGED or ACCEPTED_PENDING. -/
def Obligations.ChainedPacketFollowsItsPredecessor : Prop :=
  ∀ (c : Instr) (r : Request) (s : State) (q : HistEntry), requestOf c = some r → Fresh r.p s →
    r.p.chained = true →
    let s' := accepted r.d r.p s
    predecessor s'.ocp.sessions[r.p.session].hist false r.p.seq = some q →
    let good (ws : List Word) : Prop := replyStatus ws = Status.ok ∨ replyStatus ws = Status.acceptedStaged
      ∨ replyStatus ws = Status.acceptedPending
    (q.reply = none → Runs c s s')
      ∧ (∀ ws, q.reply = some ws → Turn r.d.op r.p s' → ¬ good ws →
          Runs c s (replyTo r.d r.p (refusePacket r.d.op Status.chainBroken r.p s')))
      ∧ (∀ ws, q.reply = some ws → Turn r.d.op r.p s' → good ws → Clean r.d r.p s' → r.accept r.p s' = Status.ok →
          Runs c s (replyTo r.d r.p (r.run r.p s')))

/-! ### Staged requests -/

/-- A stageable request outside a transaction, staged for a pour it can still meet, forms a set of its own: its reply is
ACCEPTED_STAGED with the number of the assigned pour, and the setting itself, converted as its acceptance found it, waits for
that pour.
In an open transaction the packet joins it: it counts, and enters the set if it is sound and its target pour is 0; the
257th and later are answered TRANSACTION_TOO_LARGE, one with an error of its own with that error.
Unstaged, on a local-mode tile that does not run, the setting is made at once if the tile's state allows it (log entry
8); while the tile runs it waits for the tile's next position-loop tick, and a setting that its rule ties to a LOAD_ALL waits
for that. -/
def Obligations.StagedRequestIsServedByItsRouting : Prop :=
  (∀ (c : Instr) (r : StageRequest) (s : State), stageOf c = some r → Fresh r.p s → r.p.chained = false →
    let s' := acceptedStage r.o r.p s
    Turn r.o.d.op r.p s' → r.p.staged = true → Clean r.o.d r.p s' → r.o.accept r.p s = Status.ok →
    s.ocp.sessions[r.p.session].txn = none →
    let cmd : StagedCmd := { op := r.o.d.op, p := r.o.conv r.p s }
    let pour := assignPour s.dt s' (r.p.pour.getD 0)
    commitStatus s.dt [cmd] (r.p.pour.getD 0) s' = Status.ok →
    Runs c s (replyTo r.o.d r.p
      { st := Status.acceptedStaged, out := words64 pour
        s := pushSet (BitVec.ofNat 16 r.p.session.val) r.p.seq pour [cmd] (setBytes [cmd]) s' }))
  ∧ (∀ (c : Instr) (r : StageRequest) (s : State) (t : Txn), stageOf c = some r → Fresh r.p s → r.p.chained = false →
    let s' := acceptedStage r.o r.p s
    Turn r.o.d.op r.p s' → r.p.staged = true → s.ocp.sessions[r.p.session].txn = some t →
    let cmd : StagedCmd := { op := r.o.d.op, p := r.o.conv r.p s }
    (Clean r.o.d r.p s' → r.o.accept r.p s = Status.ok → r.p.pour = some 0 → t.count < 256 →
        Runs c s (replyTo r.o.d r.p (answer Status.acceptedStaged (joinTxn r.p.session Status.acceptedStaged cmd s'))))
      ∧ (256 ≤ t.count → Runs c s (replyTo r.o.d r.p (answer Status.transactionTooLarge
          (joinTxn r.p.session Status.transactionTooLarge cmd s'))))
      ∧ (∀ st, headerStatus r.o.d r.p s' = st → st ≠ Status.ok → t.count < 256 →
          Runs c s (replyTo r.o.d r.p (answer st (joinTxn r.p.session st cmd s')))))
  ∧ (∀ (c : Instr) (r : StageRequest) (s : State) (t : Fin 16), stageOf c = some r → Fresh r.p s → r.p.chained = false →
    let s' := acceptedStage r.o r.p s
    Turn r.o.d.op r.p s' → r.p.staged = false → Clean r.o.d r.p s' → r.o.accept r.p s = Status.ok →
    let q := r.o.conv r.p s
    let cmd : StagedCmd := { op := r.o.d.op, p := q }
    unitLocal s' (targetUnit r.o.d.op (tgt r.p)) = some t → r.o.check q s' = Status.ok →
    (r.o.atLoad = true → Runs c s (replyTo r.o.d r.p (ok (modTile t (fun tl =>
          { tl with pw := { tl.pw with loadQ := tl.pw.loadQ ++ [cmd] } }) s'))))
      ∧ (r.o.atLoad = false → s'.tiles[t].regs.tileState ≠ 2 → Runs c s (replyTo r.o.d r.p (ok (r.o.apply q s'))))
      ∧ (r.o.atLoad = false → s'.tiles[t].regs.tileState = 2 →
          Runs c s (replyTo r.o.d r.p (ok (modTile t (fun tl =>
            { tl with pw := { tl.pw with tickQ := tl.pw.tickQ ++ [cmd] } }) s')))))

/-- At its pour a set takes effect as a whole, packet by packet in order, or not at all: where a condition fails nothing of
it changes the state, and POUR_REFUSED tells its sequence number, the first failing status and its session. -/
def Obligations.SetTakesEffectWholeOrNotAtAll : Prop :=
  ∀ (stops : List (Fin 112)) (x : StagedSet) (hold : List (Fin 112)) (s : State),
    (∀ s', runSet stops x.cmds s = .ok s' → ∃ t, pourSets stops [x] hold s = (hold, t)
        ∧ { t with stage := s'.stage } = s' ∧ t.stage.sets = s'.stage.sets
        ∧ t.stage.regs.swapCount = satInc s'.stage.regs.swapCount)
      ∧ (∀ st, runSet stops x.cmds s = .error st → ∃ h t, pourSets stops [x] hold s = (h, t)
          ∧ { t with stage := s.stage, events := s.events, ocp := s.ocp } = s
          ∧ ∃ tail, t.events.fabric = s.events.fabric
              ++ ({ code := Ev.pourRefused, src := srcStaging, t := s.dt, p0 := x.seq, p1 := st.zeroExtend 32,
                    p2 := x.session.zeroExtend 32 } : EventRec) :: tail)

/-- A set of one setting makes that setting when its conditions hold at the pour point, and is refused with AXIS_STOPPING where
a stop of the same pour governs its axis. -/
def Obligations.PouredSettingIsApplied : Prop :=
  ∀ (c : Instr) (r : StageRequest) (q : Packet) (stops : List (Fin 112)) (s : State), stageOf c = some r →
    let cmd : StagedCmd := { op := r.o.d.op, p := q }
    (stopGoverns stops cmd = false → stagedStatus r.o cmd s = Status.ok → runSet stops [cmd] s = .ok (r.o.apply q s))
      ∧ (stopGoverns stops cmd = true → runSet stops [cmd] s = .error Status.axisStopping)

/-- The requests that only read: their effect is their reply. -/
def isQuery : Instr → Bool
  | .timeRead _ | .timeStatus _ | .pourStatus _ | .identityRead _ | .statusRead _ | .eventRead _ | .vaultEventsRead _ | .echo _
  | .countersRead _ | .stageStatus _ | .linkStatus _ | .segmentStatus _ | .segmentMapRead _ | .slotStatus _ | .axisStatus _
  | .homeResult _ | .followStatus _ | .camTableStatus _ | .regStatus _ | .loopStatus _ | .traceStatus _ | .leStatus _
  | .leDataRead _ | .tileStatus _ | .dclStatus _ | .identResult _ | .focStatus _ | .svStatus _ | .sdStatus _ | .fbStatus _
  | .capStatus _ | .guStatus _ | .markStatus _ | .calderaStatus _ | .safecfgRead _ | .safeSpeedRead _ | .calderaFaultRead _
  | .fioStatus _ | .resetStatus _ | .kettleStatus _ => true
  | _ => false

/-- A request that only reads changes nothing but the transport, and the event that a discarded packet raises. -/
def Obligations.QueriesChangeNothingElse : Prop :=
  ∀ (c : Instr) (s t : State), isQuery c = true → Runs c s t →
    { t with ocp := s.ocp, events := s.events, link := { t.link with outbox := s.link.outbox } } = s

/-! ### The instructions of the loop engines -/

/-- The ALU instructions: the result in Gd, the flags that the instruction changes, nothing else but the slot. -/
def Obligations.LeAluInstructionsGiveResultAndFlags : Prop :=
  ∀ (e : Fin 32) (d a b : Fin 16) (imm : BitVec 18) (s : State), Plain s.engines[e] →
    let x := s.engines[e].g a
    let y := s.engines[e].g b
    let i := imm.signExtend 32
    let z := imm.zeroExtend 32
    let carry (x y : Word) : Option Bool := some (decide (2 ^ 32 ≤ x.toNat + y.toNat))
    Runs (.leAdd e d a b) s (aluSlot e d { val := x + y, c := carry x y, v := some (over32 (x.toInt + y.toInt)) } s)
      ∧ Runs (.leAddi e d a imm) s (aluSlot e d { val := x + i, c := carry x i, v := some (over32 (x.toInt + i.toInt)) } s)
      ∧ Runs (.leAdds e d a b) s (aluSlot e d { val := sat32 (x.toInt + y.toInt), v := some (over32 (x.toInt + y.toInt)),
                                                satg := over32 (x.toInt + y.toInt) } s)
      ∧ Runs (.leSub e d a b) s (aluSlot e d { val := x - y, c := some (decide (y.toNat ≤ x.toNat)),
                                               v := some (over32 (x.toInt - y.toInt)) } s)
      ∧ Runs (.leSubs e d a b) s (aluSlot e d { val := sat32 (x.toInt - y.toInt), v := some (over32 (x.toInt - y.toInt)),
                                                satg := over32 (x.toInt - y.toInt) } s)
      ∧ Runs (.leAnd e d a b) s (aluSlot e d { val := x &&& y } s)
      ∧ Runs (.leOr e d a b) s (aluSlot e d { val := x ||| y } s)
      ∧ Runs (.leXor e d a b) s (aluSlot e d { val := x ^^^ y } s)
      ∧ Runs (.leAndi e d a imm) s (aluSlot e d { val := x &&& z } s)
      ∧ Runs (.leOri e d a imm) s (aluSlot e d { val := x ||| z } s)
      ∧ Runs (.leMin e d a b) s (aluSlot e d { val := if y.toInt < x.toInt then y else x } s)
      ∧ Runs (.leMax e d a b) s (aluSlot e d { val := if x.toInt < y.toInt then y else x } s)
      ∧ Runs (.leAbss e d a) s (aluSlot e d { val := sat32 x.toInt.natAbs, satg := over32 x.toInt.natAbs } s)
      ∧ Runs (.leNegs e d a) s (aluSlot e d { val := sat32 (-x.toInt), satg := over32 (-x.toInt) } s)
      ∧ Runs (.leMov e d a) s (aluSlot e d { val := x } s)

/-- The shifts: by count 0 to 63; C is the last bit shifted out, and no bit of the state fixes C where the count is 0 (the
spec states no C there; log entry 95). -/
def Obligations.LeShiftsGiveResultAndCarry : Prop :=
  ∀ (e : Fin 32) (d a b : Fin 16) (imm : BitVec 18) (s : State), Plain s.engines[e] →
    let x := s.engines[e].g a
    let left (n : Nat) (c : Bool) : Alu :=
      { val := x <<< n, c := some (if n = 0 then c else decide (n ≤ 32) && x.getLsbD (32 - n)) }
    let right (n : Nat) (c : Bool) : Alu := { val := x >>> n, c := some (if n = 0 then c else x.getLsbD (n - 1)) }
    let arith (n : Nat) (c : Bool) : Alu :=
      { val := x.sshiftRight n, c := some (if n = 0 then c else x.getLsbD (min n 32 - 1)) }
    let n := (s.engines[e].g b).toNat % 64
    let k := imm.toNat % 64
    ∃ c, Runs (.leShl e d a b) s (aluSlot e d (left n c) (drawn s))
      ∧ Runs (.leShr e d a b) s (aluSlot e d (right n c) (drawn s))
      ∧ Runs (.leAsr e d a b) s (aluSlot e d (arith n c) (drawn s))
      ∧ Runs (.leShli e d a imm) s (aluSlot e d (left k c) (drawn s))
      ∧ Runs (.leShri e d a imm) s (aluSlot e d (right k c) (drawn s))
      ∧ Runs (.leAsri e d a imm) s (aluSlot e d (arith k c) (drawn s))

/-- Compares change the flags alone; moves of immediates, SR and address registers change Gd alone; CLRF clears sticky bits
alone; NOP changes nothing but the slot.
CLAMP: the result lies between Ga and Gb where Ga ≤ Gb, and is Gd itself where Gd lies there; C and SATG tell a change. -/
def Obligations.LeMovesComparesAndClampsChangeOneThing : Prop :=
  (∀ (e : Fin 32) (d a b : Fin 16) (imm : BitVec 18) (h : BitVec 16) (k : BitVec 2) (i : Fin 8) (s : State),
    Plain s.engines[e] →
    let en := s.engines[e]
    Runs (.leNop e) s (leSlot e [] 1 id s)
      ∧ Runs (.leCmp e a b) s (leSlot e [] 1 (fun en => en.putSr (aluSr (aluSub (en.g a) (en.g b)) en.sr)) s)
      ∧ Runs (.leCmpi e a imm) s (leSlot e [] 1 (fun en => en.putSr (aluSr (aluSub (en.g a) (imm.signExtend 32)) en.sr)) s)
      ∧ Runs (.leMovi e d imm) s (leSlot e [] 1 (fun en => en.put d (imm.signExtend 32)) s)
      ∧ Runs (.leMovhi e d h) s (leSlot e [] 1 (fun en => en.put d (h ++ (en.g d).extractLsb' 0 16)) s)
      ∧ Runs (.leMovsr e d) s (leSlot e [] 1 (fun en => en.put d en.srWord) s)
      ∧ Runs (.leClrf e h) s (leSlot e [] 1 (fun en => en.putSr (en.sr &&& ~~~(h &&& 0xFF00))) s)
      ∧ Runs (.leGeta e d 0 i) s (leSlot e [] 1 (fun en => en.put d (en.p[i].zeroExtend 32)) s)
      ∧ Runs (.leGeta e d 1 i) s (leSlot e [] 1 (fun en => en.put d (en.md[i].signExtend 32)) s)
      ∧ Runs (.leGeta e d 2 i) s (leSlot e [] 1 (fun en => en.put d (en.len[i].zeroExtend 32)) s)
      ∧ Runs (.leGeta e d 3 i) s (leSlot e [] 1 (fun en => en.put d (en.base[i].zeroExtend 32)) s)
      ∧ Runs (.leSeta e k i a) s (leSlot e
          [{ dest := .adr k i, shadow := false, val := (en.g a).zeroExtend 80, left := 2 }] 1 id s))
  ∧ (∀ (e : Fin 32) (d a b : Fin 16) (s : State), Plain s.engines[e] →
    ∃ r : Word, let lo := (s.engines[e].g a).toInt
      let hi := (s.engines[e].g b).toInt
      let x := s.engines[e].g d
      Runs (.leClamp e d a b) s (aluSlot e d { val := r, c := some (r != x), satg := r != x } s)
      ∧ (lo ≤ hi → lo ≤ r.toInt ∧ r.toInt ≤ hi) ∧ (lo ≤ x.toInt → x.toInt ≤ hi → r = x))

/-- binary32 and SINCOS: the results land two and three slots later; FPE is set at once.  Sine and cosine lie within 4 LSB.
Products and extractions land one slot later; an extraction sees the accumulator as it was one slot before. -/
def Obligations.LeFloatsAndExtractionsLandLate : Prop :=
  (∀ (e : Fin 32) (d a b : Fin 16) (s : State), Plain s.engines[e] →
    let en := s.engines[e]
    let fp (r : Word × Bool) (s : State) : State :=
      leSlot e [{ dest := .g d, shadow := en.inTick, val := r.1.zeroExtend 80, left := 2 }] 1
        (fun en => en.putSr (srStick 11 r.2 en.sr)) s
    (∃ w : Word, Runs (.leFadd e d a b) s (fp (f32Add (en.g a) (en.g b) w) (drawn s))
        ∧ Runs (.leFsub e d a b) s (fp (f32Add (en.g a) (f32Neg (en.g b)) w) (drawn s))
        ∧ Runs (.leFmul e d a b) s (fp (f32Mul (en.g a) (en.g b) w) (drawn s)))
      ∧ Runs (.leFcvtif e d a) s (fp (f32OfInt (en.g a), false) s)
      ∧ Runs (.leFcvtfi e d a) s (fp (f32ToInt (en.g a)) s)
      ∧ (d.val % 2 = 0 → ∃ v w : Word, Runs (.leSincos e d a) s (leSlot e
          [{ dest := .g d, shadow := en.inTick, val := v.zeroExtend 80, left := 3 },
           { dest := .g (d + 1), shadow := en.inTick, val := w.zeroExtend 80, left := 3 }] 1 id (drawn (drawn s)))))
  ∧ (∀ (e : Fin 32) (n : Bool) (a b d : Fin 16) (sh : BitVec 6) (s : State), Plain s.engines[e] →
    let en := s.engines[e]
    let lag := if n then en.lag1 else en.lag0
    let out (v : Word) : List Late := [{ dest := .g d, shadow := en.inTick, val := v.zeroExtend 80, left := 1 }]
    Runs (.leMull e d a b) s (leSlot e (out (en.g a * en.g b)) 1
        (fun en => en.putSr (aluSr { val := en.g a * en.g b } en.sr)) s)
      ∧ Runs (.leExtl e d n) s (leSlot e (out (lag.extractLsb' 0 32)) 1 id s)
      ∧ Runs (.leExth e d n) s (leSlot e (out (lag.extractLsb' 32 32)) 1 id s)
      ∧ Runs (.leExtg e d n) s (leSlot e (out ((lag.extractLsb' 64 16).signExtend 32)) 1 id s)
      ∧ Runs (.leSatx e d n sh) s (leSlot e (out (sat32 (lag.toInt / 2 ^ sh.toNat))) 1
          (fun en => en.putSr (srStick 8 (over32 (lag.toInt / 2 ^ sh.toNat)) en.sr)) s))

/-- The accumulator instructions: the exact result saturated at 80 bits, the saturation told in SAT0 or SAT1, no other
register changed. -/
def Obligations.LeAccumulatorsTakeExactResults : Prop :=
  ∀ (e : Fin 32) (n m : Bool) (a b c d : Fin 16) (sh : BitVec 6) (s : State), Plain s.engines[e] →
    let en := s.engines[e]
    let ac (n : Bool) : Int := (if n then en.ac1 else en.ac0).toInt
    let g (i : Fin 16) : Int := (en.g i).toInt
    let put (n : Bool) (x : Int) : State := leSlot e [] 1 (Engine.setAc n x) s
    Runs (.leMul e n a b) s (put n (g a * g b))
      ∧ Runs (.leMac e n a b) s (put n (ac n + g a * g b))
      ∧ Runs (.leMsu e n a b) s (put n (ac n - g a * g b))
      ∧ Runs (.leMacus e n a b) s (put n (ac n + (en.g a).toNat * g b))
      ∧ Runs (.leMac2 e a b c d) s (leSlot e [] 1 (fun en =>
          (en.setAc false (en.ac0.toInt + g a * g b)).setAc true (en.ac1.toInt + g c * g d)) s)
      ∧ Runs (.leAdda e n m) s (put n (ac n + ac m))
      ∧ Runs (.leAsra e n sh) s (put n (if sh.toInt < 0 then ac n * 2 ^ sh.toInt.natAbs else ac n / 2 ^ sh.toNat))
      ∧ Runs (.leClra e n) s (leSlot e [] 1 (fun en => en.putAc n 0) s)
      ∧ Runs (.leMova e n a b) s (leSlot e [] 1 (fun en => en.putAc n ((en.g a ++ en.g b).signExtend 80)) s)
      ∧ (2 ≤ sh.toNat → Runs (.leSata e n sh) s (leSlot e [] 1 (fun en =>
          (en.putAc n (BitVec.ofInt 80 (satBits sh.toNat (ac n)))).putSr
            (srStick (if n then 10 else 9) (satBits sh.toNat (ac n) != ac n) en.sr)) s))

/-- Loads and stores of data memory: a load lands after two slots, a store is made at once at the address the operands give,
and no other word of data memory changes; MLD, LDP and STP post-modify their pointers.
Port memory: a load lands after four slots, a store of the engine's own mailbox becomes visible after two; LDQ and STQ
move one aligned group of four words. -/
def Obligations.LeDataAndPortAccessesReachTheirAddress : Prop :=
  (∀ (e : Fin 32) (n : Bool) (a b c d : Fin 16) (pi pj : Fin 8) (imm : BitVec 18) (addr : BitVec 16) (s : State),
    Plain s.engines[e] →
    let en := s.engines[e]
    let x := (en.g a + imm.signExtend 32).toNat
    let word (i : Fin 16) (x : Nat) : Late :=
      { dest := .g i, shadow := en.inTick, val := (memWord en.data x).zeroExtend 80, left := 2 }
    let ac (h m l : Word) : Late := { dest := .ac n, shadow := false, val := h.extractLsb' 0 16 ++ m ++ l, left := 2 }
    let three (en : Engine) : List Word :=
      [(en.lag n).extractLsb' 0 32, (en.lag n).extractLsb' 32 32, ((en.lag n).extractLsb' 64 16).signExtend 32]
    let store (x : Nat) (v : Word) (f : Engine → Engine) : State :=
      leSlot e [] 1 (fun en => f { en with data := memPutWord en.data x v }) s
    (x < 0x4000 → Runs (.leLd e d a imm) s (leSlot e [word d x] 1 id s)
        ∧ Runs (.leSt e d a imm) s (store x (en.g d) id))
      ∧ (x + 1 < 0x4000 → d.val % 2 = 0 →
          Runs (.leLdd e d a imm) s (leSlot e [word d x, word (d + 1) (x + 1)] 1 id s)
          ∧ Runs (.leStd e d a imm) s (leSlot e [] 2 (fun en =>
              { en with data := memPutWords en.data x [en.g d, en.g (d + 1)] }) s))
      ∧ (addr.toNat < 0x4000 → Runs (.leLda e d addr) s (leSlot e [word d addr.toNat] 1 id s)
          ∧ Runs (.leSta e d addr) s (store addr.toNat (en.g d) id))
      ∧ (en.p[pi].toNat < 0x4000 → Runs (.leLdp e d pi) s (leSlot e [word d en.p[pi].toNat] 1 (Engine.modP pi) s)
          ∧ Runs (.leStp e d pi) s (store en.p[pi].toNat (en.g d) (Engine.modP pi)))
      ∧ (en.p[pi].toNat < 0x4000 → (en.modP pi).p[pj].toNat < 0x4000 →
          Runs (.leMld e n a b c pi d pj) s (leSlot e [word c en.p[pi].toNat, word d (en.modP pi).p[pj].toNat] 1
            (fun en => ((en.modP pi).modP pj).setAc n ((en.ac n).toInt + (en.g a).toInt * (en.g b).toInt)) s))
      ∧ (x + 2 < 0x4000 →
          Runs (.leStac e n a imm) s (leSlot e [] 3 (fun en => { en with data := memPutWords en.data x (three en) }) s)
          ∧ Runs (.leLdac e n a imm) s (leSlot e [ac (memWord en.data (x + 2)) (memWord en.data (x + 1)) (memWord en.data x)] 2 id s)))
  ∧ (∀ (e : Fin 32) (a d : Fin 16) (imm : BitVec 18) (s : State), Plain s.engines[e] →
    let en := s.engines[e]
    let x := (en.g a + imm.signExtend 32).toNat
    let word (i : Fin 16) (x : Nat) : Late :=
      { dest := .g i, shadow := en.inTick, val := (portGet s (engineCluster e) x).zeroExtend 80, left := 4 }
    let box (x : Nat) (v : Word) : Late :=
      { dest := .port (BitVec.ofNat 16 x), shadow := false, val := v.zeroExtend 80, left := 2 }
    (0x4000 ≤ x → x < 0x4400 → Runs (.leLd e d a imm) s (leSlot e [word d x] 1 id s))
      ∧ (0x4300 + 0x20 * (e.val % 8) ≤ x → x < 0x4320 + 0x20 * (e.val % 8) →
          Runs (.leSt e d a imm) s (leSlot e [box x (en.g d)] 1 id s))
      ∧ (0x4000 ≤ x → x < 0x4400 → x % 4 = 0 → d.val % 4 = 0 →
          Runs (.leLdq e d a imm) s (leSlot e [word d x, word (d + 1) (x + 1), word (d + 2) (x + 2), word (d + 3) (x + 3)] 1 id s))
      ∧ (0x4300 + 0x20 * (e.val % 8) ≤ x → x < 0x4320 + 0x20 * (e.val % 8) → x % 4 = 0 → d.val % 4 = 0 →
          Runs (.leStq e d a imm) s (leSlot e [box x (en.g d), box (x + 1) (en.g (d + 1)), box (x + 2) (en.g (d + 2)),
            box (x + 3) (en.g (d + 3))] 1 id s)))

/-- Control transfers take effect after two delay slots; RPT, TEXIT, WAIT, EVT and BKPT do what they say.
RPT n issues the next instruction n + 1 times: the program counter stays on it until the last.
What the rules call illegal, and what lies outside the address map, faults the engine with its cause: nothing of the
instruction takes effect. -/
def Obligations.LeControlInstructionsPrepareHoldAndFault : Prop :=
  (∀ (e : Fin 32) (a : Fin 16) (cond : BitVec 4) (target : BitVec 13) (n : Fin 65536) (imm : BitVec 16) (s : State),
    Plain s.engines[e] →
    let en := s.engines[e]
    let go (t : Transfer) (f : Engine → Engine) : State := leSlot e [] 1 (fun en => { f en with transfer := some (t, 2) }) s
    (cond ≠ 15 → Runs (.leBr e cond target) s (go (if condHolds cond en.sr then .jump target else .none_) id))
      ∧ Runs (.leCall e target) s (go (.jump target) (fun en => en.put 14 ((en.pc + 3).zeroExtend 32)))
      ∧ Runs (.leJmpr e a) s (go (.jump ((en.g a).truncate 13)) id)
      ∧ Runs (.leDbnz e a target) s (go (if en.g a - 1 = 0 then .none_ else .jump target) (fun en => en.put a (en.g a - 1)))
      ∧ Runs (.leRpt e n) s (leSlot e [] 1 (fun en => { en with rep := n.val + 1 }) s)
      ∧ (en.inTick = true → Runs (.leTexit e) s (go .exit_ id))
      ∧ (en.inTick = false → Runs (.leWait e) s (modEngine e (fun en => { en with late := [] })
          (leSlot e [] 1 (fun en => { en with waiting := true }) s)))
      ∧ (en.bkptEn = false → Runs (.leBkpt e) s (leSlot e [] 1 id s))
      ∧ (en.bkptEn = true → Runs (.leBkpt e) s (debugHalt e en.pc (leSlot e [] 1 id s)))
      ∧ Runs (.leEvt e a imm) s (leSlot e [] 1 (fun en => { en with regs := { en.regs with
            userEventCount := satInc en.regs.userEventCount
            cntOvf := en.regs.cntOvf || satFull en.regs.userEventCount } })
          (note Ev.leUserEvent (srcEngine e) (imm.zeroExtend 32) (en.g a) 0 s)))
  ∧ (∀ (e : Fin 32) (s t : State), s.engines[e].issues = true → s.engines[e].transfer = none → s.engines[e].late = [] →
    0 < s.engines[e].rep → Runs (.leNop e) s t →
    t.engines[e].rep = s.engines[e].rep - 1
      ∧ t.engines[e].pc = (if s.engines[e].rep = 1 then s.engines[e].pc + 1 else s.engines[e].pc))
  ∧ (∀ (e : Fin 32) (d a : Fin 16) (n : Bool) (target : BitVec 13) (imm : BitVec 18) (addr : BitVec 16) (w : BitVec 6) (s : State),
    s.engines[e].issues = true → s.engines[e].rep = 0 →
    let en := s.engines[e]
    (en.transfer = none → Runs (.leBr e 15 target) s (leFault e 1 en.pc 0 s)
        ∧ (d.val % 2 = 1 → Runs (.leLdd e d a imm) s (leFault e 1 en.pc 0 s)
            ∧ Runs (.leStd e d a imm) s (leFault e 1 en.pc 0 s))
        ∧ (d.val % 4 ≠ 0 → Runs (.leLdq e d a imm) s (leFault e 1 en.pc 0 s)
            ∧ Runs (.leStq e d a imm) s (leFault e 1 en.pc 0 s))
        ∧ (w.toNat < 2 → Runs (.leSata e n w) s (leFault e 1 en.pc 0 s))
        ∧ (en.inTick = false → Runs (.leTexit e) s (leFault e 1 en.pc 0 s))
        ∧ (0x4400 ≤ addr.toNat → addr.toNat < 0x6000 ∨ 0x6007 < addr.toNat →
            Runs (.leLda e d addr) s (leFault e 3 en.pc (addr.zeroExtend 32) s)
            ∧ Runs (.leSta e d addr) s (leFault e 3 en.pc (addr.zeroExtend 32) s))
        ∧ (0x6000 ≤ addr.toNat → addr.toNat ≤ 0x6007 → Runs (.leSta e d addr) s (leFault e 4 en.pc (addr.zeroExtend 32) s)))
      ∧ (en.transfer.isSome = true → Runs (.leCall e target) s (leFault e 2 en.pc 0 s)
          ∧ Runs (.leJmpr e a) s (leFault e 2 en.pc 0 s) ∧ Runs (.leTexit e) s (leFault e 2 en.pc 0 s)))

/-- A branch that holds goes to its target after exactly two more instructions; one that does not goes on. -/
def Obligations.LeBranchHasTwoDelaySlots : Prop :=
  ∀ (e : Fin 32) (cond : BitVec 4) (target : BitVec 13) (s t u v : State), Plain s.engines[e] → cond ≠ 15 →
    Runs (.leBr e cond target) s t → Runs (.leNop e) t u → Runs (.leNop e) u v →
    t.engines[e].pc = s.engines[e].pc + 1 ∧ u.engines[e].pc = s.engines[e].pc + 2
      ∧ v.engines[e].pc = (if condHolds cond s.engines[e].sr then target else s.engines[e].pc + 3)
      ∧ v.engines[e].transfer = none ∧ v.engines[e].bank = s.engines[e].bank

/-! ### Time, events and staging -/

/-- The pour point: DT stands on the pour point itself, a whole number of L and no fraction; it is the present one where DT
stands on it and its work is not done, else the next; the work of the pour follows, on the slots as their predictions close.
Before a domain start, and while the clocks stand, there is none. -/
def Obligations.PourPointStandsOnAMultipleOfL : Prop :=
  ∀ s : State,
    (s.stage.regs.pourLen ≠ 0 → clocksRun s = true →
      let n := comingPour s
      let u := closeSlots s
      let t := pourWork (fun i => u.slots[i].predicted) (fun i => slotSteep u.slots[i]) { u with dt := pourAt u n }
      Runs .pourPoint s t ∧ t.stage.regs.pourLen = s.stage.regs.pourLen
        ∧ (n = (pourNum s).toNat ∨ n = (pourNum s).toNat + 1)
        ∧ t.dt = BitVec.ofNat 96 (n * s.stage.regs.pourLen.toNat * 2 ^ 32)
        ∧ fracOf t.dt = 0
        ∧ (n * s.stage.regs.pourLen.toNat < 2 ^ 64 → pourNum t = BitVec.ofNat 64 n))
      ∧ (s.stage.regs.pourLen = 0 ∨ clocksRun s = false → Runs .pourPoint s s)
      ∧ (s.stage.regs.pourLen ≠ 0 → (pourNum s).toNat = (nsOf s.dt).toNat / s.stage.regs.pourLen.toNat)

/-- Slot events: a value still missing at its deadline makes the pour late; N_late late pours in a row lose the master; the
end of T_ride ends the slot and raises its event to the followers; a slot with its run complete is armed; a result of a
re-steep in time is poured.
The staging cutoff takes the host's inputs for the coming pour and re-steeps the axes whose settings it stages; a PWM
update instant moves the tile's waiting settings in, and at a valley on the tile's carrier its position-loop tick makes the
settings that wait for it.
A master entry for the pour to come or near it, valid and with a good CRC, is taken for its pour, once only: a later copy
of the same entry changes nothing.  Any other counts as not arrived. -/
def Obligations.SlotAndCutoffEventsFollowTheirState : Prop :=
  (∀ (i : Fin 32) (s : State),
    let x := s.slots[i]
    (slotMissing x = true → deadlineOf s ((pourNum s).toNat + 1) ≤ s.dt.toInt →
        Runs (.confirmationDeadline i) s (slotLate i s))
      ∧ (slotMissing x = false ∨ s.dt.toInt < deadlineOf s ((pourNum s).toNat + 1) → Runs (.confirmationDeadline i) s s)
      ∧ (x.regs.slotState = 3 → x.regs.nLate.toNat ≤ x.regs.lateRun.toNat →
          x.steeping = false ∨ x.arrived.isSome = true →
          Runs (.masterLost i) s (note Ev.masterLost (srcSlot i) 0 0 0 (modSlot i (fun y => { y with
            lostAt := pourAt s ((pourNum s).toNat + if y.outcome.isSome then 1 else 0)
            regs := { y.regs with slotState := 4, lostSeen := true } }) s)))
      ∧ (x.regs.slotState = 3 → x.regs.nLate.toNat ≤ x.regs.lateRun.toNat → ∃ t, Runs (.masterLost i) s t
          ∧ t.slots[i].regs.slotState = 4 ∧ t.slots[i].regs.lostSeen = true ∧ t.clock = s.clock)
      ∧ (x.regs.slotState = 4 → hasPassed x.lostAt (x.regs.tRide.toNat * 1000000) s = true → Runs (.rideThroughEnd i) s
          ((slotFollowers s i).foldl (fun s a => modAxis a (fun ax =>
              { ax with slotStop := ax.slotStop || (ax.enabled && ax.stopping) }) s)
            (raise Ev.rideThroughEnd (srcSlot i) x.clsRide false 0 0 0 (slotFollowers s i)
              (modSlotRegs i (fun r => { r with slotState := 5 }) s))))
      ∧ (hasPassed x.lostAt (x.regs.tRide.toNat * 1000000) s = false → Runs (.rideThroughEnd i) s s)
      ∧ (x.regs.slotState = 1 → x.regs.order.toNat < x.armRun → ∃ t, Runs (.slotArmed i) s t
          ∧ t.slots[i].regs.slotState = 2 ∧ t.slots[i].regs.confirmed = 0 ∧ t.slots[i].regs.corrected = 0
          ∧ t.slots[i].regs.armedPour = pourNum s
          ∧ t.axes[slotAxis i].source = 4 ∧ (∀ j : Fin 32, j ≠ i → t.slots[j] = s.slots[j])
          ∧ t.events.fabric = s.events.fabric ++ [{ code := Ev.slotArmed, src := srcSlot i, t := s.dt }])
      ∧ (∀ t0, x.resteep = some t0 → s.dt.toNat ≤ t0.toNat + 3000 * 2 ^ 32 →
          s.dt.toNat + 200 * 2 ^ 32 ≤ (pourAt s ((pourNum s).toNat + 1)).toNat →
          Runs (.resteepEnd i) s (lookAhead (modSlot i (fun y => { y with resteep := none, outcome := some 2 }) s)))
      ∧ (∀ t0, x.resteep = some t0 → t0.toNat + 3000 * 2 ^ 32 < s.dt.toNat → Runs (.resteepEnd i) s (slotOverrun i s)))
  ∧ (∀ (s : State) (t : Fin 16),
    (s.stage.regs.pourLen ≠ 0 → Runs .stagingCutoff s (resteepSettings (takeInputs s)))
      ∧ Runs (.pwmUpdateInstant t true) s (pwmUpdate t true s)
      ∧ (let u := pwmUpdate t false s
        (onCarrier u t false = true → u.tiles[t].regs.tileState ≠ 2 ∨ tickPeriod u t = true →
            Runs (.pwmUpdateInstant t false) s (flushTick t u))
        ∧ (onCarrier u t false = false ∨ (u.tiles[t].regs.tileState = 2 ∧ tickPeriod u t = false) →
            Runs (.pwmUpdateInstant t false) s u)))
  ∧ (∀ (i : Fin 32) (m : MasterSample) (s : State),
    let diff := (m.pour - (pourNum s + 1 - s.stage.regs.domainD.zeroExtend 64).truncate 16).toInt
    let k := entryKey s i m
    (s.link.taken.contains k = false → s.stage.regs.pourLen ≠ 0 → s.slots[i].regs.slotState ≠ 0 → m.valid = true →
        m.crcOk = true → -3 ≤ diff → diff ≤ 16 →
        Runs (.masterEntryArrival i m) s
          (takeEntryAt i m diff (modLink (fun l => { l with taken := k :: keepTaken m.pour l.taken }) s)))
      ∧ (m.valid = false ∨ m.crcOk = false ∨ s.link.taken.contains k = true → Runs (.masterEntryArrival i m) s s)
      ∧ (s.link.taken.contains k = false → m.valid = true → m.crcOk = true → diff < -3 ∨ 16 < diff →
        Runs (.masterEntryArrival i m) s (modLink (fun l => { l with taken := k :: keepTaken m.pour l.taken }) s)))

/-- A compare unit fires at the first edge at which its target is not ahead; a PPS output goes active at its next leading edge
and inactive at its trailing edge.
The time servo: 64 good measurements lock it, 4 bad ones unlock it, 4 missing ones bring the holdover, whose expiry after
T_hold is told once; the grandmaster's PTP input is lost in the same way, and a message of its domain sets its rate. -/
def Obligations.TimeEventsFireAndChangeTheServo : Prop :=
  (∀ (u : Fin 16) (n : Fin 8) (s : State),
    (s.compares[u].regs.cmpState ≠ 0 → compareDiff s.compares[u].regs.target (nsOf s.dt) ≤ 0 →
        Runs (.compareFire u) s (fireCompare u s))
      ∧ (0 < compareDiff s.compares[u].regs.target (nsOf s.dt) → Runs (.compareFire u) s s)
      ∧ (s.pps[n].active = true → edgeDue s.pps[n].trailing s = true → ∃ t, Runs (.ppsEdge n) s t ∧ t = ppsTrailing n s
          ∧ t.pps[n].active = false ∧ { t with pps := s.pps, time := { t.time with regs := { t.time.regs with cntOvf := s.time.regs.cntOvf } } } = s)
      ∧ (s.pps[n].active = false → s.pps[n].regs.ppsState ≠ 0 → edgeDue s.pps[n].next s = true →
          ∃ t, Runs (.ppsEdge n) s t ∧ t = ppsLeading n s
            ∧ t.pps[n].active = (s.pps[n].runUnlocked || decide (2 ≤ s.time.regs.state.toNat))
            ∧ t.pps[n].next = s.pps[n].next + s.pps[n].period ∧ { t with pps := s.pps, time := { t.time with regs := { t.time.regs with cntOvf := s.time.regs.cntOvf } } } = s))
  ∧ (∀ (eth : Fin 2) (rate offset : BitVec 32) (tai : BitVec 64) (locked : Bool) (s : State),
    let r := s.time.regs
    (r.state = 1 → 64 ≤ s.time.lockRun → ∃ t, Runs .timeLocked s t ∧ t.time.regs.state = 2 ∧ t.time.faulted = false
        ∧ t.time.unlocked = false ∧ t.clock = s.clock ∧ t.tiles = s.tiles ∧ t.pps = s.pps
        ∧ t.events.fabric = s.events.fabric ++ [{ code := Ev.timeLocked, src := srcServo, t := s.dt }])
      ∧ (r.state = 2 → 4 ≤ s.time.unlockRun → Runs .timeUnlocked s
          (raise Ev.timeUnlocked srcServo s.time.clsUnlocked true 0 0 0 (syncAxes s) (enterTimeState 1 (modTime (fun t => { t with
            lockRun := 0, unlocked := true
            regs := { t.regs with
              unlockSeen := true, unlockCount := satInc r.unlockCount
              cntOvf := r.cntOvf || satFull r.unlockCount } }) s))))
      ∧ (r.state = 2 → 4 ≤ s.time.missRun → ∃ t, Runs .holdoverEntry s t ∧ t = enterHoldover s
          ∧ t.time.regs.state = 3 ∧ t.time.holdoverAt = s.dt ∧ t.time.regs.rateAdj = r.rateAdj
          ∧ t.time.regs.holdoverCount = satInc r.holdoverCount)
      ∧ (r.state = 3 → s.time.holdoverDone = false →
          s.time.holdoverAt.toNat + s.time.tHoldMs.toNat * 1000000 * 2 ^ 32 < s.dt.toNat →
          Runs .holdoverExpired s (raise Ev.holdoverExpired srcServo
            s.time.clsHoldover true 0 0 0 (syncAxes s) (modTime (fun t => { t with holdoverDone := true }) s)))
      ∧ (s.dt.toNat ≤ s.time.holdoverAt.toNat + s.time.tHoldMs.toNat * 1000000 * 2 ^ 32 → Runs .holdoverExpired s s)
      ∧ (r.roleGm = true → 2 ≤ s.time.source.toNat → s.time.ptpLost = false →
          Runs .ptpLost s (enterHoldover (note Ev.ptpLost srcServo 0 0 0 (modTime (fun t =>
            { t with ptpLost := true, regs := { t.regs with ptpLostSeen := true, ptpLocked := false } }) s))))
      ∧ (∀ domain : BitVec 8, r.roleGm = true → s.time.source.toNat = 2 + eth.val →
          s.time.ptp[eth].domain = domain.setWidth 32 →
          Runs (.ptpMessageReceive eth domain rate offset tai locked) s (ptpMessage rate offset tai locked s)))

/-- The event fabric.  Where records travel, one of them, the oldest of its source, arrives: it leaves the fabric, meets the
triggers of the traces and recorder units, and is held, or committed LATE if its hold is over.  Where the hold of a record is
over, one such enters the log with the next index.
A record that another module forwards is offered to the sessions that subscribe to forwarded records of its class and
group, and to no other; a push carries the records that wait on its session, in their order.
The log ring keeps at most 4,096 records: a new one is the newest, and where the ring is full the oldest is overwritten
and counted. -/
def Obligations.EventRecordsTravelToTheLog : Prop :=
  (∀ (s : State),
    (s.events.fabric ≠ [] → ∃ (e : EventRec) (t u : State), e ∈ s.events.fabric
        ∧ s.events.fabric.find? (fun x => x.src = e.src) = some e
        ∧ u = guEvent e (traceEvent e { s with freeCtr := s.freeCtr + 1
                                               events := { s.events with fabric := s.events.fabric.erase e } })
        ∧ Runs .eventFabricArrival s t
        ∧ (holdOver u e = true → t = commitEvent { e with late := true } u)
        ∧ (holdOver u e = false → t = { u with events := { u.events with held := u.events.held ++ [e] } }))
      ∧ (s.events.held.any (holdOver s) = true → ∃ (e : EventRec) (t : State), e ∈ s.events.held ∧ holdOver s e = true
        ∧ (∀ f ∈ s.events.held, holdOver s f = true → logsBefore f e = false)
        ∧ Runs .eventHoldExpiry s t
        ∧ t.events.log = (({ ev := e, idx := s.events.nextIdx } : LogRec) :: s.events.log).take 4096
        ∧ t.events.nextIdx = s.events.nextIdx + 1 ∧ t.events.empty = false
        ∧ t.events.held = s.events.held.erase e
        ∧ { t with events := s.events, ocp := s.ocp, link := { t.link with outbox := s.link.outbox } } = s))
  ∧ (∀ (i : Fin 80) (id : BitVec 64) (rec : List Word) (s : State),
    Runs (.forwardedEventReceive id rec) s (offerPush (fun x => (x.sub.map (·.forwarded)).getD false
          && subTakes x.sub ((rec.getD 3 0).extractLsb' 10 2).toNat ((rec.getD 0 0).truncate 16)) (forwardedWords id rec) s)
      ∧ (∀ n, n = pushFits 120 1019 s.ocp.sessions[i].pushQ → n ≠ 0 → ∃ t, Runs (.eventPush i) s t
          ∧ t = sendPush i (pushWords s.ocp.sessions[i].pushSeq (nsLo s.dt) (s.ocp.sessions[i].pushQ.take n))
            (modSession i (fun x => { x with pushQ := x.pushQ.drop n, pushSeq := x.pushSeq + 1 }) s)
          ∧ t.ocp.sessions[i].pushQ = s.ocp.sessions[i].pushQ.drop n
          ∧ t.ocp.sessions[i].pushSeq = s.ocp.sessions[i].pushSeq + 1))
  ∧ (∀ (e : EventRec) (s : State), s.events.log.length ≤ 4096 →
    (commitEvent e s).events.log.length ≤ 4096)

/-! ### Transports -/

/-- PCIe: the request doorbell takes the packets of the new ring slots, each slot once, all of a ring that is filled whole; the
two consumer doorbells free what was consumed, the reply ring for the replies that wait; a function reset or the loss of the
link ends the session.
A ring index that moves on by the whole size has moved by the whole ring, by less it has moved by the difference. -/
def Obligations.PcieEventsServeTheRings : Prop :=
  (∀ (n : BitVec 16) (slots : List (List Word)) (s : State), viaPcie s = true →
    (s.ocp.ident.ringsEnable = true → s.ocp.ident.reqRingSize ≠ 0 →
        Runs (.reqDoorbell n slots) s (((List.range (ringMoved s.ocp.ident.reqRingSize.toNat s.ocp.reqProd n)).map
          fun k => slots.getD k []).foldl (fun s ws => receiveWords 0 (slotWords ws) s)
            { s with ocp := { s.ocp with reqProd := n } }))
      ∧ (s.ocp.ident.ringsEnable = false → Runs (.reqDoorbell n slots) s s)
      ∧ (s.ocp.ident.rspRingSize ≠ 0 → Runs (.rspDoorbell n) s (drainReplies s.ocp.sessions[(0 : Fin 80)].out.length
          { s with ocp := { s.ocp with
            rspUsed := s.ocp.rspUsed - ringMoved s.ocp.ident.rspRingSize.toNat s.ocp.rspCons n, rspCons := n } }))
      ∧ (s.ocp.ident.evtRingSize ≠ 0 → Runs (.evtDoorbell n) s { s with ocp := { s.ocp with
            evtUsed := s.ocp.evtUsed - ringMoved s.ocp.ident.evtRingSize.toNat s.ocp.evtCons n, evtCons := n } })
      ∧ Runs .pcieFunctionReset s (endSession false 0 s)
      ∧ Runs .pcieLinkDown s (endSession false 0 s))
  ∧ (∀ (size : Nat) (old : BitVec 16) (k : Nat), ringSizeOk size = true → k ≤ size →
    ringMoved size old (old + BitVec.ofNat 16 k) = k)

/-- SPI: a packet frame reaches session 1; a reply read takes the oldest waiting reply, and gives its credit back where it is
the reply of a packet; it reads 0 with none; a status read reads the status word; window frames reach the window word by word. -/
def Obligations.SpiFramesReachTheirPlace : Prop :=
  ∀ (addr : Word) (n : Nat) (ws : List Word) (s : State),
    (viaSpi s = true → Runs (.spiPacketWrite ws) s (receiveWords 1 ws s)
        ∧ Runs .spiStatusRead s { s with ocp := { s.ocp with readData := [spiStatus s] } }
        ∧ (s.ocp.sessions[(1 : Fin 80)].out = [] → Runs .spiReplyRead s { s with ocp := { s.ocp with readData := [0] } })
        ∧ (∀ k v rest, s.ocp.sessions[(1 : Fin 80)].out = (k, v) :: rest → ∃ t, Runs .spiReplyRead s t
            ∧ t.ocp.readData = v ∧ t.ocp.sessions[(1 : Fin 80)].out = rest ∧ t.ocp.sent = (1, v) :: s.ocp.sent
            ∧ (k ≠ .reply → t.ocp.sessions[(1 : Fin 80)].regs = s.ocp.sessions[(1 : Fin 80)].regs)
            ∧ (k = .reply → s.ocp.sessions[(1 : Fin 80)].regs.creditsInUse ≠ 0 →
                t.ocp.sessions[(1 : Fin 80)].regs.creditsInUse = s.ocp.sessions[(1 : Fin 80)].regs.creditsInUse - 1)
            ∧ { t with ocp := s.ocp } = s))
      ∧ (windowOpen s = true → s.power.regs.hostsel = true →
          Runs (.spiWindowRead addr n) s { (spiGet n addr s).2.2 with
            ocp := { (spiGet n addr s).2.2.ocp with readData := (spiGet n addr s).1, spiErr := (spiGet n addr s).2.1 } }
          ∧ Runs (.spiWindowWrite addr ws) s { (spiPut addr ws s).2 with
            ocp := { (spiPut addr ws s).2.ocp with spiErr := (spiPut addr ws s).1 } })

/-- The register window.  A read of an aligned word outside the receive windows answers the word at its address, or the word
captured with it, and an aligned word written changes what the address holds, except W1C bits whose condition stands; any
other access is an Unsupported Request, a read of a block in reset a Completer Abort and a write of one is discarded; while the
window is closed neither does anything.
A wide value is read whole: reading its least significant word captures the others, and every read of one of these that
follows answers the captured word, whatever has happened to the value since, until the least significant word is read again. -/
def Obligations.WindowAccessesReadAndWriteTheirAddress : Prop :=
  (∀ (addr v : Word) (bytes : Nat) (s : State),
    let a := addr.toNat
    (windowOpen s = true → a % 4 = 0 → inResetBlock s a = false →
        (a < 0x1500000 ∨ 0x1540000 ≤ a → ∃ t, Runs (.wideReadCapture addr 4) s t
          ∧ t.ocp.readData = [((s.ocp.wide.find? fun x => x.1 = a).map (·.2)).getD (windowWord (setAccessEnd .success s) a)]
          ∧ (s.power.regs.hostsel = false → t.ocp.pcieEnd = .success)
          ∧ { t with ocp := s.ocp } = s)
        ∧ Runs (.registerWrite addr v 4) s (windowPut a (v &&& ~~~standing s a) (setAccessEnd .success s)))
      ∧ (windowOpen s = true → a % 4 = 0 → inResetBlock s a = true →
        (∃ t, Runs (.wideReadCapture addr 4) s t ∧ t.ocp.readData = [0xFFFFFFFF]
          ∧ (s.power.regs.hostsel = false → t.ocp.pcieEnd = .completerAbort) ∧ { t with ocp := s.ocp } = s)
        ∧ Runs (.registerWrite addr v 4) s (setAccessEnd .success s))
      ∧ (windowOpen s = true → a % 4 ≠ 0 ∨ bytes ≠ 4 →
        (∃ t, Runs (.wideReadCapture addr bytes) s t ∧ t.ocp.readData = [0xFFFFFFFF]
          ∧ (s.power.regs.hostsel = false → t.ocp.pcieEnd = .unsupportedRequest) ∧ { t with ocp := s.ocp } = s)
        ∧ Runs (.registerWrite addr v bytes) s (setAccessEnd .unsupportedRequest s))
      ∧ (windowOpen s = false → Runs (.wideReadCapture addr bytes) s s ∧ Runs (.registerWrite addr v bytes) s s))
  ∧ (∀ (a b : Nat) (s t : State), b ∈ wideWords a → (s.ocp.wide.find? fun x => x.1 = a) = none →
    t.ocp.wide = (readCapture a s).2.ocp.wide →
    (readCapture a s).1 = windowWord s a ∧ readCapture b t = (windowWord s b, t))

/-- UDP and tunnel packets reach the session of their source, which a new source opens; an idle session ends; a chained packet
whose predecessor does not come ends with CHAIN_BROKEN.
A session that ends loses its transaction, its subscription and its waiting replies, and its credits are free; what it has
accepted and not executed it still owes, as an orphan; every other session is untouched. -/
def Obligations.SessionsAreFoundAndEnded : Prop :=
  (∀ (eth : Fin 2) (addr : Word) (port : BitVec 16) (bytes : Nat) (ws : List Word) (origin : BitVec 64) (i : Fin 80) (seq : Word)
    (h : HistEntry) (p : Packet) (s : State), served s = true →
    (sourceAllowed s.ocp.net[eth] addr = true →
        let known := sessionFor 2 10 (fun x => x.peerAddr = addr && x.peerPort = port) s
        let via (x : State) : State := modSession i (fun y => { y with peerEth := BitVec.ofNat 1 eth.val }) x
        let opened : State := modSession i (fun x => { x with
          inUse := true, peerAddr := addr, peerPort := port, lastSeen := s.dt
          hist := x.hist.filter (·.orphan), pushSeq := 0 }) s
        (bytes = 4 * ws.length → known = some (i, true) →
            Runs (.udpDatagramReceive eth addr port bytes ws) s (receiveWords i ws (via s)))
        ∧ (bytes = 4 * ws.length → known = some (i, false) →
            Runs (.udpDatagramReceive eth addr port bytes ws) s (receiveWords i ws (via opened)))
        ∧ (bytes ≠ 4 * ws.length → known = some (i, true) →
            Runs (.udpDatagramReceive eth addr port bytes ws) s (discardPacket i .discard (via s))))
      ∧ (sourceAllowed s.ocp.net[eth] addr = false → Runs (.udpDatagramReceive eth addr port bytes ws) s s)
      ∧ (sessionFor 16 80 (fun x => x.origin = origin) s = some (i, true) →
          Runs (.tunnelPacketReceive origin ws) s (receiveWords i ws s))
      ∧ (sessionFor 16 80 (fun x => x.origin = origin) s = none →
          Runs (.tunnelPacketReceive origin ws) s (discardPacket 10 .discard s))
      ∧ (2 ≤ i.val → s.ocp.sessions[i].inUse = true → hasPassed s.ocp.sessions[i].lastSeen 10000000000 s = true →
          Runs (.sessionIdleTimeout i) s (releaseSession i s))
      ∧ ((s.ocp.sessions[i].hist.filter fun q => q.seq = seq && q.chained && q.reply.isNone).getLast? = some h → h.p = some p →
          predecessor s.ocp.sessions[i].hist h.orphan seq = none → hasPassed h.acceptedAt 200000 s = true →
          Runs (.chainTimeout i seq) s (serveBroken (bareDesc h.op) p s)))
  ∧ (∀ (drop : Bool) (i : Fin 80) (s : State),
    let t := endSession drop i s
    t.ocp.sessions[i].txn = none ∧ t.ocp.sessions[i].sub = none ∧ t.ocp.sessions[i].out = []
      ∧ t.ocp.sessions[i].pushQ = [] ∧ t.ocp.sessions[i].regs.creditsInUse = 0
      ∧ (∀ h ∈ t.ocp.sessions[i].hist, h.orphan = true)
      ∧ (∀ h ∈ s.ocp.sessions[i].hist, h.reply = none → h.chained = false → { h with orphan := true } ∈ t.ocp.sessions[i].hist)
      ∧ (∀ j : Fin 80, j ≠ i → t.ocp.sessions[j] = s.ocp.sessions[j])
      ∧ { t with ocp := s.ocp, events := s.events } = s)

/-- TUNNEL, SESSION_RESET and HIBERNATE_REQ, whose replies have a time of their own, are served by their own rule once their
packet is accepted and clean and its turn has come.
Operations that end: the inner reply of a TUNNEL or its time-out after 100 ms answers it, an activation names its bank only
with a good signature and CRC, a configuration is applied whole or not at all, and a transaction idle for 1 s is aborted. -/
def Obligations.OperationsWithTheirOwnReplyTimeEnd : Prop :=
  (∀ (p : Packet) (s : State), Fresh p s → p.chained = false →
    (Turn 0x0120 p (accepted dTunnel p s) → Clean dTunnel p (accepted dTunnel p s) →
        Runs (.tunnel p) s (sendTunnel p (accepted dTunnel p s)))
      ∧ (Turn 0x0122 p (accepted dSessionReset p s) → Clean dSessionReset p (accepted dSessionReset p s) →
          Runs (.sessionReset p) s (serveSessionReset p (accepted dSessionReset p s)))
      ∧ (Turn 0x0F04 p (accepted dHibernate p s) → Clean dHibernate p (accepted dHibernate p s) →
          acceptHibernate p (accepted dHibernate p s) = Status.ok →
          Runs (.hibernate p) s (startSave (modPower (fun x => { x with hibernateP := x.hibernateP ++ [p] })
            (beginPacket 0x0F04 p (accepted dHibernate p s))))))
  ∧ (∀ (i : Fin 80) (seq : Word) (ws : List Word) (w : TunnelWait) (o : PendingOp) (x : Txn) (img : Option ConfigImage)
    (sigOk : Bool) (s : State),
    ((s.ocp.tunnels.find? fun w => w.session = i && w.seq = seq) = some w →
        Runs (.tunnelInnerReply i seq ws) s (endTunnel w Status.ok ws s)
        ∧ (hasPassed w.since 100000000 s = true → Runs (.tunnelTimeout i seq) s (endTunnel w Status.tunnelUnreachable [] s))
        ∧ (hasPassed w.since 100000000 s = false → Runs (.tunnelTimeout i seq) s s))
      ∧ ((s.ocp.tunnels.all fun w => !(w.session = i && w.seq = seq)) = true →
          Runs (.tunnelInnerReply i seq ws) s (note Ev.replyUndelivered srcMgmt 1 (natWord i.val) 0
            (countSession .undelivered 1 i s)))
      ∧ ((s.ocp.ops.find? fun o => o.op = 0x0115) = some o →
          ((sigOk = true ∧ ((s.ocp.firmware[Fin.ofNat 2 o.target.toNat]).all fun l => loadCrcOk l) = true →
              ∃ t, Runs (.firmwareActivateComplete sigOk) s t
                ∧ t.ocp.activeBank = some (decide (o.target.toNat % 2 = 1)))
          ∧ (sigOk = false → ∃ t, Runs (.firmwareActivateComplete sigOk) s t ∧ t.ocp.activeBank = s.ocp.activeBank)))
      ∧ ((s.ocp.ops.any fun o => o.op = 0x0112) = true →
          (∀ c j, commitImage img s = some (c, j) → strayLoop j = none →
              Runs (.configCommitComplete img) s (endOps (fun o => o.op = 0x0112) Status.ok (applyImage c j s)))
          ∧ (∀ c j e t, commitImage img s = some (c, j) → strayLoop j = some (e, t) →
              Runs (.configCommitComplete img) s (endOps (fun o => o.op = 0x0112) Status.leImageCluster
                (modEngine e (fun en => { en with regs := { en.regs with imageCheck := BitVec.ofNat 16 t.val } }) s)))
          ∧ (commitImage img s = none →
              Runs (.configCommitComplete img) s (endOps (fun o => o.op = 0x0112) Status.imageInvalid s)))
      ∧ (s.ocp.sessions[i].txn = some x → hasPassed x.last 1000000000 s = true →
          Runs (.stageTimeout i) s (note Ev.stageTimeout srcMgmt (natWord i.val) (natWord x.count) 0
            (modSession i (fun x => { x with txn := none }) s))))

/-! ### The link, the ring and the segment -/

/-- A port goes down when DET goes high or its signal or its lock is lost, steps from DOWN to SYNC as a signal appears and from
there to CAPABILITY once the lock has held for 100 us, sends its own capability words there, records the neighbour's, and stays
below MEASURE where they do not fit.
The measurement of a link's delay: a request opens a measurement, the neighbour's request is answered from the instant of
its arrival, a response gives half of round trip less turnaround plus the asymmetry, rounded either way, and the mean of
sixteen of them is the delay, with which the port comes up. -/
def Obligations.PortComesUpAndMeasuresItsDelay : Prop :=
  (∀ (port : Fin 4) (det los lock sig : Bool) (w0 w1 w2 w3 w4 w5 : Word) (s : State),
    let x := s.link.ports[port]
    let seen := modPort port (fun y => { y with
      locked := lock, signal := sig, lockAt := if lock && !x.locked then s.dt else y.lockAt
      regs := { y.regs with det := det, los := los } }) s
    let met := modPortRegs port (fun r => { r with nbrId := w5 ++ w4, nbrCap := #v[w0, w1, w2, w3] }) s
    (det = true ∨ los = true ∨ (x.regs.medium = false ∧ sig = false) ∨ (x.locked = true ∧ lock = false) →
        Runs (.portSignalChange port det los lock sig) s (portDown port seen))
      ∧ (2 ≤ x.regs.portState.toNat → lock = false →
          Runs (.portSignalChange port det los lock sig) s (portDown port seen))
      ∧ (x.regs.portState = 0 → x.regs.medium = true ∨ sig = true → x.locked = false ∨ lock = true →
          ∃ t, Runs (.portSignalChange port false false lock sig) s t
          ∧ t.link.ports[port].regs.portState = 1 ∧ t.link.ports[port].locked = lock
          ∧ (∀ q : Fin 4, q ≠ port → t.link.ports[q] = s.link.ports[q])
          ∧ { t with link := s.link } = s)
      ∧ (x.regs.portState = 1 → x.locked = true → hasPassed x.lockAt 100000 s = true → ∃ t, Runs (.portSyncLock port) s t
          ∧ t.link.ports[port].regs.portState = 2 ∧ (∀ q : Fin 4, q ≠ port → t.link.ports[q] = s.link.ports[q])
          ∧ (∃ ws, (transmits s port = true → t.link.sent = [.capability port ws])
              ∧ (transmits s port = false → t.link.sent = []))
          ∧ { t with link := s.link } = s)
      ∧ (hasPassed x.lockAt 100000 s = false ∨ x.locked = false → Runs (.portSyncLock port) s s)
      ∧ (x.regs.portState = 2 → w0.extractLsb' 0 4 = 1 →
          w1.extractLsb' 16 16 = s.ocp.ident.fwLevel.extractLsb' 16 16 →
          ∃ t, Runs (.capabilityReceive port w0 w1 w2 w3 w4 w5) s t
            ∧ t.link.ports[port].regs.portState = 3 ∧ t.link.ports[port].regs.nbrId = w5 ++ w4
            ∧ t.link.ports[port].regs.nbrCap = #v[w0, w1, w2, w3] ∧ t.link.ports[port].delays = [])
      ∧ (x.regs.portState = 2 → x.capMismatch = false →
          w0.extractLsb' 0 4 ≠ 1 ∨ w1.extractLsb' 16 16 ≠ s.ocp.ident.fwLevel.extractLsb' 16 16 →
          Runs (.capabilityReceive port w0 w1 w2 w3 w4 w5) s (note Ev.capMismatch (srcPort port) 0 0 0
            (modPort port (fun x => { x with capMismatch := true }) met)))
      ∧ (x.regs.portState ≠ 2 → Runs (.capabilityReceive port w0 w1 w2 w3 w4 w5) s s))
  ∧ (∀ (port : Fin 4) (trip turn : Nat) (s : State),
    let x := s.link.ports[port]
    let exact : Int := trip - turn + 2 * x.asym.toInt
    let met (d : Nat) := drawn (modPort port (fun x => { x with
      delayReq := false, delays := (d :: x.delays).take 16, regs := { x.regs with roundTrip := natWord trip } }) s)
    let sum (d : Nat) := ((d :: x.delays).take 16).foldl (· + ·) 0
    (3 ≤ x.regs.portState.toNat →
        (transmits s port = true → Runs (.delayRequest port) s (modPort port (fun x => { x with delayReq := true }) s))
        ∧ Runs (.delayRequestReceive port) s (modPort port (fun x => { x with answeredAt := some s.dt }) s))
      ∧ (x.regs.portState.toNat < 3 ∨ transmits s port = false → Runs (.delayRequest port) s s)
      ∧ (x.delayReq = false → Runs (.delayResponseReceive port trip turn) s s)
      ∧ (x.delayReq = true → x.delays.length < 15 → ∃ d : Nat, exact - 1 ≤ 2 * d ∧ 2 * (d : Int) ≤ max 0 (exact + 1)
          ∧ Runs (.delayResponseReceive port trip turn) s (met d))
      ∧ (x.delayReq = true → 15 ≤ x.delays.length → ∃ d m : Nat, exact - 1 ≤ 2 * d ∧ 2 * (d : Int) ≤ max 0 (exact + 1)
          ∧ sum d < 16 * m + 16 ∧ 16 * m < sum d + 16
          ∧ (x.regs.portState ≠ 3 → Runs (.delayResponseReceive port trip turn) s
              (newLinkDelay port (decide (x.delays.length < 16)) m (drawn (met d))))
          ∧ (x.regs.portState = 3 → Runs (.delayResponseReceive port trip turn) s
              (portUp port (newLinkDelay port (decide (x.delays.length < 16)) m (drawn (met d)))))))

/-- The election takes the eligible candidate of the lowest priority number and among equals the lowest module ID, this module
standing with its own; it is held in segment 0 at the segment's start alone.  A position is challenged by its challenger with 32
fresh bytes, answers for its own with its running ID, passes with a good signature and a known ID and key, and fails with a bad
answer or none for 100 ms; the acceptance lock ends after its time. -/
def Obligations.SegmentElectsAndChallenges : Prop :=
  ∀ (cs : List (BitVec 8 × BitVec 64 × Bool × Bool)) (p : BitVec 8) (id : BitVec 64) (pos : Fin 65) (nonce : BitVec 256)
    (key : BitVec 512) (r : Fin 2) (s : State),
    let all := (s.link.priority, s.ocp.ident.moduleId, s.link.mayMaster, s.ocp.ident.quarantined) :: cs
    let known := decide (id = s.link.rings[r].map[pos].commissioned) || s.link.acceptList.contains (pos.val, id, key)
    let told := modMap r pos (fun m => { m with key := key, running := id }) s
    (electBest all = some (p, id) → (p, id, true, false) ∈ all ∧ p ≠ 255
        ∧ ∀ c ∈ all, c.1 ≠ 255 → c.2.2 = (true, false) →
            p.toNat < c.1.toNat ∨ (p = c.1 ∧ id.toNat ≤ c.2.1.toNat))
      ∧ (electable s = true →
          (electBest all = some (p, id) → Runs (.segmentElection cs) s (setMaster id (unsent s)))
          ∧ (electBest all = none → ∃ t, Runs (.segmentElection cs) s t ∧ t.link.seg.masterId = 0
              ∧ t.link.rings[0].master = false ∧ t.link.seg.grandmaster = false ∧ t.time.regs.roleGm = false))
      ∧ (s.link.started = true ∨ s.link.split = true ∨ s.link.seg.segNum ≠ 0 ∨ s.link.seg.masterId ≠ 0 →
          Runs (.segmentElection cs) s s)
      ∧ (challengeRing s pos = some r → ∃ n, Runs (.nodeChallenge pos id nonce) s
          (emit (.challenge pos.val n) (modMap r pos (fun m => { m with challenged := some (n, s.dt) })
            (drawn (modMap r pos (fun m => { m with running := id }) (unsent s))))))
      ∧ (challengeRing s pos = none →
          ((List.finRange 2).find? fun r => ringN s r ≠ 0 && ringPosOf s r = pos.val) = some r →
          Runs (.nodeChallenge pos id nonce) s (emit (.answer pos.val (answerWords r nonce s)) (modMap r pos (fun m => { m with
            running := s.ocp.ident.moduleId, challenged := some (nonce, s.dt) }) (unsent s))))
      ∧ (openChallenge s pos = some r →
          (known = true → Runs (.challengeResponse pos id key true) s (passNode r pos told))
          ∧ (known = false → Runs (.challengeResponse pos id key true) s (failNode r pos told))
          ∧ Runs (.challengeResponse pos id key false) s (failNode r pos told)
          ∧ (∀ n t0, s.link.rings[r].map[pos].challenged = some (n, t0) → hasPassed t0 100000000 s = true →
              Runs (.challengeTimeout pos) s (failNode r pos s)))
      ∧ (openChallenge s pos = none → ∀ ok, Runs (.challengeResponse pos id key ok) s s ∧ Runs (.challengeTimeout pos) s s)
      ∧ (∀ t0, s.link.lockUntil = some t0 → t0.toNat ≤ s.dt.toNat → ∃ t, Runs .acceptLockExpiry s t
          ∧ t.link.lockUntil = none ∧ t.link.wrongCodes = 0 ∧ { t with link := s.link } = s)
      ∧ (∀ t0, s.link.lockUntil = some t0 → s.dt.toNat < t0.toNat → Runs .acceptLockExpiry s s)

/-- A fragment of at most 508 bytes and its CRC leaves a port at UP or above, on its route, with a credit, which it spends, and
where it ends 200 ns before the next pour frame; a good one received occupies a buffer, which its delivery here gives back and
its forwarding keeps; a bad one is counted; returned credits and an audit never raise the count above 32. -/
def Obligations.FragmentsSpendAndReturnCredits : Prop :=
  ∀ (port : Fin 4) (f : Fragment) (n : Nat) (sent given : BitVec 16) (s : State),
    let x := s.link.ports[port]
    let here := f.dest = s.ocp.ident.moduleId
    (4 ≤ x.regs.portState.toNat →
      (x.regs.txCredits ≠ 0 → f.words.length ≤ 127 → gapFits s port (f.words.length + 1) = true →
          onRoute s port f.dest = true → ∃ t, Runs (.fragmentSend port f) s t
          ∧ t.link.ports[port].sentFrags = x.sentFrags + 1
          ∧ t.link.ports[port].regs.txCredits.toNat + 1 = x.regs.txCredits.toNat
          ∧ t.link.sent.head? = some (.fragment port (f.words ++ [crcWords f.words])))
      ∧ (x.regs.txCredits = 0 ∨ 127 < f.words.length ∨ gapFits s port (f.words.length + 1) = false
          ∨ onRoute s port f.dest = false → Runs (.fragmentSend port f) s s)
      ∧ (here → x.regs.rxBusy.toNat < 32 → ∃ t, Runs (.fragmentReceive port true f) s t
          ∧ t.link.ports[port].goodFrags = x.goodFrags + 1 ∧ t.link.ports[port].returned = x.returned + 1
          ∧ t.link.ports[port].regs.rxBusy = x.regs.rxBusy ∧ t.link.outbox = s.link.outbox)
      ∧ (¬ here → x.regs.rxBusy.toNat < 32 → ∃ t, Runs (.fragmentReceive port true f) s t
          ∧ t.link.ports[port].goodFrags = x.goodFrags + 1 ∧ t.link.ports[port].returned = x.returned
          ∧ t.link.ports[port].regs.rxBusy = x.regs.rxBusy + 1
          ∧ t.link.outbox = s.link.outbox ++ [{ frag := f, port := some port }])
      ∧ (∃ t, Runs (.fragmentReceive port false f) s t
          ∧ t.link.ports[port].regs.fragCrcErrCount = satInc x.regs.fragCrcErrCount
          ∧ t.link.ports[port].goodFrags = x.goodFrags ∧ t.link.ports[port].returned = x.returned
          ∧ (here → f.kind = 1 → t.link.seg.fwdEventLost = satInc s.link.seg.fwdEventLost)
          ∧ (¬ here ∨ f.kind ≠ 1 → t.link.seg = s.link.seg))
      ∧ (∃ t, Runs (.creditReturnReceive port n) s t ∧ t.link.ports[port].gSeen = x.gSeen + BitVec.ofNat 16 n
          ∧ t.link.ports[port].regs.txCredits.toNat = min 32 (x.regs.txCredits.toNat + n))
      ∧ (∃ t, Runs (.auditReceive port sent given) s t
          ∧ t.link.ports[port].goodFrags = sent ∧ t.link.ports[port].gSeen = given
          ∧ t.link.ports[port].returned = x.returned + (sent - x.goodFrags)
          ∧ t.link.ports[port].regs.txCredits.toNat = min 32 (x.regs.txCredits.toNat + (given - x.gSeen).toNat)
          ∧ (sent = x.goodFrags → given = x.gSeen → t.events = s.events)))
      ∧ (x.regs.portState.toNat < 4 → Runs (.fragmentSend port f) s s ∧ Runs (.fragmentReceive port true f) s s
          ∧ Runs (.creditReturnReceive port n) s s ∧ Runs (.auditReceive port sent given) s s)

/-- The ring: a segment master launches time frames in each of its rings until its domain starts; a good frame that reaches a
port in UP or above brings its time, its slots and its replay records and goes on or ends; a break, told by a lost signal, a lost
lock or 8 code violations, turns the copies back, once for each port; its notice wraps the ring, and the notice of its end sets
the pour from which two copies run; a split is told once by a module that is not the master. -/
def Obligations.RingCarriesFramesAndBreaks : Prop :=
  ∀ (port : Fin 4) (r : Fin 2) (viols : Nat) (f : PourFrame) (s : State),
    let p := s.link.ports[port].regs
    let arrived := modPort port (fun x => { x with frameAt := some s.dt }) (unsent s)
    let timed := if r = 0 then frameTime port f arrived else arrived
    (s.link.started = false → Runs .timeFrameLaunch s
        (((List.finRange 2).filter fun r => s.link.rings[r].master).foldl (fun s r => launchBare 0xA6 r s) (unsent s)))
      ∧ (ringOf s port = some r → 4 ≤ p.portState.toNat → frameGood s r f = true → frameIsPour f = false →
          Runs (.pourFrameArrival port f) s (drainRx (if copyEnds r port f timed then timed else forwardFrame r port f timed)))
      ∧ (ringOf s port = some r → 4 ≤ p.portState.toNat → frameGood s r f = true → frameIsPour f = true →
          timed.link.started = true →
          let up := modPortRegs port (fun r => { r with portState := 5 }) timed
          let u := if frameWrapped f then enterWrapped r up else if ringState up r = 0 then setRingState r 1 up else up
          let n := (ringPlan u r).slots.length
          let v := if n ≠ 0 ∧ 8 < f.words.length then takeReplay r f ((List.range n).foldl (takeSlot port r f) u) else u
          Runs (.pourFrameArrival port f) s (drainRx (if copyEnds r port f v then v else forwardFrame r port f v)))
      ∧ (ringOf s port = none ∨ p.portState.toNat < 4 ∨ (ringOf s port = some r ∧ frameGood s r f = false) →
          Runs (.pourFrameArrival port f) s s)
      ∧ (p.broken = false → ringOf s port = some r →
          p.los = true ∨ (p.medium = false ∧ s.link.ports[port].signal = false) ∨ s.link.ports[port].locked = false ∨ 8 ≤ viols →
          ∃ t, Runs (.breakDeclare port viols) s t ∧ t.link.ports[port].regs.broken = true
            ∧ t.link.ports[port].regs.codeViolCount = satAdd p.codeViolCount viols
            ∧ (isEast s r port = true → t.link.rings[r].wrapEast = true)
            ∧ (isEast s r port = false → t.link.rings[r].wrapWest = true)
            ∧ (s.link.rings[r].master = true → t.link.rings[r].oneCopyFrom = some (pourAfterUs s))
            ∧ t.events.fabric = s.events.fabric ++ [{ code := Ev.linkWrapped, src := srcPort port, t := s.dt }])
      ∧ (p.los = false → p.medium = true ∨ s.link.ports[port].signal = true → s.link.ports[port].locked = true → viols < 8 →
          ∃ t, Runs (.breakDeclare port viols) s t ∧ t.link.ports[port].regs.broken = p.broken
            ∧ t.link.rings = s.link.rings ∧ t.events = s.events)
      ∧ (ringOf s port = some r → Runs (.breakNoticeReceive port) s
          (masterWraps r (enterWrapped r (passNotice r port .breakNotice (unsent s)))))
      ∧ (ringState s r = 0 ∨ ringState s r = 1 → ringState (enterWrapped r s) r = 2)
      ∧ (ringState s r = 3 → enterWrapped r s = s)
      ∧ (ringOf s port = some r → ringState s r = 2 → ∃ t, Runs (.restoreNoticeReceive port) s t
          ∧ t.link.rings[r].twoCopiesFrom = some (pourAfterUs s) ∧ { t with link := s.link } = s)
      ∧ (s.link.split = false → s.link.started = true → s.link.rings[0].master = false → ∃ t, Runs .ringSplit s t
          ∧ t.link.seg.ringState = 3 ∧ t.link.split = true
          ∧ t.events.fabric = s.events.fabric ++ [{ code := Ev.ringSplit, src := srcSegment, t := s.dt }])
      ∧ (s.link.split = true ∨ s.link.started = false ∨ s.link.rings[0].master = true → Runs .ringSplit s s)

/-- A domain starts where its checks pass, which fixes L, D and the wrap check and answers the request, and otherwise ends with
the first failing check's status; a module that is not the grandmaster starts with its grandmaster's reports, its own DT
discarded; a domain stops where no axis of it is enabled. -/
def Obligations.DomainStartsAndStops : Prop :=
  ∀ (r : DomainChecks) (q : DomainReq) (anyOn : Bool) (s : State),
    let start (o : PendingOp) : Bool := o.op = 0x0306
    let stop (o : PendingOp) : Bool := o.op = 0x0307
    let u := evalPlan (pourOfExp q.exp.toNat) (noteReports r s)
    let st := startStatus r q.exp.toNat q.d.toNat q.wrapCheck u
    let begun := startEpoch r (fixDomain q.exp q.d q.wrapCheck u)
    let v := evalPlan (pourOfExp r.exp.toNat) (noteReports r s)
    (s.link.domainReq = some q → q.exp.toNat ≤ 6 →
      (st = Status.ok → Runs (.domainStartComplete r) s (endOps start st (firstSlots begun.dt begun)))
      ∧ (st ≠ Status.ok → Runs (.domainStartComplete r) s
          (endOps start st (modLink (fun l => { l with domainReq := none }) u)))
      ∧ (st = Status.ok → ∃ t, Runs (.domainStartComplete r) s t ∧ t.link.started = true
          ∧ t.stage.regs.pourLen.toNat = 15625 * 2 ^ q.exp.toNat ∧ t.stage.regs.domainD = q.d))
      ∧ (s.link.domainReq = none → s.time.regs.roleGm = false → s.link.started = false → r.exp.toNat ≤ 6 →
          startStatus r r.exp.toNat r.d.toNat r.wrapCheck v = Status.ok → ∃ t, Runs (.domainStartComplete r) s t
            ∧ t.link.started = true ∧ t.stage.regs.pourLen.toNat = 15625 * 2 ^ r.exp.toNat ∧ t.stage.regs.domainD = r.d
            ∧ t.time.ownDt = false ∧ t.time.regs.state = 0)
      ∧ ((s.ocp.ops.any stop) = true → (anyOn || anyEnabled s) = true →
          Runs (.domainStopComplete anyOn) s (endOps stop Status.axesEnabled s))
      ∧ ((s.ocp.ops.any stop) = true → (anyOn || anyEnabled s) = false →
          Runs (.domainStopComplete anyOn) s (endOps stop Status.ok (stopDomain s)))
      ∧ ((s.ocp.ops.any stop) = false → s.time.regs.roleGm = false → (anyOn || anyEnabled s) = false →
          Runs (.domainStopComplete anyOn) s (stopDomain s))
      ∧ (stopDomain s).link.started = false

/-! ### Axes, engines, loops and feedback -/

/-- A hard stop found while homing on it (the current at I_HOME, the speed below V_CREEP/8, for T_HS) takes the actual position
of that pour as the reference and begins the return; a hold that has lasted HOLD_TIME disables the axis, a rest that has lasted
IN_POS_TIME sets IN_POSITION; a mark not found in MISS_LIMIT pitches holds the registration and is told.
A direct coefficient word joins the loop's queue while TUNING is granted and is otherwise ignored and counted; the oldest one
is applied while no entry holds the loop; a saturated output and an implausible feedback are told once in their run; a trace
unit with its samples completes. -/
def Obligations.AxisAndLoopEventsEndTheirPhase : Prop :=
  (∀ (k : Fin 16) (i : Fin 80) (h : HomeRun) (s : State),
    let ka : Fin 112 := k.castLE (by decide)
    let a : Fin 112 := i.castLE (by decide)
    let far : Int := ((s.axes[a].regCfg.missLimit.toNat * s.axes[a].regCfg.pitch.toNat : Nat) : Int) * 2 ^ 32
    let x := s.axes[ka]
    (∀ t0, x.home = some h → h.method = 9 ∨ h.method = 10 → x.regs.homePhase = 2 → isStepper s ka = false → x.atIHome = true →
        (8 * x.regs.actVel.toInt.natAbs : Int) < x.regs.vCreep.toInt →
        h.slowSince = some t0 → hasPassed t0 (x.regs.tHs.toNat * 1000000) s = true →
        ∃ t, Runs (.hardStopDetect k) s t ∧ t.axes[ka].regs.homePhase = 3
          ∧ (t.axes[ka].home.map fun g => (g.edge, g.known)) =
              some (fixRaw (unwrapped x), some (fixRaw (unwrapped x)))
          ∧ { t with axes := s.axes, freeCtr := s.freeCtr } = s)
      ∧ (x.home = none ∨ (∃ h, x.home = some h ∧ h.slowSince = none) → Runs (.hardStopDetect k) s s)
      ∧ (∀ t0, s.axes[a].holdSince = some t0 → hasPassed t0 (s.axes[a].regs.holdTime.toNat * 1000000) s = true →
          Runs (.axisHoldExpiry i) s (disableAxis a s))
      ∧ (s.axes[a].holdSince = none → Runs (.axisHoldExpiry i) s s)
      ∧ (∀ t0, s.axes[a].restSince = some t0 → hasPassed t0 (s.axes[a].regs.inPosTime.toNat * 1000) s = true →
          ∃ t, Runs (.inPositionSet i) s t ∧ t.axes[a].inPosition = true ∧ { t with axes := s.axes } = s)
      ∧ (s.axes[a].restSince = none → Runs (.inPositionSet i) s s)
      ∧ (s.axes[a].follow.regState = 1 → far ≤ s.axes[a].regTravel.toInt → Runs (.markMissing i) s
          (raise Ev.markMissing (srcAxis a) s.axes[a].clsMark true 0 0 0 [a] (modAxis a (fun ax => { ax with
            regTarget := ax.follow.regOffset, regStaged := []
            follow := { ax.follow with
              regState := 2, missingSeen := true, regMissCount := satInc ax.follow.regMissCount
              cntOvf := ax.follow.cntOvf || satFull ax.follow.regMissCount } }) s)))
      ∧ (s.axes[a].follow.regState ≠ 1 ∨ s.axes[a].regTravel.toInt < far → Runs (.markMissing i) s s))
  ∧ (∀ (i : Fin 96) (c : Fin 7) (v : Word) (w : DirectWrite) (ws : List DirectWrite) (u : Fin 4) (s : State),
    let l := s.loops[i]
    (l.regs.tuning = true → ∃ t, Runs (.directCoefWrite i c v) s t
        ∧ t.loops[i].direct = l.direct ++ [{ coef := c, v := v, at_ := s.dt }] ∧ t.loops[i].regs = l.regs
        ∧ { t with loops := s.loops } = s)
      ∧ (l.regs.tuning = false → ∃ t, Runs (.directCoefWrite i c v) s t ∧ t.loops[i].direct = l.direct
          ∧ t.loops[i].regs.dwIgnoredCount = satInc l.regs.dwIgnoredCount ∧ t.loops[i].regs.dwIgnoredSeen = true
          ∧ { t with loops := s.loops } = s)
      ∧ (l.direct = [] → Runs (.directCoefApply i) s s)
      ∧ (loopBusy s i = true → Runs (.directCoefApply i) s s)
      ∧ (l.direct = w :: ws → loopBusy s i = false → Runs (.directCoefApply i) s (fillCoefs i (modLoop i (fun l =>
          let l := coefWord { l with direct := ws } w.coef w.v
          { l with regs := { l.regs with
            dwWriteCount := satInc l.regs.dwWriteCount, cntOvf := l.regs.cntOvf || satFull l.regs.dwWriteCount } }) s)))
      ∧ (∀ t0, l.satSince = some t0 → hasPassed t0 (l.regs.satTime.toNat * 1000000) s = true → l.satRaised = false →
          l.regs.satTime ≠ 0 → Runs (.loopOutputSaturated i) s
          (raise Ev.loopOutputSaturated (srcLoop s i) l.clsSat true (natWord i.val) 0 0 (loopAxis i).toList
            (modLoop i (fun l => { l with satRaised := true }) s)))
      ∧ (l.satRaised = true ∨ l.satSince = none → Runs (.loopOutputSaturated i) s s)
      ∧ (∀ t0, l.regs.supModel ≠ 0 → l.regs.supActive = true → l.supSince = some t0 →
          hasPassed t0 (l.regs.tSup.toNat * 1000000) s = true → Runs (.feedbackImplausible i) s
          (raise Ev.feedbackImplausible (srcLoop s i) l.clsSup false (natWord i.val) l.supRes 0 (loopAxis i).toList
            (modLoop i (fun l => { l with
              supSince := none
              regs := { l.regs with
                supViolSeen := true, supViolCount := satInc l.regs.supViolCount
                cntOvf := l.regs.cntOvf || satFull l.regs.supViolCount } }) s)))
      ∧ (l.regs.supModel = 0 ∨ l.supSince = none → Runs (.feedbackImplausible i) s s)
      ∧ (s.traces[u].regs.trState = 3 → s.traces[u].post ≤ s.traces[u].sincePost → ∃ t, Runs (.traceComplete u) s t
          ∧ t.traces[u].regs.trState = 4 ∧ t.traces[u].regs.completeSeen = true
          ∧ t.events.fabric = s.events.fabric ++ [{ code := Ev.traceComplete, src := srcTrace u, t := s.dt }]
          ∧ { t with traces := s.traces, events := s.events } = s)
      ∧ (s.traces[u].regs.trState ≠ 3 → Runs (.traceComplete u) s s))

/-- An enabled entry of its own source counts its occurrence; the lowest pending entry enters when its running engine is free;
an image that passes its checks is installed and started, one that fails one is not; scrubbing counts a corrected bit and an
uncorrectable one resets the control plane; the debug port halts a running engine and lets a halted one go on. -/
def Obligations.EngineEventsStartAndHaltIt : Prop :=
  ∀ (e : Fin 32) (k : Fin 16) (j : Nat) (ld : EngineLoad) (bkpt : Bool) (st : BitVec 16) (v : Nat) (kind : Fin 3)
    (addr : BitVec 16) (s : State),
    let en := s.engines[e]
    let own (o : PendingOp) : Bool := o.op = 0x0703 && o.target = BitVec.ofNat 16 e.val
    (en.ticks[k].regs.en = true → en.ticks[k].regs.sourceKind ≠ 0 → en.ticks[k].regs.sourceKind ≠ 3 →
        (∀ t, tickTile en.ticks[k].regs = some t →
          if en.ticks[k].regs.sourceKind = 1 then j < max 1 (rateLoop s t).k.toNat
          else s.tiles[t].regs.periodCount.toNat % max 1 (rateLoop s t).localDiv.toNat = 0) →
        Runs (.tickFiring e k j) s (occurs e k j s))
      ∧ (en.ticks[k].regs.en = false → Runs (.tickFiring e k j) s s)
      ∧ (en.ticks[k].pending = true → (∀ i : Fin 16, i.val < k.val → en.ticks[i].pending = false) → en.running = none →
          en.regs.leState = 2 → en.rep = 0 →
          Runs (.tickEntry e k) s (runLoops e en.ticks[k] (modEngine e (fun y => { y with
            data := memPutWords y.data (en.ticks[k].regs.tickCtx.toNat + 0x0D)
              (headerWords (modEngine e (enterTick k en.ticks[k]) s) en.ticks[k]) })
            (modEngine e (enterTick k en.ticks[k]) s))))
      ∧ (en.ticks[k].pending = false ∨ en.running.isSome = true ∨ en.regs.leState ≠ 2 → Runs (.tickEntry e k) s s)
      ∧ (en.load = some ld → s.ocp.ops.any own = true → imageCheck s e ld = none →
          Runs (.leImageCheckComplete e) s (endOps own Status.ok (startEngine e (installImage e ld (drawn s)))))
      ∧ (en.load = some ld → s.ocp.ops.any own = true → imageCheck s e ld = some (st, v) →
          Runs (.leImageCheckComplete e) s (endOps own st (modEngine e (fun en => { en with
            regs := { en.regs with imageCheck := BitVec.ofNat 16 v } }) (drawn s))))
      ∧ Runs (.memoryScrub e kind addr 0) s s
      ∧ (∃ t, Runs (.memoryScrub e kind addr 1) s t
          ∧ (kind = 0 → t.engines[e].regs.eccCorrProg = satInc en.regs.eccCorrProg)
          ∧ (kind = 1 → t.engines[e].regs.eccCorrData = satInc en.regs.eccCorrData)
          ∧ (kind = 2 → t.engines[e].regs.eccCorrPort = satInc en.regs.eccCorrPort)
          ∧ t.tiles = s.tiles ∧ t.axes = s.axes)
      ∧ Runs (.memoryScrub e kind addr 2) s (assertControlReset (BitVec.ofNat 8 (kind.val + 1)) (addr.zeroExtend 32) s)
      ∧ Runs (.debugHalt e bkpt) s (debugHalt e en.pc (setBkpt e bkpt s))
      ∧ (en.regs.leState = 2 → (debugHalt e en.pc s).engines[e].regs.leState = 4)
      ∧ (en.regs.leState ≠ 2 → debugHalt e en.pc s = s)
      ∧ (en.regs.leState = 4 → Runs (.debugResume e bkpt) s ((grantedTiles e en).foldl (fun s t => thawTile true t s)
          (modEngine e (fun en => { en with bkptEn := bkpt, haltOverrun := false, regs := { en.regs with leState := 2 } }) s)))
      ∧ (en.regs.leState ≠ 4 → Runs (.debugResume e bkpt) s (setBkpt e bkpt s))

/-- A converter sample on its clock's boundary and the samples of a window are written to their channel's place and go to the
owner of their input; a channel that stays above its threshold or shows no transition, and an NTC that stays out of range, raise
their event once.
Encoders: a legal edge moves the count by one in the sense of the quadrature, both levels at once move nothing and are
told; an armed and gated index latches the count of its instant, and homes an axis that homes on it; an absolute frame starts
within two clocks of its tick, and is rejected without its acknowledge in 2 us or with its error bit and otherwise read; FAIL_N
rejected readings in a row are told once. -/
def Obligations.FeedbackEventsActOnTheirInput : Prop :=
  (∀ (c : Fin 160) (t : Fin 16) (y yu yv yw : Nat) (live : Bool) (lives : BitVec 3) (s : State),
    let ch := s.sds[c]
    let tl := s.tiles[t]
    let v := sdValue s c y
    let one (k : Fin 10) (y : Nat) (s : State) : State :=
      if sdGoes s (tileSd t k) (lives.getLsbD k.val) then sdWrite (tileSd t k) (sdValue s (tileSd t k) y) s else s
    let w := one 2 yw (one 1 yv (one 0 yu s))
    (isWindowed s c = false → ch.regs.stuck = false ∨ live = true → (sdClock s c).en = true → sdBoundary s c = true →
        Runs (.sdSample c y live) s (sdRole c v (sdWrite c v s)))
      ∧ ((sdClock s c).en = false ∨ isWindowed s c = true ∨ sdBoundary s c = false → Runs (.sdSample c y live) s s)
      ∧ (legShunt tl = true → Runs (.sdWindowSample t yu yv yw lives) s (([0, 1, 2] : List (Fin 10)).foldl (fun x k =>
            if w.tiles[t].foc.senseStat.getLsbD k.val then currentTrip t k.val x.sds[tileSd t k].regs.sample x else x)
            (tilePuts t 0x88 [w.tiles[t].foc.senseStat, w.tiles[t].foc.winDt] w)))
      ∧ (legShunt tl = false → Runs (.sdWindowSample t yu yv yw lives) s s)
      ∧ (ch.regs.overrange = false → ch.regs.orN.toNat ≤ ch.orRun → ch.orRun ≠ 0 → Runs (.sdOverrange c) s
          (raise Ev.sdOverrange (srcSd c) s.policy.sdOver true 0 ch.regs.sample 0 [tileAxis (sdTile c)] (modSd c (fun ch =>
            { ch with orRun := 0, regs := { ch.regs with
              overrange := true, orSeen := true, orCount := satInc ch.regs.orCount
              cntOvf := ch.regs.cntOvf || satFull ch.regs.orCount } }) s)))
      ∧ (ch.regs.overrange = true → Runs (.sdOverrange c) s s)
      ∧ (ch.regs.stuck = false → Runs (.sdStuck c) s (raise Ev.sdStuck (srcSd c) (stuckCls s c) true 0 0 0
          [tileAxis (sdTile c)] (modSd c (fun ch => { ch with regs := { ch.regs with
            stuck := true, stuckSeen := true, stuckCount := satInc ch.regs.stuckCount
            cntOvf := ch.regs.cntOvf || satFull ch.regs.stuckCount } }) s)))
      ∧ (ch.regs.stuck = true → Runs (.sdStuck c) s s)
      ∧ (10 ≤ tl.ntcRun → tl.ntc.ntcFault = false → Runs (.ntcFault t) s (raise Ev.ntcFault (srcTile t) s.policy.ntcFault true
          0 0 0 [tileAxis t] (modTile t (fun tl => { tl with
            ntc := { tl.ntc with ntcFault := true, ntcFaultSeen := true } }) s)))
      ∧ (tl.ntc.ntcFault = true ∨ tl.ntcRun < 10 → Runs (.ntcFault t) s s))
  ∧ (∀ (e : Fin 17) (f : Fin 16) (a b z : Bool) (drt : Fin 801) (frame : BitVec 64) (s : State),
    let r := s.encs[e].regs
    let fe : Fin 17 := f.castSucc
    let ef := s.encs[fe]
    let a0 := r.levels.getLsbD 0
    let b0 := r.levels.getLsbD 1
    let d : Int := quadStep a0 b0 a b
    let raw : Fix := s.dt - BitVec.ofNat 96 ((r.glitch.toNat + 1) * 0x280000000)
    let isOver (t0 : Fix) : Bool := hasPassed t0 (5 * ef.regs.ssiHalf.toNat * ef.regs.bits.toNat) s
    (a = a0 ∨ b = b0 → ∃ t, Runs (.encoderEdge e a b z) s t
        ∧ t.encs[e].regs.count = r.count + BitVec.ofInt 64 (if r.dir then -d else d)
        ∧ t.encs[e].regs.levels.getLsbD 0 = a ∧ t.encs[e].regs.levels.getLsbD 1 = b ∧ t.encs[e].regs.levels.getLsbD 2 = z
        ∧ { t with encs := s.encs } = s)
      ∧ (a = a0 → b = b0 → d = 0)
      ∧ (quadStep false false true false = -quadStep false false false true)
      ∧ (a ≠ a0 → b ≠ b0 → ∃ t, Runs (.encoderEdge e a b z) s (encIllegal e t) ∧ t.encs[e].regs.count = r.count
          ∧ { t with encs := s.encs } = s)
      ∧ (r.zEn = false ∨ gateMatches r = false ∨ indexArmed s e = false → Runs (.indexEdge e) s s)
      ∧ (r.zEn = true → gateMatches r = true → indexArmed s e = true → ∃ t, t.encs[e].regs.idxCount = r.count
          ∧ t.encs[e].regs.idxLatched = true ∧ t.encs[e].regs.idxMode = (if r.idxMode = 1 then 0 else r.idxMode)
          ∧ t.encs[e].regs.indexCount = satInc r.indexCount ∧ t.encs[e].regs.idxDt = nsOf raw
          ∧ { t with encs := s.encs, events := s.events } = s
          ∧ t.events.fabric = s.events.fabric ++ [{ code := Ev.indexLatched, src := srcEnc e, t := raw
                                                    p0 := r.count.truncate 32, p1 := nsLo raw }]
          ∧ (encTile e = none → Runs (.indexEdge e) s t)
          ∧ (∀ k, encTile e = some k → Runs (.indexEdge e) s (homeEdge (tileAxis k) .index true raw 5
              (if r.fbSrc = 1 then
                some (unwrapped s.axes[tileAxis k] + axisCount t k r.count - axisCount t k t.encs[e].lastC) else none) t)))
      ∧ (∀ j, ef.ssiSet = true → ef.tickJ = some j → j % max 1 ef.regs.ssiTickDiv.toNat = 0 → ef.tickAt.toNat ≤ s.dt.toNat →
          s.dt.toNat ≤ ef.tickAt.toNat + 2 * 0x280000000 →
          ∃ t, Runs (.ssiFrameStart f) s t ∧ t.encs[fe].frameAt = some s.dt ∧ { t with encs := s.encs } = s)
      ∧ (ef.ssiSet = false ∨ ef.tickJ = none → Runs (.ssiFrameStart f) s s)
      ∧ (∀ t0, ef.frameAt = some t0 → hasPassed t0 2000 s = true → Runs (.ssiAckTimeout f) s
          (absReject fe 1 (modEnc fe (fun en => { en with frameAt := none }) s)))
      ∧ (ef.frameAt = none → Runs (.ssiAckTimeout f) s s ∧ Runs (.ssiFrameComplete f drt frame) s s)
      ∧ (∀ t0, ef.frameAt = some t0 → isOver t0 = false → Runs (.ssiFrameComplete f drt frame) s s)
      ∧ (∀ t0, ef.frameAt = some t0 → isOver t0 = true → ∃ t dt, t.encs[fe].drts = (2500 * drt.val :: ef.drts).take 8
          ∧ t.encs[fe].frameAt = none ∧ t.encs[fe].lastField = ef.lastField ∧ { t with encs := s.encs } = s
          ∧ (ef.regs.errEn = true → frame.getLsbD (ef.regs.bits.toNat - ef.regs.errBit.toNat) = ef.regs.errPol →
              Runs (.ssiFrameComplete f drt frame) s (absReject fe 2 t))
          ∧ (ef.regs.errEn = false ∨ frame.getLsbD (ef.regs.bits.toNat - ef.regs.errBit.toNat) ≠ ef.regs.errPol →
              Runs (.ssiFrameComplete f drt frame) s (ssiReading fe f (ssiField t.encs[fe].regs frame) dt t)))
      ∧ (ef.failed = false → ef.regs.failN.toNat ≤ ef.fails → ef.fails ≠ 0 → Runs (.absReadFailed f) s
          (raise Ev.absReadFailed (srcEnc fe) s.policy.absFailed true (ef.absCause.zeroExtend 32) 0 0 [tileAxis f]
            (modEnc fe (fun en => { en with failed := true }) s)))
      ∧ (ef.failed = true ∨ ef.fails = 0 → Runs (.absReadFailed f) s s))

/-! ### Tiles, motors, valves and captures -/

/-- Tile events: an enabled fault input low for its filter time vents the tile and records it, one too short does not; a Hall
state is recorded, forces the legs of a running tile and is told where it is illegal; the brake resistor that shows no effect is
switched off after T_CHK and the group is told; an undervoltage that has gone for 10 ms clears its condition. -/
def Obligations.TileEventsProtectTheTile : Prop :=
  ∀ (t : Fin 16) (ns : Nat) (h : BitVec 3) (g : Fin 4) (s : State),
    let tl := s.tiles[t]
    let need := if tl.regs.fltFilt = 0 then 5 else 10 * tl.regs.fltFilt.toNat
    let hit := modTileRegs t (fun r => { r with
      trip := true, tripInput := true, tripSeen := true, lastTripDt := nsOf s.dt, tripCount := satInc r.tripCount
      cntOvf := r.cntOvf || satFull r.tripCount }) (drawn s)
    (∃ u, Runs (.tileFaultInput t false ns) s u ∧ u.tiles[t].regs.tripInput = false ∧ { u with tiles := s.tiles } = s)
      ∧ (tl.regs.fltEn = false ∨ tl.regs.tripInput = true → Runs (.tileFaultInput t true ns) s s)
      ∧ (tl.regs.fltEn = true → tl.regs.tripInput = false → need ≤ ns → Runs (.tileFaultInput t true ns) s
          (ventTile t 0 (latchFault Ev.tileTrip true (tileAxis t)
            (record { code := Ev.tileTrip, src := srcTile t, t := s.dt, cls := .vent, p0 := natWord tl.regs.fltFilt.toNat } hit))))
      ∧ (tl.regs.fltEn = true → tl.regs.tripInput = false → ns + 20 < need → Runs (.tileFaultInput t true ns) s (drawn s))
      ∧ (hallRuns tl = false → Runs (.hallEdge t h) s s)
      ∧ (hallRuns tl = true → ∃ w, w.tiles[t].regs.hallState = h ∧ w.tiles[t].pw.hallBad = decide (h = 0 ∨ h = 7)
          ∧ w.tiles[t].regs.hallEdgeCount = satInc tl.regs.hallEdgeCount ∧ { w with tiles := s.tiles } = s
          ∧ ∀ x, x = writeTileStatus t (if w.tiles[t].regs.tileState = 2 then reforceLegs t w else w) →
            (h = 0 ∨ h = 7 → Runs (.hallEdge t h) s
              (raise Ev.hallIllegal (srcTile t) x.policy.hallIllegal true (h.zeroExtend 32) 0 0 [tileAxis t] x))
            ∧ (h ≠ 0 → h ≠ 7 → Runs (.hallEdge t h) s (clearCond Ev.hallIllegal [tileAxis t] x)))
      ∧ (tileGroup tl = none → Runs (.brakeCheckExpiry t) s s)
      ∧ (tileGroup tl = some g → ∀ v, v = chopperSettle t g s →
        (v.tiles[t].pw.chopOn = false ∨ v.tiles[t].pw.chopOk = true → Runs (.brakeCheckExpiry t) s v)
        ∧ (v.tiles[t].pw.chopOn = true → v.tiles[t].pw.chopOk = false →
          hasPassed v.tiles[t].pw.chopAt (1000 * v.dcls[g].regs.tChk.toNat) v = true → ∃ w x,
          w.tiles[t].pw.chopOn = false ∧ w.tiles[t].regs.chopperVented = true ∧ w.dcls[g].regs.brakeIneff = true
            ∧ w.dcls[g].regs.brakeIneffCount = satInc v.dcls[g].regs.brakeIneffCount
            ∧ { w with tiles := v.tiles, dcls := v.dcls } = v
            ∧ x = raise Ev.brakeIneffective (srcGroup w g) w.policy.brakeIneff true (natWord g.val) v.tiles[t].pw.chopV 0
              (groupAxes w g) w
            ∧ ∃ y, y = (dclMembers x g).foldl (fun s u =>
                writeTileStatus u (modTileRegs u (fun r => { r with regenClamp := true }) s)) x
              ∧ Runs (.brakeCheckExpiry t) s (dclRefresh g (note Ev.regenLimited (srcGroup y g) (natWord g.val) 0 0 y))))
      ∧ (∀ t0, s.dcls[g].regs.undervolt = true → uvGone s g = true → s.dcls[g].uvFrom = some t0 →
          hasPassed t0 10000000 s = true → Runs (.dclUndervoltClear g) s (clearCond Ev.dclUndervolt (groupAxes s g)
            (modDcl g (fun x => { x with regs := { x.regs with undervolt := false } }) s)))
      ∧ (s.dcls[g].regs.undervolt = false ∨ uvGone s g = false ∨ s.dcls[g].uvFrom = none → Runs (.dclUndervoltClear g) s s)

/-- The sensorless start: listening catches a motor that turns, brakes one that turns too slowly to follow and aligns one that
stands; braking and aligning hand on to their successor; convergence is told and hands the angle over; a start that times out is
made again until its retries are used up and then disables the axis; a lost observer goes back to RAMP.
Current measurement and identification: a sum off on eight ticks and more predicted periods than PRED_MAX are told;
an identification ends with the values of the steps before the first implausible one, keeps the others, and answers with its
status. -/
def Obligations.SensorlessStartFollowsItsMeasurements : Prop :=
  (∀ (t : Fin 16) (emf omega : Word) (s : State),
    let f := s.tiles[t].foc
    let r := f.regs
    let sl := sensorlessTile s t
    (sl = true → inStart s t 1 = true → inStartFor s t 5 = true →
        (emf.toNat < r.flyMinEmf.toNat → Runs (.listenEnd t emf omega) s (modFoc t (enterStart 3 s) s))
        ∧ (r.flyMinEmf.toNat ≤ emf.toNat → abs32 omega < r.vCatch.toNat →
            Runs (.listenEnd t emf omega) s (modFoc t (enterStart 2 s) s))
        ∧ (r.flyMinEmf.toNat ≤ emf.toNat → r.vCatch.toNat ≤ abs32 omega → 20 * emf.toNat ≤ 19 * r.mMax.toNat →
            Runs (.listenEnd t emf omega) s (catchMotor t emf omega s)))
      ∧ (sl = false ∨ inStart s t 1 = false ∨ inStartFor s t 5 = false → Runs (.listenEnd t emf omega) s s)
      ∧ (sl = true → inStart s t 2 = true → inStartFor s t r.tBrake.toNat = true →
          Runs (.brakeEnd t) s (modFoc t (enterStart 3 s) s))
      ∧ (sl = true → inStart s t 4 = true → inStartFor s t r.tAlign.toNat = true → ∃ u, Runs (.alignEnd t) s u ∧ u.tiles[t].foc.olVel = 0
          ∧ u.tiles[t].foc.regs = (enterStart 5 s f).regs ∧ { u with tiles := s.tiles } = s)
      ∧ (sl = false → inStart s t 4 = true → inStartFor s t r.tAlign.toNat = true → ∃ u, Runs (.alignEnd t) s u
          ∧ u.tiles[t].foc.regs.offsetValid = true
          ∧ u.tiles[t].foc.regs.angleOffset =
            -encoderAngle { f with regs := { f.regs with angleOffset := 0 } } (srcCount s.encs[tileEnc t])
          ∧ { u with tiles := s.tiles } = s)
      ∧ (∀ t0, runsObserver s t = true → s.tiles[t].regs.mode = 1 → r.obsConverged = false → f.convSince = some t0 →
          hasPassed t0 (1000000 * r.convTime.toNat) s = true → ∀ n, n = note Ev.obsConvergedEvt (srcTile t) 0 0 0 (modFocRegs t (fun r => { r with obsConverged := true }) s) →
          (r.angleSrc = false → Runs (.obsConvergedEvt t) s n)
          ∧ (r.angleSrc = true → inStart s t 6 = true → Runs (.obsConvergedEvt t) s (handOver t n)))
      ∧ (r.obsConverged = true ∨ f.convSince = none → Runs (.obsConvergedEvt t) s s)
      ∧ (sl = true → inStart s t 6 = true ∨ inStart s t 1 = true → inStartFor s t r.tStartTimeout.toNat = true →
          (r.startTries.toNat < r.startRetries.toNat → ∃ u, Runs (.startTimeout t) s u
            ∧ u.tiles[t].foc.retryAt = some s.dt ∧ u.tiles[t].foc.regs.startTries = r.startTries + 1
            ∧ u.axes = s.axes ∧ u.events = (note Ev.startRetry (srcTile t) ((r.startTries + 1).zeroExtend 32) 0 0 s).events)
          ∧ (r.startRetries.toNat ≤ r.startTries.toNat → ∀ w, w = modFocRegs t (fun r => { r with
                startFailCount := satInc r.startFailCount, startFailSeen := true
                cntOvf := r.cntOvf || satFull r.startFailCount }) s →
              Runs (.startTimeout t) s (disableAxis (tileAxis t) (raise Ev.startFailed (srcTile t) w.policy.startFailed false
                (r.startTries.zeroExtend 32) 0 0 [tileAxis t] w))))
      ∧ (∀ t0, sl = true → s.tiles[t].regs.tileState = 2 → f.retryAt = some t0 →
          hasPassed t0 (1000000 * r.tRetryWait.toNat) s = true → ∃ u, Runs (.startRetryWaitEnd t) s u
          ∧ u.tiles[t].foc.retryAt = none
          ∧ u.tiles[t].foc.regs.startState = (enterStart (if r.flyEn then 1 else 4) s f).regs.startState
          ∧ (r.flyEn = true → { u with tiles := s.tiles } = s)
          ∧ (r.flyEn = false → { u with tiles := s.tiles } = markUncertain (tileAxis t) s))
      ∧ (f.retryAt = none → Runs (.startRetryWaitEnd t) s s)
      ∧ (∀ t0, sl = true → inStart s t 7 = true → f.lostSince = some t0 →
          hasPassed t0 (1000000 * r.convTime.toNat) s = true → ∃ w, w.tiles[t].foc.lostSince = none
          ∧ w.tiles[t].foc.regs = { (enterStart 5 s f).regs with obsLostSeen := true } ∧ { w with tiles := s.tiles } = s
          ∧ Runs (.observerLost t) s
            (raise Ev.observerLost (srcTile t) w.policy.obsLost false 0 r.pllErr 0 [tileAxis t] w))
      ∧ (f.lostSince = none → Runs (.observerLost t) s s))
  ∧ (∀ (t : Fin 16) (o : IdentOutcome) (s : State),
    let f := s.tiles[t].foc
    let own (q : PendingOp) : Bool := q.op = 0x0907 && q.target.toNat = t.val
    (f.sumRun < 8 → Runs (.currentSumError t) s s)
      ∧ (8 ≤ f.sumRun → ∀ w, w = modFoc t (fun f => { f with sumRun := 0, regs := { f.regs with sumErrSeen := true } }) s →
          Runs (.currentSumError t) s (raise Ev.currentSumError (srcTile t) w.policy.sumErr false 0
            (sat32 (f.iu.toInt + f.iv.toInt + f.iw.toInt)) 0 [tileAxis t] w))
      ∧ (f.noWindow = true ∨ f.predRun ≤ f.regs.predMax.toNat → Runs (.senseNoWindow t) s s)
      ∧ (f.noWindow = false → f.regs.predMax.toNat < f.predRun → ∀ w, w = modFoc t (fun f => { f with
            noWindow := true, goodRun := 0, regs := { f.regs with noWindowSeen := true } }) s →
          Runs (.senseNoWindow t) s
            (raise Ev.senseNoWindow (srcTile t) w.policy.noWindow true (natWord f.predRun) 0 0 [tileAxis t] w))
      ∧ (f.regs.identifying = false → Runs (.identComplete t o) s s)
      ∧ (f.regs.identifying = true → ∀ fails done,
          fails = ((List.range 5).find? fun i => f.identMask.getLsbD i && stepImplausible s t o i) →
          done = f.identMask &&& (match fails with
            | some i => BitVec.ofNat 5 (2 ^ i - 1)
            | none => 31) →
          ∃ w, w.tiles[t].foc.regs.identifying = false ∧ w.tiles[t].foc.ident.identDone = done
          ∧ (done.getLsbD 1 = true → w.tiles[t].foc.ident.idRs = o.rs)
          ∧ (done.getLsbD 1 = false → w.tiles[t].foc.ident.idRs = f.ident.idRs)
          ∧ (done.getLsbD 2 = true → w.tiles[t].foc.ident.idLd = o.ld ∧ w.tiles[t].foc.ident.idLq = o.lq)
          ∧ (done.getLsbD 3 = true → w.tiles[t].foc.ident.idPsi = o.psi)
          ∧ { w with tiles := s.tiles, freeCtr := s.freeCtr } = s
          ∧ (fails = none → w.tiles[t].foc.ident.identState = 6 ∧ Runs (.identComplete t o) s (endOps own Status.ok w))
          ∧ (fails.isSome = true → w.tiles[t].foc.ident.identState = 7
            ∧ Runs (.identComplete t o) s (endOps own Status.identImplausible w))))

/-- The stepper and valve chopper: bits of the bitstream move its decision, the blanking and the fast decay end, a drive too
long is told; an idle stepper takes its idle current, a stall stops the axis unless it homes on one; a measured coil whose
resistance is out of its range fails, and a clamped coil without current is open. -/
def Obligations.ChopperEventsMoveTheCoil : Prop :=
  ∀ (t : Fin 16) (c : Fin 2) (bits : List Bool) (m : CoilMeasure) (s : State),
    let v := s.tiles[t].sv
    let x := v.chop[c]
    let inv := s.sds[tileSd t (c.castLE (by decide))].regs.invert
    let homing := (s.axes[tileAxis t].home).any fun h => decide (h.method = 9) || decide (h.method = 10)
    Runs (.chopperThresholdCross t c bits) s (showChop t c (bits.foldl (fun s b => chopBit t c (b != inv) s) s))
      ∧ (x.blank = true → hasPassed x.blankAt v.regs.tBlank.toNat s = true → Runs (.blankingEnd t c) s
          (showChop t c (chopDecide t c (modChop t c (fun x => { x with blank := false }) s))))
      ∧ (x.blank = false ∨ hasPassed x.blankAt v.regs.tBlank.toNat s = false → Runs (.blankingEnd t c) s s)
      ∧ (x.state = 3 → v.regs.decay = 2 → hasPassed x.fastAt v.regs.tFast.toNat s = true → Runs (.chopperFastEnd t c) s
          (showChop t c (setChop t c 2 (decide (0 < coilRef s t c)) s)))
      ∧ (x.state ≠ 3 ∨ v.regs.decay ≠ 2 ∨ hasPassed x.fastAt v.regs.tFast.toNat s = false → Runs (.chopperFastEnd t c) s s)
      ∧ (x.state = 1 → x.under = false → hasPassed x.driveAt (1000 * v.regs.tDriveMax.toNat) s = true → ∃ w,
          w.tiles[t].sv.regs.underdrive = v.regs.underdrive ||| BitVec.ofNat 2 (2 ^ c.val)
          ∧ w.tiles[t].sv.regs.underdriveCount = satInc v.regs.underdriveCount ∧ w.tiles[t].sv.chop[c].under = true
          ∧ { w with tiles := s.tiles } = s
          ∧ (x.reached = false → Runs (.chopperDriveTimeout t c) s (showChop t c (coilFault t c 4 w)))
          ∧ (x.reached = true → x.told = false → Runs (.chopperDriveTimeout t c) s
              (showChop t c (note Ev.coilUnderdrive (srcTile t) (natWord c.val) 0 0 w)))
          ∧ (x.reached = true → x.told = true → Runs (.chopperDriveTimeout t c) s (showChop t c w)))
      ∧ (x.state ≠ 1 ∨ x.under = true ∨ hasPassed x.driveAt (1000 * v.regs.tDriveMax.toNat) s = false →
          Runs (.chopperDriveTimeout t c) s s)
      ∧ (∀ t0, v.idleSince = some t0 → hasPassed t0 (1000000 * v.regs.tIdle.toNat) s = true → ∃ u,
          Runs (.stepIdleTimeout t) s u ∧ u.tiles[t].sv.idle = true ∧ { u with tiles := s.tiles } = s)
      ∧ (v.idleSince = none → Runs (.stepIdleTimeout t) s s)
      ∧ (v.stallRun < v.regs.stallN.toNat ∨ v.regs.stalled = true → Runs (.stall t) s s)
      ∧ (v.regs.stallN.toNat ≤ v.stallRun → v.regs.stalled = false → ∃ w, w.tiles[t].sv.stallRun = 0
          ∧ w.tiles[t].sv.regs.stallCount = satInc v.regs.stallCount ∧ w.tiles[t].sv.regs.stalled = !homing
          ∧ { w with tiles := s.tiles } = s
          ∧ (homing = true → Runs (.stall t) s
              (stallHome (tileAxis t) (note Ev.stall (srcTile t) 0 v.regs.loadAngle 0 w)))
          ∧ (homing = false → Runs (.stall t) s (raise Ev.stall (srcTile t) w.policy.stall false 0 v.regs.loadAngle 0
              [tileAxis t] (markUncertain (tileAxis t) w))))
      ∧ (v.measLeft.getLsbD c.val = false ∨ hasPassed v.measAt (1000000 * v.regs.tMeas.toNat) s = false →
          Runs (.coilMeasureEnd t c m) s s)
      ∧ (v.measLeft.getLsbD c.val = true → hasPassed v.measAt (1000000 * v.regs.tMeas.toNat) s = true → ∃ w r,
          w.tiles[t].sv.measLeft.getLsbD c.val = false
          ∧ (if c = 0 then w.tiles[t].sv.regs.measR0 else w.tiles[t].sv.regs.measR1) = r
          ∧ r = f32Div m.volts m.amps (freeWord s) ∧ w.axes = s.axes ∧ w.power = s.power
          ∧ (f149 r < f149 v.regs.rMin → Runs (.coilMeasureEnd t c m) s (measureFails t c 1 w))
          ∧ (f149 v.regs.rMin ≤ f149 r → lowCurrent v.regs m.amps = true ∨
              (0 < f149 v.regs.rMax ∧ f149 v.regs.rMax < f149 r) → Runs (.coilMeasureEnd t c m) s (measureFails t c 2 w))
          ∧ (f149 v.regs.rMin ≤ f149 r → lowCurrent v.regs m.amps = false → f149 v.regs.rMax ≤ 0 ∨ f149 r ≤ f149 v.regs.rMax →
              Runs (.coilMeasureEnd t c m) s (if w.tiles[t].sv.measLeft = 0 then stageCoils t w else w)))
      ∧ (v.settling = true → hasPassed v.measAt 1000000 s = true → ∃ w, w.tiles[t].sv.settling = false
          ∧ w.axes[tileAxis t].regs.spPos = s.axes[tileAxis t].regs.actPos ∧ w.axes[tileAxis t].regs.spVel = 0
          ∧ w.axes[tileAxis t].regs.spAcc = 0 ∧ { w with tiles := s.tiles, axes := s.axes } = s
          ∧ Runs (.coilMeasSettleEnd t) s (startLoops t w))
      ∧ (v.settling = false → Runs (.coilMeasSettleEnd t) s s)
      ∧ (∀ t0, s.tiles[t].regs.mode = 3 → v.openSince[c] = some t0 → hasPassed t0 (1000000 * v.regs.tOpen.toNat) s = true →
          Runs (.coilOpenDetect t c) s (coilFault t c 3 (modSv t (fun v => { v with openSince := v.openSince.set c none }) s)))
      ∧ (v.openSince[c] = none → Runs (.coilOpenDetect t c) s s)

/-- Captures and the recorder: an edge is a change of the level after INVERT, qualified once it has stayed; a waiting latch
completes when both its samples have arrived; a consumed sequence number frees its records; a sample of an armed unit is taken on
every DIV-th occurrence of its source, its record ends POST samples after the trigger, and a released segment is free. -/
def Obligations.CaptureEventsRecordEdgesAndSamples : Prop :=
  ∀ (c : Fin 48) (level : Bool) (tdc : BitVec 6) (n : Nat) (seq : BitVec 16) (u : Fin 8) (k : Fin 64) (l0 l1 : LatchReq)
    (p : PendLatch) (s : State),
    let r := s.geyser.caps[c].regs
    let l := level != r.invert
    (l = r.level → Runs (.captureEdge c level tdc) s s)
      ∧ (l ≠ r.level → Runs (.captureEdge c level tdc) s (guPattern (rawEdge s c l tdc) (capRaw c l tdc s)))
      ∧ (r.level ≠ r.qualLevel → capStable s c = true → Runs (.captureQualify c) s (capQualify c s))
      ∧ (r.level = r.qualLevel ∨ capStable s c = false → Runs (.captureQualify c) s s)
      ∧ (s.geyser.latches.length ≤ n → Runs (.latchComplete n) s s)
      ∧ (s.geyser.latches[n]? = some p → p.what = .record seq c l0 l1 →
          (∀ r0 r1, recordLatch s l0 p.edge = some r0 → recordLatch (drew 2 s) l1 p.edge = some r1 →
            Runs (.latchComplete n) s (capWrite c seq (capWords s seq c p.edge l0 l1 r0 r1)
              (latchFailed c ((if namesAxis l0 && r0.isNone then 1 else 0) + (if namesAxis l1 && r1.isNone then 1 else 0))
                (drew 4 (dropLatch n s)))))
          ∧ (recordLatch s l0 p.edge = none → Runs (.latchComplete n) s s))
      ∧ (∀ k start stop a r, s.geyser.latches[n]? = some p → p.what = .mark c u k start stop →
          asFin 112 s.geyser.units[u].meas[k].axis.toNat = some a → markFirst s.geyser.latches n u k = true →
          latchAt s a false p.edge = some r → Runs (.latchComplete n) s
            (markEdge u k start stop p.edge r (latchFailed c (if r.isNone then 1 else 0) (drew 2 (dropLatch n s)))))
      ∧ Runs (.capConsumed seq) s (consumeTo seq s)
      ∧ (∀ tr, s.geyser.units[u].trig = some tr → tr.idx + s.geyser.units[u].regs.post.toNat + 1 ≤ s.geyser.units[u].count →
          ∀ w, w = guEnd u tr false true s →
          (s.geyser.units[u].regs.mode = true → Runs (.guRecordComplete u) s (modGu u guRefill w))
          ∧ (s.geyser.units[u].regs.mode = false → Runs (.guRecordComplete u) s (guFinish u false w)))
      ∧ (s.geyser.units[u].trig = none → Runs (.guRecordComplete u) s s)
      ∧ (guArmed s.geyser.units[u] = false ∨ sampleDue s s.geyser.units[u].regs.sampleSrc = false
          ∨ s.geyser.units[u].occAt = some s.dt → Runs (.guSample u) s s)
      ∧ (guArmed s.geyser.units[u] = true → sampleDue s s.geyser.units[u].regs.sampleSrc = true →
          s.geyser.units[u].occAt ≠ some s.dt →
          ∀ w g, w = guSettle u s → g = w.geyser.units[u] → guArmed g = true →
          (g.occ % (g.regs.div.toNat + 1) ≠ 0 →
            Runs (.guSample u) s (modGu u (fun g => { g with occ := g.occ + 1, occAt := some w.dt }) w))
          ∧ (g.occ % (g.regs.div.toNat + 1) = 0 → ∃ x vals n ms, Runs (.guSample u) s (guJudge u n false ms x)
            ∧ vals = g.sels.map (guValue (modGu u (fun g => { g with occ := g.occ + 1, occAt := some w.dt }) w))
            ∧ x.geyser.units[u].ring = ((w.dt, vals) :: g.ring).take (guN g) ∧ x.geyser.units[u].count = g.count + 1
            ∧ x.geyser.units[u].occ = g.occ + 1 ∧ { x with geyser := w.geyser } = w))
      ∧ (s.power.blocks.contains (BitVec.ofNat 16 (0x100 + u.val)) = false →
          Runs (.segRelease u (BitVec.ofNat 16 k.val)) s (releaseSeg u k s))

/-! ### Caldera -/

/-- Caldera watches itself: a cycle whose cores disagree twice running, a clock off by more than 15,000 ppm and a failed self-test
each latch its fault, which is held; a switch bank is taken when two reads agree, and a bad read or a changed bank is told;
a snapshot shows its registers. -/
def Obligations.CalderaChecksItself : Prop :=
  ∀ (agree : Bool) (m f : Int) (reads : Vector (BitVec 16) 18) (phase : Nat) (cause : BitVec 8) (s : State),
    let c := s.caldera
    let seen := modCal (fun c => { c with last := reads[0] }) s
    let cycle (w : State) := (List.finRange 4).foldl (fun s o => cycleSbo o s)
      (cycleGroup 1 (cycleGroup 0 (modCal (fun c => { c with disagreed := !agree }) w)))
    (agree = true ∨ c.disagreed = false → Runs (.calderaCycle agree) s (cycle s))
      ∧ (agree = false → c.disagreed = true → Runs (.calderaCycle agree) s (cycle (calderaFault 1 s)))
      ∧ (m.natAbs ≤ 15000 → f.natAbs ≤ 15000 → Runs (.calderaClockCheck m f) s s)
      ∧ (15000 < m.natAbs ∨ 15000 < f.natAbs → Runs (.calderaClockCheck m f) s (calderaFault 2 s))
      ∧ (c.selfTest = true ∨ c.fault.isSome = true → ∀ ok, Runs (.calderaSelfTest ok) s s)
      ∧ (c.selfTest = false → c.fault = none → ∀ w,
          w = modPower (fun p => if p.boot = .caldera then bootStart s.dt p else p) s →
          Runs (.calderaSelfTest true) s (modCal (fun c => { c with selfTest := true }) w)
          ∧ Runs (.calderaSelfTest false) s (calderaFault 3 w))
      ∧ (c.fault.isSome = true → calderaFault cause s = s)
      ∧ (c.readFault = true ∨ c.changed = true → Runs (.switchBankRead reads) s seen)
      ∧ (c.readFault = false → c.changed = false → bankFault reads = some phase →
          Runs (.switchBankRead reads) s (safecfgFault (natWord phase) seen))
      ∧ (c.readFault = false → c.changed = false → bankFault reads = none →
          (c.cfgTaken = true → reads[0] = c.used → Runs (.switchBankRead reads) s seen)
          ∧ (c.cfgTaken = true → reads[0] ≠ c.used → Runs (.switchBankRead reads) s
              (allSboOff (bothSto Ev.safecfgChanged (calFaultEv Ev.safecfgChanged (groupMask 0 ||| groupMask 1)
                (reads[0].zeroExtend 32) 0 (modCal (fun c => { c with changed := true }) seen)))))
          ∧ (c.cfgTaken = false → c.firstRead ≠ some reads[0] →
              Runs (.switchBankRead reads) s (modCal (fun c => { c with firstRead := some reads[0] }) seen))
          ∧ (c.cfgTaken = false → c.firstRead = some reads[0] → ∀ w,
              w = modCal (fun c => { c with used := reads[0], cfgTaken := true }) seen →
              (cfgValue reads[0] = true → Runs (.switchBankRead reads) s w)
              ∧ (cfgValue reads[0] = false → Runs (.switchBankRead reads) s
                  (calFaultEv Ev.safecfgFault (groupMask 0 ||| groupMask 1) (freeWord w) 0 (drawn w)))))
      ∧ (∃ t, Runs .calderaSnapshot s t ∧ t.caldera.regs = snapRegs s ∧ t.caldera.snapSeq = c.snapSeq + 1
          ∧ t.caldera.snapAt = s.dt ∧ t.caldera.groups = c.groups ∧ { t with caldera := s.caldera } = s)

/-- Safety inputs: a sample moves every channel by its level, a channel flips once it has read the other level for F, a pair that
disagrees for T_disc latches, a crossed or missing test pulse latches its channel, the end of a test period judges every source,
and a reset press of 100 ms to 5 s clears the groups that ask for nothing. -/
def Obligations.SafetyInputsAreFilteredAndCompared : Prop :=
  ∀ (high : BitVec 16) (follows : BitVec 4) (i : Fin 8) (ch : Fin 16) (missing : Bool) (s : State),
    let c := s.caldera
    let x := c.inputs[i]
    let y := calChannel c ch
    let pressed := c.inputs[(7 : Fin 8)].pressed
    let judged : Bool := if missing then pulseMissing c ch else foreignPulse c ch
    let good := BitVec.ofNat 16 (maskOf fun ch : Fin 16 => patternGood c ch)
    let takes (g : Fin 2) : Bool := !groupDemand c g && resetKinds c g
    let mask (g : Fin 2) : Word := if takes g then groupMask g else 0
    (Runs (.safetyInputSample high) s ((List.finRange 8).foldl (fun s i =>
        if !s.caldera.inputs[i].disc && discTicks s.caldera.used + 1 ≤ s.caldera.inputs[i].disagree
        then latchDiscrepancy i s else s) (modCal (sampleInputs high) s)))
      ∧ ((sampleInputs high c).tick = (c.tick + 1) % testTicks
          ∧ (sampleInputs high c).inputs[i] = sampleInput ((c.tick + 1) % testTicks) high i x
          ∧ (sampleInputs high c).groups = c.groups)
      ∧ (x.disc = true ∨ x.disagree + 1 ≤ discTicks c.used → Runs (.discrepancy i) s s)
      ∧ (x.disc = false → discTicks c.used ≤ x.disagree → ∃ t, Runs (.discrepancy i) s t ∧ t = latchDiscrepancy i s
          ∧ t.caldera.inputs[i].disc = true ∧ t.caldera.discCount = satInc c.discCount)
      ∧ (y.crossShort = true ∨ judged = false → Runs (.crossShort ch missing) s s)
      ∧ (y.crossShort = false → judged = true → Runs (.crossShort ch missing) s (requests (crossShortEv (ch.val / 2)
          (if missing then 2 else 1) (modChannel ch (fun x => { x with crossShort := true, goodPeriods := 0 }) s))))
      ∧ (c.periodOver = false → Runs (.testPulsePeriod follows) s s)
      ∧ (c.periodOver = true → Runs (.testPulsePeriod follows) s (requests ((List.finRange 4).foldl
          (fun s k => tpPeriod k (follows.getLsbD k.val) s)
          (modCal (fun c => { c with periodOver := false
                                     inputs := Vector.ofFn fun i => shortPeriod good i c.inputs[i] }) s))))
      ∧ (y.filtered = true → y.releasedRun < filtTicks c.used → Runs (.filteredDemandChange ch) s s)
      ∧ (y.filtered = false → y.demandRun < filtTicks c.used → Runs (.filteredDemandChange ch) s s)
      ∧ ((if y.filtered then filtTicks c.used ≤ y.releasedRun else filtTicks c.used ≤ y.demandRun) → ∃ w,
          Runs (.filteredDemandChange ch) s (requests w) ∧ (calChannel w.caldera ch).filtered = !y.filtered
          ∧ { w with caldera := s.caldera } = s)
      ∧ (pressed < 1000 ∨ 50000 < pressed ∨ c.inputs[(7 : Fin 8)].disc = true ∨ (takes 0 = false ∧ takes 1 = false) →
          Runs .resetAccepted s s)
      ∧ (1000 ≤ pressed → pressed ≤ 50000 → c.inputs[(7 : Fin 8)].disc = false → takes 0 = true ∨ takes 1 = true → ∀ w,
          w = calRaise Ev.resetAccepted .note (mask 0 ||| mask 1) 0 0 []
            (calCount (·.resetCount) (fun c n => { c with resetCount := n }) (modInput 7 (fun x => { x with pressed := 0 }) s)) →
          (takes 0 = true → takes 1 = true → Runs .resetAccepted s (resetGroup 1 (resetGroup 0 w)))
          ∧ (takes 0 = true → takes 1 = false → Runs .resetAccepted s (resetGroup 0 w))
          ∧ (takes 0 = false → takes 1 = true → Runs .resetAccepted s (resetGroup 1 w)))

/-- Safe torque off and its companions: the lines of a tile step only while its group, its generator and its heartbeat allow it;
a lost carrier stops them and 1 ms of it lets them run again; SS1 ends in STO after its time or at standstill; a requested speed
limit is monitored after its time; the safe speed follows the counts; a failed brake-output test switches the output off and
stops its group. -/
def Obligations.SafetyFunctionsStopTheirGroup : Prop :=
  ∀ (t : Fin 16) (g : Fin 2) (o : Fin 4) (hi lo : Bool) (counts : Vector Word 16) (ill quad amp : BitVec 16) (s : State),
    let c := s.caldera
    let x := c.groups[g]
    let og := sboGroup o
    (carrierRuns s t = true → Runs (.heartbeatLoss t) s s)
      ∧ (carrierRuns s t = false → ∃ w, Runs (.heartbeatLoss t) s w ∧ w.caldera.tiles[t].heartbeat = false
        ∧ w.caldera.tiles[t].beats = 0 ∧ w.caldera.tiles[t].toggling = false
        ∧ w.caldera.tiles[t].genA = false ∧ w.caldera.tiles[t].genB = false
        ∧ (∀ u : Fin 16, u ≠ t → w.caldera.tiles[u] = c.tiles[u]) ∧ { w with caldera := c } = s)
      ∧ (carrierRuns s t = false ∨ c.tiles[t].beats < 20 → Runs (.heartbeatResume t) s s)
      ∧ (carrierRuns s t = true → 20 ≤ c.tiles[t].beats → ∃ w, Runs (.heartbeatResume t) s w
        ∧ w.caldera.tiles[t] = { c.tiles[t] with heartbeat := true } ∧ { w with caldera := c } = s)
      ∧ (∀ lands : BitVec 32, genWrong c lands = 0 → ∃ w, Runs (.genHalfPeriod lands) s w
          ∧ w.caldera.tiles[t].toggling = genOn c t
          ∧ w.caldera.tiles[t].genA = (genOn c t && !c.tiles[t].genA) ∧ w.caldera.tiles[t].genB = (genOn c t && c.tiles[t].genA)
          ∧ w.caldera.tiles[t].beats = (if carrierRuns s t then c.tiles[t].beats + 1 else 0)
          ∧ w.caldera.groups = c.groups ∧ { w with caldera := c } = s)
      ∧ (x.phase = .sto → genOn c t = false ∨ safetyGroup t ≠ g)
      ∧ (x.phase = .ss1 → ss1Ms c.used ≤ x.ss1Ms → Runs (.ss1Timeout g) s (faultSto Ev.ss1Started g s))
      ∧ (x.phase ≠ .ss1 ∨ x.ss1Ms < ss1Ms c.used → Runs (.ss1Timeout g) s s)
      ∧ (x.phase = .ss1 → stopFn c.used g = 2 → 10 ≤ x.stillMs →
          Runs (.ss1rStandstill g) s (faultSto Ev.ss1Started g s))
      ∧ (x.phase ≠ .ss1 ∨ stopFn c.used g ≠ 2 ∨ x.stillMs < 10 → Runs (.ss1rStandstill g) s s)
      ∧ (x.slsRequested = true → ss1Ms c.used ≤ (c.ms - x.slsFrom).toNat → ∃ w, Runs (.slsMonitorStart g) s w
          ∧ w.caldera.groups[g] = { x with slsMonitoring := true } ∧ { w with caldera := c } = s)
      ∧ (x.slsRequested = false ∨ (c.ms - x.slsFrom).toNat < ss1Ms c.used → Runs (.slsMonitorStart g) s s)
      ∧ (∃ w, Runs (.safeSpeedUpdate counts ill quad amp) s (monitor ill 1 (monitor ill 0 w))
          ∧ w.caldera.ms = c.ms + 1 ∧ w.caldera.tiles[t].count = counts[t]
          ∧ w.caldera.tiles[t].v = BitVec.ofInt 32 ((counts[t] - c.tiles[t].hist.getD 7 0).toInt * 125)
          ∧ w.caldera.tiles[t].hist = (counts[t] :: c.tiles[t].hist).take 8 ∧ { w with caldera := c } = s)
      ∧ (sbcOn c.used og = false → Runs (.sboTest o hi lo) s s)
      ∧ (sbcOn c.used og = true → ∃ w, Runs (.sboTest o true true) s w ∧ w.caldera.sbos[o].testOk = true
          ∧ w.caldera.sbos[o].fault = c.sbos[o].fault ∧ { w with caldera := c } = s)
      ∧ (sbcOn c.used og = true → (hi && lo) = false → ∃ w, w.caldera.sbos[o].high = false ∧ w.caldera.sbos[o].low = false
          ∧ w.caldera.sbos[o].fault = true ∧ w.caldera.groups[og].sboFault = true ∧ { w with caldera := c } = s
          ∧ (c.sbos[o].fault = true → Runs (.sboTest o hi lo) s w)
          ∧ (c.sbos[o].fault = false → Runs (.sboTest o hi lo) s
              (faultSto Ev.sboFault og (calFaultEv Ev.sboFault (natWord o.val) 0 0 w))))

/-! ### Field I/O and CAN -/

/-- Field inputs and frames: a transition joins its channel's changes with its instant in DT rounded down to 100 ns; a good frame
ends the link fault and brings levels, currents and changes, a bad one is counted; the field die applies a frame whole, goes to
its fail-safe states 100 us after the last one, and 20 us of silence are told once.
Field outputs: the third thermal shutdown latches its channel off and the first two do not; a channel on while applied off is
taken for a short to the supply; reverse current starts a search that switches candidates off one by one until the comparator is
quiet; a group overload and an undervoltage switch outputs off, and the end of an undervoltage brings them back. -/
def Obligations.FieldEventsCarryAndProtect : Prop :=
  (∀ (c : Fin 24) (on crc : Bool) (edge map : BitVec 96) (f : FioFrame) (s : State),
    let deb := 1000 * s.fio.chans[c].regs.deb.toNat - 50
    (s.fio.chans[c].fieldQual = on ∨ hasPassed (edge + s.fio.timeMap) deb s = false → Runs (.fioInputQualify c on edge) s s)
      ∧ (s.fio.chans[c].fieldQual ≠ on → hasPassed (edge + s.fio.timeMap) deb s = true → ∃ t, Runs (.fioInputQualify c on edge) s t ∧ t.fio.chans[c].fieldQual = on
          ∧ t.fio.chans[c].changes = s.fio.chans[c].changes ++ [(on, down100 (edge + s.fio.timeMap))]
          ∧ { t with fio := s.fio } = s)
      ∧ (∃ t, Runs (.fioFrameReceive false f) s t ∧ t.fio.regs.linkCrcErrCount = satInc s.fio.regs.linkCrcErrCount
          ∧ t.fio.chans = s.fio.chans ∧ { t with fio := s.fio } = s)
      ∧ (∃ w, Runs (.fioFrameReceive true f) s ((List.finRange 24).foldl (fun s c => fioChanges c s) w)
          ∧ w.fio.linkFault = false ∧ w.fio.regs.linkOk = true ∧ w.fio.compActive = f.reverse
          ∧ w.fio.regs.vinMv = BitVec.ofNat 16 (f.vin.toNat / 100 * 100) ∧ w.fio.frameAt = s.dt
          ∧ w.fio.chans[c].regs.raw = f.raw.getLsbD c.val ∧ w.fio.chans[c].regs.curLimit = f.limit.getLsbD c.val
          ∧ { w with fio := s.fio } = { clearCond Ev.fioLinkFault allAxes s with fio := s.fio })
      ∧ (∃ t, Runs (.fioTimeTransfer map) s t ∧ t.fio.timeMap = map ∧ { t with fio := s.fio } = s)
      ∧ Runs .fioFrameApply s (modFieldIo (fun f => fioTake s.dt { f with fsLink := false, applyAt := s.dt }) s)
      ∧ (hasPassed s.fio.applyAt 100000 s = true →
          Runs .fioFailsafe s (modFieldIo (fun f => fioFailsafeOn s.dt (fun _ => true) { f with fsLink := true }) s))
      ∧ (hasPassed s.fio.applyAt 100000 s = false → Runs .fioFailsafe s s)
      ∧ (s.fio.linkFault = true ∨ hasPassed s.fio.frameAt 20000 s = false → Runs .fioLinkFault s s)
      ∧ (s.fio.linkFault = false → hasPassed s.fio.frameAt 20000 s = true → ∃ w, w.fio.linkFault = true ∧ w.fio.regs.linkOk = false
          ∧ w.fio.regs.linkFaultCount = satInc s.fio.regs.linkFaultCount ∧ { w with fio := s.fio } = s
          ∧ Runs .fioLinkFault s (raiseEv { code := Ev.fioLinkFault, src := srcFioGroup 0, t := down100 s.dt, unc := 200,
                                            cls := s.policy.fioLink } true (fioAxes w) w)))
  ∧ (∀ (c k : Fin 24) (g : Fin 3) (mv : BitVec 16) (s : State),
    let ch := s.fio.chans[c]
    let x := ch.regs
    let y := s.fio.groups[g]
    let isOver : Bool := s.fio.overAt[g].any fun t => hasPassed t 10000000 s
    let back : Bool := s.fio.vinAt.any fun t => hasPassed t 10000000 s
    let u := s.fio.regs
    (x.applied = false → Runs (.outThermalShutdown c) s s)
      ∧ (x.applied = true → x.shutdowns.toNat < 2 → Runs (.outThermalShutdown c) s (refreshFio (modFio c (fun x =>
          { x with hot := true, heatAt := s.dt, regs := { x.regs with shutdowns := x.regs.shutdowns + 1 } }) s)))
      ∧ (x.applied = true → 2 ≤ x.shutdowns.toNat → ∃ w, w.fio.chans[c].regs.overload = true ∧ w.fio.chans[c].hot = false
          ∧ w.fio.chans[c].regs.shutdowns = 3 ∧ w.fio.chans[c].regs.overloadCount = satInc x.overloadCount
          ∧ { w with fio := s.fio } = s
          ∧ Runs (.outThermalShutdown c) s (fioNote Ev.outOverload (srcFio c) 0 0 (refreshFio w)))
      ∧ (ch.hot = true → Runs (.outThermalRestart c) s (refreshFio (modFio c (fun x => { x with hot := false, heatAt := s.dt }) s)))
      ∧ (ch.hot = false → Runs (.outThermalRestart c) s s)
      ∧ (x.applied = true → hasPassed ch.appliedAt 1000000000 s = true → hasPassed ch.heatAt 1000000000 s = true → ∃ t,
          Runs (.shutdownCountReset c) s t ∧ t.fio.chans[c] = { ch with regs := { x with shutdowns := 0 } }
          ∧ { t with fio := s.fio } = s)
      ∧ (x.applied = false ∨ hasPassed ch.appliedAt 1000000000 s = false ∨ hasPassed ch.heatAt 1000000000 s = false →
          Runs (.shutdownCountReset c) s s)
      ∧ (x.dir = true → x.applied = false → x.shortVin = false → fioSearched s c = false → rawFor10 true c s = true →
          hasPassed ch.appliedAt 10000000 s = true → Runs (.outShortVin c) s (shortVin c s))
      ∧ (x.dir = false ∨ x.applied = true ∨ x.shortVin = true ∨ rawFor10 true c s = false → Runs (.outShortVin c) s s)
      ∧ (rawFor10 false c s = true → ∃ t, Runs (.shortVinClear c) s t
          ∧ t.fio.chans[c] = { ch with regs := { x with shortVin := false } } ∧ { t with fio := s.fio } = s)
      ∧ (rawFor10 false c s = false → Runs (.shortVinClear c) s s)
      ∧ (x.dir = true → x.applied = false → hasPassed ch.appliedAt 50000 s = true → x.backfeed = false →
          fioSearched s c = false → s.fio.subjects.contains c = false → u.undervolt = false → Runs (.backfeedSearchStart c) s
          (searchWaiting 25 (modFieldIo (fun f => { f with
            compActive := f.compActive ||| (1 <<< c.val), subjects := f.subjects ++ [c] }) s)))
      ∧ (x.dir = false ∨ x.applied = true ∨ x.backfeed = true ∨ u.undervolt = true
          ∨ hasPassed ch.appliedAt 50000 s = false → Runs (.backfeedSearchStart c) s s)
      ∧ (s.fio.candidate = none ∨ hasPassed s.fio.candidateAt 1000000 s = false → ∀ on, Runs (.backfeedCandidateCheck on) s s)
      ∧ (s.fio.candidate = some k → asFin 24 u.searchSubject.toNat = some c → hasPassed s.fio.candidateAt 1000000 s = true →
          (∃ w, w.fio.compActive.getLsbD c.val = true ∧ w.fio.chans[k].searchOff = false ∧ { w with fio := s.fio } = s
            ∧ Runs (.backfeedCandidateCheck true) s (searchWaiting 25 (searchNext c (refreshFio w))))
          ∧ (∃ w, w.fio.compActive.getLsbD c.val = false ∧ w.fio.chans[k].searchOff = false ∧ { w with fio := s.fio } = s
            ∧ Runs (.backfeedCandidateCheck false) s (searchWaiting 25 (searchStop (fioNote Ev.outBackfeed (srcFio c)
              (natWord c.val) (natWord k.val) (backfed k c false (backfed c k true w)))))))
      ∧ (y.groupOverload = true ∨ isOver = false → Runs (.groupOverload g) s s)
      ∧ (y.groupOverload = false → isOver = true → ∃ w, w.fio.groups[g].groupOverload = true
          ∧ w.fio.groups[g].groupCurrent = y.groupCurrent ∧ w.fio.groups[g].groupOlCount = satInc y.groupOlCount
          ∧ { w with fio := s.fio } = s ∧ Runs (.groupOverload g) s
            (fioNote Ev.groupOverload (srcFioGroup g.val) 0 (y.groupCurrent.zeroExtend 32) (refreshFio w)))
      ∧ (u.undervolt = true ∨ 15300 < mv.toNat → Runs (.outUndervolt mv) s s)
      ∧ (u.undervolt = false → mv.toNat ≤ 15300 → ∃ w, w.fio.regs.undervolt = true ∧ w.fio.regs.undervoltCount = satInc u.undervoltCount
          ∧ w.fio.subjects = [] ∧ Runs (.outUndervolt mv) s (fioNote Ev.outUndervolt (srcFioGroup 0) 7 (mv.zeroExtend 32)
            (refreshFio w)))
      ∧ (u.undervolt = false ∨ back = false → Runs .undervoltEnd s s)
      ∧ (u.undervolt = true → back = true → ∀ w, w = modFioModule (fun r => { r with undervolt := false }) s →
          (u.restore = false → Runs .undervoltEnd s (outputsBack w))
          ∧ (u.restore = true → Runs .undervoltEnd s (refreshFio (modFieldIo (fun f => { f with restoreOwed := true }) w)))))

/-- The CAN bus as a controller that is not held sees it, once its schedule has caught up: a column starts its object's frame or
misses it, a restart falls due at its instant, a frame sent completes its request and one that met an error counts as an attempt; a
lost arbitration, the return to the bus, integration, a requested mode, sleep and wake change the state that R533 to R539 give; a
received frame is counted and goes to the queue of the first filter that it matches.
The receive window: reading word 0 locks the head entry, word 19 under the lock removes it, and no other read changes
anything; an empty queue has nothing to lock. -/
def Obligations.CanEventsMoveFramesAndStates : Prop :=
  (∀ (n : Fin 4) (col : Fin 64) (x : CanColumn) (q : CanReq) (j : Fin 64) (err kind m : BitVec 3) (rule : Fin 4) (at_ : Fix)
    (ns : Nat) (f : CanFrame) (k : Fin 32) (busy : Nat) (loop : Option Nat) (s : State), canHeld s n = false →
    ∀ w, w = canSettle n s →
    let c := w.cans[n]
    let cell := x.cells.getD c.regs.cycleNow.toNat 0
    let ref : Bool := cell.extractLsb' 0 2 = 3
    let up := c.regs.mode = 1 ∧ c.regs.integrating = false ∧ c.regs.errState.toNat < 2
    let hears := c.regs.mode ≠ 0 ∧ c.regs.mode ≠ 4 ∧ c.regs.integrating = false ∧ c.regs.errState.toNat < 2
    (c.columns[col] = none → Runs (.ttColumnInstant n col busy) s w)
      ∧ (c.columns[col] = some x → c.regs.ttRunning = true → c.regs.mode = 1 → atColumn c x w.dt = true →
          ref = true ∨ cell.extractLsb' 0 2 = 1 → j = (cell.extractLsb' 2 6).toFin →
          ∀ v, v = ttTake n j (modCan n (fun c => { c with
            ttWindow := false
            ttClose := fixNat (w.dt.toNat + windowNs2 c.regs x.txen.toNat * 2 ^ 31) }) w) →
          (x.txen.toNat ≤ busy → Runs (.ttColumnInstant n col busy) s (ttMissed n j false v))
          ∧ (busy < x.txen.toNat → c.regs.integrating = false → c.regs.errState.toNat < 2 →
              Runs (.ttColumnInstant n col busy) s (modCan n (fun c => { c with
                ttObject := some j, ttFrame := ttFrameOf c.objects[j] ref c.regs.cycleNow }) v)))
      ∧ (c.ttReload = some at_ → at_.toNat ≤ w.dt.toNat → ∃ v, v.cans[n].ttReload = none ∧ v.cans[n].regs.ttRunning = true
          ∧ v.cans[n].regs.ttRestartCount = satInc c.regs.ttRestartCount ∧ { v with cans := w.cans } = w
          ∧ Runs (.ttRestart n) s (canNote n Ev.ttRestart 0 0 0 v))
      ∧ (c.ttReload = none → Runs (.ttRestart n) s w)
      ∧ (up → c.ttObject = none → busReq c = some q → c.regs.ttRunning = false ∨ c.ttWindow = true →
          ∀ v, v = measureLoop n q.brs loop (ttEnd n (windowAfter n w)) →
          Runs (.canTxFrameEnd n 0 loop) s (complete n q.handle (if q.cancel then 1 else 0) (natWord (q.attempts + 1))
            (sentFrame n (reqFrame q) v))
          ∧ (err ≠ 0 → err.toNat ≤ 5 →
              Runs (.canTxFrameEnd n err loop) s (failedFrame n err.toNat (attemptFailed n q err.toNat v))))
      ∧ (up → c.ttObject = some j →
          ∀ v, v = measureLoop n c.ttFrame.brs loop (ttEnd n (modCan n (fun c => { c with ttObject := none }) w)) →
          Runs (.canTxFrameEnd n 0 loop) s (sentFrame n c.ttFrame v)
          ∧ (err ≠ 0 → err.toNat ≤ 5 → Runs (.canTxFrameEnd n err loop) s (failedFrame n err.toNat (ttMissed n j true v))))
      ∧ (up → c.ttObject = none → busReq c = some q → c.regs.ttRunning = false ∨ c.ttWindow = true → ∃ v,
          v.cans[n].regs.arbLostCount = satInc c.regs.arbLostCount ∧ { v with cans := s.cans } = { w with cans := s.cans }
          ∧ Runs (.canArbitrationLost n) s (attemptFailed n q 6 (ttEnd n (windowAfter n v))))
      ∧ (up → c.ttObject = none → busReq c = none →
          Runs (.canTxFrameEnd n err loop) s w ∧ Runs (.canArbitrationLost n) s w)
      ∧ (c.regs.errState = 3 → ∃ v, v.cans[n].regs = { c.regs with errState := 0, tec := 0, recField := 0 }
          ∧ { v with cans := w.cans } = w ∧ Runs (.canBusOn n) s (canNote n Ev.busOn 0 0 0 v))
      ∧ (c.regs.errState ≠ 3 → Runs (.canBusOn n) s w)
      ∧ (∃ v, Runs (.canIntegrationDone n) s v ∧ v.cans[n].regs.integrating = false ∧ { v with cans := w.cans } = w)
      ∧ (c.modeReq = some m → Runs (.canModeChangeApply n) s (enterMode n m w))
      ∧ (c.modeReq = none → Runs (.canModeChangeApply n) s w)
      ∧ (c.sleepReq = true → ∃ v, v.cans[n].regs.mode = 4 ∧ v.cans[n].sleepReq = false ∧ v.cans[n].modeReq = none
          ∧ { v with cans := w.cans } = w ∧ Runs (.canSleepEnter n) s (completeAll n 6 v))
      ∧ (c.sleepReq = false → Runs (.canSleepEnter n) s w)
      ∧ (c.regs.mode ≠ 4 → Runs (.canWake n (.edge ns)) s w ∧ Runs (.canWake n .error) s w)
      ∧ (c.regs.mode = 4 → c.regs.wakeMode = false →
          (c.regs.wakeFilt.toNat * 100 ≤ ns → Runs (.canWake n (.edge ns)) s (wake n 0 w))
          ∧ (ns < c.regs.wakeFilt.toNat * 100 → Runs (.canWake n (.edge ns)) s w))
      ∧ (c.regs.mode = 4 → c.regs.wakeMode = true →
          (wakeMatch c.regs f = true → Runs (.canWake n (.frame f)) s (wake n 1 w))
          ∧ (wakeMatch c.regs f = false → Runs (.canWake n (.frame f)) s w)
          ∧ Runs (.canWake n .error) s (wakeError n w) ∧ Runs (.canBusError n kind rule) s (wakeError n w))
      ∧ (up → Runs (.canBusError n kind rule) s
          (setCounters n (isoCounters c.regs rule).1 (isoCounters c.regs rule).2 (countError n kind.toNat w)))
      ∧ (c.regs.mode = 0 → Runs (.canBusError n kind rule) s w ∧ Runs (.canFrameReceive n f) s w)
      ∧ (hears → c.regs.fdEn = true ∨ f.ident.getLsbD 30 = false → ∀ a b v,
          a = canCount n (·.rxFrameCount) (fun r v => { r with rxFrameCount := v }) w →
          b = (if c.regs.mode = 1 then setCounters n c.regs.tec (recAfter a c.regs.recField) (drawn a) else a) →
          v = modCan n (fun c => { c with filtersWas := c.filtersWas.filter fun x => decide (f.sof.toNat ≤ (nsOf x.1).toNat) }) b →
          let fs := filtersAt c.filters f.sof c.filtersWas
          ∀ hit, hit = ((List.finRange 32).find? fun k => fs[k].fltEn && ((f.ident ^^^ fs[k].fltMatch) &&& fs[k].fltMask) = 0) →
          (hit = some k → fs[k].fltAction = 0 → Runs (.canFrameReceive n f) s (rxStore n 0 f (some k.val) v))
          ∧ (hit = some k → fs[k].fltAction = 1 → Runs (.canFrameReceive n f) s (rxStore n 1 f (some k.val) v))
          ∧ (hit = some k → 1 < fs[k].fltAction.toNat → Runs (.canFrameReceive n f) s v)
          ∧ (hit = none → c.regs.nomatchField = true → Runs (.canFrameReceive n f) s (rxStore n 1 f none
              (canCount n (·.nomatchCount) (fun r v => { r with nomatchCount := v }) v)))
          ∧ (hit = none → c.regs.nomatchField = false → Runs (.canFrameReceive n f) s
              (canCount n (·.nomatchCount) (fun r v => { r with nomatchCount := v }) v))))
  ∧ (∀ (n : Fin 4) (q : Fin 2) (w : Fin 20) (s : State),
    let c := s.cans[n]
    (c.entries[q] = [] → Runs (.rxqWinRead n q w) s s)
      ∧ (canHeld s n = false → c.entries[q] ≠ [] →
          (∃ t, Runs (.rxqWinRead n q 0) s t ∧ t.cans[n].rxq[q].locked = true ∧ t.cans[n].entries = c.entries
            ∧ { t with cans := s.cans } = s)
          ∧ (c.rxq[q].locked = true → ∃ t, Runs (.rxqWinRead n q 19) s t ∧ t.cans[n].entries[q] = c.entries[q].drop 1
            ∧ t.cans[n].rxq[q].locked = false)
          ∧ (w ≠ 0 → w ≠ 19 ∨ c.rxq[q].locked = false → Runs (.rxqWinRead n q w) s s)))

/-! ### Power, reset and temperature -/

/-- The bring-up: power starts it from off, RESET_N and a brownout start a cold episode, its release begins the trim, the trim
samples the straps or fails three times, the clocks lock as they are strapped or fall back, and the source being booted starts
where its check passes and falls back where it does not. -/
def Obligations.BringUpFollowsItsSteps : Prop :=
  ∀ (ok : Bool) (straps : BitVec 6) (fw v : Word) (mv ns : Nat) (s : State),
    let p := s.power
    (p.boot = .off → p.hibernating = false → Runs .powerOn s (assertPowerOn s))
      ∧ (p.boot ≠ .off ∨ p.hibernating = true → Runs .powerOn s s)
      ∧ (p.boot = .off → Runs .brownout s s)
      ∧ (p.boot ≠ .off → Runs .brownout s
          (assertCold 0x04 (bumpPower (·.brownoutCount) (fun r v => { r with brownoutCount := v })
            (modPower (fun p => { p with brownHeld := true }) s))))
      ∧ (25000 ≤ ns → Runs (.resetNInput true ns) s
          (assertCold 0x02 (modPower (fun p => { p with resetNHeld := true }) (drawn s))))
      ∧ (ns < 10000 → Runs (.resetNInput true ns) s (drawn s))
      ∧ (∃ t, Runs (.resetNInput false ns) s t ∧ t.power.resetNHeld = false ∧ { t with power := p, freeCtr := s.freeCtr } = s)
      ∧ (p.hibernating = true → 10000 ≤ mv → 1000000 ≤ ns → ∃ w, w.power.wakeHigh = true
          ∧ { w with power := p, freeCtr := s.freeCtr } = s ∧ Runs (.wakeInput mv ns) s (assertPowerOn w))
      ∧ (p.hibernating = false ∨ mv < 5000 → ∃ t, Runs (.wakeInput mv ns) s t ∧ t.power.boot = p.boot
          ∧ t.power.hibernating = p.hibernating)
      ∧ (p.boot = .held → p.resetNHeld = false →
          Runs .resetRelease s (recordEpisode (modPower (fun p => { p with boot := .trim, brownHeld := false }) s)))
      ∧ (p.boot ≠ .held ∨ p.resetNHeld = true → Runs .resetRelease s s)
      ∧ (p.boot = .trim → Runs (.trimLoadComplete true straps) s (sampleStraps straps s))
      ∧ (p.boot = .trim → ∃ t, Runs (.trimLoadComplete false straps) s t ∧ t.power.regs.trimTries = p.regs.trimTries + 1
          ∧ (p.regs.trimTries = 2 → t.ocp.ident.trimFail = true ∧ t.power.boot = .rom)
          ∧ (p.regs.trimTries ≠ 2 → t.power.boot = .trim))
      ∧ (p.boot = .clocks → (p.clkSel = 3 → Runs (.clockLock ok) s (clocksLocked 3 s))
          ∧ (p.clkSel = 2 → Runs (.clockLock true) s (clocksLocked 2 s) ∧ Runs (.clockLock false) s (clkFallback s))
          ∧ (p.clkSel ≠ 2 → p.clkSel ≠ 3 → Runs (.clockLock true) s (clocksLocked 1 s) ∧ Runs (.clockLock false) s s)
          ∧ (p.clkSel = 1 → Runs .clockRecoveryTimeout s (clkFallback s)))
      ∧ (p.boot ≠ .clocks → Runs (.clockLock ok) s s ∧ Runs .clockRecoveryTimeout s s)
      ∧ (p.boot = .networkLoad → Runs (.bootComplete true fw) s (finishBoot fw s)
          ∧ Runs (.bootComplete false fw) s (networkFailed s)
          ∧ (loadOver s = true → Runs .networkLoadTimeout s (networkFailed s)))
      ∧ (p.boot = .boot → (p.imageOk = true → Runs (.bootComplete ok fw) s (finishBoot fw s))
          ∧ (p.imageOk = false → Runs (.bootComplete true fw) s
              (finishBoot fw (modPowerRegs (fun r => { r with bootSrc := bankCode p.bankB }) s)))
          ∧ (p.imageOk = false → p.triedOther = true → ∃ t, Runs (.bootComplete false fw) s t ∧ t.power.boot = .rom
              ∧ t.power.regs.bootFb = true ∧ { t with power := p } = s)
          ∧ (p.imageOk = false → p.triedOther = false → Runs (.bootComplete false fw) s
              (bootFallback ((bankCode p.bankB).zeroExtend 32) (fun p => { p with bankB := !p.bankB, triedOther := true }) s)))
      ∧ (p.boot = .hostLoad → (p.bootLength.toNat ≤ 0xC00000 → ∃ t, Runs (.bootDoorbell 0x4C4F4144 true) s t
            ∧ t.power = { p with boot := .boot, imageOk := true } ∧ { t with power := p } = s)
          ∧ (0xC00000 < p.bootLength.toNat → Runs (.bootDoorbell 0x4C4F4144 true) s (bootFallback 5 toBankA s))
          ∧ Runs (.bootDoorbell 0x4C4F4144 false) s (bootFallback 5 toBankA s)
          ∧ (loadOver s = true → Runs .hostLoadTimeout s (bootFallback 5 toBankA s)))
      ∧ (loadOver s = false → Runs .hostLoadTimeout s s ∧ Runs .networkLoadTimeout s s)
      ∧ (p.boot ≠ .hostLoad ∨ v ≠ 0x4C4F4144 → Runs (.bootDoorbell v ok) s s)
      ∧ (p.cpReset = true → p.cpReleased = false → hasPassed p.cpAt 50000 s = true →
          Runs .cpResetRelease s (endEpisode (modPower (fun p => { p with cpReleased := true }) s)))
      ∧ (p.cpReset = false ∨ p.cpReleased = true ∨ hasPassed p.cpAt 50000 s = false → Runs .cpResetRelease s s)
      ∧ (∀ b, p.blocks.contains b = true → p.blocksReleased.contains b = false →
          ((p.blocksAt.find? (·.1 = b)).all fun x => hasPassed x.2 10000 s) = true → Runs (.blockResetRelease b) s (endEpisode (modPower (fun p => { p with blocksReleased := b :: p.blocksReleased }) s)))
      ∧ (∀ b, p.blocks.contains b = false → Runs (.blockResetRelease b) s s)
      ∧ (∀ src a, Runs (.controlPlaneReset src a) s (criticalError src a s))

/-- The supply: a warning while armed is recorded and starts a save, whose end with its copy whole is told and answered and cut
short leaves a copy that fails; a supply that is back makes the copies STALE and arms the warning; its loss powers the logic
down; and the 3.3 V supply's overload is held until it ends.
Kettle: a threshold is judged unless the module has tripped and a trip temperature trips it; a trip ends in a cold episode
once every sensor is cool; a faulty sensor is excluded until it is plausible again; a stop that runs out vents what is still
enabled and gates the engines; and GATED ends once every
sensor has been below 105 degrees for 10 s. -/
def Obligations.SupplyAndKettleProtectTheModule : Prop :=
  (∀ (us mv : BitVec 16) (c : SaveCopy) (s : State),
    let p := s.power
    let high : Bool := s.fio.vinHighAt.any fun t => hasPassed t 100000000 s
    (p.vault.saving = none → ∀ cut, Runs (.vaultSaveComplete us cut) s s)
      ∧ (p.vault.saving = some c →
          (∃ t, Runs (.vaultSaveComplete us true) s t ∧ t.power.vault.saving = none ∧ t.power.regs.saving = false
            ∧ (if p.vault.intoB then t.power.vault.copyB else t.power.vault.copyA) = { c with good := false }
            ∧ { t with power := p } = s)
          ∧ (∃ w, w.power.vault.saving = none ∧ w.power.regs.saving = false ∧ w.power.regs.lastSavePour = c.pour
            ∧ w.power.regs.lastSaveUs = us ∧ { w with power := p } = s
            ∧ (if p.vault.intoB then w.power.vault.copyB else w.power.vault.copyA) = { c with good := true }
            ∧ Runs (.vaultSaveComplete us false) s (hibernateReply (endOps (fun o => o.op = 0x0F05) Status.ok
              (note Ev.vaultSaved srcMgmt (us.zeroExtend 32) (c.pour.truncate 32) 0 w)))))
      ∧ (p.regs.pfArmed = false ∨ 16800 < mv.toNat → Runs (.powerFailWarn mv) s s)
      ∧ (p.regs.pfArmed = true → mv.toNat ≤ 16800 → Runs (.powerFailWarn mv) s (startSave
          (record { code := Ev.powerFailWarn, src := srcSupply, t := s.dt, unc := 200, p1 := mv.zeroExtend 32 }
            (modPowerRegs (fun r => { r with pfArmed := false, pfSeen := true }) s))))
      ∧ (p.regs.pfArmed = true ∨ high = false → Runs .powerRestored s s)
      ∧ (p.regs.pfArmed = false → high = true → ∃ t, Runs .powerRestored s t ∧ t.power.regs.pfArmed = true
          ∧ t.power.vault.copyA.stale = true ∧ t.power.vault.copyB.stale = true)
      ∧ Runs .vinLoss s (powerDown false s)
      ∧ (p.hibernateOwed = true → hasPassed p.hibernateAt 10000000 s = true → Runs .hibernateEnter s (powerDown true s))
      ∧ (p.hibernateOwed = false ∨ hasPassed p.hibernateAt 10000000 s = false → Runs .hibernateEnter s s)
      ∧ (∃ t, Runs .tempCompUpdate s t ∧ (p.crystal = false → t.time.regs.tempComp = 0)
          ∧ { t with time := s.time, freeCtr := s.freeCtr } = s)
      ∧ (p.v3aOn = true → p.v3aLimited = false → ∀ w,
          w = modPower (fun p => { p with v3aLimited := true, regs := { p.regs with v3aSeen := true } }) s →
          Runs .v3aOverload s (raise Ev.v3aOverload srcMgmt s.policy.v3a true 0 0 0 allAxes w))
      ∧ (p.v3aOn = false ∨ p.v3aLimited = true → Runs .v3aOverload s s)
      ∧ (p.v3aLimited = true → Runs .v3aOverloadEnd s
          (clearCond Ev.v3aOverload allAxes (modPower (fun p => { p with v3aLimited := false }) s)))
      ∧ (p.v3aLimited = false → Runs .v3aOverloadEnd s s))
  ∧ (∀ (k : Fin 12) (v : Word) (s : State),
    let p := s.power
    let out := p.regs.sensorExcluded.getLsbD k.val
    let sound : Bool := p.soundAt[k].any fun t => hasPassed t 10000000000 s
    let cool : Bool := p.coolAt.any fun t => hasPassed t 10000000000 s
    (p.tripped = true → Runs (.kettleThreshold k v) s (kettleOver k v (kettleRead k v s)))
      ∧ (∀ w, w = kettleRead k v s → w.power.tripped = false →
          Runs (.kettleThreshold k v) s (kettleOver k v (kettleJudge k w)))
      ∧ Runs (.kettleTrip k v) s (kettleOver k v (kettleRead k v s))
      ∧ (p.tripped = true → ((liveTemps p.regs).all (· < 10000)) = true → Runs .kettleRestart s (assertCold 0x08 s))
      ∧ (p.tripped = false → Runs .kettleRestart s s)
      ∧ (out = true ∨ (tempSound p.regs.temp[k] = true ∧ sensorStuck k s = false) → Runs (.kettleSensorFault k) s s)
      ∧ (out = false → tempSound p.regs.temp[k] = false ∨ sensorStuck k s = true → ∃ w,
          w.power.regs.sensorExcluded.getLsbD k.val = true ∧ w.power.regs.sensorSeen = true ∧ { w with power := p } = s
          ∧ Runs (.kettleSensorFault k) s (kettleJudge k (note Ev.kettleSensorFault srcMgmt (natWord k.val) 0 0 w)))
      ∧ (out = true → sensorStuck k s = false → sound = true → ∃ w, w.power.regs.sensorExcluded.getLsbD k.val = false
          ∧ { w with power := p } = s ∧ Runs (.kettleSensorPlausible k) s (kettleJudge k w))
      ∧ (out = false ∨ sensorStuck k s = true ∨ sound = false → Runs (.kettleSensorPlausible k) s s)
      ∧ (p.regs.kettleState ≠ 2 ∨ hasPassed p.warnAt 200000000 s = false → Runs .kettleStopTimeout s s)
      ∧ (p.regs.kettleState = 2 → hasPassed p.warnAt 200000000 s = true → ∀ w, w = (List.finRange 16).foldl
            (fun s t => if s.axes[tileAxis t].enabled then ventTile t 1 s else s) s →
          ∃ u, Runs .kettleStopTimeout s u ∧ u.power.regs.kettleState = 3 ∧ { u with engines := w.engines, power := w.power } = w
            ∧ ∀ e : Fin 32, u.engines[e] = if w.engines[e].regs.leState = 1 then w.engines[e] else holdEngine w.engines[e])
      ∧ (p.regs.kettleState = 3 → cool = true → Runs .kettleResumed s
          (note Ev.kettleResumed srcMgmt 0 0 0 (reloadEngines (modPowerRegs (fun r => { r with kettleState := 0 }) s))))
      ∧ (p.regs.kettleState ≠ 3 ∨ cool = false → Runs .kettleResumed s s))

/-! ### Memory -/

/-- Words written to a memory are read back at their addresses, every other word and every byte outside reads as before, and the
list of cells keeps its canonical form; a tile's words stand in the shared memory of its cluster and in no other. -/
def Obligations.WordsWrittenAreReadBack : Prop :=
  ∀ (m : Mem) (a b i : Nat) (vs : List Word) (t : Fin 16) (w : Nat) (v : Word) (s : State), memWf m = true →
    memWf (memPutWords m a vs) = true
      ∧ (i < vs.length → memWord (memPutWords m a vs) (a + i) = vs.getD i 0)
      ∧ (b < 4 * a ∨ 4 * (a + vs.length) ≤ b → memByte (memPutWords m a vs) b = memByte m b)
      ∧ (b < a ∨ a + vs.length ≤ b → memWord (memPutWords m a vs) b = memWord m b)
      ∧ memWords (memPutWords m a vs) a vs.length = vs
      ∧ (memWf s.portMem[tileCluster t] = true → memWord (tilePut t w v s).portMem[tileCluster t] (tileWord t w) = v)
      ∧ (∀ c : Fin 4, c ≠ tileCluster t → (tilePut t w v s).portMem[c] = s.portMem[c])

/-! ### Laws of gearing, loops and reactions -/

/-- The gear stage over a span of batches and changes of ratio, and the exact travel of the span, each ratio applied to the
master travel for which it was in force. -/
def gearSpan : List (Int ⊕ (Int × Nat)) → Gear → Gear
  | [], g => g
  | .inl m :: l, g => gearSpan l (g.take m)
  | .inr c :: l, g => gearSpan l (g.change c.1 c.2)
def gearExact : List (Int ⊕ (Int × Nat)) → Int → Int → Rat
  | [], _, _ => 0
  | .inl m :: l, n, d => (n * m : Int) / (d : Rat) + gearExact l n d
  | .inr c :: l, _, _ => gearExact l c.1 c.2
def gearChanges (l : List (Int ⊕ (Int × Nat))) : Nat := (l.filter Sum.isRight).length

/-- Gearing is exact: over any span of batches with k changes of ratio the follower's increment differs from the exact value by
less than 2^-31 count and k times 2^-96 count, and the remainder and the loss stay in their ranges. -/
def Obligations.GearHoldsItsRatioExactly : Prop :=
  ∀ (l : List (Int ⊕ (Int × Nat))) (g : Gear), 0 < g.d → 0 ≤ g.rem → g.rem < g.d → 0 ≤ g.acc → g.acc < 2 ^ 64 →
    (∀ c, Sum.inr c ∈ l → 0 < c.2) →
    let t := gearSpan l g
    let diff := ((t.inc - g.inc : Int) : Rat) - gearExact l g.n g.d
    let bound := (2 : Rat) + (gearChanges l : Rat) / 2 ^ 64
    diff < bound ∧ -bound < diff ∧ 0 < t.d ∧ 0 ≤ t.rem ∧ t.rem < t.d ∧ 0 ≤ t.acc ∧ t.acc < 2 ^ 64

/-- The standard law: OUT lies within its limits and is SUM in AUTO where SUM lies there; the integrator stays within 56 bits,
and an integrator that reaches that limit stops there and sets SAT_I; at a tick after one that clamped OUT on the side to which
KI times ERR points it keeps its value, at every other it takes KI times ERR; the loop keeps for its next tick at which limit
this one clamped OUT. -/
def Obligations.LoopLawClampsAndHolds : Prop :=
  (∀ (get : Nat → Word) (l : Loop) (mode : BitVec 2) (first : Bool) (x : LawIn), x.lo.toInt ≤ x.hi.toInt →
    let r := law get l mode first x
    let err := (r.nodes.getD 0 0).toInt
    let sum := r.nodes.getD 5 0
    let out := r.nodes.getD 6 0
    let ki := (get 0x21).toInt
    let acc := ((get 0x0D) ++ (get 0x0C)).toInt
    let hold := (l.clampHi = true ∧ 0 < ki * err) ∨ (l.clampLo = true ∧ ki * err < 0)
    (x.lo.toInt ≤ out.toInt ∧ out.toInt ≤ x.hi.toInt)
      ∧ (mode ≠ 1 → x.lo.toInt ≤ sum.toInt → sum.toInt ≤ x.hi.toInt → out = sum ∧ r.high = false ∧ r.low = false)
      ∧ (mode ≠ 1 → x.hi.toInt < sum.toInt → out = x.hi ∧ r.high = true)
      ∧ (mode ≠ 1 → sum.toInt < x.lo.toInt → out = x.lo ∧ r.low = true)
      ∧ (-2 ^ 55 ≤ r.iAcc ∧ r.iAcc < 2 ^ 55)
      ∧ (mode = 0 → first = false → -2 ^ 55 ≤ acc → acc < 2 ^ 55 →
          (hold → r.iAcc = acc) ∧ (¬hold → r.iAcc = sat56 (acc + ki * err)
            ∧ (r.flags.getLsbD 2 = true ↔ acc + ki * err < -2 ^ 55 ∨ 2 ^ 55 ≤ acc + ki * err))))
  ∧ (∀ (i : Fin 96) (e : Fin 32) (c : Nat) (x : LawIn) (s : State),
    let m := ctxGet s e c 0x14
    let r := law (ctxGet s e c) s.loops[i] (m.extractLsb' 0 2) (m.getLsbD 4) x
    (runLaw i e c x s).loops[i].clampHi = r.high ∧ (runLaw i e c x s).loops[i].clampLo = r.low)

/-- A vent: the tile is VENTED with its cause, every output of a tile that ran or was frozen is released, its axis is disabled
and stands, its loops are OFF, and no other tile and no other axis changes. -/
def Obligations.VentReleasesTheTile : Prop :=
  ∀ (t : Fin 16) (k : Fin 5) (s : State),
    let u := ventTile t k.val s
    u.tiles[t].regs.tileState = 3 ∧ u.tiles[t].regs.ventCause = s.tiles[t].regs.ventCause ||| BitVec.ofNat 5 (2 ^ k.val)
      ∧ (s.tiles[t].regs.tileState = 2 ∨ s.tiles[t].regs.tileState = 4 → ∀ h : Fin 4, u.tiles[t].pw.legs[h] = {})
      ∧ u.tiles[t].pw.chopOn = false
      ∧ u.axes[tileAxis t].enabled = false ∧ u.axes[tileAxis t].regs.spVel = 0 ∧ u.axes[tileAxis t].move = none
      ∧ (∀ j : Fin 4, u.loops[tileLoop t j].regs.loopMode = 3)
      ∧ (∀ v : Fin 16, v ≠ t → u.tiles[v] = s.tiles[v])
      ∧ (∀ a : Fin 112, a ≠ tileAxis t → u.axes[a] = s.axes[a])
      ∧ u.engines = s.engines ∧ u.pending = s.pending ∧ u.dt = s.dt
end

