-- ==== Sys2Proof/Laws/Clock.lean ====
section
/-! SUPPORT. Frames of the clock: no operation below changes the queue, DT or L.  The operations that do (a new DT, the start
of the domain, a reset of the module, a pour, a clock edge) have no lemma here. -/

namespace Sys2Proof.Machine

@[simp] theorem State.clock_mk (a b c d e f g h i j k l m n o p q r t u v w x y z a1 a2 a3 a4 a5 a6) :
  State.clock ⟨a,b,c,d,e,f,g,h,i,j,k,l,m,n,o,p,q,r,t,u,v,w,x,y,z,a1,a2,a3,a4,a5,a6⟩ = (a, d, i.regs.pourLen) := rfl
@[simp] theorem State.clock_eta (s : State) : (s.pending, s.dt, s.stage.regs.pourLen) = s.clock := rfl
@[simp] theorem State.clock_ite (c : Prop) [Decidable c] (a b : State) : (if c then a else b).clock = if c then a.clock else b.clock := by split <;> rfl
@[simp] theorem Reply.s_ite (c : Prop) [Decidable c] (a b : Reply) : (if c then a else b).s = if c then a.s else b.s := by split <;> rfl
@[simp] theorem State.clock_snd_ite {α} (c : Prop) [Decidable c] (a b : α × State) : (if c then a else b).2.clock = if c then a.2.clock else b.2.clock := by split <;> rfl
theorem State.clock_def (s : State) : s.clock = (s.pending, s.dt, s.stage.regs.pourLen) := rfl
/-- Both branches leave the clock alone. -/
theorem ite_clock {c : Prop} [Decidable c] {a b : State} {k : List Instr × Fix × Word} (ha : a.clock = k) (hb : b.clock = k) :
    (if c then a else b).clock = k := by split <;> assumption
/-- A fold of an operation that leaves the clock alone. -/
@[simp] theorem foldl_clock {α} (g : State → α → State) (h : ∀ s a, (g s a).clock = s.clock) (l : List α) (s : State) : (l.foldl g s).clock = s.clock := by
  induction l generalizing s with
  | nil => rfl
  | cons a l ih => simp only [List.foldl]; rw [ih, h]

@[simp] theorem record_clock (e : EventRec) (s : State) : (record e s).clock = s.clock := by
  unfold record; simp

@[simp] theorem note_clock (code : BitVec 16) (src : BitVec 16) (p0 : Word) (p1 : Word) (p2 : Word) (s : State) :
    (note code src p0 p1 p2 s).clock = s.clock := by
  unfold note; simp

@[simp] theorem modAxis_clock (a : Fin 112) (f : Axis → Axis) (s : State) : (modAxis a f s).clock = s.clock := by
  unfold modAxis; simp

@[simp] theorem camSwapped_clock (a : Fin 112) (old : Fin 16) (new : Fin 16) (uOld : Int) (uNew : Int) (s : State) :
    (camSwapped a old new uOld uNew s).clock = s.clock := by
  unfold camSwapped; simp

@[simp] theorem camStore_clock (a : Fin 112) (c : CamRun) (out : Int) (s : State) :
    (camStore a c out s).clock = s.clock := by
  unfold camStore; simp

@[simp] theorem applyCamSwap_clock (p : Packet) (s : State) : (applyCamSwap p s).clock = s.clock := by
  unfold applyCamSwap; simp

@[simp] theorem modEnc_clock (e : Fin 17) (f : Encoder → Encoder) (s : State) : (modEnc e f s).clock = s.clock := by
  unfold modEnc; simp

@[simp] theorem modEncRegs_clock (e : Fin 17) (f : EncRegs → EncRegs) (s : State) :
    (modEncRegs e f s).clock = s.clock := by
  unfold modEncRegs; simp

@[simp] theorem modSession_clock (i : Fin 80) (f : Session → Session) (s : State) :
    (modSession i f s).clock = s.clock := by
  unfold modSession; simp

@[simp] theorem countSession_clock (c : SessCount) (n : Nat) (i : Fin 80) (s : State) :
    (countSession c n i s).clock = s.clock := by
  unfold countSession; simp

@[simp] theorem freeCredit_clock (i : Fin 80) (s : State) : (freeCredit i s).clock = s.clock := by
  unfold freeCredit; simp

@[simp] theorem sendFragments_clock (dest : BitVec 64) (kind : Fin 3) (ws : List Word) (s : State) :
    (sendFragments dest kind ws s).clock = s.clock := by
  unfold sendFragments; simp

@[simp] theorem transmit_clock (i : Fin 80) (ws : List Word) (s : State) : (transmit i ws s).clock = s.clock := by
  unfold transmit; simp

@[simp] theorem deliver_clock (i : Fin 80) (ws : List Word) (s : State) : (deliver i ws s).clock = s.clock := by
  unfold deliver; simp

@[simp] theorem produceReply_clock (i : Fin 80) (seq : Word) (crc : Word) (ws : List Word) (s : State) :
    (produceReply i seq crc ws s).clock = s.clock := by
  unfold produceReply; (try dsimp only); (repeat' split) <;> simp

@[simp] theorem answer_clock (st : BitVec 16) (s : State) : (answer st s).s.clock = s.clock := by
  unfold answer; simp

@[simp] theorem joinTxn_clock (i : Fin 80) (st : BitVec 16) (cmd : StagedCmd) (s : State) :
    (joinTxn i st cmd s).clock = s.clock := by
  unfold joinTxn; simp

@[simp] theorem refusePacket_clock (op : BitVec 16) (st : BitVec 16) (p : Packet) (s : State) :
    (refusePacket op st p s).s.clock = s.clock := by
  unfold refusePacket; (try dsimp only); (repeat' split) <;> simp

@[simp] theorem replyTo_clock (d : OpDesc) (p : Packet) (r : Reply) : (replyTo d p r).clock = r.s.clock := by
  simp [replyTo]

@[simp] theorem serveBroken_clock (d : OpDesc) (p : Packet) (s : State) : (serveBroken d p s).clock = s.clock := by
  unfold serveBroken; simp

@[simp] theorem runAccepted_clock (d : OpDesc) (go : State → State) (p : Packet) (s : State) (h_go : ∀ x0,
    (go x0).clock = x0.clock) : (runAccepted d go p s).clock = s.clock := by
  unfold runAccepted; try dsimp only
  repeat' split
  all_goals first | rfl | simp [h_go]

@[simp] theorem discardPacket_clock (i : Fin 80) (c : SessCount) (s : State) : (discardPacket i c s).clock = s.clock := by
  unfold discardPacket; simp

@[simp] theorem creditViolation_clock (i : Fin 80) (s : State) : (creditViolation i s).clock = s.clock := by
  unfold creditViolation; simp

@[simp] theorem waitCopy_clock (i : Fin 80) (seq : Word) (crc : Word) (s : State) :
    (waitCopy i seq crc s).clock = s.clock := by
  unfold waitCopy; simp

@[simp] theorem copyReply_clock (i : Fin 80) (ws : List Word) (s : State) : (copyReply i ws s).clock = s.clock := by
  unfold copyReply; simp

@[simp] theorem acceptPacket_clock (op : BitVec 16) (p : Packet) (crc : Word) (made : Option (BitVec 16 × Packet))
    (s : State) : (acceptPacket op p crc made s).clock = s.clock := by
  unfold acceptPacket; simp

@[simp] theorem answerReused_clock (op : BitVec 16) (p : Packet) (s : State) : (answerReused op p s).clock = s.clock := by
  unfold answerReused; simp

@[simp] theorem requestMade_clock (d : OpDesc) (made : Option (BitVec 16 × Packet)) (go : State → State) (p : Packet)
    (s : State) (h_go : ∀ x0, (go x0).clock = x0.clock) : (requestMade d made go p s).clock = s.clock := by
  unfold requestMade; (try dsimp only); (repeat' split) <;> simp [*]

@[simp] theorem requestBy_clock (d : OpDesc) (go : State → State) (p : Packet) (s : State) (h_go : ∀ x0,
    (go x0).clock = x0.clock) : (requestBy d go p s).clock = s.clock := by
  unfold requestBy; simp [*]

@[simp] theorem serve_clock (d : OpDesc) (accept : Packet → State → BitVec 16) (run : Packet → State → Reply)
    (p : Packet) (s : State) (h_run : ∀ x0 x1, (run x0 x1).s.clock = x1.clock) :
    (serve d accept run p s).clock = s.clock := by
  unfold serve; try dsimp only
  repeat' split
  all_goals simp [h_run]

@[simp] theorem request_clock (d : OpDesc) (accept : Packet → State → BitVec 16) (run : Packet → State → Reply)
    (p : Packet) (s : State) (h_run : ∀ x0 x1, (run x0 x1).s.clock = x1.clock) :
    (request d accept run p s).clock = s.clock := by
  unfold request; simp [*]

@[simp] theorem okWith_clock (out : List Word) (s : State) : (okWith out s).s.clock = s.clock := by
  unfold okWith; simp

@[simp] theorem runCountersRead_clock (p : Packet) (s : State) : (runCountersRead p s).s.clock = s.clock := by
  unfold runCountersRead; simp

@[simp] theorem modTrace_clock (u : Fin 4) (f : Trace → Trace) (s : State) : (modTrace u f s).clock = s.clock := by
  unfold modTrace; simp

@[simp] theorem stopTrace_clock (u : Fin 4) (s : State) : (stopTrace u s).clock = s.clock := by
  unfold stopTrace; simp

@[simp] theorem modPort_clock (i : Fin 4) (f : Port → Port) (s : State) : (modPort i f s).clock = s.clock := by
  unfold modPort; simp

@[simp] theorem modLink_clock (f : Link → Link) (s : State) : (modLink f s).clock = s.clock := by
  unfold modLink; simp

@[simp] theorem failHoming_clock (a : Fin 112) (cause : BitVec 8) (s : State) :
    (failHoming a cause s).clock = s.clock := by
  unfold failHoming; simp

@[simp] theorem endOps_clock (sel : PendingOp → Bool) (st : BitVec 16) (s : State) :
    (endOps sel st s).clock = s.clock := by
  unfold endOps; simp

@[simp] theorem modTile_clock (t : Fin 16) (f : Tile → Tile) (s : State) : (modTile t f s).clock = s.clock := by
  unfold modTile; simp

@[simp] theorem abortIdent_clock (t : Fin 16) (s : State) : (abortIdent t s).clock = s.clock := by
  unfold abortIdent; simp

@[simp] theorem markUncertain_clock (a : Fin 112) (s : State) : (markUncertain a s).clock = s.clock := by
  unfold markUncertain; simp

@[simp] theorem stopAxis_clock (a : Fin 112) (s : State) : (stopAxis a s).clock = s.clock := by
  unfold stopAxis; (try dsimp only); (repeat' split) <;> simp

@[simp] theorem portPuts_clock (c : Fin 4) (a : Nat) (vs : List Word) (s : State) :
    (portPuts c a vs s).clock = s.clock := by
  unfold portPuts; simp

@[simp] theorem tilePuts_clock (t : Fin 16) (w : Nat) (vs : List Word) (s : State) :
    (tilePuts t w vs s).clock = s.clock := by
  unfold tilePuts; simp

@[simp] theorem writeTileStatus_clock (t : Fin 16) (s : State) : (writeTileStatus t s).clock = s.clock := by
  unfold writeTileStatus; simp

@[simp] theorem modLoop_clock (i : Fin 96) (f : Loop → Loop) (s : State) : (modLoop i f s).clock = s.clock := by
  unfold modLoop; simp

@[simp] theorem loopsOff_clock (t : Fin 16) (s : State) : (loopsOff t s).clock = s.clock := by
  unfold loopsOff; simp

@[simp] theorem disableAxis_clock (a : Fin 112) (s : State) : (disableAxis a s).clock = s.clock := by
  unfold disableAxis; (try dsimp only); (repeat' split) <;> simp

@[simp] theorem ventTile_clock (t : Fin 16) (k : Nat) (s : State) : (ventTile t k s).clock = s.clock := by
  unfold ventTile; simp

@[simp] theorem ventAxis_clock (a : Fin 112) (s : State) : (ventAxis a s).clock = s.clock := by
  unfold ventAxis; (try dsimp only); (repeat' split) <;> simp

@[simp] theorem discardSets_clock (sel : StagedSet → Bool) (s : State) : (discardSets sel s).clock = s.clock := by
  have : ∀ (l : List StagedSet) (f : StageRegs → StagedSet → StageRegs) (h : ∀ r x, (f r x).pourLen = r.pourLen) r, (l.foldl f r).pourLen = r.pourLen := by
    intro l f h; induction l with
    | nil => intro r; rfl
    | cons a l ih => intro r; simp only [List.foldl]; rw [ih, h]
  unfold discardSets
  simp only [State.clock_mk]
  rw [this]
  · rfl
  · intro r x; simp only [refusedRegs]

@[simp] theorem assertControlReset_clock (src : BitVec 8) (addr : Word) (s : State) :
    (assertControlReset src addr s).clock = s.clock := by
  unfold assertControlReset; simp

@[simp] theorem react_clock (cls : Cls) (code : BitVec 16) (src : BitVec 16) (axs : List (Fin 112)) (s : State) :
    (react cls code src axs s).clock = s.clock := by
  unfold react; (try dsimp only); (repeat' split) <;> simp

@[simp] theorem latchFault_clock (code : BitVec 16) (holds : Bool) (a : Fin 112) (s : State) :
    (latchFault code holds a s).clock = s.clock := by
  unfold latchFault; simp

@[simp] theorem raiseEv_clock (e : EventRec) (holds : Bool) (axs : List (Fin 112)) (s : State) :
    (raiseEv e holds axs s).clock = s.clock := by
  unfold raiseEv; simp

@[simp] theorem raise_clock (code : BitVec 16) (src : BitVec 16) (cls : Cls) (holds : Bool) (p0 : Word) (p1 : Word)
    (p2 : Word) (axs : List (Fin 112)) (s : State) : (raise code src cls holds p0 p1 p2 axs s).clock = s.clock := by
  unfold raise; simp

@[simp] theorem portDown_clock (i : Fin 4) (s : State) : (portDown i s).clock = s.clock := by
  unfold portDown; simp

@[simp] theorem modPortRegs_clock (i : Fin 4) (f : PortRegs → PortRegs) (s : State) :
    (modPortRegs i f s).clock = s.clock := by
  unfold modPortRegs; simp

@[simp] theorem modEngine_clock (e : Fin 32) (f : Engine → Engine) (s : State) : (modEngine e f s).clock = s.clock := by
  unfold modEngine; simp

@[simp] theorem armLoadAll_clock (t : Fin 16) (s : State) : (armLoadAll t s).clock = s.clock := by
  unfold armLoadAll; simp

@[simp] theorem legCtlArm_clock (c : Fin 4) (a : Nat) (v : Word) (s : State) : (legCtlArm c a v s).clock = s.clock := by
  unfold legCtlArm; simp

@[simp] theorem portPut_clock (c : Fin 4) (a : Nat) (v : Word) (s : State) : (portPut c a v s).clock = s.clock := by
  unfold portPut; simp

@[simp] theorem landLate_clock (e : Fin 32) (d : Late) (s : State) : (landLate e d s).clock = s.clock := by
  unfold landLate; (try dsimp only); (repeat' split) <;> simp

@[simp] theorem flushLate_clock (e : Fin 32) (s : State) : (flushLate e s).clock = s.clock := by
  unfold flushLate; simp

@[simp] theorem stagingWrite_clock (e : Fin 32) (k : Option (Fin 16)) (a : Nat) (ws : List Word) (s : State) :
    (stagingWrite e k a ws s).clock = s.clock := by
  unfold stagingWrite; simp

@[simp] theorem writeTrim_clock (j : Fin 96) (s : State) : (writeTrim j s).clock = s.clock := by
  unfold writeTrim; (try dsimp only); (repeat' split) <;> simp

@[simp] theorem stopFree_clock (e : Fin 32) (s : State) : (stopFree e s).clock = s.clock := by
  unfold stopFree
  extract_lets fs s1
  refine (foldl_clock _ (fun s i => ?_) _ _).trans (foldl_clock _ (fun s i => modLoop_clock ..) _ _)
  split
  · exact writeTrim_clock ..
  · rfl

@[simp] theorem leFault_clock (e : Fin 32) (cause : BitVec 8) (pc : BitVec 13) (addr : Word) (s : State) :
    (leFault e cause pc addr s).clock = s.clock := by
  unfold leFault; simp

@[simp] theorem drawn_clock (s : State) : (drawn s).clock = s.clock := by
  unfold drawn; simp

@[simp] theorem traceDone_clock (u : Fin 4) (s : State) : (traceDone u s).clock = s.clock := by
  unfold traceDone; simp

@[simp] theorem traceTrigger_clock (u : Fin 4) (r : Nat) (d : Fix) (mask : BitVec 4) (late : Bool) (s : State) :
    (traceTrigger u r d mask late s).clock = s.clock := by
  unfold traceTrigger; simp

@[simp] theorem traceRecord_clock (u : Fin 4) (d : Fix) (s : State) : (traceRecord u d s).clock = s.clock := by
  unfold traceRecord; simp

@[simp] theorem traceTick_clock (i : Fin 96) (d : Fix) (u : Fin 4) (s : State) : (traceTick i d u s).clock = s.clock := by
  unfold traceTick; simp

@[simp] theorem forwardOut_clock (e : Fin 32) (i : Fin 96) (s : State) : (forwardOut e i s).clock = s.clock := by
  unfold forwardOut; (try dsimp only); (repeat' split) <;> simp

@[simp] theorem clearCond_clock (code : BitVec 16) (axs : List (Fin 112)) (s : State) :
    (clearCond code axs s).clock = s.clock := by
  unfold clearCond; simp

@[simp] theorem collectFlags_clock (e : Fin 32) (c : Nat) (i : Fin 96) (s : State) :
    (collectFlags e c i s).clock = s.clock := by
  unfold collectFlags; simp

@[simp] theorem tickExit_clock (e : Fin 32) (s : State) : (tickExit e s).clock = s.clock := by
  unfold tickExit; try dsimp only
  split
  · rfl
  · rw [modEngine_clock, foldl_clock, foldl_clock, foldl_clock]
    · intro s a; exact foldl_clock _ (fun s u => by split <;> simp) _ _
    · intro s a; simp
    · intro s a; repeat' split
      all_goals simp

@[simp] theorem finishIssue_clock (e : Fin 32) (old : Engine) (en : Engine) (new : List Late) (cycles : Nat)
    (s : State) : (finishIssue e old en new cycles s).clock = s.clock := by
  unfold finishIssue; simp

@[simp] theorem issue_clock (e : Fin 32) (slotOk : Bool) (repOk : Bool) (body : Engine → State → LeOut) (s : State) :
    (issue e slotOk repOk body s).clock = s.clock := by
  unfold issue; (try dsimp only); (repeat' split) <;> simp

@[simp] theorem drew_clock (n : Nat) (s : State) : (drew n s).clock = s.clock := by
  unfold drew; simp

@[simp] theorem modPower_clock (f : Power → Power) (s : State) : (modPower f s).clock = s.clock := by
  unfold modPower; simp

@[simp] theorem ctxPut_clock (e : Fin 32) (c : Nat) (w : Nat) (v : Word) (s : State) :
    (ctxPut e c w v s).clock = s.clock := by
  unfold ctxPut; simp

@[simp] theorem modLoopRegs_clock (i : Fin 96) (f : LoopRegs → LoopRegs) (s : State) :
    (modLoopRegs i f s).clock = s.clock := by
  unfold modLoopRegs; simp

@[simp] theorem takeMode_clock (i : Fin 96) (e : Fin 32) (c : Nat) (s : State) : (takeMode i e c s).clock = s.clock := by
  unfold takeMode; simp

@[simp] theorem takeWords_clock (t : Fin 16) (s : State) : (takeWords t s).clock = s.clock := by
  unfold takeWords; simp

@[simp] theorem takeLoadAll_clock (t : Fin 16) (s : State) : (takeLoadAll t s).clock = s.clock := by
  unfold takeLoadAll; simp

@[simp] theorem runLinkStatus_clock (p : Packet) (s : State) : (runLinkStatus p s).s.clock = s.clock := by
  unfold runLinkStatus; simp

@[simp] theorem modSd_clock (c : Fin 160) (f : SdChannel → SdChannel) (s : State) : (modSd c f s).clock = s.clock := by
  unfold modSd; simp

@[simp] theorem modSdRegs_clock (c : Fin 160) (f : SdRegs → SdRegs) (s : State) : (modSdRegs c f s).clock = s.clock := by
  unfold modSdRegs; simp

@[simp] theorem ok_clock (s : State) : (ok s).s.clock = s.clock := by
  unfold ok; simp

@[simp] theorem modCan_clock (n : Fin 4) (f : Can → Can) (s : State) : (modCan n f s).clock = s.clock := by
  unfold modCan; simp

@[simp] theorem runCanFilterSet_clock (p : Packet) (s : State) : (runCanFilterSet p s).s.clock = s.clock := by
  unfold runCanFilterSet; simp

@[simp] theorem homePhase_clock (a : Fin 112) (ph : BitVec 4) (f : HomeRun → HomeRun) (s : State) :
    (homePhase a ph f s).clock = s.clock := by
  unfold homePhase; simp

@[simp] theorem homeFail_clock (a : Fin 112) (cause : BitVec 8) (s : State) : (homeFail a cause s).clock = s.clock := by
  unfold homeFail; simp

@[simp] theorem homeReturn_clock (a : Fin 112) (s : State) : (homeReturn a s).clock = s.clock := by
  unfold homeReturn; simp

@[simp] theorem showLatch_clock (a : Fin 112) (s : State) : (showLatch a s).clock = s.clock := by
  unfold showLatch; (try dsimp only); (repeat' split) <;> simp

@[simp] theorem homeLatch_clock (a : Fin 112) (t : Fix) (unc : BitVec 8) (known : Option Int) (leaving : Bool)
    (s : State) : (homeLatch a t unc known leaving s).clock = s.clock := by
  unfold homeLatch; simp

@[simp] theorem homeLimit_clock (a : Fin 112) (h : HomeRun) (pos : Bool) (s : State) :
    (homeLimit a h pos s).clock = s.clock := by
  unfold homeLimit; (try dsimp only); (repeat' split) <;> simp

@[simp] theorem homeEdge_clock (a : Fin 112) (w : HomeIn) (active : Bool) (t : Fix) (unc : BitVec 8)
    (known : Option Int) (s : State) : (homeEdge a w active t unc known s).clock = s.clock := by
  unfold homeEdge; (try dsimp only); (repeat' split) <;> simp

@[simp] theorem modPowerRegs_clock (f : PowerRegs → PowerRegs) (s : State) : (modPowerRegs f s).clock = s.clock := by
  unfold modPowerRegs; simp

@[simp] theorem bumpPower_clock (get : PowerRegs → Word) (set : PowerRegs → Word → PowerRegs) (s : State) :
    (bumpPower get set s).clock = s.clock := by
  unfold bumpPower; simp

@[simp] theorem kettleWarn_clock (sensor : Fin 12) (s : State) : (kettleWarn sensor s).clock = s.clock := by
  unfold kettleWarn; simp

@[simp] theorem kettleJudge_clock (sensor : Fin 12) (s : State) : (kettleJudge sensor s).clock = s.clock := by
  unfold kettleJudge; simp

@[simp] theorem modGu_clock (u : Fin 8) (f : GeyserUnit → GeyserUnit) (s : State) : (modGu u f s).clock = s.clock := by
  unfold modGu; simp

@[simp] theorem modGuRegs_clock (u : Fin 8) (f : GuRegs → GuRegs) (s : State) : (modGuRegs u f s).clock = s.clock := by
  unfold modGuRegs; simp

@[simp] theorem guEnd_clock (u : Fin 8) (tr : GuTrig) (truncated : Bool) (mayWrite : Bool) (s : State) :
    (guEnd u tr truncated mayWrite s).clock = s.clock := by
  unfold guEnd; (try dsimp only); (repeat' split) <;> simp

@[simp] theorem guFinish_clock (u : Fin 8) (stopped : Bool) (s : State) : (guFinish u stopped s).clock = s.clock := by
  unfold guFinish; simp

@[simp] theorem guSettle_clock (u : Fin 8) (s : State) : (guSettle u s).clock = s.clock := by
  unfold guSettle; (try dsimp only); (repeat' split) <;> simp

@[simp] theorem bootFallback_clock (failed : Word) (p : Power → Power) (s : State) :
    (bootFallback failed p s).clock = s.clock := by
  unfold bootFallback; simp

@[simp] theorem networkFailed_clock (s : State) : (networkFailed s).clock = s.clock := by
  unfold networkFailed; simp

@[simp] theorem clocksLocked_clock (src : BitVec 2) (s : State) : (clocksLocked src s).clock = s.clock := by
  unfold clocksLocked; simp

@[simp] theorem modSeg_clock (f : SegmentRegs → SegmentRegs) (s : State) : (modSeg f s).clock = s.clock := by
  unfold modSeg; simp

@[simp] theorem evalPlan_clock (l : Nat) (s : State) : (evalPlan l s).clock = s.clock := by
  unfold evalPlan; simp

@[simp] theorem runPlanCheck_clock (p : Packet) (s : State) : (runPlanCheck p s).s.clock = s.clock := by
  unfold runPlanCheck; simp

@[simp] theorem guJudge_clock (u : Fin 8) (k : Nat) (late : Bool) (ms : List GuMet) (s : State) :
    (guJudge u k late ms s).clock = s.clock := by
  unfold guJudge; (try dsimp only); (repeat' split) <;> simp

@[simp] theorem guMeet_clock (u : Fin 8) (m : GuMet) (s : State) : (guMeet u m s).clock = s.clock := by
  unfold guMeet; (try dsimp only); (repeat' split) <;> simp

@[simp] theorem guMeetAll_clock (test : GuCond → Option GuMet) (s : State) : (guMeetAll test s).clock = s.clock := by
  unfold guMeetAll
  refine foldl_clock _ (fun s u => foldl_clock _ (fun s n => ?_) _ _) _ _
  split <;> simp

@[simp] theorem guEvent_clock (e : EventRec) (s : State) : (guEvent e s).clock = s.clock := by
  unfold guEvent; simp

@[simp] theorem traceBehind_clock (u : Fin 4) (t : Fix) (mask : BitVec 4) (s : State) :
    (traceBehind u t mask s).clock = s.clock := by
  unfold traceBehind; (try dsimp only); (repeat' split) <;> simp

@[simp] theorem traceEvent_clock (e : EventRec) (s : State) : (traceEvent e s).clock = s.clock := by
  unfold traceEvent; simp

@[simp] theorem forwardEvent_clock (r : LogRec) (s : State) : (forwardEvent r s).clock = s.clock := by
  unfold forwardEvent; simp

@[simp] theorem offerPush_clock (take : Session → Bool) (ws : List Word) (s : State) :
    (offerPush take ws s).clock = s.clock := by
  unfold offerPush; simp

@[simp] theorem keepVault_clock (r : LogRec) (s : State) : (keepVault r s).clock = s.clock := by
  unfold keepVault; simp

@[simp] theorem keepLog_clock (r : LogRec) (s : State) : (keepLog r s).clock = s.clock := by
  unfold keepLog; simp

@[simp] theorem commitEvent_clock (e : EventRec) (s : State) : (commitEvent e s).clock = s.clock := by
  unfold commitEvent; simp

@[simp] theorem arrive_clock (e : EventRec) (s : State) : (arrive e s).clock = s.clock := by
  unfold arrive; simp

@[simp] theorem modFieldIo_clock (f : FieldIo → FieldIo) (s : State) : (modFieldIo f s).clock = s.clock := by
  unfold modFieldIo; simp

@[simp] theorem refreshFio_clock (s : State) : (refreshFio s).clock = s.clock := by
  unfold refreshFio; simp

@[simp] theorem runRegStatus_clock (p : Packet) (s : State) : (runRegStatus p s).s.clock = s.clock := by
  unfold runRegStatus; simp

@[simp] theorem regTravelPour_clock (a : Fin 112) (m : Int) (s : State) : (regTravelPour a m s).clock = s.clock := by
  unfold regTravelPour; simp

@[simp] theorem pushSet_clock (session : BitVec 16) (seq : Word) (target : BitVec 64) (cmds : List StagedCmd)
    (bytes : Nat) (s : State) : (pushSet session seq target cmds bytes s).clock = s.clock := by
  unfold pushSet; simp

@[simp] theorem commitSet_clock (session : Fin 80) (seq : Word) (t : Fix) (target : BitVec 64) (cmds : List StagedCmd)
    (s : State) : (commitSet session seq t target cmds s).s.clock = s.clock := by
  unfold commitSet; simp

@[simp] theorem stagePacket_clock (d : OpDesc) (st : BitVec 16) (p : Packet) (q : Packet) (s : State) :
    (stagePacket d st p q s).s.clock = s.clock := by
  unfold stagePacket; (try dsimp only); (repeat' split) <;> simp

@[simp] theorem runLocal_clock (o : StageOp) (p q : Packet) (s : State) (h_apply : ∀ q x, (o.apply q x).clock = x.clock) : (runLocal o p q s).s.clock = s.clock := by
  unfold runLocal; try dsimp only
  repeat' split
  all_goals simp [h_apply]
@[simp] theorem serveStage_clock (o : StageOp) (p : Packet) (s : State) (h_apply : ∀ q x, (o.apply q x).clock = x.clock) : (serveStage o p s).clock = s.clock := by
  unfold serveStage; try dsimp only
  repeat' split
  all_goals simp [h_apply]
@[simp] theorem stageRequest_clock (o : StageOp) (p : Packet) (s : State) (h_apply : ∀ q x, (o.apply q x).clock = x.clock) : (stageRequest o p s).clock = s.clock := by
  simp [stageRequest, h_apply]

@[simp] theorem holdLegs_clock (t : Fin 16) (s : State) : (holdLegs t s).clock = s.clock := by
  unfold holdLegs; simp

@[simp] theorem freezeTile_clock (halt : Bool) (t : Fin 16) (s : State) : (freezeTile halt t s).clock = s.clock := by
  unfold freezeTile; simp

@[simp] theorem deliverEntry_clock (at_ : Fix) (e : MasterEntry) (s : State) :
    (deliverEntry at_ e s).clock = s.clock := by
  unfold deliverEntry; simp

@[simp] theorem batchOf_clock (a : Fin 112) (s : State) : (batchOf a s).2.clock = s.clock := by
  unfold batchOf; simp

@[simp] theorem spend_clock (a : Fin 112) (landed : Bool) (s : State) : (spend a landed s).clock = s.clock := by
  unfold spend; simp

@[simp] theorem raisePosLimit_clock (a : Fin 112) (s : State) : (raisePosLimit a s).clock = s.clock := by
  unfold raisePosLimit; simp

@[simp] theorem raiseTurnsLimit_clock (a : Fin 112) (s : State) : (raiseTurnsLimit a s).clock = s.clock := by
  unfold raiseTurnsLimit; simp

@[simp] theorem advanceAct_clock (a : Fin 112) (inc : Int) (s : State) : (advanceAct a inc s).clock = s.clock := by
  unfold advanceAct; simp

@[simp] theorem advanceSp_clock (a : Fin 112) (p : Point) (fromSource : Bool) (s : State) :
    (advanceSp a p fromSource s).clock = s.clock := by
  unfold advanceSp; simp

@[simp] theorem rampPour_clock (a : Fin 112) (rp : StopRamp) (s : State) : (rampPour a rp s).clock = s.clock := by
  unfold rampPour; simp

@[simp] theorem homingDone_clock (a : Fin 112) (h : HomeRun) (s : State) : (homingDone a h s).clock = s.clock := by
  unfold homingDone; simp

@[simp] theorem homeProgress_clock (a : Fin 112) (h : HomeRun) (s : State) : (homeProgress a h s).clock = s.clock := by
  unfold homeProgress; simp

@[simp] theorem homePour_clock (a : Fin 112) (h : HomeRun) (s : State) : (homePour a h s).clock = s.clock := by
  unfold homePour; simp

@[simp] theorem moveDone_clock (a : Fin 112) (s : State) : (moveDone a s).clock = s.clock := by
  unfold moveDone; simp

@[simp] theorem overshoot_clock (a : Fin 112) (s : State) : (overshoot a s).clock = s.clock := by
  unfold overshoot; simp

@[simp] theorem movePour_clock (a : Fin 112) (m : Move) (s : State) : (movePour a m s).clock = s.clock := by
  unfold movePour; (try dsimp only); (repeat' split) <;> simp

@[simp] theorem standSp_clock (a : Fin 112) (s : State) : (standSp a s).clock = s.clock := by
  unfold standSp; simp

@[simp] theorem installNext_clock (a : Fin 112) (s : State) : (installNext a s).clock = s.clock := by
  unfold installNext; (try dsimp only); (repeat' split) <;> simp

@[simp] theorem profilePour_clock (a : Fin 112) (s : State) : (profilePour a s).clock = s.clock := by
  unfold profilePour; (try dsimp only); (repeat' split) <;> simp

@[simp] theorem raiseIncRange_clock (a : Fin 112) (s : State) : (raiseIncRange a s).clock = s.clock := by
  unfold raiseIncRange; simp

@[simp] theorem gearStore_clock (a : Fin 112) (g : Gear) (s : State) : (gearStore a g s).clock = s.clock := by
  unfold gearStore; simp

@[simp] theorem modFollow_clock (a : Fin 112) (f : FollowRegs → FollowRegs) (s : State) :
    (modFollow a f s).clock = s.clock := by
  unfold modFollow; simp

@[simp] theorem gearEngaged_clock (a : Fin 112) (s : State) : (gearEngaged a s).clock = s.clock := by
  unfold gearEngaged; simp

theorem gearRun_clock {a : Fin 112} {modulus : Option Int} {p m k : Int} {s : State} {r : Int × State}
    (h : gearRun a modulus p m k s = some r) : r.2.clock = s.clock := by
  unfold gearRun at h
  dsimp only at h
  split at h
  · cases h
  · injection h with h; subst h; exact gearStore_clock ..
theorem gearRamp_clock {a : Fin 112} {x : Batch} {p m : Int} {s : State} {r : Int × State}
    (h : gearRamp a x p m s = some r) : r.2.clock = s.clock := by
  unfold gearRamp at h
  dsimp only at h
  repeat' split at h
  · cases h
  · injection h with h; subst h; exact modAxis_clock ..
  · exact (gearRun_clock h).trans ((gearEngaged_clock ..).trans (modAxis_clock ..))
  · exact (gearRun_clock h).trans ((gearEngaged_clock ..).trans (modAxis_clock ..))
theorem gearStart_clock {a : Fin 112} {x : Batch} {p m : Int} {s : State} {r : Int × State}
    (h : gearStart a x p m s = some r) : r.2.clock = s.clock := by
  unfold gearStart at h
  dsimp only at h
  split at h
  · exact (gearRun_clock h).trans ((gearEngaged_clock ..).trans (modAxis_clock ..))
  · exact (gearRamp_clock h).trans ((modFollow_clock ..).trans (modAxis_clock ..))
theorem gearStep_clock {a : Fin 112} {x : Batch} {s : State} {r : Int × State}
    (h : gearStep a x s = some r) : r.2.clock = s.clock := by
  unfold gearStep at h
  dsimp only at h
  repeat' split at h
  · exact gearStart_clock h
  · injection h with h; subst h; rfl
  · exact gearRamp_clock h
  · exact (gearRun_clock h).trans (modAxis_clock ..)
  · injection h with h; subst h; rfl

@[simp] theorem gearPour_clock (a : Fin 112) (x : Batch) (s : State) : (gearPour a x s).2.clock = s.clock := by
  unfold gearPour
  split
  · exact raiseIncRange_clock ..
  · cases h : gearStep a x s with
    | none => exact raiseIncRange_clock ..
    | some r => exact gearStep_clock h

@[simp] theorem regTake_clock (a : Fin 112) (s : State) : (regTake a s).clock = s.clock := by
  unfold regTake; simp

@[simp] theorem regPour_clock (a : Fin 112) (s : State) : (regPour a s).2.clock = s.clock := by
  unfold regPour; simp

@[simp] theorem softCheck_clock (a : Fin 112) (before : Int) (s : State) : (softCheck a before s).clock = s.clock := by
  unfold softCheck; simp

@[simp] theorem limiterPour_clock (a : Fin 112) (inc : Int) (s : State) : (limiterPour a inc s).clock = s.clock := by
  unfold limiterPour; simp

@[simp] theorem stagePour_clock (a : Fin 112) (inc : Int) (s : State) : (stagePour a inc s).clock = s.clock := by
  unfold stagePour; simp

@[simp] theorem camStart_clock (a : Fin 112) (s : State) : (camStart a s).clock = s.clock := by
  unfold camStart; simp

@[simp] theorem camEnd_clock (a : Fin 112) (s : State) : (camEnd a s).clock = s.clock := by
  unfold camEnd; simp

theorem camRun_clock {a : Fin 112} {m : Int} {pred : Option State} {s : State} {r : Int × State}
    (h : camRun a m pred s = some r) : r.2.clock = s.clock := by
  unfold camRun at h
  extract_lets c0 c out inc s1 s2 at h
  split at h
  · cases h
  · injection h with h
    rw [← h]
    have h1 : s1.clock = s.clock := camStore_clock ..
    refine (camEnd_clock ..).trans ?_
    dsimp only [s2]
    split
    · exact (camSwapped_clock ..).trans h1
    · exact h1
theorem camStep_clock {a : Fin 112} {x : Batch} {pred : Option State} {s : State} {r : Int × State}
    (h : camStep a x pred s = some r) : r.2.clock = s.clock := by
  unfold camStep at h
  dsimp only at h
  repeat' split at h
  · exact (camRun_clock h).trans (camStart_clock ..)
  · injection h with h; subst h; rfl
  · exact camRun_clock h
  · exact camRun_clock h
  · injection h with h; subst h; rfl

@[simp] theorem camPour_clock (a : Fin 112) (x : Batch) (pred : Option State) (s : State) :
    (camPour a x pred s).2.clock = s.clock := by
  unfold camPour
  split
  · exact raiseIncRange_clock ..
  · cases h : camStep a x pred s with
    | none => exact raiseIncRange_clock ..
    | some r => exact camStep_clock h

@[simp] theorem axisPour_clock (pred : Option State) (a : Fin 112) (s : State) : (axisPour pred a s).clock = s.clock := by
  unfold axisPour; simp

@[simp] theorem evalChains_clock (pred : Option (State × List (Fin 32))) (s : State) :
    (evalChains pred s).clock = s.clock := by
  unfold evalChains; simp

@[simp] theorem modSlot_clock (i : Fin 32) (f : Slot → Slot) (s : State) : (modSlot i f s).clock = s.clock := by
  unfold modSlot; simp

@[simp] theorem giveAll_clock (v : Fin 32 → Fix) (is : List (Fin 32)) (s : State) : (giveAll v is s).clock = s.clock := by
  unfold giveAll; simp

@[simp] theorem overlay_clock (a : Fin 112) (d : Int) (vel : Fix) (acc : Fix) (s : State) :
    (overlay a d vel acc s).clock = s.clock := by
  unfold overlay; simp

@[simp] theorem pourChains_clock (pred : Fin 32 → Fix) (true_ : Fin 32 → Fix) (s : State) :
    (pourChains pred true_ s).clock = s.clock := by
  have he (p s) : (evalChains p s).clock = s.clock := evalChains_clock p s
  have hg (v l s) : (giveAll v l s).clock = s.clock := giveAll_clock v l s
  have hf (n : Nat) (s : State) : State.clock { s with freeCtr := n } = s.clock := rfl
  unfold pourChains
  extract_lets cor ovr p n t
  refine ite_clock (he ..) (ite_clock ?_ ?_)
  · exact (he ..).trans (hf ..)
  · refine (foldl_clock _ (fun s a => ?_) _ _).trans ((hf ..).trans ((he ..).trans (hf ..)))
    exact ite_clock (overlay_clock ..) rfl

@[simp] theorem setAccessEnd_clock (e : PcieEnd) (s : State) : (setAccessEnd e s).clock = s.clock := by
  unfold setAccessEnd; simp

@[simp] theorem drainOne_clock (s : State) : (drainOne s).clock = s.clock := by
  unfold drainOne; (try dsimp only); (repeat' split) <;> simp

@[simp] theorem drainReplies_clock (q0 : Nat) (q1 : State) : (drainReplies q0 q1).clock = q1.clock := by
  induction q0 generalizing q1 with
  | zero => rfl
  | succ n ih => simp only [drainReplies]; rw [ih, drainOne_clock]

@[simp] theorem rspConsumed_clock (cons : BitVec 16) (s : State) : (rspConsumed cons s).clock = s.clock := by
  unfold rspConsumed; simp

@[simp] theorem evtConsumed_clock (cons : BitVec 16) (s : State) : (evtConsumed cons s).clock = s.clock := by
  unfold evtConsumed; simp

@[simp] theorem writeIdentWord_clock (o : Nat) (v : Word) (s : State) : (writeIdentWord o v s).clock = s.clock := by
  unfold writeIdentWord; simp

@[simp] theorem modCompare_clock (u : Fin 16) (f : CompareUnit → CompareUnit) (s : State) :
    (modCompare u f s).clock = s.clock := by
  unfold modCompare; simp

@[simp] theorem clearAxisWord_clock (a : Fin 112) (o : Nat) (v : Word) (s : State) :
    (clearAxisWord a o v s).clock = s.clock := by
  unfold clearAxisWord; (try dsimp only); (repeat' split) <;> simp

@[simp] theorem directWrite_clock (i : Fin 96) (coef : Fin 7) (v : Word) (s : State) :
    (directWrite i coef v s).clock = s.clock := by
  unfold directWrite; simp

@[simp] theorem writeLoopWord_clock (i : Fin 96) (o : Nat) (v : Word) (s : State) :
    (writeLoopWord i o v s).clock = s.clock := by
  unfold writeLoopWord; simp

@[simp] theorem clearTileWord_clock (t : Fin 16) (o : Nat) (v : Word) (s : State) :
    (clearTileWord t o v s).clock = s.clock := by
  unfold clearTileWord; simp

@[simp] theorem modDcl_clock (g : Fin 4) (f : DclGroup → DclGroup) (s : State) : (modDcl g f s).clock = s.clock := by
  unfold modDcl; simp

@[simp] theorem clearFeedbackWord_clock (o : Nat) (v : Word) (s : State) : (clearFeedbackWord o v s).clock = s.clock := by
  unfold clearFeedbackWord; (try dsimp only); (repeat' split) <;> simp

@[simp] theorem modRing_clock (f : MarkRegs → MarkRegs) (s : State) : (modRing f s).clock = s.clock := by
  unfold modRing; simp

@[simp] theorem consumeTo_clock (c : BitVec 16) (s : State) : (consumeTo c s).clock = s.clock := by
  unfold consumeTo; simp

@[simp] theorem modCap_clock (c : Fin 48) (f : CapInput → CapInput) (s : State) : (modCap c f s).clock = s.clock := by
  unfold modCap; simp

@[simp] theorem releaseSeg_clock (u : Fin 8) (k : Fin 64) (s : State) : (releaseSeg u k s).clock = s.clock := by
  unfold releaseSeg; simp

@[simp] theorem writeGeyserWord_clock (o : Nat) (v : Word) (s : State) : (writeGeyserWord o v s).clock = s.clock := by
  unfold writeGeyserWord; (try dsimp only); (repeat' split) <;> simp

@[simp] theorem modFio_clock (c : Fin 24) (f : FioChannel → FioChannel) (s : State) : (modFio c f s).clock = s.clock := by
  unfold modFio; simp

@[simp] theorem clearFioWord_clock (o : Nat) (v : Word) (s : State) : (clearFioWord o v s).clock = s.clock := by
  unfold clearFioWord; (try dsimp only); (repeat' split) <;> simp

@[simp] theorem writePowerWord_clock (o : Nat) (v : Word) (s : State) : (writePowerWord o v s).clock = s.clock := by
  unfold writePowerWord; (try dsimp only); (repeat' split) <;> simp

@[simp] theorem writeInput_clock (o : Nat) (v : Word) (s : State) : (writeInput o v s).clock = s.clock := by
  unfold writeInput; simp

@[simp] theorem windowPut.windowPutHigh_clock (a : Nat) (v : Word) (s : State) :
    (windowPut.windowPutHigh a v s).clock = s.clock := by
  unfold windowPut.windowPutHigh
  refine ite_clock ?_ (ite_clock ?_ (ite_clock ?_ (ite_clock ?_ (ite_clock ?_ (ite_clock ?_ (ite_clock ?_ (ite_clock ?_ (ite_clock (ite_clock ?_ (ite_clock ?_ ?_)) (ite_clock ?_ (ite_clock ?_ (ite_clock ?_ ?_)))))))))))
  · split <;> first | rfl | exact modEngine_clock ..
  · split <;> first | rfl | exact clearTileWord_clock ..
  · split <;> first | rfl | exact modDcl_clock ..
  · exact clearFeedbackWord_clock ..
  · exact writeGeyserWord_clock ..
  · rfl
  · exact clearFioWord_clock ..
  · split <;> first | rfl | exact modCan_clock ..
  · split <;> first | rfl | exact modPort_clock ..
  · exact State.clock_mk ..
  · rfl
  · exact writePowerWord_clock ..
  · exact writeInput_clock ..
  · exact modPower_clock ..
  · rfl

@[simp] theorem windowPut_clock (a : Nat) (v : Word) (s : State) : (windowPut a v s).clock = s.clock := by
  unfold windowPut
  refine ite_clock ?_ (ite_clock ?_ (ite_clock ?_ (ite_clock ?_ (ite_clock ?_ (ite_clock ?_ ?_)))))
  · exact writeIdentWord_clock ..
  · refine ite_clock ?_ ?_
    · split <;> first | rfl | exact modCompare_clock ..
    · exact State.clock_mk ..
  · rfl
  · split <;> first | rfl | exact clearAxisWord_clock ..
  · split <;> first | rfl | exact writeLoopWord_clock ..
  · split <;> first | rfl | exact modTrace_clock ..
  · exact windowPut.windowPutHigh_clock ..

@[simp] theorem busWrite_clock (addr : Word) (v : Word) (bytes : Nat) (s : State) :
    (busWrite addr v bytes s).clock = s.clock := by
  unfold busWrite; simp

@[simp] theorem rateEntries_clock (t : Fin 16) (kv : Nat) (kp : Nat) (s : State) :
    (rateEntries t kv kp s).clock = s.clock := by
  unfold rateEntries; simp

@[simp] theorem applyLoopRate_clock (p : Packet) (s : State) : (applyLoopRate p s).clock = s.clock := by
  unfold applyLoopRate; simp

@[simp] theorem runConfigBegin_clock (p : Packet) (s : State) : (runConfigBegin p s).s.clock = s.clock := by
  unfold runConfigBegin; simp

@[simp] theorem setEntries_clock (n : Fin 4) (q : Fin 2) (l : List (List Word)) (s : State) :
    (setEntries n q l s).clock = s.clock := by
  unfold setEntries; simp

@[simp] theorem rxqRead_clock (n : Fin 4) (q : Fin 2) (w : Nat) (s : State) : (rxqRead n q w s).clock = s.clock := by
  unfold rxqRead; simp

@[simp] theorem windowReadEffect_clock (a : Nat) (s : State) : (windowReadEffect a s).clock = s.clock := by
  unfold windowReadEffect; simp

@[simp] theorem runDclStatus_clock (p : Packet) (s : State) : (runDclStatus p s).s.clock = s.clock := by
  unfold runDclStatus; simp

@[simp] theorem startOp_clock (op : BitVec 16) (p : Packet) (s : State) : (startOp op p s).s.clock = s.clock := by
  unfold startOp; simp

@[simp] theorem moduleSet_clock (cmds : List StagedCmd) (s : State) : (moduleSet cmds s).clock = s.clock := by
  unfold moduleSet; simp

@[simp] theorem runMotorIdentify_clock (p : Packet) (s : State) : (runMotorIdentify p s).s.clock = s.clock := by
  unfold runMotorIdentify; simp

@[simp] theorem noteTick_clock (t : Fin 16) (tk : TickRegs) (j : Nat) (due : Fix) (s : State) :
    (noteTick t tk j due s).clock = s.clock := by
  unfold noteTick; simp

@[simp] theorem fillEntry_clock (e : Fin 32) (k : Fin 16) (s : State) : (fillEntry e k s).clock = s.clock := by
  unfold fillEntry; simp

@[simp] theorem takeLocal_clock (t : Fin 16) (tk : TickRegs) (due : Fix) (s : State) :
    (takeLocal t tk due s).clock = s.clock := by
  unfold takeLocal; simp

@[simp] theorem histPush_clock (a : Fin 112) (h : HistSample) (s : State) : (histPush a h s).clock = s.clock := by
  unfold histPush; simp

@[simp] theorem histLatch_clock (t : Fin 16) (due : Fix) (s : State) : (histLatch t due s).clock = s.clock := by
  unfold histLatch; simp

@[simp] theorem encLatch_clock (e : Fin 17) (dt : Fix) (s : State) : (encLatch e dt s).clock = s.clock := by
  unfold encLatch; (try dsimp only); (repeat' split) <;> simp

@[simp] theorem modSv_clock (t : Fin 16) (f : Sv → Sv) (s : State) : (modSv t f s).clock = s.clock := by
  unfold modSv; simp

@[simp] theorem tilePut_clock (t : Fin 16) (w : Nat) (v : Word) (s : State) : (tilePut t w v s).clock = s.clock := by
  unfold tilePut; simp

@[simp] theorem stepTake_clock (t : Fin 16) (due : Fix) (s : State) : (stepTake t due s).clock = s.clock := by
  unfold stepTake; simp

@[simp] theorem tickEdge_clock (tk : TickRegs) (j : Nat) (due : Fix) (s : State) :
    (tickEdge tk j due s).clock = s.clock := by
  unfold tickEdge; (try dsimp only); (repeat' split) <;> simp

@[simp] theorem fillCoefs_clock (i : Fin 96) (s : State) : (fillCoefs i s).clock = s.clock := by
  unfold fillCoefs; (try dsimp only); (repeat' split) <;> simp

@[simp] theorem applyDirect_clock (i : Fin 96) (w : DirectWrite) (rest : List DirectWrite) (s : State) :
    (applyDirect i w rest s).clock = s.clock := by
  unfold applyDirect; simp

@[simp] theorem applyDirects_clock (i : Fin 96) (q1 : List DirectWrite) (q2 : List DirectWrite) (q3 : State) :
    (applyDirects i q1 q2 q3).clock = q3.clock := by
  induction q1 generalizing q2 q3 with
  | nil => rfl
  | cons w ws ih => unfold applyDirects; rw [ih, applyDirect_clock]

@[simp] theorem takeDirects_clock (i : Fin 96) (due : Fix) (s : State) : (takeDirects i due s).clock = s.clock := by
  unfold takeDirects; simp

@[simp] theorem tickOverrun_clock (e : Fin 32) (k : Fin 16) (raises : Bool) (s : State) :
    (tickOverrun e k raises s).clock = s.clock := by
  unfold tickOverrun; simp

@[simp] theorem fireEntry_clock (e : Fin 32) (k : Fin 16) (j : Nat) (due : Fix) (s : State) :
    (fireEntry e k j due s).clock = s.clock := by
  unfold fireEntry; simp

@[simp] theorem occurs_clock (e : Fin 32) (k : Fin 16) (j : Nat) (s : State) : (occurs e k j s).clock = s.clock := by
  unfold occurs; simp

@[simp] theorem interruptEngines_clock (u : Fin 16) (mask : Word) (s : State) :
    (interruptEngines u mask s).clock = s.clock := by
  unfold interruptEngines; simp

@[simp] theorem uvWatch_clock (g : Fin 4) (s : State) : (uvWatch g s).clock = s.clock := by
  unfold uvWatch; simp

@[simp] theorem runLeImageBegin_clock (p : Packet) (s : State) : (runLeImageBegin p s).s.clock = s.clock := by
  unfold runLeImageBegin; simp

@[simp] theorem runImageStreamSet_clock (p : Packet) (s : State) : (runImageStreamSet p s).s.clock = s.clock := by
  unfold runImageStreamSet; simp

@[simp] theorem runTableLoad_clock (p : Packet) (s : State) : (runTableLoad p s).s.clock = s.clock := by
  unfold runTableLoad; simp

@[simp] theorem runTraceStatus_clock (p : Packet) (s : State) : (runTraceStatus p s).s.clock = s.clock := by
  unfold runTraceStatus; simp

@[simp] theorem runSvPolicy_clock (p : Packet) (s : State) : (runSvPolicy p s).s.clock = s.clock := by
  unfold runSvPolicy; simp

@[simp] theorem runLeImageData_clock (p : Packet) (s : State) : (runLeImageData p s).s.clock = s.clock := by
  unfold runLeImageData; simp

@[simp] theorem enterRun_clock (t : Fin 16) (s : State) : (enterRun t s).clock = s.clock := by
  unfold enterRun; simp

@[simp] theorem countUpdate_clock (t : Fin 16) (s : State) : (countUpdate t s).clock = s.clock := by
  unfold countUpdate; simp

@[simp] theorem startSegment_clock (t : Fin 16) (half : Bool) (s : State) : (startSegment t half s).clock = s.clock := by
  unfold startSegment; simp

@[simp] theorem centreUpdate_clock (t : Fin 16) (s : State) : (centreUpdate t s).clock = s.clock := by
  unfold centreUpdate; simp

@[simp] theorem modCal_clock (f : Caldera → Caldera) (s : State) : (modCal f s).clock = s.clock := by
  unfold modCal; simp

@[simp] theorem modGroup_clock (g : Fin 2) (f : SafetyGroup → SafetyGroup) (s : State) :
    (modGroup g f s).clock = s.clock := by
  unfold modGroup; simp

@[simp] theorem modSafeTile_clock (t : Fin 16) (f : SafetyTile → SafetyTile) (s : State) :
    (modSafeTile t f s).clock = s.clock := by
  unfold modSafeTile; simp

@[simp] theorem stoTile_clock (t : Fin 16) (s : State) : (stoTile t s).clock = s.clock := by
  unfold stoTile; simp

@[simp] theorem modSbo_clock (o : Fin 4) (f : Sbo → Sbo) (s : State) : (modSbo o f s).clock = s.clock := by
  unfold modSbo; simp

@[simp] theorem sboOff_clock (o : Fin 4) (s : State) : (sboOff o s).clock = s.clock := by
  unfold sboOff; simp

@[simp] theorem calCount_clock (get : Caldera → Word) (set : Caldera → Word → Caldera) (s : State) :
    (calCount get set s).clock = s.clock := by
  unfold calCount; simp

@[simp] theorem calRaise_clock (code : BitVec 16) (cls : Cls) (p0 : Word) (p1 : Word) (p2 : Word) (axs : List
    (Fin 112)) (s : State) : (calRaise code cls p0 p1 p2 axs s).clock = s.clock := by
  unfold calRaise; simp

@[simp] theorem enterSto_clock (g : Fin 2) (cause : Word) (s : State) : (enterSto g cause s).clock = s.clock := by
  unfold enterSto; simp

@[simp] theorem faultSto_clock (code : BitVec 16) (g : Fin 2) (s : State) : (faultSto code g s).clock = s.clock := by
  unfold faultSto; simp

@[simp] theorem calHistory_clock (code : BitVec 16) (p0 : Word) (p1 : Word) (s : State) :
    (calHistory code p0 p1 s).clock = s.clock := by
  unfold calHistory; simp

@[simp] theorem calFaultEv_clock (code : BitVec 16) (p0 : Word) (p1 : Word) (p2 : Word) (s : State) :
    (calFaultEv code p0 p1 p2 s).clock = s.clock := by
  unfold calFaultEv; simp

@[simp] theorem modTime_clock (f : TimeUnit → TimeUnit) (s : State) : (modTime f s).clock = s.clock := by
  unfold modTime; simp

@[simp] theorem modTimeRegs_clock (f : TimeRegs → TimeRegs) (s : State) : (modTimeRegs f s).clock = s.clock := by
  unfold modTimeRegs; simp

@[simp] theorem enterTimeState_clock (st : BitVec 2) (s : State) : (enterTimeState st s).clock = s.clock := by
  unfold enterTimeState; simp

@[simp] theorem enterFree_clock (s : State) : (enterFree s).clock = s.clock := by
  unfold enterFree; simp

@[simp] theorem modCam_clock (c : Fin 16) (f : CamTable → CamTable) (s : State) : (modCam c f s).clock = s.clock := by
  unfold modCam; simp

@[simp] theorem pourFeedback_clock (t : Fin 16) (s : State) : (pourFeedback t s).clock = s.clock := by
  unfold pourFeedback; (try dsimp only); (repeat' split) <;> simp

@[simp] theorem canSettle_clock (n : Fin 4) (s : State) : (canSettle n s).clock = s.clock := by
  unfold canSettle; simp

@[simp] theorem runAxisPolicy_clock (p : Packet) (s : State) : (runAxisPolicy p s).s.clock = s.clock := by
  unfold runAxisPolicy; simp

@[simp] theorem runVaultWrite_clock (p : Packet) (s : State) : (runVaultWrite p s).s.clock = s.clock := by
  unfold runVaultWrite; simp

@[simp] theorem cancelCompare_clock (u : Fin 16) (s : State) : (cancelCompare u s).clock = s.clock := by
  unfold cancelCompare; simp

@[simp] theorem runCompareArm_clock (p : Packet) (s : State) : (runCompareArm p s).s.clock = s.clock := by
  unfold runCompareArm; simp

@[simp] theorem traceCompare_clock (u : Fin 16) (s : State) : (traceCompare u s).clock = s.clock := by
  unfold traceCompare; simp

@[simp] theorem guCompare_clock (cu : Fin 16) (s : State) : (guCompare cu s).clock = s.clock := by
  unfold guCompare; simp

@[simp] theorem modTileRegs_clock (t : Fin 16) (f : TileRegs → TileRegs) (s : State) :
    (modTileRegs t f s).clock = s.clock := by
  unfold modTileRegs; simp

@[simp] theorem closeLeg_clock (t : Fin 16) (h : Fin 4) (s : State) : (closeLeg t h s).clock = s.clock := by
  unfold closeLeg; simp

@[simp] theorem modFoc_clock (t : Fin 16) (f : Foc → Foc) (s : State) : (modFoc t f s).clock = s.clock := by
  unfold modFoc; simp

@[simp] theorem closeWindow_clock (t : Fin 16) (s : State) : (closeWindow t s).clock = s.clock := by
  unfold closeWindow
  extract_lets tl v n case_ missing shifted word sh good ends s1
  exact ite_clock rfl (ite_clock ((clearCond_clock ..).trans (modFoc_clock ..)) (modFoc_clock ..))

@[simp] theorem takeSettings_clock (t : Fin 16) (s : State) : (takeSettings t s).clock = s.clock := by
  unfold takeSettings; (try dsimp only); (repeat' split) <;> simp

@[simp] theorem startPeriod_clock (t : Fin 16) (whole : Bool) (s : State) : (startPeriod t whole s).clock = s.clock := by
  unfold startPeriod; simp

@[simp] theorem resyncTile_clock (t : Fin 16) (s : State) : (resyncTile t s).clock = s.clock := by
  unfold resyncTile; simp

@[simp] theorem rearmCompare_clock (u : Fin 16) (s : State) : (rearmCompare u s).clock = s.clock := by
  unfold rearmCompare; simp

@[simp] theorem fireCompare_clock (u : Fin 16) (s : State) : (fireCompare u s).clock = s.clock := by
  unfold fireCompare; simp

@[simp] theorem canNote_clock (n : Fin 4) (code : BitVec 16) (p0 : Word) (p1 : Word) (p2 : Word) (s : State) :
    (canNote n code p0 p1 p2 s).clock = s.clock := by
  unfold canNote; simp

@[simp] theorem complete_clock (n : Fin 4) (h : BitVec 16) (status : Fin 9) (p2 : Word) (s : State) :
    (complete n h status p2 s).clock = s.clock := by
  unfold complete; simp

@[simp] theorem completeAll_clock (n : Fin 4) (status : Fin 9) (s : State) :
    (completeAll n status s).clock = s.clock := by
  unfold completeAll; simp

@[simp] theorem enterMode_clock (n : Fin 4) (m : BitVec 3) (s : State) : (enterMode n m s).clock = s.clock := by
  unfold enterMode; simp

@[simp] theorem wake_clock (n : Fin 4) (cause : Word) (s : State) : (wake n cause s).clock = s.clock := by
  unfold wake; simp

@[simp] theorem modLinkRing_clock (r : Fin 2) (f : Ring → Ring) (s : State) : (modLinkRing r f s).clock = s.clock := by
  unfold modLinkRing; simp

@[simp] theorem setRingState_clock (r : Fin 2) (v : BitVec 2) (s : State) : (setRingState r v s).clock = s.clock := by
  unfold setRingState; simp

@[simp] theorem noMaster_clock (r : Fin 2) (s : State) : (noMaster r s).clock = s.clock := by
  unfold noMaster; simp

@[simp] theorem stopDomain_clock (s : State) : (stopDomain s).clock = s.clock := by
  unfold stopDomain; simp

@[simp] theorem canRun_clock (f : Packet → State → Reply) (p : Packet) (s : State) (h_f : ∀ x0 x1,
    (f x0 x1).s.clock = x1.clock) : (canRun f p s).s.clock = s.clock := by
  unfold canRun; simp [*]

@[simp] theorem runCanSleep_clock (p : Packet) (s : State) : (runCanSleep p s).s.clock = s.clock := by
  unfold runCanSleep; simp

@[simp] theorem modCanRegs_clock (n : Fin 4) (f : CanRegs → CanRegs) (s : State) :
    (modCanRegs n f s).clock = s.clock := by
  unfold modCanRegs; simp

@[simp] theorem canCount_clock (n : Fin 4) (get : CanRegs → Word) (set : CanRegs → Word → CanRegs) (s : State) :
    (canCount n get set s).clock = s.clock := by
  unfold canCount; simp

@[simp] theorem ttMissed_clock (n : Fin 4) (j : Fin 64) (error : Bool) (s : State) :
    (ttMissed n j error s).clock = s.clock := by
  unfold ttMissed; simp

@[simp] theorem emit_clock (o : LinkOut) (s : State) : (emit o s).clock = s.clock := by
  unfold emit; simp

@[simp] theorem modMap_clock (r : Fin 2) (pos : Fin 65) (f : MapEntry → MapEntry) (s : State) :
    (modMap r pos f s).clock = s.clock := by
  unfold modMap; simp

@[simp] theorem challengePos_clock (r : Fin 2) (pos : Fin 65) (s : State) : (challengePos r pos s).clock = s.clock := by
  unfold challengePos; simp

@[simp] theorem challengeAll_clock (r : Fin 2) (s : State) : (challengeAll r s).clock = s.clock := by
  unfold challengeAll; simp

@[simp] theorem modPps_clock (n : Fin 8) (f : PulseOut → PulseOut) (s : State) : (modPps n f s).clock = s.clock := by
  unfold modPps; simp

@[simp] theorem runPpsStop_clock (p : Packet) (s : State) : (runPpsStop p s).s.clock = s.clock := by
  unfold runPpsStop; simp

@[simp] theorem runFbPolicy_clock (p : Packet) (s : State) : (runFbPolicy p s).s.clock = s.clock := by
  unfold runFbPolicy; simp

@[simp] theorem runTraceConfig_clock (p : Packet) (s : State) : (runTraceConfig p s).s.clock = s.clock := by
  unfold runTraceConfig; simp

@[simp] theorem capLost_clock (c : Fin 48) (s : State) : (capLost c s).clock = s.clock := by
  unfold capLost; simp

@[simp] theorem capWrite_clock (c : Fin 48) (seq : BitVec 16) (ws : List Word) (s : State) :
    (capWrite c seq ws s).clock = s.clock := by
  unfold capWrite; simp

@[simp] theorem capRecord_clock (c : Fin 48) (e : RawEdge) (s : State) : (capRecord c e s).clock = s.clock := by
  unfold capRecord; simp

@[simp] theorem pwmUpdate_clock (t : Fin 16) (centre : Bool) (s : State) : (pwmUpdate t centre s).clock = s.clock := by
  unfold pwmUpdate; simp

@[simp] theorem cancelPps_clock (n : Fin 8) (s : State) : (cancelPps n s).clock = s.clock := by
  unfold cancelPps; simp

@[simp] theorem startMove_clock (a : Fin 112) (m : Move) (s : State) : (startMove a m s).clock = s.clock := by
  unfold startMove; simp

@[simp] theorem runTilePolicy_clock (p : Packet) (s : State) : (runTilePolicy p s).s.clock = s.clock := by
  unfold runTilePolicy; simp

@[simp] theorem ownEntries_clock (s : State) : (ownEntries s).clock = s.clock := by
  unfold ownEntries
  split
  · rfl
  · refine foldl_clock _ (fun s i => ?_) _ _
    dsimp only
    split <;> simp

@[simp] theorem reforceLegs_clock (t : Fin 16) (s : State) : (reforceLegs t s).clock = s.clock := by
  unfold reforceLegs; simp

@[simp] theorem modFioModule_clock (f : FioModuleRegs → FioModuleRegs) (s : State) :
    (modFioModule f s).clock = s.clock := by
  unfold modFioModule; simp

@[simp] theorem observerTick_clock (t : Fin 16) (s : State) : (observerTick t s).clock = s.clock := by
  unfold observerTick; simp

@[simp] theorem failAxis_clock (a : Fin 112) (s : State) : (failAxis a s).clock = s.clock := by
  unfold failAxis; simp

@[simp] theorem criticalError_clock (src : BitVec 3) (addr : Word) (s : State) :
    (criticalError src addr s).clock = s.clock := by
  unfold criticalError; simp

@[simp] theorem modPpsRegs_clock (n : Fin 8) (f : PpsRegs → PpsRegs) (s : State) :
    (modPpsRegs n f s).clock = s.clock := by
  unfold modPpsRegs; simp

@[simp] theorem countEdge_clock (n : Fin 8) (s : State) : (countEdge n s).clock = s.clock := by
  unfold countEdge; simp

@[simp] theorem ppsTrailing_clock (n : Fin 8) (s : State) : (ppsTrailing n s).clock = s.clock := by
  unfold ppsTrailing; simp

@[simp] theorem ppsLeading_clock (n : Fin 8) (s : State) : (ppsLeading n s).clock = s.clock := by
  unfold ppsLeading; simp

@[simp] theorem stallTick_clock (t : Fin 16) (s : State) : (stallTick t s).clock = s.clock := by
  unfold stallTick; simp

@[simp] theorem runEventSubscribe_clock (p : Packet) (s : State) : (runEventSubscribe p s).s.clock = s.clock := by
  unfold runEventSubscribe; simp

@[simp] theorem allSboOff_clock (s : State) : (allSboOff s).clock = s.clock := by
  unfold allSboOff; simp

@[simp] theorem bothSto_clock (code : BitVec 16) (s : State) : (bothSto code s).clock = s.clock := by
  unfold bothSto; simp

@[simp] theorem calderaFault_clock (cause : BitVec 8) (s : State) : (calderaFault cause s).clock = s.clock := by
  unfold calderaFault; simp

@[simp] theorem runIdentResult_clock (p : Packet) (s : State) : (runIdentResult p s).s.clock = s.clock := by
  unfold runIdentResult; simp

@[simp] theorem runFirmwareData_clock (p : Packet) (s : State) : (runFirmwareData p s).s.clock = s.clock := by
  unfold runFirmwareData; simp

@[simp] theorem runSvStatus_clock (p : Packet) (s : State) : (runSvStatus p s).s.clock = s.clock := by
  unfold runSvStatus; simp

@[simp] theorem clearLeFault_clock (e : Fin 32) (s : State) : (clearLeFault e s).clock = s.clock := by
  unfold clearLeFault; simp

@[simp] theorem startEngine_clock (e : Fin 32) (s : State) : (startEngine e s).clock = s.clock := by
  unfold startEngine; simp

@[simp] theorem reloadEngine_clock (e : Fin 32) (s : State) : (reloadEngine e s).clock = s.clock := by
  unfold reloadEngine; simp

@[simp] theorem installImage_clock (e : Fin 32) (ld : EngineLoad) (s : State) :
    (installImage e ld s).clock = s.clock := by
  unfold installImage; simp

@[simp] theorem loadEngines_clock (img : ConfigImage) (s : State) : (loadEngines img s).clock = s.clock := by
  unfold loadEngines; simp

@[simp] theorem issueFree_clock (e : Fin 32) (body : Engine → State → LeOut) (s : State) :
    (issueFree e body s).clock = s.clock := by
  unfold issueFree; simp

@[simp] theorem beginPacket_clock (op : BitVec 16) (p : Packet) (s : State) : (beginPacket op p s).clock = s.clock := by
  unfold beginPacket; simp

@[simp] theorem sendTunnel_clock (p : Packet) (s : State) : (sendTunnel p s).clock = s.clock := by
  unfold sendTunnel; simp

@[simp] theorem thawTile_clock (halt : Bool) (t : Fin 16) (s : State) : (thawTile halt t s).clock = s.clock := by
  unfold thawTile; simp

@[simp] theorem readCapture_clock (a : Nat) (s : State) : (readCapture a s).2.clock = s.clock := by
  unfold readCapture; (try dsimp only); (repeat' split) <;> simp

@[simp] theorem takeInputs_clock (s : State) : (takeInputs s).clock = s.clock := by
  unfold takeInputs; simp

@[simp] theorem presetOut_clock (i : Fin 96) (v : Word) (s : State) : (presetOut i v s).clock = s.clock := by
  unfold presetOut; (try dsimp only); (repeat' split) <;> simp

@[simp] theorem searchStop_clock (s : State) : (searchStop s).clock = s.clock := by
  unfold searchStop; simp

@[simp] theorem innerTicked_clock (i : Fin 96) (s : State) : (innerTicked i s).clock = s.clock := by
  unfold innerTicked; simp

@[simp] theorem modSvRegs_clock (t : Fin 16) (f : SvRegs → SvRegs) (s : State) : (modSvRegs t f s).clock = s.clock := by
  unfold modSvRegs; simp

@[simp] theorem ctxPuts_clock (e : Fin 32) (c : Nat) (w : Nat) (vs : List Word) (s : State) :
    (ctxPuts e c w vs s).clock = s.clock := by
  unfold ctxPuts; simp

@[simp] theorem ctxFlag_clock (e : Fin 32) (c : Nat) (v : Word) (s : State) : (ctxFlag e c v s).clock = s.clock := by
  unfold ctxFlag; simp

@[simp] theorem runLaw_clock (i : Fin 96) (e : Fin 32) (c : Nat) (x : LawIn) (s : State) :
    (runLaw i e c x s).clock = s.clock := by
  unfold runLaw; (try dsimp only); (repeat' split) <;> simp

@[simp] theorem wordTick_clock (i : Fin 96) (e : Fin 32) (c : Nat) (sp : Word) (fb : Word) (ff : Word) (s : State) :
    (wordTick i e c sp fb ff s).clock = s.clock := by
  unfold wordTick; simp

@[simp] theorem openRun_clock (t : Fin 16) (c : Fin 2) (i : Fin 96) (sp : Word) (fb : Word) (s : State) :
    (openRun t c i sp fb s).clock = s.clock := by
  unfold openRun; simp

@[simp] theorem focPort_clock (t : Fin 16) (w : Nat) (v : Word) (s : State) : (focPort t w v s).clock = s.clock := by
  unfold focPort; simp

@[simp] theorem valveTick_clock (t : Fin 16) (e : Fin 32) (c0 : Nat) (c1 : Nat) (due : Fix) (s : State) :
    (valveTick t e c0 c1 due s).clock = s.clock := by
  unfold valveTick; simp

@[simp] theorem runAxisScale_clock (p : Packet) (s : State) : (runAxisScale p s).s.clock = s.clock := by
  unfold runAxisScale; simp

@[simp] theorem runLinkPolicySet_clock (p : Packet) (s : State) : (runLinkPolicySet p s).s.clock = s.clock := by
  unfold runLinkPolicySet; simp

@[simp] theorem runCamStatus_clock (p : Packet) (s : State) : (runCamStatus p s).s.clock = s.clock := by
  unfold runCamStatus; simp

@[simp] theorem startLoops_clock (t : Fin 16) (s : State) : (startLoops t s).clock = s.clock := by
  unfold startLoops; dsimp only
  refine foldl_clock _ (fun s i => ?_) _ _
  repeat' split
  all_goals simp

@[simp] theorem runCapRead_clock (p : Packet) (s : State) : (runCapRead p s).s.clock = s.clock := by
  unfold runCapRead; simp

@[simp] theorem modChop_clock (t : Fin 16) (c : Fin 2) (f : Chopper → Chopper) (s : State) :
    (modChop t c f s).clock = s.clock := by
  unfold modChop; simp

@[simp] theorem endCycle_clock (t : Fin 16) (c : Fin 2) (ref : Int) (s : State) :
    (endCycle t c ref s).clock = s.clock := by
  unfold endCycle; simp

@[simp] theorem runSegmentMapRead_clock (p : Packet) (s : State) : (runSegmentMapRead p s).s.clock = s.clock := by
  unfold runSegmentMapRead; simp

@[simp] theorem newLinkDelay_clock (port : Fin 4) (first : Bool) (mean : Nat) (s : State) :
    (newLinkDelay port first mean s).clock = s.clock := by
  unfold newLinkDelay; simp

@[simp] theorem runCanRxRead_clock (p : Packet) (s : State) : (runCanRxRead p s).s.clock = s.clock := by
  unfold runCanRxRead; simp

@[simp] theorem absWrite_clock (e : Fin 17) (s : State) : (absWrite e s).clock = s.clock := by
  unfold absWrite; (try dsimp only); (repeat' split) <;> simp

@[simp] theorem absAccept_clock (e : Fin 17) (count : BitVec 64) (dt : Word) (s : State) :
    (absAccept e count dt s).clock = s.clock := by
  unfold absAccept; (try dsimp only); (repeat' split) <;> simp

@[simp] theorem modVault_clock (f : Vault → Vault) (s : State) : (modVault f s).clock = s.clock := by
  unfold modVault; simp

@[simp] theorem showCopies_clock (s : State) : (showCopies s).clock = s.clock := by
  unfold showCopies; simp

@[simp] theorem hibernateReply_clock (s : State) : (hibernateReply s).clock = s.clock := by
  unfold hibernateReply; (try dsimp only); (repeat' split) <;> simp

@[simp] theorem applyRegEnable_clock (p : Packet) (s : State) : (applyRegEnable p s).clock = s.clock := by
  unfold applyRegEnable; simp

@[simp] theorem slotOverrun_clock (i : Fin 32) (s : State) : (slotOverrun i s).clock = s.clock := by
  unfold slotOverrun; simp

@[simp] theorem slotLate_clock (i : Fin 32) (s : State) : (slotLate i s).clock = s.clock := by
  unfold slotLate; simp

@[simp] theorem closeSlot_clock (i : Fin 32) (s : State) : (closeSlot i s).clock = s.clock := by
  unfold closeSlot; simp

@[simp] theorem closeSlots_clock (s : State) : (closeSlots s).clock = s.clock := by
  unfold closeSlots; simp

@[simp] theorem answerUnknown_clock (op : BitVec 16) (p : Packet) (s : State) :
    (answerUnknown op p s).clock = s.clock := by
  unfold answerUnknown; simp

@[simp] theorem unsent_clock (s : State) : (unsent s).clock = s.clock := by
  unfold unsent; simp

@[simp] theorem runNodeAccept_clock (p : Packet) (s : State) : (runNodeAccept p s).s.clock = s.clock := by
  unfold runNodeAccept; simp

@[simp] theorem freeWords_clock (q0 : Nat) (q1 : State) : (freeWords q0 q1).2.clock = q1.clock := by
  induction q0 generalizing q1 with
  | zero => rfl
  | succ n ih => simp only [freeWords]; rw [ih]; simp

@[simp] theorem publishRing_clock (r : Fin 2) (pos : Fin 112 → Fix) (s : State) :
    (publishRing r pos s).clock = s.clock := by
  unfold publishRing; simp

@[simp] theorem fioNote_clock (code : BitVec 16) (src : BitVec 16) (p0 : Word) (p1 : Word) (s : State) :
    (fioNote code src p0 p1 s).clock = s.clock := by
  unfold fioNote; simp

@[simp] theorem modFioRegs_clock (c : Fin 24) (f : FioRegs → FioRegs) (s : State) :
    (modFioRegs c f s).clock = s.clock := by
  unfold modFioRegs; simp

@[simp] theorem shortVin_clock (c : Fin 24) (s : State) : (shortVin c s).clock = s.clock := by
  unfold shortVin; simp

@[simp] theorem unventTile_clock (t : Fin 16) (k : Nat) (s : State) : (unventTile t k s).clock = s.clock := by
  unfold unventTile; simp

@[simp] theorem tripClearTile_clock (t : Fin 16) (s : State) : (tripClearTile t s).s.clock = s.clock := by
  unfold tripClearTile; simp

@[simp] theorem tripClearGroup_clock (g : Fin 4) (s : State) : (tripClearGroup g s).s.clock = s.clock := by
  unfold tripClearGroup; simp

@[simp] theorem runTileTripClear_clock (p : Packet) (s : State) : (runTileTripClear p s).s.clock = s.clock := by
  unfold runTileTripClear; split
  · exact tripClearTile_clock ..
  · exact tripClearGroup_clock ..

@[simp] theorem modInput_clock (i : Fin 8) (f : SafetyInput → SafetyInput) (s : State) :
    (modInput i f s).clock = s.clock := by
  unfold modInput; simp

@[simp] theorem liftSto_clock (g : Fin 2) (s : State) : (liftSto g s).clock = s.clock := by
  unfold liftSto; simp

@[simp] theorem resetGroup_clock (g : Fin 2) (s : State) : (resetGroup g s).clock = s.clock := by
  unfold resetGroup; simp

@[simp] theorem chopLeg_clock (t : Fin 16) (c : Fin 2) (i : Fin 2) (lvl : Bool) (s : State) :
    (chopLeg t c i lvl s).clock = s.clock := by
  unfold chopLeg; simp

@[simp] theorem setChop_clock (t : Fin 16) (c : Fin 2) (st : BitVec 2) (pos : Bool) (s : State) :
    (setChop t c st pos s).clock = s.clock := by
  unfold setChop; simp

@[simp] theorem startDrive_clock (t : Fin 16) (c : Fin 2) (ref : Int) (s : State) :
    (startDrive t c ref s).clock = s.clock := by
  unfold startDrive; simp

@[simp] theorem outerTicked_clock (inner : Fin 96) (prev : Word) (s : State) :
    (outerTicked inner prev s).clock = s.clock := by
  unfold outerTicked; simp

@[simp] theorem sampleStraps_clock (lands : BitVec 6) (s : State) : (sampleStraps lands s).clock = s.clock := by
  unfold sampleStraps; simp

@[simp] theorem seedLead_clock (a : Fin 112) (s : State) : (seedLead a s).clock = s.clock := by
  unfold seedLead; simp

@[simp] theorem takeCurrents_clock (t : Fin 16) (due : Word) (s : State) : (takeCurrents t due s).clock = s.clock := by
  unfold takeCurrents; simp

@[simp] theorem runGuTriggerSet_clock (p : Packet) (s : State) : (runGuTriggerSet p s).s.clock = s.clock := by
  unfold runGuTriggerSet; simp

@[simp] theorem runCamData_clock (p : Packet) (s : State) : (runCamData p s).s.clock = s.clock := by
  unfold runCamData; simp

@[simp] theorem applyLeTickSet_clock (p : Packet) (s : State) : (applyLeTickSet p s).clock = s.clock := by
  unfold applyLeTickSet; simp

@[simp] theorem loadMap_clock (r : Fin 2) (m : Option (List (BitVec 64 × BitVec 256))) (s : State) :
    (loadMap r m s).clock = s.clock := by
  unfold loadMap; (try dsimp only); (repeat' split) <;> simp

@[simp] theorem loadLink_clock (img : ConfigImage) (s : State) : (loadLink img s).clock = s.clock := by
  unfold loadLink; simp

@[simp] theorem runStageStatus_clock (p : Packet) (s : State) : (runStageStatus p s).s.clock = s.clock := by
  unfold runStageStatus; simp

@[simp] theorem runResetStatus_clock (q0 : Packet) (s : State) : (runResetStatus q0 s).s.clock = s.clock := by
  unfold runResetStatus; simp

@[simp] theorem runPourStatus_clock (q0 : Packet) (s : State) : (runPourStatus q0 s).s.clock = s.clock := by
  unfold runPourStatus; simp

@[simp] theorem runPpsConfig_clock (p : Packet) (s : State) : (runPpsConfig p s).s.clock = s.clock := by
  unfold runPpsConfig; simp

@[simp] theorem resumeSlot_clock (i : Fin 32) (v : Fix) (s : State) : (resumeSlot i v s).2.clock = s.clock := by
  unfold resumeSlot; simp

@[simp] theorem modSlotRegs_clock (i : Fin 32) (f : SlotRegs → SlotRegs) (s : State) :
    (modSlotRegs i f s).clock = s.clock := by
  unfold modSlotRegs; simp

@[simp] theorem endLateRun_clock (i : Fin 32) (s : State) : (endLateRun i s).clock = s.clock := by
  unfold endLateRun; simp

@[simp] theorem takeEarly_clock (i : Fin 32) (v : Fix) (s : State) : (takeEarly i v s).clock = s.clock := by
  unfold takeEarly; simp

@[simp] theorem storeEntry_clock (r : Fin 2) (at_ : Fix) (e : MasterEntry) (s : State) :
    (storeEntry r at_ e s).clock = s.clock := by
  unfold storeEntry; simp

@[simp] theorem takeEntry_clock (r : Fin 2) (at_ : Fix) (writer : Nat) (k : Nat) (ws : List Word) (s : State) :
    (takeEntry r at_ writer k ws s).clock = s.clock := by
  unfold takeEntry; (try dsimp only); (repeat' split) <;> simp

@[simp] theorem takeReplay_clock (r : Fin 2) (f : PourFrame) (s : State) : (takeReplay r f s).clock = s.clock := by
  unfold takeReplay; simp

@[simp] theorem endCan_clock (n : Fin 4) (s : State) : (endCan n s).clock = s.clock := by
  unfold endCan; simp

@[simp] theorem resetLoop_clock (s : State) (i : Fin 96) : (resetLoop s i).clock = s.clock := by
  unfold resetLoop; (try dsimp only); (repeat' split) <;> simp

@[simp] theorem closeEngine_clock (e : Fin 32) (s : State) : (closeEngine e s).clock = s.clock := by
  unfold closeEngine; simp

@[simp] theorem resetGu_clock (u : Fin 8) (s : State) : (resetGu u s).clock = s.clock := by
  unfold resetGu; (try dsimp only); (repeat' split) <;> simp

@[simp] theorem enterWrapped_clock (r : Fin 2) (s : State) : (enterWrapped r s).clock = s.clock := by
  unfold enterWrapped; simp

@[simp] theorem masterWraps_clock (r : Fin 2) (s : State) : (masterWraps r s).clock = s.clock := by
  unfold masterWraps; simp

@[simp] theorem emitAt_clock (port : Fin 4) (o : LinkOut) (s : State) : (emitAt port o s).clock = s.clock := by
  unfold emitAt; simp

@[simp] theorem emitOther_clock (r : Fin 2) (port : Fin 4) (o : Fin 4 → LinkOut) (s : State) :
    (emitOther r port o s).clock = s.clock := by
  unfold emitOther; (try dsimp only); (repeat' split) <;> simp

@[simp] theorem declareBreak_clock (port : Fin 4) (s : State) : (declareBreak port s).clock = s.clock := by
  unfold declareBreak; (try dsimp only); (repeat' split) <;> simp

@[simp] theorem closeBlock_clock (b : Block) (s : State) : (closeBlock b s).clock = s.clock := by
  unfold closeBlock; (try dsimp only); (repeat' split) <;> simp

@[simp] theorem assertBlock_clock (target : BitVec 16) (b : Block) (s : State) :
    (assertBlock target b s).clock = s.clock := by
  unfold assertBlock; (try dsimp only); (repeat' split) <;> simp

@[simp] theorem runBlockReset_clock (p : Packet) (s : State) : (runBlockReset p s).s.clock = s.clock := by
  unfold runBlockReset; (try dsimp only); (repeat' split) <;> simp

@[simp] theorem applyGearEngage_clock (p : Packet) (s : State) : (applyGearEngage p s).clock = s.clock := by
  unfold applyGearEngage; simp

@[simp] theorem modCapRegs_clock (c : Fin 48) (f : CapRegs → CapRegs) (s : State) :
    (modCapRegs c f s).clock = s.clock := by
  unfold modCapRegs; simp

@[simp] theorem latchFailed_clock (c : Fin 48) (n : Nat) (s : State) : (latchFailed c n s).clock = s.clock := by
  unfold latchFailed; simp

@[simp] theorem dropLatch_clock (n : Nat) (s : State) : (dropLatch n s).clock = s.clock := by
  unfold dropLatch; simp

@[simp] theorem setHeld_clock (u : Fin 8) (k : Fin 8) (h : Option HeldStart) (s : State) :
    (setHeld u k h s).clock = s.clock := by
  unfold setHeld; simp

@[simp] theorem guOvf_clock (u : Fin 8) (b : Bool) (s : State) : (guOvf u b s).clock = s.clock := by
  unfold guOvf; simp

@[simp] theorem modMark_clock (u : Fin 8) (k : Fin 8) (f : MarkMeasRegs → MarkMeasRegs) (s : State) :
    (modMark u k f s).clock = s.clock := by
  unfold modMark; simp

@[simp] theorem markGated_clock (u : Fin 8) (k : Fin 8) (s : State) : (markGated u k s).clock = s.clock := by
  unfold markGated; simp

@[simp] theorem regTargetOf_clock (a : Fin 112) (e : Int) (s : State) : (regTargetOf a e s).clock = s.clock := by
  unfold regTargetOf; simp

@[simp] theorem regMeasure_clock (a : Fin 112) (dist : Int) (s : State) : (regMeasure a dist s).clock = s.clock := by
  unfold regMeasure; simp

@[simp] theorem markAccept_clock (u : Fin 8) (k : Fin 8) (e : RawEdge) (d : Int) (s : State) :
    (markAccept u k e d s).clock = s.clock := by
  unfold markAccept; simp

@[simp] theorem markEdge_clock (u : Fin 8) (k : Fin 8) (start : Bool) (stop : Bool) (e : RawEdge) (r : Option
    (Int × Bool)) (s : State) : (markEdge u k start stop e r s).clock = s.clock := by
  unfold markEdge; (try dsimp only); (repeat' split) <;> simp

@[simp] theorem clkFallback_clock (s : State) : (clkFallback s).clock = s.clock := by
  unfold clkFallback; simp

@[simp] theorem applyIdentify_clock (p : Packet) (s : State) : (applyIdentify p s).clock = s.clock := by
  unfold applyIdentify; simp

@[simp] theorem ctxZero_clock (e : Fin 32) (c : Nat) (s : State) : (ctxZero e c s).clock = s.clock := by
  unfold ctxZero; simp

@[simp] theorem startFree_clock (e : Fin 32) (p : Fin 96 × Nat) (s : State) : (startFree e p s).clock = s.clock := by
  unfold startFree; simp

@[simp] theorem freeTick_clock (i : Fin 96) (e : Fin 32) (c : Nat) (due : Fix) (s : State) :
    (freeTick i e c due s).clock = s.clock := by
  unfold freeTick; simp

@[simp] theorem supShow_clock (i : Fin 96) (s : State) : (supShow i s).clock = s.clock := by
  unfold supShow; (try dsimp only); (repeat' split) <;> simp

@[simp] theorem supTick_clock (t : Fin 16) (i : Fin 96) (model : BitVec 2) (s : State) :
    (supTick t i model s).clock = s.clock := by
  unfold supTick; simp

@[simp] theorem positionTick_clock (t : Fin 16) (i : Fin 96) (e : Fin 32) (c : Nat) (tau : Int) (s : State) :
    (positionTick t i e c tau s).clock = s.clock := by
  unfold positionTick; simp

@[simp] theorem velocityTick_clock (t : Fin 16) (i : Fin 96) (e : Fin 32) (c : Nat) (tau : Int) (s : State) :
    (velocityTick t i e c tau s).clock = s.clock := by
  unfold velocityTick; simp

@[simp] theorem identTick_clock (t : Fin 16) (s : State) : (identTick t s).clock = s.clock := by
  unfold identTick; (try dsimp only); (repeat' split) <;> simp

@[simp] theorem startTick_clock (t : Fin 16) (s : State) : (startTick t s).clock = s.clock := by
  unfold startTick; (try dsimp only); (repeat' split) <;> simp

@[simp] theorem holdVelocity_clock (t : Fin 16) (e : Fin 32) (x : Limited) (s : State) :
    (holdVelocity t e x s).clock = s.clock := by
  unfold holdVelocity; (try dsimp only); (repeat' split) <;> simp

@[simp] theorem presetLoop_clock (i : Fin 96) (e : Fin 32) (c : Nat) (u : Word) (s : State) :
    (presetLoop i e c u s).clock = s.clock := by
  unfold presetLoop; simp

@[simp] theorem modFocRegs_clock (t : Fin 16) (f : FocRegs → FocRegs) (s : State) :
    (modFocRegs t f s).clock = s.clock := by
  unfold modFocRegs; simp

@[simp] theorem flyingCatch_clock (t : Fin 16) (w : Word) (s : State) : (flyingCatch t w s).clock = s.clock := by
  unfold flyingCatch; simp

@[simp] theorem currentLoop_clock (i : Fin 96) (e : Fin 32) (c : Nat) (sp : Word) (fb : Word) (ff : Word) (kp : Word)
    (lo : Word) (hi : Word) (s : State) : (currentLoop i e c sp fb ff kp lo hi s).clock = s.clock := by
  unfold currentLoop; simp

@[simp] theorem writeDuties_clock (t : Fin 16) (ds : List Word) (s : State) : (writeDuties t ds s).clock = s.clock := by
  unfold writeDuties; simp

@[simp] theorem showFoc_clock (t : Fin 16) (theta : Word) (w : Int) (m : Word) (region : BitVec 2) (d : Word)
    (q : Word) (regen : Bool) (s : State) : (showFoc t theta w m region d q regen s).clock = s.clock := by
  unfold showFoc; simp

@[simp] theorem focTick_clock (t : Fin 16) (e : Fin 32) (cq : Nat) (cd : Nat) (due : Word) (s : State) :
    (focTick t e cq cd due s).clock = s.clock := by
  unfold focTick; dsimp only
  rw [showFoc_clock, writeDuties_clock, modFoc_clock, drew_clock, currentLoop_clock, drawn_clock, currentLoop_clock,
    apply_ite State.clock]
  simp

@[simp] theorem stepTick_clock (t : Fin 16) (e : Fin 32) (ca : Nat) (cb : Nat) (tau : Int) (due : Word) (s : State) :
    (stepTick t e ca cb tau due s).clock = s.clock := by
  unfold stepTick; simp

@[simp] theorem currentTick_clock (t : Fin 16) (e : Fin 32) (c : Nat) (tau : Int) (due : Fix) (s : State) :
    (currentTick t e c tau due s).clock = s.clock := by
  unfold currentTick; (try dsimp only); (repeat' split) <;> simp

@[simp] theorem runLoop_clock (e : Fin 32) (due : Fix) (p : Fin 96 × Nat) (s : State) :
    (runLoop e due p s).clock = s.clock := by
  unfold runLoop; (try dsimp only); (repeat' split) <;> simp

@[simp] theorem runLoops_clock (e : Fin 32) (x : TickEntry) (s : State) : (runLoops e x s).clock = s.clock := by
  unfold runLoops; dsimp only
  rw [foldl_clock _ (fun s a => runLoop_clock ..), foldl_clock _ (fun s a => takeMode_clock ..), foldl_clock _ (fun s a => startFree_clock ..)]

@[simp] theorem slotGive_clock (i : Fin 32) (v : Fix) (s : State) : (slotGive i v s).clock = s.clock := by
  unfold slotGive; simp

@[simp] theorem steepOn_clock (value : Fin 32 → Fix) (s : State) : (steepOn value s).clock = s.clock := by
  unfold steepOn; simp

@[simp] theorem applyLoopCoef_clock (p : Packet) (s : State) : (applyLoopCoef p s).clock = s.clock := by
  unfold applyLoopCoef; simp

@[simp] theorem runCanTtConfig_clock (p : Packet) (s : State) : (runCanTtConfig p s).s.clock = s.clock := by
  unfold runCanTtConfig; simp

@[simp] theorem busOff_clock (n : Fin 4) (s : State) : (busOff n s).clock = s.clock := by
  unfold busOff; simp

@[simp] theorem setCounters_clock (n : Fin 4) (tec : BitVec 9) (rec : BitVec 8) (s : State) :
    (setCounters n tec rec s).clock = s.clock := by
  unfold setCounters; simp

@[simp] theorem rxOverflow_clock (n : Fin 4) (q : Fin 2) (s : State) : (rxOverflow n q s).clock = s.clock := by
  unfold rxOverflow; simp

@[simp] theorem rxStore_clock (n : Fin 4) (q : Fin 2) (f : CanFrame) (filter : Option Nat) (s : State) :
    (rxStore n q f filter s).clock = s.clock := by
  unfold rxStore; simp

@[simp] theorem runEventRead_clock (p : Packet) (s : State) : (runEventRead p s).s.clock = s.clock := by
  unfold runEventRead; simp

@[simp] theorem outputsBack_clock (s : State) : (outputsBack s).clock = s.clock := by
  unfold outputsBack; simp

@[simp] theorem runFioRestore_clock (p : Packet) (s : State) : (runFioRestore p s).s.clock = s.clock := by
  unfold runFioRestore; simp

@[simp] theorem beginSlot_clock (i : Fin 32) (s : State) : (beginSlot i s).clock = s.clock := by
  unfold beginSlot; (try dsimp only); (repeat' split) <;> simp

@[simp] theorem startSave_clock (s : State) : (startSave s).clock = s.clock := by
  unfold startSave; simp

@[simp] theorem runVaultSave_clock (p : Packet) (s : State) : (runVaultSave p s).s.clock = s.clock := by
  unfold runVaultSave; simp

@[simp] theorem guBases_clock (s : State) : (guBases s).clock = s.clock := by
  unfold guBases; simp

@[simp] theorem runGuConfig_clock (p : Packet) (s : State) : (runGuConfig p s).s.clock = s.clock := by
  unfold runGuConfig; simp

@[simp] theorem runGuStatus_clock (p : Packet) (s : State) : (runGuStatus p s).s.clock = s.clock := by
  unfold runGuStatus; simp

@[simp] theorem applyGearSource_clock (p : Packet) (s : State) : (applyGearSource p s).clock = s.clock := by
  unfold applyGearSource; simp

@[simp] theorem openBlock_clock (target : BitVec 16) (s : State) : (openBlock target s).clock = s.clock := by
  unfold openBlock; (try dsimp only); (repeat' split) <;> simp

@[simp] theorem applySoftLimits_clock (p : Packet) (s : State) : (applySoftLimits p s).clock = s.clock := by
  unfold applySoftLimits; simp

@[simp] theorem runVaultRead_clock (p : Packet) (s : State) : (runVaultRead p s).s.clock = s.clock := by
  unfold runVaultRead; simp

@[simp] theorem refreshLimits_clock (a : Fin 112) (s : State) : (refreshLimits a s).clock = s.clock := by
  unfold refreshLimits; simp

@[simp] theorem limitSwitch_clock (a : Fin 112) (neg : Bool) (s : State) : (limitSwitch a neg s).clock = s.clock := by
  unfold limitSwitch; simp

@[simp] theorem axisInput_clock (code : BitVec 8) (t : Fix) (unc : BitVec 8) (a : Fin 112) (s : State) :
    (axisInput code t unc a s).clock = s.clock := by
  unfold axisInput; simp

@[simp] theorem inputEdge_clock (code : BitVec 8) (t : Fix) (unc : BitVec 8) (s : State) :
    (inputEdge code t unc s).clock = s.clock := by
  unfold inputEdge; simp

@[simp] theorem startDemand_clock (g : Fin 2) (s : State) : (startDemand g s).clock = s.clock := by
  unfold startDemand; simp

@[simp] theorem measureLoop_clock (n : Fin 4) (brs : Bool) (loop : Option Nat) (s : State) :
    (measureLoop n brs loop s).clock = s.clock := by
  unfold measureLoop; (try dsimp only); (repeat' split) <;> simp

@[simp] theorem ttEnd_clock (n : Fin 4) (s : State) : (ttEnd n s).clock = s.clock := by
  unfold ttEnd; simp

@[simp] theorem sentFrame_clock (n : Fin 4) (f : CanSent) (s : State) : (sentFrame n f s).clock = s.clock := by
  unfold sentFrame; simp

@[simp] theorem countError_clock (n : Fin 4) (kind : Nat) (s : State) : (countError n kind s).clock = s.clock := by
  unfold countError; (try dsimp only); (repeat' split) <;> simp

@[simp] theorem failedFrame_clock (n : Fin 4) (kind : Nat) (s : State) : (failedFrame n kind s).clock = s.clock := by
  unfold failedFrame; simp

@[simp] theorem windowAfter_clock (n : Fin 4) (s : State) : (windowAfter n s).clock = s.clock := by
  unfold windowAfter; simp

@[simp] theorem modReq_clock (n : Fin 4) (h : BitVec 16) (f : CanReq → CanReq) (s : State) :
    (modReq n h f s).clock = s.clock := by
  unfold modReq; simp

@[simp] theorem attemptFailed_clock (n : Fin 4) (q : CanReq) (kind : Nat) (s : State) :
    (attemptFailed n q kind s).clock = s.clock := by
  unfold attemptFailed; simp

@[simp] theorem startDecay_clock (t : Fin 16) (c : Fin 2) (ref : Int) (s : State) :
    (startDecay t c ref s).clock = s.clock := by
  unfold startDecay; simp

@[simp] theorem chopDecide_clock (t : Fin 16) (c : Fin 2) (s : State) : (chopDecide t c s).clock = s.clock := by
  unfold chopDecide; simp

@[simp] theorem recordEpisode_clock (s : State) : (recordEpisode s).clock = s.clock := by
  unfold recordEpisode; simp

@[simp] theorem runHostInputPolicy_clock (p : Packet) (s : State) : (runHostInputPolicy p s).s.clock = s.clock := by
  unfold runHostInputPolicy; simp

@[simp] theorem runFirmwareBegin_clock (p : Packet) (s : State) : (runFirmwareBegin p s).s.clock = s.clock := by
  unfold runFirmwareBegin; simp

@[simp] theorem latchDiscrepancy_clock (i : Fin 8) (s : State) : (latchDiscrepancy i s).clock = s.clock := by
  unfold latchDiscrepancy; simp

@[simp] theorem runTraceStop_clock (p : Packet) (s : State) : (runTraceStop p s).s.clock = s.clock := by
  unfold runTraceStop; simp

@[simp] theorem runCapStatus_clock (p : Packet) (s : State) : (runCapStatus p s).s.clock = s.clock := by
  unfold runCapStatus; simp

@[simp] theorem runTimeSourceSet_clock (p : Packet) (s : State) : (runTimeSourceSet p s).s.clock = s.clock := by
  unfold runTimeSourceSet; simp

@[simp] theorem busRead_clock (addr : Word) (bytes : Nat) (s : State) : (busRead addr bytes s).2.clock = s.clock := by
  unfold busRead; simp

@[simp] theorem runDomainStart_clock (p : Packet) (s : State) : (runDomainStart p s).s.clock = s.clock := by
  unfold runDomainStart; simp

@[simp] theorem runDiagRead_clock (p : Packet) (s : State) : (runDiagRead p s).s.clock = s.clock := by
  unfold runDiagRead; simp

@[simp] theorem fillContexts_clock (s : State) : (fillContexts s).clock = s.clock := by
  unfold fillContexts; simp

@[simp] theorem setDerate_clock (t : Fin 16) (f : BitVec 16) (s : State) : (setDerate t f s).clock = s.clock := by
  unfold setDerate; simp

@[simp] theorem runEventForwardSet_clock (p : Packet) (s : State) : (runEventForwardSet p s).s.clock = s.clock := by
  unfold runEventForwardSet; simp

@[simp] theorem measureDuties_clock (t : Fin 16) (s : State) : (measureDuties t s).clock = s.clock := by
  unfold measureDuties; simp

@[simp] theorem runCalderaFaultRead_clock (p : Packet) (s : State) : (runCalderaFaultRead p s).s.clock = s.clock := by
  unfold runCalderaFaultRead; simp

@[simp] theorem ttTake_clock (n : Fin 4) (j : Fin 64) (s : State) : (ttTake n j s).clock = s.clock := by
  unfold ttTake; simp

@[simp] theorem busLatch_clock (n : Fin 4) (s : State) : (busLatch n s).clock = s.clock := by
  unfold busLatch; simp

@[simp] theorem runCanTxCancel_clock (p : Packet) (s : State) : (runCanTxCancel p s).s.clock = s.clock := by
  unfold runCanTxCancel; (try dsimp only); (repeat' split) <;> simp

@[simp] theorem runIndexArm_clock (p : Packet) (s : State) : (runIndexArm p s).s.clock = s.clock := by
  unfold runIndexArm; simp

@[simp] theorem showChop_clock (t : Fin 16) (c : Fin 2) (s : State) : (showChop t c s).clock = s.clock := by
  unfold showChop; simp

@[simp] theorem chopBit_clock (t : Fin 16) (c : Fin 2) (b : Bool) (s : State) : (chopBit t c b s).clock = s.clock := by
  unfold chopBit; simp

@[simp] theorem modChannel_clock (ch : Fin 16) (f : SafetyChannel → SafetyChannel) (s : State) :
    (modChannel ch f s).clock = s.clock := by
  unfold modChannel; simp

@[simp] theorem runAxisStatus_clock (p : Packet) (s : State) : (runAxisStatus p s).s.clock = s.clock := by
  unfold runAxisStatus; (try dsimp only); (repeat' split) <;> simp

@[simp] theorem currentTrip_clock (t : Fin 16) (k : Nat) (v : Word) (s : State) :
    (currentTrip t k v s).clock = s.clock := by
  unfold currentTrip; simp

@[simp] theorem backfed_clock (c : Fin 24) (p : Fin 24) (subject : Bool) (s : State) :
    (backfed c p subject s).clock = s.clock := by
  unfold backfed; simp

@[simp] theorem freezeStepper_clock (a : Fin 112) (s : State) : (freezeStepper a s).clock = s.clock := by
  unfold freezeStepper; (try dsimp only); (repeat' split) <;> simp

@[simp] theorem stallHome_clock (a : Fin 112) (s : State) : (stallHome a s).clock = s.clock := by
  unfold stallHome; (try dsimp only); (repeat' split) <;> simp

@[simp] theorem runGuForce_clock (p : Packet) (s : State) : (runGuForce p s).s.clock = s.clock := by
  unfold runGuForce; simp

@[simp] theorem coilFault_clock (t : Fin 16) (c : Fin 2) (cause : Word) (s : State) :
    (coilFault t c cause s).clock = s.clock := by
  unfold coilFault; simp

@[simp] theorem runCamBegin_clock (p : Packet) (s : State) : (runCamBegin p s).s.clock = s.clock := by
  unfold runCamBegin; simp

@[simp] theorem runCanStatus_clock (p : Packet) (s : State) : (runCanStatus p s).s.clock = s.clock := by
  unfold runCanStatus; simp

@[simp] theorem dclRefresh_clock (g : Fin 4) (s : State) : (dclRefresh g s).clock = s.clock := by
  unfold dclRefresh; simp

@[simp] theorem chopperToggle_clock (t : Fin 16) (g : Fin 4) (at_ : Fix) (s : State) :
    (chopperToggle t g at_ s).clock = s.clock := by
  unfold chopperToggle; simp

@[simp] theorem chopperSettle_clock (t : Fin 16) (g : Fin 4) (s : State) : (chopperSettle t g s).clock = s.clock := by
  unfold chopperSettle; (try dsimp only); (repeat' split) <;> simp

@[simp] theorem chopperChange_clock (t : Fin 16) (g : Fin 4) (s : State) : (chopperChange t g s).clock = s.clock := by
  unfold chopperChange; simp

@[simp] theorem chopperSample_clock (t : Fin 16) (g : Fin 4) (v : Word) (s : State) :
    (chopperSample t g v s).clock = s.clock := by
  unfold chopperSample; simp

@[simp] theorem dclOvervolt_clock (g : Fin 4) (v : Word) (s : State) : (dclOvervolt g v s).clock = s.clock := by
  unfold dclOvervolt; simp

@[simp] theorem dclUndervolt_clock (g : Fin 4) (v : Word) (s : State) : (dclUndervolt g v s).clock = s.clock := by
  unfold dclUndervolt; simp

@[simp] theorem vdcSample_clock (t : Fin 16) (sample : Word) (s : State) : (vdcSample t sample s).clock = s.clock := by
  unfold vdcSample; (try dsimp only); (repeat' split) <;> simp

@[simp] theorem ntcSample_clock (t : Fin 16) (sample : Word) (s : State) : (ntcSample t sample s).clock = s.clock := by
  unfold ntcSample; simp

@[simp] theorem absReject_clock (e : Fin 17) (cause : BitVec 3) (s : State) : (absReject e cause s).clock = s.clock := by
  unfold absReject; simp

@[simp] theorem sincosSample_clock (t : Fin 16) (s : State) : (sincosSample t s).clock = s.clock := by
  unfold sincosSample; simp

@[simp] theorem sdRole_clock (c : Fin 160) (v : Word) (s : State) : (sdRole c v s).clock = s.clock := by
  unfold sdRole; (try dsimp only); (repeat' split) <;> simp

@[simp] theorem sdResume_clock (c : Fin 160) (s : State) : (sdResume c s).clock = s.clock := by
  unfold sdResume; simp

@[simp] theorem sdWrite_clock (c : Fin 160) (v : Word) (s : State) : (sdWrite c v s).clock = s.clock := by
  unfold sdWrite; simp

@[simp] theorem tellDiscarded_clock (s : State) : (tellDiscarded s).clock = s.clock := by
  unfold tellDiscarded; simp

@[simp] theorem runAttest_clock (q0 : Packet) (s : State) : (runAttest q0 s).s.clock = s.clock := by
  unfold runAttest; simp

@[simp] theorem runStageAbort_clock (p : Packet) (s : State) : (runStageAbort p s).s.clock = s.clock := by
  unfold runStageAbort; (try dsimp only); (repeat' split) <;> simp

@[simp] theorem runLinkCountersClear_clock (p : Packet) (s : State) : (runLinkCountersClear p s).s.clock = s.clock := by
  unfold runLinkCountersClear; simp

@[simp] theorem runSafeSpeedRead_clock (p : Packet) (s : State) : (runSafeSpeedRead p s).s.clock = s.clock := by
  unfold runSafeSpeedRead; simp

@[simp] theorem noteArrival_clock (i : Fin 32) (m : MasterSample) (q : Nat) (s : State) :
    (noteArrival i m q s).clock = s.clock := by
  unfold noteArrival; simp

@[simp] theorem confirmSample_clock (i : Fin 32) (n : Nat) (v : Fix) (s : State) :
    (confirmSample i n v s).clock = s.clock := by
  unfold confirmSample; simp

@[simp] theorem takePast_clock (i : Fin 32) (back : Nat) (n : Nat) (v : Fix) (s : State) :
    (takePast i back n v s).clock = s.clock := by
  unfold takePast; simp

@[simp] theorem endSession_clock (drop : Bool) (i : Fin 80) (s : State) : (endSession drop i s).clock = s.clock := by
  unfold endSession; simp

@[simp] theorem releaseSession_clock (i : Fin 80) (s : State) : (releaseSession i s).clock = s.clock := by
  unfold releaseSession; simp

@[simp] theorem runCanTtData_clock (p : Packet) (s : State) : (runCanTtData p s).s.clock = s.clock := by
  unfold runCanTtData; simp

@[simp] theorem noteOffset_clock (offset : Word) (s : State) : (noteOffset offset s).clock = s.clock := by
  unfold noteOffset; simp

@[simp] theorem timeFault_clock (s : State) : (timeFault s).clock = s.clock := by
  unfold timeFault; simp

@[simp] theorem setRate_clock (demand : Int) (s : State) : (setRate demand s).clock = s.clock := by
  unfold setRate; simp

@[simp] theorem ptpMessage_clock (rate : Word) (offset : Word) (tai : BitVec 64) (locked : Bool) (s : State) :
    (ptpMessage rate offset tai locked s).clock = s.clock := by
  unfold ptpMessage; simp

@[simp] theorem runFocStatus_clock (p : Packet) (s : State) : (runFocStatus p s).s.clock = s.clock := by
  unfold runFocStatus; simp

@[simp] theorem runFollowStatus_clock (p : Packet) (s : State) : (runFollowStatus p s).s.clock = s.clock := by
  unfold runFollowStatus; simp

@[simp] theorem applyHomeConfig_clock (p : Packet) (s : State) : (applyHomeConfig p s).clock = s.clock := by
  unfold applyHomeConfig; simp

@[simp] theorem runSdStatus_clock (p : Packet) (s : State) : (runSdStatus p s).s.clock = s.clock := by
  unfold runSdStatus; simp

@[simp] theorem abandonImage_clock (s : State) : (abandonImage s).clock = s.clock := by
  unfold abandonImage; simp

@[simp] theorem publishImage_clock (s : State) : (publishImage s).clock = s.clock := by
  unfold publishImage; simp

@[simp] theorem runBlockResetReport_clock (p : Packet) (s : State) : (runBlockResetReport p s).s.clock = s.clock := by
  unfold runBlockResetReport; (try dsimp only); (repeat' split) <;> simp

@[simp] theorem runBrakeClear_clock (p : Packet) (s : State) : (runBrakeClear p s).s.clock = s.clock := by
  unfold runBrakeClear; simp

@[simp] theorem runPtpConfig_clock (p : Packet) (s : State) : (runPtpConfig p s).s.clock = s.clock := by
  unfold runPtpConfig; simp

@[simp] theorem runPowerPolicySet_clock (p : Packet) (s : State) : (runPowerPolicySet p s).s.clock = s.clock := by
  unfold runPowerPolicySet; simp

@[simp] theorem runLeCountersClear_clock (p : Packet) (s : State) : (runLeCountersClear p s).s.clock = s.clock := by
  unfold runLeCountersClear; simp

@[simp] theorem refuseSet_clock (x : StagedSet) (st : BitVec 16) (s : State) : (refuseSet x st s).clock = s.clock := by
  unfold refuseSet; dsimp only
  split
  · rw [endOps_clock]; simp [refusedRegs]
  · simp [refusedRegs]

@[simp] theorem freeBuffer_clock (port : Fin 4) (s : State) : (freeBuffer port s).clock = s.clock := by
  unfold freeBuffer; simp

@[simp] theorem capQualify_clock (c : Fin 48) (s : State) : (capQualify c s).clock = s.clock := by
  unfold capQualify; (try dsimp only); (repeat' split) <;> simp

@[simp] theorem challengeNeighbour_clock (port : Fin 4) (s : State) : (challengeNeighbour port s).clock = s.clock := by
  unfold challengeNeighbour; (try dsimp only); (repeat' split) <;> simp

@[simp] theorem sendRestore_clock (port : Fin 4) (s : State) : (sendRestore port s).clock = s.clock := by
  unfold sendRestore; (try dsimp only); (repeat' split) <;> simp

@[simp] theorem clearLinkDown_clock (s : State) : (clearLinkDown s).clock = s.clock := by
  unfold clearLinkDown; simp

@[simp] theorem portUp_clock (i : Fin 4) (s : State) : (portUp i s).clock = s.clock := by
  unfold portUp; simp

@[simp] theorem runFioStatus_clock (p : Packet) (s : State) : (runFioStatus p s).s.clock = s.clock := by
  unfold runFioStatus; simp

@[simp] theorem runCanModeSet_clock (p : Packet) (s : State) : (runCanModeSet p s).s.clock = s.clock := by
  unfold runCanModeSet; simp

@[simp] theorem measure_clock (offset : Word) (s : State) : (measure offset s).clock = s.clock := by
  unfold measure; simp

@[simp] theorem measureFails_clock (t : Fin 16) (c : Fin 2) (cause : Word) (s : State) :
    (measureFails t c cause s).clock = s.clock := by
  unfold measureFails; simp

@[simp] theorem hardStopPour_clock (a : Fin 112) (s : State) : (hardStopPour a s).clock = s.clock := by
  unfold hardStopPour; simp

@[simp] theorem runFollowPolicy_clock (p : Packet) (s : State) : (runFollowPolicy p s).s.clock = s.clock := by
  unfold runFollowPolicy; simp

@[simp] theorem runCanTtColumnSet_clock (p : Packet) (s : State) : (runCanTtColumnSet p s).s.clock = s.clock := by
  unfold runCanTtColumnSet; simp

@[simp] theorem runTimeStatus_clock (q0 : Packet) (s : State) : (runTimeStatus q0 s).s.clock = s.clock := by
  unfold runTimeStatus; simp

@[simp] theorem runCanConfig_clock (p : Packet) (s : State) : (runCanConfig p s).s.clock = s.clock := by
  unfold runCanConfig; simp

@[simp] theorem encIllegal_clock (e : Fin 17) (s : State) : (encIllegal e s).clock = s.clock := by
  unfold encIllegal; simp

@[simp] theorem recovered_clock (port : Fin 4) (n : Nat) (s : State) : (recovered port n s).clock = s.clock := by
  unfold recovered; simp

@[simp] theorem contend_clock (port : Fin 4) (wrapped : Bool) (tx : Fix) (s : State) :
    (contend port wrapped tx s).2.clock = s.clock := by
  unfold contend; (try dsimp only); (repeat' split) <;> simp

@[simp] theorem searchNext_clock (subject : Fin 24) (s : State) : (searchNext subject s).clock = s.clock := by
  unfold searchNext; (try dsimp only); (repeat' split) <;> simp

@[simp] theorem setMaster_clock (id : BitVec 64) (s : State) : (setMaster id s).clock = s.clock := by
  unfold setMaster; simp

@[simp] theorem wakeError_clock (n : Fin 4) (s : State) : (wakeError n s).clock = s.clock := by
  unfold wakeError; simp

@[simp] theorem setBkpt_clock (e : Fin 32) (bkpt : Bool) (s : State) : (setBkpt e bkpt s).clock = s.clock := by
  unfold setBkpt; simp

@[simp] theorem runIdentityRead_clock (q0 : Packet) (s : State) : (runIdentityRead q0 s).s.clock = s.clock := by
  unfold runIdentityRead; simp

@[simp] theorem reloadEngines_clock (s : State) : (reloadEngines s).clock = s.clock := by
  unfold reloadEngines; simp

@[simp] theorem controlBringUp_clock (s : State) : (controlBringUp s).clock = s.clock := by
  unfold controlBringUp
  extract_lets s1 s2
  have h1 : s1.clock = s.clock := modPower_clock ..
  have h2 : s2.clock = s.clock := (foldl_clock _ (fun s t => unventTile_clock ..) _ _).trans h1
  exact (tellDiscarded_clock ..).trans ((reloadEngines_clock ..).trans ((State.clock_mk ..).trans h2))

@[simp] theorem kettleCool_clock (s : State) : (kettleCool s).clock = s.clock := by
  unfold kettleCool; simp

@[simp] theorem kettleNote_clock (sensor : Fin 12) (temp : Word) (s : State) :
    (kettleNote sensor temp s).clock = s.clock := by
  unfold kettleNote; simp

@[simp] theorem kettleRead_clock (sensor : Fin 12) (temp : Word) (s : State) :
    (kettleRead sensor temp s).clock = s.clock := by
  unfold kettleRead; simp

@[simp] theorem applyDisengage_clock (p : Packet) (s : State) : (applyDisengage p s).clock = s.clock := by
  unfold applyDisengage; simp

@[simp] theorem runGuArm_clock (p : Packet) (s : State) : (runGuArm p s).s.clock = s.clock := by
  unfold runGuArm; (try dsimp only); (repeat' split) <;> simp

@[simp] theorem runLePolicySet_clock (p : Packet) (s : State) : (runLePolicySet p s).s.clock = s.clock := by
  unfold runLePolicySet; simp

@[simp] theorem stopGu_clock (u : Fin 8) (s : State) : (stopGu u s).clock = s.clock := by
  unfold stopGu; (try dsimp only); (repeat' split) <;> simp

@[simp] theorem runGuStop_clock (p : Packet) (s : State) : (runGuStop p s).s.clock = s.clock := by
  unfold runGuStop; simp

@[simp] theorem runFocPolicy_clock (p : Packet) (s : State) : (runFocPolicy p s).s.clock = s.clock := by
  unfold runFocPolicy; simp

@[simp] theorem safecfgFault_clock (phase : Word) (s : State) : (safecfgFault phase s).clock = s.clock := by
  unfold safecfgFault; simp

@[simp] theorem guPattern_clock (tdcOf : RawEdge) (s : State) : (guPattern tdcOf s).clock = s.clock := by
  unfold guPattern; simp

@[simp] theorem capRaw_clock (c : Fin 48) (level : Bool) (tdc : BitVec 6) (s : State) :
    (capRaw c level tdc s).clock = s.clock := by
  unfold capRaw; simp

@[simp] theorem runPortConfig_clock (p : Packet) (s : State) : (runPortConfig p s).s.clock = s.clock := by
  unfold runPortConfig; simp

@[simp] theorem loadAxisWord_clock (a : Fin 112) (o : Nat) (v : Word) (s : State) :
    (loadAxisWord a o v s).clock = s.clock := by
  unfold loadAxisWord; (try dsimp only); (repeat' split) <;> simp

@[simp] theorem loadLoopWord_clock (i : Fin 96) (o : Nat) (v : Word) (s : State) :
    (loadLoopWord i o v s).clock = s.clock := by
  unfold loadLoopWord; (try dsimp only); (repeat' split) <;> simp

@[simp] theorem loadTileWord_clock (t : Fin 16) (o : Nat) (v : Word) (s : State) :
    (loadTileWord t o v s).clock = s.clock := by
  unfold loadTileWord; simp

@[simp] theorem loadEncWord_clock (e : Fin 17) (o : Nat) (v : Word) (s : State) :
    (loadEncWord e o v s).clock = s.clock := by
  unfold loadEncWord; simp

@[simp] theorem loadFeedbackWord_clock (o : Nat) (v : Word) (s : State) : (loadFeedbackWord o v s).clock = s.clock := by
  unfold loadFeedbackWord; (try dsimp only); (repeat' split) <;> simp

@[simp] theorem loadPowerWord_clock (o : Nat) (v : Word) (s : State) : (loadPowerWord o v s).clock = s.clock := by
  unfold loadPowerWord; (try dsimp only); (repeat' split) <;> simp

@[simp] theorem loadField_clock (a : Nat) (v : Word) (s : State) : (loadField a v s).clock = s.clock := by
  unfold loadField; (try dsimp only); (repeat' split) <;> simp

@[simp] theorem placeAt_clock (a : Fin 112) (u : Int) (s : State) : (placeAt a u s).clock = s.clock := by
  unfold placeAt; simp

@[simp] theorem reexpress_clock (a : Fin 112) (kind : Bool) (m : BitVec 64) (s : State) :
    (reexpress a kind m s).clock = s.clock := by
  unfold reexpress; simp

@[simp] theorem loadFields_clock (ws : List (BitVec 32 × Word)) (s0 : State) : (loadFields ws s0).clock = s0.clock := by
  unfold loadFields; simp

@[simp] theorem runCanBusoffRecover_clock (p : Packet) (s : State) : (runCanBusoffRecover p s).s.clock = s.clock := by
  unfold runCanBusoffRecover; simp

@[simp] theorem sendPush_clock (i : Fin 80) (ws : List Word) (s : State) : (sendPush i ws s).clock = s.clock := by
  unfold sendPush; simp

@[simp] theorem noteReports_clock (r : DomainChecks) (s : State) : (noteReports r s).clock = s.clock := by
  unfold noteReports; simp

@[simp] theorem applySupervisor_clock (p : Packet) (s : State) : (applySupervisor p s).clock = s.clock := by
  unfold applySupervisor; (try dsimp only); (repeat' split) <;> simp

@[simp] theorem endTunnel_clock (w : TunnelWait) (st : BitVec 16) (out : List Word) (s : State) :
    (endTunnel w st out s).clock = s.clock := by
  unfold endTunnel; simp

@[simp] theorem auditSend_clock (s : State) : (auditSend s).clock = s.clock := by
  unfold auditSend; simp

@[simp] theorem restoreRing_clock (r : Fin 2) (s : State) : (restoreRing r s).clock = s.clock := by
  unfold restoreRing; (try dsimp only); (repeat' split) <;> simp

@[simp] theorem sendFrame_clock (port : Fin 4) (wrapped : Bool) (tx : Fix) (ws : List Word) (s : State) :
    (sendFrame port wrapped tx ws s).clock = s.clock := by
  unfold sendFrame; simp

@[simp] theorem sendFrameAt_clock (port : Option (Fin 4)) (wrapped : Bool) (ws : List Word) (s : State) :
    (sendFrameAt port wrapped ws s).clock = s.clock := by
  unfold sendFrameAt; (try dsimp only); (repeat' split) <;> simp

@[simp] theorem launchRing_clock (r : Fin 2) (s : State) : (launchRing r s).clock = s.clock := by
  unfold launchRing; simp

@[simp] theorem linkPour_clock (pos : Fin 112 → Fix) (s : State) : (linkPour pos s).clock = s.clock := by
  unfold linkPour; simp

@[simp] theorem runNetConfig_clock (p : Packet) (s : State) : (runNetConfig p s).s.clock = s.clock := by
  unfold runNetConfig; simp

@[simp] theorem serveHibernate_clock (p : Packet) (s : State) : (serveHibernate p s).clock = s.clock := by
  unfold serveHibernate; simp

@[simp] theorem requests_clock (s : State) : (requests s).clock = s.clock := by
  unfold requests; simp

@[simp] theorem crossShortEv_clock (i : Nat) (cause : Word) (s : State) : (crossShortEv i cause s).clock = s.clock := by
  unfold crossShortEv; simp

@[simp] theorem runLeDataRead_clock (p : Packet) (s : State) : (runLeDataRead p s).s.clock = s.clock := by
  unfold runLeDataRead; simp

@[simp] theorem markConfirmed_clock (before : State) (held : List (Fin 112)) (s : State) :
    (markConfirmed before held s).clock = s.clock := by
  unfold markConfirmed; simp

@[simp] theorem shiftStepper_clock (a : Fin 112) (was : Fix) (s : State) : (shiftStepper a was s).clock = s.clock := by
  unfold shiftStepper; (try dsimp only); (repeat' split) <;> simp

@[simp] theorem staleTargets_clock (a : Fin 112) (s : State) : (staleTargets a s).clock = s.clock := by
  unfold staleTargets; simp

@[simp] theorem rereference_clock (a : Fin 112) (d : Int) (s : State) : (rereference a d s).clock = s.clock := by
  unfold rereference; simp

@[simp] theorem rereferencePour_clock (a : Fin 112) (s : State) : (rereferencePour a s).clock = s.clock := by
  unfold rereferencePour; (try dsimp only); (repeat' split) <;> simp

@[simp] theorem kettleTripped_clock (sensor : Fin 12) (temp : Word) (s : State) :
    (kettleTripped sensor temp s).clock = s.clock := by
  unfold kettleTripped; simp

@[simp] theorem kettleOver_clock (sensor : Fin 12) (temp : Word) (s : State) :
    (kettleOver sensor temp s).clock = s.clock := by
  unfold kettleOver; simp

@[simp] theorem scrub_clock (e : Fin 32) (kind : Fin 3) (addr : BitVec 16) (err : Fin 3) (s : State) :
    (scrub e kind addr err s).clock = s.clock := by
  unfold scrub; (try dsimp only); (repeat' split) <;> simp

@[simp] theorem serveSessionReset_clock (p : Packet) (s : State) : (serveSessionReset p s).clock = s.clock := by
  unfold serveSessionReset; simp

@[simp] theorem finishBoot_clock (level : Word) (s : State) : (finishBoot level s).clock = s.clock := by
  unfold finishBoot; (try dsimp only); (repeat' split) <;> simp

@[simp] theorem debugHalt_clock (e : Fin 32) (pc : BitVec 13) (s : State) : (debugHalt e pc s).clock = s.clock := by
  unfold debugHalt; simp

@[simp] theorem runVaultEventsRead_clock (p : Packet) (s : State) : (runVaultEventsRead p s).s.clock = s.clock := by
  unfold runVaultEventsRead; simp

@[simp] theorem applyGearRatio_clock (p : Packet) (s : State) : (applyGearRatio p s).clock = s.clock := by
  unfold applyGearRatio; simp

@[simp] theorem runStatusRead_clock (q0 : Packet) (s : State) : (runStatusRead q0 s).s.clock = s.clock := by
  unfold runStatusRead; simp

@[simp] theorem runCalderaStatus_clock (p : Packet) (s : State) : (runCalderaStatus p s).s.clock = s.clock := by
  unfold runCalderaStatus; simp

@[simp] theorem runLoopStatus_clock (p : Packet) (s : State) : (runLoopStatus p s).s.clock = s.clock := by
  unfold runLoopStatus; simp

@[simp] theorem runCompareCancel_clock (p : Packet) (s : State) : (runCompareCancel p s).s.clock = s.clock := by
  unfold runCompareCancel; simp

@[simp] theorem startMeasure_clock (t : Fin 16) (s : State) : (startMeasure t s).clock = s.clock := by
  unfold startMeasure; simp

@[simp] theorem enableTile_clock (t : Fin 16) (s : State) : (enableTile t s).clock = s.clock := by
  unfold enableTile; simp

@[simp] theorem searchStart_clock (c : Fin 24) (s : State) : (searchStart c s).clock = s.clock := by
  unfold searchStart; simp

@[simp] theorem searchWaiting_clock (q0 : Nat) (q1 : State) : (searchWaiting q0 q1).clock = q1.clock := by
  induction q0 generalizing q1 with
  | zero => rfl
  | succ n ih =>
    simp only [searchWaiting]
    repeat' split
    all_goals first | rfl | (rw [ih]; rfl) | (rw [ih, searchStart_clock, modFieldIo_clock])

@[simp] theorem followSp_clock (before : State) (t : Fin 16) (s : State) : (followSp before t s).clock = s.clock := by
  unfold followSp; simp

@[simp] theorem absChecked_clock (e : Fin 17) (t : Fin 16) (saved : BitVec 64) (field : Nat) (s : State) :
    (absChecked e t saved field s).clock = s.clock := by
  unfold absChecked; simp

@[simp] theorem ssiReading_clock (e : Fin 17) (t : Fin 16) (field : Nat) (dt : Word) (s : State) :
    (ssiReading e t field dt s).clock = s.clock := by
  unfold ssiReading; (try dsimp only); (repeat' split) <;> simp

@[simp] theorem runMarkStatus_clock (p : Packet) (s : State) : (runMarkStatus p s).s.clock = s.clock := by
  unfold runMarkStatus; simp

@[simp] theorem applyLoopMode_clock (p : Packet) (s : State) : (applyLoopMode p s).clock = s.clock := by
  unfold applyLoopMode; simp

@[simp] theorem runKettleStatus_clock (q0 : Packet) (s : State) : (runKettleStatus q0 s).s.clock = s.clock := by
  unfold runKettleStatus; simp

@[simp] theorem runLeStatus_clock (p : Packet) (s : State) : (runLeStatus p s).s.clock = s.clock := by
  unfold runLeStatus; simp

@[simp] theorem applyNtcConfig_clock (p : Packet) (s : State) : (applyNtcConfig p s).clock = s.clock := by
  unfold applyNtcConfig; simp

@[simp] theorem applyMoveStop_clock (p : Packet) (s : State) : (applyMoveStop p s).clock = s.clock := by
  unfold applyMoveStop; (try dsimp only); (repeat' split) <;> simp

@[simp] theorem applyGearArm_clock (p : Packet) (s : State) : (applyGearArm p s).clock = s.clock := by
  unfold applyGearArm; simp

@[simp] theorem passNode_clock (r : Fin 2) (pos : Fin 65) (s : State) : (passNode r pos s).clock = s.clock := by
  unfold passNode; simp

@[simp] theorem failNode_clock (r : Fin 2) (pos : Fin 65) (s : State) : (failNode r pos s).clock = s.clock := by
  unfold failNode; simp

@[simp] theorem passNotice_clock (r : Fin 2) (port : Fin 4) (o : Fin 4 → LinkOut) (s : State) :
    (passNotice r port o s).clock = s.clock := by
  unfold passNotice; simp

@[simp] theorem violation_clock (code : BitVec 16) (g : Fin 2) (t : Fin 16) (p2 : Word) (was : Bool)
    (latch : SafetyGroup → SafetyGroup) (s : State) : (violation code g t p2 was latch s).clock = s.clock := by
  unfold violation; simp

@[simp] theorem runLeImageEnd_clock (p : Packet) (s : State) : (runLeImageEnd p s).s.clock = s.clock := by
  unfold runLeImageEnd; simp

@[simp] theorem holdAxis_clock (before : State) (a : Fin 112) (s : State) : (holdAxis before a s).clock = s.clock := by
  unfold holdAxis; simp

@[simp] theorem pourSlot_clock (i : Fin 32) (s : State) : (pourSlot i s).clock = s.clock := by
  unfold pourSlot; (try dsimp only); (repeat' split) <;> simp

@[simp] theorem runTraceArm_clock (p : Packet) (s : State) : (runTraceArm p s).s.clock = s.clock := by
  unfold runTraceArm; simp

@[simp] theorem firstSlots_clock (start : Fix) (s : State) : (firstSlots start s).clock = s.clock := by
  unfold firstSlots; simp

@[simp] theorem runFioPolicySet_clock (p : Packet) (s : State) : (runFioPolicySet p s).s.clock = s.clock := by
  unfold runFioPolicySet; simp

@[simp] theorem runConfigData_clock (p : Packet) (s : State) : (runConfigData p s).s.clock = s.clock := by
  unfold runConfigData; simp

@[simp] theorem enterHoldover_clock (s : State) : (enterHoldover s).clock = s.clock := by
  unfold enterHoldover; simp

@[simp] theorem endEpisode_clock (s : State) : (endEpisode s).clock = s.clock := by
  unfold endEpisode; dsimp only
  split
  · rfl
  · rw [tellDiscarded_clock, modPower_clock, foldl_clock _ (fun s b => openBlock_clock ..)]
    split <;> simp

@[simp] theorem runStageCancel_clock (p : Packet) (s : State) : (runStageCancel p s).s.clock = s.clock := by
  unfold runStageCancel; (try dsimp only); (repeat' split) <;> simp

@[simp] theorem spiGet_clock (q0 : Nat) (q1 : Word) (q2 : State) : (spiGet q0 q1 q2).2.2.clock = q2.clock := by
  induction q0 generalizing q1 q2 with
  | zero => rfl
  | succ n ih => simp only [spiGet]; rw [ih]; simp

@[simp] theorem slotCrcBad_clock (port : Fin 4) (s : State) : (slotCrcBad port s).clock = s.clock := by
  unfold slotCrcBad; simp

@[simp] theorem takeSlot_clock (port : Fin 4) (r : Fin 2) (f : PourFrame) (s : State) (k : Nat) :
    (takeSlot port r f s k).clock = s.clock := by
  unfold takeSlot; simp

@[simp] theorem settleImage_clock (s : State) : (settleImage s).clock = s.clock := by
  unfold settleImage
  extract_lets s1 s2
  have h1 : s1.clock = s.clock := foldl_clock _ (fun s i => fillCoefs_clock ..) _ _
  have h2 : s2.clock = s.clock := (foldl_clock _ (fun s t => (writeTileStatus_clock ..).trans (modTile_clock ..)) _ _).trans h1
  exact (State.clock_mk ..).trans h2

@[simp] theorem cycleSbo_clock (o : Fin 4) (s : State) : (cycleSbo o s).clock = s.clock := by
  unfold cycleSbo; simp

@[simp] theorem cycleGroup_clock (g : Fin 2) (s : State) : (cycleGroup g s).clock = s.clock := by
  unfold cycleGroup; simp

@[simp] theorem runHomeResult_clock (p : Packet) (s : State) : (runHomeResult p s).s.clock = s.clock := by
  unfold runHomeResult; (try dsimp only); (repeat' split) <;> simp

@[simp] theorem runSlotStatus_clock (p : Packet) (s : State) : (runSlotStatus p s).s.clock = s.clock := by
  unfold runSlotStatus; simp

@[simp] theorem latchCounts_clock (s : State) : (latchCounts s).clock = s.clock := by
  unfold latchCounts
  extract_lets s1 s2
  have h1 : s1.clock = s.clock := foldl_clock _ (fun s t => pourFeedback_clock ..) _ _
  have h2 : s2.clock = s.clock := (foldl_clock _ (fun s e => encLatch_clock ..) _ _).trans h1
  exact (State.clock_mk ..).trans h2

@[simp] theorem pourSlots_clock (s : State) : (pourSlots s).clock = s.clock := by
  unfold pourSlots; simp

@[simp] theorem inPositionPour_clock (a : Fin 112) (s : State) : (inPositionPour a s).clock = s.clock := by
  unfold inPositionPour; simp

@[simp] theorem histPour_clock (a : Fin 112) (s : State) : (histPour a s).clock = s.clock := by
  unfold histPour; (try dsimp only); (repeat' split) <;> simp

@[simp] theorem fioPour_clock (s : State) : (fioPour s).clock = s.clock := by
  unfold fioPour; simp

@[simp] theorem streamImage_clock (s : State) : (streamImage s).clock = s.clock := by
  unfold streamImage; simp

@[simp] theorem loadPours_clock (s : State) : (loadPours s).clock = s.clock := by
  unfold loadPours; simp

@[simp] theorem runTimeRead_clock (q0 : Packet) (s : State) : (runTimeRead q0 s).s.clock = s.clock := by
  unfold runTimeRead; simp

@[simp] theorem runTimePolicySet_clock (p : Packet) (s : State) : (runTimePolicySet p s).s.clock = s.clock := by
  unfold runTimePolicySet; simp

@[simp] theorem spiPut_clock (q0 : Word) (q1 : List Word) (q2 : State) : (spiPut q0 q1 q2).2.clock = q2.clock := by
  induction q1 generalizing q0 q2 with
  | nil => rfl
  | cons v vs ih => simp only [spiPut]; rw [ih]; simp

@[simp] theorem runEcho_clock (p : Packet) (s : State) : (runEcho p s).s.clock = s.clock := by
  unfold runEcho; simp

@[simp] theorem restoreAxis_clock (n : Fin 80) (c : SavedAxis) (s : State) : (restoreAxis n c s).clock = s.clock := by
  unfold restoreAxis; (try dsimp only); (repeat' split) <;> simp

@[simp] theorem vaultRestore_clock (crc : Word) (s : State) : (vaultRestore crc s).clock = s.clock := by
  unfold vaultRestore; (try dsimp only); (repeat' split) <;> simp

@[simp] theorem applyImage_clock (crc : Word) (img : ConfigImage) (s : State) :
    (applyImage crc img s).clock = s.clock := by
  unfold applyImage; simp

@[simp] theorem runStageOpen_clock (p : Packet) (s : State) : (runStageOpen p s).s.clock = s.clock := by
  unfold runStageOpen; simp

@[simp] theorem runStageCommit_clock (p : Packet) (s : State) : (runStageCommit p s).s.clock = s.clock := by
  unfold runStageCommit; (try dsimp only); (repeat' split) <;> simp

@[simp] theorem launchBare_clock (type : BitVec 8) (r : Fin 2) (s : State) : (launchBare type r s).clock = s.clock := by
  unfold launchBare; (try dsimp only); (repeat' split) <;> simp

@[simp] theorem forwardFrame_clock (r : Fin 2) (port : Fin 4) (f : PourFrame) (s : State) :
    (forwardFrame r port f s).clock = s.clock := by
  unfold forwardFrame; (try dsimp only); (repeat' split) <;> simp

@[simp] theorem discardDt_clock (r : DomainChecks) (s : State) : (discardDt r s).clock = s.clock := by
  unfold discardDt; simp

@[simp] theorem runSegmentStatus_clock (q0 : Packet) (s : State) : (runSegmentStatus q0 s).s.clock = s.clock := by
  unfold runSegmentStatus; simp

@[simp] theorem runSlotPolicy_clock (p : Packet) (s : State) : (runSlotPolicy p s).s.clock = s.clock := by
  unfold runSlotPolicy; simp

@[simp] theorem runCamEnd_clock (p : Packet) (s : State) : (runCamEnd p s).s.clock = s.clock := by
  unfold runCamEnd; (try dsimp only); (repeat' split) <;> simp

@[simp] theorem runTraceForce_clock (p : Packet) (s : State) : (runTraceForce p s).s.clock = s.clock := by
  unfold runTraceForce; simp

@[simp] theorem runLoopPolicy_clock (p : Packet) (s : State) : (runLoopPolicy p s).s.clock = s.clock := by
  unfold runLoopPolicy; simp

@[simp] theorem runLeRestart_clock (p : Packet) (s : State) : (runLeRestart p s).s.clock = s.clock := by
  unfold runLeRestart; simp

@[simp] theorem runTileLoadAll_clock (p : Packet) (s : State) : (runTileLoadAll p s).s.clock = s.clock := by
  unfold runTileLoadAll; simp

@[simp] theorem runTileStatus_clock (p : Packet) (s : State) : (runTileStatus p s).s.clock = s.clock := by
  unfold runTileStatus; simp

@[simp] theorem startSpeed_clock (t : Fin 16) (w : Word) (s : State) : (startSpeed t w s).clock = s.clock := by
  unfold startSpeed; simp

@[simp] theorem catchMotor_clock (t : Fin 16) (emf : Word) (omega : Word) (s : State) :
    (catchMotor t emf omega s).clock = s.clock := by
  unfold catchMotor; simp

@[simp] theorem handOver_clock (t : Fin 16) (s : State) : (handOver t s).clock = s.clock := by
  unfold handOver; simp

@[simp] theorem stageCoils_clock (t : Fin 16) (s : State) : (stageCoils t s).clock = s.clock := by
  unfold stageCoils; simp

@[simp] theorem runFbStatus_clock (p : Packet) (s : State) : (runFbStatus p s).s.clock = s.clock := by
  unfold runFbStatus; simp

@[simp] theorem runGuRelease_clock (p : Packet) (s : State) : (runGuRelease p s).s.clock = s.clock := by
  unfold runGuRelease; (try dsimp only); (repeat' split) <;> simp

@[simp] theorem tpPeriod_clock (k : Fin 4) (follows : Bool) (s : State) : (tpPeriod k follows s).clock = s.clock := by
  unfold tpPeriod; simp

@[simp] theorem monitor_clock (illegal : BitVec 16) (g : Fin 2) (s : State) : (monitor illegal g s).clock = s.clock := by
  unfold monitor
  extract_lets c x speed ss1r ms still s1 s2 s3 s4 cause
  have h1 : s1.clock = s.clock := ite_clock (modGroup_clock ..) rfl
  have h2 : s2.clock = s.clock := by
    refine ite_clock ?_ h1
    split
    · exact (violation_clock ..).trans h1
    · exact h1
  have h3 : s3.clock = s.clock := by
    refine ite_clock ?_ h2
    split
    · exact (violation_clock ..).trans h2
    · exact h2
  have h4 : s4.clock = s.clock := by
    dsimp only [s4]
    split
    · exact (violation_clock ..).trans h3
    · exact h3
  refine ite_clock ?_ h4
  split
  · exact (violation_clock ..).trans h4
  · exact h4

@[simp] theorem runSafecfgRead_clock (p : Packet) (s : State) : (runSafecfgRead p s).s.clock = s.clock := by
  unfold runSafecfgRead; simp

@[simp] theorem fioChange_clock (c : Fin 24) (on : Bool) (t : Fix) (s : State) :
    (fioChange c on t s).clock = s.clock := by
  unfold fioChange; simp

@[simp] theorem fioChanges_clock (c : Fin 24) (s : State) : (fioChanges c s).clock = s.clock := by
  unfold fioChanges; simp

@[simp] theorem releasePair_clock (c : Fin 24) (s : State) : (releasePair c s).clock = s.clock := by
  unfold releasePair; (try dsimp only); (repeat' split) <;> simp

@[simp] theorem runFioFaultClear_clock (p : Packet) (s : State) : (runFioFaultClear p s).s.clock = s.clock := by
  unfold runFioFaultClear; (try dsimp only); (repeat' split) <;> simp

@[simp] theorem runCanRxqConfig_clock (p : Packet) (s : State) : (runCanRxqConfig p s).s.clock = s.clock := by
  unfold runCanRxqConfig; simp

@[simp] theorem runCanTx_clock (p : Packet) (s : State) : (runCanTx p s).s.clock = s.clock := by
  unfold runCanTx; simp

@[simp] theorem runCanTtEnable_clock (p : Packet) (s : State) : (runCanTtEnable p s).s.clock = s.clock := by
  unfold runCanTtEnable; simp

@[simp] theorem applySlotDisarm_clock (p : Packet) (s : State) : (applySlotDisarm p s).clock = s.clock := by
  unfold applySlotDisarm; simp

@[simp] theorem applyAxisLimits_clock (p : Packet) (s : State) : (applyAxisLimits p s).clock = s.clock := by
  unfold applyAxisLimits; simp

@[simp] theorem applyBrakeClear_clock (p : Packet) (s : State) : (applyBrakeClear p s).clock = s.clock := by
  unfold applyBrakeClear; simp

@[simp] theorem applyCamEngage_clock (p : Packet) (s : State) : (applyCamEngage p s).clock = s.clock := by
  unfold applyCamEngage; simp

@[simp] theorem applyFocConfig_clock (p : Packet) (s : State) : (applyFocConfig p s).clock = s.clock := by
  unfold applyFocConfig; simp

@[simp] theorem applyTileMode_clock (p : Packet) (s : State) : (applyTileMode p s).clock = s.clock := by
  unfold applyTileMode; simp

@[simp] theorem applyHomeStart_clock (p : Packet) (s : State) : (applyHomeStart p s).clock = s.clock := by
  unfold applyHomeStart; simp

@[simp] theorem applyLoopProgram_clock (p : Packet) (s : State) : (applyLoopProgram p s).clock = s.clock := by
  unfold applyLoopProgram; simp

@[simp] theorem applyAxisDisable_clock (p : Packet) (s : State) : (applyAxisDisable p s).clock = s.clock := by
  unfold applyAxisDisable; simp

@[simp] theorem applyAxisConfig_clock (p : Packet) (s : State) : (applyAxisConfig p s).clock = s.clock := by
  unfold applyAxisConfig; simp

@[simp] theorem applySlotArm_clock (p : Packet) (s : State) : (applySlotArm p s).clock = s.clock := by
  unfold applySlotArm; simp

@[simp] theorem applyTilePwm_clock (p : Packet) (s : State) : (applyTilePwm p s).clock = s.clock := by
  unfold applyTilePwm; simp

@[simp] theorem applyAxisEnable_clock (p : Packet) (s : State) : (applyAxisEnable p s).clock = s.clock := by
  unfold applyAxisEnable; (try dsimp only); (repeat' split) <;> simp

@[simp] theorem stAxisEnable_apply_clock (p : Packet) (s : State) : (stAxisEnable.apply p s).clock = s.clock := by
  simp only [stAxisEnable]
  repeat' split
  all_goals simp
@[simp] theorem stAxisConfig_apply_clock (p : Packet) (s : State) : (stAxisConfig.apply p s).clock = s.clock := by
  simp only [stAxisConfig]
  repeat' split
  all_goals simp
@[simp] theorem stAxisDisable_apply_clock (p : Packet) (s : State) : (stAxisDisable.apply p s).clock = s.clock := by
  simp only [stAxisDisable]
  repeat' split
  all_goals simp
@[simp] theorem stAxisLimitsSet_apply_clock (p : Packet) (s : State) : (stAxisLimitsSet.apply p s).clock = s.clock := by
  simp only [stAxisLimitsSet]
  repeat' split
  all_goals simp
@[simp] theorem stCamEngage_apply_clock (p : Packet) (s : State) : (stCamEngage.apply p s).clock = s.clock := by
  simp only [stCamEngage]
  repeat' split
  all_goals simp
@[simp] theorem stCamSwap_apply_clock (p : Packet) (s : State) : (stCamSwap.apply p s).clock = s.clock := by
  simp only [stCamSwap]
  repeat' split
  all_goals simp
@[simp] theorem stCapConfig_apply_clock (p : Packet) (s : State) : (stCapConfig.apply p s).clock = s.clock := by
  simp only [stCapConfig]
  repeat' split
  all_goals simp
@[simp] theorem stChopperConfig_apply_clock (p : Packet) (s : State) : (stChopperConfig.apply p s).clock = s.clock := by
  simp only [stChopperConfig]
  repeat' split
  all_goals simp
@[simp] theorem stCoilMeasureConfig_apply_clock (p : Packet) (s : State) : (stCoilMeasureConfig.apply p s).clock = s.clock := by
  simp only [stCoilMeasureConfig]
  repeat' split
  all_goals simp
@[simp] theorem stCoilParamSet_apply_clock (p : Packet) (s : State) : (stCoilParamSet.apply p s).clock = s.clock := by
  simp only [stCoilParamSet]
  repeat' split
  all_goals simp
@[simp] theorem stDclConfig_apply_clock (p : Packet) (s : State) : (stDclConfig.apply p s).clock = s.clock := by
  simp only [stDclConfig]
  repeat' split
  all_goals simp
@[simp] theorem stDitherSet_apply_clock (p : Packet) (s : State) : (stDitherSet.apply p s).clock = s.clock := by
  simp only [stDitherSet]
  repeat' split
  all_goals simp
@[simp] theorem stEncConfig_apply_clock (p : Packet) (s : State) : (stEncConfig.apply p s).clock = s.clock := by
  simp only [stEncConfig]
  repeat' split
  all_goals simp
@[simp] theorem stFaultClear_apply_clock (p : Packet) (s : State) : (stFaultClear.apply p s).clock = s.clock := by
  simp only [stFaultClear]
  repeat' split
  all_goals simp
@[simp] theorem stFeedbackSelect_apply_clock (p : Packet) (s : State) : (stFeedbackSelect.apply p s).clock = s.clock := by
  simp only [stFeedbackSelect]
  repeat' split
  all_goals simp
@[simp] theorem stFioConfig_apply_clock (p : Packet) (s : State) : (stFioConfig.apply p s).clock = s.clock := by
  simp only [stFioConfig]
  repeat' split
  all_goals simp
@[simp] theorem stFioOutSet_apply_clock (p : Packet) (s : State) : (stFioOutSet.apply p s).clock = s.clock := by
  simp only [stFioOutSet]
  repeat' split
  all_goals simp
@[simp] theorem stFocConfig_apply_clock (p : Packet) (s : State) : (stFocConfig.apply p s).clock = s.clock := by
  simp only [stFocConfig]
  repeat' split
  all_goals simp
@[simp] theorem stFocModulationSet_apply_clock (p : Packet) (s : State) : (stFocModulationSet.apply p s).clock = s.clock := by
  simp only [stFocModulationSet]
  repeat' split
  all_goals simp
@[simp] theorem stFocMotorSet_apply_clock (p : Packet) (s : State) : (stFocMotorSet.apply p s).clock = s.clock := by
  simp only [stFocMotorSet]
  repeat' split
  all_goals simp
@[simp] theorem stFollowDisengage_apply_clock (p : Packet) (s : State) : (stFollowDisengage.apply p s).clock = s.clock := by
  simp only [stFollowDisengage]
  repeat' split
  all_goals simp
@[simp] theorem stFreeLoopConfig_apply_clock (p : Packet) (s : State) : (stFreeLoopConfig.apply p s).clock = s.clock := by
  simp only [stFreeLoopConfig]
  repeat' split
  all_goals simp
@[simp] theorem stGearChangeArm_apply_clock (p : Packet) (s : State) : (stGearChangeArm.apply p s).clock = s.clock := by
  simp only [stGearChangeArm]
  repeat' split
  all_goals simp
@[simp] theorem stGearChangeCancel_apply_clock (p : Packet) (s : State) : (stGearChangeCancel.apply p s).clock = s.clock := by
  simp only [stGearChangeCancel]
  repeat' split
  all_goals simp
@[simp] theorem stGearEngage_apply_clock (p : Packet) (s : State) : (stGearEngage.apply p s).clock = s.clock := by
  simp only [stGearEngage]
  repeat' split
  all_goals simp
@[simp] theorem stGearRatioSet_apply_clock (p : Packet) (s : State) : (stGearRatioSet.apply p s).clock = s.clock := by
  simp only [stGearRatioSet]
  repeat' split
  all_goals simp
@[simp] theorem stGearSourceSet_apply_clock (p : Packet) (s : State) : (stGearSourceSet.apply p s).clock = s.clock := by
  simp only [stGearSourceSet]
  repeat' split
  all_goals simp
@[simp] theorem stGuMeasureSet_apply_clock (p : Packet) (s : State) : (stGuMeasureSet.apply p s).clock = s.clock := by
  simp only [stGuMeasureSet]
  repeat' split
  all_goals simp
@[simp] theorem stHallTableSet_apply_clock (p : Packet) (s : State) : (stHallTableSet.apply p s).clock = s.clock := by
  simp only [stHallTableSet]
  repeat' split
  all_goals simp
@[simp] theorem stHomeConfig_apply_clock (p : Packet) (s : State) : (stHomeConfig.apply p s).clock = s.clock := by
  simp only [stHomeConfig]
  repeat' split
  all_goals simp
@[simp] theorem stHomeStart_apply_clock (p : Packet) (s : State) : (stHomeStart.apply p s).clock = s.clock := by
  simp only [stHomeStart]
  repeat' split
  all_goals simp
@[simp] theorem stLeTickSet_apply_clock (p : Packet) (s : State) : (stLeTickSet.apply p s).clock = s.clock := by
  simp only [stLeTickSet]
  repeat' split
  all_goals simp
@[simp] theorem stLimiterSet_apply_clock (p : Packet) (s : State) : (stLimiterSet.apply p s).clock = s.clock := by
  simp only [stLimiterSet]
  repeat' split
  all_goals simp
@[simp] theorem stLoopCoefSet_apply_clock (p : Packet) (s : State) : (stLoopCoefSet.apply p s).clock = s.clock := by
  simp only [stLoopCoefSet]
  repeat' split
  all_goals simp
@[simp] theorem stLoopModeSet_apply_clock (p : Packet) (s : State) : (stLoopModeSet.apply p s).clock = s.clock := by
  simp only [stLoopModeSet]
  repeat' split
  all_goals simp
@[simp] theorem stLoopProgramSelect_apply_clock (p : Packet) (s : State) : (stLoopProgramSelect.apply p s).clock = s.clock := by
  simp only [stLoopProgramSelect]
  repeat' split
  all_goals simp
@[simp] theorem stLoopRateSet_apply_clock (p : Packet) (s : State) : (stLoopRateSet.apply p s).clock = s.clock := by
  simp only [stLoopRateSet]
  repeat' split
  all_goals simp
@[simp] theorem stLoopTopSet_apply_clock (p : Packet) (s : State) : (stLoopTopSet.apply p s).clock = s.clock := by
  simp only [stLoopTopSet]
  repeat' split
  all_goals simp
@[simp] theorem stLoopTuningSet_apply_clock (p : Packet) (s : State) : (stLoopTuningSet.apply p s).clock = s.clock := by
  simp only [stLoopTuningSet]
  repeat' split
  all_goals simp
@[simp] theorem stMasterLeadSet_apply_clock (p : Packet) (s : State) : (stMasterLeadSet.apply p s).clock = s.clock := by
  simp only [stMasterLeadSet]
  repeat' split
  all_goals simp
@[simp] theorem stMotorIdentify_apply_clock (p : Packet) (s : State) : (stMotorIdentify.apply p s).clock = s.clock := by
  simp only [stMotorIdentify]
  repeat' split
  all_goals simp
@[simp] theorem stMovePosition_apply_clock (p : Packet) (s : State) : (stMovePosition.apply p s).clock = s.clock := by
  simp only [stMovePosition]
  repeat' split
  all_goals simp
@[simp] theorem stMoveStop_apply_clock (p : Packet) (s : State) : (stMoveStop.apply p s).clock = s.clock := by
  simp only [stMoveStop]
  repeat' split
  all_goals simp
@[simp] theorem stMoveVelocity_apply_clock (p : Packet) (s : State) : (stMoveVelocity.apply p s).clock = s.clock := by
  simp only [stMoveVelocity]
  repeat' split
  all_goals simp
@[simp] theorem stNtcConfig_apply_clock (p : Packet) (s : State) : (stNtcConfig.apply p s).clock = s.clock := by
  simp only [stNtcConfig]
  repeat' split
  all_goals simp
@[simp] theorem stObserverConfig_apply_clock (p : Packet) (s : State) : (stObserverConfig.apply p s).clock = s.clock := by
  simp only [stObserverConfig]
  repeat' split
  all_goals simp
@[simp] theorem stRegConfig_apply_clock (p : Packet) (s : State) : (stRegConfig.apply p s).clock = s.clock := by
  simp only [stRegConfig]
  repeat' split
  all_goals simp
@[simp] theorem stRegEnable_apply_clock (p : Packet) (s : State) : (stRegEnable.apply p s).clock = s.clock := by
  simp only [stRegEnable]
  repeat' split
  all_goals simp
@[simp] theorem stRegOffsetSet_apply_clock (p : Packet) (s : State) : (stRegOffsetSet.apply p s).clock = s.clock := by
  simp only [stRegOffsetSet]
  repeat' split
  all_goals simp
@[simp] theorem stSdConfig_apply_clock (p : Packet) (s : State) : (stSdConfig.apply p s).clock = s.clock := by
  simp only [stSdConfig]
  repeat' split
  all_goals simp
@[simp] theorem stSdclkConfig_apply_clock (p : Packet) (s : State) : (stSdclkConfig.apply p s).clock = s.clock := by
  simp only [stSdclkConfig]
  repeat' split
  all_goals simp
@[simp] theorem stSincosConfig_apply_clock (p : Packet) (s : State) : (stSincosConfig.apply p s).clock = s.clock := by
  simp only [stSincosConfig]
  repeat' split
  all_goals simp
@[simp] theorem stSlotArm_apply_clock (p : Packet) (s : State) : (stSlotArm.apply p s).clock = s.clock := by
  simp only [stSlotArm]
  repeat' split
  all_goals simp
@[simp] theorem stSlotConfig_apply_clock (p : Packet) (s : State) : (stSlotConfig.apply p s).clock = s.clock := by
  simp only [stSlotConfig]
  repeat' split
  all_goals simp
@[simp] theorem stSlotDisarm_apply_clock (p : Packet) (s : State) : (stSlotDisarm.apply p s).clock = s.clock := by
  simp only [stSlotDisarm]
  repeat' split
  all_goals simp
@[simp] theorem stSoftLimitsSet_apply_clock (p : Packet) (s : State) : (stSoftLimitsSet.apply p s).clock = s.clock := by
  simp only [stSoftLimitsSet]
  repeat' split
  all_goals simp
@[simp] theorem stSsiConfig_apply_clock (p : Packet) (s : State) : (stSsiConfig.apply p s).clock = s.clock := by
  simp only [stSsiConfig]
  repeat' split
  all_goals simp
@[simp] theorem stStartConfig_apply_clock (p : Packet) (s : State) : (stStartConfig.apply p s).clock = s.clock := by
  simp only [stStartConfig]
  repeat' split
  all_goals simp
@[simp] theorem stStepConfig_apply_clock (p : Packet) (s : State) : (stStepConfig.apply p s).clock = s.clock := by
  simp only [stStepConfig]
  repeat' split
  all_goals simp
@[simp] theorem stStepTableSelect_apply_clock (p : Packet) (s : State) : (stStepTableSelect.apply p s).clock = s.clock := by
  simp only [stStepTableSelect]
  repeat' split
  all_goals simp
@[simp] theorem stStopLimitsSet_apply_clock (p : Packet) (s : State) : (stStopLimitsSet.apply p s).clock = s.clock := by
  simp only [stStopLimitsSet]
  repeat' split
  all_goals simp
@[simp] theorem stSupervisorConfig_apply_clock (p : Packet) (s : State) : (stSupervisorConfig.apply p s).clock = s.clock := by
  simp only [stSupervisorConfig]
  repeat' split
  all_goals simp
@[simp] theorem stSvCurrentSet_apply_clock (p : Packet) (s : State) : (stSvCurrentSet.apply p s).clock = s.clock := by
  simp only [stSvCurrentSet]
  repeat' split
  all_goals simp
@[simp] theorem stTileFaultInputSet_apply_clock (p : Packet) (s : State) : (stTileFaultInputSet.apply p s).clock = s.clock := by
  simp only [stTileFaultInputSet]
  repeat' split
  all_goals simp
@[simp] theorem stTileModeSet_apply_clock (p : Packet) (s : State) : (stTileModeSet.apply p s).clock = s.clock := by
  simp only [stTileModeSet]
  repeat' split
  all_goals simp
@[simp] theorem stTilePwmSet_apply_clock (p : Packet) (s : State) : (stTilePwmSet.apply p s).clock = s.clock := by
  simp only [stTilePwmSet]
  repeat' split
  all_goals simp
@[simp] theorem stValveConfig_apply_clock (p : Packet) (s : State) : (stValveConfig.apply p s).clock = s.clock := by
  simp only [stValveConfig]
  repeat' split
  all_goals simp
@[simp] theorem stBrakeClear_apply_clock (p : Packet) (s : State) : (stBrakeClear.apply p s).clock = s.clock := by
  simp only [stBrakeClear]
  repeat' split
  all_goals simp
theorem stageOps_clock (o : StageOp) (h : o ∈ stageOps) (p : Packet) (s : State) : (o.apply p s).clock = s.clock := by
  simp only [stageOps, List.cons_append, List.nil_append, List.mem_cons, List.not_mem_nil, or_false] at h
  rcases h with rfl | rfl | rfl | rfl | rfl | rfl | rfl | rfl | rfl | rfl | rfl | rfl | rfl | rfl | rfl | rfl | rfl | rfl | rfl | rfl | rfl | rfl | rfl | rfl | rfl | rfl | rfl | rfl | rfl | rfl | rfl | rfl | rfl | rfl | rfl | rfl | rfl | rfl | rfl | rfl | rfl | rfl | rfl | rfl | rfl | rfl | rfl | rfl | rfl | rfl | rfl | rfl | rfl | rfl | rfl | rfl | rfl | rfl | rfl | rfl | rfl | rfl | rfl | rfl | rfl | rfl | rfl | rfl
  all_goals simp
theorem stageOpOf_clock {op : BitVec 16} {o : StageOp} (h : stageOpOf op = some o) (p : Packet) (s : State) :
    (o.apply p s).clock = s.clock := stageOps_clock o (List.mem_of_find?_eq_some h) p s
theorem runSet_clock {stops : List (Fin 112)} {l : List StagedCmd} {s s' : State} (h : runSet stops l s = .ok s') : s'.clock = s.clock := by
  induction l generalizing s with
  | nil => simp [runSet] at h; rw [h]
  | cons c l ih =>
    unfold runSet at h
    split at h
    · exact ih h
    · rename_i o ho
      dsimp only at h
      split at h
      · split at h
        · cases h
        · rw [ih h, stageOpOf_clock ho]
      · split at h
        · cases h
        · rw [ih h, stageOpOf_clock ho]

@[simp] theorem flushTick_clock (t : Fin 16) (s : State) : (flushTick t s).clock = s.clock := by
  unfold flushTick; dsimp only
  rw [foldl_clock, modTile_clock]
  intro s c
  split
  · rename_i o ho
    split
    · rw [stageOpOf_clock ho]
    · rfl
  · rfl

@[simp] theorem takeNew_clock (op : BitVec 16) (p : Packet) (s : State) : (takeNew op p s).clock = s.clock := by
  unfold takeNew; dsimp only
  split
  · simp
  · split
    · rename_i o ho
      split
      · simp
      · split
        · exact (runAccepted_clock _ _ _ _ (fun x => serveStage_clock o p x (fun q y => stageOpOf_clock ho q y))).trans (acceptPacket_clock ..)
        · simp
    · simp

@[simp] theorem takeGood_clock (op : BitVec 16) (p : Packet) (s : State) : (takeGood op p s).clock = s.clock := by
  unfold takeGood; (try dsimp only); (repeat' split) <;> simp

@[simp] theorem receiveWords_clock (i : Fin 80) (ws : List Word) (s : State) : (receiveWords i ws s).clock = s.clock := by
  unfold receiveWords; (try dsimp only); (repeat' split) <;> simp

@[simp] theorem steepBase_clock (s : State) : (steepBase s).clock = s.clock := by
  unfold steepBase
  extract_lets q s1 shift s2 due stops
  have h1 : s1.clock = s.clock := foldl_clock _ (fun s i => modAxis_clock ..) _ _
  have h2 : s2.clock = s.clock := (State.clock_mk ..).trans h1
  refine (foldl_clock _ (fun s x => ?_) _ _).trans h2
  split
  · rename_i h; exact runSet_clock h
  · rfl

@[simp] theorem lookAhead_clock (s : State) : (lookAhead s).clock = s.clock := by
  unfold lookAhead; simp

@[simp] theorem steepBegin_clock (s : State) : (steepBegin s).clock = s.clock := by
  unfold steepBegin; simp

@[simp] theorem armedBetween_clock (i : Fin 32) (true_ : Fix) (s : State) :
    (armedBetween i true_ s).2.clock = s.clock := by
  unfold armedBetween; simp

@[simp] theorem takeResidual_clock (i : Fin 32) (v : Fix) (s : State) : (takeResidual i v s).clock = s.clock := by
  unfold takeResidual; simp

@[simp] theorem takeEntryAt_clock (i : Fin 32) (m : MasterSample) (diff : Int) (s : State) :
    (takeEntryAt i m diff s).clock = s.clock := by
  unfold takeEntryAt; simp

@[simp] theorem receiveEntry_clock (i : Fin 32) (m : MasterSample) (s : State) :
    (receiveEntry i m s).clock = s.clock := by
  unfold receiveEntry; simp

@[simp] theorem drainRx_clock (s : State) : (drainRx s).clock = s.clock := by
  unfold drainRx
  extract_lets next ready now s1 s2
  have h : ∀ (l : List RxEntry) (x : State), State.clock { (l.foldl (fun s x => receiveEntry x.slot x.sample { s with dt := x.at_ }) x) with dt := now }
      = State.clock { x with dt := now } := by
    intro l
    induction l with
    | nil => intro x; rfl
    | cons a l ih =>
      intro x
      refine (ih _).trans ?_
      have := receiveEntry_clock a.slot a.sample { x with dt := a.at_ }
      injection this with h1 h2
      injection h2 with h2 h3
      simp only [State.clock, h1, h3]
  exact h ready s1

@[simp] theorem resteepSettings_clock (s : State) : (resteepSettings s).clock = s.clock := by
  unfold resteepSettings; simp

@[simp] theorem pourSets_clock (stops : List (Fin 112)) (q1 : List StagedSet) (q2 : List (Fin 112)) (q3 : State) :
    (pourSets stops q1 q2 q3).2.clock = q3.clock := by
  induction q1 generalizing q2 q3 with
  | nil => rfl
  | cons x l ih =>
    unfold pourSets
    split
    · rename_i h
      have h' := runSet_clock h
      rw [ih]
      exact h'
    · rw [ih, refuseSet_clock]

@[simp] theorem swapSets_clock (s : State) : (swapSets s).2.clock = s.clock := by
  unfold swapSets; simp

@[simp] theorem pourWork_clock (pred : Fin 32 → Fix) (true_ : Fin 32 → Fix) (s : State) :
    (pourWork pred true_ s).clock = s.clock := by
  unfold pourWork; simp

end Sys2Proof.Machine
end

