-- ==== Sys2Proof/Laws/Engine.lean ====
section
/-! SUPPORT. What one slot of a loop engine does: the registers that the writers of a result leave, and the issue of an
instruction with nothing underway. -/

namespace Sys2Proof.Machine

@[simp] theorem put_pc (i : Fin 16) (v : Word) (en : Engine) : (en.put i v).pc = en.pc := by
  unfold Engine.put Engine.setBank; split <;> rfl
@[simp] theorem putSr_pc (v : BitVec 16) (en : Engine) : (en.putSr v).pc = en.pc := by
  unfold Engine.putSr Engine.setBank; split <;> rfl
@[simp] theorem putAc_pc (n : Bool) (v : BitVec 80) (en : Engine) : (en.putAc n v).pc = en.pc := by
  unfold Engine.putAc; split <;> rfl
@[simp] theorem setAc_pc (n : Bool) (x : Int) (en : Engine) : (en.setAc n x).pc = en.pc := by
  simp [Engine.setAc]
@[simp] theorem modP_pc (i : Fin 8) (en : Engine) : (en.modP i).pc = en.pc := rfl

/-- An engine's change depends on the engine alone. -/
theorem modEngine_congr {e : Fin 32} {s : State} {f g : Engine → Engine} (h : f s.engines[e] = g s.engines[e]) :
    modEngine e f s = modEngine e g s := by
  simp only [modEngine, upd, h]

/-- The issue of an instruction with no repeat, no transfer and no result underway: what its body says, and one slot. -/
theorem plain_issue {e : Fin 32} {s : State} (h : Plain s.engines[e]) {slotOk repOk : Bool} {body : Engine → State → LeOut}
    {en' : Engine} {l : List Late} {c : Nat} (hb : body s.engines[e] s = .done en' l c) (hp : en'.pc = s.engines[e].pc) :
    issue e slotOk repOk body s = leSlot e l c (fun _ => en') s := by
  obtain ⟨h1, h2, h3, h4⟩ := h
  refine Eq.trans ?_ (modEngine_congr (f := fun _ => s.engines[e].slot l c fun _ => en') rfl)
  unfold issue
  generalize s.engines[e] = en at *
  simp only [h1, h2, h3, hb]
  unfold finishIssue
  simp [h4, h2, h3, advance, lateClash, Engine.slot, hp]

/-- A command whose meaning is such an issue runs as one slot with the change f. -/
theorem plain_runs {i : Instr} {e : Fin 32} {s : State} {slotOk repOk : Bool} {body : Engine → State → LeOut}
    {f : Engine → Engine} {l : List Late} {c : Nat} (hi : exec i s = .next (issue e slotOk repOk body s))
    (h : Plain s.engines[e]) (hb : body s.engines[e] s = .done (f s.engines[e]) l c)
    (hp : (f s.engines[e]).pc = s.engines[e].pc) : Runs i s (leSlot e l c f s) := by
  rw [Runs, hi, plain_issue h hb hp]
  exact congrArg _ (modEngine_congr rfl)

/-- The same for an instruction that draws a free value. -/
theorem plain_runs_free {i : Instr} {e : Fin 32} {s : State} {body : Engine → State → LeOut} {f : Engine → Engine}
    {l : List Late} {c : Nat} (hi : exec i s = .next (issueFree e body s)) (h : Plain s.engines[e])
    (hb : body s.engines[e] s = .done (f s.engines[e]) l c) (hp : (f s.engines[e]).pc = s.engines[e].pc) :
    Runs i s (leSlot e l c f (drawn s)) := by
  have hd : Plain (drawn s).engines[e] := h
  rw [Runs, hi, issueFree, if_pos h.1, plain_issue hd hb hp]
  exact congrArg _ (modEngine_congr rfl)

/-- An instruction that faults in its body stops the engine there, whatever its cause. -/
theorem fault_issue {e : Fin 32} {s : State} {slotOk repOk : Bool} {body : Engine → State → LeOut} {k : BitVec 8} {x : Word}
    (h : s.engines[e].issues = true) (hr : s.engines[e].rep = 0) (ht : s.engines[e].transfer = none)
    (hb : body s.engines[e] s = .fault k x) :
    issue e slotOk repOk body s = leFault e k s.engines[e].pc x s := by
  unfold issue
  simp only [h, hr, ht, hb]
  simp

end Sys2Proof.Machine
end

