-- ==== Sys2Proof/Laws/Frames.lean ====
section
/-! SUPPORT. Frames of the commands: which commands leave the queue, DT and L alone, and that all of these do. -/

namespace Sys2Proof.Machine

theorem next_inj {s t : State} (h : (Host.Outcome.next s : Host.Outcome State Fault Refusal) = .next t) : t = s := by
  injection h with h; exact h.symm

theorem canDo_clock {n : Fin 4} {f : State → State} {s s' : State} (hf : ∀ x, (f x).clock = x.clock)
    (h : canDo n f s = .next s') : s'.clock = s.clock := by
  unfold canDo at h
  rw [next_inj h]
  split <;> simp [hf]

theorem execStagingCutoff_clock (s : State) (s' : State) (h : execStagingCutoff s = .next s') : s'.clock = s.clock := by
  unfold execStagingCutoff at h
  (repeat' split at h) <;> (obtain rfl := next_inj h; simp)

theorem execConfirmationDeadline_clock (i : Fin 32) (s : State) (s' : State)
    (h : execConfirmationDeadline i s = .next s') : s'.clock = s.clock := by
  unfold execConfirmationDeadline at h
  obtain rfl := next_inj h
  simp

theorem execMasterLost_clock (i : Fin 32) (s : State) (s' : State)
    (h : execMasterLost i s = .next s') : s'.clock = s.clock := by
  unfold execMasterLost at h
  dsimp only at h
  (repeat' split at h) <;> (obtain rfl := next_inj h; (repeat' split) <;> simp)

theorem execRideThroughEnd_clock (i : Fin 32) (s : State) (s' : State)
    (h : execRideThroughEnd i s = .next s') : s'.clock = s.clock := by
  unfold execRideThroughEnd at h
  dsimp only at h
  (repeat' split at h) <;> (obtain rfl := next_inj h; (repeat' split) <;> simp)

theorem execSlotArmed_clock (i : Fin 32) (s : State) (s' : State)
    (h : execSlotArmed i s = .next s') : s'.clock = s.clock := by
  unfold execSlotArmed at h
  dsimp only at h
  (repeat' split at h) <;> (obtain rfl := next_inj h; (repeat' split) <;> simp)

theorem execMasterEntryArrival_clock (i : Fin 32) (m : MasterSample) (s : State) (s' : State)
    (h : execMasterEntryArrival i m s = .next s') : s'.clock = s.clock := by
  unfold execMasterEntryArrival at h
  obtain rfl := next_inj h
  simp

theorem execResteepEnd_clock (i : Fin 32) (s : State) (s' : State)
    (h : execResteepEnd i s = .next s') : s'.clock = s.clock := by
  unfold execResteepEnd at h
  dsimp only at h
  (repeat' split at h) <;> (obtain rfl := next_inj h; (repeat' split) <;> simp)

theorem execCompareFire_clock (u : Fin 16) (s : State) (s' : State)
    (h : execCompareFire u s = .next s') : s'.clock = s.clock := by
  unfold execCompareFire at h
  obtain rfl := next_inj h
  simp

theorem execPpsEdge_clock (n : Fin 8) (s : State) (s' : State) (h : execPpsEdge n s = .next s') : s'.clock = s.clock := by
  unfold execPpsEdge at h
  obtain rfl := next_inj h
  simp

theorem execHoldoverEntry_clock (s : State) (s' : State) (h : execHoldoverEntry s = .next s') : s'.clock = s.clock := by
  unfold execHoldoverEntry at h
  obtain rfl := next_inj h
  simp

theorem execHoldoverExpired_clock (s : State) (s' : State)
    (h : execHoldoverExpired s = .next s') : s'.clock = s.clock := by
  unfold execHoldoverExpired at h
  obtain rfl := next_inj h
  simp

theorem execTimeLocked_clock (s : State) (s' : State) (h : execTimeLocked s = .next s') : s'.clock = s.clock := by
  unfold execTimeLocked at h
  obtain rfl := next_inj h
  simp

theorem execTimeUnlocked_clock (s : State) (s' : State) (h : execTimeUnlocked s = .next s') : s'.clock = s.clock := by
  unfold execTimeUnlocked at h
  obtain rfl := next_inj h
  simp

theorem execPtpMessageReceive_clock (eth : Fin 2) (domain : BitVec 8) (rate : BitVec 32) (offset : BitVec 32)
    (tai : BitVec 64) (locked : Bool) (s : State) (s' : State)
    (h : execPtpMessageReceive eth domain rate offset tai locked s = .next s') : s'.clock = s.clock := by
  unfold execPtpMessageReceive at h
  obtain rfl := next_inj h
  simp

theorem execPtpLost_clock (s : State) (s' : State) (h : execPtpLost s = .next s') : s'.clock = s.clock := by
  unfold execPtpLost at h
  obtain rfl := next_inj h
  simp

theorem execTimeRead_clock (p : Packet) (s : State) (s' : State)
    (h : execTimeRead p s = .next s') : s'.clock = s.clock := by
  unfold execTimeRead at h
  obtain rfl := next_inj h
  simp

theorem execTimeStatus_clock (p : Packet) (s : State) (s' : State)
    (h : execTimeStatus p s = .next s') : s'.clock = s.clock := by
  unfold execTimeStatus at h
  obtain rfl := next_inj h
  simp

theorem execTimeSourceSet_clock (p : Packet) (s : State) (s' : State)
    (h : execTimeSourceSet p s = .next s') : s'.clock = s.clock := by
  unfold execTimeSourceSet at h
  obtain rfl := next_inj h
  simp

theorem execPtpConfig_clock (p : Packet) (s : State) (s' : State)
    (h : execPtpConfig p s = .next s') : s'.clock = s.clock := by
  unfold execPtpConfig at h
  obtain rfl := next_inj h
  simp

theorem execTimePolicySet_clock (p : Packet) (s : State) (s' : State)
    (h : execTimePolicySet p s = .next s') : s'.clock = s.clock := by
  unfold execTimePolicySet at h
  obtain rfl := next_inj h
  simp

theorem execCompareArm_clock (p : Packet) (s : State) (s' : State)
    (h : execCompareArm p s = .next s') : s'.clock = s.clock := by
  unfold execCompareArm at h
  obtain rfl := next_inj h
  simp

theorem execCompareCancel_clock (p : Packet) (s : State) (s' : State)
    (h : execCompareCancel p s = .next s') : s'.clock = s.clock := by
  unfold execCompareCancel at h
  obtain rfl := next_inj h
  simp

theorem execPpsConfig_clock (p : Packet) (s : State) (s' : State)
    (h : execPpsConfig p s = .next s') : s'.clock = s.clock := by
  unfold execPpsConfig at h
  obtain rfl := next_inj h
  simp

theorem execPpsStop_clock (p : Packet) (s : State) (s' : State)
    (h : execPpsStop p s = .next s') : s'.clock = s.clock := by
  unfold execPpsStop at h
  obtain rfl := next_inj h
  simp

theorem execPourStatus_clock (p : Packet) (s : State) (s' : State)
    (h : execPourStatus p s = .next s') : s'.clock = s.clock := by
  unfold execPourStatus at h
  obtain rfl := next_inj h
  simp

theorem execWideReadCapture_clock (addr : Word) (bytes : Nat) (s : State) (s' : State)
    (h : execWideReadCapture addr bytes s = .next s') : s'.clock = s.clock := by
  unfold execWideReadCapture at h
  obtain rfl := next_inj h
  simp

theorem execRegisterWrite_clock (addr : Word) (v : Word) (bytes : Nat) (s : State) (s' : State)
    (h : execRegisterWrite addr v bytes s = .next s') : s'.clock = s.clock := by
  unfold execRegisterWrite at h
  obtain rfl := next_inj h
  simp

theorem execEventFabricArrival_clock (s : State) (s' : State)
    (h : execEventFabricArrival s = .next s') : s'.clock = s.clock := by
  unfold execEventFabricArrival at h
  obtain rfl := next_inj h
  (repeat' split) <;> simp

theorem execEventHoldExpiry_clock (s : State) (s' : State)
    (h : execEventHoldExpiry s = .next s') : s'.clock = s.clock := by
  unfold execEventHoldExpiry at h
  obtain rfl := next_inj h
  (repeat' split) <;> simp

theorem execForwardedEventReceive_clock (origin : BitVec 64) (rec : List Word) (s : State) (s' : State)
    (h : execForwardedEventReceive origin rec s = .next s') : s'.clock = s.clock := by
  unfold execForwardedEventReceive at h
  obtain rfl := next_inj h
  simp

theorem execEventPush_clock (session : Fin 80) (s : State) (s' : State)
    (h : execEventPush session s = .next s') : s'.clock = s.clock := by
  unfold execEventPush at h
  obtain rfl := next_inj h
  simp

theorem execReqDoorbell_clock (prod : BitVec 16) (slots : List (List Word)) (s : State) (s' : State)
    (h : execReqDoorbell prod slots s = .next s') : s'.clock = s.clock := by
  unfold execReqDoorbell at h
  obtain rfl := next_inj h
  simp

theorem execRspDoorbell_clock (cons : BitVec 16) (s : State) (s' : State)
    (h : execRspDoorbell cons s = .next s') : s'.clock = s.clock := by
  unfold execRspDoorbell at h
  obtain rfl := next_inj h
  simp

theorem execEvtDoorbell_clock (cons : BitVec 16) (s : State) (s' : State)
    (h : execEvtDoorbell cons s = .next s') : s'.clock = s.clock := by
  unfold execEvtDoorbell at h
  obtain rfl := next_inj h
  simp

theorem execSpiWindowWrite_clock (addr : Word) (data : List Word) (s : State) (s' : State)
    (h : execSpiWindowWrite addr data s = .next s') : s'.clock = s.clock := by
  unfold execSpiWindowWrite at h
  rw [next_inj h]
  refine ite_clock rfl ?_
  have hb := spiPut_clock addr data s
  generalize spiPut addr data s = r at hb
  exact (State.clock_mk ..).trans hb

theorem execSpiWindowRead_clock (addr : Word) (n : Nat) (s : State) (s' : State)
    (h : execSpiWindowRead addr n s = .next s') : s'.clock = s.clock := by
  unfold execSpiWindowRead at h
  rw [next_inj h]
  refine ite_clock rfl ?_
  have hb := spiGet_clock n addr s
  generalize spiGet n addr s = r at hb
  exact (State.clock_mk ..).trans hb

theorem execSpiPacketWrite_clock (words : List Word) (s : State) (s' : State)
    (h : execSpiPacketWrite words s = .next s') : s'.clock = s.clock := by
  unfold execSpiPacketWrite at h
  obtain rfl := next_inj h
  simp

theorem execSpiReplyRead_clock (s : State) (s' : State) (h : execSpiReplyRead s = .next s') : s'.clock = s.clock := by
  unfold execSpiReplyRead at h
  obtain rfl := next_inj h
  (repeat' split) <;> simp

theorem execSpiStatusRead_clock (s : State) (s' : State) (h : execSpiStatusRead s = .next s') : s'.clock = s.clock := by
  unfold execSpiStatusRead at h
  obtain rfl := next_inj h
  simp

theorem execUdpDatagramReceive_clock (eth : Fin 2) (addr : Word) (port : BitVec 16) (bytes : Nat) (words : List Word)
    (s : State) (s' : State)
    (h : execUdpDatagramReceive eth addr port bytes words s = .next s') : s'.clock = s.clock := by
  unfold execUdpDatagramReceive at h
  obtain rfl := next_inj h
  (repeat' split) <;> simp

theorem execSessionIdleTimeout_clock (session : Fin 80) (s : State) (s' : State)
    (h : execSessionIdleTimeout session s = .next s') : s'.clock = s.clock := by
  unfold execSessionIdleTimeout at h
  obtain rfl := next_inj h
  simp

theorem execChainTimeout_clock (session : Fin 80) (seq : Word) (s : State) (s' : State)
    (h : execChainTimeout session seq s = .next s') : s'.clock = s.clock := by
  unfold execChainTimeout at h
  obtain rfl := next_inj h
  (repeat' split) <;> simp

theorem execPcieFunctionReset_clock (s : State) (s' : State)
    (h : execPcieFunctionReset s = .next s') : s'.clock = s.clock := by
  unfold execPcieFunctionReset at h
  obtain rfl := next_inj h
  simp

theorem execPcieLinkDown_clock (s : State) (s' : State) (h : execPcieLinkDown s = .next s') : s'.clock = s.clock := by
  unfold execPcieLinkDown at h
  obtain rfl := next_inj h
  simp

theorem execTunnelPacketReceive_clock (origin : BitVec 64) (words : List Word) (s : State) (s' : State)
    (h : execTunnelPacketReceive origin words s = .next s') : s'.clock = s.clock := by
  unfold execTunnelPacketReceive at h
  obtain rfl := next_inj h
  (repeat' split) <;> simp

theorem execTunnelInnerReply_clock (session : Fin 80) (seq : Word) (words : List Word) (s : State) (s' : State)
    (h : execTunnelInnerReply session seq words s = .next s') : s'.clock = s.clock := by
  unfold execTunnelInnerReply at h
  obtain rfl := next_inj h
  (repeat' split) <;> simp

theorem execTunnelTimeout_clock (session : Fin 80) (seq : Word) (s : State) (s' : State)
    (h : execTunnelTimeout session seq s = .next s') : s'.clock = s.clock := by
  unfold execTunnelTimeout at h
  obtain rfl := next_inj h
  (repeat' split) <;> simp

theorem execIdentityRead_clock (p : Packet) (s : State) (s' : State)
    (h : execIdentityRead p s = .next s') : s'.clock = s.clock := by
  unfold execIdentityRead at h
  obtain rfl := next_inj h
  simp

theorem execAttest_clock (p : Packet) (s : State) (s' : State) (h : execAttest p s = .next s') : s'.clock = s.clock := by
  unfold execAttest at h
  obtain rfl := next_inj h
  simp

theorem execStatusRead_clock (p : Packet) (s : State) (s' : State)
    (h : execStatusRead p s = .next s') : s'.clock = s.clock := by
  unfold execStatusRead at h
  obtain rfl := next_inj h
  simp

theorem execEventRead_clock (p : Packet) (s : State) (s' : State)
    (h : execEventRead p s = .next s') : s'.clock = s.clock := by
  unfold execEventRead at h
  obtain rfl := next_inj h
  simp

theorem execEventSubscribe_clock (p : Packet) (s : State) (s' : State)
    (h : execEventSubscribe p s = .next s') : s'.clock = s.clock := by
  unfold execEventSubscribe at h
  obtain rfl := next_inj h
  simp

theorem execVaultEventsRead_clock (p : Packet) (s : State) (s' : State)
    (h : execVaultEventsRead p s = .next s') : s'.clock = s.clock := by
  unfold execVaultEventsRead at h
  obtain rfl := next_inj h
  simp

theorem execEcho_clock (p : Packet) (s : State) (s' : State) (h : execEcho p s = .next s') : s'.clock = s.clock := by
  unfold execEcho at h
  obtain rfl := next_inj h
  simp

theorem execCountersRead_clock (p : Packet) (s : State) (s' : State)
    (h : execCountersRead p s = .next s') : s'.clock = s.clock := by
  unfold execCountersRead at h
  obtain rfl := next_inj h
  simp

theorem execConfigBegin_clock (p : Packet) (s : State) (s' : State)
    (h : execConfigBegin p s = .next s') : s'.clock = s.clock := by
  unfold execConfigBegin at h
  obtain rfl := next_inj h
  simp

theorem execConfigData_clock (p : Packet) (s : State) (s' : State)
    (h : execConfigData p s = .next s') : s'.clock = s.clock := by
  unfold execConfigData at h
  obtain rfl := next_inj h
  simp

theorem execConfigCommit_clock (p : Packet) (s : State) (s' : State)
    (h : execConfigCommit p s = .next s') : s'.clock = s.clock := by
  unfold execConfigCommit at h
  obtain rfl := next_inj h
  simp

theorem execConfigCommitComplete_clock (img : Option ConfigImage) (s : State) (s' : State)
    (h : execConfigCommitComplete img s = .next s') : s'.clock = s.clock := by
  unfold execConfigCommitComplete at h
  (repeat' split at h) <;> (obtain rfl := next_inj h; simp)

theorem execFirmwareBegin_clock (p : Packet) (s : State) (s' : State)
    (h : execFirmwareBegin p s = .next s') : s'.clock = s.clock := by
  unfold execFirmwareBegin at h
  obtain rfl := next_inj h
  simp

theorem execFirmwareData_clock (p : Packet) (s : State) (s' : State)
    (h : execFirmwareData p s = .next s') : s'.clock = s.clock := by
  unfold execFirmwareData at h
  obtain rfl := next_inj h
  simp

theorem execFirmwareActivate_clock (p : Packet) (s : State) (s' : State)
    (h : execFirmwareActivate p s = .next s') : s'.clock = s.clock := by
  unfold execFirmwareActivate at h
  obtain rfl := next_inj h
  simp

theorem execFirmwareActivateComplete_clock (sigOk : Bool) (s : State) (s' : State)
    (h : execFirmwareActivateComplete sigOk s = .next s') : s'.clock = s.clock := by
  unfold execFirmwareActivateComplete at h
  obtain rfl := next_inj h
  (repeat' split) <;> simp

theorem execTunnel_clock (p : Packet) (s : State) (s' : State) (h : execTunnel p s = .next s') : s'.clock = s.clock := by
  unfold execTunnel at h
  obtain rfl := next_inj h
  simp

theorem execNetConfig_clock (p : Packet) (s : State) (s' : State)
    (h : execNetConfig p s = .next s') : s'.clock = s.clock := by
  unfold execNetConfig at h
  obtain rfl := next_inj h
  simp

theorem execSessionReset_clock (p : Packet) (s : State) (s' : State)
    (h : execSessionReset p s = .next s') : s'.clock = s.clock := by
  unfold execSessionReset at h
  obtain rfl := next_inj h
  simp

theorem execImageStreamSet_clock (p : Packet) (s : State) (s' : State)
    (h : execImageStreamSet p s = .next s') : s'.clock = s.clock := by
  unfold execImageStreamSet at h
  obtain rfl := next_inj h
  simp

theorem execHostInputPolicy_clock (p : Packet) (s : State) (s' : State)
    (h : execHostInputPolicy p s = .next s') : s'.clock = s.clock := by
  unfold execHostInputPolicy at h
  obtain rfl := next_inj h
  simp

theorem execStageOpen_clock (p : Packet) (s : State) (s' : State)
    (h : execStageOpen p s = .next s') : s'.clock = s.clock := by
  unfold execStageOpen at h
  obtain rfl := next_inj h
  simp

theorem execStageCommit_clock (p : Packet) (s : State) (s' : State)
    (h : execStageCommit p s = .next s') : s'.clock = s.clock := by
  unfold execStageCommit at h
  obtain rfl := next_inj h
  simp

theorem execStageAbort_clock (p : Packet) (s : State) (s' : State)
    (h : execStageAbort p s = .next s') : s'.clock = s.clock := by
  unfold execStageAbort at h
  obtain rfl := next_inj h
  simp

theorem execStageStatus_clock (p : Packet) (s : State) (s' : State)
    (h : execStageStatus p s = .next s') : s'.clock = s.clock := by
  unfold execStageStatus at h
  obtain rfl := next_inj h
  simp

theorem execStageCancel_clock (p : Packet) (s : State) (s' : State)
    (h : execStageCancel p s = .next s') : s'.clock = s.clock := by
  unfold execStageCancel at h
  obtain rfl := next_inj h
  simp

theorem execStageTimeout_clock (session : Fin 80) (s : State) (s' : State)
    (h : execStageTimeout session s = .next s') : s'.clock = s.clock := by
  unfold execStageTimeout at h
  obtain rfl := next_inj h
  (repeat' split) <;> simp

theorem execPortSignalChange_clock (port : Fin 4) (det : Bool) (los : Bool) (lock : Bool) (sig : Bool) (s : State)
    (s' : State) (h : execPortSignalChange port det los lock sig s = .next s') : s'.clock = s.clock := by
  unfold execPortSignalChange at h
  obtain rfl := next_inj h
  simp

theorem execPortSyncLock_clock (port : Fin 4) (s : State) (s' : State)
    (h : execPortSyncLock port s = .next s') : s'.clock = s.clock := by
  unfold execPortSyncLock at h
  obtain rfl := next_inj h
  simp

theorem execCapabilityReceive_clock (port : Fin 4) (w0 : Word) (w1 : Word) (w2 : Word) (w3 : Word) (w4 : Word)
    (w5 : Word) (s : State) (s' : State)
    (h : execCapabilityReceive port w0 w1 w2 w3 w4 w5 s = .next s') : s'.clock = s.clock := by
  unfold execCapabilityReceive at h
  obtain rfl := next_inj h
  simp

theorem execDelayRequest_clock (port : Fin 4) (s : State) (s' : State)
    (h : execDelayRequest port s = .next s') : s'.clock = s.clock := by
  unfold execDelayRequest at h
  obtain rfl := next_inj h
  simp

theorem execDelayResponseReceive_clock (port : Fin 4) (roundTrip : Nat) (turnaround : Nat) (s : State) (s' : State)
    (h : execDelayResponseReceive port roundTrip turnaround s = .next s') : s'.clock = s.clock := by
  unfold execDelayResponseReceive at h
  rw [next_inj h]
  extract_lets x half d had s1 l s2
  have h1 : s1.clock = s.clock := (drawn_clock _).trans (modPort_clock ..)
  have h2 : s2.clock = s.clock := (newLinkDelay_clock ..).trans ((drawn_clock _).trans h1)
  exact ite_clock rfl (ite_clock h1 (ite_clock ((portUp_clock ..).trans h2) h2))

theorem execSegmentElection_clock (candidates : List (BitVec 8 × BitVec 64 × Bool × Bool)) (s : State) (s' : State)
    (h : execSegmentElection candidates s = .next s') : s'.clock = s.clock := by
  unfold execSegmentElection at h
  dsimp only at h
  (repeat' split at h) <;> (obtain rfl := next_inj h; (repeat' split) <;> simp)

theorem execTimeFrameLaunch_clock (s : State) (s' : State)
    (h : execTimeFrameLaunch s = .next s') : s'.clock = s.clock := by
  unfold execTimeFrameLaunch at h
  obtain rfl := next_inj h
  simp

theorem execDomainStart_clock (p : Packet) (s : State) (s' : State)
    (h : execDomainStart p s = .next s') : s'.clock = s.clock := by
  unfold execDomainStart at h
  obtain rfl := next_inj h
  simp

theorem execDomainStop_clock (p : Packet) (s : State) (s' : State)
    (h : execDomainStop p s = .next s') : s'.clock = s.clock := by
  unfold execDomainStop at h
  obtain rfl := next_inj h
  simp

theorem execNodeChallenge_clock (pos : Fin 65) (runningId : BitVec 64) (nonce : BitVec 256) (s : State) (s' : State)
    (h : execNodeChallenge pos runningId nonce s = .next s') : s'.clock = s.clock := by
  unfold execNodeChallenge at h
  obtain rfl := next_inj h
  (repeat' split) <;> simp

theorem execChallengeResponse_clock (pos : Fin 65) (id : BitVec 64) (key : BitVec 512) (sigOk : Bool) (s : State)
    (s' : State) (h : execChallengeResponse pos id key sigOk s = .next s') : s'.clock = s.clock := by
  unfold execChallengeResponse at h
  obtain rfl := next_inj h
  (repeat' split) <;> simp

theorem execChallengeTimeout_clock (pos : Fin 65) (s : State) (s' : State)
    (h : execChallengeTimeout pos s = .next s') : s'.clock = s.clock := by
  unfold execChallengeTimeout at h
  obtain rfl := next_inj h
  (repeat' split) <;> simp

theorem execNodeAccept_clock (p : Packet) (s : State) (s' : State)
    (h : execNodeAccept p s = .next s') : s'.clock = s.clock := by
  unfold execNodeAccept at h
  obtain rfl := next_inj h
  simp

theorem execAcceptLockExpiry_clock (s : State) (s' : State)
    (h : execAcceptLockExpiry s = .next s') : s'.clock = s.clock := by
  unfold execAcceptLockExpiry at h
  obtain rfl := next_inj h
  simp

theorem execFragmentSend_clock (port : Fin 4) (frag : Fragment) (s : State) (s' : State)
    (h : execFragmentSend port frag s = .next s') : s'.clock = s.clock := by
  unfold execFragmentSend at h
  obtain rfl := next_inj h
  (repeat' split) <;> simp

theorem execFragmentReceive_clock (port : Fin 4) (crcOk : Bool) (frag : Fragment) (s : State) (s' : State)
    (h : execFragmentReceive port crcOk frag s = .next s') : s'.clock = s.clock := by
  unfold execFragmentReceive at h
  obtain rfl := next_inj h
  simp

theorem execCreditReturnReceive_clock (port : Fin 4) (n : Nat) (s : State) (s' : State)
    (h : execCreditReturnReceive port n s = .next s') : s'.clock = s.clock := by
  unfold execCreditReturnReceive at h
  obtain rfl := next_inj h
  simp

theorem execAuditReceive_clock (port : Fin 4) (sent : BitVec 16) (given : BitVec 16) (s : State) (s' : State)
    (h : execAuditReceive port sent given s = .next s') : s'.clock = s.clock := by
  unfold execAuditReceive at h
  obtain rfl := next_inj h
  simp

theorem execBreakDeclare_clock (port : Fin 4) (viols : Nat) (s : State) (s' : State)
    (h : execBreakDeclare port viols s = .next s') : s'.clock = s.clock := by
  unfold execBreakDeclare at h
  obtain rfl := next_inj h
  simp

theorem execBreakNoticeReceive_clock (port : Fin 4) (s : State) (s' : State)
    (h : execBreakNoticeReceive port s = .next s') : s'.clock = s.clock := by
  unfold execBreakNoticeReceive at h
  obtain rfl := next_inj h
  (repeat' split) <;> simp

theorem execRestoreNoticeReceive_clock (port : Fin 4) (s : State) (s' : State)
    (h : execRestoreNoticeReceive port s = .next s') : s'.clock = s.clock := by
  unfold execRestoreNoticeReceive at h
  obtain rfl := next_inj h
  (repeat' split) <;> simp

theorem execRingSplit_clock (s : State) (s' : State) (h : execRingSplit s = .next s') : s'.clock = s.clock := by
  unfold execRingSplit at h
  obtain rfl := next_inj h
  simp

theorem execLinkStatus_clock (p : Packet) (s : State) (s' : State)
    (h : execLinkStatus p s = .next s') : s'.clock = s.clock := by
  unfold execLinkStatus at h
  obtain rfl := next_inj h
  simp

theorem execPortConfig_clock (p : Packet) (s : State) (s' : State)
    (h : execPortConfig p s = .next s') : s'.clock = s.clock := by
  unfold execPortConfig at h
  obtain rfl := next_inj h
  simp

theorem execSegmentStatus_clock (p : Packet) (s : State) (s' : State)
    (h : execSegmentStatus p s = .next s') : s'.clock = s.clock := by
  unfold execSegmentStatus at h
  obtain rfl := next_inj h
  simp

theorem execSegmentMapRead_clock (p : Packet) (s : State) (s' : State)
    (h : execSegmentMapRead p s = .next s') : s'.clock = s.clock := by
  unfold execSegmentMapRead at h
  obtain rfl := next_inj h
  simp

theorem execPlanCheck_clock (p : Packet) (s : State) (s' : State)
    (h : execPlanCheck p s = .next s') : s'.clock = s.clock := by
  unfold execPlanCheck at h
  obtain rfl := next_inj h
  simp

theorem execEventForwardSet_clock (p : Packet) (s : State) (s' : State)
    (h : execEventForwardSet p s = .next s') : s'.clock = s.clock := by
  unfold execEventForwardSet at h
  obtain rfl := next_inj h
  simp

theorem execLinkCountersClear_clock (p : Packet) (s : State) (s' : State)
    (h : execLinkCountersClear p s = .next s') : s'.clock = s.clock := by
  unfold execLinkCountersClear at h
  obtain rfl := next_inj h
  simp

theorem execLinkPolicySet_clock (p : Packet) (s : State) (s' : State)
    (h : execLinkPolicySet p s = .next s') : s'.clock = s.clock := by
  unfold execLinkPolicySet at h
  obtain rfl := next_inj h
  simp

theorem execSlotConfig_clock (p : Packet) (s : State) (s' : State)
    (h : execSlotConfig p s = .next s') : s'.clock = s.clock := by
  unfold execSlotConfig at h
  obtain rfl := next_inj h
  simp

theorem execSlotArm_clock (p : Packet) (s : State) (s' : State)
    (h : execSlotArm p s = .next s') : s'.clock = s.clock := by
  unfold execSlotArm at h
  obtain rfl := next_inj h
  simp

theorem execSlotDisarm_clock (p : Packet) (s : State) (s' : State)
    (h : execSlotDisarm p s = .next s') : s'.clock = s.clock := by
  unfold execSlotDisarm at h
  obtain rfl := next_inj h
  simp

theorem execSlotStatus_clock (p : Packet) (s : State) (s' : State)
    (h : execSlotStatus p s = .next s') : s'.clock = s.clock := by
  unfold execSlotStatus at h
  obtain rfl := next_inj h
  simp

theorem execMasterLeadSet_clock (p : Packet) (s : State) (s' : State)
    (h : execMasterLeadSet p s = .next s') : s'.clock = s.clock := by
  unfold execMasterLeadSet at h
  obtain rfl := next_inj h
  simp

theorem execSlotPolicySet_clock (p : Packet) (s : State) (s' : State)
    (h : execSlotPolicySet p s = .next s') : s'.clock = s.clock := by
  unfold execSlotPolicySet at h
  obtain rfl := next_inj h
  simp

theorem execAxisConfig_clock (p : Packet) (s : State) (s' : State)
    (h : execAxisConfig p s = .next s') : s'.clock = s.clock := by
  unfold execAxisConfig at h
  obtain rfl := next_inj h
  simp

theorem execAxisScaleSet_clock (p : Packet) (s : State) (s' : State)
    (h : execAxisScaleSet p s = .next s') : s'.clock = s.clock := by
  unfold execAxisScaleSet at h
  obtain rfl := next_inj h
  simp

theorem execAxisLimitsSet_clock (p : Packet) (s : State) (s' : State)
    (h : execAxisLimitsSet p s = .next s') : s'.clock = s.clock := by
  unfold execAxisLimitsSet at h
  obtain rfl := next_inj h
  simp

theorem execStopLimitsSet_clock (p : Packet) (s : State) (s' : State)
    (h : execStopLimitsSet p s = .next s') : s'.clock = s.clock := by
  unfold execStopLimitsSet at h
  obtain rfl := next_inj h
  simp

theorem execSoftLimitsSet_clock (p : Packet) (s : State) (s' : State)
    (h : execSoftLimitsSet p s = .next s') : s'.clock = s.clock := by
  unfold execSoftLimitsSet at h
  obtain rfl := next_inj h
  simp

theorem execAxisEnable_clock (p : Packet) (s : State) (s' : State)
    (h : execAxisEnable p s = .next s') : s'.clock = s.clock := by
  unfold execAxisEnable at h
  obtain rfl := next_inj h
  simp

theorem execAxisDisable_clock (p : Packet) (s : State) (s' : State)
    (h : execAxisDisable p s = .next s') : s'.clock = s.clock := by
  unfold execAxisDisable at h
  obtain rfl := next_inj h
  simp

theorem execMovePosition_clock (p : Packet) (s : State) (s' : State)
    (h : execMovePosition p s = .next s') : s'.clock = s.clock := by
  unfold execMovePosition at h
  obtain rfl := next_inj h
  simp

theorem execMoveVelocity_clock (p : Packet) (s : State) (s' : State)
    (h : execMoveVelocity p s = .next s') : s'.clock = s.clock := by
  unfold execMoveVelocity at h
  obtain rfl := next_inj h
  simp

theorem execMoveStop_clock (p : Packet) (s : State) (s' : State)
    (h : execMoveStop p s = .next s') : s'.clock = s.clock := by
  unfold execMoveStop at h
  obtain rfl := next_inj h
  simp

theorem execHomeConfig_clock (p : Packet) (s : State) (s' : State)
    (h : execHomeConfig p s = .next s') : s'.clock = s.clock := by
  unfold execHomeConfig at h
  obtain rfl := next_inj h
  simp

theorem execHomeStart_clock (p : Packet) (s : State) (s' : State)
    (h : execHomeStart p s = .next s') : s'.clock = s.clock := by
  unfold execHomeStart at h
  obtain rfl := next_inj h
  simp

theorem execFaultClear_clock (p : Packet) (s : State) (s' : State)
    (h : execFaultClear p s = .next s') : s'.clock = s.clock := by
  unfold execFaultClear at h
  obtain rfl := next_inj h
  simp

theorem execAxisStatus_clock (p : Packet) (s : State) (s' : State)
    (h : execAxisStatus p s = .next s') : s'.clock = s.clock := by
  unfold execAxisStatus at h
  obtain rfl := next_inj h
  simp

theorem execHomeResult_clock (p : Packet) (s : State) (s' : State)
    (h : execHomeResult p s = .next s') : s'.clock = s.clock := by
  unfold execHomeResult at h
  obtain rfl := next_inj h
  simp

theorem execAxisPolicySet_clock (p : Packet) (s : State) (s' : State)
    (h : execAxisPolicySet p s = .next s') : s'.clock = s.clock := by
  unfold execAxisPolicySet at h
  obtain rfl := next_inj h
  simp

theorem execHardStopDetect_clock (a : Fin 16) (s : State) (s' : State)
    (h : execHardStopDetect a s = .next s') : s'.clock = s.clock := by
  unfold execHardStopDetect at h
  dsimp only at h
  (repeat' split at h) <;> (obtain rfl := next_inj h; (repeat' split) <;> simp)

theorem execAxisHoldExpiry_clock (a : Fin 80) (s : State) (s' : State)
    (h : execAxisHoldExpiry a s = .next s') : s'.clock = s.clock := by
  unfold execAxisHoldExpiry at h
  obtain rfl := next_inj h
  simp

theorem execInPositionSet_clock (a : Fin 80) (s : State) (s' : State)
    (h : execInPositionSet a s = .next s') : s'.clock = s.clock := by
  unfold execInPositionSet at h
  obtain rfl := next_inj h
  simp

theorem execGearSourceSet_clock (p : Packet) (s : State) (s' : State)
    (h : execGearSourceSet p s = .next s') : s'.clock = s.clock := by
  unfold execGearSourceSet at h
  obtain rfl := next_inj h
  simp

theorem execGearEngage_clock (p : Packet) (s : State) (s' : State)
    (h : execGearEngage p s = .next s') : s'.clock = s.clock := by
  unfold execGearEngage at h
  obtain rfl := next_inj h
  simp

theorem execGearRatioSet_clock (p : Packet) (s : State) (s' : State)
    (h : execGearRatioSet p s = .next s') : s'.clock = s.clock := by
  unfold execGearRatioSet at h
  obtain rfl := next_inj h
  simp

theorem execGearChangeArm_clock (p : Packet) (s : State) (s' : State)
    (h : execGearChangeArm p s = .next s') : s'.clock = s.clock := by
  unfold execGearChangeArm at h
  obtain rfl := next_inj h
  simp

theorem execGearChangeCancel_clock (p : Packet) (s : State) (s' : State)
    (h : execGearChangeCancel p s = .next s') : s'.clock = s.clock := by
  unfold execGearChangeCancel at h
  obtain rfl := next_inj h
  simp

theorem execFollowDisengage_clock (p : Packet) (s : State) (s' : State)
    (h : execFollowDisengage p s = .next s') : s'.clock = s.clock := by
  unfold execFollowDisengage at h
  obtain rfl := next_inj h
  simp

theorem execFollowStatus_clock (p : Packet) (s : State) (s' : State)
    (h : execFollowStatus p s = .next s') : s'.clock = s.clock := by
  unfold execFollowStatus at h
  obtain rfl := next_inj h
  simp

theorem execCamLoadBegin_clock (p : Packet) (s : State) (s' : State)
    (h : execCamLoadBegin p s = .next s') : s'.clock = s.clock := by
  unfold execCamLoadBegin at h
  obtain rfl := next_inj h
  simp

theorem execCamLoadData_clock (p : Packet) (s : State) (s' : State)
    (h : execCamLoadData p s = .next s') : s'.clock = s.clock := by
  unfold execCamLoadData at h
  obtain rfl := next_inj h
  simp

theorem execCamLoadEnd_clock (p : Packet) (s : State) (s' : State)
    (h : execCamLoadEnd p s = .next s') : s'.clock = s.clock := by
  unfold execCamLoadEnd at h
  obtain rfl := next_inj h
  simp

theorem execCamTableStatus_clock (p : Packet) (s : State) (s' : State)
    (h : execCamTableStatus p s = .next s') : s'.clock = s.clock := by
  unfold execCamTableStatus at h
  obtain rfl := next_inj h
  simp

theorem execCamEngage_clock (p : Packet) (s : State) (s' : State)
    (h : execCamEngage p s = .next s') : s'.clock = s.clock := by
  unfold execCamEngage at h
  obtain rfl := next_inj h
  simp

theorem execCamSwap_clock (p : Packet) (s : State) (s' : State)
    (h : execCamSwap p s = .next s') : s'.clock = s.clock := by
  unfold execCamSwap at h
  obtain rfl := next_inj h
  simp

theorem execRegConfig_clock (p : Packet) (s : State) (s' : State)
    (h : execRegConfig p s = .next s') : s'.clock = s.clock := by
  unfold execRegConfig at h
  obtain rfl := next_inj h
  simp

theorem execRegEnable_clock (p : Packet) (s : State) (s' : State)
    (h : execRegEnable p s = .next s') : s'.clock = s.clock := by
  unfold execRegEnable at h
  obtain rfl := next_inj h
  simp

theorem execRegOffsetSet_clock (p : Packet) (s : State) (s' : State)
    (h : execRegOffsetSet p s = .next s') : s'.clock = s.clock := by
  unfold execRegOffsetSet at h
  obtain rfl := next_inj h
  simp

theorem execRegStatus_clock (p : Packet) (s : State) (s' : State)
    (h : execRegStatus p s = .next s') : s'.clock = s.clock := by
  unfold execRegStatus at h
  obtain rfl := next_inj h
  simp

theorem execFollowPolicySet_clock (p : Packet) (s : State) (s' : State)
    (h : execFollowPolicySet p s = .next s') : s'.clock = s.clock := by
  unfold execFollowPolicySet at h
  obtain rfl := next_inj h
  simp

theorem execMarkMissing_clock (a : Fin 80) (s : State) (s' : State)
    (h : execMarkMissing a s = .next s') : s'.clock = s.clock := by
  unfold execMarkMissing at h
  dsimp only at h
  (repeat' split at h) <;> (obtain rfl := next_inj h; (repeat' split) <;> simp)

theorem execTickFiring_clock (e : Fin 32) (k : Fin 16) (j : Nat) (s : State) (s' : State)
    (h : execTickFiring e k j s = .next s') : s'.clock = s.clock := by
  unfold execTickFiring at h
  obtain rfl := next_inj h
  simp

theorem execTickEntry_clock (e : Fin 32) (k : Fin 16) (s : State) (s' : State)
    (h : execTickEntry e k s = .next s') : s'.clock = s.clock := by
  unfold execTickEntry at h
  dsimp only at h
  (repeat' split at h) <;> (obtain rfl := next_inj h; (repeat' split) <;> simp)

theorem execTraceComplete_clock (u : Fin 4) (s : State) (s' : State)
    (h : execTraceComplete u s = .next s') : s'.clock = s.clock := by
  unfold execTraceComplete at h
  obtain rfl := next_inj h
  simp

theorem execLoopOutputSaturated_clock (i : Fin 96) (s : State) (s' : State)
    (h : execLoopOutputSaturated i s = .next s') : s'.clock = s.clock := by
  unfold execLoopOutputSaturated at h
  dsimp only at h
  (repeat' split at h) <;> (obtain rfl := next_inj h; (repeat' split) <;> simp)

theorem execFeedbackImplausible_clock (i : Fin 96) (s : State) (s' : State)
    (h : execFeedbackImplausible i s = .next s') : s'.clock = s.clock := by
  unfold execFeedbackImplausible at h
  dsimp only at h
  (repeat' split at h) <;> (obtain rfl := next_inj h; (repeat' split) <;> simp)

theorem execDirectCoefWrite_clock (i : Fin 96) (coef : Fin 7) (v : Word) (s : State) (s' : State)
    (h : execDirectCoefWrite i coef v s = .next s') : s'.clock = s.clock := by
  unfold execDirectCoefWrite at h
  obtain rfl := next_inj h
  simp

theorem execDirectCoefApply_clock (i : Fin 96) (s : State) (s' : State)
    (h : execDirectCoefApply i s = .next s') : s'.clock = s.clock := by
  unfold execDirectCoefApply at h
  (repeat' split at h) <;> (obtain rfl := next_inj h; simp)

theorem execLoopProgramSelect_clock (p : Packet) (s : State) (s' : State)
    (h : execLoopProgramSelect p s = .next s') : s'.clock = s.clock := by
  unfold execLoopProgramSelect at h
  obtain rfl := next_inj h
  simp

theorem execLoopRateSet_clock (p : Packet) (s : State) (s' : State)
    (h : execLoopRateSet p s = .next s') : s'.clock = s.clock := by
  unfold execLoopRateSet at h
  obtain rfl := next_inj h
  simp

theorem execLoopTopSet_clock (p : Packet) (s : State) (s' : State)
    (h : execLoopTopSet p s = .next s') : s'.clock = s.clock := by
  unfold execLoopTopSet at h
  obtain rfl := next_inj h
  simp

theorem execLoopCoefSet_clock (p : Packet) (s : State) (s' : State)
    (h : execLoopCoefSet p s = .next s') : s'.clock = s.clock := by
  unfold execLoopCoefSet at h
  obtain rfl := next_inj h
  simp

theorem execLoopModeSet_clock (p : Packet) (s : State) (s' : State)
    (h : execLoopModeSet p s = .next s') : s'.clock = s.clock := by
  unfold execLoopModeSet at h
  obtain rfl := next_inj h
  simp

theorem execLoopTuningSet_clock (p : Packet) (s : State) (s' : State)
    (h : execLoopTuningSet p s = .next s') : s'.clock = s.clock := by
  unfold execLoopTuningSet at h
  obtain rfl := next_inj h
  simp

theorem execSupervisorConfig_clock (p : Packet) (s : State) (s' : State)
    (h : execSupervisorConfig p s = .next s') : s'.clock = s.clock := by
  unfold execSupervisorConfig at h
  obtain rfl := next_inj h
  simp

theorem execLimiterSet_clock (p : Packet) (s : State) (s' : State)
    (h : execLimiterSet p s = .next s') : s'.clock = s.clock := by
  unfold execLimiterSet at h
  obtain rfl := next_inj h
  simp

theorem execFreeLoopConfig_clock (p : Packet) (s : State) (s' : State)
    (h : execFreeLoopConfig p s = .next s') : s'.clock = s.clock := by
  unfold execFreeLoopConfig at h
  obtain rfl := next_inj h
  simp

theorem execLoopStatus_clock (p : Packet) (s : State) (s' : State)
    (h : execLoopStatus p s = .next s') : s'.clock = s.clock := by
  unfold execLoopStatus at h
  obtain rfl := next_inj h
  simp

theorem execTraceConfig_clock (p : Packet) (s : State) (s' : State)
    (h : execTraceConfig p s = .next s') : s'.clock = s.clock := by
  unfold execTraceConfig at h
  obtain rfl := next_inj h
  simp

theorem execTraceArm_clock (p : Packet) (s : State) (s' : State)
    (h : execTraceArm p s = .next s') : s'.clock = s.clock := by
  unfold execTraceArm at h
  obtain rfl := next_inj h
  simp

theorem execTraceForce_clock (p : Packet) (s : State) (s' : State)
    (h : execTraceForce p s = .next s') : s'.clock = s.clock := by
  unfold execTraceForce at h
  obtain rfl := next_inj h
  simp

theorem execTraceStop_clock (p : Packet) (s : State) (s' : State)
    (h : execTraceStop p s = .next s') : s'.clock = s.clock := by
  unfold execTraceStop at h
  obtain rfl := next_inj h
  simp

theorem execTraceStatus_clock (p : Packet) (s : State) (s' : State)
    (h : execTraceStatus p s = .next s') : s'.clock = s.clock := by
  unfold execTraceStatus at h
  obtain rfl := next_inj h
  simp

theorem execLoopPolicySet_clock (p : Packet) (s : State) (s' : State)
    (h : execLoopPolicySet p s = .next s') : s'.clock = s.clock := by
  unfold execLoopPolicySet at h
  obtain rfl := next_inj h
  simp

theorem execLeNop_clock (e : Fin 32) (s : State) (s' : State) (h : execLeNop e s = .next s') : s'.clock = s.clock := by
  unfold execLeNop at h
  obtain rfl := next_inj h
  simp

theorem execLeTexit_clock (e : Fin 32) (s : State) (s' : State)
    (h : execLeTexit e s = .next s') : s'.clock = s.clock := by
  unfold execLeTexit at h
  obtain rfl := next_inj h
  simp

theorem execLeWait_clock (e : Fin 32) (s : State) (s' : State) (h : execLeWait e s = .next s') : s'.clock = s.clock := by
  unfold execLeWait at h
  obtain rfl := next_inj h
  simp

theorem execLeBkpt_clock (e : Fin 32) (s : State) (s' : State) (h : execLeBkpt e s = .next s') : s'.clock = s.clock := by
  unfold execLeBkpt at h
  obtain rfl := next_inj h
  simp

theorem execLeClrf_clock (e : Fin 32) (imm : BitVec 16) (s : State) (s' : State)
    (h : execLeClrf e imm s = .next s') : s'.clock = s.clock := by
  unfold execLeClrf at h
  obtain rfl := next_inj h
  simp

theorem execLeMovsr_clock (e : Fin 32) (d : Fin 16) (s : State) (s' : State)
    (h : execLeMovsr e d s = .next s') : s'.clock = s.clock := by
  unfold execLeMovsr at h
  obtain rfl := next_inj h
  simp

theorem execLeEvt_clock (e : Fin 32) (a : Fin 16) (imm : BitVec 16) (s : State) (s' : State)
    (h : execLeEvt e a imm s = .next s') : s'.clock = s.clock := by
  unfold execLeEvt at h
  obtain rfl := next_inj h
  simp

theorem execLeAdd_clock (e : Fin 32) (d : Fin 16) (a : Fin 16) (b : Fin 16) (s : State) (s' : State)
    (h : execLeAdd e d a b s = .next s') : s'.clock = s.clock := by
  unfold execLeAdd at h
  obtain rfl := next_inj h
  simp

theorem execLeAdds_clock (e : Fin 32) (d : Fin 16) (a : Fin 16) (b : Fin 16) (s : State) (s' : State)
    (h : execLeAdds e d a b s = .next s') : s'.clock = s.clock := by
  unfold execLeAdds at h
  obtain rfl := next_inj h
  simp

theorem execLeSub_clock (e : Fin 32) (d : Fin 16) (a : Fin 16) (b : Fin 16) (s : State) (s' : State)
    (h : execLeSub e d a b s = .next s') : s'.clock = s.clock := by
  unfold execLeSub at h
  obtain rfl := next_inj h
  simp

theorem execLeSubs_clock (e : Fin 32) (d : Fin 16) (a : Fin 16) (b : Fin 16) (s : State) (s' : State)
    (h : execLeSubs e d a b s = .next s') : s'.clock = s.clock := by
  unfold execLeSubs at h
  obtain rfl := next_inj h
  simp

theorem execLeAnd_clock (e : Fin 32) (d : Fin 16) (a : Fin 16) (b : Fin 16) (s : State) (s' : State)
    (h : execLeAnd e d a b s = .next s') : s'.clock = s.clock := by
  unfold execLeAnd at h
  obtain rfl := next_inj h
  simp

theorem execLeOr_clock (e : Fin 32) (d : Fin 16) (a : Fin 16) (b : Fin 16) (s : State) (s' : State)
    (h : execLeOr e d a b s = .next s') : s'.clock = s.clock := by
  unfold execLeOr at h
  obtain rfl := next_inj h
  simp

theorem execLeXor_clock (e : Fin 32) (d : Fin 16) (a : Fin 16) (b : Fin 16) (s : State) (s' : State)
    (h : execLeXor e d a b s = .next s') : s'.clock = s.clock := by
  unfold execLeXor at h
  obtain rfl := next_inj h
  simp

theorem execLeShl_clock (e : Fin 32) (d : Fin 16) (a : Fin 16) (b : Fin 16) (s : State) (s' : State)
    (h : execLeShl e d a b s = .next s') : s'.clock = s.clock := by
  unfold execLeShl at h
  obtain rfl := next_inj h
  simp

theorem execLeShr_clock (e : Fin 32) (d : Fin 16) (a : Fin 16) (b : Fin 16) (s : State) (s' : State)
    (h : execLeShr e d a b s = .next s') : s'.clock = s.clock := by
  unfold execLeShr at h
  obtain rfl := next_inj h
  simp

theorem execLeAsr_clock (e : Fin 32) (d : Fin 16) (a : Fin 16) (b : Fin 16) (s : State) (s' : State)
    (h : execLeAsr e d a b s = .next s') : s'.clock = s.clock := by
  unfold execLeAsr at h
  obtain rfl := next_inj h
  simp

theorem execLeMin_clock (e : Fin 32) (d : Fin 16) (a : Fin 16) (b : Fin 16) (s : State) (s' : State)
    (h : execLeMin e d a b s = .next s') : s'.clock = s.clock := by
  unfold execLeMin at h
  obtain rfl := next_inj h
  simp

theorem execLeMax_clock (e : Fin 32) (d : Fin 16) (a : Fin 16) (b : Fin 16) (s : State) (s' : State)
    (h : execLeMax e d a b s = .next s') : s'.clock = s.clock := by
  unfold execLeMax at h
  obtain rfl := next_inj h
  simp

theorem execLeAbss_clock (e : Fin 32) (d : Fin 16) (a : Fin 16) (s : State) (s' : State)
    (h : execLeAbss e d a s = .next s') : s'.clock = s.clock := by
  unfold execLeAbss at h
  obtain rfl := next_inj h
  simp

theorem execLeNegs_clock (e : Fin 32) (d : Fin 16) (a : Fin 16) (s : State) (s' : State)
    (h : execLeNegs e d a s = .next s') : s'.clock = s.clock := by
  unfold execLeNegs at h
  obtain rfl := next_inj h
  simp

theorem execLeClamp_clock (e : Fin 32) (d : Fin 16) (a : Fin 16) (b : Fin 16) (s : State) (s' : State)
    (h : execLeClamp e d a b s = .next s') : s'.clock = s.clock := by
  unfold execLeClamp at h
  obtain rfl := next_inj h
  simp

theorem execLeMov_clock (e : Fin 32) (d : Fin 16) (a : Fin 16) (s : State) (s' : State)
    (h : execLeMov e d a s = .next s') : s'.clock = s.clock := by
  unfold execLeMov at h
  obtain rfl := next_inj h
  simp

theorem execLeCmp_clock (e : Fin 32) (a : Fin 16) (b : Fin 16) (s : State) (s' : State)
    (h : execLeCmp e a b s = .next s') : s'.clock = s.clock := by
  unfold execLeCmp at h
  obtain rfl := next_inj h
  simp

theorem execLeFadd_clock (e : Fin 32) (d : Fin 16) (a : Fin 16) (b : Fin 16) (s : State) (s' : State)
    (h : execLeFadd e d a b s = .next s') : s'.clock = s.clock := by
  unfold execLeFadd at h
  obtain rfl := next_inj h
  simp

theorem execLeFsub_clock (e : Fin 32) (d : Fin 16) (a : Fin 16) (b : Fin 16) (s : State) (s' : State)
    (h : execLeFsub e d a b s = .next s') : s'.clock = s.clock := by
  unfold execLeFsub at h
  obtain rfl := next_inj h
  simp

theorem execLeFmul_clock (e : Fin 32) (d : Fin 16) (a : Fin 16) (b : Fin 16) (s : State) (s' : State)
    (h : execLeFmul e d a b s = .next s') : s'.clock = s.clock := by
  unfold execLeFmul at h
  obtain rfl := next_inj h
  simp

theorem execLeFcvtif_clock (e : Fin 32) (d : Fin 16) (a : Fin 16) (s : State) (s' : State)
    (h : execLeFcvtif e d a s = .next s') : s'.clock = s.clock := by
  unfold execLeFcvtif at h
  obtain rfl := next_inj h
  simp

theorem execLeFcvtfi_clock (e : Fin 32) (d : Fin 16) (a : Fin 16) (s : State) (s' : State)
    (h : execLeFcvtfi e d a s = .next s') : s'.clock = s.clock := by
  unfold execLeFcvtfi at h
  obtain rfl := next_inj h
  simp

theorem execLeSincos_clock (e : Fin 32) (d : Fin 16) (a : Fin 16) (s : State) (s' : State)
    (h : execLeSincos e d a s = .next s') : s'.clock = s.clock := by
  unfold execLeSincos at h
  obtain rfl := next_inj h
  simp

theorem execLeAddi_clock (e : Fin 32) (d : Fin 16) (a : Fin 16) (imm : BitVec 18) (s : State) (s' : State)
    (h : execLeAddi e d a imm s = .next s') : s'.clock = s.clock := by
  unfold execLeAddi at h
  obtain rfl := next_inj h
  simp

theorem execLeAndi_clock (e : Fin 32) (d : Fin 16) (a : Fin 16) (imm : BitVec 18) (s : State) (s' : State)
    (h : execLeAndi e d a imm s = .next s') : s'.clock = s.clock := by
  unfold execLeAndi at h
  obtain rfl := next_inj h
  simp

theorem execLeOri_clock (e : Fin 32) (d : Fin 16) (a : Fin 16) (imm : BitVec 18) (s : State) (s' : State)
    (h : execLeOri e d a imm s = .next s') : s'.clock = s.clock := by
  unfold execLeOri at h
  obtain rfl := next_inj h
  simp

theorem execLeShli_clock (e : Fin 32) (d : Fin 16) (a : Fin 16) (imm : BitVec 18) (s : State) (s' : State)
    (h : execLeShli e d a imm s = .next s') : s'.clock = s.clock := by
  unfold execLeShli at h
  obtain rfl := next_inj h
  simp

theorem execLeShri_clock (e : Fin 32) (d : Fin 16) (a : Fin 16) (imm : BitVec 18) (s : State) (s' : State)
    (h : execLeShri e d a imm s = .next s') : s'.clock = s.clock := by
  unfold execLeShri at h
  obtain rfl := next_inj h
  simp

theorem execLeAsri_clock (e : Fin 32) (d : Fin 16) (a : Fin 16) (imm : BitVec 18) (s : State) (s' : State)
    (h : execLeAsri e d a imm s = .next s') : s'.clock = s.clock := by
  unfold execLeAsri at h
  obtain rfl := next_inj h
  simp

theorem execLeCmpi_clock (e : Fin 32) (a : Fin 16) (imm : BitVec 18) (s : State) (s' : State)
    (h : execLeCmpi e a imm s = .next s') : s'.clock = s.clock := by
  unfold execLeCmpi at h
  obtain rfl := next_inj h
  simp

theorem execLeMovi_clock (e : Fin 32) (d : Fin 16) (imm : BitVec 18) (s : State) (s' : State)
    (h : execLeMovi e d imm s = .next s') : s'.clock = s.clock := by
  unfold execLeMovi at h
  obtain rfl := next_inj h
  simp

theorem execLeMovhi_clock (e : Fin 32) (d : Fin 16) (imm : BitVec 16) (s : State) (s' : State)
    (h : execLeMovhi e d imm s = .next s') : s'.clock = s.clock := by
  unfold execLeMovhi at h
  obtain rfl := next_inj h
  simp

theorem execLeJmpr_clock (e : Fin 32) (a : Fin 16) (s : State) (s' : State)
    (h : execLeJmpr e a s = .next s') : s'.clock = s.clock := by
  unfold execLeJmpr at h
  obtain rfl := next_inj h
  simp

theorem execLeDbnz_clock (e : Fin 32) (a : Fin 16) (target : BitVec 13) (s : State) (s' : State)
    (h : execLeDbnz e a target s = .next s') : s'.clock = s.clock := by
  unfold execLeDbnz at h
  obtain rfl := next_inj h
  simp

theorem execLeRpt_clock (e : Fin 32) (n : Fin 65536) (s : State) (s' : State)
    (h : execLeRpt e n s = .next s') : s'.clock = s.clock := by
  unfold execLeRpt at h
  obtain rfl := next_inj h
  simp

theorem execLeMul_clock (e : Fin 32) (n : Bool) (a : Fin 16) (b : Fin 16) (s : State) (s' : State)
    (h : execLeMul e n a b s = .next s') : s'.clock = s.clock := by
  unfold execLeMul at h
  obtain rfl := next_inj h
  simp

theorem execLeMac_clock (e : Fin 32) (n : Bool) (a : Fin 16) (b : Fin 16) (s : State) (s' : State)
    (h : execLeMac e n a b s = .next s') : s'.clock = s.clock := by
  unfold execLeMac at h
  obtain rfl := next_inj h
  simp

theorem execLeMsu_clock (e : Fin 32) (n : Bool) (a : Fin 16) (b : Fin 16) (s : State) (s' : State)
    (h : execLeMsu e n a b s = .next s') : s'.clock = s.clock := by
  unfold execLeMsu at h
  obtain rfl := next_inj h
  simp

theorem execLeMacus_clock (e : Fin 32) (n : Bool) (a : Fin 16) (b : Fin 16) (s : State) (s' : State)
    (h : execLeMacus e n a b s = .next s') : s'.clock = s.clock := by
  unfold execLeMacus at h
  obtain rfl := next_inj h
  simp

theorem execLeMac2_clock (e : Fin 32) (a : Fin 16) (b : Fin 16) (c : Fin 16) (d : Fin 16) (s : State) (s' : State)
    (h : execLeMac2 e a b c d s = .next s') : s'.clock = s.clock := by
  unfold execLeMac2 at h
  obtain rfl := next_inj h
  simp

theorem execLeMld_clock (e : Fin 32) (n : Bool) (a : Fin 16) (b : Fin 16) (c : Fin 16) (pi : Fin 8) (g : Fin 16)
    (pj : Fin 8) (s : State) (s' : State) (h : execLeMld e n a b c pi g pj s = .next s') : s'.clock = s.clock := by
  unfold execLeMld at h
  obtain rfl := next_inj h
  simp

theorem execLeMull_clock (e : Fin 32) (d : Fin 16) (a : Fin 16) (b : Fin 16) (s : State) (s' : State)
    (h : execLeMull e d a b s = .next s') : s'.clock = s.clock := by
  unfold execLeMull at h
  obtain rfl := next_inj h
  simp

theorem execLeStq_clock (e : Fin 32) (d : Fin 16) (a : Fin 16) (imm : BitVec 18) (s : State) (s' : State)
    (h : execLeStq e d a imm s = .next s') : s'.clock = s.clock := by
  unfold execLeStq at h
  obtain rfl := next_inj h
  simp

theorem execLeClra_clock (e : Fin 32) (n : Bool) (s : State) (s' : State)
    (h : execLeClra e n s = .next s') : s'.clock = s.clock := by
  unfold execLeClra at h
  obtain rfl := next_inj h
  simp

theorem execLeMova_clock (e : Fin 32) (n : Bool) (a : Fin 16) (b : Fin 16) (s : State) (s' : State)
    (h : execLeMova e n a b s = .next s') : s'.clock = s.clock := by
  unfold execLeMova at h
  obtain rfl := next_inj h
  simp

theorem execLeAdda_clock (e : Fin 32) (n : Bool) (m : Bool) (s : State) (s' : State)
    (h : execLeAdda e n m s = .next s') : s'.clock = s.clock := by
  unfold execLeAdda at h
  obtain rfl := next_inj h
  simp

theorem execLeAsra_clock (e : Fin 32) (n : Bool) (sh : BitVec 6) (s : State) (s' : State)
    (h : execLeAsra e n sh s = .next s') : s'.clock = s.clock := by
  unfold execLeAsra at h
  obtain rfl := next_inj h
  simp

theorem execLeSata_clock (e : Fin 32) (n : Bool) (w : BitVec 6) (s : State) (s' : State)
    (h : execLeSata e n w s = .next s') : s'.clock = s.clock := by
  unfold execLeSata at h
  obtain rfl := next_inj h
  simp

theorem execLeSatx_clock (e : Fin 32) (d : Fin 16) (n : Bool) (sh : BitVec 6) (s : State) (s' : State)
    (h : execLeSatx e d n sh s = .next s') : s'.clock = s.clock := by
  unfold execLeSatx at h
  obtain rfl := next_inj h
  simp

theorem execLeExtl_clock (e : Fin 32) (d : Fin 16) (n : Bool) (s : State) (s' : State)
    (h : execLeExtl e d n s = .next s') : s'.clock = s.clock := by
  unfold execLeExtl at h
  obtain rfl := next_inj h
  simp

theorem execLeExth_clock (e : Fin 32) (d : Fin 16) (n : Bool) (s : State) (s' : State)
    (h : execLeExth e d n s = .next s') : s'.clock = s.clock := by
  unfold execLeExth at h
  obtain rfl := next_inj h
  simp

theorem execLeExtg_clock (e : Fin 32) (d : Fin 16) (n : Bool) (s : State) (s' : State)
    (h : execLeExtg e d n s = .next s') : s'.clock = s.clock := by
  unfold execLeExtg at h
  obtain rfl := next_inj h
  simp

theorem execLeLd_clock (e : Fin 32) (d : Fin 16) (a : Fin 16) (imm : BitVec 18) (s : State) (s' : State)
    (h : execLeLd e d a imm s = .next s') : s'.clock = s.clock := by
  unfold execLeLd at h
  obtain rfl := next_inj h
  simp

theorem execLeSt_clock (e : Fin 32) (d : Fin 16) (a : Fin 16) (imm : BitVec 18) (s : State) (s' : State)
    (h : execLeSt e d a imm s = .next s') : s'.clock = s.clock := by
  unfold execLeSt at h
  obtain rfl := next_inj h
  simp

theorem execLeLda_clock (e : Fin 32) (d : Fin 16) (addr : BitVec 16) (s : State) (s' : State)
    (h : execLeLda e d addr s = .next s') : s'.clock = s.clock := by
  unfold execLeLda at h
  obtain rfl := next_inj h
  simp

theorem execLeSta_clock (e : Fin 32) (g : Fin 16) (addr : BitVec 16) (s : State) (s' : State)
    (h : execLeSta e g addr s = .next s') : s'.clock = s.clock := by
  unfold execLeSta at h
  obtain rfl := next_inj h
  simp

theorem execLeLdp_clock (e : Fin 32) (d : Fin 16) (pi : Fin 8) (s : State) (s' : State)
    (h : execLeLdp e d pi s = .next s') : s'.clock = s.clock := by
  unfold execLeLdp at h
  obtain rfl := next_inj h
  simp

theorem execLeStp_clock (e : Fin 32) (g : Fin 16) (pi : Fin 8) (s : State) (s' : State)
    (h : execLeStp e g pi s = .next s') : s'.clock = s.clock := by
  unfold execLeStp at h
  obtain rfl := next_inj h
  simp

theorem execLeLdd_clock (e : Fin 32) (d : Fin 16) (a : Fin 16) (imm : BitVec 18) (s : State) (s' : State)
    (h : execLeLdd e d a imm s = .next s') : s'.clock = s.clock := by
  unfold execLeLdd at h
  obtain rfl := next_inj h
  simp

theorem execLeStd_clock (e : Fin 32) (d : Fin 16) (a : Fin 16) (imm : BitVec 18) (s : State) (s' : State)
    (h : execLeStd e d a imm s = .next s') : s'.clock = s.clock := by
  unfold execLeStd at h
  obtain rfl := next_inj h
  simp

theorem execLeLdq_clock (e : Fin 32) (d : Fin 16) (a : Fin 16) (imm : BitVec 18) (s : State) (s' : State)
    (h : execLeLdq e d a imm s = .next s') : s'.clock = s.clock := by
  unfold execLeLdq at h
  obtain rfl := next_inj h
  simp

theorem execLeStac_clock (e : Fin 32) (n : Bool) (a : Fin 16) (imm : BitVec 18) (s : State) (s' : State)
    (h : execLeStac e n a imm s = .next s') : s'.clock = s.clock := by
  unfold execLeStac at h
  obtain rfl := next_inj h
  simp

theorem execLeLdac_clock (e : Fin 32) (n : Bool) (a : Fin 16) (imm : BitVec 18) (s : State) (s' : State)
    (h : execLeLdac e n a imm s = .next s') : s'.clock = s.clock := by
  unfold execLeLdac at h
  obtain rfl := next_inj h
  simp

theorem execLeSeta_clock (e : Fin 32) (kind : BitVec 2) (i : Fin 8) (a : Fin 16) (s : State) (s' : State)
    (h : execLeSeta e kind i a s = .next s') : s'.clock = s.clock := by
  unfold execLeSeta at h
  obtain rfl := next_inj h
  simp

theorem execLeGeta_clock (e : Fin 32) (d : Fin 16) (kind : BitVec 2) (i : Fin 8) (s : State) (s' : State)
    (h : execLeGeta e d kind i s = .next s') : s'.clock = s.clock := by
  unfold execLeGeta at h
  obtain rfl := next_inj h
  simp

theorem execLeBr_clock (e : Fin 32) (cond : BitVec 4) (target : BitVec 13) (s : State) (s' : State)
    (h : execLeBr e cond target s = .next s') : s'.clock = s.clock := by
  unfold execLeBr at h
  obtain rfl := next_inj h
  simp

theorem execLeCall_clock (e : Fin 32) (target : BitVec 13) (s : State) (s' : State)
    (h : execLeCall e target s = .next s') : s'.clock = s.clock := by
  unfold execLeCall at h
  obtain rfl := next_inj h
  simp

theorem execMemoryScrub_clock (e : Fin 32) (kind : Fin 3) (addr : BitVec 16) (err : Fin 3) (s : State) (s' : State)
    (h : execMemoryScrub e kind addr err s = .next s') : s'.clock = s.clock := by
  unfold execMemoryScrub at h
  obtain rfl := next_inj h
  simp

theorem execDebugHalt_clock (e : Fin 32) (bkpt : Bool) (s : State) (s' : State)
    (h : execDebugHalt e bkpt s = .next s') : s'.clock = s.clock := by
  unfold execDebugHalt at h
  obtain rfl := next_inj h
  simp

theorem execDebugResume_clock (e : Fin 32) (bkpt : Bool) (s : State) (s' : State)
    (h : execDebugResume e bkpt s = .next s') : s'.clock = s.clock := by
  unfold execDebugResume at h
  obtain rfl := next_inj h
  simp

theorem execLeImageBegin_clock (p : Packet) (s : State) (s' : State)
    (h : execLeImageBegin p s = .next s') : s'.clock = s.clock := by
  unfold execLeImageBegin at h
  obtain rfl := next_inj h
  simp

theorem execLeImageData_clock (p : Packet) (s : State) (s' : State)
    (h : execLeImageData p s = .next s') : s'.clock = s.clock := by
  unfold execLeImageData at h
  obtain rfl := next_inj h
  simp

theorem execLeImageEnd_clock (p : Packet) (s : State) (s' : State)
    (h : execLeImageEnd p s = .next s') : s'.clock = s.clock := by
  unfold execLeImageEnd at h
  obtain rfl := next_inj h
  simp

theorem execLeImageCheckComplete_clock (e : Fin 32) (s : State) (s' : State)
    (h : execLeImageCheckComplete e s = .next s') : s'.clock = s.clock := by
  unfold execLeImageCheckComplete at h
  obtain rfl := next_inj h
  (repeat' split) <;> simp

theorem execLeStatus_clock (p : Packet) (s : State) (s' : State)
    (h : execLeStatus p s = .next s') : s'.clock = s.clock := by
  unfold execLeStatus at h
  obtain rfl := next_inj h
  simp

theorem execLeTickSet_clock (p : Packet) (s : State) (s' : State)
    (h : execLeTickSet p s = .next s') : s'.clock = s.clock := by
  unfold execLeTickSet at h
  obtain rfl := next_inj h
  simp

theorem execLePolicySet_clock (p : Packet) (s : State) (s' : State)
    (h : execLePolicySet p s = .next s') : s'.clock = s.clock := by
  unfold execLePolicySet at h
  obtain rfl := next_inj h
  simp

theorem execLeCountersClear_clock (p : Packet) (s : State) (s' : State)
    (h : execLeCountersClear p s = .next s') : s'.clock = s.clock := by
  unfold execLeCountersClear at h
  obtain rfl := next_inj h
  simp

theorem execLeDataRead_clock (p : Packet) (s : State) (s' : State)
    (h : execLeDataRead p s = .next s') : s'.clock = s.clock := by
  unfold execLeDataRead at h
  obtain rfl := next_inj h
  simp

theorem execLeRestart_clock (p : Packet) (s : State) (s' : State)
    (h : execLeRestart p s = .next s') : s'.clock = s.clock := by
  unfold execLeRestart at h
  obtain rfl := next_inj h
  simp

theorem execPwmUpdateInstant_clock (t : Fin 16) (centre : Bool) (s : State) (s' : State)
    (h : execPwmUpdateInstant t centre s = .next s') : s'.clock = s.clock := by
  unfold execPwmUpdateInstant at h
  obtain rfl := next_inj h
  simp

theorem execTileFaultInput_clock (t : Fin 16) (low : Bool) (ns : Nat) (s : State) (s' : State)
    (h : execTileFaultInput t low ns s = .next s') : s'.clock = s.clock := by
  unfold execTileFaultInput at h
  dsimp only at h
  (repeat' split at h) <;> (obtain rfl := next_inj h; (repeat' split) <;> simp)

theorem execHallEdge_clock (t : Fin 16) (h : BitVec 3) (s : State) (s' : State)
    (h : execHallEdge t h s = .next s') : s'.clock = s.clock := by
  unfold execHallEdge at h
  (repeat' split at h) <;> (obtain rfl := next_inj h; simp)

theorem execBrakeCheckExpiry_clock (t : Fin 16) (s : State) (s' : State)
    (h : execBrakeCheckExpiry t s = .next s') : s'.clock = s.clock := by
  unfold execBrakeCheckExpiry at h
  dsimp only at h
  (repeat' split at h) <;> (obtain rfl := next_inj h; (repeat' split) <;> simp)

theorem execDclUndervoltClear_clock (g : Fin 4) (s : State) (s' : State)
    (h : execDclUndervoltClear g s = .next s') : s'.clock = s.clock := by
  unfold execDclUndervoltClear at h
  (repeat' split at h) <;> (obtain rfl := next_inj h; simp)

theorem execTileModeSet_clock (p : Packet) (s : State) (s' : State)
    (h : execTileModeSet p s = .next s') : s'.clock = s.clock := by
  unfold execTileModeSet at h
  obtain rfl := next_inj h
  simp

theorem execTilePwmSet_clock (p : Packet) (s : State) (s' : State)
    (h : execTilePwmSet p s = .next s') : s'.clock = s.clock := by
  unfold execTilePwmSet at h
  obtain rfl := next_inj h
  simp

theorem execTileFaultInputSet_clock (p : Packet) (s : State) (s' : State)
    (h : execTileFaultInputSet p s = .next s') : s'.clock = s.clock := by
  unfold execTileFaultInputSet at h
  obtain rfl := next_inj h
  simp

theorem execHallTableSet_clock (p : Packet) (s : State) (s' : State)
    (h : execHallTableSet p s = .next s') : s'.clock = s.clock := by
  unfold execHallTableSet at h
  obtain rfl := next_inj h
  simp

theorem execTileTripClear_clock (p : Packet) (s : State) (s' : State)
    (h : execTileTripClear p s = .next s') : s'.clock = s.clock := by
  unfold execTileTripClear at h
  obtain rfl := next_inj h
  simp

theorem execTileLoadAll_clock (p : Packet) (s : State) (s' : State)
    (h : execTileLoadAll p s = .next s') : s'.clock = s.clock := by
  unfold execTileLoadAll at h
  obtain rfl := next_inj h
  simp

theorem execTileStatus_clock (p : Packet) (s : State) (s' : State)
    (h : execTileStatus p s = .next s') : s'.clock = s.clock := by
  unfold execTileStatus at h
  obtain rfl := next_inj h
  simp

theorem execTilePolicySet_clock (p : Packet) (s : State) (s' : State)
    (h : execTilePolicySet p s = .next s') : s'.clock = s.clock := by
  unfold execTilePolicySet at h
  obtain rfl := next_inj h
  simp

theorem execDclConfig_clock (p : Packet) (s : State) (s' : State)
    (h : execDclConfig p s = .next s') : s'.clock = s.clock := by
  unfold execDclConfig at h
  obtain rfl := next_inj h
  simp

theorem execDclStatus_clock (p : Packet) (s : State) (s' : State)
    (h : execDclStatus p s = .next s') : s'.clock = s.clock := by
  unfold execDclStatus at h
  obtain rfl := next_inj h
  simp

theorem execBrakeClear_clock (p : Packet) (s : State) (s' : State)
    (h : execBrakeClear p s = .next s') : s'.clock = s.clock := by
  unfold execBrakeClear at h
  obtain rfl := next_inj h
  simp

theorem execSdSample_clock (c : Fin 160) (y : Nat) (live : Bool) (s : State) (s' : State)
    (h : execSdSample c y live s = .next s') : s'.clock = s.clock := by
  unfold execSdSample at h
  (repeat' split at h) <;> (obtain rfl := next_inj h; simp)

theorem execSdWindowSample_clock (t : Fin 16) (yu : Nat) (yv : Nat) (yw : Nat) (live : BitVec 3) (s : State)
    (s' : State) (h : execSdWindowSample t yu yv yw live s = .next s') : s'.clock = s.clock := by
  unfold execSdWindowSample at h
  (repeat' split at h) <;> (obtain rfl := next_inj h; simp)

theorem execNtcFault_clock (t : Fin 16) (s : State) (s' : State)
    (h : execNtcFault t s = .next s') : s'.clock = s.clock := by
  unfold execNtcFault at h
  dsimp only at h
  (repeat' split at h) <;> (obtain rfl := next_inj h; (repeat' split) <;> simp)

theorem execSdOverrange_clock (c : Fin 160) (s : State) (s' : State)
    (h : execSdOverrange c s = .next s') : s'.clock = s.clock := by
  unfold execSdOverrange at h
  dsimp only at h
  (repeat' split at h) <;> (obtain rfl := next_inj h; (repeat' split) <;> simp)

theorem execSdStuck_clock (c : Fin 160) (s : State) (s' : State)
    (h : execSdStuck c s = .next s') : s'.clock = s.clock := by
  unfold execSdStuck at h
  (repeat' split at h) <;> (obtain rfl := next_inj h; simp)

theorem execCurrentSumError_clock (t : Fin 16) (s : State) (s' : State)
    (h : execCurrentSumError t s = .next s') : s'.clock = s.clock := by
  unfold execCurrentSumError at h
  dsimp only at h
  (repeat' split at h) <;> (obtain rfl := next_inj h; (repeat' split) <;> simp)

theorem execSenseNoWindow_clock (t : Fin 16) (s : State) (s' : State)
    (h : execSenseNoWindow t s = .next s') : s'.clock = s.clock := by
  unfold execSenseNoWindow at h
  dsimp only at h
  (repeat' split at h) <;> (obtain rfl := next_inj h; (repeat' split) <;> simp)

theorem execListenEnd_clock (t : Fin 16) (emf : Word) (omega : Word) (s : State) (s' : State)
    (h : execListenEnd t emf omega s = .next s') : s'.clock = s.clock := by
  unfold execListenEnd at h
  dsimp only at h
  (repeat' split at h) <;> (obtain rfl := next_inj h; (repeat' split) <;> simp)

theorem execBrakeEnd_clock (t : Fin 16) (s : State) (s' : State)
    (h : execBrakeEnd t s = .next s') : s'.clock = s.clock := by
  unfold execBrakeEnd at h
  (repeat' split at h) <;> (obtain rfl := next_inj h; simp)

theorem execAlignEnd_clock (t : Fin 16) (s : State) (s' : State)
    (h : execAlignEnd t s = .next s') : s'.clock = s.clock := by
  unfold execAlignEnd at h
  (repeat' split at h) <;> (obtain rfl := next_inj h; simp)

theorem execObsConvergedEvt_clock (t : Fin 16) (s : State) (s' : State)
    (h : execObsConvergedEvt t s = .next s') : s'.clock = s.clock := by
  unfold execObsConvergedEvt at h
  dsimp only at h
  (repeat' split at h) <;> (obtain rfl := next_inj h; (repeat' split) <;> simp)

theorem execStartTimeout_clock (t : Fin 16) (s : State) (s' : State)
    (h : execStartTimeout t s = .next s') : s'.clock = s.clock := by
  unfold execStartTimeout at h
  dsimp only at h
  (repeat' split at h) <;> (obtain rfl := next_inj h; (repeat' split) <;> simp)

theorem execStartRetryWaitEnd_clock (t : Fin 16) (s : State) (s' : State)
    (h : execStartRetryWaitEnd t s = .next s') : s'.clock = s.clock := by
  unfold execStartRetryWaitEnd at h
  dsimp only at h
  (repeat' split at h) <;> (obtain rfl := next_inj h; (repeat' split) <;> simp)

theorem execObserverLost_clock (t : Fin 16) (s : State) (s' : State)
    (h : execObserverLost t s = .next s') : s'.clock = s.clock := by
  unfold execObserverLost at h
  dsimp only at h
  (repeat' split at h) <;> (obtain rfl := next_inj h; (repeat' split) <;> simp)

theorem execIdentComplete_clock (t : Fin 16) (r : IdentOutcome) (s : State) (s' : State)
    (h : execIdentComplete t r s = .next s') : s'.clock = s.clock := by
  unfold execIdentComplete at h
  dsimp only at h
  (repeat' split at h) <;> (obtain rfl := next_inj h; (repeat' split) <;> simp)

theorem execFocMotorSet_clock (p : Packet) (s : State) (s' : State)
    (h : execFocMotorSet p s = .next s') : s'.clock = s.clock := by
  unfold execFocMotorSet at h
  obtain rfl := next_inj h
  simp

theorem execFocConfig_clock (p : Packet) (s : State) (s' : State)
    (h : execFocConfig p s = .next s') : s'.clock = s.clock := by
  unfold execFocConfig at h
  obtain rfl := next_inj h
  simp

theorem execFocModulationSet_clock (p : Packet) (s : State) (s' : State)
    (h : execFocModulationSet p s = .next s') : s'.clock = s.clock := by
  unfold execFocModulationSet at h
  obtain rfl := next_inj h
  simp

theorem execObserverConfig_clock (p : Packet) (s : State) (s' : State)
    (h : execObserverConfig p s = .next s') : s'.clock = s.clock := by
  unfold execObserverConfig at h
  obtain rfl := next_inj h
  simp

theorem execStartConfig_clock (p : Packet) (s : State) (s' : State)
    (h : execStartConfig p s = .next s') : s'.clock = s.clock := by
  unfold execStartConfig at h
  obtain rfl := next_inj h
  simp

theorem execFocPolicySet_clock (p : Packet) (s : State) (s' : State)
    (h : execFocPolicySet p s = .next s') : s'.clock = s.clock := by
  unfold execFocPolicySet at h
  obtain rfl := next_inj h
  simp

theorem execMotorIdentify_clock (p : Packet) (s : State) (s' : State)
    (h : execMotorIdentify p s = .next s') : s'.clock = s.clock := by
  unfold execMotorIdentify at h
  obtain rfl := next_inj h
  simp

theorem execIdentResult_clock (p : Packet) (s : State) (s' : State)
    (h : execIdentResult p s = .next s') : s'.clock = s.clock := by
  unfold execIdentResult at h
  obtain rfl := next_inj h
  simp

theorem execFocStatus_clock (p : Packet) (s : State) (s' : State)
    (h : execFocStatus p s = .next s') : s'.clock = s.clock := by
  unfold execFocStatus at h
  obtain rfl := next_inj h
  simp

theorem execChopperThresholdCross_clock (t : Fin 16) (c : Fin 2) (bits : List Bool) (s : State) (s' : State)
    (h : execChopperThresholdCross t c bits s = .next s') : s'.clock = s.clock := by
  unfold execChopperThresholdCross at h
  obtain rfl := next_inj h
  simp

theorem execChopperFastEnd_clock (t : Fin 16) (c : Fin 2) (s : State) (s' : State)
    (h : execChopperFastEnd t c s = .next s') : s'.clock = s.clock := by
  unfold execChopperFastEnd at h
  dsimp only at h
  (repeat' split at h) <;> (obtain rfl := next_inj h; (repeat' split) <;> simp)

theorem execChopperDriveTimeout_clock (t : Fin 16) (c : Fin 2) (s : State) (s' : State)
    (h : execChopperDriveTimeout t c s = .next s') : s'.clock = s.clock := by
  unfold execChopperDriveTimeout at h
  dsimp only at h
  (repeat' split at h) <;> (obtain rfl := next_inj h; (repeat' split) <;> simp)

theorem execStepIdleTimeout_clock (t : Fin 16) (s : State) (s' : State)
    (h : execStepIdleTimeout t s = .next s') : s'.clock = s.clock := by
  unfold execStepIdleTimeout at h
  dsimp only at h
  (repeat' split at h) <;> (obtain rfl := next_inj h; (repeat' split) <;> simp)

theorem execStall_clock (t : Fin 16) (s : State) (s' : State) (h : execStall t s = .next s') : s'.clock = s.clock := by
  unfold execStall at h
  dsimp only at h
  (repeat' split at h) <;> (obtain rfl := next_inj h; (repeat' split) <;> simp)

theorem execCoilMeasureEnd_clock (t : Fin 16) (c : Fin 2) (m : CoilMeasure) (s : State) (s' : State)
    (h : execCoilMeasureEnd t c m s = .next s') : s'.clock = s.clock := by
  unfold execCoilMeasureEnd at h
  dsimp only at h
  (repeat' split at h) <;> (obtain rfl := next_inj h; (repeat' split) <;> simp)

theorem execCoilMeasSettleEnd_clock (t : Fin 16) (s : State) (s' : State)
    (h : execCoilMeasSettleEnd t s = .next s') : s'.clock = s.clock := by
  unfold execCoilMeasSettleEnd at h
  (repeat' split at h) <;> (obtain rfl := next_inj h; simp)

theorem execCoilOpenDetect_clock (t : Fin 16) (c : Fin 2) (s : State) (s' : State)
    (h : execCoilOpenDetect t c s = .next s') : s'.clock = s.clock := by
  unfold execCoilOpenDetect at h
  (repeat' split at h) <;> (obtain rfl := next_inj h; simp)

theorem execStepConfig_clock (p : Packet) (s : State) (s' : State)
    (h : execStepConfig p s = .next s') : s'.clock = s.clock := by
  unfold execStepConfig at h
  obtain rfl := next_inj h
  simp

theorem execChopperConfig_clock (p : Packet) (s : State) (s' : State)
    (h : execChopperConfig p s = .next s') : s'.clock = s.clock := by
  unfold execChopperConfig at h
  obtain rfl := next_inj h
  simp

theorem execStepTableLoad_clock (p : Packet) (s : State) (s' : State)
    (h : execStepTableLoad p s = .next s') : s'.clock = s.clock := by
  unfold execStepTableLoad at h
  obtain rfl := next_inj h
  simp

theorem execStepTableSelect_clock (p : Packet) (s : State) (s' : State)
    (h : execStepTableSelect p s = .next s') : s'.clock = s.clock := by
  unfold execStepTableSelect at h
  obtain rfl := next_inj h
  simp

theorem execValveConfig_clock (p : Packet) (s : State) (s' : State)
    (h : execValveConfig p s = .next s') : s'.clock = s.clock := by
  unfold execValveConfig at h
  obtain rfl := next_inj h
  simp

theorem execDitherSet_clock (p : Packet) (s : State) (s' : State)
    (h : execDitherSet p s = .next s') : s'.clock = s.clock := by
  unfold execDitherSet at h
  obtain rfl := next_inj h
  simp

theorem execCoilMeasureConfig_clock (p : Packet) (s : State) (s' : State)
    (h : execCoilMeasureConfig p s = .next s') : s'.clock = s.clock := by
  unfold execCoilMeasureConfig at h
  obtain rfl := next_inj h
  simp

theorem execCoilParamSet_clock (p : Packet) (s : State) (s' : State)
    (h : execCoilParamSet p s = .next s') : s'.clock = s.clock := by
  unfold execCoilParamSet at h
  obtain rfl := next_inj h
  simp

theorem execSvCurrentSet_clock (p : Packet) (s : State) (s' : State)
    (h : execSvCurrentSet p s = .next s') : s'.clock = s.clock := by
  unfold execSvCurrentSet at h
  obtain rfl := next_inj h
  simp

theorem execSvPolicySet_clock (p : Packet) (s : State) (s' : State)
    (h : execSvPolicySet p s = .next s') : s'.clock = s.clock := by
  unfold execSvPolicySet at h
  obtain rfl := next_inj h
  simp

theorem execSvStatus_clock (p : Packet) (s : State) (s' : State)
    (h : execSvStatus p s = .next s') : s'.clock = s.clock := by
  unfold execSvStatus at h
  obtain rfl := next_inj h
  simp

theorem execEncoderEdge_clock (e : Fin 17) (a : Bool) (b : Bool) (z : Bool) (s : State) (s' : State)
    (h : execEncoderEdge e a b z s = .next s') : s'.clock = s.clock := by
  unfold execEncoderEdge at h
  obtain rfl := next_inj h
  simp

theorem execIndexEdge_clock (e : Fin 17) (s : State) (s' : State)
    (h : execIndexEdge e s = .next s') : s'.clock = s.clock := by
  unfold execIndexEdge at h
  dsimp only at h
  (repeat' split at h) <;> (obtain rfl := next_inj h; (repeat' split) <;> simp)

theorem execSsiFrameStart_clock (e : Fin 16) (s : State) (s' : State)
    (h : execSsiFrameStart e s = .next s') : s'.clock = s.clock := by
  unfold execSsiFrameStart at h
  dsimp only at h
  (repeat' split at h) <;> (obtain rfl := next_inj h; (repeat' split) <;> simp)

theorem execSsiAckTimeout_clock (e : Fin 16) (s : State) (s' : State)
    (h : execSsiAckTimeout e s = .next s') : s'.clock = s.clock := by
  unfold execSsiAckTimeout at h
  dsimp only at h
  (repeat' split at h) <;> (obtain rfl := next_inj h; (repeat' split) <;> simp)

theorem execSsiFrameComplete_clock (e : Fin 16) (drt : Fin 801) (frame : BitVec 64) (s : State) (s' : State)
    (h : execSsiFrameComplete e drt frame s = .next s') : s'.clock = s.clock := by
  unfold execSsiFrameComplete at h
  dsimp only at h
  (repeat' split at h) <;> (obtain rfl := next_inj h; (repeat' split) <;> simp)

theorem execAbsReadFailed_clock (e : Fin 16) (s : State) (s' : State)
    (h : execAbsReadFailed e s = .next s') : s'.clock = s.clock := by
  unfold execAbsReadFailed at h
  dsimp only at h
  (repeat' split at h) <;> (obtain rfl := next_inj h; (repeat' split) <;> simp)

theorem execSdclkConfig_clock (p : Packet) (s : State) (s' : State)
    (h : execSdclkConfig p s = .next s') : s'.clock = s.clock := by
  unfold execSdclkConfig at h
  obtain rfl := next_inj h
  simp

theorem execSdConfig_clock (p : Packet) (s : State) (s' : State)
    (h : execSdConfig p s = .next s') : s'.clock = s.clock := by
  unfold execSdConfig at h
  obtain rfl := next_inj h
  simp

theorem execEncConfig_clock (p : Packet) (s : State) (s' : State)
    (h : execEncConfig p s = .next s') : s'.clock = s.clock := by
  unfold execEncConfig at h
  obtain rfl := next_inj h
  simp

theorem execIndexArm_clock (p : Packet) (s : State) (s' : State)
    (h : execIndexArm p s = .next s') : s'.clock = s.clock := by
  unfold execIndexArm at h
  obtain rfl := next_inj h
  simp

theorem execSsiConfig_clock (p : Packet) (s : State) (s' : State)
    (h : execSsiConfig p s = .next s') : s'.clock = s.clock := by
  unfold execSsiConfig at h
  obtain rfl := next_inj h
  simp

theorem execSincosConfig_clock (p : Packet) (s : State) (s' : State)
    (h : execSincosConfig p s = .next s') : s'.clock = s.clock := by
  unfold execSincosConfig at h
  obtain rfl := next_inj h
  simp

theorem execFeedbackSelect_clock (p : Packet) (s : State) (s' : State)
    (h : execFeedbackSelect p s = .next s') : s'.clock = s.clock := by
  unfold execFeedbackSelect at h
  obtain rfl := next_inj h
  simp

theorem execFbPolicySet_clock (p : Packet) (s : State) (s' : State)
    (h : execFbPolicySet p s = .next s') : s'.clock = s.clock := by
  unfold execFbPolicySet at h
  obtain rfl := next_inj h
  simp

theorem execSdStatus_clock (p : Packet) (s : State) (s' : State)
    (h : execSdStatus p s = .next s') : s'.clock = s.clock := by
  unfold execSdStatus at h
  obtain rfl := next_inj h
  simp

theorem execFbStatus_clock (p : Packet) (s : State) (s' : State)
    (h : execFbStatus p s = .next s') : s'.clock = s.clock := by
  unfold execFbStatus at h
  obtain rfl := next_inj h
  simp

theorem execCaptureEdge_clock (c : Fin 48) (level : Bool) (tdc : BitVec 6) (s : State) (s' : State)
    (h : execCaptureEdge c level tdc s = .next s') : s'.clock = s.clock := by
  unfold execCaptureEdge at h
  extract_lets r l at h
  split at h
  · rw [next_inj h]
  · rw [next_inj h, guPattern_clock, capRaw_clock]

theorem execCaptureQualify_clock (c : Fin 48) (s : State) (s' : State)
    (h : execCaptureQualify c s = .next s') : s'.clock = s.clock := by
  unfold execCaptureQualify at h
  obtain rfl := next_inj h
  simp

theorem execLatchComplete_clock (n : Nat) (s : State) (s' : State)
    (h : execLatchComplete n s = .next s') : s'.clock = s.clock := by
  unfold execLatchComplete at h
  (repeat' split at h) <;> (obtain rfl := next_inj h; simp)

theorem execCapConsumed_clock (seq : BitVec 16) (s : State) (s' : State)
    (h : execCapConsumed seq s = .next s') : s'.clock = s.clock := by
  unfold execCapConsumed at h
  obtain rfl := next_inj h
  simp

theorem execGuSample_clock (u : Fin 8) (s : State) (s' : State)
    (h : execGuSample u s = .next s') : s'.clock = s.clock := by
  unfold execGuSample at h
  dsimp only at h
  (repeat' split at h) <;> (obtain rfl := next_inj h; (repeat' split) <;> simp)

theorem execGuRecordComplete_clock (u : Fin 8) (s : State) (s' : State)
    (h : execGuRecordComplete u s = .next s') : s'.clock = s.clock := by
  unfold execGuRecordComplete at h
  obtain rfl := next_inj h
  simp

theorem execSegRelease_clock (u : Fin 8) (seg : BitVec 16) (s : State) (s' : State)
    (h : execSegRelease u seg s = .next s') : s'.clock = s.clock := by
  unfold execSegRelease at h
  (repeat' split at h) <;> (obtain rfl := next_inj h; simp)

theorem execCapConfig_clock (p : Packet) (s : State) (s' : State)
    (h : execCapConfig p s = .next s') : s'.clock = s.clock := by
  unfold execCapConfig at h
  obtain rfl := next_inj h
  simp

theorem execCapRead_clock (p : Packet) (s : State) (s' : State)
    (h : execCapRead p s = .next s') : s'.clock = s.clock := by
  unfold execCapRead at h
  obtain rfl := next_inj h
  simp

theorem execCapStatus_clock (p : Packet) (s : State) (s' : State)
    (h : execCapStatus p s = .next s') : s'.clock = s.clock := by
  unfold execCapStatus at h
  obtain rfl := next_inj h
  simp

theorem execGuConfig_clock (p : Packet) (s : State) (s' : State)
    (h : execGuConfig p s = .next s') : s'.clock = s.clock := by
  unfold execGuConfig at h
  obtain rfl := next_inj h
  simp

theorem execGuTriggerSet_clock (p : Packet) (s : State) (s' : State)
    (h : execGuTriggerSet p s = .next s') : s'.clock = s.clock := by
  unfold execGuTriggerSet at h
  obtain rfl := next_inj h
  simp

theorem execGuMeasureSet_clock (p : Packet) (s : State) (s' : State)
    (h : execGuMeasureSet p s = .next s') : s'.clock = s.clock := by
  unfold execGuMeasureSet at h
  obtain rfl := next_inj h
  simp

theorem execGuArm_clock (p : Packet) (s : State) (s' : State) (h : execGuArm p s = .next s') : s'.clock = s.clock := by
  unfold execGuArm at h
  obtain rfl := next_inj h
  simp

theorem execGuForce_clock (p : Packet) (s : State) (s' : State)
    (h : execGuForce p s = .next s') : s'.clock = s.clock := by
  unfold execGuForce at h
  obtain rfl := next_inj h
  simp

theorem execGuStop_clock (p : Packet) (s : State) (s' : State) (h : execGuStop p s = .next s') : s'.clock = s.clock := by
  unfold execGuStop at h
  obtain rfl := next_inj h
  simp

theorem execGuRelease_clock (p : Packet) (s : State) (s' : State)
    (h : execGuRelease p s = .next s') : s'.clock = s.clock := by
  unfold execGuRelease at h
  obtain rfl := next_inj h
  simp

theorem execGuStatus_clock (p : Packet) (s : State) (s' : State)
    (h : execGuStatus p s = .next s') : s'.clock = s.clock := by
  unfold execGuStatus at h
  obtain rfl := next_inj h
  simp

theorem execMarkStatus_clock (p : Packet) (s : State) (s' : State)
    (h : execMarkStatus p s = .next s') : s'.clock = s.clock := by
  unfold execMarkStatus at h
  obtain rfl := next_inj h
  simp

theorem execCalderaCycle_clock (agree : Bool) (s : State) (s' : State)
    (h : execCalderaCycle agree s = .next s') : s'.clock = s.clock := by
  unfold execCalderaCycle at h
  obtain rfl := next_inj h
  simp

theorem execCalderaClockCheck_clock (mainPpm : Int) (fieldPpm : Int) (s : State) (s' : State)
    (h : execCalderaClockCheck mainPpm fieldPpm s = .next s') : s'.clock = s.clock := by
  unfold execCalderaClockCheck at h
  obtain rfl := next_inj h
  simp

theorem execCalderaSelfTest_clock (pass : Bool) (s : State) (s' : State)
    (h : execCalderaSelfTest pass s = .next s') : s'.clock = s.clock := by
  unfold execCalderaSelfTest at h
  (repeat' split at h) <;> (obtain rfl := next_inj h; simp)

theorem execSwitchBankRead_clock (reads : Vector (BitVec 16) 18) (s : State) (s' : State)
    (h : execSwitchBankRead reads s = .next s') : s'.clock = s.clock := by
  unfold execSwitchBankRead at h
  dsimp only at h
  (repeat' split at h) <;> (obtain rfl := next_inj h; (repeat' split) <;> simp)

theorem execTestPulsePeriod_clock (follows : BitVec 4) (s : State) (s' : State)
    (h : execTestPulsePeriod follows s = .next s') : s'.clock = s.clock := by
  unfold execTestPulsePeriod at h
  dsimp only at h
  (repeat' split at h) <;> (obtain rfl := next_inj h; (repeat' split) <;> simp)

theorem execSafetyInputSample_clock (high : BitVec 16) (s : State) (s' : State)
    (h : execSafetyInputSample high s = .next s') : s'.clock = s.clock := by
  unfold execSafetyInputSample at h
  rw [next_inj h]
  refine (foldl_clock _ (fun s i => ?_) _ _).trans (modCal_clock ..)
  extract_lets x
  exact ite_clock (latchDiscrepancy_clock ..) rfl

theorem execFilteredDemandChange_clock (ch : Fin 16) (s : State) (s' : State)
    (h : execFilteredDemandChange ch s = .next s') : s'.clock = s.clock := by
  unfold execFilteredDemandChange at h
  dsimp only at h
  (repeat' split at h) <;> (obtain rfl := next_inj h; (repeat' split) <;> simp)

theorem execDiscrepancy_clock (i : Fin 8) (s : State) (s' : State)
    (h : execDiscrepancy i s = .next s') : s'.clock = s.clock := by
  unfold execDiscrepancy at h
  obtain rfl := next_inj h
  simp

theorem execCrossShort_clock (ch : Fin 16) (missing : Bool) (s : State) (s' : State)
    (h : execCrossShort ch missing s = .next s') : s'.clock = s.clock := by
  unfold execCrossShort at h
  (repeat' split at h) <;> (obtain rfl := next_inj h; simp)

theorem execResetAccepted_clock (s : State) (s' : State) (h : execResetAccepted s = .next s') : s'.clock = s.clock := by
  unfold execResetAccepted at h
  dsimp only at h
  (repeat' split at h) <;> (obtain rfl := next_inj h; (repeat' split) <;> simp)

theorem execGenHalfPeriod_clock (lands : BitVec 32) (s : State) (s' : State)
    (h : execGenHalfPeriod lands s = .next s') : s'.clock = s.clock := by
  unfold execGenHalfPeriod at h
  dsimp only at h
  (repeat' split at h) <;> (obtain rfl := next_inj h; (repeat' split) <;> simp)

theorem execHeartbeatLoss_clock (t : Fin 16) (s : State) (s' : State)
    (h : execHeartbeatLoss t s = .next s') : s'.clock = s.clock := by
  unfold execHeartbeatLoss at h
  obtain rfl := next_inj h
  simp

theorem execHeartbeatResume_clock (t : Fin 16) (s : State) (s' : State)
    (h : execHeartbeatResume t s = .next s') : s'.clock = s.clock := by
  unfold execHeartbeatResume at h
  obtain rfl := next_inj h
  simp

theorem execSs1Timeout_clock (g : Fin 2) (s : State) (s' : State)
    (h : execSs1Timeout g s = .next s') : s'.clock = s.clock := by
  unfold execSs1Timeout at h
  obtain rfl := next_inj h
  simp

theorem execSafeSpeedUpdate_clock (counts : Vector Word 16) (illegal : BitVec 16) (quadrant : BitVec 16)
    (lowAmp : BitVec 16) (s : State) (s' : State)
    (h : execSafeSpeedUpdate counts illegal quadrant lowAmp s = .next s') : s'.clock = s.clock := by
  unfold execSafeSpeedUpdate at h
  obtain rfl := next_inj h
  simp

theorem execSs1rStandstill_clock (g : Fin 2) (s : State) (s' : State)
    (h : execSs1rStandstill g s = .next s') : s'.clock = s.clock := by
  unfold execSs1rStandstill at h
  obtain rfl := next_inj h
  simp

theorem execSlsMonitorStart_clock (g : Fin 2) (s : State) (s' : State)
    (h : execSlsMonitorStart g s = .next s') : s'.clock = s.clock := by
  unfold execSlsMonitorStart at h
  obtain rfl := next_inj h
  simp

theorem execSboTest_clock (o : Fin 4) (high : Bool) (low : Bool) (s : State) (s' : State)
    (h : execSboTest o high low s = .next s') : s'.clock = s.clock := by
  unfold execSboTest at h
  dsimp only at h
  (repeat' split at h) <;> (obtain rfl := next_inj h; (repeat' split) <;> simp)

theorem execCalderaSnapshot_clock (s : State) (s' : State)
    (h : execCalderaSnapshot s = .next s') : s'.clock = s.clock := by
  unfold execCalderaSnapshot at h
  obtain rfl := next_inj h
  simp

theorem execCalderaStatus_clock (p : Packet) (s : State) (s' : State)
    (h : execCalderaStatus p s = .next s') : s'.clock = s.clock := by
  unfold execCalderaStatus at h
  obtain rfl := next_inj h
  simp

theorem execSafecfgRead_clock (p : Packet) (s : State) (s' : State)
    (h : execSafecfgRead p s = .next s') : s'.clock = s.clock := by
  unfold execSafecfgRead at h
  obtain rfl := next_inj h
  simp

theorem execSafeSpeedRead_clock (p : Packet) (s : State) (s' : State)
    (h : execSafeSpeedRead p s = .next s') : s'.clock = s.clock := by
  unfold execSafeSpeedRead at h
  obtain rfl := next_inj h
  simp

theorem execCalderaFaultRead_clock (p : Packet) (s : State) (s' : State)
    (h : execCalderaFaultRead p s = .next s') : s'.clock = s.clock := by
  unfold execCalderaFaultRead at h
  obtain rfl := next_inj h
  simp

theorem execFioInputQualify_clock (c : Fin 24) (on : Bool) (edge : BitVec 96) (s : State) (s' : State)
    (h : execFioInputQualify c on edge s = .next s') : s'.clock = s.clock := by
  unfold execFioInputQualify at h
  dsimp only at h
  (repeat' split at h) <;> (obtain rfl := next_inj h; (repeat' split) <;> simp)

theorem execFioFrameReceive_clock (crcOk : Bool) (f : FioFrame) (s : State) (s' : State)
    (h : execFioFrameReceive crcOk f s = .next s') : s'.clock = s.clock := by
  unfold execFioFrameReceive at h
  extract_lets s1 s2 at h
  split at h
  · rw [next_inj h]
    exact modFioModule_clock ..
  · rw [next_inj h]
    exact (foldl_clock _ (fun s i => fioChanges_clock ..) _ _).trans ((modFieldIo_clock ..).trans (clearCond_clock ..))

theorem execFioFrameApply_clock (s : State) (s' : State) (h : execFioFrameApply s = .next s') : s'.clock = s.clock := by
  unfold execFioFrameApply at h
  obtain rfl := next_inj h
  simp

theorem execFioTimeTransfer_clock (map : BitVec 96) (s : State) (s' : State)
    (h : execFioTimeTransfer map s = .next s') : s'.clock = s.clock := by
  unfold execFioTimeTransfer at h
  obtain rfl := next_inj h
  simp

theorem execOutThermalShutdown_clock (c : Fin 24) (s : State) (s' : State)
    (h : execOutThermalShutdown c s = .next s') : s'.clock = s.clock := by
  unfold execOutThermalShutdown at h
  dsimp only at h
  (repeat' split at h) <;> (obtain rfl := next_inj h; (repeat' split) <;> simp)

theorem execOutShortVin_clock (c : Fin 24) (s : State) (s' : State)
    (h : execOutShortVin c s = .next s') : s'.clock = s.clock := by
  unfold execOutShortVin at h
  obtain rfl := next_inj h
  simp

theorem execShortVinClear_clock (c : Fin 24) (s : State) (s' : State)
    (h : execShortVinClear c s = .next s') : s'.clock = s.clock := by
  unfold execShortVinClear at h
  obtain rfl := next_inj h
  simp

theorem execBackfeedSearchStart_clock (c : Fin 24) (s : State) (s' : State)
    (h : execBackfeedSearchStart c s = .next s') : s'.clock = s.clock := by
  unfold execBackfeedSearchStart at h
  dsimp only at h
  (repeat' split at h) <;> (obtain rfl := next_inj h; (repeat' split) <;> simp)

theorem execBackfeedCandidateCheck_clock (active : Bool) (s : State) (s' : State)
    (h : execBackfeedCandidateCheck active s = .next s') : s'.clock = s.clock := by
  unfold execBackfeedCandidateCheck at h
  (repeat' split at h) <;> (obtain rfl := next_inj h; simp)

theorem execGroupOverload_clock (g : Fin 3) (s : State) (s' : State)
    (h : execGroupOverload g s = .next s') : s'.clock = s.clock := by
  unfold execGroupOverload at h
  (repeat' split at h) <;> (obtain rfl := next_inj h; simp)

theorem execOutUndervolt_clock (mv : BitVec 16) (s : State) (s' : State)
    (h : execOutUndervolt mv s = .next s') : s'.clock = s.clock := by
  unfold execOutUndervolt at h
  (repeat' split at h) <;> (obtain rfl := next_inj h; simp)

theorem execUndervoltEnd_clock (s : State) (s' : State) (h : execUndervoltEnd s = .next s') : s'.clock = s.clock := by
  unfold execUndervoltEnd at h
  (repeat' split at h) <;> (obtain rfl := next_inj h; simp)

theorem execFioFailsafe_clock (s : State) (s' : State) (h : execFioFailsafe s = .next s') : s'.clock = s.clock := by
  unfold execFioFailsafe at h
  obtain rfl := next_inj h
  simp

theorem execFioLinkFault_clock (s : State) (s' : State) (h : execFioLinkFault s = .next s') : s'.clock = s.clock := by
  unfold execFioLinkFault at h
  (repeat' split at h) <;> (obtain rfl := next_inj h; simp)

theorem execFioConfig_clock (p : Packet) (s : State) (s' : State)
    (h : execFioConfig p s = .next s') : s'.clock = s.clock := by
  unfold execFioConfig at h
  obtain rfl := next_inj h
  simp

theorem execFioOutSet_clock (p : Packet) (s : State) (s' : State)
    (h : execFioOutSet p s = .next s') : s'.clock = s.clock := by
  unfold execFioOutSet at h
  obtain rfl := next_inj h
  simp

theorem execFioFaultClear_clock (p : Packet) (s : State) (s' : State)
    (h : execFioFaultClear p s = .next s') : s'.clock = s.clock := by
  unfold execFioFaultClear at h
  obtain rfl := next_inj h
  simp

theorem execFioPolicySet_clock (p : Packet) (s : State) (s' : State)
    (h : execFioPolicySet p s = .next s') : s'.clock = s.clock := by
  unfold execFioPolicySet at h
  obtain rfl := next_inj h
  simp

theorem execFioRestore_clock (p : Packet) (s : State) (s' : State)
    (h : execFioRestore p s = .next s') : s'.clock = s.clock := by
  unfold execFioRestore at h
  obtain rfl := next_inj h
  simp

theorem execFioStatus_clock (p : Packet) (s : State) (s' : State)
    (h : execFioStatus p s = .next s') : s'.clock = s.clock := by
  unfold execFioStatus at h
  obtain rfl := next_inj h
  simp

theorem execCanFrameReceive_clock (n : Fin 4) (f : CanFrame) (s : State) (s' : State)
    (h : execCanFrameReceive n f s = .next s') : s'.clock = s.clock := by
  unfold execCanFrameReceive at h
  refine canDo_clock (fun x => ?_) h
  (try dsimp only)
  (repeat' split) <;> simp

theorem execCanTxFrameEnd_clock (n : Fin 4) (err : BitVec 3) (loop : Option Nat) (s : State) (s' : State)
    (h : execCanTxFrameEnd n err loop s = .next s') : s'.clock = s.clock := by
  unfold execCanTxFrameEnd at h
  refine canDo_clock (fun x => ?_) h
  (try dsimp only)
  (repeat' split) <;> simp

theorem execCanArbitrationLost_clock (n : Fin 4) (s : State) (s' : State)
    (h : execCanArbitrationLost n s = .next s') : s'.clock = s.clock := by
  unfold execCanArbitrationLost at h
  refine canDo_clock (fun x => ?_) h
  (try dsimp only)
  (repeat' split) <;> simp

theorem execCanBusError_clock (n : Fin 4) (kind : BitVec 3) (rule : Fin 4) (s : State) (s' : State)
    (h : execCanBusError n kind rule s = .next s') : s'.clock = s.clock := by
  unfold execCanBusError at h
  refine canDo_clock (fun x => ?_) h
  (try dsimp only)
  (repeat' split) <;> simp

theorem execCanBusOn_clock (n : Fin 4) (s : State) (s' : State)
    (h : execCanBusOn n s = .next s') : s'.clock = s.clock := by
  unfold execCanBusOn at h
  refine canDo_clock (fun x => ?_) h
  (try dsimp only)
  (repeat' split) <;> simp

theorem execCanIntegrationDone_clock (n : Fin 4) (s : State) (s' : State)
    (h : execCanIntegrationDone n s = .next s') : s'.clock = s.clock := by
  unfold execCanIntegrationDone at h
  refine canDo_clock (fun x => ?_) h
  (try dsimp only)
  (repeat' split) <;> simp

theorem execCanModeChangeApply_clock (n : Fin 4) (s : State) (s' : State)
    (h : execCanModeChangeApply n s = .next s') : s'.clock = s.clock := by
  unfold execCanModeChangeApply at h
  refine canDo_clock (fun x => ?_) h
  (try dsimp only)
  (repeat' split) <;> simp

theorem execCanSleepEnter_clock (n : Fin 4) (s : State) (s' : State)
    (h : execCanSleepEnter n s = .next s') : s'.clock = s.clock := by
  unfold execCanSleepEnter at h
  refine canDo_clock (fun x => ?_) h
  (try dsimp only)
  (repeat' split) <;> simp

theorem execCanWake_clock (n : Fin 4) (w : CanWake) (s : State) (s' : State)
    (h : execCanWake n w s = .next s') : s'.clock = s.clock := by
  unfold execCanWake at h
  refine canDo_clock (fun x => ?_) h
  (try dsimp only)
  (repeat' split) <;> simp

theorem execRxqWinRead_clock (n : Fin 4) (q : Fin 2) (w : Fin 20) (s : State) (s' : State)
    (h : execRxqWinRead n q w s = .next s') : s'.clock = s.clock := by
  unfold execRxqWinRead at h
  obtain rfl := next_inj h
  simp

theorem execTtColumnInstant_clock (n : Fin 4) (col : Fin 64) (busy : Nat) (s : State) (s' : State)
    (h : execTtColumnInstant n col busy s = .next s') : s'.clock = s.clock := by
  unfold execTtColumnInstant at h
  refine canDo_clock (fun x => ?_) h
  (try dsimp only)
  (repeat' split) <;> simp

theorem execTtRestart_clock (n : Fin 4) (s : State) (s' : State)
    (h : execTtRestart n s = .next s') : s'.clock = s.clock := by
  unfold execTtRestart at h
  refine canDo_clock (fun x => ?_) h
  (try dsimp only)
  (repeat' split) <;> simp

theorem execCanConfig_clock (p : Packet) (s : State) (s' : State)
    (h : execCanConfig p s = .next s') : s'.clock = s.clock := by
  unfold execCanConfig at h
  obtain rfl := next_inj h
  simp

theorem execCanModeSet_clock (p : Packet) (s : State) (s' : State)
    (h : execCanModeSet p s = .next s') : s'.clock = s.clock := by
  unfold execCanModeSet at h
  obtain rfl := next_inj h
  simp

theorem execCanFilterSet_clock (p : Packet) (s : State) (s' : State)
    (h : execCanFilterSet p s = .next s') : s'.clock = s.clock := by
  unfold execCanFilterSet at h
  obtain rfl := next_inj h
  simp

theorem execCanRxqConfig_clock (p : Packet) (s : State) (s' : State)
    (h : execCanRxqConfig p s = .next s') : s'.clock = s.clock := by
  unfold execCanRxqConfig at h
  obtain rfl := next_inj h
  simp

theorem execCanRxRead_clock (p : Packet) (s : State) (s' : State)
    (h : execCanRxRead p s = .next s') : s'.clock = s.clock := by
  unfold execCanRxRead at h
  obtain rfl := next_inj h
  simp

theorem execCanTx_clock (p : Packet) (s : State) (s' : State) (h : execCanTx p s = .next s') : s'.clock = s.clock := by
  unfold execCanTx at h
  obtain rfl := next_inj h
  simp

theorem execCanTxCancel_clock (p : Packet) (s : State) (s' : State)
    (h : execCanTxCancel p s = .next s') : s'.clock = s.clock := by
  unfold execCanTxCancel at h
  obtain rfl := next_inj h
  simp

theorem execCanBusoffRecover_clock (p : Packet) (s : State) (s' : State)
    (h : execCanBusoffRecover p s = .next s') : s'.clock = s.clock := by
  unfold execCanBusoffRecover at h
  obtain rfl := next_inj h
  simp

theorem execCanSleep_clock (p : Packet) (s : State) (s' : State)
    (h : execCanSleep p s = .next s') : s'.clock = s.clock := by
  unfold execCanSleep at h
  obtain rfl := next_inj h
  simp

theorem execCanTtConfig_clock (p : Packet) (s : State) (s' : State)
    (h : execCanTtConfig p s = .next s') : s'.clock = s.clock := by
  unfold execCanTtConfig at h
  obtain rfl := next_inj h
  simp

theorem execCanTtColumnSet_clock (p : Packet) (s : State) (s' : State)
    (h : execCanTtColumnSet p s = .next s') : s'.clock = s.clock := by
  unfold execCanTtColumnSet at h
  obtain rfl := next_inj h
  simp

theorem execCanTtData_clock (p : Packet) (s : State) (s' : State)
    (h : execCanTtData p s = .next s') : s'.clock = s.clock := by
  unfold execCanTtData at h
  obtain rfl := next_inj h
  simp

theorem execCanTtEnable_clock (p : Packet) (s : State) (s' : State)
    (h : execCanTtEnable p s = .next s') : s'.clock = s.clock := by
  unfold execCanTtEnable at h
  obtain rfl := next_inj h
  simp

theorem execCanStatus_clock (p : Packet) (s : State) (s' : State)
    (h : execCanStatus p s = .next s') : s'.clock = s.clock := by
  unfold execCanStatus at h
  obtain rfl := next_inj h
  simp

theorem execV3aOverload_clock (s : State) (s' : State) (h : execV3aOverload s = .next s') : s'.clock = s.clock := by
  unfold execV3aOverload at h
  obtain rfl := next_inj h
  simp

theorem execPowerFailWarn_clock (mv : BitVec 16) (s : State) (s' : State)
    (h : execPowerFailWarn mv s = .next s') : s'.clock = s.clock := by
  unfold execPowerFailWarn at h
  obtain rfl := next_inj h
  simp

theorem execPowerRestored_clock (s : State) (s' : State) (h : execPowerRestored s = .next s') : s'.clock = s.clock := by
  unfold execPowerRestored at h
  obtain rfl := next_inj h
  simp

theorem execVaultSaveComplete_clock (us : BitVec 16) (cut : Bool) (s : State) (s' : State)
    (h : execVaultSaveComplete us cut s = .next s') : s'.clock = s.clock := by
  unfold execVaultSaveComplete at h
  obtain rfl := next_inj h
  (repeat' split) <;> simp

theorem execResetRelease_clock (s : State) (s' : State) (h : execResetRelease s = .next s') : s'.clock = s.clock := by
  unfold execResetRelease at h
  obtain rfl := next_inj h
  simp

theorem execTrimLoadComplete_clock (crcOk : Bool) (straps : BitVec 6) (s : State) (s' : State)
    (h : execTrimLoadComplete crcOk straps s = .next s') : s'.clock = s.clock := by
  unfold execTrimLoadComplete at h
  obtain rfl := next_inj h
  simp

theorem execClockLock_clock (refOk : Bool) (s : State) (s' : State)
    (h : execClockLock refOk s = .next s') : s'.clock = s.clock := by
  unfold execClockLock at h
  obtain rfl := next_inj h
  simp

theorem execClockRecoveryTimeout_clock (s : State) (s' : State)
    (h : execClockRecoveryTimeout s = .next s') : s'.clock = s.clock := by
  unfold execClockRecoveryTimeout at h
  obtain rfl := next_inj h
  simp

theorem execBootComplete_clock (sigOk : Bool) (fwLevel : Word) (s : State) (s' : State)
    (h : execBootComplete sigOk fwLevel s = .next s') : s'.clock = s.clock := by
  unfold execBootComplete at h
  obtain rfl := next_inj h
  simp

theorem execBootDoorbell_clock (v : Word) (sigOk : Bool) (s : State) (s' : State)
    (h : execBootDoorbell v sigOk s = .next s') : s'.clock = s.clock := by
  unfold execBootDoorbell at h
  obtain rfl := next_inj h
  simp

theorem execHostLoadTimeout_clock (s : State) (s' : State)
    (h : execHostLoadTimeout s = .next s') : s'.clock = s.clock := by
  unfold execHostLoadTimeout at h
  obtain rfl := next_inj h
  simp

theorem execNetworkLoadTimeout_clock (s : State) (s' : State)
    (h : execNetworkLoadTimeout s = .next s') : s'.clock = s.clock := by
  unfold execNetworkLoadTimeout at h
  obtain rfl := next_inj h
  simp

theorem execTempCompUpdate_clock (s : State) (s' : State) (h : execTempCompUpdate s = .next s') : s'.clock = s.clock := by
  unfold execTempCompUpdate at h
  obtain rfl := next_inj h
  simp

theorem execControlPlaneReset_clock (src : BitVec 3) (addr : Word) (s : State) (s' : State)
    (h : execControlPlaneReset src addr s = .next s') : s'.clock = s.clock := by
  unfold execControlPlaneReset at h
  obtain rfl := next_inj h
  simp

theorem execCpResetRelease_clock (s : State) (s' : State) (h : execCpResetRelease s = .next s') : s'.clock = s.clock := by
  unfold execCpResetRelease at h
  obtain rfl := next_inj h
  simp

theorem execBlockReset_clock (p : Packet) (s : State) (s' : State)
    (h : execBlockReset p s = .next s') : s'.clock = s.clock := by
  unfold execBlockReset at h
  obtain rfl := next_inj h
  simp

theorem execBlockResetRelease_clock (target : BitVec 16) (s : State) (s' : State)
    (h : execBlockResetRelease target s = .next s') : s'.clock = s.clock := by
  unfold execBlockResetRelease at h
  obtain rfl := next_inj h
  simp

theorem execHibernate_clock (p : Packet) (s : State) (s' : State)
    (h : execHibernate p s = .next s') : s'.clock = s.clock := by
  unfold execHibernate at h
  obtain rfl := next_inj h
  simp

theorem execKettleThreshold_clock (sensor : Fin 12) (temp : Word) (s : State) (s' : State)
    (h : execKettleThreshold sensor temp s = .next s') : s'.clock = s.clock := by
  unfold execKettleThreshold at h
  obtain rfl := next_inj h
  simp

theorem execKettleSensorFault_clock (sensor : Fin 12) (s : State) (s' : State)
    (h : execKettleSensorFault sensor s = .next s') : s'.clock = s.clock := by
  unfold execKettleSensorFault at h
  obtain rfl := next_inj h
  simp

theorem execKettleStopTimeout_clock (s : State) (s' : State)
    (h : execKettleStopTimeout s = .next s') : s'.clock = s.clock := by
  unfold execKettleStopTimeout at h
  obtain rfl := next_inj h
  simp

theorem execKettleResumed_clock (s : State) (s' : State) (h : execKettleResumed s = .next s') : s'.clock = s.clock := by
  unfold execKettleResumed at h
  obtain rfl := next_inj h
  simp

theorem execKettleTrip_clock (sensor : Fin 12) (temp : Word) (s : State) (s' : State)
    (h : execKettleTrip sensor temp s = .next s') : s'.clock = s.clock := by
  unfold execKettleTrip at h
  obtain rfl := next_inj h
  simp

theorem execResetStatus_clock (p : Packet) (s : State) (s' : State)
    (h : execResetStatus p s = .next s') : s'.clock = s.clock := by
  unfold execResetStatus at h
  obtain rfl := next_inj h
  simp

theorem execBlockResetReport_clock (p : Packet) (s : State) (s' : State)
    (h : execBlockResetReport p s = .next s') : s'.clock = s.clock := by
  unfold execBlockResetReport at h
  obtain rfl := next_inj h
  simp

theorem execVaultSave_clock (p : Packet) (s : State) (s' : State)
    (h : execVaultSave p s = .next s') : s'.clock = s.clock := by
  unfold execVaultSave at h
  obtain rfl := next_inj h
  simp

theorem execVaultRead_clock (p : Packet) (s : State) (s' : State)
    (h : execVaultRead p s = .next s') : s'.clock = s.clock := by
  unfold execVaultRead at h
  obtain rfl := next_inj h
  simp

theorem execVaultWrite_clock (p : Packet) (s : State) (s' : State)
    (h : execVaultWrite p s = .next s') : s'.clock = s.clock := by
  unfold execVaultWrite at h
  obtain rfl := next_inj h
  simp

theorem execKettleStatus_clock (p : Packet) (s : State) (s' : State)
    (h : execKettleStatus p s = .next s') : s'.clock = s.clock := by
  unfold execKettleStatus at h
  obtain rfl := next_inj h
  simp

theorem execNtcConfig_clock (p : Packet) (s : State) (s' : State)
    (h : execNtcConfig p s = .next s') : s'.clock = s.clock := by
  unfold execNtcConfig at h
  obtain rfl := next_inj h
  simp

theorem execPowerPolicySet_clock (p : Packet) (s : State) (s' : State)
    (h : execPowerPolicySet p s = .next s') : s'.clock = s.clock := by
  unfold execPowerPolicySet at h
  obtain rfl := next_inj h
  simp

theorem execDiagRead_clock (p : Packet) (s : State) (s' : State)
    (h : execDiagRead p s = .next s') : s'.clock = s.clock := by
  unfold execDiagRead at h
  obtain rfl := next_inj h
  simp

theorem execDomainStopComplete_clock (anyOn : Bool) (s : State) (s' : State)
    (h : execDomainStopComplete anyOn s = .next s') : s'.clock = s.clock := by
  unfold execDomainStopComplete at h
  obtain rfl := next_inj h
  simp

theorem execDelayRequestReceive_clock (port : Fin 4) (s : State) (s' : State)
    (h : execDelayRequestReceive port s = .next s') : s'.clock = s.clock := by
  unfold execDelayRequestReceive at h
  obtain rfl := next_inj h
  simp

theorem execBlankingEnd_clock (t : Fin 16) (c : Fin 2) (s : State) (s' : State)
    (h : execBlankingEnd t c s = .next s') : s'.clock = s.clock := by
  unfold execBlankingEnd at h
  dsimp only at h
  (repeat' split at h) <;> (obtain rfl := next_inj h; (repeat' split) <;> simp)

theorem execOutThermalRestart_clock (c : Fin 24) (s : State) (s' : State)
    (h : execOutThermalRestart c s = .next s') : s'.clock = s.clock := by
  unfold execOutThermalRestart at h
  obtain rfl := next_inj h
  simp

theorem execShutdownCountReset_clock (c : Fin 24) (s : State) (s' : State)
    (h : execShutdownCountReset c s = .next s') : s'.clock = s.clock := by
  unfold execShutdownCountReset at h
  obtain rfl := next_inj h
  simp

theorem execV3aOverloadEnd_clock (s : State) (s' : State) (h : execV3aOverloadEnd s = .next s') : s'.clock = s.clock := by
  unfold execV3aOverloadEnd at h
  obtain rfl := next_inj h
  simp

theorem execKettleSensorPlausible_clock (sensor : Fin 12) (s : State) (s' : State)
    (h : execKettleSensorPlausible sensor s = .next s') : s'.clock = s.clock := by
  unfold execKettleSensorPlausible at h
  obtain rfl := next_inj h
  simp

/-- The commands that may change DT or L: a pour, a new DT, the start of the domain, and the resets of the module. -/
def movesClock : Instr → Bool
  | .pourPoint .. => true
  | .timeReload .. => true
  | .pourFrameArrival .. => true
  | .domainStartComplete .. => true
  | .powerOn .. => true
  | .wakeInput .. => true
  | .brownout .. => true
  | .resetNInput .. => true
  | .hibernateEnter .. => true
  | .kettleRestart .. => true
  | .vinLoss .. => true
  | _ => false

/-- Every other command leaves the queue, DT and L alone. -/
theorem exec_clock (i : Instr) (s s' : State) (hi : movesClock i = false) (h : exec i s = .next s') : s'.clock = s.clock := by
  cases i
  case pourPoint => cases hi
  case stagingCutoff => exact execStagingCutoff_clock s s' h
  case confirmationDeadline x0 => exact execConfirmationDeadline_clock x0 s s' h
  case masterLost x0 => exact execMasterLost_clock x0 s s' h
  case rideThroughEnd x0 => exact execRideThroughEnd_clock x0 s s' h
  case slotArmed x0 => exact execSlotArmed_clock x0 s s' h
  case masterEntryArrival x0 x1 => exact execMasterEntryArrival_clock x0 x1 s s' h
  case resteepEnd x0 => exact execResteepEnd_clock x0 s s' h
  case compareFire x0 => exact execCompareFire_clock x0 s s' h
  case ppsEdge x0 => exact execPpsEdge_clock x0 s s' h
  case holdoverEntry => exact execHoldoverEntry_clock s s' h
  case holdoverExpired => exact execHoldoverExpired_clock s s' h
  case timeLocked => exact execTimeLocked_clock s s' h
  case timeUnlocked => exact execTimeUnlocked_clock s s' h
  case ptpMessageReceive x0 x1 x2 x3 x4 x5 => exact execPtpMessageReceive_clock x0 x1 x2 x3 x4 x5 s s' h
  case ptpLost => exact execPtpLost_clock s s' h
  case timeRead x0 => exact execTimeRead_clock x0 s s' h
  case timeStatus x0 => exact execTimeStatus_clock x0 s s' h
  case timeSourceSet x0 => exact execTimeSourceSet_clock x0 s s' h
  case ptpConfig x0 => exact execPtpConfig_clock x0 s s' h
  case timePolicySet x0 => exact execTimePolicySet_clock x0 s s' h
  case compareArm x0 => exact execCompareArm_clock x0 s s' h
  case compareCancel x0 => exact execCompareCancel_clock x0 s s' h
  case ppsConfig x0 => exact execPpsConfig_clock x0 s s' h
  case ppsStop x0 => exact execPpsStop_clock x0 s s' h
  case pourStatus x0 => exact execPourStatus_clock x0 s s' h
  case timeReload x0 => cases hi
  case wideReadCapture x0 x1 => exact execWideReadCapture_clock x0 x1 s s' h
  case registerWrite x0 x1 x2 => exact execRegisterWrite_clock x0 x1 x2 s s' h
  case eventFabricArrival => exact execEventFabricArrival_clock s s' h
  case eventHoldExpiry => exact execEventHoldExpiry_clock s s' h
  case forwardedEventReceive x0 x1 => exact execForwardedEventReceive_clock x0 x1 s s' h
  case eventPush x0 => exact execEventPush_clock x0 s s' h
  case reqDoorbell x0 x1 => exact execReqDoorbell_clock x0 x1 s s' h
  case rspDoorbell x0 => exact execRspDoorbell_clock x0 s s' h
  case evtDoorbell x0 => exact execEvtDoorbell_clock x0 s s' h
  case spiWindowWrite x0 x1 => exact execSpiWindowWrite_clock x0 x1 s s' h
  case spiWindowRead x0 x1 => exact execSpiWindowRead_clock x0 x1 s s' h
  case spiPacketWrite x0 => exact execSpiPacketWrite_clock x0 s s' h
  case spiReplyRead => exact execSpiReplyRead_clock s s' h
  case spiStatusRead => exact execSpiStatusRead_clock s s' h
  case udpDatagramReceive x0 x1 x2 x3 x4 => exact execUdpDatagramReceive_clock x0 x1 x2 x3 x4 s s' h
  case sessionIdleTimeout x0 => exact execSessionIdleTimeout_clock x0 s s' h
  case chainTimeout x0 x1 => exact execChainTimeout_clock x0 x1 s s' h
  case pcieFunctionReset => exact execPcieFunctionReset_clock s s' h
  case pcieLinkDown => exact execPcieLinkDown_clock s s' h
  case tunnelPacketReceive x0 x1 => exact execTunnelPacketReceive_clock x0 x1 s s' h
  case tunnelInnerReply x0 x1 x2 => exact execTunnelInnerReply_clock x0 x1 x2 s s' h
  case tunnelTimeout x0 x1 => exact execTunnelTimeout_clock x0 x1 s s' h
  case identityRead x0 => exact execIdentityRead_clock x0 s s' h
  case attest x0 => exact execAttest_clock x0 s s' h
  case statusRead x0 => exact execStatusRead_clock x0 s s' h
  case eventRead x0 => exact execEventRead_clock x0 s s' h
  case eventSubscribe x0 => exact execEventSubscribe_clock x0 s s' h
  case vaultEventsRead x0 => exact execVaultEventsRead_clock x0 s s' h
  case echo x0 => exact execEcho_clock x0 s s' h
  case countersRead x0 => exact execCountersRead_clock x0 s s' h
  case configBegin x0 => exact execConfigBegin_clock x0 s s' h
  case configData x0 => exact execConfigData_clock x0 s s' h
  case configCommit x0 => exact execConfigCommit_clock x0 s s' h
  case configCommitComplete x0 => exact execConfigCommitComplete_clock x0 s s' h
  case firmwareBegin x0 => exact execFirmwareBegin_clock x0 s s' h
  case firmwareData x0 => exact execFirmwareData_clock x0 s s' h
  case firmwareActivate x0 => exact execFirmwareActivate_clock x0 s s' h
  case firmwareActivateComplete x0 => exact execFirmwareActivateComplete_clock x0 s s' h
  case tunnel x0 => exact execTunnel_clock x0 s s' h
  case netConfig x0 => exact execNetConfig_clock x0 s s' h
  case sessionReset x0 => exact execSessionReset_clock x0 s s' h
  case imageStreamSet x0 => exact execImageStreamSet_clock x0 s s' h
  case hostInputPolicy x0 => exact execHostInputPolicy_clock x0 s s' h
  case stageOpen x0 => exact execStageOpen_clock x0 s s' h
  case stageCommit x0 => exact execStageCommit_clock x0 s s' h
  case stageAbort x0 => exact execStageAbort_clock x0 s s' h
  case stageStatus x0 => exact execStageStatus_clock x0 s s' h
  case stageCancel x0 => exact execStageCancel_clock x0 s s' h
  case stageTimeout x0 => exact execStageTimeout_clock x0 s s' h
  case portSignalChange x0 x1 x2 x3 x4 => exact execPortSignalChange_clock x0 x1 x2 x3 x4 s s' h
  case portSyncLock x0 => exact execPortSyncLock_clock x0 s s' h
  case capabilityReceive x0 x1 x2 x3 x4 x5 x6 => exact execCapabilityReceive_clock x0 x1 x2 x3 x4 x5 x6 s s' h
  case delayRequest x0 => exact execDelayRequest_clock x0 s s' h
  case delayResponseReceive x0 x1 x2 => exact execDelayResponseReceive_clock x0 x1 x2 s s' h
  case segmentElection x0 => exact execSegmentElection_clock x0 s s' h
  case timeFrameLaunch => exact execTimeFrameLaunch_clock s s' h
  case pourFrameArrival x0 x1 => cases hi
  case domainStart x0 => exact execDomainStart_clock x0 s s' h
  case domainStartComplete x0 => cases hi
  case domainStop x0 => exact execDomainStop_clock x0 s s' h
  case nodeChallenge x0 x1 x2 => exact execNodeChallenge_clock x0 x1 x2 s s' h
  case challengeResponse x0 x1 x2 x3 => exact execChallengeResponse_clock x0 x1 x2 x3 s s' h
  case challengeTimeout x0 => exact execChallengeTimeout_clock x0 s s' h
  case nodeAccept x0 => exact execNodeAccept_clock x0 s s' h
  case acceptLockExpiry => exact execAcceptLockExpiry_clock s s' h
  case fragmentSend x0 x1 => exact execFragmentSend_clock x0 x1 s s' h
  case fragmentReceive x0 x1 x2 => exact execFragmentReceive_clock x0 x1 x2 s s' h
  case creditReturnReceive x0 x1 => exact execCreditReturnReceive_clock x0 x1 s s' h
  case auditReceive x0 x1 x2 => exact execAuditReceive_clock x0 x1 x2 s s' h
  case breakDeclare x0 x1 => exact execBreakDeclare_clock x0 x1 s s' h
  case breakNoticeReceive x0 => exact execBreakNoticeReceive_clock x0 s s' h
  case restoreNoticeReceive x0 => exact execRestoreNoticeReceive_clock x0 s s' h
  case ringSplit => exact execRingSplit_clock s s' h
  case linkStatus x0 => exact execLinkStatus_clock x0 s s' h
  case portConfig x0 => exact execPortConfig_clock x0 s s' h
  case segmentStatus x0 => exact execSegmentStatus_clock x0 s s' h
  case segmentMapRead x0 => exact execSegmentMapRead_clock x0 s s' h
  case planCheck x0 => exact execPlanCheck_clock x0 s s' h
  case eventForwardSet x0 => exact execEventForwardSet_clock x0 s s' h
  case linkCountersClear x0 => exact execLinkCountersClear_clock x0 s s' h
  case linkPolicySet x0 => exact execLinkPolicySet_clock x0 s s' h
  case slotConfig x0 => exact execSlotConfig_clock x0 s s' h
  case slotArm x0 => exact execSlotArm_clock x0 s s' h
  case slotDisarm x0 => exact execSlotDisarm_clock x0 s s' h
  case slotStatus x0 => exact execSlotStatus_clock x0 s s' h
  case masterLeadSet x0 => exact execMasterLeadSet_clock x0 s s' h
  case slotPolicySet x0 => exact execSlotPolicySet_clock x0 s s' h
  case axisConfig x0 => exact execAxisConfig_clock x0 s s' h
  case axisScaleSet x0 => exact execAxisScaleSet_clock x0 s s' h
  case axisLimitsSet x0 => exact execAxisLimitsSet_clock x0 s s' h
  case stopLimitsSet x0 => exact execStopLimitsSet_clock x0 s s' h
  case softLimitsSet x0 => exact execSoftLimitsSet_clock x0 s s' h
  case axisEnable x0 => exact execAxisEnable_clock x0 s s' h
  case axisDisable x0 => exact execAxisDisable_clock x0 s s' h
  case movePosition x0 => exact execMovePosition_clock x0 s s' h
  case moveVelocity x0 => exact execMoveVelocity_clock x0 s s' h
  case moveStop x0 => exact execMoveStop_clock x0 s s' h
  case homeConfig x0 => exact execHomeConfig_clock x0 s s' h
  case homeStart x0 => exact execHomeStart_clock x0 s s' h
  case faultClear x0 => exact execFaultClear_clock x0 s s' h
  case axisStatus x0 => exact execAxisStatus_clock x0 s s' h
  case homeResult x0 => exact execHomeResult_clock x0 s s' h
  case axisPolicySet x0 => exact execAxisPolicySet_clock x0 s s' h
  case hardStopDetect x0 => exact execHardStopDetect_clock x0 s s' h
  case axisHoldExpiry x0 => exact execAxisHoldExpiry_clock x0 s s' h
  case inPositionSet x0 => exact execInPositionSet_clock x0 s s' h
  case gearSourceSet x0 => exact execGearSourceSet_clock x0 s s' h
  case gearEngage x0 => exact execGearEngage_clock x0 s s' h
  case gearRatioSet x0 => exact execGearRatioSet_clock x0 s s' h
  case gearChangeArm x0 => exact execGearChangeArm_clock x0 s s' h
  case gearChangeCancel x0 => exact execGearChangeCancel_clock x0 s s' h
  case followDisengage x0 => exact execFollowDisengage_clock x0 s s' h
  case followStatus x0 => exact execFollowStatus_clock x0 s s' h
  case camLoadBegin x0 => exact execCamLoadBegin_clock x0 s s' h
  case camLoadData x0 => exact execCamLoadData_clock x0 s s' h
  case camLoadEnd x0 => exact execCamLoadEnd_clock x0 s s' h
  case camTableStatus x0 => exact execCamTableStatus_clock x0 s s' h
  case camEngage x0 => exact execCamEngage_clock x0 s s' h
  case camSwap x0 => exact execCamSwap_clock x0 s s' h
  case regConfig x0 => exact execRegConfig_clock x0 s s' h
  case regEnable x0 => exact execRegEnable_clock x0 s s' h
  case regOffsetSet x0 => exact execRegOffsetSet_clock x0 s s' h
  case regStatus x0 => exact execRegStatus_clock x0 s s' h
  case followPolicySet x0 => exact execFollowPolicySet_clock x0 s s' h
  case markMissing x0 => exact execMarkMissing_clock x0 s s' h
  case tickFiring x0 x1 x2 => exact execTickFiring_clock x0 x1 x2 s s' h
  case tickEntry x0 x1 => exact execTickEntry_clock x0 x1 s s' h
  case traceComplete x0 => exact execTraceComplete_clock x0 s s' h
  case loopOutputSaturated x0 => exact execLoopOutputSaturated_clock x0 s s' h
  case feedbackImplausible x0 => exact execFeedbackImplausible_clock x0 s s' h
  case directCoefWrite x0 x1 x2 => exact execDirectCoefWrite_clock x0 x1 x2 s s' h
  case directCoefApply x0 => exact execDirectCoefApply_clock x0 s s' h
  case loopProgramSelect x0 => exact execLoopProgramSelect_clock x0 s s' h
  case loopRateSet x0 => exact execLoopRateSet_clock x0 s s' h
  case loopTopSet x0 => exact execLoopTopSet_clock x0 s s' h
  case loopCoefSet x0 => exact execLoopCoefSet_clock x0 s s' h
  case loopModeSet x0 => exact execLoopModeSet_clock x0 s s' h
  case loopTuningSet x0 => exact execLoopTuningSet_clock x0 s s' h
  case supervisorConfig x0 => exact execSupervisorConfig_clock x0 s s' h
  case limiterSet x0 => exact execLimiterSet_clock x0 s s' h
  case freeLoopConfig x0 => exact execFreeLoopConfig_clock x0 s s' h
  case loopStatus x0 => exact execLoopStatus_clock x0 s s' h
  case traceConfig x0 => exact execTraceConfig_clock x0 s s' h
  case traceArm x0 => exact execTraceArm_clock x0 s s' h
  case traceForce x0 => exact execTraceForce_clock x0 s s' h
  case traceStop x0 => exact execTraceStop_clock x0 s s' h
  case traceStatus x0 => exact execTraceStatus_clock x0 s s' h
  case loopPolicySet x0 => exact execLoopPolicySet_clock x0 s s' h
  case leNop x0 => exact execLeNop_clock x0 s s' h
  case leTexit x0 => exact execLeTexit_clock x0 s s' h
  case leWait x0 => exact execLeWait_clock x0 s s' h
  case leBkpt x0 => exact execLeBkpt_clock x0 s s' h
  case leClrf x0 x1 => exact execLeClrf_clock x0 x1 s s' h
  case leMovsr x0 x1 => exact execLeMovsr_clock x0 x1 s s' h
  case leEvt x0 x1 x2 => exact execLeEvt_clock x0 x1 x2 s s' h
  case leAdd x0 x1 x2 x3 => exact execLeAdd_clock x0 x1 x2 x3 s s' h
  case leAdds x0 x1 x2 x3 => exact execLeAdds_clock x0 x1 x2 x3 s s' h
  case leSub x0 x1 x2 x3 => exact execLeSub_clock x0 x1 x2 x3 s s' h
  case leSubs x0 x1 x2 x3 => exact execLeSubs_clock x0 x1 x2 x3 s s' h
  case leAnd x0 x1 x2 x3 => exact execLeAnd_clock x0 x1 x2 x3 s s' h
  case leOr x0 x1 x2 x3 => exact execLeOr_clock x0 x1 x2 x3 s s' h
  case leXor x0 x1 x2 x3 => exact execLeXor_clock x0 x1 x2 x3 s s' h
  case leShl x0 x1 x2 x3 => exact execLeShl_clock x0 x1 x2 x3 s s' h
  case leShr x0 x1 x2 x3 => exact execLeShr_clock x0 x1 x2 x3 s s' h
  case leAsr x0 x1 x2 x3 => exact execLeAsr_clock x0 x1 x2 x3 s s' h
  case leMin x0 x1 x2 x3 => exact execLeMin_clock x0 x1 x2 x3 s s' h
  case leMax x0 x1 x2 x3 => exact execLeMax_clock x0 x1 x2 x3 s s' h
  case leAbss x0 x1 x2 => exact execLeAbss_clock x0 x1 x2 s s' h
  case leNegs x0 x1 x2 => exact execLeNegs_clock x0 x1 x2 s s' h
  case leClamp x0 x1 x2 x3 => exact execLeClamp_clock x0 x1 x2 x3 s s' h
  case leMov x0 x1 x2 => exact execLeMov_clock x0 x1 x2 s s' h
  case leCmp x0 x1 x2 => exact execLeCmp_clock x0 x1 x2 s s' h
  case leFadd x0 x1 x2 x3 => exact execLeFadd_clock x0 x1 x2 x3 s s' h
  case leFsub x0 x1 x2 x3 => exact execLeFsub_clock x0 x1 x2 x3 s s' h
  case leFmul x0 x1 x2 x3 => exact execLeFmul_clock x0 x1 x2 x3 s s' h
  case leFcvtif x0 x1 x2 => exact execLeFcvtif_clock x0 x1 x2 s s' h
  case leFcvtfi x0 x1 x2 => exact execLeFcvtfi_clock x0 x1 x2 s s' h
  case leSincos x0 x1 x2 => exact execLeSincos_clock x0 x1 x2 s s' h
  case leAddi x0 x1 x2 x3 => exact execLeAddi_clock x0 x1 x2 x3 s s' h
  case leAndi x0 x1 x2 x3 => exact execLeAndi_clock x0 x1 x2 x3 s s' h
  case leOri x0 x1 x2 x3 => exact execLeOri_clock x0 x1 x2 x3 s s' h
  case leShli x0 x1 x2 x3 => exact execLeShli_clock x0 x1 x2 x3 s s' h
  case leShri x0 x1 x2 x3 => exact execLeShri_clock x0 x1 x2 x3 s s' h
  case leAsri x0 x1 x2 x3 => exact execLeAsri_clock x0 x1 x2 x3 s s' h
  case leCmpi x0 x1 x2 => exact execLeCmpi_clock x0 x1 x2 s s' h
  case leMovi x0 x1 x2 => exact execLeMovi_clock x0 x1 x2 s s' h
  case leMovhi x0 x1 x2 => exact execLeMovhi_clock x0 x1 x2 s s' h
  case leJmpr x0 x1 => exact execLeJmpr_clock x0 x1 s s' h
  case leDbnz x0 x1 x2 => exact execLeDbnz_clock x0 x1 x2 s s' h
  case leRpt x0 x1 => exact execLeRpt_clock x0 x1 s s' h
  case leMul x0 x1 x2 x3 => exact execLeMul_clock x0 x1 x2 x3 s s' h
  case leMac x0 x1 x2 x3 => exact execLeMac_clock x0 x1 x2 x3 s s' h
  case leMsu x0 x1 x2 x3 => exact execLeMsu_clock x0 x1 x2 x3 s s' h
  case leMacus x0 x1 x2 x3 => exact execLeMacus_clock x0 x1 x2 x3 s s' h
  case leMac2 x0 x1 x2 x3 x4 => exact execLeMac2_clock x0 x1 x2 x3 x4 s s' h
  case leMld x0 x1 x2 x3 x4 x5 x6 x7 => exact execLeMld_clock x0 x1 x2 x3 x4 x5 x6 x7 s s' h
  case leMull x0 x1 x2 x3 => exact execLeMull_clock x0 x1 x2 x3 s s' h
  case leStq x0 x1 x2 x3 => exact execLeStq_clock x0 x1 x2 x3 s s' h
  case leClra x0 x1 => exact execLeClra_clock x0 x1 s s' h
  case leMova x0 x1 x2 x3 => exact execLeMova_clock x0 x1 x2 x3 s s' h
  case leAdda x0 x1 x2 => exact execLeAdda_clock x0 x1 x2 s s' h
  case leAsra x0 x1 x2 => exact execLeAsra_clock x0 x1 x2 s s' h
  case leSata x0 x1 x2 => exact execLeSata_clock x0 x1 x2 s s' h
  case leSatx x0 x1 x2 x3 => exact execLeSatx_clock x0 x1 x2 x3 s s' h
  case leExtl x0 x1 x2 => exact execLeExtl_clock x0 x1 x2 s s' h
  case leExth x0 x1 x2 => exact execLeExth_clock x0 x1 x2 s s' h
  case leExtg x0 x1 x2 => exact execLeExtg_clock x0 x1 x2 s s' h
  case leLd x0 x1 x2 x3 => exact execLeLd_clock x0 x1 x2 x3 s s' h
  case leSt x0 x1 x2 x3 => exact execLeSt_clock x0 x1 x2 x3 s s' h
  case leLda x0 x1 x2 => exact execLeLda_clock x0 x1 x2 s s' h
  case leSta x0 x1 x2 => exact execLeSta_clock x0 x1 x2 s s' h
  case leLdp x0 x1 x2 => exact execLeLdp_clock x0 x1 x2 s s' h
  case leStp x0 x1 x2 => exact execLeStp_clock x0 x1 x2 s s' h
  case leLdd x0 x1 x2 x3 => exact execLeLdd_clock x0 x1 x2 x3 s s' h
  case leStd x0 x1 x2 x3 => exact execLeStd_clock x0 x1 x2 x3 s s' h
  case leLdq x0 x1 x2 x3 => exact execLeLdq_clock x0 x1 x2 x3 s s' h
  case leStac x0 x1 x2 x3 => exact execLeStac_clock x0 x1 x2 x3 s s' h
  case leLdac x0 x1 x2 x3 => exact execLeLdac_clock x0 x1 x2 x3 s s' h
  case leSeta x0 x1 x2 x3 => exact execLeSeta_clock x0 x1 x2 x3 s s' h
  case leGeta x0 x1 x2 x3 => exact execLeGeta_clock x0 x1 x2 x3 s s' h
  case leBr x0 x1 x2 => exact execLeBr_clock x0 x1 x2 s s' h
  case leCall x0 x1 => exact execLeCall_clock x0 x1 s s' h
  case memoryScrub x0 x1 x2 x3 => exact execMemoryScrub_clock x0 x1 x2 x3 s s' h
  case debugHalt x0 x1 => exact execDebugHalt_clock x0 x1 s s' h
  case debugResume x0 x1 => exact execDebugResume_clock x0 x1 s s' h
  case leImageBegin x0 => exact execLeImageBegin_clock x0 s s' h
  case leImageData x0 => exact execLeImageData_clock x0 s s' h
  case leImageEnd x0 => exact execLeImageEnd_clock x0 s s' h
  case leImageCheckComplete x0 => exact execLeImageCheckComplete_clock x0 s s' h
  case leStatus x0 => exact execLeStatus_clock x0 s s' h
  case leTickSet x0 => exact execLeTickSet_clock x0 s s' h
  case lePolicySet x0 => exact execLePolicySet_clock x0 s s' h
  case leCountersClear x0 => exact execLeCountersClear_clock x0 s s' h
  case leDataRead x0 => exact execLeDataRead_clock x0 s s' h
  case leRestart x0 => exact execLeRestart_clock x0 s s' h
  case pwmUpdateInstant x0 x1 => exact execPwmUpdateInstant_clock x0 x1 s s' h
  case tileFaultInput x0 x1 x2 => exact execTileFaultInput_clock x0 x1 x2 s s' h
  case hallEdge x0 x1 => exact execHallEdge_clock x0 x1 s s' h
  case brakeCheckExpiry x0 => exact execBrakeCheckExpiry_clock x0 s s' h
  case dclUndervoltClear x0 => exact execDclUndervoltClear_clock x0 s s' h
  case tileModeSet x0 => exact execTileModeSet_clock x0 s s' h
  case tilePwmSet x0 => exact execTilePwmSet_clock x0 s s' h
  case tileFaultInputSet x0 => exact execTileFaultInputSet_clock x0 s s' h
  case hallTableSet x0 => exact execHallTableSet_clock x0 s s' h
  case tileTripClear x0 => exact execTileTripClear_clock x0 s s' h
  case tileLoadAll x0 => exact execTileLoadAll_clock x0 s s' h
  case tileStatus x0 => exact execTileStatus_clock x0 s s' h
  case tilePolicySet x0 => exact execTilePolicySet_clock x0 s s' h
  case dclConfig x0 => exact execDclConfig_clock x0 s s' h
  case dclStatus x0 => exact execDclStatus_clock x0 s s' h
  case brakeClear x0 => exact execBrakeClear_clock x0 s s' h
  case sdSample x0 x1 x2 => exact execSdSample_clock x0 x1 x2 s s' h
  case sdWindowSample x0 x1 x2 x3 x4 => exact execSdWindowSample_clock x0 x1 x2 x3 x4 s s' h
  case ntcFault x0 => exact execNtcFault_clock x0 s s' h
  case sdOverrange x0 => exact execSdOverrange_clock x0 s s' h
  case sdStuck x0 => exact execSdStuck_clock x0 s s' h
  case currentSumError x0 => exact execCurrentSumError_clock x0 s s' h
  case senseNoWindow x0 => exact execSenseNoWindow_clock x0 s s' h
  case listenEnd x0 x1 x2 => exact execListenEnd_clock x0 x1 x2 s s' h
  case brakeEnd x0 => exact execBrakeEnd_clock x0 s s' h
  case alignEnd x0 => exact execAlignEnd_clock x0 s s' h
  case obsConvergedEvt x0 => exact execObsConvergedEvt_clock x0 s s' h
  case startTimeout x0 => exact execStartTimeout_clock x0 s s' h
  case startRetryWaitEnd x0 => exact execStartRetryWaitEnd_clock x0 s s' h
  case observerLost x0 => exact execObserverLost_clock x0 s s' h
  case identComplete x0 x1 => exact execIdentComplete_clock x0 x1 s s' h
  case focMotorSet x0 => exact execFocMotorSet_clock x0 s s' h
  case focConfig x0 => exact execFocConfig_clock x0 s s' h
  case focModulationSet x0 => exact execFocModulationSet_clock x0 s s' h
  case observerConfig x0 => exact execObserverConfig_clock x0 s s' h
  case startConfig x0 => exact execStartConfig_clock x0 s s' h
  case focPolicySet x0 => exact execFocPolicySet_clock x0 s s' h
  case motorIdentify x0 => exact execMotorIdentify_clock x0 s s' h
  case identResult x0 => exact execIdentResult_clock x0 s s' h
  case focStatus x0 => exact execFocStatus_clock x0 s s' h
  case chopperThresholdCross x0 x1 x2 => exact execChopperThresholdCross_clock x0 x1 x2 s s' h
  case chopperFastEnd x0 x1 => exact execChopperFastEnd_clock x0 x1 s s' h
  case chopperDriveTimeout x0 x1 => exact execChopperDriveTimeout_clock x0 x1 s s' h
  case stepIdleTimeout x0 => exact execStepIdleTimeout_clock x0 s s' h
  case stall x0 => exact execStall_clock x0 s s' h
  case coilMeasureEnd x0 x1 x2 => exact execCoilMeasureEnd_clock x0 x1 x2 s s' h
  case coilMeasSettleEnd x0 => exact execCoilMeasSettleEnd_clock x0 s s' h
  case coilOpenDetect x0 x1 => exact execCoilOpenDetect_clock x0 x1 s s' h
  case stepConfig x0 => exact execStepConfig_clock x0 s s' h
  case chopperConfig x0 => exact execChopperConfig_clock x0 s s' h
  case stepTableLoad x0 => exact execStepTableLoad_clock x0 s s' h
  case stepTableSelect x0 => exact execStepTableSelect_clock x0 s s' h
  case valveConfig x0 => exact execValveConfig_clock x0 s s' h
  case ditherSet x0 => exact execDitherSet_clock x0 s s' h
  case coilMeasureConfig x0 => exact execCoilMeasureConfig_clock x0 s s' h
  case coilParamSet x0 => exact execCoilParamSet_clock x0 s s' h
  case svCurrentSet x0 => exact execSvCurrentSet_clock x0 s s' h
  case svPolicySet x0 => exact execSvPolicySet_clock x0 s s' h
  case svStatus x0 => exact execSvStatus_clock x0 s s' h
  case encoderEdge x0 x1 x2 x3 => exact execEncoderEdge_clock x0 x1 x2 x3 s s' h
  case indexEdge x0 => exact execIndexEdge_clock x0 s s' h
  case ssiFrameStart x0 => exact execSsiFrameStart_clock x0 s s' h
  case ssiAckTimeout x0 => exact execSsiAckTimeout_clock x0 s s' h
  case ssiFrameComplete x0 x1 x2 => exact execSsiFrameComplete_clock x0 x1 x2 s s' h
  case absReadFailed x0 => exact execAbsReadFailed_clock x0 s s' h
  case sdclkConfig x0 => exact execSdclkConfig_clock x0 s s' h
  case sdConfig x0 => exact execSdConfig_clock x0 s s' h
  case encConfig x0 => exact execEncConfig_clock x0 s s' h
  case indexArm x0 => exact execIndexArm_clock x0 s s' h
  case ssiConfig x0 => exact execSsiConfig_clock x0 s s' h
  case sincosConfig x0 => exact execSincosConfig_clock x0 s s' h
  case feedbackSelect x0 => exact execFeedbackSelect_clock x0 s s' h
  case fbPolicySet x0 => exact execFbPolicySet_clock x0 s s' h
  case sdStatus x0 => exact execSdStatus_clock x0 s s' h
  case fbStatus x0 => exact execFbStatus_clock x0 s s' h
  case captureEdge x0 x1 x2 => exact execCaptureEdge_clock x0 x1 x2 s s' h
  case captureQualify x0 => exact execCaptureQualify_clock x0 s s' h
  case latchComplete x0 => exact execLatchComplete_clock x0 s s' h
  case capConsumed x0 => exact execCapConsumed_clock x0 s s' h
  case guSample x0 => exact execGuSample_clock x0 s s' h
  case guRecordComplete x0 => exact execGuRecordComplete_clock x0 s s' h
  case segRelease x0 x1 => exact execSegRelease_clock x0 x1 s s' h
  case capConfig x0 => exact execCapConfig_clock x0 s s' h
  case capRead x0 => exact execCapRead_clock x0 s s' h
  case capStatus x0 => exact execCapStatus_clock x0 s s' h
  case guConfig x0 => exact execGuConfig_clock x0 s s' h
  case guTriggerSet x0 => exact execGuTriggerSet_clock x0 s s' h
  case guMeasureSet x0 => exact execGuMeasureSet_clock x0 s s' h
  case guArm x0 => exact execGuArm_clock x0 s s' h
  case guForce x0 => exact execGuForce_clock x0 s s' h
  case guStop x0 => exact execGuStop_clock x0 s s' h
  case guRelease x0 => exact execGuRelease_clock x0 s s' h
  case guStatus x0 => exact execGuStatus_clock x0 s s' h
  case markStatus x0 => exact execMarkStatus_clock x0 s s' h
  case calderaCycle x0 => exact execCalderaCycle_clock x0 s s' h
  case calderaClockCheck x0 x1 => exact execCalderaClockCheck_clock x0 x1 s s' h
  case calderaSelfTest x0 => exact execCalderaSelfTest_clock x0 s s' h
  case switchBankRead x0 => exact execSwitchBankRead_clock x0 s s' h
  case testPulsePeriod x0 => exact execTestPulsePeriod_clock x0 s s' h
  case safetyInputSample x0 => exact execSafetyInputSample_clock x0 s s' h
  case filteredDemandChange x0 => exact execFilteredDemandChange_clock x0 s s' h
  case discrepancy x0 => exact execDiscrepancy_clock x0 s s' h
  case crossShort x0 x1 => exact execCrossShort_clock x0 x1 s s' h
  case resetAccepted => exact execResetAccepted_clock s s' h
  case genHalfPeriod x0 => exact execGenHalfPeriod_clock x0 s s' h
  case heartbeatLoss x0 => exact execHeartbeatLoss_clock x0 s s' h
  case heartbeatResume x0 => exact execHeartbeatResume_clock x0 s s' h
  case ss1Timeout x0 => exact execSs1Timeout_clock x0 s s' h
  case safeSpeedUpdate x0 x1 x2 x3 => exact execSafeSpeedUpdate_clock x0 x1 x2 x3 s s' h
  case ss1rStandstill x0 => exact execSs1rStandstill_clock x0 s s' h
  case slsMonitorStart x0 => exact execSlsMonitorStart_clock x0 s s' h
  case sboTest x0 x1 x2 => exact execSboTest_clock x0 x1 x2 s s' h
  case calderaSnapshot => exact execCalderaSnapshot_clock s s' h
  case calderaStatus x0 => exact execCalderaStatus_clock x0 s s' h
  case safecfgRead x0 => exact execSafecfgRead_clock x0 s s' h
  case safeSpeedRead x0 => exact execSafeSpeedRead_clock x0 s s' h
  case calderaFaultRead x0 => exact execCalderaFaultRead_clock x0 s s' h
  case fioInputQualify x0 x1 x2 => exact execFioInputQualify_clock x0 x1 x2 s s' h
  case fioFrameReceive x0 x1 => exact execFioFrameReceive_clock x0 x1 s s' h
  case fioFrameApply => exact execFioFrameApply_clock s s' h
  case fioTimeTransfer x0 => exact execFioTimeTransfer_clock x0 s s' h
  case outThermalShutdown x0 => exact execOutThermalShutdown_clock x0 s s' h
  case outShortVin x0 => exact execOutShortVin_clock x0 s s' h
  case shortVinClear x0 => exact execShortVinClear_clock x0 s s' h
  case backfeedSearchStart x0 => exact execBackfeedSearchStart_clock x0 s s' h
  case backfeedCandidateCheck x0 => exact execBackfeedCandidateCheck_clock x0 s s' h
  case groupOverload x0 => exact execGroupOverload_clock x0 s s' h
  case outUndervolt x0 => exact execOutUndervolt_clock x0 s s' h
  case undervoltEnd => exact execUndervoltEnd_clock s s' h
  case fioFailsafe => exact execFioFailsafe_clock s s' h
  case fioLinkFault => exact execFioLinkFault_clock s s' h
  case fioConfig x0 => exact execFioConfig_clock x0 s s' h
  case fioOutSet x0 => exact execFioOutSet_clock x0 s s' h
  case fioFaultClear x0 => exact execFioFaultClear_clock x0 s s' h
  case fioPolicySet x0 => exact execFioPolicySet_clock x0 s s' h
  case fioRestore x0 => exact execFioRestore_clock x0 s s' h
  case fioStatus x0 => exact execFioStatus_clock x0 s s' h
  case canFrameReceive x0 x1 => exact execCanFrameReceive_clock x0 x1 s s' h
  case canTxFrameEnd x0 x1 x2 => exact execCanTxFrameEnd_clock x0 x1 x2 s s' h
  case canArbitrationLost x0 => exact execCanArbitrationLost_clock x0 s s' h
  case canBusError x0 x1 x2 => exact execCanBusError_clock x0 x1 x2 s s' h
  case canBusOn x0 => exact execCanBusOn_clock x0 s s' h
  case canIntegrationDone x0 => exact execCanIntegrationDone_clock x0 s s' h
  case canModeChangeApply x0 => exact execCanModeChangeApply_clock x0 s s' h
  case canSleepEnter x0 => exact execCanSleepEnter_clock x0 s s' h
  case canWake x0 x1 => exact execCanWake_clock x0 x1 s s' h
  case rxqWinRead x0 x1 x2 => exact execRxqWinRead_clock x0 x1 x2 s s' h
  case ttColumnInstant x0 x1 x2 => exact execTtColumnInstant_clock x0 x1 x2 s s' h
  case ttRestart x0 => exact execTtRestart_clock x0 s s' h
  case canConfig x0 => exact execCanConfig_clock x0 s s' h
  case canModeSet x0 => exact execCanModeSet_clock x0 s s' h
  case canFilterSet x0 => exact execCanFilterSet_clock x0 s s' h
  case canRxqConfig x0 => exact execCanRxqConfig_clock x0 s s' h
  case canRxRead x0 => exact execCanRxRead_clock x0 s s' h
  case canTx x0 => exact execCanTx_clock x0 s s' h
  case canTxCancel x0 => exact execCanTxCancel_clock x0 s s' h
  case canBusoffRecover x0 => exact execCanBusoffRecover_clock x0 s s' h
  case canSleep x0 => exact execCanSleep_clock x0 s s' h
  case canTtConfig x0 => exact execCanTtConfig_clock x0 s s' h
  case canTtColumnSet x0 => exact execCanTtColumnSet_clock x0 s s' h
  case canTtData x0 => exact execCanTtData_clock x0 s s' h
  case canTtEnable x0 => exact execCanTtEnable_clock x0 s s' h
  case canStatus x0 => exact execCanStatus_clock x0 s s' h
  case powerOn => cases hi
  case wakeInput x0 x1 => cases hi
  case v3aOverload => exact execV3aOverload_clock s s' h
  case powerFailWarn x0 => exact execPowerFailWarn_clock x0 s s' h
  case powerRestored => exact execPowerRestored_clock s s' h
  case vaultSaveComplete x0 x1 => exact execVaultSaveComplete_clock x0 x1 s s' h
  case brownout => cases hi
  case resetNInput x0 x1 => cases hi
  case resetRelease => exact execResetRelease_clock s s' h
  case trimLoadComplete x0 x1 => exact execTrimLoadComplete_clock x0 x1 s s' h
  case clockLock x0 => exact execClockLock_clock x0 s s' h
  case clockRecoveryTimeout => exact execClockRecoveryTimeout_clock s s' h
  case bootComplete x0 x1 => exact execBootComplete_clock x0 x1 s s' h
  case bootDoorbell x0 x1 => exact execBootDoorbell_clock x0 x1 s s' h
  case hostLoadTimeout => exact execHostLoadTimeout_clock s s' h
  case networkLoadTimeout => exact execNetworkLoadTimeout_clock s s' h
  case tempCompUpdate => exact execTempCompUpdate_clock s s' h
  case controlPlaneReset x0 x1 => exact execControlPlaneReset_clock x0 x1 s s' h
  case cpResetRelease => exact execCpResetRelease_clock s s' h
  case blockReset x0 => exact execBlockReset_clock x0 s s' h
  case blockResetRelease x0 => exact execBlockResetRelease_clock x0 s s' h
  case hibernate x0 => exact execHibernate_clock x0 s s' h
  case hibernateEnter => cases hi
  case kettleThreshold x0 x1 => exact execKettleThreshold_clock x0 x1 s s' h
  case kettleSensorFault x0 => exact execKettleSensorFault_clock x0 s s' h
  case kettleStopTimeout => exact execKettleStopTimeout_clock s s' h
  case kettleResumed => exact execKettleResumed_clock s s' h
  case kettleTrip x0 x1 => exact execKettleTrip_clock x0 x1 s s' h
  case kettleRestart => cases hi
  case resetStatus x0 => exact execResetStatus_clock x0 s s' h
  case blockResetReport x0 => exact execBlockResetReport_clock x0 s s' h
  case vaultSave x0 => exact execVaultSave_clock x0 s s' h
  case vaultRead x0 => exact execVaultRead_clock x0 s s' h
  case vaultWrite x0 => exact execVaultWrite_clock x0 s s' h
  case kettleStatus x0 => exact execKettleStatus_clock x0 s s' h
  case ntcConfig x0 => exact execNtcConfig_clock x0 s s' h
  case powerPolicySet x0 => exact execPowerPolicySet_clock x0 s s' h
  case diagRead x0 => exact execDiagRead_clock x0 s s' h
  case domainStopComplete x0 => exact execDomainStopComplete_clock x0 s s' h
  case vinLoss => cases hi
  case delayRequestReceive x0 => exact execDelayRequestReceive_clock x0 s s' h
  case blankingEnd x0 x1 => exact execBlankingEnd_clock x0 x1 s s' h
  case outThermalRestart x0 => exact execOutThermalRestart_clock x0 s s' h
  case shutdownCountReset x0 => exact execShutdownCountReset_clock x0 s s' h
  case v3aOverloadEnd => exact execV3aOverloadEnd_clock s s' h
  case kettleSensorPlausible x0 => exact execKettleSensorPlausible_clock x0 s s' h

end Sys2Proof.Machine
end

