-- ==== Sys2Proof/Laws/Inv.lean ====
section
/-! SUPPORT. What keeps State.Inv: the operations that load DT, fix L or bring the module up, and the shared path of a request. -/

namespace Sys2Proof.Machine

theorem Inv.of_clock {s t : State} (h : t.clock = s.clock) (hs : s.Inv) : t.Inv := by
  injection h with hp h
  injection h with hd hl
  exact ⟨hd ▸ hs.grid, hl ▸ hs.len, hp ▸ hs.queue⟩

theorem onHalf_zero : onHalf 0 := rfl
theorem onHalf_fixNat (n : Nat) : onHalf (fixNat n) := by
  simp only [onHalf, fixNat, BitVec.toNat_ofNat]; omega
theorem onHalf_onGrid (x : Int) : onHalf (onGrid x) := by
  simp only [onHalf, onGrid, fixRaw, BitVec.toNat_ofInt]; omega
theorem onHalf_edge {t : Fix} (h : onHalf t) : onHalf (t + 0x280000000) := by
  simp only [onHalf] at *
  have e : (0x280000000 : Fix).toNat = 0x280000000 := rfl
  rw [BitVec.toNat_add, e]; omega
theorem legalLen_zero : legalLen 0 := .inl rfl
theorem legalLen_exp {n : Nat} (h : n ≤ 6) : legalLen (natWord (pourOfExp n)) := by
  refine .inr ⟨n, h, ?_⟩
  have : n = 0 ∨ n = 1 ∨ n = 2 ∨ n = 3 ∨ n = 4 ∨ n = 5 ∨ n = 6 := by omega
  rcases this with rfl | rfl | rfl | rfl | rfl | rfl | rfl <;> decide

theorem atPour_inv (q : Nat) {s : State} (h : s.Inv) : State.Inv { s with dt := pourAt s q } :=
  ⟨onHalf_fixNat _, h.len, h.queue⟩
theorem loadDt_inv (x : Int) {s : State} (h : s.Inv) : (loadDt x s).Inv := ⟨onHalf_onGrid x, h.len, h.queue⟩
theorem fresh_inv (c : Caldera) (p : Power) {s : State} (h : s.Inv) : (fresh c p s).Inv := ⟨onHalf_zero, legalLen_zero, h.queue⟩
theorem fixDomain_inv {n : BitVec 3} (d w) (hn : n.toNat ≤ 6) {s : State} (h : s.Inv) : (fixDomain n d w s).Inv :=
  ⟨h.grid, legalLen_exp hn, h.queue⟩
theorem clockEdge_inv {s : State} (h : s.Inv) : (clockEdge s).Inv := by
  unfold clockEdge; split
  · exact ⟨onHalf_edge h.grid, h.len, h.queue⟩
  · exact h
theorem assertPowerOn_inv {s : State} (h : s.Inv) : (assertPowerOn s).Inv := fresh_inv _ _ h
theorem keepOffsets_inv (old : State) {s : State} (h : s.Inv) : (keepOffsets old s).Inv := ⟨h.grid, h.len, h.queue⟩
theorem assertCold_inv (src) {s : State} (h : s.Inv) : (assertCold src s).Inv := by
  unfold assertCold; dsimp only
  split
  · exact h
  · exact keepOffsets_inv _ (fresh_inv _ _ h)
theorem powerDown_inv (b) {s : State} (h : s.Inv) : (powerDown b s).Inv := Inv.of_clock (showCopies_clock _) (fresh_inv _ _ h)

theorem runAccepted_inv (d go p) {s : State} (hg : ∀ x : State, x.Inv → (go x).Inv) (h : s.Inv) : (runAccepted d go p s).Inv := by
  unfold runAccepted; dsimp only
  split
  · exact h
  · split
    · exact hg _ h
    · exact h
    · exact Inv.of_clock (serveBroken_clock ..) h
theorem requestMade_inv (d made go p) {s : State} (hg : ∀ x : State, x.Inv → (go x).Inv) (h : s.Inv) :
    (requestMade d made go p s).Inv := by
  unfold requestMade; dsimp only
  split
  · exact h
  · split
    · exact runAccepted_inv d go p hg h
    · split
      · exact Inv.of_clock (creditViolation_clock ..) h
      · split
        · exact Inv.of_clock (waitCopy_clock ..) h
        · exact Inv.of_clock (copyReply_clock ..) h
        · exact Inv.of_clock (answerReused_clock ..) h
        · exact runAccepted_inv d go p hg (Inv.of_clock (acceptPacket_clock ..) h)
theorem serve_inv (d accept run p) {s : State} (hr : ∀ x : State, x.Inv → (run p x).s.Inv) (h : s.Inv) : (serve d accept run p s).Inv := by
  unfold serve; dsimp only
  split
  · exact Inv.of_clock (by simp) h
  · split
    · exact Inv.of_clock (by simp) h
    · exact Inv.of_clock (replyTo_clock ..) (hr _ h)
theorem startEpoch_inv (r) {s : State} (h : s.Inv) : (startEpoch r s).Inv := by
  unfold startEpoch; split
  · exact loadDt_inv _ (Inv.of_clock (modTimeRegs_clock ..) h)
  · exact loadDt_inv _ (Inv.of_clock (modTimeRegs_clock ..) h)
theorem frameTime_inv (port f) {s : State} (h : s.Inv) : (frameTime port f s).Inv := by
  unfold frameTime; split
  · exact loadDt_inv _ h
  · split
    · exact h
    · extract_lets s1 ps delay s2
      have h1 : s1.Inv := Inv.of_clock (modTimeRegs_clock ..) h
      split
      · exact Inv.of_clock ((measure_clock ..).trans (drawn_clock _)) h1
      · exact Inv.of_clock ((enterTimeState_clock ..).trans (modTime_clock ..)) (loadDt_inv _ h1)

end Sys2Proof.Machine
end

