-- ==== Sys2Proof/Laws/Memory.lean ====
section
/-! SUPPORT. The memory operations keep the canonical form, a byte written is read back, and every other byte reads as before. -/

namespace Sys2Proof.Machine

theorem memWfFrom_mono {lo lo' : Nat} (h : lo' ≤ lo) : ∀ {m : Mem}, memWfFrom lo m = true → memWfFrom lo' m = true
  | [], _ => rfl
  | (k, v) :: m, hm => by
    simp only [memWfFrom, Bool.and_eq_true, decide_eq_true_eq] at hm ⊢
    exact ⟨⟨by omega, hm.1.2⟩, hm.2⟩

/-- Every byte below the first listed address reads 0. -/
theorem memByte_below {a lo : Nat} (h : a < lo) : ∀ {m : Mem}, memWfFrom lo m = true → memByte m a = 0
  | [], _ => rfl
  | (k, v) :: m, hm => by
    simp only [memWfFrom, Bool.and_eq_true, decide_eq_true_eq] at hm
    have hk : k ≠ a := by omega
    simp only [memByte, hk, if_false]
    exact memByte_below (lo := k + 1) (by omega) hm.2

theorem memPut_wfFrom {lo a : Nat} {v : BitVec 8} (h : lo ≤ a) :
    ∀ {m : Mem}, memWfFrom lo m = true → memWfFrom lo (memPut m a v) = true
  | [], _ => by
    simp only [memPut]
    split
    · rfl
    · next hv =>
      simp only [memWfFrom, Bool.and_eq_true, decide_eq_true_eq, and_true]
      exact ⟨h, hv⟩
  | (k, w) :: m, hm => by
    simp only [memWfFrom, Bool.and_eq_true, decide_eq_true_eq] at hm
    simp only [memPut]
    split
    · simp only [memWfFrom, Bool.and_eq_true, decide_eq_true_eq]
      exact ⟨hm.1, memPut_wfFrom (by omega) hm.2⟩
    · split
      · split
        · exact memWfFrom_mono (by omega) hm.2
        · next hk hv =>
          simp only [memWfFrom, Bool.and_eq_true, decide_eq_true_eq]
          exact ⟨⟨h, hv⟩, by subst hk; exact hm.2⟩
      · split
        · simp only [memWfFrom, Bool.and_eq_true, decide_eq_true_eq]
          exact hm
        · next hv =>
          simp only [memWfFrom, Bool.and_eq_true, decide_eq_true_eq]
          exact ⟨⟨h, hv⟩, ⟨by omega, hm.1.2⟩, hm.2⟩

/-- A write of one byte keeps the canonical form. -/
theorem memPut_wf {m : Mem} (a : Nat) (v : BitVec 8) (h : memWf m = true) : memWf (memPut m a v) = true :=
  memPut_wfFrom (Nat.zero_le a) h

theorem memPutWord_wf {m : Mem} (a : Nat) (v : Word) (h : memWf m = true) : memWf (memPutWord m a v) = true :=
  memPut_wf _ _ (memPut_wf _ _ (memPut_wf _ _ (memPut_wf _ _ h)))

/-- A write of one byte leaves every other byte as it was. -/
theorem memByte_memPut_ne {a b : Nat} {v : BitVec 8} (h : b ≠ a) : ∀ {m : Mem}, memByte (memPut m a v) b = memByte m b
  | [] => by
    simp only [memPut]
    split
    · rfl
    · simp [memByte, h.symm]
  | (k, w) :: m => by
    simp only [memPut]
    split
    · simp only [memByte]
      split
      · rfl
      · exact memByte_memPut_ne h
    · split
      · next hk =>
        subst hk
        split <;> simp [memByte, h.symm]
      · split
        · rfl
        · simp [memByte, h.symm]

theorem memByte_memPut_self_from {a lo : Nat} {v : BitVec 8} :
    ∀ {m : Mem}, memWfFrom lo m = true → memByte (memPut m a v) a = v
  | [], _ => by
    simp only [memPut]
    split
    · next hv => simp [memByte, hv]
    · simp [memByte]
  | (k, w) :: m, hm => by
    simp only [memWfFrom, Bool.and_eq_true, decide_eq_true_eq] at hm
    simp only [memPut]
    split
    · next hk =>
      have : k ≠ a := by omega
      simp only [memByte, this, if_false]
      exact memByte_memPut_self_from hm.2
    · split
      · next hk =>
        split
        · next hv => rw [hv]; exact memByte_below (lo := k + 1) (by omega) hm.2
        · simp [memByte]
      · split
        · next hlt hk hv =>
          rw [hv]
          exact memByte_below (lo := k) (by omega) (m := (k, w) :: m) (by
            simp only [memWfFrom, Bool.and_eq_true, decide_eq_true_eq]
            exact ⟨⟨Nat.le_refl k, hm.1.2⟩, hm.2⟩)
        · simp [memByte]

/-- The byte written is read back. -/
theorem memByte_memPut_self {m : Mem} {a : Nat} {v : BitVec 8} (h : memWf m = true) : memByte (memPut m a v) a = v :=
  memByte_memPut_self_from h

end Sys2Proof.Machine
end

