-- ==== Sys2Proof/Laws/Ocp.lean ====
section
/-! SUPPORT. A request command is its packet's request, a staging command its packet's staging request; a packet of a new
sequence number within its credits is accepted. -/

namespace Sys2Proof.Machine

theorem exec_request {c : Instr} {r : Request} (h : requestOf c = some r) (s : State) :
    exec c s = .next (request r.d r.accept r.run r.p s) := by
  cases c <;> first | (injection h with h; subst h; rfl) | cases h

theorem exec_stage {c : Instr} {r : StageRequest} (h : stageOf c = some r) (s : State) :
    exec c s = .next (stageRequest r.o r.p s) := by
  cases c <;> first | (injection h with h; subst h; rfl) | cases h

/-- The row of a staging command is the one that its operation code names. -/
theorem stageOf_find {c : Instr} {r : StageRequest} (h : stageOf c = some r) : stageOpOf r.o.d.op = some r.o := by
  cases c <;> first | (injection h with h; subst h; rfl) | cases h

/-- A sequence number that the session's history does not hold is new to it. -/
theorem arrival_fresh {p : Packet} {s : State} (h : (s.ocp.sessions[p.session].hist.all fun h => h.seq ≠ p.seq) = true)
    (crc : Word) : arrival s.ocp.sessions[p.session] p.seq crc = .fresh := by
  have h0 (l : List HistEntry) (hl : ∀ x ∈ l, x ∈ s.ocp.sessions[p.session].hist) (f : HistEntry → Bool)
      (hf : ∀ x, f x = true → x.seq = p.seq) : l.any f = false := by
    rw [List.any_eq_false]
    intro x hx hfx
    have := List.all_eq_true.mp h x (hl x hx)
    simp [hf x hfx] at this
  have ha (x : HistEntry) (hx : awaits p.seq crc x = true) : x.seq = p.seq := by
    simp [awaits] at hx; exact hx.1.1
  have hs (x : HistEntry) (hx : x ∈ s.ocp.sessions[p.session].hist.filter fun h => !h.orphan) :
      x ∈ s.ocp.sessions[p.session].hist := (List.mem_filter.mp hx).1
  unfold arrival
  extract_lets live
  have h3 : live.find? (fun h => h.seq = p.seq && h.crc = crc) = none := by
    rw [List.find?_eq_none]
    intro x hx hc
    simp at hc
    have := List.all_eq_true.mp h x (hs x hx)
    simp [hc.1] at this
  rw [h0 _ (fun x hx => hx) (fun h => awaits p.seq crc h && !h.begun) (fun x hx => ha x (by simp at hx; exact hx.1)),
    h0 live hs _ ha, h3, h0 live hs (fun h => decide (h.seq = p.seq)) (fun x hx => by simpa using hx)]
  rfl

/-- A fresh packet is accepted and served. -/
theorem requestMade_fresh {d : OpDesc} {made : Option (BitVec 16 × Packet)} {go : State → State} {p : Packet} {s : State}
    (h : Fresh p s) :
    requestMade d made go p s = runAccepted d go p (acceptPacket d.op p (packetCrc d.op p) made s) := by
  obtain ⟨h1, h2, h3⟩ := h
  have h4 : creditsTaken p.session s = false := by simp [creditsTaken]; omega
  unfold requestMade
  simp only [h1, arrival_fresh h2]
  simp [h4]

end Sys2Proof.Machine
end

