-- ==== Sys2Proof/Laws/State.lean ====
section
/-! SUPPORT. One lemma for each field of State and each update of it, and those of the entry that a vector update changes. -/

namespace Sys2Proof.Machine

@[simp] theorem upd_self {α : Type} {n : Nat} (v : Vector α n) (i : Fin n) (f : α → α) : (upd v i f)[i] = f v[i] := by
  simp [upd]

theorem upd_ne {α : Type} {n : Nat} (v : Vector α n) {i j : Fin n} (f : α → α) (h : j ≠ i) : (upd v i f)[j] = v[j] := by
  have hv : i.val ≠ j.val := fun e => h (Fin.ext e.symm)
  show (v.set i.val _)[j.val] = v[j.val]
  rw [Vector.getElem_set_ne _ _ hv]

@[simp] theorem modTile_pending (t : Fin 16) (f : Tile → Tile) (s : State) : (modTile t f s).pending = s.pending := rfl
@[simp] theorem modTile_freeCtr (t : Fin 16) (f : Tile → Tile) (s : State) : (modTile t f s).freeCtr = s.freeCtr := rfl
@[simp] theorem modTile_genSeed (t : Fin 16) (f : Tile → Tile) (s : State) : (modTile t f s).genSeed = s.genSeed := rfl
@[simp] theorem modTile_dt (t : Fin 16) (f : Tile → Tile) (s : State) : (modTile t f s).dt = s.dt := rfl
@[simp] theorem modTile_events (t : Fin 16) (f : Tile → Tile) (s : State) : (modTile t f s).events = s.events := rfl
@[simp] theorem modTile_time (t : Fin 16) (f : Tile → Tile) (s : State) : (modTile t f s).time = s.time := rfl
@[simp] theorem modTile_compares (t : Fin 16) (f : Tile → Tile) (s : State) : (modTile t f s).compares = s.compares := rfl
@[simp] theorem modTile_pps (t : Fin 16) (f : Tile → Tile) (s : State) : (modTile t f s).pps = s.pps := rfl
@[simp] theorem modTile_stage (t : Fin 16) (f : Tile → Tile) (s : State) : (modTile t f s).stage = s.stage := rfl
@[simp] theorem modTile_ocp (t : Fin 16) (f : Tile → Tile) (s : State) : (modTile t f s).ocp = s.ocp := rfl
@[simp] theorem modTile_cyclic (t : Fin 16) (f : Tile → Tile) (s : State) : (modTile t f s).cyclic = s.cyclic := rfl
@[simp] theorem modTile_link (t : Fin 16) (f : Tile → Tile) (s : State) : (modTile t f s).link = s.link := rfl
@[simp] theorem modTile_slots (t : Fin 16) (f : Tile → Tile) (s : State) : (modTile t f s).slots = s.slots := rfl
@[simp] theorem modTile_axes (t : Fin 16) (f : Tile → Tile) (s : State) : (modTile t f s).axes = s.axes := rfl
@[simp] theorem modTile_cams (t : Fin 16) (f : Tile → Tile) (s : State) : (modTile t f s).cams = s.cams := rfl
@[simp] theorem modTile_loops (t : Fin 16) (f : Tile → Tile) (s : State) : (modTile t f s).loops = s.loops := rfl
@[simp] theorem modTile_traces (t : Fin 16) (f : Tile → Tile) (s : State) : (modTile t f s).traces = s.traces := rfl
@[simp] theorem modTile_acq (t : Fin 16) (f : Tile → Tile) (s : State) : (modTile t f s).acq = s.acq := rfl
@[simp] theorem modTile_portMem (t : Fin 16) (f : Tile → Tile) (s : State) : (modTile t f s).portMem = s.portMem := rfl
@[simp] theorem modTile_engines (t : Fin 16) (f : Tile → Tile) (s : State) : (modTile t f s).engines = s.engines := rfl
@[simp] theorem modTile_tiles (t : Fin 16) (f : Tile → Tile) (s : State) : (modTile t f s).tiles = upd s.tiles t f := rfl
@[simp] theorem modTile_policy (t : Fin 16) (f : Tile → Tile) (s : State) : (modTile t f s).policy = s.policy := rfl
@[simp] theorem modTile_dcls (t : Fin 16) (f : Tile → Tile) (s : State) : (modTile t f s).dcls = s.dcls := rfl
@[simp] theorem modTile_sdClks (t : Fin 16) (f : Tile → Tile) (s : State) : (modTile t f s).sdClks = s.sdClks := rfl
@[simp] theorem modTile_sds (t : Fin 16) (f : Tile → Tile) (s : State) : (modTile t f s).sds = s.sds := rfl
@[simp] theorem modTile_encs (t : Fin 16) (f : Tile → Tile) (s : State) : (modTile t f s).encs = s.encs := rfl
@[simp] theorem modTile_geyser (t : Fin 16) (f : Tile → Tile) (s : State) : (modTile t f s).geyser = s.geyser := rfl
@[simp] theorem modTile_caldera (t : Fin 16) (f : Tile → Tile) (s : State) : (modTile t f s).caldera = s.caldera := rfl
@[simp] theorem modTile_fio (t : Fin 16) (f : Tile → Tile) (s : State) : (modTile t f s).fio = s.fio := rfl
@[simp] theorem modTile_cans (t : Fin 16) (f : Tile → Tile) (s : State) : (modTile t f s).cans = s.cans := rfl
@[simp] theorem modTile_power (t : Fin 16) (f : Tile → Tile) (s : State) : (modTile t f s).power = s.power := rfl

@[simp] theorem modAxis_pending (a : Fin 112) (f : Axis → Axis) (s : State) : (modAxis a f s).pending = s.pending := rfl
@[simp] theorem modAxis_freeCtr (a : Fin 112) (f : Axis → Axis) (s : State) : (modAxis a f s).freeCtr = s.freeCtr := rfl
@[simp] theorem modAxis_genSeed (a : Fin 112) (f : Axis → Axis) (s : State) : (modAxis a f s).genSeed = s.genSeed := rfl
@[simp] theorem modAxis_dt (a : Fin 112) (f : Axis → Axis) (s : State) : (modAxis a f s).dt = s.dt := rfl
@[simp] theorem modAxis_events (a : Fin 112) (f : Axis → Axis) (s : State) : (modAxis a f s).events = s.events := rfl
@[simp] theorem modAxis_time (a : Fin 112) (f : Axis → Axis) (s : State) : (modAxis a f s).time = s.time := rfl
@[simp] theorem modAxis_compares (a : Fin 112) (f : Axis → Axis) (s : State) : (modAxis a f s).compares = s.compares := rfl
@[simp] theorem modAxis_pps (a : Fin 112) (f : Axis → Axis) (s : State) : (modAxis a f s).pps = s.pps := rfl
@[simp] theorem modAxis_stage (a : Fin 112) (f : Axis → Axis) (s : State) : (modAxis a f s).stage = s.stage := rfl
@[simp] theorem modAxis_ocp (a : Fin 112) (f : Axis → Axis) (s : State) : (modAxis a f s).ocp = s.ocp := rfl
@[simp] theorem modAxis_cyclic (a : Fin 112) (f : Axis → Axis) (s : State) : (modAxis a f s).cyclic = s.cyclic := rfl
@[simp] theorem modAxis_link (a : Fin 112) (f : Axis → Axis) (s : State) : (modAxis a f s).link = s.link := rfl
@[simp] theorem modAxis_slots (a : Fin 112) (f : Axis → Axis) (s : State) : (modAxis a f s).slots = s.slots := rfl
@[simp] theorem modAxis_axes (a : Fin 112) (f : Axis → Axis) (s : State) : (modAxis a f s).axes = upd s.axes a f := rfl
@[simp] theorem modAxis_cams (a : Fin 112) (f : Axis → Axis) (s : State) : (modAxis a f s).cams = s.cams := rfl
@[simp] theorem modAxis_loops (a : Fin 112) (f : Axis → Axis) (s : State) : (modAxis a f s).loops = s.loops := rfl
@[simp] theorem modAxis_traces (a : Fin 112) (f : Axis → Axis) (s : State) : (modAxis a f s).traces = s.traces := rfl
@[simp] theorem modAxis_acq (a : Fin 112) (f : Axis → Axis) (s : State) : (modAxis a f s).acq = s.acq := rfl
@[simp] theorem modAxis_portMem (a : Fin 112) (f : Axis → Axis) (s : State) : (modAxis a f s).portMem = s.portMem := rfl
@[simp] theorem modAxis_engines (a : Fin 112) (f : Axis → Axis) (s : State) : (modAxis a f s).engines = s.engines := rfl
@[simp] theorem modAxis_tiles (a : Fin 112) (f : Axis → Axis) (s : State) : (modAxis a f s).tiles = s.tiles := rfl
@[simp] theorem modAxis_policy (a : Fin 112) (f : Axis → Axis) (s : State) : (modAxis a f s).policy = s.policy := rfl
@[simp] theorem modAxis_dcls (a : Fin 112) (f : Axis → Axis) (s : State) : (modAxis a f s).dcls = s.dcls := rfl
@[simp] theorem modAxis_sdClks (a : Fin 112) (f : Axis → Axis) (s : State) : (modAxis a f s).sdClks = s.sdClks := rfl
@[simp] theorem modAxis_sds (a : Fin 112) (f : Axis → Axis) (s : State) : (modAxis a f s).sds = s.sds := rfl
@[simp] theorem modAxis_encs (a : Fin 112) (f : Axis → Axis) (s : State) : (modAxis a f s).encs = s.encs := rfl
@[simp] theorem modAxis_geyser (a : Fin 112) (f : Axis → Axis) (s : State) : (modAxis a f s).geyser = s.geyser := rfl
@[simp] theorem modAxis_caldera (a : Fin 112) (f : Axis → Axis) (s : State) : (modAxis a f s).caldera = s.caldera := rfl
@[simp] theorem modAxis_fio (a : Fin 112) (f : Axis → Axis) (s : State) : (modAxis a f s).fio = s.fio := rfl
@[simp] theorem modAxis_cans (a : Fin 112) (f : Axis → Axis) (s : State) : (modAxis a f s).cans = s.cans := rfl
@[simp] theorem modAxis_power (a : Fin 112) (f : Axis → Axis) (s : State) : (modAxis a f s).power = s.power := rfl

@[simp] theorem modLoop_pending (i : Fin 96) (f : Loop → Loop) (s : State) : (modLoop i f s).pending = s.pending := rfl
@[simp] theorem modLoop_freeCtr (i : Fin 96) (f : Loop → Loop) (s : State) : (modLoop i f s).freeCtr = s.freeCtr := rfl
@[simp] theorem modLoop_genSeed (i : Fin 96) (f : Loop → Loop) (s : State) : (modLoop i f s).genSeed = s.genSeed := rfl
@[simp] theorem modLoop_dt (i : Fin 96) (f : Loop → Loop) (s : State) : (modLoop i f s).dt = s.dt := rfl
@[simp] theorem modLoop_events (i : Fin 96) (f : Loop → Loop) (s : State) : (modLoop i f s).events = s.events := rfl
@[simp] theorem modLoop_time (i : Fin 96) (f : Loop → Loop) (s : State) : (modLoop i f s).time = s.time := rfl
@[simp] theorem modLoop_compares (i : Fin 96) (f : Loop → Loop) (s : State) : (modLoop i f s).compares = s.compares := rfl
@[simp] theorem modLoop_pps (i : Fin 96) (f : Loop → Loop) (s : State) : (modLoop i f s).pps = s.pps := rfl
@[simp] theorem modLoop_stage (i : Fin 96) (f : Loop → Loop) (s : State) : (modLoop i f s).stage = s.stage := rfl
@[simp] theorem modLoop_ocp (i : Fin 96) (f : Loop → Loop) (s : State) : (modLoop i f s).ocp = s.ocp := rfl
@[simp] theorem modLoop_cyclic (i : Fin 96) (f : Loop → Loop) (s : State) : (modLoop i f s).cyclic = s.cyclic := rfl
@[simp] theorem modLoop_link (i : Fin 96) (f : Loop → Loop) (s : State) : (modLoop i f s).link = s.link := rfl
@[simp] theorem modLoop_slots (i : Fin 96) (f : Loop → Loop) (s : State) : (modLoop i f s).slots = s.slots := rfl
@[simp] theorem modLoop_axes (i : Fin 96) (f : Loop → Loop) (s : State) : (modLoop i f s).axes = s.axes := rfl
@[simp] theorem modLoop_cams (i : Fin 96) (f : Loop → Loop) (s : State) : (modLoop i f s).cams = s.cams := rfl
@[simp] theorem modLoop_loops (i : Fin 96) (f : Loop → Loop) (s : State) : (modLoop i f s).loops = upd s.loops i f := rfl
@[simp] theorem modLoop_traces (i : Fin 96) (f : Loop → Loop) (s : State) : (modLoop i f s).traces = s.traces := rfl
@[simp] theorem modLoop_acq (i : Fin 96) (f : Loop → Loop) (s : State) : (modLoop i f s).acq = s.acq := rfl
@[simp] theorem modLoop_portMem (i : Fin 96) (f : Loop → Loop) (s : State) : (modLoop i f s).portMem = s.portMem := rfl
@[simp] theorem modLoop_engines (i : Fin 96) (f : Loop → Loop) (s : State) : (modLoop i f s).engines = s.engines := rfl
@[simp] theorem modLoop_tiles (i : Fin 96) (f : Loop → Loop) (s : State) : (modLoop i f s).tiles = s.tiles := rfl
@[simp] theorem modLoop_policy (i : Fin 96) (f : Loop → Loop) (s : State) : (modLoop i f s).policy = s.policy := rfl
@[simp] theorem modLoop_dcls (i : Fin 96) (f : Loop → Loop) (s : State) : (modLoop i f s).dcls = s.dcls := rfl
@[simp] theorem modLoop_sdClks (i : Fin 96) (f : Loop → Loop) (s : State) : (modLoop i f s).sdClks = s.sdClks := rfl
@[simp] theorem modLoop_sds (i : Fin 96) (f : Loop → Loop) (s : State) : (modLoop i f s).sds = s.sds := rfl
@[simp] theorem modLoop_encs (i : Fin 96) (f : Loop → Loop) (s : State) : (modLoop i f s).encs = s.encs := rfl
@[simp] theorem modLoop_geyser (i : Fin 96) (f : Loop → Loop) (s : State) : (modLoop i f s).geyser = s.geyser := rfl
@[simp] theorem modLoop_caldera (i : Fin 96) (f : Loop → Loop) (s : State) : (modLoop i f s).caldera = s.caldera := rfl
@[simp] theorem modLoop_fio (i : Fin 96) (f : Loop → Loop) (s : State) : (modLoop i f s).fio = s.fio := rfl
@[simp] theorem modLoop_cans (i : Fin 96) (f : Loop → Loop) (s : State) : (modLoop i f s).cans = s.cans := rfl
@[simp] theorem modLoop_power (i : Fin 96) (f : Loop → Loop) (s : State) : (modLoop i f s).power = s.power := rfl

@[simp] theorem modEngine_pending (e : Fin 32) (f : Engine → Engine) (s : State) : (modEngine e f s).pending = s.pending := rfl
@[simp] theorem modEngine_freeCtr (e : Fin 32) (f : Engine → Engine) (s : State) : (modEngine e f s).freeCtr = s.freeCtr := rfl
@[simp] theorem modEngine_genSeed (e : Fin 32) (f : Engine → Engine) (s : State) : (modEngine e f s).genSeed = s.genSeed := rfl
@[simp] theorem modEngine_dt (e : Fin 32) (f : Engine → Engine) (s : State) : (modEngine e f s).dt = s.dt := rfl
@[simp] theorem modEngine_events (e : Fin 32) (f : Engine → Engine) (s : State) : (modEngine e f s).events = s.events := rfl
@[simp] theorem modEngine_time (e : Fin 32) (f : Engine → Engine) (s : State) : (modEngine e f s).time = s.time := rfl
@[simp] theorem modEngine_compares (e : Fin 32) (f : Engine → Engine) (s : State) : (modEngine e f s).compares = s.compares := rfl
@[simp] theorem modEngine_pps (e : Fin 32) (f : Engine → Engine) (s : State) : (modEngine e f s).pps = s.pps := rfl
@[simp] theorem modEngine_stage (e : Fin 32) (f : Engine → Engine) (s : State) : (modEngine e f s).stage = s.stage := rfl
@[simp] theorem modEngine_ocp (e : Fin 32) (f : Engine → Engine) (s : State) : (modEngine e f s).ocp = s.ocp := rfl
@[simp] theorem modEngine_cyclic (e : Fin 32) (f : Engine → Engine) (s : State) : (modEngine e f s).cyclic = s.cyclic := rfl
@[simp] theorem modEngine_link (e : Fin 32) (f : Engine → Engine) (s : State) : (modEngine e f s).link = s.link := rfl
@[simp] theorem modEngine_slots (e : Fin 32) (f : Engine → Engine) (s : State) : (modEngine e f s).slots = s.slots := rfl
@[simp] theorem modEngine_axes (e : Fin 32) (f : Engine → Engine) (s : State) : (modEngine e f s).axes = s.axes := rfl
@[simp] theorem modEngine_cams (e : Fin 32) (f : Engine → Engine) (s : State) : (modEngine e f s).cams = s.cams := rfl
@[simp] theorem modEngine_loops (e : Fin 32) (f : Engine → Engine) (s : State) : (modEngine e f s).loops = s.loops := rfl
@[simp] theorem modEngine_traces (e : Fin 32) (f : Engine → Engine) (s : State) : (modEngine e f s).traces = s.traces := rfl
@[simp] theorem modEngine_acq (e : Fin 32) (f : Engine → Engine) (s : State) : (modEngine e f s).acq = s.acq := rfl
@[simp] theorem modEngine_portMem (e : Fin 32) (f : Engine → Engine) (s : State) : (modEngine e f s).portMem = s.portMem := rfl
@[simp] theorem modEngine_engines (e : Fin 32) (f : Engine → Engine) (s : State) : (modEngine e f s).engines = upd s.engines e f := rfl
@[simp] theorem modEngine_tiles (e : Fin 32) (f : Engine → Engine) (s : State) : (modEngine e f s).tiles = s.tiles := rfl
@[simp] theorem modEngine_policy (e : Fin 32) (f : Engine → Engine) (s : State) : (modEngine e f s).policy = s.policy := rfl
@[simp] theorem modEngine_dcls (e : Fin 32) (f : Engine → Engine) (s : State) : (modEngine e f s).dcls = s.dcls := rfl
@[simp] theorem modEngine_sdClks (e : Fin 32) (f : Engine → Engine) (s : State) : (modEngine e f s).sdClks = s.sdClks := rfl
@[simp] theorem modEngine_sds (e : Fin 32) (f : Engine → Engine) (s : State) : (modEngine e f s).sds = s.sds := rfl
@[simp] theorem modEngine_encs (e : Fin 32) (f : Engine → Engine) (s : State) : (modEngine e f s).encs = s.encs := rfl
@[simp] theorem modEngine_geyser (e : Fin 32) (f : Engine → Engine) (s : State) : (modEngine e f s).geyser = s.geyser := rfl
@[simp] theorem modEngine_caldera (e : Fin 32) (f : Engine → Engine) (s : State) : (modEngine e f s).caldera = s.caldera := rfl
@[simp] theorem modEngine_fio (e : Fin 32) (f : Engine → Engine) (s : State) : (modEngine e f s).fio = s.fio := rfl
@[simp] theorem modEngine_cans (e : Fin 32) (f : Engine → Engine) (s : State) : (modEngine e f s).cans = s.cans := rfl
@[simp] theorem modEngine_power (e : Fin 32) (f : Engine → Engine) (s : State) : (modEngine e f s).power = s.power := rfl

@[simp] theorem modSlot_pending (i : Fin 32) (f : Slot → Slot) (s : State) : (modSlot i f s).pending = s.pending := rfl
@[simp] theorem modSlot_freeCtr (i : Fin 32) (f : Slot → Slot) (s : State) : (modSlot i f s).freeCtr = s.freeCtr := rfl
@[simp] theorem modSlot_genSeed (i : Fin 32) (f : Slot → Slot) (s : State) : (modSlot i f s).genSeed = s.genSeed := rfl
@[simp] theorem modSlot_dt (i : Fin 32) (f : Slot → Slot) (s : State) : (modSlot i f s).dt = s.dt := rfl
@[simp] theorem modSlot_events (i : Fin 32) (f : Slot → Slot) (s : State) : (modSlot i f s).events = s.events := rfl
@[simp] theorem modSlot_time (i : Fin 32) (f : Slot → Slot) (s : State) : (modSlot i f s).time = s.time := rfl
@[simp] theorem modSlot_compares (i : Fin 32) (f : Slot → Slot) (s : State) : (modSlot i f s).compares = s.compares := rfl
@[simp] theorem modSlot_pps (i : Fin 32) (f : Slot → Slot) (s : State) : (modSlot i f s).pps = s.pps := rfl
@[simp] theorem modSlot_stage (i : Fin 32) (f : Slot → Slot) (s : State) : (modSlot i f s).stage = s.stage := rfl
@[simp] theorem modSlot_ocp (i : Fin 32) (f : Slot → Slot) (s : State) : (modSlot i f s).ocp = s.ocp := rfl
@[simp] theorem modSlot_cyclic (i : Fin 32) (f : Slot → Slot) (s : State) : (modSlot i f s).cyclic = s.cyclic := rfl
@[simp] theorem modSlot_link (i : Fin 32) (f : Slot → Slot) (s : State) : (modSlot i f s).link = s.link := rfl
@[simp] theorem modSlot_slots (i : Fin 32) (f : Slot → Slot) (s : State) : (modSlot i f s).slots = upd s.slots i f := rfl
@[simp] theorem modSlot_axes (i : Fin 32) (f : Slot → Slot) (s : State) : (modSlot i f s).axes = s.axes := rfl
@[simp] theorem modSlot_cams (i : Fin 32) (f : Slot → Slot) (s : State) : (modSlot i f s).cams = s.cams := rfl
@[simp] theorem modSlot_loops (i : Fin 32) (f : Slot → Slot) (s : State) : (modSlot i f s).loops = s.loops := rfl
@[simp] theorem modSlot_traces (i : Fin 32) (f : Slot → Slot) (s : State) : (modSlot i f s).traces = s.traces := rfl
@[simp] theorem modSlot_acq (i : Fin 32) (f : Slot → Slot) (s : State) : (modSlot i f s).acq = s.acq := rfl
@[simp] theorem modSlot_portMem (i : Fin 32) (f : Slot → Slot) (s : State) : (modSlot i f s).portMem = s.portMem := rfl
@[simp] theorem modSlot_engines (i : Fin 32) (f : Slot → Slot) (s : State) : (modSlot i f s).engines = s.engines := rfl
@[simp] theorem modSlot_tiles (i : Fin 32) (f : Slot → Slot) (s : State) : (modSlot i f s).tiles = s.tiles := rfl
@[simp] theorem modSlot_policy (i : Fin 32) (f : Slot → Slot) (s : State) : (modSlot i f s).policy = s.policy := rfl
@[simp] theorem modSlot_dcls (i : Fin 32) (f : Slot → Slot) (s : State) : (modSlot i f s).dcls = s.dcls := rfl
@[simp] theorem modSlot_sdClks (i : Fin 32) (f : Slot → Slot) (s : State) : (modSlot i f s).sdClks = s.sdClks := rfl
@[simp] theorem modSlot_sds (i : Fin 32) (f : Slot → Slot) (s : State) : (modSlot i f s).sds = s.sds := rfl
@[simp] theorem modSlot_encs (i : Fin 32) (f : Slot → Slot) (s : State) : (modSlot i f s).encs = s.encs := rfl
@[simp] theorem modSlot_geyser (i : Fin 32) (f : Slot → Slot) (s : State) : (modSlot i f s).geyser = s.geyser := rfl
@[simp] theorem modSlot_caldera (i : Fin 32) (f : Slot → Slot) (s : State) : (modSlot i f s).caldera = s.caldera := rfl
@[simp] theorem modSlot_fio (i : Fin 32) (f : Slot → Slot) (s : State) : (modSlot i f s).fio = s.fio := rfl
@[simp] theorem modSlot_cans (i : Fin 32) (f : Slot → Slot) (s : State) : (modSlot i f s).cans = s.cans := rfl
@[simp] theorem modSlot_power (i : Fin 32) (f : Slot → Slot) (s : State) : (modSlot i f s).power = s.power := rfl

@[simp] theorem modSession_pending (i : Fin 80) (f : Session → Session) (s : State) : (modSession i f s).pending = s.pending := rfl
@[simp] theorem modSession_freeCtr (i : Fin 80) (f : Session → Session) (s : State) : (modSession i f s).freeCtr = s.freeCtr := rfl
@[simp] theorem modSession_genSeed (i : Fin 80) (f : Session → Session) (s : State) : (modSession i f s).genSeed = s.genSeed := rfl
@[simp] theorem modSession_dt (i : Fin 80) (f : Session → Session) (s : State) : (modSession i f s).dt = s.dt := rfl
@[simp] theorem modSession_events (i : Fin 80) (f : Session → Session) (s : State) : (modSession i f s).events = s.events := rfl
@[simp] theorem modSession_time (i : Fin 80) (f : Session → Session) (s : State) : (modSession i f s).time = s.time := rfl
@[simp] theorem modSession_compares (i : Fin 80) (f : Session → Session) (s : State) : (modSession i f s).compares = s.compares := rfl
@[simp] theorem modSession_pps (i : Fin 80) (f : Session → Session) (s : State) : (modSession i f s).pps = s.pps := rfl
@[simp] theorem modSession_stage (i : Fin 80) (f : Session → Session) (s : State) : (modSession i f s).stage = s.stage := rfl
@[simp] theorem modSession_ocp (i : Fin 80) (f : Session → Session) (s : State) : (modSession i f s).ocp = { s.ocp with sessions := upd s.ocp.sessions i f } := rfl
@[simp] theorem modSession_cyclic (i : Fin 80) (f : Session → Session) (s : State) : (modSession i f s).cyclic = s.cyclic := rfl
@[simp] theorem modSession_link (i : Fin 80) (f : Session → Session) (s : State) : (modSession i f s).link = s.link := rfl
@[simp] theorem modSession_slots (i : Fin 80) (f : Session → Session) (s : State) : (modSession i f s).slots = s.slots := rfl
@[simp] theorem modSession_axes (i : Fin 80) (f : Session → Session) (s : State) : (modSession i f s).axes = s.axes := rfl
@[simp] theorem modSession_cams (i : Fin 80) (f : Session → Session) (s : State) : (modSession i f s).cams = s.cams := rfl
@[simp] theorem modSession_loops (i : Fin 80) (f : Session → Session) (s : State) : (modSession i f s).loops = s.loops := rfl
@[simp] theorem modSession_traces (i : Fin 80) (f : Session → Session) (s : State) : (modSession i f s).traces = s.traces := rfl
@[simp] theorem modSession_acq (i : Fin 80) (f : Session → Session) (s : State) : (modSession i f s).acq = s.acq := rfl
@[simp] theorem modSession_portMem (i : Fin 80) (f : Session → Session) (s : State) : (modSession i f s).portMem = s.portMem := rfl
@[simp] theorem modSession_engines (i : Fin 80) (f : Session → Session) (s : State) : (modSession i f s).engines = s.engines := rfl
@[simp] theorem modSession_tiles (i : Fin 80) (f : Session → Session) (s : State) : (modSession i f s).tiles = s.tiles := rfl
@[simp] theorem modSession_policy (i : Fin 80) (f : Session → Session) (s : State) : (modSession i f s).policy = s.policy := rfl
@[simp] theorem modSession_dcls (i : Fin 80) (f : Session → Session) (s : State) : (modSession i f s).dcls = s.dcls := rfl
@[simp] theorem modSession_sdClks (i : Fin 80) (f : Session → Session) (s : State) : (modSession i f s).sdClks = s.sdClks := rfl
@[simp] theorem modSession_sds (i : Fin 80) (f : Session → Session) (s : State) : (modSession i f s).sds = s.sds := rfl
@[simp] theorem modSession_encs (i : Fin 80) (f : Session → Session) (s : State) : (modSession i f s).encs = s.encs := rfl
@[simp] theorem modSession_geyser (i : Fin 80) (f : Session → Session) (s : State) : (modSession i f s).geyser = s.geyser := rfl
@[simp] theorem modSession_caldera (i : Fin 80) (f : Session → Session) (s : State) : (modSession i f s).caldera = s.caldera := rfl
@[simp] theorem modSession_fio (i : Fin 80) (f : Session → Session) (s : State) : (modSession i f s).fio = s.fio := rfl
@[simp] theorem modSession_cans (i : Fin 80) (f : Session → Session) (s : State) : (modSession i f s).cans = s.cans := rfl
@[simp] theorem modSession_power (i : Fin 80) (f : Session → Session) (s : State) : (modSession i f s).power = s.power := rfl

@[simp] theorem modPort_pending (i : Fin 4) (f : Port → Port) (s : State) : (modPort i f s).pending = s.pending := rfl
@[simp] theorem modPort_freeCtr (i : Fin 4) (f : Port → Port) (s : State) : (modPort i f s).freeCtr = s.freeCtr := rfl
@[simp] theorem modPort_genSeed (i : Fin 4) (f : Port → Port) (s : State) : (modPort i f s).genSeed = s.genSeed := rfl
@[simp] theorem modPort_dt (i : Fin 4) (f : Port → Port) (s : State) : (modPort i f s).dt = s.dt := rfl
@[simp] theorem modPort_events (i : Fin 4) (f : Port → Port) (s : State) : (modPort i f s).events = s.events := rfl
@[simp] theorem modPort_time (i : Fin 4) (f : Port → Port) (s : State) : (modPort i f s).time = s.time := rfl
@[simp] theorem modPort_compares (i : Fin 4) (f : Port → Port) (s : State) : (modPort i f s).compares = s.compares := rfl
@[simp] theorem modPort_pps (i : Fin 4) (f : Port → Port) (s : State) : (modPort i f s).pps = s.pps := rfl
@[simp] theorem modPort_stage (i : Fin 4) (f : Port → Port) (s : State) : (modPort i f s).stage = s.stage := rfl
@[simp] theorem modPort_ocp (i : Fin 4) (f : Port → Port) (s : State) : (modPort i f s).ocp = s.ocp := rfl
@[simp] theorem modPort_cyclic (i : Fin 4) (f : Port → Port) (s : State) : (modPort i f s).cyclic = s.cyclic := rfl
@[simp] theorem modPort_link (i : Fin 4) (f : Port → Port) (s : State) : (modPort i f s).link = { s.link with ports := upd s.link.ports i f } := rfl
@[simp] theorem modPort_slots (i : Fin 4) (f : Port → Port) (s : State) : (modPort i f s).slots = s.slots := rfl
@[simp] theorem modPort_axes (i : Fin 4) (f : Port → Port) (s : State) : (modPort i f s).axes = s.axes := rfl
@[simp] theorem modPort_cams (i : Fin 4) (f : Port → Port) (s : State) : (modPort i f s).cams = s.cams := rfl
@[simp] theorem modPort_loops (i : Fin 4) (f : Port → Port) (s : State) : (modPort i f s).loops = s.loops := rfl
@[simp] theorem modPort_traces (i : Fin 4) (f : Port → Port) (s : State) : (modPort i f s).traces = s.traces := rfl
@[simp] theorem modPort_acq (i : Fin 4) (f : Port → Port) (s : State) : (modPort i f s).acq = s.acq := rfl
@[simp] theorem modPort_portMem (i : Fin 4) (f : Port → Port) (s : State) : (modPort i f s).portMem = s.portMem := rfl
@[simp] theorem modPort_engines (i : Fin 4) (f : Port → Port) (s : State) : (modPort i f s).engines = s.engines := rfl
@[simp] theorem modPort_tiles (i : Fin 4) (f : Port → Port) (s : State) : (modPort i f s).tiles = s.tiles := rfl
@[simp] theorem modPort_policy (i : Fin 4) (f : Port → Port) (s : State) : (modPort i f s).policy = s.policy := rfl
@[simp] theorem modPort_dcls (i : Fin 4) (f : Port → Port) (s : State) : (modPort i f s).dcls = s.dcls := rfl
@[simp] theorem modPort_sdClks (i : Fin 4) (f : Port → Port) (s : State) : (modPort i f s).sdClks = s.sdClks := rfl
@[simp] theorem modPort_sds (i : Fin 4) (f : Port → Port) (s : State) : (modPort i f s).sds = s.sds := rfl
@[simp] theorem modPort_encs (i : Fin 4) (f : Port → Port) (s : State) : (modPort i f s).encs = s.encs := rfl
@[simp] theorem modPort_geyser (i : Fin 4) (f : Port → Port) (s : State) : (modPort i f s).geyser = s.geyser := rfl
@[simp] theorem modPort_caldera (i : Fin 4) (f : Port → Port) (s : State) : (modPort i f s).caldera = s.caldera := rfl
@[simp] theorem modPort_fio (i : Fin 4) (f : Port → Port) (s : State) : (modPort i f s).fio = s.fio := rfl
@[simp] theorem modPort_cans (i : Fin 4) (f : Port → Port) (s : State) : (modPort i f s).cans = s.cans := rfl
@[simp] theorem modPort_power (i : Fin 4) (f : Port → Port) (s : State) : (modPort i f s).power = s.power := rfl

@[simp] theorem modCompare_pending (u : Fin 16) (f : CompareUnit → CompareUnit) (s : State) : (modCompare u f s).pending = s.pending := rfl
@[simp] theorem modCompare_freeCtr (u : Fin 16) (f : CompareUnit → CompareUnit) (s : State) : (modCompare u f s).freeCtr = s.freeCtr := rfl
@[simp] theorem modCompare_genSeed (u : Fin 16) (f : CompareUnit → CompareUnit) (s : State) : (modCompare u f s).genSeed = s.genSeed := rfl
@[simp] theorem modCompare_dt (u : Fin 16) (f : CompareUnit → CompareUnit) (s : State) : (modCompare u f s).dt = s.dt := rfl
@[simp] theorem modCompare_events (u : Fin 16) (f : CompareUnit → CompareUnit) (s : State) : (modCompare u f s).events = s.events := rfl
@[simp] theorem modCompare_time (u : Fin 16) (f : CompareUnit → CompareUnit) (s : State) : (modCompare u f s).time = s.time := rfl
@[simp] theorem modCompare_compares (u : Fin 16) (f : CompareUnit → CompareUnit) (s : State) : (modCompare u f s).compares = upd s.compares u f := rfl
@[simp] theorem modCompare_pps (u : Fin 16) (f : CompareUnit → CompareUnit) (s : State) : (modCompare u f s).pps = s.pps := rfl
@[simp] theorem modCompare_stage (u : Fin 16) (f : CompareUnit → CompareUnit) (s : State) : (modCompare u f s).stage = s.stage := rfl
@[simp] theorem modCompare_ocp (u : Fin 16) (f : CompareUnit → CompareUnit) (s : State) : (modCompare u f s).ocp = s.ocp := rfl
@[simp] theorem modCompare_cyclic (u : Fin 16) (f : CompareUnit → CompareUnit) (s : State) : (modCompare u f s).cyclic = s.cyclic := rfl
@[simp] theorem modCompare_link (u : Fin 16) (f : CompareUnit → CompareUnit) (s : State) : (modCompare u f s).link = s.link := rfl
@[simp] theorem modCompare_slots (u : Fin 16) (f : CompareUnit → CompareUnit) (s : State) : (modCompare u f s).slots = s.slots := rfl
@[simp] theorem modCompare_axes (u : Fin 16) (f : CompareUnit → CompareUnit) (s : State) : (modCompare u f s).axes = s.axes := rfl
@[simp] theorem modCompare_cams (u : Fin 16) (f : CompareUnit → CompareUnit) (s : State) : (modCompare u f s).cams = s.cams := rfl
@[simp] theorem modCompare_loops (u : Fin 16) (f : CompareUnit → CompareUnit) (s : State) : (modCompare u f s).loops = s.loops := rfl
@[simp] theorem modCompare_traces (u : Fin 16) (f : CompareUnit → CompareUnit) (s : State) : (modCompare u f s).traces = s.traces := rfl
@[simp] theorem modCompare_acq (u : Fin 16) (f : CompareUnit → CompareUnit) (s : State) : (modCompare u f s).acq = s.acq := rfl
@[simp] theorem modCompare_portMem (u : Fin 16) (f : CompareUnit → CompareUnit) (s : State) : (modCompare u f s).portMem = s.portMem := rfl
@[simp] theorem modCompare_engines (u : Fin 16) (f : CompareUnit → CompareUnit) (s : State) : (modCompare u f s).engines = s.engines := rfl
@[simp] theorem modCompare_tiles (u : Fin 16) (f : CompareUnit → CompareUnit) (s : State) : (modCompare u f s).tiles = s.tiles := rfl
@[simp] theorem modCompare_policy (u : Fin 16) (f : CompareUnit → CompareUnit) (s : State) : (modCompare u f s).policy = s.policy := rfl
@[simp] theorem modCompare_dcls (u : Fin 16) (f : CompareUnit → CompareUnit) (s : State) : (modCompare u f s).dcls = s.dcls := rfl
@[simp] theorem modCompare_sdClks (u : Fin 16) (f : CompareUnit → CompareUnit) (s : State) : (modCompare u f s).sdClks = s.sdClks := rfl
@[simp] theorem modCompare_sds (u : Fin 16) (f : CompareUnit → CompareUnit) (s : State) : (modCompare u f s).sds = s.sds := rfl
@[simp] theorem modCompare_encs (u : Fin 16) (f : CompareUnit → CompareUnit) (s : State) : (modCompare u f s).encs = s.encs := rfl
@[simp] theorem modCompare_geyser (u : Fin 16) (f : CompareUnit → CompareUnit) (s : State) : (modCompare u f s).geyser = s.geyser := rfl
@[simp] theorem modCompare_caldera (u : Fin 16) (f : CompareUnit → CompareUnit) (s : State) : (modCompare u f s).caldera = s.caldera := rfl
@[simp] theorem modCompare_fio (u : Fin 16) (f : CompareUnit → CompareUnit) (s : State) : (modCompare u f s).fio = s.fio := rfl
@[simp] theorem modCompare_cans (u : Fin 16) (f : CompareUnit → CompareUnit) (s : State) : (modCompare u f s).cans = s.cans := rfl
@[simp] theorem modCompare_power (u : Fin 16) (f : CompareUnit → CompareUnit) (s : State) : (modCompare u f s).power = s.power := rfl

@[simp] theorem modPps_pending (n : Fin 8) (f : PulseOut → PulseOut) (s : State) : (modPps n f s).pending = s.pending := rfl
@[simp] theorem modPps_freeCtr (n : Fin 8) (f : PulseOut → PulseOut) (s : State) : (modPps n f s).freeCtr = s.freeCtr := rfl
@[simp] theorem modPps_genSeed (n : Fin 8) (f : PulseOut → PulseOut) (s : State) : (modPps n f s).genSeed = s.genSeed := rfl
@[simp] theorem modPps_dt (n : Fin 8) (f : PulseOut → PulseOut) (s : State) : (modPps n f s).dt = s.dt := rfl
@[simp] theorem modPps_events (n : Fin 8) (f : PulseOut → PulseOut) (s : State) : (modPps n f s).events = s.events := rfl
@[simp] theorem modPps_time (n : Fin 8) (f : PulseOut → PulseOut) (s : State) : (modPps n f s).time = s.time := rfl
@[simp] theorem modPps_compares (n : Fin 8) (f : PulseOut → PulseOut) (s : State) : (modPps n f s).compares = s.compares := rfl
@[simp] theorem modPps_pps (n : Fin 8) (f : PulseOut → PulseOut) (s : State) : (modPps n f s).pps = upd s.pps n f := rfl
@[simp] theorem modPps_stage (n : Fin 8) (f : PulseOut → PulseOut) (s : State) : (modPps n f s).stage = s.stage := rfl
@[simp] theorem modPps_ocp (n : Fin 8) (f : PulseOut → PulseOut) (s : State) : (modPps n f s).ocp = s.ocp := rfl
@[simp] theorem modPps_cyclic (n : Fin 8) (f : PulseOut → PulseOut) (s : State) : (modPps n f s).cyclic = s.cyclic := rfl
@[simp] theorem modPps_link (n : Fin 8) (f : PulseOut → PulseOut) (s : State) : (modPps n f s).link = s.link := rfl
@[simp] theorem modPps_slots (n : Fin 8) (f : PulseOut → PulseOut) (s : State) : (modPps n f s).slots = s.slots := rfl
@[simp] theorem modPps_axes (n : Fin 8) (f : PulseOut → PulseOut) (s : State) : (modPps n f s).axes = s.axes := rfl
@[simp] theorem modPps_cams (n : Fin 8) (f : PulseOut → PulseOut) (s : State) : (modPps n f s).cams = s.cams := rfl
@[simp] theorem modPps_loops (n : Fin 8) (f : PulseOut → PulseOut) (s : State) : (modPps n f s).loops = s.loops := rfl
@[simp] theorem modPps_traces (n : Fin 8) (f : PulseOut → PulseOut) (s : State) : (modPps n f s).traces = s.traces := rfl
@[simp] theorem modPps_acq (n : Fin 8) (f : PulseOut → PulseOut) (s : State) : (modPps n f s).acq = s.acq := rfl
@[simp] theorem modPps_portMem (n : Fin 8) (f : PulseOut → PulseOut) (s : State) : (modPps n f s).portMem = s.portMem := rfl
@[simp] theorem modPps_engines (n : Fin 8) (f : PulseOut → PulseOut) (s : State) : (modPps n f s).engines = s.engines := rfl
@[simp] theorem modPps_tiles (n : Fin 8) (f : PulseOut → PulseOut) (s : State) : (modPps n f s).tiles = s.tiles := rfl
@[simp] theorem modPps_policy (n : Fin 8) (f : PulseOut → PulseOut) (s : State) : (modPps n f s).policy = s.policy := rfl
@[simp] theorem modPps_dcls (n : Fin 8) (f : PulseOut → PulseOut) (s : State) : (modPps n f s).dcls = s.dcls := rfl
@[simp] theorem modPps_sdClks (n : Fin 8) (f : PulseOut → PulseOut) (s : State) : (modPps n f s).sdClks = s.sdClks := rfl
@[simp] theorem modPps_sds (n : Fin 8) (f : PulseOut → PulseOut) (s : State) : (modPps n f s).sds = s.sds := rfl
@[simp] theorem modPps_encs (n : Fin 8) (f : PulseOut → PulseOut) (s : State) : (modPps n f s).encs = s.encs := rfl
@[simp] theorem modPps_geyser (n : Fin 8) (f : PulseOut → PulseOut) (s : State) : (modPps n f s).geyser = s.geyser := rfl
@[simp] theorem modPps_caldera (n : Fin 8) (f : PulseOut → PulseOut) (s : State) : (modPps n f s).caldera = s.caldera := rfl
@[simp] theorem modPps_fio (n : Fin 8) (f : PulseOut → PulseOut) (s : State) : (modPps n f s).fio = s.fio := rfl
@[simp] theorem modPps_cans (n : Fin 8) (f : PulseOut → PulseOut) (s : State) : (modPps n f s).cans = s.cans := rfl
@[simp] theorem modPps_power (n : Fin 8) (f : PulseOut → PulseOut) (s : State) : (modPps n f s).power = s.power := rfl

@[simp] theorem modTrace_pending (u : Fin 4) (f : Trace → Trace) (s : State) : (modTrace u f s).pending = s.pending := rfl
@[simp] theorem modTrace_freeCtr (u : Fin 4) (f : Trace → Trace) (s : State) : (modTrace u f s).freeCtr = s.freeCtr := rfl
@[simp] theorem modTrace_genSeed (u : Fin 4) (f : Trace → Trace) (s : State) : (modTrace u f s).genSeed = s.genSeed := rfl
@[simp] theorem modTrace_dt (u : Fin 4) (f : Trace → Trace) (s : State) : (modTrace u f s).dt = s.dt := rfl
@[simp] theorem modTrace_events (u : Fin 4) (f : Trace → Trace) (s : State) : (modTrace u f s).events = s.events := rfl
@[simp] theorem modTrace_time (u : Fin 4) (f : Trace → Trace) (s : State) : (modTrace u f s).time = s.time := rfl
@[simp] theorem modTrace_compares (u : Fin 4) (f : Trace → Trace) (s : State) : (modTrace u f s).compares = s.compares := rfl
@[simp] theorem modTrace_pps (u : Fin 4) (f : Trace → Trace) (s : State) : (modTrace u f s).pps = s.pps := rfl
@[simp] theorem modTrace_stage (u : Fin 4) (f : Trace → Trace) (s : State) : (modTrace u f s).stage = s.stage := rfl
@[simp] theorem modTrace_ocp (u : Fin 4) (f : Trace → Trace) (s : State) : (modTrace u f s).ocp = s.ocp := rfl
@[simp] theorem modTrace_cyclic (u : Fin 4) (f : Trace → Trace) (s : State) : (modTrace u f s).cyclic = s.cyclic := rfl
@[simp] theorem modTrace_link (u : Fin 4) (f : Trace → Trace) (s : State) : (modTrace u f s).link = s.link := rfl
@[simp] theorem modTrace_slots (u : Fin 4) (f : Trace → Trace) (s : State) : (modTrace u f s).slots = s.slots := rfl
@[simp] theorem modTrace_axes (u : Fin 4) (f : Trace → Trace) (s : State) : (modTrace u f s).axes = s.axes := rfl
@[simp] theorem modTrace_cams (u : Fin 4) (f : Trace → Trace) (s : State) : (modTrace u f s).cams = s.cams := rfl
@[simp] theorem modTrace_loops (u : Fin 4) (f : Trace → Trace) (s : State) : (modTrace u f s).loops = s.loops := rfl
@[simp] theorem modTrace_traces (u : Fin 4) (f : Trace → Trace) (s : State) : (modTrace u f s).traces = upd s.traces u f := rfl
@[simp] theorem modTrace_acq (u : Fin 4) (f : Trace → Trace) (s : State) : (modTrace u f s).acq = s.acq := rfl
@[simp] theorem modTrace_portMem (u : Fin 4) (f : Trace → Trace) (s : State) : (modTrace u f s).portMem = s.portMem := rfl
@[simp] theorem modTrace_engines (u : Fin 4) (f : Trace → Trace) (s : State) : (modTrace u f s).engines = s.engines := rfl
@[simp] theorem modTrace_tiles (u : Fin 4) (f : Trace → Trace) (s : State) : (modTrace u f s).tiles = s.tiles := rfl
@[simp] theorem modTrace_policy (u : Fin 4) (f : Trace → Trace) (s : State) : (modTrace u f s).policy = s.policy := rfl
@[simp] theorem modTrace_dcls (u : Fin 4) (f : Trace → Trace) (s : State) : (modTrace u f s).dcls = s.dcls := rfl
@[simp] theorem modTrace_sdClks (u : Fin 4) (f : Trace → Trace) (s : State) : (modTrace u f s).sdClks = s.sdClks := rfl
@[simp] theorem modTrace_sds (u : Fin 4) (f : Trace → Trace) (s : State) : (modTrace u f s).sds = s.sds := rfl
@[simp] theorem modTrace_encs (u : Fin 4) (f : Trace → Trace) (s : State) : (modTrace u f s).encs = s.encs := rfl
@[simp] theorem modTrace_geyser (u : Fin 4) (f : Trace → Trace) (s : State) : (modTrace u f s).geyser = s.geyser := rfl
@[simp] theorem modTrace_caldera (u : Fin 4) (f : Trace → Trace) (s : State) : (modTrace u f s).caldera = s.caldera := rfl
@[simp] theorem modTrace_fio (u : Fin 4) (f : Trace → Trace) (s : State) : (modTrace u f s).fio = s.fio := rfl
@[simp] theorem modTrace_cans (u : Fin 4) (f : Trace → Trace) (s : State) : (modTrace u f s).cans = s.cans := rfl
@[simp] theorem modTrace_power (u : Fin 4) (f : Trace → Trace) (s : State) : (modTrace u f s).power = s.power := rfl

@[simp] theorem modCam_pending (c : Fin 16) (f : CamTable → CamTable) (s : State) : (modCam c f s).pending = s.pending := rfl
@[simp] theorem modCam_freeCtr (c : Fin 16) (f : CamTable → CamTable) (s : State) : (modCam c f s).freeCtr = s.freeCtr := rfl
@[simp] theorem modCam_genSeed (c : Fin 16) (f : CamTable → CamTable) (s : State) : (modCam c f s).genSeed = s.genSeed := rfl
@[simp] theorem modCam_dt (c : Fin 16) (f : CamTable → CamTable) (s : State) : (modCam c f s).dt = s.dt := rfl
@[simp] theorem modCam_events (c : Fin 16) (f : CamTable → CamTable) (s : State) : (modCam c f s).events = s.events := rfl
@[simp] theorem modCam_time (c : Fin 16) (f : CamTable → CamTable) (s : State) : (modCam c f s).time = s.time := rfl
@[simp] theorem modCam_compares (c : Fin 16) (f : CamTable → CamTable) (s : State) : (modCam c f s).compares = s.compares := rfl
@[simp] theorem modCam_pps (c : Fin 16) (f : CamTable → CamTable) (s : State) : (modCam c f s).pps = s.pps := rfl
@[simp] theorem modCam_stage (c : Fin 16) (f : CamTable → CamTable) (s : State) : (modCam c f s).stage = s.stage := rfl
@[simp] theorem modCam_ocp (c : Fin 16) (f : CamTable → CamTable) (s : State) : (modCam c f s).ocp = s.ocp := rfl
@[simp] theorem modCam_cyclic (c : Fin 16) (f : CamTable → CamTable) (s : State) : (modCam c f s).cyclic = s.cyclic := rfl
@[simp] theorem modCam_link (c : Fin 16) (f : CamTable → CamTable) (s : State) : (modCam c f s).link = s.link := rfl
@[simp] theorem modCam_slots (c : Fin 16) (f : CamTable → CamTable) (s : State) : (modCam c f s).slots = s.slots := rfl
@[simp] theorem modCam_axes (c : Fin 16) (f : CamTable → CamTable) (s : State) : (modCam c f s).axes = s.axes := rfl
@[simp] theorem modCam_cams (c : Fin 16) (f : CamTable → CamTable) (s : State) : (modCam c f s).cams = upd s.cams c f := rfl
@[simp] theorem modCam_loops (c : Fin 16) (f : CamTable → CamTable) (s : State) : (modCam c f s).loops = s.loops := rfl
@[simp] theorem modCam_traces (c : Fin 16) (f : CamTable → CamTable) (s : State) : (modCam c f s).traces = s.traces := rfl
@[simp] theorem modCam_acq (c : Fin 16) (f : CamTable → CamTable) (s : State) : (modCam c f s).acq = s.acq := rfl
@[simp] theorem modCam_portMem (c : Fin 16) (f : CamTable → CamTable) (s : State) : (modCam c f s).portMem = s.portMem := rfl
@[simp] theorem modCam_engines (c : Fin 16) (f : CamTable → CamTable) (s : State) : (modCam c f s).engines = s.engines := rfl
@[simp] theorem modCam_tiles (c : Fin 16) (f : CamTable → CamTable) (s : State) : (modCam c f s).tiles = s.tiles := rfl
@[simp] theorem modCam_policy (c : Fin 16) (f : CamTable → CamTable) (s : State) : (modCam c f s).policy = s.policy := rfl
@[simp] theorem modCam_dcls (c : Fin 16) (f : CamTable → CamTable) (s : State) : (modCam c f s).dcls = s.dcls := rfl
@[simp] theorem modCam_sdClks (c : Fin 16) (f : CamTable → CamTable) (s : State) : (modCam c f s).sdClks = s.sdClks := rfl
@[simp] theorem modCam_sds (c : Fin 16) (f : CamTable → CamTable) (s : State) : (modCam c f s).sds = s.sds := rfl
@[simp] theorem modCam_encs (c : Fin 16) (f : CamTable → CamTable) (s : State) : (modCam c f s).encs = s.encs := rfl
@[simp] theorem modCam_geyser (c : Fin 16) (f : CamTable → CamTable) (s : State) : (modCam c f s).geyser = s.geyser := rfl
@[simp] theorem modCam_caldera (c : Fin 16) (f : CamTable → CamTable) (s : State) : (modCam c f s).caldera = s.caldera := rfl
@[simp] theorem modCam_fio (c : Fin 16) (f : CamTable → CamTable) (s : State) : (modCam c f s).fio = s.fio := rfl
@[simp] theorem modCam_cans (c : Fin 16) (f : CamTable → CamTable) (s : State) : (modCam c f s).cans = s.cans := rfl
@[simp] theorem modCam_power (c : Fin 16) (f : CamTable → CamTable) (s : State) : (modCam c f s).power = s.power := rfl

@[simp] theorem modDcl_pending (g : Fin 4) (f : DclGroup → DclGroup) (s : State) : (modDcl g f s).pending = s.pending := rfl
@[simp] theorem modDcl_freeCtr (g : Fin 4) (f : DclGroup → DclGroup) (s : State) : (modDcl g f s).freeCtr = s.freeCtr := rfl
@[simp] theorem modDcl_genSeed (g : Fin 4) (f : DclGroup → DclGroup) (s : State) : (modDcl g f s).genSeed = s.genSeed := rfl
@[simp] theorem modDcl_dt (g : Fin 4) (f : DclGroup → DclGroup) (s : State) : (modDcl g f s).dt = s.dt := rfl
@[simp] theorem modDcl_events (g : Fin 4) (f : DclGroup → DclGroup) (s : State) : (modDcl g f s).events = s.events := rfl
@[simp] theorem modDcl_time (g : Fin 4) (f : DclGroup → DclGroup) (s : State) : (modDcl g f s).time = s.time := rfl
@[simp] theorem modDcl_compares (g : Fin 4) (f : DclGroup → DclGroup) (s : State) : (modDcl g f s).compares = s.compares := rfl
@[simp] theorem modDcl_pps (g : Fin 4) (f : DclGroup → DclGroup) (s : State) : (modDcl g f s).pps = s.pps := rfl
@[simp] theorem modDcl_stage (g : Fin 4) (f : DclGroup → DclGroup) (s : State) : (modDcl g f s).stage = s.stage := rfl
@[simp] theorem modDcl_ocp (g : Fin 4) (f : DclGroup → DclGroup) (s : State) : (modDcl g f s).ocp = s.ocp := rfl
@[simp] theorem modDcl_cyclic (g : Fin 4) (f : DclGroup → DclGroup) (s : State) : (modDcl g f s).cyclic = s.cyclic := rfl
@[simp] theorem modDcl_link (g : Fin 4) (f : DclGroup → DclGroup) (s : State) : (modDcl g f s).link = s.link := rfl
@[simp] theorem modDcl_slots (g : Fin 4) (f : DclGroup → DclGroup) (s : State) : (modDcl g f s).slots = s.slots := rfl
@[simp] theorem modDcl_axes (g : Fin 4) (f : DclGroup → DclGroup) (s : State) : (modDcl g f s).axes = s.axes := rfl
@[simp] theorem modDcl_cams (g : Fin 4) (f : DclGroup → DclGroup) (s : State) : (modDcl g f s).cams = s.cams := rfl
@[simp] theorem modDcl_loops (g : Fin 4) (f : DclGroup → DclGroup) (s : State) : (modDcl g f s).loops = s.loops := rfl
@[simp] theorem modDcl_traces (g : Fin 4) (f : DclGroup → DclGroup) (s : State) : (modDcl g f s).traces = s.traces := rfl
@[simp] theorem modDcl_acq (g : Fin 4) (f : DclGroup → DclGroup) (s : State) : (modDcl g f s).acq = s.acq := rfl
@[simp] theorem modDcl_portMem (g : Fin 4) (f : DclGroup → DclGroup) (s : State) : (modDcl g f s).portMem = s.portMem := rfl
@[simp] theorem modDcl_engines (g : Fin 4) (f : DclGroup → DclGroup) (s : State) : (modDcl g f s).engines = s.engines := rfl
@[simp] theorem modDcl_tiles (g : Fin 4) (f : DclGroup → DclGroup) (s : State) : (modDcl g f s).tiles = s.tiles := rfl
@[simp] theorem modDcl_policy (g : Fin 4) (f : DclGroup → DclGroup) (s : State) : (modDcl g f s).policy = s.policy := rfl
@[simp] theorem modDcl_dcls (g : Fin 4) (f : DclGroup → DclGroup) (s : State) : (modDcl g f s).dcls = upd s.dcls g f := rfl
@[simp] theorem modDcl_sdClks (g : Fin 4) (f : DclGroup → DclGroup) (s : State) : (modDcl g f s).sdClks = s.sdClks := rfl
@[simp] theorem modDcl_sds (g : Fin 4) (f : DclGroup → DclGroup) (s : State) : (modDcl g f s).sds = s.sds := rfl
@[simp] theorem modDcl_encs (g : Fin 4) (f : DclGroup → DclGroup) (s : State) : (modDcl g f s).encs = s.encs := rfl
@[simp] theorem modDcl_geyser (g : Fin 4) (f : DclGroup → DclGroup) (s : State) : (modDcl g f s).geyser = s.geyser := rfl
@[simp] theorem modDcl_caldera (g : Fin 4) (f : DclGroup → DclGroup) (s : State) : (modDcl g f s).caldera = s.caldera := rfl
@[simp] theorem modDcl_fio (g : Fin 4) (f : DclGroup → DclGroup) (s : State) : (modDcl g f s).fio = s.fio := rfl
@[simp] theorem modDcl_cans (g : Fin 4) (f : DclGroup → DclGroup) (s : State) : (modDcl g f s).cans = s.cans := rfl
@[simp] theorem modDcl_power (g : Fin 4) (f : DclGroup → DclGroup) (s : State) : (modDcl g f s).power = s.power := rfl

@[simp] theorem modSd_pending (c : Fin 160) (f : SdChannel → SdChannel) (s : State) : (modSd c f s).pending = s.pending := rfl
@[simp] theorem modSd_freeCtr (c : Fin 160) (f : SdChannel → SdChannel) (s : State) : (modSd c f s).freeCtr = s.freeCtr := rfl
@[simp] theorem modSd_genSeed (c : Fin 160) (f : SdChannel → SdChannel) (s : State) : (modSd c f s).genSeed = s.genSeed := rfl
@[simp] theorem modSd_dt (c : Fin 160) (f : SdChannel → SdChannel) (s : State) : (modSd c f s).dt = s.dt := rfl
@[simp] theorem modSd_events (c : Fin 160) (f : SdChannel → SdChannel) (s : State) : (modSd c f s).events = s.events := rfl
@[simp] theorem modSd_time (c : Fin 160) (f : SdChannel → SdChannel) (s : State) : (modSd c f s).time = s.time := rfl
@[simp] theorem modSd_compares (c : Fin 160) (f : SdChannel → SdChannel) (s : State) : (modSd c f s).compares = s.compares := rfl
@[simp] theorem modSd_pps (c : Fin 160) (f : SdChannel → SdChannel) (s : State) : (modSd c f s).pps = s.pps := rfl
@[simp] theorem modSd_stage (c : Fin 160) (f : SdChannel → SdChannel) (s : State) : (modSd c f s).stage = s.stage := rfl
@[simp] theorem modSd_ocp (c : Fin 160) (f : SdChannel → SdChannel) (s : State) : (modSd c f s).ocp = s.ocp := rfl
@[simp] theorem modSd_cyclic (c : Fin 160) (f : SdChannel → SdChannel) (s : State) : (modSd c f s).cyclic = s.cyclic := rfl
@[simp] theorem modSd_link (c : Fin 160) (f : SdChannel → SdChannel) (s : State) : (modSd c f s).link = s.link := rfl
@[simp] theorem modSd_slots (c : Fin 160) (f : SdChannel → SdChannel) (s : State) : (modSd c f s).slots = s.slots := rfl
@[simp] theorem modSd_axes (c : Fin 160) (f : SdChannel → SdChannel) (s : State) : (modSd c f s).axes = s.axes := rfl
@[simp] theorem modSd_cams (c : Fin 160) (f : SdChannel → SdChannel) (s : State) : (modSd c f s).cams = s.cams := rfl
@[simp] theorem modSd_loops (c : Fin 160) (f : SdChannel → SdChannel) (s : State) : (modSd c f s).loops = s.loops := rfl
@[simp] theorem modSd_traces (c : Fin 160) (f : SdChannel → SdChannel) (s : State) : (modSd c f s).traces = s.traces := rfl
@[simp] theorem modSd_acq (c : Fin 160) (f : SdChannel → SdChannel) (s : State) : (modSd c f s).acq = s.acq := rfl
@[simp] theorem modSd_portMem (c : Fin 160) (f : SdChannel → SdChannel) (s : State) : (modSd c f s).portMem = s.portMem := rfl
@[simp] theorem modSd_engines (c : Fin 160) (f : SdChannel → SdChannel) (s : State) : (modSd c f s).engines = s.engines := rfl
@[simp] theorem modSd_tiles (c : Fin 160) (f : SdChannel → SdChannel) (s : State) : (modSd c f s).tiles = s.tiles := rfl
@[simp] theorem modSd_policy (c : Fin 160) (f : SdChannel → SdChannel) (s : State) : (modSd c f s).policy = s.policy := rfl
@[simp] theorem modSd_dcls (c : Fin 160) (f : SdChannel → SdChannel) (s : State) : (modSd c f s).dcls = s.dcls := rfl
@[simp] theorem modSd_sdClks (c : Fin 160) (f : SdChannel → SdChannel) (s : State) : (modSd c f s).sdClks = s.sdClks := rfl
@[simp] theorem modSd_sds (c : Fin 160) (f : SdChannel → SdChannel) (s : State) : (modSd c f s).sds = upd s.sds c f := rfl
@[simp] theorem modSd_encs (c : Fin 160) (f : SdChannel → SdChannel) (s : State) : (modSd c f s).encs = s.encs := rfl
@[simp] theorem modSd_geyser (c : Fin 160) (f : SdChannel → SdChannel) (s : State) : (modSd c f s).geyser = s.geyser := rfl
@[simp] theorem modSd_caldera (c : Fin 160) (f : SdChannel → SdChannel) (s : State) : (modSd c f s).caldera = s.caldera := rfl
@[simp] theorem modSd_fio (c : Fin 160) (f : SdChannel → SdChannel) (s : State) : (modSd c f s).fio = s.fio := rfl
@[simp] theorem modSd_cans (c : Fin 160) (f : SdChannel → SdChannel) (s : State) : (modSd c f s).cans = s.cans := rfl
@[simp] theorem modSd_power (c : Fin 160) (f : SdChannel → SdChannel) (s : State) : (modSd c f s).power = s.power := rfl

@[simp] theorem modEnc_pending (e : Fin 17) (f : Encoder → Encoder) (s : State) : (modEnc e f s).pending = s.pending := rfl
@[simp] theorem modEnc_freeCtr (e : Fin 17) (f : Encoder → Encoder) (s : State) : (modEnc e f s).freeCtr = s.freeCtr := rfl
@[simp] theorem modEnc_genSeed (e : Fin 17) (f : Encoder → Encoder) (s : State) : (modEnc e f s).genSeed = s.genSeed := rfl
@[simp] theorem modEnc_dt (e : Fin 17) (f : Encoder → Encoder) (s : State) : (modEnc e f s).dt = s.dt := rfl
@[simp] theorem modEnc_events (e : Fin 17) (f : Encoder → Encoder) (s : State) : (modEnc e f s).events = s.events := rfl
@[simp] theorem modEnc_time (e : Fin 17) (f : Encoder → Encoder) (s : State) : (modEnc e f s).time = s.time := rfl
@[simp] theorem modEnc_compares (e : Fin 17) (f : Encoder → Encoder) (s : State) : (modEnc e f s).compares = s.compares := rfl
@[simp] theorem modEnc_pps (e : Fin 17) (f : Encoder → Encoder) (s : State) : (modEnc e f s).pps = s.pps := rfl
@[simp] theorem modEnc_stage (e : Fin 17) (f : Encoder → Encoder) (s : State) : (modEnc e f s).stage = s.stage := rfl
@[simp] theorem modEnc_ocp (e : Fin 17) (f : Encoder → Encoder) (s : State) : (modEnc e f s).ocp = s.ocp := rfl
@[simp] theorem modEnc_cyclic (e : Fin 17) (f : Encoder → Encoder) (s : State) : (modEnc e f s).cyclic = s.cyclic := rfl
@[simp] theorem modEnc_link (e : Fin 17) (f : Encoder → Encoder) (s : State) : (modEnc e f s).link = s.link := rfl
@[simp] theorem modEnc_slots (e : Fin 17) (f : Encoder → Encoder) (s : State) : (modEnc e f s).slots = s.slots := rfl
@[simp] theorem modEnc_axes (e : Fin 17) (f : Encoder → Encoder) (s : State) : (modEnc e f s).axes = s.axes := rfl
@[simp] theorem modEnc_cams (e : Fin 17) (f : Encoder → Encoder) (s : State) : (modEnc e f s).cams = s.cams := rfl
@[simp] theorem modEnc_loops (e : Fin 17) (f : Encoder → Encoder) (s : State) : (modEnc e f s).loops = s.loops := rfl
@[simp] theorem modEnc_traces (e : Fin 17) (f : Encoder → Encoder) (s : State) : (modEnc e f s).traces = s.traces := rfl
@[simp] theorem modEnc_acq (e : Fin 17) (f : Encoder → Encoder) (s : State) : (modEnc e f s).acq = s.acq := rfl
@[simp] theorem modEnc_portMem (e : Fin 17) (f : Encoder → Encoder) (s : State) : (modEnc e f s).portMem = s.portMem := rfl
@[simp] theorem modEnc_engines (e : Fin 17) (f : Encoder → Encoder) (s : State) : (modEnc e f s).engines = s.engines := rfl
@[simp] theorem modEnc_tiles (e : Fin 17) (f : Encoder → Encoder) (s : State) : (modEnc e f s).tiles = s.tiles := rfl
@[simp] theorem modEnc_policy (e : Fin 17) (f : Encoder → Encoder) (s : State) : (modEnc e f s).policy = s.policy := rfl
@[simp] theorem modEnc_dcls (e : Fin 17) (f : Encoder → Encoder) (s : State) : (modEnc e f s).dcls = s.dcls := rfl
@[simp] theorem modEnc_sdClks (e : Fin 17) (f : Encoder → Encoder) (s : State) : (modEnc e f s).sdClks = s.sdClks := rfl
@[simp] theorem modEnc_sds (e : Fin 17) (f : Encoder → Encoder) (s : State) : (modEnc e f s).sds = s.sds := rfl
@[simp] theorem modEnc_encs (e : Fin 17) (f : Encoder → Encoder) (s : State) : (modEnc e f s).encs = upd s.encs e f := rfl
@[simp] theorem modEnc_geyser (e : Fin 17) (f : Encoder → Encoder) (s : State) : (modEnc e f s).geyser = s.geyser := rfl
@[simp] theorem modEnc_caldera (e : Fin 17) (f : Encoder → Encoder) (s : State) : (modEnc e f s).caldera = s.caldera := rfl
@[simp] theorem modEnc_fio (e : Fin 17) (f : Encoder → Encoder) (s : State) : (modEnc e f s).fio = s.fio := rfl
@[simp] theorem modEnc_cans (e : Fin 17) (f : Encoder → Encoder) (s : State) : (modEnc e f s).cans = s.cans := rfl
@[simp] theorem modEnc_power (e : Fin 17) (f : Encoder → Encoder) (s : State) : (modEnc e f s).power = s.power := rfl

@[simp] theorem modCap_pending (c : Fin 48) (f : CapInput → CapInput) (s : State) : (modCap c f s).pending = s.pending := rfl
@[simp] theorem modCap_freeCtr (c : Fin 48) (f : CapInput → CapInput) (s : State) : (modCap c f s).freeCtr = s.freeCtr := rfl
@[simp] theorem modCap_genSeed (c : Fin 48) (f : CapInput → CapInput) (s : State) : (modCap c f s).genSeed = s.genSeed := rfl
@[simp] theorem modCap_dt (c : Fin 48) (f : CapInput → CapInput) (s : State) : (modCap c f s).dt = s.dt := rfl
@[simp] theorem modCap_events (c : Fin 48) (f : CapInput → CapInput) (s : State) : (modCap c f s).events = s.events := rfl
@[simp] theorem modCap_time (c : Fin 48) (f : CapInput → CapInput) (s : State) : (modCap c f s).time = s.time := rfl
@[simp] theorem modCap_compares (c : Fin 48) (f : CapInput → CapInput) (s : State) : (modCap c f s).compares = s.compares := rfl
@[simp] theorem modCap_pps (c : Fin 48) (f : CapInput → CapInput) (s : State) : (modCap c f s).pps = s.pps := rfl
@[simp] theorem modCap_stage (c : Fin 48) (f : CapInput → CapInput) (s : State) : (modCap c f s).stage = s.stage := rfl
@[simp] theorem modCap_ocp (c : Fin 48) (f : CapInput → CapInput) (s : State) : (modCap c f s).ocp = s.ocp := rfl
@[simp] theorem modCap_cyclic (c : Fin 48) (f : CapInput → CapInput) (s : State) : (modCap c f s).cyclic = s.cyclic := rfl
@[simp] theorem modCap_link (c : Fin 48) (f : CapInput → CapInput) (s : State) : (modCap c f s).link = s.link := rfl
@[simp] theorem modCap_slots (c : Fin 48) (f : CapInput → CapInput) (s : State) : (modCap c f s).slots = s.slots := rfl
@[simp] theorem modCap_axes (c : Fin 48) (f : CapInput → CapInput) (s : State) : (modCap c f s).axes = s.axes := rfl
@[simp] theorem modCap_cams (c : Fin 48) (f : CapInput → CapInput) (s : State) : (modCap c f s).cams = s.cams := rfl
@[simp] theorem modCap_loops (c : Fin 48) (f : CapInput → CapInput) (s : State) : (modCap c f s).loops = s.loops := rfl
@[simp] theorem modCap_traces (c : Fin 48) (f : CapInput → CapInput) (s : State) : (modCap c f s).traces = s.traces := rfl
@[simp] theorem modCap_acq (c : Fin 48) (f : CapInput → CapInput) (s : State) : (modCap c f s).acq = s.acq := rfl
@[simp] theorem modCap_portMem (c : Fin 48) (f : CapInput → CapInput) (s : State) : (modCap c f s).portMem = s.portMem := rfl
@[simp] theorem modCap_engines (c : Fin 48) (f : CapInput → CapInput) (s : State) : (modCap c f s).engines = s.engines := rfl
@[simp] theorem modCap_tiles (c : Fin 48) (f : CapInput → CapInput) (s : State) : (modCap c f s).tiles = s.tiles := rfl
@[simp] theorem modCap_policy (c : Fin 48) (f : CapInput → CapInput) (s : State) : (modCap c f s).policy = s.policy := rfl
@[simp] theorem modCap_dcls (c : Fin 48) (f : CapInput → CapInput) (s : State) : (modCap c f s).dcls = s.dcls := rfl
@[simp] theorem modCap_sdClks (c : Fin 48) (f : CapInput → CapInput) (s : State) : (modCap c f s).sdClks = s.sdClks := rfl
@[simp] theorem modCap_sds (c : Fin 48) (f : CapInput → CapInput) (s : State) : (modCap c f s).sds = s.sds := rfl
@[simp] theorem modCap_encs (c : Fin 48) (f : CapInput → CapInput) (s : State) : (modCap c f s).encs = s.encs := rfl
@[simp] theorem modCap_geyser (c : Fin 48) (f : CapInput → CapInput) (s : State) : (modCap c f s).geyser = { s.geyser with caps := upd s.geyser.caps c f } := rfl
@[simp] theorem modCap_caldera (c : Fin 48) (f : CapInput → CapInput) (s : State) : (modCap c f s).caldera = s.caldera := rfl
@[simp] theorem modCap_fio (c : Fin 48) (f : CapInput → CapInput) (s : State) : (modCap c f s).fio = s.fio := rfl
@[simp] theorem modCap_cans (c : Fin 48) (f : CapInput → CapInput) (s : State) : (modCap c f s).cans = s.cans := rfl
@[simp] theorem modCap_power (c : Fin 48) (f : CapInput → CapInput) (s : State) : (modCap c f s).power = s.power := rfl

@[simp] theorem modGu_pending (u : Fin 8) (f : GeyserUnit → GeyserUnit) (s : State) : (modGu u f s).pending = s.pending := rfl
@[simp] theorem modGu_freeCtr (u : Fin 8) (f : GeyserUnit → GeyserUnit) (s : State) : (modGu u f s).freeCtr = s.freeCtr := rfl
@[simp] theorem modGu_genSeed (u : Fin 8) (f : GeyserUnit → GeyserUnit) (s : State) : (modGu u f s).genSeed = s.genSeed := rfl
@[simp] theorem modGu_dt (u : Fin 8) (f : GeyserUnit → GeyserUnit) (s : State) : (modGu u f s).dt = s.dt := rfl
@[simp] theorem modGu_events (u : Fin 8) (f : GeyserUnit → GeyserUnit) (s : State) : (modGu u f s).events = s.events := rfl
@[simp] theorem modGu_time (u : Fin 8) (f : GeyserUnit → GeyserUnit) (s : State) : (modGu u f s).time = s.time := rfl
@[simp] theorem modGu_compares (u : Fin 8) (f : GeyserUnit → GeyserUnit) (s : State) : (modGu u f s).compares = s.compares := rfl
@[simp] theorem modGu_pps (u : Fin 8) (f : GeyserUnit → GeyserUnit) (s : State) : (modGu u f s).pps = s.pps := rfl
@[simp] theorem modGu_stage (u : Fin 8) (f : GeyserUnit → GeyserUnit) (s : State) : (modGu u f s).stage = s.stage := rfl
@[simp] theorem modGu_ocp (u : Fin 8) (f : GeyserUnit → GeyserUnit) (s : State) : (modGu u f s).ocp = s.ocp := rfl
@[simp] theorem modGu_cyclic (u : Fin 8) (f : GeyserUnit → GeyserUnit) (s : State) : (modGu u f s).cyclic = s.cyclic := rfl
@[simp] theorem modGu_link (u : Fin 8) (f : GeyserUnit → GeyserUnit) (s : State) : (modGu u f s).link = s.link := rfl
@[simp] theorem modGu_slots (u : Fin 8) (f : GeyserUnit → GeyserUnit) (s : State) : (modGu u f s).slots = s.slots := rfl
@[simp] theorem modGu_axes (u : Fin 8) (f : GeyserUnit → GeyserUnit) (s : State) : (modGu u f s).axes = s.axes := rfl
@[simp] theorem modGu_cams (u : Fin 8) (f : GeyserUnit → GeyserUnit) (s : State) : (modGu u f s).cams = s.cams := rfl
@[simp] theorem modGu_loops (u : Fin 8) (f : GeyserUnit → GeyserUnit) (s : State) : (modGu u f s).loops = s.loops := rfl
@[simp] theorem modGu_traces (u : Fin 8) (f : GeyserUnit → GeyserUnit) (s : State) : (modGu u f s).traces = s.traces := rfl
@[simp] theorem modGu_acq (u : Fin 8) (f : GeyserUnit → GeyserUnit) (s : State) : (modGu u f s).acq = s.acq := rfl
@[simp] theorem modGu_portMem (u : Fin 8) (f : GeyserUnit → GeyserUnit) (s : State) : (modGu u f s).portMem = s.portMem := rfl
@[simp] theorem modGu_engines (u : Fin 8) (f : GeyserUnit → GeyserUnit) (s : State) : (modGu u f s).engines = s.engines := rfl
@[simp] theorem modGu_tiles (u : Fin 8) (f : GeyserUnit → GeyserUnit) (s : State) : (modGu u f s).tiles = s.tiles := rfl
@[simp] theorem modGu_policy (u : Fin 8) (f : GeyserUnit → GeyserUnit) (s : State) : (modGu u f s).policy = s.policy := rfl
@[simp] theorem modGu_dcls (u : Fin 8) (f : GeyserUnit → GeyserUnit) (s : State) : (modGu u f s).dcls = s.dcls := rfl
@[simp] theorem modGu_sdClks (u : Fin 8) (f : GeyserUnit → GeyserUnit) (s : State) : (modGu u f s).sdClks = s.sdClks := rfl
@[simp] theorem modGu_sds (u : Fin 8) (f : GeyserUnit → GeyserUnit) (s : State) : (modGu u f s).sds = s.sds := rfl
@[simp] theorem modGu_encs (u : Fin 8) (f : GeyserUnit → GeyserUnit) (s : State) : (modGu u f s).encs = s.encs := rfl
@[simp] theorem modGu_geyser (u : Fin 8) (f : GeyserUnit → GeyserUnit) (s : State) : (modGu u f s).geyser = { s.geyser with units := upd s.geyser.units u f } := rfl
@[simp] theorem modGu_caldera (u : Fin 8) (f : GeyserUnit → GeyserUnit) (s : State) : (modGu u f s).caldera = s.caldera := rfl
@[simp] theorem modGu_fio (u : Fin 8) (f : GeyserUnit → GeyserUnit) (s : State) : (modGu u f s).fio = s.fio := rfl
@[simp] theorem modGu_cans (u : Fin 8) (f : GeyserUnit → GeyserUnit) (s : State) : (modGu u f s).cans = s.cans := rfl
@[simp] theorem modGu_power (u : Fin 8) (f : GeyserUnit → GeyserUnit) (s : State) : (modGu u f s).power = s.power := rfl

@[simp] theorem modFio_pending (c : Fin 24) (f : FioChannel → FioChannel) (s : State) : (modFio c f s).pending = s.pending := rfl
@[simp] theorem modFio_freeCtr (c : Fin 24) (f : FioChannel → FioChannel) (s : State) : (modFio c f s).freeCtr = s.freeCtr := rfl
@[simp] theorem modFio_genSeed (c : Fin 24) (f : FioChannel → FioChannel) (s : State) : (modFio c f s).genSeed = s.genSeed := rfl
@[simp] theorem modFio_dt (c : Fin 24) (f : FioChannel → FioChannel) (s : State) : (modFio c f s).dt = s.dt := rfl
@[simp] theorem modFio_events (c : Fin 24) (f : FioChannel → FioChannel) (s : State) : (modFio c f s).events = s.events := rfl
@[simp] theorem modFio_time (c : Fin 24) (f : FioChannel → FioChannel) (s : State) : (modFio c f s).time = s.time := rfl
@[simp] theorem modFio_compares (c : Fin 24) (f : FioChannel → FioChannel) (s : State) : (modFio c f s).compares = s.compares := rfl
@[simp] theorem modFio_pps (c : Fin 24) (f : FioChannel → FioChannel) (s : State) : (modFio c f s).pps = s.pps := rfl
@[simp] theorem modFio_stage (c : Fin 24) (f : FioChannel → FioChannel) (s : State) : (modFio c f s).stage = s.stage := rfl
@[simp] theorem modFio_ocp (c : Fin 24) (f : FioChannel → FioChannel) (s : State) : (modFio c f s).ocp = s.ocp := rfl
@[simp] theorem modFio_cyclic (c : Fin 24) (f : FioChannel → FioChannel) (s : State) : (modFio c f s).cyclic = s.cyclic := rfl
@[simp] theorem modFio_link (c : Fin 24) (f : FioChannel → FioChannel) (s : State) : (modFio c f s).link = s.link := rfl
@[simp] theorem modFio_slots (c : Fin 24) (f : FioChannel → FioChannel) (s : State) : (modFio c f s).slots = s.slots := rfl
@[simp] theorem modFio_axes (c : Fin 24) (f : FioChannel → FioChannel) (s : State) : (modFio c f s).axes = s.axes := rfl
@[simp] theorem modFio_cams (c : Fin 24) (f : FioChannel → FioChannel) (s : State) : (modFio c f s).cams = s.cams := rfl
@[simp] theorem modFio_loops (c : Fin 24) (f : FioChannel → FioChannel) (s : State) : (modFio c f s).loops = s.loops := rfl
@[simp] theorem modFio_traces (c : Fin 24) (f : FioChannel → FioChannel) (s : State) : (modFio c f s).traces = s.traces := rfl
@[simp] theorem modFio_acq (c : Fin 24) (f : FioChannel → FioChannel) (s : State) : (modFio c f s).acq = s.acq := rfl
@[simp] theorem modFio_portMem (c : Fin 24) (f : FioChannel → FioChannel) (s : State) : (modFio c f s).portMem = s.portMem := rfl
@[simp] theorem modFio_engines (c : Fin 24) (f : FioChannel → FioChannel) (s : State) : (modFio c f s).engines = s.engines := rfl
@[simp] theorem modFio_tiles (c : Fin 24) (f : FioChannel → FioChannel) (s : State) : (modFio c f s).tiles = s.tiles := rfl
@[simp] theorem modFio_policy (c : Fin 24) (f : FioChannel → FioChannel) (s : State) : (modFio c f s).policy = s.policy := rfl
@[simp] theorem modFio_dcls (c : Fin 24) (f : FioChannel → FioChannel) (s : State) : (modFio c f s).dcls = s.dcls := rfl
@[simp] theorem modFio_sdClks (c : Fin 24) (f : FioChannel → FioChannel) (s : State) : (modFio c f s).sdClks = s.sdClks := rfl
@[simp] theorem modFio_sds (c : Fin 24) (f : FioChannel → FioChannel) (s : State) : (modFio c f s).sds = s.sds := rfl
@[simp] theorem modFio_encs (c : Fin 24) (f : FioChannel → FioChannel) (s : State) : (modFio c f s).encs = s.encs := rfl
@[simp] theorem modFio_geyser (c : Fin 24) (f : FioChannel → FioChannel) (s : State) : (modFio c f s).geyser = s.geyser := rfl
@[simp] theorem modFio_caldera (c : Fin 24) (f : FioChannel → FioChannel) (s : State) : (modFio c f s).caldera = s.caldera := rfl
@[simp] theorem modFio_fio (c : Fin 24) (f : FioChannel → FioChannel) (s : State) : (modFio c f s).fio = { s.fio with chans := upd s.fio.chans c f } := rfl
@[simp] theorem modFio_cans (c : Fin 24) (f : FioChannel → FioChannel) (s : State) : (modFio c f s).cans = s.cans := rfl
@[simp] theorem modFio_power (c : Fin 24) (f : FioChannel → FioChannel) (s : State) : (modFio c f s).power = s.power := rfl

@[simp] theorem modCan_pending (n : Fin 4) (f : Can → Can) (s : State) : (modCan n f s).pending = s.pending := rfl
@[simp] theorem modCan_freeCtr (n : Fin 4) (f : Can → Can) (s : State) : (modCan n f s).freeCtr = s.freeCtr := rfl
@[simp] theorem modCan_genSeed (n : Fin 4) (f : Can → Can) (s : State) : (modCan n f s).genSeed = s.genSeed := rfl
@[simp] theorem modCan_dt (n : Fin 4) (f : Can → Can) (s : State) : (modCan n f s).dt = s.dt := rfl
@[simp] theorem modCan_events (n : Fin 4) (f : Can → Can) (s : State) : (modCan n f s).events = s.events := rfl
@[simp] theorem modCan_time (n : Fin 4) (f : Can → Can) (s : State) : (modCan n f s).time = s.time := rfl
@[simp] theorem modCan_compares (n : Fin 4) (f : Can → Can) (s : State) : (modCan n f s).compares = s.compares := rfl
@[simp] theorem modCan_pps (n : Fin 4) (f : Can → Can) (s : State) : (modCan n f s).pps = s.pps := rfl
@[simp] theorem modCan_stage (n : Fin 4) (f : Can → Can) (s : State) : (modCan n f s).stage = s.stage := rfl
@[simp] theorem modCan_ocp (n : Fin 4) (f : Can → Can) (s : State) : (modCan n f s).ocp = s.ocp := rfl
@[simp] theorem modCan_cyclic (n : Fin 4) (f : Can → Can) (s : State) : (modCan n f s).cyclic = s.cyclic := rfl
@[simp] theorem modCan_link (n : Fin 4) (f : Can → Can) (s : State) : (modCan n f s).link = s.link := rfl
@[simp] theorem modCan_slots (n : Fin 4) (f : Can → Can) (s : State) : (modCan n f s).slots = s.slots := rfl
@[simp] theorem modCan_axes (n : Fin 4) (f : Can → Can) (s : State) : (modCan n f s).axes = s.axes := rfl
@[simp] theorem modCan_cams (n : Fin 4) (f : Can → Can) (s : State) : (modCan n f s).cams = s.cams := rfl
@[simp] theorem modCan_loops (n : Fin 4) (f : Can → Can) (s : State) : (modCan n f s).loops = s.loops := rfl
@[simp] theorem modCan_traces (n : Fin 4) (f : Can → Can) (s : State) : (modCan n f s).traces = s.traces := rfl
@[simp] theorem modCan_acq (n : Fin 4) (f : Can → Can) (s : State) : (modCan n f s).acq = s.acq := rfl
@[simp] theorem modCan_portMem (n : Fin 4) (f : Can → Can) (s : State) : (modCan n f s).portMem = s.portMem := rfl
@[simp] theorem modCan_engines (n : Fin 4) (f : Can → Can) (s : State) : (modCan n f s).engines = s.engines := rfl
@[simp] theorem modCan_tiles (n : Fin 4) (f : Can → Can) (s : State) : (modCan n f s).tiles = s.tiles := rfl
@[simp] theorem modCan_policy (n : Fin 4) (f : Can → Can) (s : State) : (modCan n f s).policy = s.policy := rfl
@[simp] theorem modCan_dcls (n : Fin 4) (f : Can → Can) (s : State) : (modCan n f s).dcls = s.dcls := rfl
@[simp] theorem modCan_sdClks (n : Fin 4) (f : Can → Can) (s : State) : (modCan n f s).sdClks = s.sdClks := rfl
@[simp] theorem modCan_sds (n : Fin 4) (f : Can → Can) (s : State) : (modCan n f s).sds = s.sds := rfl
@[simp] theorem modCan_encs (n : Fin 4) (f : Can → Can) (s : State) : (modCan n f s).encs = s.encs := rfl
@[simp] theorem modCan_geyser (n : Fin 4) (f : Can → Can) (s : State) : (modCan n f s).geyser = s.geyser := rfl
@[simp] theorem modCan_caldera (n : Fin 4) (f : Can → Can) (s : State) : (modCan n f s).caldera = s.caldera := rfl
@[simp] theorem modCan_fio (n : Fin 4) (f : Can → Can) (s : State) : (modCan n f s).fio = s.fio := rfl
@[simp] theorem modCan_cans (n : Fin 4) (f : Can → Can) (s : State) : (modCan n f s).cans = upd s.cans n f := rfl
@[simp] theorem modCan_power (n : Fin 4) (f : Can → Can) (s : State) : (modCan n f s).power = s.power := rfl

@[simp] theorem modPower_pending (f : Power → Power) (s : State) : (modPower f s).pending = s.pending := rfl
@[simp] theorem modPower_freeCtr (f : Power → Power) (s : State) : (modPower f s).freeCtr = s.freeCtr := rfl
@[simp] theorem modPower_genSeed (f : Power → Power) (s : State) : (modPower f s).genSeed = s.genSeed := rfl
@[simp] theorem modPower_dt (f : Power → Power) (s : State) : (modPower f s).dt = s.dt := rfl
@[simp] theorem modPower_events (f : Power → Power) (s : State) : (modPower f s).events = s.events := rfl
@[simp] theorem modPower_time (f : Power → Power) (s : State) : (modPower f s).time = s.time := rfl
@[simp] theorem modPower_compares (f : Power → Power) (s : State) : (modPower f s).compares = s.compares := rfl
@[simp] theorem modPower_pps (f : Power → Power) (s : State) : (modPower f s).pps = s.pps := rfl
@[simp] theorem modPower_stage (f : Power → Power) (s : State) : (modPower f s).stage = s.stage := rfl
@[simp] theorem modPower_ocp (f : Power → Power) (s : State) : (modPower f s).ocp = s.ocp := rfl
@[simp] theorem modPower_cyclic (f : Power → Power) (s : State) : (modPower f s).cyclic = s.cyclic := rfl
@[simp] theorem modPower_link (f : Power → Power) (s : State) : (modPower f s).link = s.link := rfl
@[simp] theorem modPower_slots (f : Power → Power) (s : State) : (modPower f s).slots = s.slots := rfl
@[simp] theorem modPower_axes (f : Power → Power) (s : State) : (modPower f s).axes = s.axes := rfl
@[simp] theorem modPower_cams (f : Power → Power) (s : State) : (modPower f s).cams = s.cams := rfl
@[simp] theorem modPower_loops (f : Power → Power) (s : State) : (modPower f s).loops = s.loops := rfl
@[simp] theorem modPower_traces (f : Power → Power) (s : State) : (modPower f s).traces = s.traces := rfl
@[simp] theorem modPower_acq (f : Power → Power) (s : State) : (modPower f s).acq = s.acq := rfl
@[simp] theorem modPower_portMem (f : Power → Power) (s : State) : (modPower f s).portMem = s.portMem := rfl
@[simp] theorem modPower_engines (f : Power → Power) (s : State) : (modPower f s).engines = s.engines := rfl
@[simp] theorem modPower_tiles (f : Power → Power) (s : State) : (modPower f s).tiles = s.tiles := rfl
@[simp] theorem modPower_policy (f : Power → Power) (s : State) : (modPower f s).policy = s.policy := rfl
@[simp] theorem modPower_dcls (f : Power → Power) (s : State) : (modPower f s).dcls = s.dcls := rfl
@[simp] theorem modPower_sdClks (f : Power → Power) (s : State) : (modPower f s).sdClks = s.sdClks := rfl
@[simp] theorem modPower_sds (f : Power → Power) (s : State) : (modPower f s).sds = s.sds := rfl
@[simp] theorem modPower_encs (f : Power → Power) (s : State) : (modPower f s).encs = s.encs := rfl
@[simp] theorem modPower_geyser (f : Power → Power) (s : State) : (modPower f s).geyser = s.geyser := rfl
@[simp] theorem modPower_caldera (f : Power → Power) (s : State) : (modPower f s).caldera = s.caldera := rfl
@[simp] theorem modPower_fio (f : Power → Power) (s : State) : (modPower f s).fio = s.fio := rfl
@[simp] theorem modPower_cans (f : Power → Power) (s : State) : (modPower f s).cans = s.cans := rfl
@[simp] theorem modPower_power (f : Power → Power) (s : State) : (modPower f s).power = f s.power := rfl

@[simp] theorem modCal_pending (f : Caldera → Caldera) (s : State) : (modCal f s).pending = s.pending := rfl
@[simp] theorem modCal_freeCtr (f : Caldera → Caldera) (s : State) : (modCal f s).freeCtr = s.freeCtr := rfl
@[simp] theorem modCal_genSeed (f : Caldera → Caldera) (s : State) : (modCal f s).genSeed = s.genSeed := rfl
@[simp] theorem modCal_dt (f : Caldera → Caldera) (s : State) : (modCal f s).dt = s.dt := rfl
@[simp] theorem modCal_events (f : Caldera → Caldera) (s : State) : (modCal f s).events = s.events := rfl
@[simp] theorem modCal_time (f : Caldera → Caldera) (s : State) : (modCal f s).time = s.time := rfl
@[simp] theorem modCal_compares (f : Caldera → Caldera) (s : State) : (modCal f s).compares = s.compares := rfl
@[simp] theorem modCal_pps (f : Caldera → Caldera) (s : State) : (modCal f s).pps = s.pps := rfl
@[simp] theorem modCal_stage (f : Caldera → Caldera) (s : State) : (modCal f s).stage = s.stage := rfl
@[simp] theorem modCal_ocp (f : Caldera → Caldera) (s : State) : (modCal f s).ocp = s.ocp := rfl
@[simp] theorem modCal_cyclic (f : Caldera → Caldera) (s : State) : (modCal f s).cyclic = s.cyclic := rfl
@[simp] theorem modCal_link (f : Caldera → Caldera) (s : State) : (modCal f s).link = s.link := rfl
@[simp] theorem modCal_slots (f : Caldera → Caldera) (s : State) : (modCal f s).slots = s.slots := rfl
@[simp] theorem modCal_axes (f : Caldera → Caldera) (s : State) : (modCal f s).axes = s.axes := rfl
@[simp] theorem modCal_cams (f : Caldera → Caldera) (s : State) : (modCal f s).cams = s.cams := rfl
@[simp] theorem modCal_loops (f : Caldera → Caldera) (s : State) : (modCal f s).loops = s.loops := rfl
@[simp] theorem modCal_traces (f : Caldera → Caldera) (s : State) : (modCal f s).traces = s.traces := rfl
@[simp] theorem modCal_acq (f : Caldera → Caldera) (s : State) : (modCal f s).acq = s.acq := rfl
@[simp] theorem modCal_portMem (f : Caldera → Caldera) (s : State) : (modCal f s).portMem = s.portMem := rfl
@[simp] theorem modCal_engines (f : Caldera → Caldera) (s : State) : (modCal f s).engines = s.engines := rfl
@[simp] theorem modCal_tiles (f : Caldera → Caldera) (s : State) : (modCal f s).tiles = s.tiles := rfl
@[simp] theorem modCal_policy (f : Caldera → Caldera) (s : State) : (modCal f s).policy = s.policy := rfl
@[simp] theorem modCal_dcls (f : Caldera → Caldera) (s : State) : (modCal f s).dcls = s.dcls := rfl
@[simp] theorem modCal_sdClks (f : Caldera → Caldera) (s : State) : (modCal f s).sdClks = s.sdClks := rfl
@[simp] theorem modCal_sds (f : Caldera → Caldera) (s : State) : (modCal f s).sds = s.sds := rfl
@[simp] theorem modCal_encs (f : Caldera → Caldera) (s : State) : (modCal f s).encs = s.encs := rfl
@[simp] theorem modCal_geyser (f : Caldera → Caldera) (s : State) : (modCal f s).geyser = s.geyser := rfl
@[simp] theorem modCal_caldera (f : Caldera → Caldera) (s : State) : (modCal f s).caldera = f s.caldera := rfl
@[simp] theorem modCal_fio (f : Caldera → Caldera) (s : State) : (modCal f s).fio = s.fio := rfl
@[simp] theorem modCal_cans (f : Caldera → Caldera) (s : State) : (modCal f s).cans = s.cans := rfl
@[simp] theorem modCal_power (f : Caldera → Caldera) (s : State) : (modCal f s).power = s.power := rfl

@[simp] theorem modLink_pending (f : Link → Link) (s : State) : (modLink f s).pending = s.pending := rfl
@[simp] theorem modLink_freeCtr (f : Link → Link) (s : State) : (modLink f s).freeCtr = s.freeCtr := rfl
@[simp] theorem modLink_genSeed (f : Link → Link) (s : State) : (modLink f s).genSeed = s.genSeed := rfl
@[simp] theorem modLink_dt (f : Link → Link) (s : State) : (modLink f s).dt = s.dt := rfl
@[simp] theorem modLink_events (f : Link → Link) (s : State) : (modLink f s).events = s.events := rfl
@[simp] theorem modLink_time (f : Link → Link) (s : State) : (modLink f s).time = s.time := rfl
@[simp] theorem modLink_compares (f : Link → Link) (s : State) : (modLink f s).compares = s.compares := rfl
@[simp] theorem modLink_pps (f : Link → Link) (s : State) : (modLink f s).pps = s.pps := rfl
@[simp] theorem modLink_stage (f : Link → Link) (s : State) : (modLink f s).stage = s.stage := rfl
@[simp] theorem modLink_ocp (f : Link → Link) (s : State) : (modLink f s).ocp = s.ocp := rfl
@[simp] theorem modLink_cyclic (f : Link → Link) (s : State) : (modLink f s).cyclic = s.cyclic := rfl
@[simp] theorem modLink_link (f : Link → Link) (s : State) : (modLink f s).link = f s.link := rfl
@[simp] theorem modLink_slots (f : Link → Link) (s : State) : (modLink f s).slots = s.slots := rfl
@[simp] theorem modLink_axes (f : Link → Link) (s : State) : (modLink f s).axes = s.axes := rfl
@[simp] theorem modLink_cams (f : Link → Link) (s : State) : (modLink f s).cams = s.cams := rfl
@[simp] theorem modLink_loops (f : Link → Link) (s : State) : (modLink f s).loops = s.loops := rfl
@[simp] theorem modLink_traces (f : Link → Link) (s : State) : (modLink f s).traces = s.traces := rfl
@[simp] theorem modLink_acq (f : Link → Link) (s : State) : (modLink f s).acq = s.acq := rfl
@[simp] theorem modLink_portMem (f : Link → Link) (s : State) : (modLink f s).portMem = s.portMem := rfl
@[simp] theorem modLink_engines (f : Link → Link) (s : State) : (modLink f s).engines = s.engines := rfl
@[simp] theorem modLink_tiles (f : Link → Link) (s : State) : (modLink f s).tiles = s.tiles := rfl
@[simp] theorem modLink_policy (f : Link → Link) (s : State) : (modLink f s).policy = s.policy := rfl
@[simp] theorem modLink_dcls (f : Link → Link) (s : State) : (modLink f s).dcls = s.dcls := rfl
@[simp] theorem modLink_sdClks (f : Link → Link) (s : State) : (modLink f s).sdClks = s.sdClks := rfl
@[simp] theorem modLink_sds (f : Link → Link) (s : State) : (modLink f s).sds = s.sds := rfl
@[simp] theorem modLink_encs (f : Link → Link) (s : State) : (modLink f s).encs = s.encs := rfl
@[simp] theorem modLink_geyser (f : Link → Link) (s : State) : (modLink f s).geyser = s.geyser := rfl
@[simp] theorem modLink_caldera (f : Link → Link) (s : State) : (modLink f s).caldera = s.caldera := rfl
@[simp] theorem modLink_fio (f : Link → Link) (s : State) : (modLink f s).fio = s.fio := rfl
@[simp] theorem modLink_cans (f : Link → Link) (s : State) : (modLink f s).cans = s.cans := rfl
@[simp] theorem modLink_power (f : Link → Link) (s : State) : (modLink f s).power = s.power := rfl

@[simp] theorem modTime_pending (f : TimeUnit → TimeUnit) (s : State) : (modTime f s).pending = s.pending := rfl
@[simp] theorem modTime_freeCtr (f : TimeUnit → TimeUnit) (s : State) : (modTime f s).freeCtr = s.freeCtr := rfl
@[simp] theorem modTime_genSeed (f : TimeUnit → TimeUnit) (s : State) : (modTime f s).genSeed = s.genSeed := rfl
@[simp] theorem modTime_dt (f : TimeUnit → TimeUnit) (s : State) : (modTime f s).dt = s.dt := rfl
@[simp] theorem modTime_events (f : TimeUnit → TimeUnit) (s : State) : (modTime f s).events = s.events := rfl
@[simp] theorem modTime_time (f : TimeUnit → TimeUnit) (s : State) : (modTime f s).time = f s.time := rfl
@[simp] theorem modTime_compares (f : TimeUnit → TimeUnit) (s : State) : (modTime f s).compares = s.compares := rfl
@[simp] theorem modTime_pps (f : TimeUnit → TimeUnit) (s : State) : (modTime f s).pps = s.pps := rfl
@[simp] theorem modTime_stage (f : TimeUnit → TimeUnit) (s : State) : (modTime f s).stage = s.stage := rfl
@[simp] theorem modTime_ocp (f : TimeUnit → TimeUnit) (s : State) : (modTime f s).ocp = s.ocp := rfl
@[simp] theorem modTime_cyclic (f : TimeUnit → TimeUnit) (s : State) : (modTime f s).cyclic = s.cyclic := rfl
@[simp] theorem modTime_link (f : TimeUnit → TimeUnit) (s : State) : (modTime f s).link = s.link := rfl
@[simp] theorem modTime_slots (f : TimeUnit → TimeUnit) (s : State) : (modTime f s).slots = s.slots := rfl
@[simp] theorem modTime_axes (f : TimeUnit → TimeUnit) (s : State) : (modTime f s).axes = s.axes := rfl
@[simp] theorem modTime_cams (f : TimeUnit → TimeUnit) (s : State) : (modTime f s).cams = s.cams := rfl
@[simp] theorem modTime_loops (f : TimeUnit → TimeUnit) (s : State) : (modTime f s).loops = s.loops := rfl
@[simp] theorem modTime_traces (f : TimeUnit → TimeUnit) (s : State) : (modTime f s).traces = s.traces := rfl
@[simp] theorem modTime_acq (f : TimeUnit → TimeUnit) (s : State) : (modTime f s).acq = s.acq := rfl
@[simp] theorem modTime_portMem (f : TimeUnit → TimeUnit) (s : State) : (modTime f s).portMem = s.portMem := rfl
@[simp] theorem modTime_engines (f : TimeUnit → TimeUnit) (s : State) : (modTime f s).engines = s.engines := rfl
@[simp] theorem modTime_tiles (f : TimeUnit → TimeUnit) (s : State) : (modTime f s).tiles = s.tiles := rfl
@[simp] theorem modTime_policy (f : TimeUnit → TimeUnit) (s : State) : (modTime f s).policy = s.policy := rfl
@[simp] theorem modTime_dcls (f : TimeUnit → TimeUnit) (s : State) : (modTime f s).dcls = s.dcls := rfl
@[simp] theorem modTime_sdClks (f : TimeUnit → TimeUnit) (s : State) : (modTime f s).sdClks = s.sdClks := rfl
@[simp] theorem modTime_sds (f : TimeUnit → TimeUnit) (s : State) : (modTime f s).sds = s.sds := rfl
@[simp] theorem modTime_encs (f : TimeUnit → TimeUnit) (s : State) : (modTime f s).encs = s.encs := rfl
@[simp] theorem modTime_geyser (f : TimeUnit → TimeUnit) (s : State) : (modTime f s).geyser = s.geyser := rfl
@[simp] theorem modTime_caldera (f : TimeUnit → TimeUnit) (s : State) : (modTime f s).caldera = s.caldera := rfl
@[simp] theorem modTime_fio (f : TimeUnit → TimeUnit) (s : State) : (modTime f s).fio = s.fio := rfl
@[simp] theorem modTime_cans (f : TimeUnit → TimeUnit) (s : State) : (modTime f s).cans = s.cans := rfl
@[simp] theorem modTime_power (f : TimeUnit → TimeUnit) (s : State) : (modTime f s).power = s.power := rfl

@[simp] theorem modFieldIo_pending (f : FieldIo → FieldIo) (s : State) : (modFieldIo f s).pending = s.pending := rfl
@[simp] theorem modFieldIo_freeCtr (f : FieldIo → FieldIo) (s : State) : (modFieldIo f s).freeCtr = s.freeCtr := rfl
@[simp] theorem modFieldIo_genSeed (f : FieldIo → FieldIo) (s : State) : (modFieldIo f s).genSeed = s.genSeed := rfl
@[simp] theorem modFieldIo_dt (f : FieldIo → FieldIo) (s : State) : (modFieldIo f s).dt = s.dt := rfl
@[simp] theorem modFieldIo_events (f : FieldIo → FieldIo) (s : State) : (modFieldIo f s).events = s.events := rfl
@[simp] theorem modFieldIo_time (f : FieldIo → FieldIo) (s : State) : (modFieldIo f s).time = s.time := rfl
@[simp] theorem modFieldIo_compares (f : FieldIo → FieldIo) (s : State) : (modFieldIo f s).compares = s.compares := rfl
@[simp] theorem modFieldIo_pps (f : FieldIo → FieldIo) (s : State) : (modFieldIo f s).pps = s.pps := rfl
@[simp] theorem modFieldIo_stage (f : FieldIo → FieldIo) (s : State) : (modFieldIo f s).stage = s.stage := rfl
@[simp] theorem modFieldIo_ocp (f : FieldIo → FieldIo) (s : State) : (modFieldIo f s).ocp = s.ocp := rfl
@[simp] theorem modFieldIo_cyclic (f : FieldIo → FieldIo) (s : State) : (modFieldIo f s).cyclic = s.cyclic := rfl
@[simp] theorem modFieldIo_link (f : FieldIo → FieldIo) (s : State) : (modFieldIo f s).link = s.link := rfl
@[simp] theorem modFieldIo_slots (f : FieldIo → FieldIo) (s : State) : (modFieldIo f s).slots = s.slots := rfl
@[simp] theorem modFieldIo_axes (f : FieldIo → FieldIo) (s : State) : (modFieldIo f s).axes = s.axes := rfl
@[simp] theorem modFieldIo_cams (f : FieldIo → FieldIo) (s : State) : (modFieldIo f s).cams = s.cams := rfl
@[simp] theorem modFieldIo_loops (f : FieldIo → FieldIo) (s : State) : (modFieldIo f s).loops = s.loops := rfl
@[simp] theorem modFieldIo_traces (f : FieldIo → FieldIo) (s : State) : (modFieldIo f s).traces = s.traces := rfl
@[simp] theorem modFieldIo_acq (f : FieldIo → FieldIo) (s : State) : (modFieldIo f s).acq = s.acq := rfl
@[simp] theorem modFieldIo_portMem (f : FieldIo → FieldIo) (s : State) : (modFieldIo f s).portMem = s.portMem := rfl
@[simp] theorem modFieldIo_engines (f : FieldIo → FieldIo) (s : State) : (modFieldIo f s).engines = s.engines := rfl
@[simp] theorem modFieldIo_tiles (f : FieldIo → FieldIo) (s : State) : (modFieldIo f s).tiles = s.tiles := rfl
@[simp] theorem modFieldIo_policy (f : FieldIo → FieldIo) (s : State) : (modFieldIo f s).policy = s.policy := rfl
@[simp] theorem modFieldIo_dcls (f : FieldIo → FieldIo) (s : State) : (modFieldIo f s).dcls = s.dcls := rfl
@[simp] theorem modFieldIo_sdClks (f : FieldIo → FieldIo) (s : State) : (modFieldIo f s).sdClks = s.sdClks := rfl
@[simp] theorem modFieldIo_sds (f : FieldIo → FieldIo) (s : State) : (modFieldIo f s).sds = s.sds := rfl
@[simp] theorem modFieldIo_encs (f : FieldIo → FieldIo) (s : State) : (modFieldIo f s).encs = s.encs := rfl
@[simp] theorem modFieldIo_geyser (f : FieldIo → FieldIo) (s : State) : (modFieldIo f s).geyser = s.geyser := rfl
@[simp] theorem modFieldIo_caldera (f : FieldIo → FieldIo) (s : State) : (modFieldIo f s).caldera = s.caldera := rfl
@[simp] theorem modFieldIo_fio (f : FieldIo → FieldIo) (s : State) : (modFieldIo f s).fio = f s.fio := rfl
@[simp] theorem modFieldIo_cans (f : FieldIo → FieldIo) (s : State) : (modFieldIo f s).cans = s.cans := rfl
@[simp] theorem modFieldIo_power (f : FieldIo → FieldIo) (s : State) : (modFieldIo f s).power = s.power := rfl

@[simp] theorem drawn_pending (s : State) : (drawn s).pending = s.pending := rfl
@[simp] theorem drawn_freeCtr (s : State) : (drawn s).freeCtr = s.freeCtr + 1 := rfl
@[simp] theorem drawn_genSeed (s : State) : (drawn s).genSeed = s.genSeed := rfl
@[simp] theorem drawn_dt (s : State) : (drawn s).dt = s.dt := rfl
@[simp] theorem drawn_events (s : State) : (drawn s).events = s.events := rfl
@[simp] theorem drawn_time (s : State) : (drawn s).time = s.time := rfl
@[simp] theorem drawn_compares (s : State) : (drawn s).compares = s.compares := rfl
@[simp] theorem drawn_pps (s : State) : (drawn s).pps = s.pps := rfl
@[simp] theorem drawn_stage (s : State) : (drawn s).stage = s.stage := rfl
@[simp] theorem drawn_ocp (s : State) : (drawn s).ocp = s.ocp := rfl
@[simp] theorem drawn_cyclic (s : State) : (drawn s).cyclic = s.cyclic := rfl
@[simp] theorem drawn_link (s : State) : (drawn s).link = s.link := rfl
@[simp] theorem drawn_slots (s : State) : (drawn s).slots = s.slots := rfl
@[simp] theorem drawn_axes (s : State) : (drawn s).axes = s.axes := rfl
@[simp] theorem drawn_cams (s : State) : (drawn s).cams = s.cams := rfl
@[simp] theorem drawn_loops (s : State) : (drawn s).loops = s.loops := rfl
@[simp] theorem drawn_traces (s : State) : (drawn s).traces = s.traces := rfl
@[simp] theorem drawn_acq (s : State) : (drawn s).acq = s.acq := rfl
@[simp] theorem drawn_portMem (s : State) : (drawn s).portMem = s.portMem := rfl
@[simp] theorem drawn_engines (s : State) : (drawn s).engines = s.engines := rfl
@[simp] theorem drawn_tiles (s : State) : (drawn s).tiles = s.tiles := rfl
@[simp] theorem drawn_policy (s : State) : (drawn s).policy = s.policy := rfl
@[simp] theorem drawn_dcls (s : State) : (drawn s).dcls = s.dcls := rfl
@[simp] theorem drawn_sdClks (s : State) : (drawn s).sdClks = s.sdClks := rfl
@[simp] theorem drawn_sds (s : State) : (drawn s).sds = s.sds := rfl
@[simp] theorem drawn_encs (s : State) : (drawn s).encs = s.encs := rfl
@[simp] theorem drawn_geyser (s : State) : (drawn s).geyser = s.geyser := rfl
@[simp] theorem drawn_caldera (s : State) : (drawn s).caldera = s.caldera := rfl
@[simp] theorem drawn_fio (s : State) : (drawn s).fio = s.fio := rfl
@[simp] theorem drawn_cans (s : State) : (drawn s).cans = s.cans := rfl
@[simp] theorem drawn_power (s : State) : (drawn s).power = s.power := rfl

end Sys2Proof.Machine
end

