-- ==== Sys2Proof/Tests/Slice0.lean ====
section
/-! SUPPORT. Tests: the bounds of well-formed commands refuse what lies outside, and every statement's hypotheses are met
by a concrete state and concrete operands, each clause's at the edge of its range where it has one. -/

open Sys2Proof Sys2Proof.Machine

set_option Elab.async false

namespace Sys2Proof.Tests

/-! ### Bounds of the commands -/

/-- A request of a UDP session with no parameter. -/
def pk : Packet :=
  { session := 2, version := 2, staged := false, priority := false, chained := false, zeros := 0, seq := 7, target := 0xFFFF
    pour := none, params := [] }
def caseFrame (n : Nat) : CanFrame :=
  { ident := 0x123, dlc := 0, brs := false, esi := false, data := List.replicate n 0, sof := 0 }

theorem test_wf_packet : (Instr.timeRead pk).wf = true := by decide
theorem test_ill_packet_pour : (Instr.timeRead { pk with pour := some 0 }).wf = false := by decide
theorem test_ill_packet_length : (Instr.timeRead { pk with params := List.replicate 1021 0 }).wf = false := by decide +kernel
theorem test_ill_packet_staged : (Instr.timeRead { pk with staged := true, params := [0, 0] }).wf = false := by decide
theorem test_ill_sdSample : (Instr.sdSample 0 16777217 true).wf = false ∧ (Instr.sdSample 0 16777216 true).wf = true := by
  decide
theorem test_ill_sdWindowSample : (Instr.sdWindowSample 0 16777217 0 0 7).wf = false
    ∧ (Instr.sdWindowSample 0 0 16777217 0 7).wf = false ∧ (Instr.sdWindowSample 0 0 0 16777217 7).wf = false := by decide
theorem test_ill_captureEdge : (Instr.captureEdge 0 true 50).wf = false ∧ (Instr.captureEdge 0 true 49).wf = true := by
  decide
theorem test_ill_canFrame : (Instr.canFrameReceive 0 (caseFrame 65)).wf = false
    ∧ (Instr.canFrameReceive 0 (caseFrame 64)).wf = true := by decide
theorem test_ill_forwardedEvent : (Instr.forwardedEventReceive 0 [0]).wf = false
    ∧ (Instr.forwardedEventReceive 0 [0, 0, 0, 0, 0, 0, 0, 0]).wf = true := by decide
theorem test_ill_spiWindowWrite : (Instr.spiWindowWrite 0 (List.replicate 1025 0)).wf = false := by decide +kernel
theorem test_ill_spiPacketWrite : (Instr.spiPacketWrite (List.replicate 1025 0)).wf = false := by decide +kernel
theorem test_ill_udp_bytes : (Instr.udpDatagramReceive 0 0 0 4097 []).wf = false := by decide
theorem test_ill_udp_words : (Instr.udpDatagramReceive 0 0 0 0 (List.replicate 1025 0)).wf = false := by decide +kernel
theorem test_ill_tunnel : (Instr.tunnelPacketReceive 0 (List.replicate 1025 0)).wf = false := by decide +kernel

/-! ### Hypotheses of the statements on the machine and on requests -/

/-- Reset state with a session changed. -/
def onSession (f : Session → Session) : State := modSession 2 f State.reset
/-- The history entry of pk as TIME_STATUS, with this reply. -/
def entry (r : Option (List Word)) : HistEntry := { seq := 7, crc := packetCrc 0x0202 pk, op := 0x0202, reply := r }
def staged : Packet := { pk with staged := true, pour := some 0, target := 5 }
def chained : Packet := { pk with chained := true }
/-- The reset state with the request before pk answered with this status, or waiting. -/
def afterFirst (st : Option (BitVec 16)) : State :=
  onSession fun x => { x with hist := [{ entry (st.map fun v => replyWords 0x0202 pk v 0 []) with seq := 6 }] }
/-- The reset state a time after its instants, which are all 0. -/
def after (ns : Nat) (s : State) : State := { s with dt := BitVec.ofNat 96 (ns * 2 ^ 32) }
/-- The reset state with tile 5 in local mode and in the given state. -/
def localTile (st : BitVec 3) : State := modTileRegs 5 (fun r => { r with localField := true, tileState := st }) State.reset
def one : List StagedCmd := [{ op := 0x0407, p := staged }]

theorem test_idleStepIsOneEdge : State.reset.pending = [] ∧ clocksRun State.reset = true
    ∧ clocksRun (modPower (fun p => { p with boot := .off }) State.reset) = false := by decide
theorem test_stepKeepsInvariant : State.reset.Inv ∧ ∃ t, step State.reset = .next t :=
  ⟨⟨rfl, .inl rfl, by simp [State.reset]⟩, _, rfl⟩
theorem test_pourLength : ∃ t, Runs .vinLoss (modTileRegs 0 id { State.reset with
    stage := { State.reset.stage with regs := { State.reset.stage.regs with pourLen := 15625 } } }) t
    ∧ t.stage.regs.pourLen ≠ 15625 := ⟨_, rfl, by decide⟩
theorem test_cleanRequest : requestOf (.timeStatus pk) = some ⟨dTimeStatus, acceptAny, runTimeStatus, pk⟩
    ∧ Fresh pk State.reset ∧ pk.chained = false ∧ Turn dTimeStatus.op pk (accepted dTimeStatus pk State.reset)
    ∧ Clean dTimeStatus pk (accepted dTimeStatus pk State.reset)
    ∧ acceptAny pk (accepted dTimeStatus pk State.reset) = Status.ok := ⟨rfl, by decide, rfl, by decide +kernel, by decide, rfl⟩
theorem test_refusedRequest : let p : Packet := { pk with params := [1] }
    requestOf (.timeStatus p) = some ⟨dTimeStatus, acceptAny, runTimeStatus, p⟩
    ∧ Fresh p State.reset ∧ Turn dTimeStatus.op p (accepted dTimeStatus p State.reset)
    ∧ headerStatus dTimeStatus p (accepted dTimeStatus p State.reset) = Status.paramCount ∧ Status.paramCount ≠ Status.ok :=
  ⟨rfl, by decide, by decide +kernel, by decide, by decide⟩
theorem test_refusedByItsOwnCheck : let p : Packet := { pk with params := [0, 0, 2, 1] }
    requestOf (.imageStreamSet p) = some ⟨dImageStreamSet, acceptImageStreamSet, runImageStreamSet, p⟩
    ∧ Fresh p State.reset ∧ Turn dImageStreamSet.op p (accepted dImageStreamSet p State.reset)
    ∧ headerStatus dImageStreamSet p (accepted dImageStreamSet p State.reset) = Status.ok
    ∧ acceptImageStreamSet p (accepted dImageStreamSet p State.reset) = Status.paramRange :=
  ⟨rfl, by decide, by decide +kernel, by decide, by decide⟩
theorem test_oneReply : ∃ s, (s : State).ocp.sessions[pk.session].hist = [entry none]
    ∧ s.ocp.sessions[pk.session].out = [] ∧ s.ocp.sessions[pk.session].regs.creditsInUse ≠ 0
    ∧ (entry none).seq = pk.seq ∧ (entry none).crc = packetCrc dTimeStatus.op pk ∧ 2 ≤ pk.session.val
    ∧ (entry none).reply = none ∧ (entry none).orphan = false ∧ (entry none).copies = 0
    ∧ ∀ x ∈ ([] : List HistEntry), awaits pk.seq (packetCrc dTimeStatus.op pk) x = false :=
  ⟨onSession fun x => { x with hist := [entry none], regs := { x.regs with creditsInUse := 1 } }, rfl, rfl, by decide, rfl,
    rfl, by decide, rfl, rfl, rfl, by simp⟩
theorem test_servedOnce : ∃ s : State, requestOf (.timeStatus pk) = some ⟨dTimeStatus, acceptAny, runTimeStatus, pk⟩
    ∧ served s = true ∧ s.ocp.sessions[pk.session].hist = [entry (some [1])]
    ∧ (∀ x ∈ [entry (some [1])], awaits pk.seq (packetCrc 0x0202 pk) x = false)
    ∧ ([entry (some [1])].filter fun h => !h.orphan).find? (fun h => h.seq = pk.seq && h.crc = packetCrc 0x0202 pk)
      = some (entry (some [1])) ∧ (entry (some [1])).reply = some [1]
    ∧ s.ocp.sessions[pk.session].regs.creditsInUse.toNat < 32 :=
  ⟨onSession fun x => { x with hist := [entry (some [1])], regs := { x.regs with creditsInUse := 31 } }, rfl, by decide,
    rfl, by decide +kernel, by decide +kernel, rfl, by decide⟩
theorem test_sequenceReused : ∃ s : State, served s = true
    ∧ (s.ocp.sessions[pk.session].hist.all fun h => !(h.seq = pk.seq && h.crc = packetCrc dTimeStatus.op pk)) = true
    ∧ (s.ocp.sessions[pk.session].hist.any fun h => h.seq = pk.seq && !h.orphan) = true
    ∧ s.ocp.sessions[pk.session].regs.creditsInUse.toNat < 32 :=
  ⟨onSession fun x => { x with hist := [{ entry (some [1]) with crc := packetCrc 0x0201 pk }] }, by decide, by decide +kernel,
    by decide, by decide⟩
theorem test_creditViolation : ∃ s : State, served s = true
    ∧ (s.ocp.sessions[pk.session].hist.all fun h => h.seq ≠ pk.seq) = true
    ∧ 32 ≤ s.ocp.sessions[pk.session].regs.creditsInUse.toNat :=
  ⟨onSession fun x => { x with regs := { x.regs with creditsInUse := 32 } }, by decide, by decide, by decide⟩
theorem test_chained_waits : Fresh chained (afterFirst none) ∧ ∃ q,
    predecessor (accepted dTimeStatus chained (afterFirst none)).ocp.sessions[chained.session].hist false chained.seq = some q
    ∧ q.reply = none :=
  ⟨by decide, { entry none with seq := 6 }, by decide +kernel, rfl⟩
theorem test_chained_breaks : Fresh chained (afterFirst (some Status.busy)) ∧ ∃ q ws,
    predecessor (accepted dTimeStatus chained (afterFirst (some Status.busy))).ocp.sessions[chained.session].hist false chained.seq
      = some q ∧ q.reply = some ws ∧ Turn 0x0202 chained (accepted dTimeStatus chained (afterFirst (some Status.busy)))
      ∧ replyStatus ws ≠ Status.ok ∧ replyStatus ws ≠ Status.acceptedStaged ∧ replyStatus ws ≠ Status.acceptedPending :=
  ⟨by decide, { entry (some (replyWords 0x0202 pk Status.busy 0 [])) with seq := 6 }, _, by decide +kernel, rfl, by decide +kernel,
    by decide +kernel, by decide +kernel, by decide +kernel⟩
theorem test_chained_goes : Fresh chained (afterFirst (some Status.ok))
    ∧ Clean dTimeStatus chained (accepted dTimeStatus chained (afterFirst (some Status.ok))) ∧ ∃ q ws,
    predecessor (accepted dTimeStatus chained (afterFirst (some Status.ok))).ocp.sessions[chained.session].hist false chained.seq
      = some q ∧ q.reply = some ws ∧ Turn 0x0202 chained (accepted dTimeStatus chained (afterFirst (some Status.ok)))
      ∧ replyStatus ws = Status.ok :=
  ⟨by decide, by decide, { entry (some (replyWords 0x0202 pk Status.ok 0 [])) with seq := 6 }, _, by decide +kernel, rfl,
    by decide +kernel, by decide +kernel⟩
theorem test_staged_alone : stageOf (.axisDisable staged) = some ⟨stAxisDisable, staged⟩ ∧ Fresh staged State.reset
    ∧ staged.chained = false ∧ staged.staged = true
    ∧ Turn stAxisDisable.d.op staged (acceptedStage stAxisDisable staged State.reset)
    ∧ Clean stAxisDisable.d staged (acceptedStage stAxisDisable staged State.reset)
    ∧ stAxisDisable.accept staged State.reset = Status.ok ∧ State.reset.ocp.sessions[staged.session].txn = none
    ∧ commitStatus State.reset.dt [{ op := stAxisDisable.d.op, p := stAxisDisable.conv staged State.reset }]
      (staged.pour.getD 0) (acceptedStage stAxisDisable staged State.reset) = Status.ok :=
  ⟨rfl, by decide, rfl, rfl, by decide +kernel, by decide, by decide, by decide, by decide⟩
theorem test_staged_joins : ∀ n ∈ [255, 256], let s := onSession fun x => { x with txn := some { count := n } }
    Fresh staged s ∧ Turn stAxisDisable.d.op staged (acceptedStage stAxisDisable staged s)
      ∧ Clean stAxisDisable.d staged (acceptedStage stAxisDisable staged s)
      ∧ stAxisDisable.accept staged s = Status.ok ∧ s.ocp.sessions[staged.session].txn = some { count := n }
      ∧ staged.pour = some 0 ∧ (n < 256 ∨ 256 ≤ n) := by decide +kernel
theorem test_staged_joins_bad : let p : Packet := { staged with params := [0] }
    let s := onSession fun x => { x with txn := some { count := 255 } }
    Fresh p s ∧ Turn stAxisDisable.d.op p (acceptedStage stAxisDisable p s)
      ∧ headerStatus stAxisDisable.d p (acceptedStage stAxisDisable p s) = Status.paramCount := by decide +kernel
theorem test_staged_local : ∀ st ∈ [(1 : BitVec 3), 2], let p : Packet := { pk with target := 5 }
    let s' := acceptedStage stAxisDisable p (localTile st)
    Fresh p (localTile st) ∧ Turn stAxisDisable.d.op p s' ∧ p.staged = false ∧ Clean stAxisDisable.d p s'
      ∧ stAxisDisable.accept p (localTile st) = Status.ok
      ∧ unitLocal s' (targetUnit stAxisDisable.d.op (tgt p)) = some 5
      ∧ stAxisDisable.check (stAxisDisable.conv p (localTile st)) s' = Status.ok ∧ stAxisDisable.atLoad = false
      ∧ s'.tiles[(5 : Fin 16)].regs.tileState = st := by decide +kernel
theorem test_setTakesEffect : (∃ s', runSet [] one State.reset = .ok s')
    ∧ ∃ st, runSet [] [{ op := 0x0409, p := { staged with params := [0, 0, 0, 0] } }] State.reset = .error st :=
  ⟨⟨_, rfl⟩, _, rfl⟩
theorem test_pouredSetting : let cmd : StagedCmd := { op := stAxisDisable.d.op, p := staged }
    stagedStatus stAxisDisable cmd State.reset = Status.ok ∧ stopGoverns [] cmd = false
    ∧ stopGoverns [5] { op := 0x0409, p := { staged with params := [0, 0, 0, 0] } } = true := by decide
theorem test_query : ∃ t, isQuery (.timeStatus pk) = true ∧ Runs (.timeStatus pk) State.reset t := ⟨_, rfl, rfl⟩

/-! ### Hypotheses of the statements on the loop engines, time, events and transports -/

/-- The reset state with engine 3 running, between two instructions, and changed. -/
def onEngine (f : Engine → Engine) : State :=
  modEngine 3 (fun en => f { en with regs := { en.regs with leState := 2 } }) State.reset
abbrev plain : Engine := (onEngine id).engines[(3 : Fin 32)]
def addr18 (x : BitVec 18) : Nat := (plain.g 0 + x.signExtend 32).toNat
def noTick (s : State) : Engine := s.engines[(3 : Fin 32)]

theorem test_lePlain : Plain plain ∧ plain.inTick = false ∧ plain.bkptEn = false
    ∧ Plain (noTick (onEngine fun en => { en with bkptEn := true }))
    ∧ (noTick (onEngine fun en => { en with bkptEn := true })).bkptEn = true
    ∧ Plain (noTick (onEngine fun en => { en with inTick := true, running := some 0 }))
    ∧ (noTick (onEngine fun en => { en with inTick := true, running := some 0 })).inTick = true := by decide
theorem test_leBounds : (0 : BitVec 4) ≠ 15 ∧ (2 : Fin 16).val % 2 = 0 ∧ (4 : Fin 16).val % 4 = 0 ∧ (2 : Nat) ≤ (2 : BitVec 6).toNat
    ∧ addr18 0x3FFF < 0x4000 ∧ addr18 0x3FFE + 1 < 0x4000 ∧ addr18 0x3FFD + 2 < 0x4000 ∧ (0x3FFF : BitVec 16).toNat < 0x4000
    ∧ plain.p[(0 : Fin 8)].toNat < 0x4000 ∧ (plain.modP 0).p[(1 : Fin 8)].toNat < 0x4000
    ∧ 0x4000 ≤ addr18 0x4000 ∧ addr18 0x43FC < 0x4400 ∧ addr18 0x43FC % 4 = 0
    ∧ 0x4300 + 0x20 * ((3 : Fin 32).val % 8) ≤ addr18 0x4360 ∧ addr18 0x437C < 0x4320 + 0x20 * ((3 : Fin 32).val % 8)
    ∧ addr18 0x437C % 4 = 0 := by decide
theorem test_leClampRange : (plain.g 0).toInt ≤ (plain.g 1).toInt ∧ (plain.g 0).toInt ≤ (plain.g 2).toInt
    ∧ (plain.g 2).toInt ≤ (plain.g 1).toInt := by decide
theorem test_leRepeats : ∃ t, let s := onEngine fun en => { en with rep := 1 }
    s.engines[(3 : Fin 32)].issues = true ∧ s.engines[(3 : Fin 32)].transfer = none ∧ s.engines[(3 : Fin 32)].late = []
      ∧ 0 < s.engines[(3 : Fin 32)].rep ∧ Runs (.leNop 3) s t := ⟨_, by decide, by decide, by decide, by decide, rfl⟩
theorem test_leIllegal : (1 : Fin 16).val % 2 = 1 ∧ (2 : Fin 16).val % 4 ≠ 0 ∧ (1 : BitVec 6).toNat < 2
    ∧ 0x4400 ≤ (0x5FFF : BitVec 16).toNat ∧ (0x5FFF : BitVec 16).toNat < 0x6000 ∧ 0x6007 < (0x6008 : BitVec 16).toNat
    ∧ 0x6000 ≤ (0x6000 : BitVec 16).toNat ∧ (0x6007 : BitVec 16).toNat ≤ 0x6007
    ∧ let en := noTick (onEngine fun en => { en with transfer := some (.jump 9, 2) })
      en.issues = true ∧ en.rep = 0 ∧ en.transfer.isSome = true := by decide
theorem test_leBranch : ∃ t u v, Plain plain ∧ (1 : BitVec 4) ≠ 15 ∧ Runs (.leBr 3 1 9) (onEngine id) t ∧ Runs (.leNop 3) t u
    ∧ Runs (.leNop 3) u v := ⟨_, _, _, by decide, by decide, rfl, rfl, rfl⟩

/-- The reset state with a domain started at L = 15,625 ns. -/
def inDomain : State := { State.reset with
  stage := { State.reset.stage with regs := { State.reset.stage.regs with pourLen := 15625 } } }
def onSlot (f : Slot → Slot) : Slot := f {}
def slotIn (st : BitVec 3) : Slot := { regs := { slotState := st } }
def master (p : BitVec 16) (v : Bool) : MasterSample :=
  { pour := p, pos := 0, valid := v, crcOk := true, stopping := false, uncertain := false }

theorem test_pourPoint : inDomain.stage.regs.pourLen ≠ 0 ∧ clocksRun inDomain = true ∧ State.reset.stage.regs.pourLen = 0
    ∧ comingPour inDomain = 0 ∧ clocksRun (modPower (fun p => { p with tripped := true }) inDomain) = false := by decide
theorem test_pourNumber : let n := (2 ^ 64 - 1) / inDomain.stage.regs.pourLen.toNat
    n * inDomain.stage.regs.pourLen.toNat < 2 ^ 64 := by decide
theorem test_slotDeadlines : let s (x : Slot) (ns : Nat) := modSlot 0 (fun _ => x) (after ns inDomain)
    slotMissing { slotIn 3 with steeping := true } = true ∧ slotMissing (slotIn 3) = false
    ∧ deadlineOf (s {} 20000) 1 ≤ (s {} 20000).dt.toInt ∧ (s {} 0).dt.toInt < deadlineOf (s {} 0) 1
    ∧ (slotIn 3).regs.nLate.toNat ≤ ({ slotIn 3 with regs := { (slotIn 3).regs with lateRun := 255 } } : Slot).regs.lateRun.toNat
    ∧ (slotIn 3).steeping = false ∧ (slotIn 4).regs.slotState = 4 ∧ (slotIn 1).regs.slotState = 1
    ∧ hasPassed (slotIn 4).lostAt ((slotIn 4).regs.tRide.toNat * 1000000) (after ((slotIn 4).regs.tRide.toNat * 1000000) inDomain)
      = true
    ∧ hasPassed (slotIn 4).lostAt ({ (slotIn 4).regs with tRide := 1 }.tRide.toNat * 1000000) (after 999999 inDomain) = false
    ∧ (slotIn 1).regs.order.toNat < ({ slotIn 1 with armRun := 16 } : Slot).armRun := by decide
theorem test_resteeps : let s := modSlot 0 (fun x => { x with resteep := some 0 }) { inDomain with dt := 3000 * 2 ^ 32 }
    s.slots[(0 : Fin 32)].resteep = some 0 ∧ s.dt.toNat ≤ (0 : Fix).toNat + 3000 * 2 ^ 32
    ∧ s.dt.toNat + 200 * 2 ^ 32 ≤ (pourAt s ((pourNum s).toNat + 1)).toNat
    ∧ (0 : Fix).toNat + 3000 * 2 ^ 32 < ({ s with dt := s.dt + 1 } : State).dt.toNat := by decide
theorem test_cutoffs : inDomain.stage.regs.pourLen ≠ 0
    ∧ let u := pwmUpdate 5 false (localTile 1)
      let s := modTileRegs 5 (fun r => { r with periodCount := 5 }) (localTile 2)
      let v := pwmUpdate 5 false (([0, 1, 2, 3] : List (Fin 4)).foldl
        (fun s j => modLoopRegs (tileLoop 5 j) (fun r => { r with localDiv := 4 }) s) s)
      (onCarrier u 5 false = true ∧ u.tiles[(5 : Fin 16)].regs.tileState ≠ 2)
        ∧ (v.tiles[(5 : Fin 16)].regs.tileState = 2 ∧ tickPeriod v 5 = false)
        ∧ onCarrier (pwmUpdate 5 false (localTile 2)) 5 false = false := by decide +kernel
theorem test_masterEntries : let s := modSlot 0 (fun _ => slotIn 2) inDomain
    let u := modLink (fun l => { l with taken := [entryKey s 0 (master 0 true)] }) s
    inDomain.stage.regs.pourLen ≠ 0 ∧ s.slots[(0 : Fin 32)].regs.slotState ≠ 0
    ∧ (master 0 true).valid = true ∧ (master 0 true).crcOk = true ∧ (master 0 false).valid = false
    ∧ s.link.taken.contains (entryKey s 0 (master 0 true)) = false
    ∧ u.link.taken.contains (entryKey u 0 (master 0 true)) = true := by decide
theorem test_masterEntries_pours :
    let d (p : BitVec 16) : Int := ((master p true).pour
      - (pourNum inDomain + 1 - inDomain.stage.regs.domainD.zeroExtend 64).truncate 16).toInt
    d (-2) = -3 ∧ d 17 = 16 ∧ d (-3) < -3 ∧ 16 < d 18 := by decide
def compareAt (t : BitVec 64) : CompareRegs := { cmpState := 1, target := t }
theorem test_compare : (compareAt 0).cmpState ≠ 0 ∧ compareDiff (compareAt 0).target (nsOf State.reset.dt) ≤ 0
    ∧ 0 < compareDiff (compareAt 1).target (nsOf State.reset.dt) := by decide
theorem test_pps : let s := modPps 0 (fun x => { x with active := true }) State.reset
    let u := modPps 0 (fun x => { x with regs := { x.regs with ppsState := 1 } }) State.reset
    s.pps[(0 : Fin 8)].active = true ∧ edgeDue s.pps[(0 : Fin 8)].trailing s = true
    ∧ u.pps[(0 : Fin 8)].active = false ∧ u.pps[(0 : Fin 8)].regs.ppsState ≠ 0 ∧ edgeDue u.pps[(0 : Fin 8)].next u = true := by
  decide
theorem test_servo : let s (st : BitVec 2) := after 1 (modTime (fun t => { t with
      lockRun := 64, unlockRun := 4, missRun := 4, tHoldMs := 0, regs := { t.regs with state := st } }) State.reset)
    (s 1).time.regs.state = 1 ∧ 64 ≤ (s 1).time.lockRun ∧ (s 2).time.regs.state = 2 ∧ 4 ≤ (s 2).time.unlockRun
      ∧ 4 ≤ (s 2).time.missRun ∧ (s 3).time.regs.state = 3 ∧ (s 3).time.holdoverDone = false
      ∧ (s 3).time.holdoverAt.toNat + (s 3).time.tHoldMs.toNat * 1000000 * 2 ^ 32 < (s 3).dt.toNat
      ∧ State.reset.dt.toNat ≤ State.reset.time.holdoverAt.toNat + State.reset.time.tHoldMs.toNat * 1000000 * 2 ^ 32 := by decide
theorem test_ptp : let s := modTime (fun t => { t with source := 2, regs := { t.regs with roleGm := true } }) State.reset
    s.time.regs.roleGm = true ∧ 2 ≤ s.time.source.toNat ∧ s.time.ptpLost = false
      ∧ s.time.source.toNat = 2 + (0 : Fin 2).val
      ∧ s.time.ptp[(0 : Fin 2)].domain = (s.time.ptp[(0 : Fin 2)].domain.truncate 8).setWidth 32 := by decide

def rec0 : EventRec := { code := 1, src := 2, t := 0 }
theorem test_fabric : { State.reset with events := { State.reset.events with fabric := [rec0] } }.events.fabric ≠ [] := by decide
theorem test_held : let s : State := { State.reset with
      dt := BitVec.ofNat 96 (1000000 * 2 ^ 32), events := { State.reset.events with held := [rec0] } }
    s.events.held.any (holdOver s) = true ∧ holdOver State.reset rec0 = false ∧ holdOver s rec0 = true
      ∧ s.events.log.length ≤ 4096 := by decide +kernel
theorem test_push : let s := onSession fun x => { x with pushQ := [[1, 2, 3, 4, 5, 6, 7, 8]] }
    pushFits 120 1019 s.ocp.sessions[(2 : Fin 80)].pushQ = 1 := by decide

theorem test_pcie : let s : State := modPowerRegs (fun r => { r with hostsel := false }) { State.reset with
      ocp := { State.reset.ocp with ident := { State.reset.ocp.ident with
        ringsEnable := true, reqRingSize := 32, rspRingSize := 32, evtRingSize := 32 } } }
    viaPcie s = true ∧ s.ocp.ident.ringsEnable = true ∧ s.ocp.ident.reqRingSize ≠ 0 ∧ s.ocp.ident.rspRingSize ≠ 0
      ∧ s.ocp.ident.evtRingSize ≠ 0 ∧ State.reset.ocp.ident.ringsEnable = false := by decide
theorem test_ringIndex : ringSizeOk 32 = true ∧ ringSizeOk 4096 = true ∧ ringMoved 32 65535 (65535 + 32) = 32
    ∧ ringMoved 4096 1 1 = 0 ∧ ringMoved 4096 1 0 = 4095 := by decide
theorem test_endedSession : let s := onSession fun x => { x with hist := [entry none] }
    entry none ∈ s.ocp.sessions[(2 : Fin 80)].hist ∧ (entry none).reply = none ∧ (entry none).chained = false
      ∧ (3 : Fin 80) ≠ 2 := by decide +kernel
def onSpi : State := modPowerRegs (fun r => { r with hostsel := true }) State.reset
theorem test_spi : let s (k : OutKind) := modSession 1 (fun x => { x with
      out := [(k, [9])], regs := { x.regs with creditsInUse := 1 } }) onSpi
    viaSpi onSpi = true ∧ onSpi.ocp.sessions[(1 : Fin 80)].out = [] ∧ windowOpen onSpi = true
    ∧ onSpi.power.regs.hostsel = true ∧ viaSpi (s .push) = true
    ∧ (s .push).ocp.sessions[(1 : Fin 80)].out = (.push, [9]) :: [] ∧ OutKind.push ≠ .reply
    ∧ (s .reply).ocp.sessions[(1 : Fin 80)].out = (.reply, [9]) :: []
    ∧ (s .reply).ocp.sessions[(1 : Fin 80)].regs.creditsInUse ≠ 0 := by decide
theorem test_window : let s := modPower (fun p => { p with blocks := [0x0200] }) State.reset
    windowOpen State.reset = true ∧ windowOpen (modPower (fun p => { p with boot := .off }) State.reset) = false
    ∧ 0x10000 % 4 = 0 ∧ inResetBlock State.reset 0x10000 = false ∧ inResetBlock s 0x1500000 = true ∧ windowOpen s = true
    ∧ 0x1500000 % 4 = 0 ∧ 0x10001 % 4 ≠ 0
    ∧ 0x10004 ∈ wideWords 0x10000 ∧ (State.reset.ocp.wide.find? fun x => x.1 = 0x10000) = none := by decide
theorem test_wide : let s := (readCapture 0x10000 State.reset).2
    s.ocp.wide = (readCapture 0x10000 State.reset).2.ocp.wide ∧ s.ocp.wide ≠ [] := by decide
theorem test_udp : let s := onSession fun x => { x with inUse := true, peerAddr := 9, peerPort := 5 }
    served s = true ∧ sourceAllowed s.ocp.net[(0 : Fin 2)] 9 = true
      ∧ sessionFor 2 10 (fun x => x.peerAddr = 9 && x.peerPort = 5) s = some (2, true)
      ∧ sessionFor 2 10 (fun x => x.peerAddr = 8 && x.peerPort = 5) s = some (3, false)
      ∧ 8 = 4 * ([1, 2] : List Word).length ∧ 7 ≠ 4 * ([1, 2] : List Word).length
      ∧ sourceAllowed { s.ocp.net[(0 : Fin 2)] with allow := [(1, 0xFF)] } 9 = false := by decide
theorem test_tunnelSession : sessionFor 16 80 (fun x => x.origin = 6)
    (modSession 16 (fun x => { x with inUse := true, origin := 6 }) State.reset) = some (16, true)
    ∧ sessionFor 16 80 (fun x => x.origin = 6) { State.reset with
      ocp := { State.reset.ocp with sessions := State.reset.ocp.sessions.map fun x => { x with inUse := true } } } = none := by decide +kernel
theorem test_sessionTimeouts : let h : HistEntry := { entry none with seq := 9, chained := true, p := some pk }
    let s := after 10000000000 (onSession fun x => { x with inUse := true, hist := [h] })
    2 ≤ (2 : Fin 80).val ∧ s.ocp.sessions[(2 : Fin 80)].inUse = true
      ∧ hasPassed s.ocp.sessions[(2 : Fin 80)].lastSeen 10000000000 s = true
      ∧ (s.ocp.sessions[(2 : Fin 80)].hist.filter fun q => q.seq = 9 && q.chained && q.reply.isNone).getLast? = some h
      ∧ h.p = some pk ∧ predecessor s.ocp.sessions[(2 : Fin 80)].hist h.orphan 9 = none
      ∧ hasPassed h.acceptedAt 200000 (after 200000 s) = true := by decide +kernel
theorem test_hibernateRequest : Fresh pk State.reset ∧ pk.chained = false
    ∧ Turn 0x0F04 pk (accepted dHibernate pk State.reset) ∧ Clean dHibernate pk (accepted dHibernate pk State.reset)
    ∧ acceptHibernate pk (accepted dHibernate pk State.reset) = Status.ok :=
  ⟨by decide, rfl, by decide +kernel, by decide, by decide⟩
theorem test_sessionResetRequest : Turn 0x0122 pk (accepted dSessionReset pk State.reset)
    ∧ Clean dSessionReset pk (accepted dSessionReset pk State.reset) := by decide +kernel
theorem test_tunnelRequest : let p : Packet := { pk with params := [1, 2, 0x20000004, 3, 0x02020000, 5] }
    Fresh p State.reset ∧ Turn 0x0120 p (accepted dTunnel p State.reset) ∧ Clean dTunnel p (accepted dTunnel p State.reset) := by
  decide +kernel
def waiting : TunnelWait := { session := 2, seq := 7, remote := 9, since := 0, hdr := pk, inner := [] }
def withOps (op : BitVec 16) : State := { State.reset with
  ocp := { State.reset.ocp with
    tunnels := [waiting], ops := [{ op := op, seq := 7, session := 2, target := 1 }], config := some {} } }
def image : ConfigImage :=
  { classF := false, writes := [], engines := [], recAxis := [], plan := none, priority := 0, roles := (false, false, false)
    map := none, childMap := none, population := 0 }
theorem test_endings : ((withOps 0).ocp.tunnels.find? fun w => w.session = 2 && w.seq = 7) = some waiting
    ∧ hasPassed waiting.since 100000000 (after 100000000 (withOps 0)) = true
    ∧ hasPassed waiting.since 100000000 (after 99999999 (withOps 0)) = false
    ∧ ((withOps 0).ocp.tunnels.all fun w => !(w.session = 2 && w.seq = 8)) = true
    ∧ ((withOps 0x0115).ocp.ops.find? fun o => o.op = 0x0115) = some { op := 0x0115, seq := 7, session := 2, target := 1 }
    ∧ (((withOps 0x0115).ocp.firmware[(1 : Fin 2)]).all fun l => loadCrcOk l) = true := by decide
theorem test_configImages : ((withOps 0x0112).ocp.ops.any fun o => o.op = 0x0112) = true
    ∧ commitImage (some image) (withOps 0x0112) = some (0, image) ∧ commitImage none (withOps 0x0112) = none
    ∧ strayLoop image = none := by decide +kernel
theorem test_transaction : let s := after 1000000000 (onSession fun x => { x with txn := some {} })
    s.ocp.sessions[(2 : Fin 80)].txn = some {} ∧ hasPassed ({} : Txn).last 1000000000 s = true := by decide

/-! ### Hypotheses of the statements on the link, the axes, the loops and the feedback -/

/-- The reset state with port 0 in a state, and changed. -/
def onPort (st : BitVec 3) (f : Port → Port) : State :=
  modPort 0 (fun x => f { x with regs := { x.regs with portState := st } }) State.reset
abbrev port (s : State) : Port := s.link.ports[(0 : Fin 4)]

/-- The reset state with port 0 the east port of ring 0. -/
def inRing (f : Port → Port) (st : BitVec 3) : State :=
  modLink (fun l => { l with plan := { l.plan with own := { l.plan.own with east := some 0, n := 4, pos := 2 } } }) (onPort st f)
theorem test_portStates : (port (onPort 0 id)).regs.portState = 0 ∧ (port (onPort 1 id)).regs.portState = 1
    ∧ (port (onPort 2 id)).regs.portState = 2 ∧ 2 ≤ (port (onPort 2 id)).regs.portState.toNat
    ∧ (port (onPort 2 id)).capMismatch = false ∧ (0x11 : Word).extractLsb' 0 4 = 1 ∧ (0x12 : Word).extractLsb' 0 4 ≠ 1
    ∧ ((State.reset.ocp.ident.fwLevel.extractLsb' 16 16 ++ (0 : BitVec 16) : Word)).extractLsb' 16 16
      = State.reset.ocp.ident.fwLevel.extractLsb' 16 16 := by decide
theorem test_portLocks : let m (b l : Bool) := onPort 1 fun x => { x with locked := l, regs := { x.regs with medium := b } }
    let s := after 100000 (m true true)
    (port (m false false)).regs.medium = false ∧ (port (m true true)).regs.medium = true ∧ (port (m true true)).locked = true
      ∧ (port (m true false)).locked = false ∧ hasPassed (port s).lockAt 100000 s = true
      ∧ hasPassed (port (m true true)).lockAt 100000 (after 99999 (m true true)) = false
      ∧ transmits (inRing id 1) 0 = true ∧ transmits State.reset 0 = false := by decide
theorem test_delays : let s := inRing (fun x => { x with delayReq := true, delays := List.replicate 14 1 }) 3
    let u := inRing (fun x => { x with delayReq := true, delays := List.replicate 15 1 }) 4
    3 ≤ (port s).regs.portState.toNat ∧ transmits s 0 = true ∧ (port s).delayReq = true ∧ (port s).delays.length < 15
      ∧ (port (onPort 3 id)).delayReq = false ∧ (port u).delayReq = true ∧ 15 ≤ (port u).delays.length
      ∧ (port u).regs.portState ≠ 3 ∧ (port s).regs.portState = 3 ∧ (port (onPort 2 id)).regs.portState.toNat < 3 := by decide
def electing : State := modLink (fun l => { l with priority := 5, mayMaster := true }) State.reset
theorem test_election : electable electing = true
    ∧ electBest [(electing.link.priority, electing.ocp.ident.moduleId, electing.link.mayMaster, electing.ocp.ident.quarantined),
        (5, 7, true, false)] = some (5, electing.ocp.ident.moduleId)
    ∧ electable State.reset = true ∧ electBest [(State.reset.link.priority, State.reset.ocp.ident.moduleId,
        State.reset.link.mayMaster, State.reset.ocp.ident.quarantined)] = none
    ∧ electBest [(255, 0, true, false), (5, 7, false, false)] = none
    ∧ (modLink (fun l => { l with started := true }) State.reset).link.started = true := by decide
theorem test_challenge : let s := modLinkRing 0 (fun x => { x with master := true }) State.reset
    let m := after 100000000 (modMap 0 3 (fun m => { m with challenged := some (5, 0), commissioned := 6 }) State.reset)
    challengeRing s 64 = some 0 ∧ challengeRing (inRing id 0) 2 = none
      ∧ ((List.finRange 2).find? fun r => ringN (inRing id 0) r ≠ 0 && ringPosOf (inRing id 0) r = (2 : Fin 65).val) = some 0
      ∧ openChallenge m 3 = some 0 ∧ openChallenge State.reset 3 = none
      ∧ m.link.rings[(0 : Fin 2)].map[(3 : Fin 65)].commissioned = 6
      ∧ m.link.rings[(0 : Fin 2)].map[(3 : Fin 65)].challenged = some (5, 0) ∧ hasPassed 0 100000000 m = true
      ∧ (modLink (fun l => { l with lockUntil := some 9 }) State.reset).link.lockUntil = some 9
      ∧ State.reset.dt.toNat < (9 : Fix).toNat ∧ (9 : Fix).toNat ≤ (after 1 State.reset).dt.toNat := by decide
theorem test_fragments : let f : Fragment := { dest := 0, kind := 1, words := List.replicate 127 0 }
    let s (n : BitVec 6) := inRing (fun x => { x with regs := { x.regs with txCredits := n } }) 4
    4 ≤ (port (s 1)).regs.portState.toNat ∧ (port (s 1)).regs.txCredits ≠ 0 ∧ (port (s 0)).regs.txCredits = 0
      ∧ f.words.length ≤ 127 ∧ 127 < ({ f with words := List.replicate 128 0 } : Fragment).words.length
      ∧ gapFits (s 1) 0 (f.words.length + 1) = true ∧ onRoute (s 1) 0 9 = true
      ∧ f.dest = (s 1).ocp.ident.moduleId ∧ ({ f with dest := 9 } : Fragment).dest ≠ (s 1).ocp.ident.moduleId ∧ f.kind = 1
      ∧ (port (s 1)).regs.rxBusy.toNat < 32 ∧ (port (onPort 3 id)).regs.portState.toNat < 4 := by decide +kernel
/-- In the gap: 128 words take 1,638.4 ns, and 200 ns are kept. -/
theorem test_gap : let s (l : Word) : State := modPort 0 (fun x => { x with frameAt := some 0 }) { State.reset with
      stage := { State.reset.stage with regs := { State.reset.stage.regs with pourLen := l } } }
    gapFits (s 1839) 0 128 = true ∧ gapFits (s 1838) 0 128 = false := by decide
def frame (type : BitVec 8) : PourFrame :=
  let h := [type.zeroExtend 32, 0, 0, 0, 0, 0, 0]
  { words := h ++ [crcWords h], dtFull := 0 }
theorem test_ring : let s := modLink (fun l => { l with started := true }) (inRing id 4)
    (modLinkRing 0 (fun x => { x with master := true }) State.reset).link.rings[(0 : Fin 2)].master = true
      ∧ State.reset.link.started = false ∧ 4 ≤ (port s).regs.portState.toNat ∧ ringOf s 0 = some 0 ∧ ringOf State.reset 0 = none
      ∧ frameGood s 0 (frame 0xA6) = true ∧ frameIsPour (frame 0xA6) = false
      ∧ frameGood s 0 (frame 0xA7) = true ∧ frameIsPour (frame 0xA7) = true ∧ frameGood s 0 (frame 0xA5) = false
      ∧ (frameTime 0 (frame 0xA7) s).link.started = true := by decide +kernel
theorem test_breaks : let s (f : Port → Port) := inRing f 4
    (port (s id)).regs.broken = false ∧ isEast (s id) 0 0 = true ∧ isEast (s id) 0 1 = false ∧ (port (s id)).locked = false
      ∧ (port (s fun x => { x with regs := { x.regs with los := true } })).regs.los = true
      ∧ (let x := port (s fun x => { x with locked := true, signal := true })
        x.regs.los = false ∧ x.signal = true ∧ x.locked = true)
      ∧ ringState State.reset 0 = 0 ∧ ringState (setRingState 0 1 State.reset) 0 = 1
      ∧ ringState (setRingState 0 3 State.reset) 0 = 3 ∧ ringState (setRingState 0 2 (s id)) 0 = 2
      ∧ State.reset.link.split = false ∧ State.reset.link.rings[(0 : Fin 2)].master = false := by decide
def checks : DomainChecks :=
  { complete := true, planMatch := true, anyEnabled := false, capacityOk := true, dOk := true, locked := true, tConfOk := true
    tai := 0, taiDt := 0, exp := 6, d := 8, wrapCheck := false, epochValid := false, delays := [], clocks := [] }
def starting (n : BitVec 3) : DomainReq := { exp := n, d := 8, wrapCheck := false }
theorem test_domainStart : ∀ n ∈ [(0 : BitVec 3), 6], ∀ r ∈ [checks, { checks with locked := false }],
    let s := modLink (fun l => { l with domainReq := some (starting n) }) State.reset
    let q := starting n
    let st := startStatus r q.exp.toNat q.d.toNat q.wrapCheck (evalPlan (pourOfExp q.exp.toNat) (noteReports r s))
    s.link.domainReq = some q ∧ q.exp.toNat ≤ 6 ∧ (st = Status.ok ↔ r.locked = true) := by decide
theorem test_domainFollows : let r := { checks with exp := 6 }
    State.reset.link.domainReq = none ∧ State.reset.time.regs.roleGm = false ∧ State.reset.link.started = false ∧ r.exp.toNat ≤ 6
      ∧ startStatus r r.exp.toNat r.d.toNat r.wrapCheck (evalPlan (pourOfExp r.exp.toNat) (noteReports r State.reset))
        = Status.ok := by decide
theorem test_domainStop : ((withOps 0x0307).ocp.ops.any fun o => o.op = 0x0307) = true
    ∧ (true || anyEnabled (withOps 0x0307)) = true ∧ (false || anyEnabled (withOps 0x0307)) = false
    ∧ (State.reset.ocp.ops.any fun o => o.op = 0x0307) = false ∧ State.reset.time.regs.roleGm = false := by decide

def onAxis (f : Axis → Axis) : State := modAxis 5 f State.reset
abbrev axis (s : State) : Axis := s.axes[(5 : Fin 112)]
def hardStop (m : BitVec 4) : HomeRun := { method := m, dirPos := true, passStart := 0 }
theorem test_axisEvents : let h : HomeRun := { hardStop 10 with slowSince := some 0 }
    let s := after 50000000 (onAxis fun x => { x with
      home := some h, atIHome := true, regs := { x.regs with homePhase := 2, vCreep := 1, tHs := 50 } })
    (axis s).home = some h ∧ h.method = 10 ∧ (hardStop 9).method = 9 ∧ (axis s).regs.homePhase = 2 ∧ isStepper s 5 = false
      ∧ (axis s).atIHome = true ∧ (8 * (axis s).regs.actVel.toInt.natAbs : Int) < (axis s).regs.vCreep.toInt
      ∧ h.slowSince = some 0 ∧ hasPassed 0 ((axis s).regs.tHs.toNat * 1000000) s = true ∧ (axis State.reset).home = none
      ∧ (hardStop 10).slowSince = none := by decide
theorem test_axisTimes : let s := after 60000000000 (onAxis fun x => { x with holdSince := some 0, restSince := some 0 })
    (axis s).holdSince = some 0 ∧ hasPassed 0 ((axis s).regs.holdTime.toNat * 1000000) s = true
      ∧ (axis s).restSince = some 0 ∧ hasPassed 0 ((axis s).regs.inPosTime.toNat * 1000) s = true
      ∧ (axis State.reset).holdSince = none ∧ (axis State.reset).restSince = none := by decide
theorem test_markMissing : let s := onAxis fun x => { x with
      regTravel := 3 * 2 ^ 32, follow := { x.follow with regState := 1 }, regCfg := { x.regCfg with missLimit := 3, pitch := 1 } }
    let far : Int := (((axis s).regCfg.missLimit.toNat * (axis s).regCfg.pitch.toNat : Nat) : Int) * 2 ^ 32
    (axis s).follow.regState = 1 ∧ far = (axis s).regTravel.toInt ∧ (axis State.reset).follow.regState ≠ 1 := by decide
def onLoop (f : Loop → Loop) : State := modLoop 9 f State.reset
abbrev loop (s : State) : Loop := s.loops[(9 : Fin 96)]
def direct : DirectWrite := { coef := 6, v := 1, at_ := 0 }
theorem test_directWrites : (loop (onLoop fun l => { l with regs := { l.regs with tuning := true } })).regs.tuning = true
    ∧ (loop State.reset).regs.tuning = false ∧ (loop State.reset).direct = []
    ∧ (loop (onLoop fun l => { l with direct := [direct] })).direct = direct :: []
    ∧ loopBusy (onLoop fun l => { l with direct := [direct] }) 9 = false := by decide
theorem test_loopBusy : loopBusy (modEngine 0 (fun en => { en with ticks := upd en.ticks 15 fun tk => { tk with
    pending := true, regs := { tk.regs with firstLoop := 9, loopMask := 1 } } }) State.reset) 9 = true := by decide
theorem test_loopConditions : let s := after 70000000000 (onLoop fun l => { l with
      satSince := some 0, supSince := some 0, regs := { l.regs with satTime := 1, supModel := 1, supActive := true } })
    (loop s).satSince = some 0 ∧ hasPassed 0 ((loop s).regs.satTime.toNat * 1000000) s = true ∧ (loop s).satRaised = false
      ∧ (loop s).regs.satTime ≠ 0 ∧ (loop s).regs.supModel ≠ 0
      ∧ (loop s).regs.supActive = true ∧ (loop s).supSince = some 0 ∧ hasPassed 0 ((loop s).regs.tSup.toNat * 1000000) s = true
      ∧ (loop State.reset).satSince = none ∧ (loop State.reset).supSince = none := by decide
theorem test_traceComplete : let s (st : BitVec 3) := modTrace 3 (fun x => { x with regs := { x.regs with trState := st } }) State.reset
    (s 3).traces[(3 : Fin 4)].regs.trState = 3 ∧ (s 3).traces[(3 : Fin 4)].post ≤ (s 3).traces[(3 : Fin 4)].sincePost
      ∧ State.reset.traces[(3 : Fin 4)].regs.trState ≠ 3 := by decide

def tickOn (k : BitVec 3) (p : Bool) : State := onEngine fun en => { en with
  ticks := upd en.ticks 15 fun tk => { tk with pending := p, regs := { tk.regs with en := true, sourceKind := k } } }
theorem test_ticks : let tk (s : State) : TickEntry := s.engines[(3 : Fin 32)].ticks[(15 : Fin 16)]
    let en := (tickOn 1 true).engines[(3 : Fin 32)]
    (tk (tickOn 2 false)).regs.en = true ∧ (tk (tickOn 2 false)).regs.sourceKind ≠ 0 ∧ (tk (tickOn 2 false)).regs.sourceKind ≠ 3
      ∧ tickTile (tk (tickOn 2 false)).regs = none ∧ tickTile (tk (tickOn 1 false)).regs = some 0
      ∧ 0 < max 1 (rateLoop (tickOn 1 false) 0).k.toNat
      ∧ (tk State.reset).regs.en = false ∧ (tk (tickOn 1 true)).pending = true
      ∧ (∀ i : Fin 16, i.val < (15 : Fin 16).val → en.ticks[i].pending = false) ∧ en.running = none ∧ en.regs.leState = 2
      ∧ en.rep = 0 ∧ (tk State.reset).pending = false := by decide
/-- The words of the least image for engine 3: one instruction, no tick entry. -/
def leastImage (clock : BitVec 4) : Mem :=
  memPutWords [] 0 [0x4C450001, 0x00000001, 0x300 + clock.zeroExtend 32]
def header (clock : BitVec 4) : Mem :=
  memPutWord (leastImage clock) 0x7F (crcWords (memWords (leastImage clock) 0 0x7F))
def load3 : EngineLoad :=
  let d := header State.reset.engines[(3 : Fin 32)].regs.clock
  { size := 129, crc := crcWords (memWords d 0 129), data := d }
set_option maxRecDepth 100000 in
theorem test_image : imageCheck State.reset 3 load3 = none := by decide +kernel
theorem test_image_bad : imageCheck State.reset 3 { size := 0, crc := 1, data := [] } = some (Status.imageInvalid, 0) := by
  decide
theorem test_engineEvents : let s := { onEngine (fun en => { en with load := some load3 }) with
      ocp := { State.reset.ocp with ops := [{ op := 0x0703, seq := 7, session := 2, target := 3 }] } }
    s.engines[(3 : Fin 32)].load.isSome = true
      ∧ (s.ocp.ops.any fun o => o.op = 0x0703 && o.target = BitVec.ofNat 16 (3 : Fin 32).val) = true
      ∧ s.engines[(3 : Fin 32)].regs.leState ≠ 4
      ∧ (onEngine fun en => { en with regs := { en.regs with leState := 4 } }).engines[(3 : Fin 32)].regs.leState = 4 := by
  decide

def onSd (c : Fin 160) (f : SdChannel → SdChannel) : State := modSd c f State.reset
def clkOn : State := { State.reset with sdClks := Vector.replicate 8 { en := true } }
theorem test_samples : let s := modTile 2 (fun tl => { tl with
      regs := { tl.regs with mode := 1 }, foc := { tl.foc with regs := { tl.foc.regs with sense := true } } }) clkOn
    let late := { clkOn with dt := 0x280000000 }
    isWindowed clkOn 20 = false ∧ clkOn.sds[(20 : Fin 160)].regs.stuck = false
      ∧ (sdClock clkOn 20).en = true ∧ sdBoundary clkOn 20 = true ∧ sdBoundary late 20 = false ∧ isWindowed s 22 = true
      ∧ (sdClock State.reset 20).en = false
      ∧ legShunt s.tiles[(2 : Fin 16)] = true ∧ legShunt State.reset.tiles[(2 : Fin 16)] = false := by decide
theorem test_channelFaults : let s := onSd 159 fun c => { c with orRun := 255, regs := { c.regs with overrange := false } }
    let u := onSd 159 fun c => { c with regs := { c.regs with overrange := true, stuck := true } }
    s.sds[(159 : Fin 160)].regs.overrange = false ∧ s.sds[(159 : Fin 160)].regs.orN.toNat ≤ s.sds[(159 : Fin 160)].orRun
      ∧ s.sds[(159 : Fin 160)].orRun ≠ 0 ∧ u.sds[(159 : Fin 160)].regs.overrange = true
      ∧ s.sds[(159 : Fin 160)].regs.stuck = false ∧ u.sds[(159 : Fin 160)].regs.stuck = true := by decide
theorem test_ntc : let t : Tile := { ntcRun := 10 }
    10 ≤ t.ntcRun ∧ t.ntc.ntcFault = false ∧ ({ ntcRun := 9 } : Tile).ntcRun < 10 := by decide
def onEnc (f : Encoder → Encoder) : State := modEnc 16 f State.reset
abbrev enc (s : State) : EncRegs := s.encs[(16 : Fin 17)].regs
theorem test_index : let s := onEnc fun e => { e with regs := { e.regs with zEn := true, idxMode := 1, zGate := 1, levels := 3 } }
    (enc s).zEn = true ∧ gateMatches (enc s) = true ∧ indexArmed s 16 = true ∧ encTile 16 = none
      ∧ (enc (onEnc fun e => { e with regs := { e.regs with zEn := false } })).zEn = false := by decide
theorem test_levels : let a0 := (enc State.reset).levels.getLsbD 0
    let b0 := (enc State.reset).levels.getLsbD 1
    (!a0) ≠ a0 ∧ (!b0) ≠ b0 := by decide
theorem test_ssi : let e : Encoder := { frameAt := some 0, fails := 255, ssiSet := true, tickJ := some 4 }
    let f (p : Bool) : Encoder := { e with regs := { e.regs with errEn := true, errPol := p, bits := 16, errBit := 16 } }
    let ns := 5 * e.regs.ssiHalf.toNat * e.regs.bits.toNat
    e.ssiSet = true ∧ ({} : Encoder).ssiSet = false ∧ e.frameAt = some 0 ∧ ({} : Encoder).frameAt = none
      ∧ e.tickJ = some 4 ∧ 4 % max 1 e.regs.ssiTickDiv.toNat = 0 ∧ e.tickAt.toNat ≤ State.reset.dt.toNat
      ∧ State.reset.dt.toNat ≤ e.tickAt.toNat + 2 * 0x280000000
      ∧ hasPassed 0 2000 (after 2000 State.reset) = true ∧ hasPassed 0 ns (after ns State.reset) = true
      ∧ hasPassed 0 1 State.reset = false
      ∧ (f true).regs.errEn = true ∧ (1 : BitVec 64).getLsbD ((f true).regs.bits.toNat - (f true).regs.errBit.toNat) = (f true).regs.errPol
      ∧ e.regs.errEn = false ∧ e.failed = false ∧ e.regs.failN.toNat ≤ e.fails ∧ e.fails ≠ 0
      ∧ ({} : Encoder).fails = 0 := by decide

/-! ### Hypotheses of the statements on the tiles, the motors and the captures -/

/-- The reset state with tile 15 changed. -/
def onTile (f : Tile → Tile) : State := modTile 15 f State.reset
abbrev tile (s : State) : Tile := s.tiles[(15 : Fin 16)]
def fltTile (filt : BitVec 7) : State := onTile fun t => { t with regs := { t.regs with fltEn := true, fltFilt := filt } }

theorem test_faultInput : (tile (fltTile 0)).regs.fltEn = true ∧ (tile (fltTile 0)).regs.tripInput = false
    ∧ (if (tile (fltTile 0)).regs.fltFilt = 0 then 5 else 10 * (tile (fltTile 0)).regs.fltFilt.toNat) = 5
    ∧ (if (tile (fltTile 3)).regs.fltFilt = 0 then 5 else 10 * (tile (fltTile 3)).regs.fltFilt.toNat) = 30
    ∧ 9 + 20 < 30 ∧ (tile (onTile fun t => { t with regs := { t.regs with fltEn := false } })).regs.fltEn = false := by decide
theorem test_hall : hallRuns (tile State.reset) = false
    ∧ hallRuns (tile (onTile fun t => { t with regs := { t.regs with mode := 1, block := true } })) = true := by decide
theorem test_brake : let s := onTile fun t => { t with
      pw := { t.pw with chopOn := true }, regs := { t.regs with dclMember := true, dcl := 3 } }
    tileGroup (tile s) = some 3 ∧ (tile s).pw.chopOn = true ∧ (tile s).pw.chopOk = false
      ∧ tileGroup (tile State.reset) = none := by decide
/-- The reset state with tile 15 switching its brake resistor on at 0, and told nothing yet. -/
def braking : State := onTile fun t => { t with pw := { t.pw with chopOn := true }, regs := { t.regs with dclMember := true, dcl := 3 } }
theorem test_brakeCheck : chopperSettle 15 3 (after 1000000000 braking) = after 1000000000 braking := rfl
theorem test_brakeChecked : let s := after 1000000000 braking
    hasPassed (tile s).pw.chopAt (1000 * s.dcls[(3 : Fin 4)].regs.tChk.toNat) s = true := by decide
def undervolted (v : Word) : State :=
  modDcl 3 (fun x => { x with uvFrom := some 0, regs := { x.regs with undervolt := true, vUv := 100, vBrkOff := 116 } }) (onTile fun t => { t with
    pw := { t.pw with vdc := v }, regs := { t.regs with dclMember := true, dcl := 3 } })
theorem test_undervoltage : (undervolted 102).dcls[(3 : Fin 4)].regs.undervolt = true ∧ uvGone (undervolted 102) 3 = true
    ∧ uvGone (undervolted 101) 3 = false ∧ (undervolted 102).dcls[(3 : Fin 4)].uvFrom = some 0
    ∧ hasPassed 0 10000000 (after 10000000 (undervolted 102)) = true ∧ State.reset.dcls[(3 : Fin 4)].regs.undervolt = false := by decide

/-- The reset state with tile 15 as a running sensorless motor in this start state. -/
def starting15 (st : BitVec 3) (f : Foc → Foc) : State := onTile fun t => { t with
  regs := { t.regs with mode := 1, tileState := 2 }
  foc := f { t.foc with regs := { t.foc.regs with
    angleSrc := true, startState := st, flyMinEmf := 10, vCatch := 20, mMax := 19, startRetries := 3 } } }
theorem test_listen : let s := starting15 1 id
    let r := (tile s).foc.regs
    sensorlessTile s 15 = true ∧ inStart s 15 1 = true ∧ (9 : Word).toNat < r.flyMinEmf.toNat ∧ r.flyMinEmf.toNat ≤ (10 : Word).toNat
      ∧ abs32 (-19) < r.vCatch.toNat ∧ r.vCatch.toNat ≤ abs32 (-20) ∧ 20 * (18 : Word).toNat ≤ 19 * r.mMax.toNat
      ∧ sensorlessTile State.reset 15 = false := by decide
/-- A state is left at its time and not 1 ns before it. -/
theorem test_startTimes : let s := starting15 1 fun f => { f with retryAt := none, regs := { f.regs with tAlign := 5, tBrake := 5 } }
    inStartFor (after 5000000 s) 15 5 = true ∧ inStartFor (after 4999999 s) 15 5 = false ∧ inStart (after 5000000 s) 15 1 = true
      ∧ sensorlessTile (after 5000000 s) 15 = true ∧ (tile s).foc.regs.tAlign.toNat = 5 ∧ (tile s).foc.regs.tBrake.toNat = 5
      ∧ hasPassed 0 5000000 (after 5000000 s) = true ∧ hasPassed 0 5000000 (after 4999999 s) = false := by decide
theorem test_startStates : inStart (starting15 2 id) 15 2 = true ∧ inStart (starting15 4 id) 15 4 = true
    ∧ inStart (starting15 6 id) 15 6 = true ∧ inStart (starting15 7 fun f => { f with lostSince := some 0 }) 15 7 = true
    ∧ (tile (starting15 7 fun f => { f with lostSince := some 0 })).foc.lostSince.isSome = true
    ∧ (tile (starting15 7 id)).foc.lostSince = none
    ∧ let s := starting15 4 fun f => { f with regs := { f.regs with angleSrc := false } }
      sensorlessTile s 15 = false ∧ inStart s 15 4 = true := by decide
theorem test_converged : let s (a : Bool) := starting15 6 fun f => { f with convSince := some 0, regs := { f.regs with angleSrc := a } }
    let u := modLoopRegs (tileLoop 15 0) (fun r => { r with programId := 2 }) (s false)
    runsObserver (s true) 15 = true ∧ (tile (s true)).regs.mode = 1 ∧ (tile (s true)).foc.regs.obsConverged = false
      ∧ (tile (s true)).foc.convSince.isSome = true ∧ runsObserver u 15 = true ∧ (tile u).foc.regs.angleSrc = false
      ∧ inStart (s true) 15 6 = true ∧ (tile (starting15 6 id)).foc.convSince = none := by decide
theorem test_startTimeout : let s (n : BitVec 4) := starting15 6 fun f => { f with regs := { f.regs with startTries := n } }
    (tile (s 2)).foc.regs.startTries.toNat < (tile (s 2)).foc.regs.startRetries.toNat
      ∧ (tile (s 3)).foc.regs.startRetries.toNat ≤ (tile (s 3)).foc.regs.startTries.toNat
      ∧ sensorlessTile (starting15 1 fun f => { f with retryAt := some 0 }) 15 = true
      ∧ (tile (starting15 1 fun f => { f with retryAt := some 0 })).foc.retryAt = some 0
      ∧ (tile (starting15 1 id)).regs.tileState = 2
      ∧ (tile (starting15 1 id)).foc.retryAt = none := by decide
theorem test_current : let f (n : Nat) : Foc := { sumRun := n, predRun := n, regs := { predMax := 7 } }
    (f 7).sumRun < 8 ∧ 8 ≤ (f 8).sumRun ∧ (f 7).predRun ≤ (f 7).regs.predMax.toNat ∧ (f 8).noWindow = false
      ∧ (f 8).regs.predMax.toNat < (f 8).predRun := by decide
def found : IdentOutcome := { offset := 0, rs := 0x3F800000, ld := 0x3F800000, lq := 0x3F800000, psi := 0x3F800000, ka := 0, kb := 0, kf := 0 }
/-- The reset state with tile 15 identifying these steps, its R_s and inductances known to be 1.0. -/
def identifying (m : BitVec 5) : State := onTile fun t => { t with foc := { t.foc with
  identMask := m, regs := { t.foc.regs with identifying := true, rs := 0x3F800000, ld := 0x3F800000, lq := 0x3F800000 } } }
/-- The first of the steps of the mask that the outcome fails, as R377 finds it. -/
def firstFail (m : BitVec 5) (o : IdentOutcome) : Option Nat :=
  (List.range 5).find? fun i => (tile (identifying m)).foc.identMask.getLsbD i && stepImplausible (identifying m) 15 o i
theorem test_identify : firstFail 6 found = none ∧ firstFail 6 { found with rs := 0xBF800000 } = some 1
    ∧ firstFail 6 { found with lq := 0x7F800000 } = some 2 ∧ (tile (identifying 6)).foc.regs.identifying = true
    ∧ ({} : Foc).regs.identifying = false
    ∧ ((6 : BitVec 5) &&& 31).getLsbD 1 = true ∧ ((6 : BitVec 5) &&& 31).getLsbD 2 = true
    ∧ ((6 : BitVec 5) &&& BitVec.ofNat 5 (2 ^ 1 - 1)).getLsbD 1 = false
    ∧ (({ psi := 0x3F800000 } : FocRegs).psi) = 0x3F800000 ∧ ((8 : BitVec 5) &&& 31).getLsbD 3 = true := by decide +kernel

def onChop (f : Chopper → Chopper) (g : Sv → Sv) : State := onTile fun t => { t with
  sv := g { t.sv with chop := upd t.sv.chop 1 f } }
abbrev sv (s : State) : Sv := (tile s).sv
theorem test_chopper : let s (r : Bool) := onChop (fun x => { x with state := 1, reached := r }) id
    let u := onChop (fun x => { x with state := 3, blank := true, under := true }) fun v => { v with regs := { v.regs with decay := 2 } }
    (sv (s true)).chop[(1 : Fin 2)].state = 1 ∧ (sv (s true)).chop[(1 : Fin 2)].under = false
      ∧ (sv (s true)).chop[(1 : Fin 2)].reached = true ∧ (sv (s true)).regs.underdrive.getLsbD 1 = false
      ∧ (sv (s false)).chop[(1 : Fin 2)].reached = false ∧ (sv u).chop[(1 : Fin 2)].blank = true
      ∧ (sv (s true)).chop[(1 : Fin 2)].blank = false ∧ (sv u).chop[(1 : Fin 2)].state = 3 ∧ (sv u).regs.decay = 2
      ∧ (sv u).chop[(1 : Fin 2)].under = true
      ∧ hasPassed (sv u).chop[(1 : Fin 2)].blankAt (sv u).regs.tBlank.toNat (after 100000000 u) = true
      ∧ hasPassed (sv u).chop[(1 : Fin 2)].fastAt (sv u).regs.tFast.toNat (after 100000000 u) = true
      ∧ hasPassed (sv u).chop[(1 : Fin 2)].driveAt (1000 * (sv u).regs.tDriveMax.toNat) (after 100000000 u) = true
      ∧ hasPassed (sv u).chop[(1 : Fin 2)].driveAt (1000 * (sv u).regs.tDriveMax.toNat) (after 0 u) = false
      ∧ (sv u).chop[(1 : Fin 2)].told = false
      ∧ (sv (onChop (fun x => { x with told := true }) id)).chop[(1 : Fin 2)].told = true ∧ (sv (s true)).chop[(1 : Fin 2)].state ≠ 3 := by decide
theorem test_stall : let v (n : Nat) : Sv := { stallRun := n, idleSince := some 0, settling := true, regs := { stallN := 4 } }
    hasPassed 0 (1000000 * (v 3).regs.tIdle.toNat) (after 1000000000000 State.reset) = true ∧ (v 3).stallRun < (v 3).regs.stallN.toNat ∧ (v 4).regs.stallN.toNat ≤ (v 4).stallRun ∧ (v 4).regs.stalled = false
      ∧ (v 3).idleSince.isSome = true ∧ ({} : Sv).idleSince = none ∧ (v 3).settling = true ∧ ({} : Sv).settling = false := by
  decide
theorem test_stallHoming : let s := modAxis (tileAxis 15) (fun x => { x with home := some (hardStop 9) }) State.reset
    ((s.axes[tileAxis 15].home).any fun h => decide (h.method = 9) || decide (h.method = 10)) = true
      ∧ ((State.reset.axes[tileAxis 15].home).any fun h => decide (h.method = 9) || decide (h.method = 10)) = false := by decide
theorem test_coils : let v : Sv := { measLeft := 2, openSince := Vector.replicate 2 (some 0) }
    let s := after 1000000000000 State.reset
    hasPassed v.measAt (1000000 * v.regs.tMeas.toNat) s = true ∧ hasPassed v.measAt 1000000 s = true
      ∧ hasPassed 0 (1000000 * v.regs.tOpen.toNat) s = true ∧ v.measLeft.getLsbD 1 = true ∧ v.measLeft.getLsbD 0 = false ∧ v.openSince[(1 : Fin 2)].isSome = true
      ∧ ({} : Sv).openSince[(1 : Fin 2)] = none
      ∧ (tile (onTile fun t => { t with regs := { t.regs with mode := 3 } })).regs.mode = 3 := by decide
/-- Volts 0 over any current are 0: between a range from 0 up, below a range from 1.0 up; no bound of 0 fails it. -/
theorem test_coilRange : f149 0 ≤ f149 0 ∧ f149 0 < f149 0x3F800000 ∧ ¬(0 < f149 0) ∧ 0 < f149 0x3F800000 := by decide

theorem test_capture : let r : CapRegs := { level := true, invert := true }
    ((false : Bool) != r.invert) = r.level ∧ ((true : Bool) != r.invert) ≠ r.level ∧ r.level ≠ r.qualLevel
      ∧ ({} : CapRegs).level = ({} : CapRegs).qualLevel
      ∧ (let s := modCap 47 (fun x => { x with regs := { x.regs with deb := 100 } }) State.reset
         capStable (after 1000 s) 47 = true ∧ capStable (after 999 s) 47 = false) := by decide
/-- A mark of an axis that has no sample, unit 7 and slot 0, waiting first. -/
def marked : State :=
  let s := modGu 7 (fun g => { g with meas := upd g.meas 0 fun m => { m with axis := 80 } }) State.reset
  { s with geyser := { s.geyser with latches := [{ what := .mark 47 7 0 true false, edge := { rising := true, t := 0, fine := 0, fineOk := false } }] } }
theorem test_mark : asFin 112 marked.geyser.units[(7 : Fin 8)].meas[(0 : Fin 8)].axis.toNat = some 80
    ∧ markFirst marked.geyser.latches 0 7 0 = true ∧ latchAt marked 80 false { rising := true, t := 0, fine := 0, fineOk := false } = some none := by
  decide +kernel
def edge0 : RawEdge := { rising := true, t := 0, fine := 0, fineOk := false }
def latch0 (l : LatchReq) : State := { State.reset with
  geyser := { State.reset.geyser with latches := [{ what := .record 3 47 l { axis := 112, sp := false }, edge := edge0 }] } }
theorem test_latch : let l : LatchReq := { axis := 127, sp := false }
    State.reset.geyser.latches.length ≤ 0 ∧ (latch0 l).geyser.latches[0]?.isSome = true
      ∧ recordLatch (latch0 l) l edge0 = some none
      ∧ recordLatch (drew 2 (latch0 l)) { axis := 112, sp := false } edge0 = some none
      ∧ recordLatch (latch0 { axis := 16, sp := true }) { axis := 16, sp := true } edge0 = none := by decide
theorem test_recorder : let s (n : Nat) := modGu 7 (fun g => { g with occ := n, regs := { g.regs with guState := 1, div := 3 } }) State.reset
    let at_ := modTile 5 (fun t => { t with pw := { t.pw with periodStart := 5 } }) (localTile 2)
    guArmed State.reset.geyser.units[(7 : Fin 8)] = false ∧ sampleDue { at_ with dt := 5 } 5 = true ∧ sampleDue { at_ with dt := 6 } 5 = false
      ∧ State.reset.geyser.units[(7 : Fin 8)].occAt ≠ some 0 ∧ guArmed (s 4).geyser.units[(7 : Fin 8)] = true
      ∧ guArmed (guSettle 7 (s 4)).geyser.units[(7 : Fin 8)] = true
      ∧ (guSettle 7 (s 4)).geyser.units[(7 : Fin 8)].occ % ((guSettle 7 (s 4)).geyser.units[(7 : Fin 8)].regs.div.toNat + 1) = 0
      ∧ (guSettle 7 (s 3)).geyser.units[(7 : Fin 8)].occ % ((guSettle 7 (s 3)).geyser.units[(7 : Fin 8)].regs.div.toNat + 1) ≠ 0
      ∧ State.reset.power.blocks.contains (BitVec.ofNat 16 (0x100 + (7 : Fin 8).val)) = false := by decide

/-! ### Hypotheses of the statements on Caldera -/

/-- A bank that reads without fault: the value when its switch is closed, the walking bit when open, as R479 reads it. -/
def bankOf (v : BitVec 16) : Vector (BitVec 16) 18 := Vector.ofFn fun k =>
  if k.val = 0 then v else if k.val = 1 then 0 else if v.getLsbD (k.val - 2) then v else 1 <<< (k.val - 2)
theorem test_caldera : let c : Caldera := {}
    c.disagreed = false ∧ ({ c with disagreed := true } : Caldera).disagreed = true ∧ (-15000 : Int).natAbs ≤ 15000
      ∧ 15000 < (-15001 : Int).natAbs ∧ c.selfTest = false ∧ c.fault = none
      ∧ ({ c with fault := some 1 } : Caldera).fault.isSome = true ∧ c.readFault = false ∧ c.changed = false ∧ c.cfgTaken = false
      ∧ c.firstRead ≠ some 1 := by decide
theorem test_bank : bankFault (bankOf 1) = none ∧ bankFault ((bankOf 1).set 1 2) = some 2
    ∧ bankFault ((bankOf 1).set 17 0) = some 18 ∧ cfgValue (bankOf 1)[0] = true ∧ cfgValue 0 = false ∧ (bankOf 1)[0] ≠ 2 := by
  decide
/-- A line low at every tick of a period, one never low, and one that another source's pulse reached. -/
def levelled (w : BitVec 96) : Caldera := { inputs := Vector.replicate 8 { a := { levels := w }, b := { levels := w } } }
theorem test_pulses : pulseMissing (levelled (-1)) 15 = true ∧ pulseMissing (levelled 0) 15 = false
    ∧ foreignPulse (levelled (-1)) 15 = false ∧ foreignPulse (levelled (-1 - (1 <<< 79))) 15 = true
    ∧ (levelled 0).periodOver = false ∧ ({ levelled 0 with periodOver := true } : Caldera).periodOver = true := by decide +kernel
def onCal (f : Caldera → Caldera) : State := modCal f State.reset
theorem test_safetyInputs : let x (n : Nat) : SafetyInput := { disagree := n, b := { crossShort := true } }
    (x 99).disagree + 1 ≤ discTicks 0 ∧ discTicks 0 ≤ (x 100).disagree ∧ (x 100).disc = false
      ∧ (calChannel (onCal fun c => { c with inputs := upd c.inputs 7 fun _ => x 0 }).caldera 15).crossShort = true
      ∧ (calChannel State.reset.caldera 15).crossShort = false := by decide
theorem test_filters : let s (f : Bool) (n : Nat) := modChannel 15 (fun x => { x with filtered := f, releasedRun := n, demandRun := n }) State.reset
    let n := filtTicks State.reset.caldera.used
    (calChannel (s true (n - 1)).caldera 15).filtered = true ∧ (calChannel (s true (n - 1)).caldera 15).releasedRun < n
      ∧ (calChannel (s false (n - 1)).caldera 15).filtered = false ∧ (calChannel (s false (n - 1)).caldera 15).demandRun < n
      ∧ n ≤ (calChannel (s true n).caldera 15).releasedRun ∧ n ≤ (calChannel (s false n).caldera 15).demandRun := by decide
def quiet (k : Fin 8) : State := onCal fun c => { c with
  cfgTaken := true, used := 1
  inputs := Vector.ofFn fun i : Fin 8 => { a := { filtered := decide (i = k) }, b := { filtered := decide (i = k) } } }
theorem test_reset : let takes (s : State) (g : Fin 2) : Bool := !groupDemand s.caldera g && resetKinds s.caldera g
    takes (quiet 7) 0 = true ∧ takes (quiet 7) 1 = true ∧ takes (quiet 1) 0 = true ∧ takes (quiet 1) 1 = false
      ∧ takes (quiet 0) 0 = false ∧ takes (quiet 0) 1 = true ∧ takes State.reset 0 = false ∧ takes State.reset 1 = false
      ∧ (quiet 7).caldera.inputs[(7 : Fin 8)].disc = false
      ∧ (let x : SafetyInput := { pressed := 1000 }; let y : SafetyInput := { pressed := 50000 }
         1000 ≤ x.pressed ∧ x.pressed ≤ 50000 ∧ 1000 ≤ y.pressed ∧ y.pressed ≤ 50000) := by decide
theorem test_heartbeat : carrierRuns (localTile 2) 5 = true ∧ carrierRuns (localTile 3) 5 = false
    ∧ (let s := modCal (fun c => { c with tiles := upd c.tiles 5 fun x => { x with beats := 20 } }) (localTile 2)
       carrierRuns s 5 = true ∧ 20 ≤ s.caldera.tiles[(5 : Fin 16)].beats ∧ (localTile 2).caldera.tiles[(5 : Fin 16)].beats < 20)
    ∧ genWrong State.reset.caldera 0 = 0 ∧ genOn State.reset.caldera 5 = false := by decide
theorem test_safetyGroups : let x (p : GroupPhase) : SafetyGroup := { phase := p, stillMs := 10, slsRequested := true }
    let c : Caldera := { ms := 4 }
    ss1Ms 0 ≤ ({ x .ss1 with ss1Ms := 100 } : SafetyGroup).ss1Ms ∧ ({ x .ss1 with ss1Ms := 99 } : SafetyGroup).ss1Ms < ss1Ms 0
      ∧ ss1Ms 0 ≤ (c.ms - ({ x .sto with slsFrom := -96 } : SafetyGroup).slsFrom).toNat
      ∧ (c.ms - ({ x .sto with slsFrom := -95 } : SafetyGroup).slsFrom).toNat < ss1Ms 0
      ∧ (x .ss1).phase = .ss1 ∧ (x .sto).phase = .sto ∧ (x .sto).phase ≠ .ss1 ∧ 10 ≤ (x .ss1).stillMs ∧ stopFn 0x80 1 = 2 ∧ stopFn 0x20 0 = 2
      ∧ (x .sto).slsRequested = true ∧ ({} : SafetyGroup).slsRequested = false ∧ sbcOn 0 1 = false ∧ sbcOn 0x2000 1 = true
      ∧ ((true && false) = false) ∧ ({ fault := true } : Sbo).fault = true ∧ ({} : Sbo).fault = false := by decide

/-! ### Hypotheses of the statements on field I/O and CAN -/

def onFio (f : FioRegs → FioRegs) : FioRegs := f {}
theorem test_fieldInputs : ({} : FioChannel).fieldQual ≠ true ∧ State.reset.fio.linkFault = false
    ∧ (modFieldIo (fun f => { f with linkFault := true }) State.reset).fio.linkFault = true
    ∧ (let s := modFioRegs 23 (fun r => { r with deb := 1 }) State.reset
       hasPassed (0 + s.fio.timeMap) (1000 * s.fio.chans[(23 : Fin 24)].regs.deb.toNat - 50) (after 950 s) = true
         ∧ hasPassed (0 + s.fio.timeMap) (1000 * s.fio.chans[(23 : Fin 24)].regs.deb.toNat - 50) (after 949 s) = false)
    ∧ hasPassed State.reset.fio.applyAt 100000 (after 100000 State.reset) = true ∧ hasPassed State.reset.fio.applyAt 100000 State.reset = false
    ∧ hasPassed State.reset.fio.frameAt 20000 (after 20000 State.reset) = true := by decide
theorem test_fieldOutputs : let x (n : BitVec 2) : FioRegs := { applied := true, shutdowns := n }
    let y : FioRegs := { dir := true }
    let s := modFioRegs 23 (fun r => { r with dir := true }) State.reset
    (x 1).applied = true ∧ (x 1).shutdowns.toNat < 2 ∧ 2 ≤ (x 2).shutdowns.toNat ∧ y.applied = false ∧ y.dir = true
      ∧ y.shortVin = false ∧ y.backfeed = false ∧ s.fio.chans[(23 : Fin 24)].regs.dir = true
      ∧ s.fio.chans[(23 : Fin 24)].regs.applied = false ∧ fioSearched s 23 = false ∧ s.fio.subjects.contains 23 = false
      ∧ s.fio.regs.undervolt = false := by decide
/-- Output 23 with its land high or low since 0: 10 ms of it count, and the second of R518. -/
theorem test_outputTimes : let s (raw : Bool) := modFioRegs 23 (fun r => { r with dir := true, raw := raw }) State.reset
    rawFor10 true 23 (after 10000000 (s true)) = true ∧ rawFor10 true 23 (after 9999999 (s true)) = false
      ∧ rawFor10 false 23 (after 10000000 (s false)) = true ∧ rawFor10 false 23 (s false) = false
      ∧ hasPassed (s true).fio.chans[(23 : Fin 24)].appliedAt 10000000 (after 10000000 (s true)) = true
      ∧ hasPassed (s true).fio.chans[(23 : Fin 24)].appliedAt 50000 (after 50000 (s true)) = true
      ∧ hasPassed (s true).fio.chans[(23 : Fin 24)].heatAt 1000000000 (after 1000000000 (s true)) = true
      ∧ ({ hot := true } : FioChannel).hot = true ∧ ({} : FioChannel).hot = false := by decide
theorem test_overload : let s := modFieldIo (fun f => { f with overAt := upd f.overAt 2 fun _ => some 0, vinAt := some 0 }) State.reset
    (s.fio.overAt[(2 : Fin 3)].any fun t => hasPassed t 10000000 (after 10000000 s)) = true
      ∧ (s.fio.vinAt.any fun t => hasPassed t 10000000 (after 10000000 s)) = true
      ∧ (State.reset.fio.overAt[(2 : Fin 3)].any fun t => hasPassed t 10000000 State.reset) = false
      ∧ hasPassed s.fio.candidateAt 1000000 (after 1000000 s) = true ∧ hasPassed s.fio.candidateAt 1000000 s = false := by decide
theorem test_search : let s := modFieldIo (fun f => { f with
      candidate := some 4, regs := { f.regs with searchActive := true, searchSubject := 23, undervolt := true } }) State.reset
    s.fio.candidate = some 4 ∧ asFin 24 s.fio.regs.searchSubject.toNat = some 23 ∧ State.reset.fio.candidate = none
      ∧ s.fio.regs.undervolt = true ∧ s.fio.regs.restore = true
      ∧ (modFioModule (fun r => { r with restore := false }) s).fio.regs.restore = false ∧ State.reset.fio.groups[(2 : Fin 3)].groupOverload = false := by
  decide

/-- The reset state with CAN controller 3 changed. -/
def onCan (f : Can → Can) : State := modCan 3 f State.reset
def normal (f : Can → Can) : State := onCan fun c => f { c with regs := { c.regs with mode := 1, integrating := false } }
abbrev can (s : State) : Can := (canSettle 3 s).cans[(3 : Fin 4)]
def req0 : CanReq := { handle := 5, ident := 0x123, dlc := 0, fdf := false, brs := false, oneShot := false, data := [] }
theorem test_canBus : let s := normal fun c => { c with txq := [req0] }
    canHeld s 3 = false ∧ (can s).regs.mode = 1 ∧ (can s).regs.integrating = false ∧ (can s).regs.errState.toNat < 2
      ∧ (can s).ttObject = none ∧ busReq (can s) = some req0 ∧ (can s).regs.ttRunning = false
      ∧ (can (normal fun c => { c with ttWindow := true })).ttWindow = true ∧ busReq (can (normal id)) = none
      ∧ (can (normal fun c => { c with ttObject := some 63 })).ttObject = some 63 := by decide +kernel
theorem test_canColumns : let x : CanColumn := { offset := 0, txen := 31, cells := [0xFD] }
    let s := normal fun c => { c with columns := upd c.columns 63 fun _ => some x, regs := { c.regs with ttRunning := true } }
    (can s).columns[(63 : Fin 64)] = some x ∧ (can s).regs.ttRunning = true ∧ (can s).regs.cycleNow.toNat = 0
      ∧ atColumn (can s) x (canSettle 3 s).dt = true ∧ (can s).regs.mode = 1 ∧ x.txen.toNat ≤ 31 ∧ 30 < x.txen.toNat
      ∧ (x.cells.getD 0 0).extractLsb' 0 2 = 1 ∧ 63 = ((x.cells.getD 0 0).extractLsb' 2 6).toFin
      ∧ (can (normal id)).columns[(63 : Fin 64)] = none := by decide +kernel
theorem test_canStates : let s := onCan fun c => { c with
      ttReload := some 0, modeReq := some 1, sleepReq := true, regs := { c.regs with errState := 3, mode := 4 } }
    (can s).ttReload = some 0 ∧ (0 : Fix).toNat ≤ (canSettle 3 s).dt.toNat ∧ (can s).modeReq = some 1 ∧ (can s).sleepReq = true ∧ (can s).regs.errState = 3 ∧ (can s).regs.mode = 4
      ∧ (can State.reset).ttReload = none ∧ (can State.reset).modeReq = none ∧ (can State.reset).sleepReq = false
      ∧ (can State.reset).regs.errState ≠ 3 ∧ (can State.reset).regs.mode = 0 := by decide +kernel
theorem test_canWake : let r : CanRegs := { mode := 4, wakeFilt := 5, wakeId := 0x123, wakeMask := 0x7FF }
    let f : CanFrame := { ident := 0x123, dlc := 0, brs := false, esi := false, data := [], sof := 0 }
    r.wakeFilt.toNat * 100 ≤ 500 ∧ 499 < r.wakeFilt.toNat * 100 ∧ r.wakeMode = false ∧ wakeMatch r f = true
      ∧ wakeMatch r { f with ident := 0x122 } = false ∧ ({ r with wakeMode := true } : CanRegs).wakeMode = true := by decide
theorem test_canFilters : let f : CanFilterRegs := { fltEn := true, fltMatch := 0x123, fltMask := 0x7FF }
    let s := normal fun c => { c with filters := upd c.filters 31 fun _ => f, regs := { c.regs with fdEn := true } }
    (can s).regs.fdEn = true ∧ (f.fltEn && ((0x123 ^^^ f.fltMatch) &&& f.fltMask) = 0) = true ∧ f.fltAction = 0
      ∧ ((List.finRange 32).find? fun k : Fin 32 =>
        (can s).filters[k].fltEn && (((0x123 : Word) ^^^ (can s).filters[k].fltMatch) &&& (can s).filters[k].fltMask) = 0) = some 31
      ∧ filtersAt (can s).filters 0 (can s).filtersWas = (can s).filters ∧ 1 < ({ f with fltAction := 2 } : CanFilterRegs).fltAction.toNat
      ∧ ({ f with fltAction := 1 } : CanFilterRegs).fltAction = 1 ∧ (can s).regs.nomatchField = false
      ∧ (can (normal fun c => { c with regs := { c.regs with nomatchField := true } })).regs.nomatchField = true := by
  decide +kernel
theorem test_canQueue : let s := onCan fun c => { c with entries := upd c.entries 1 fun _ => [[9]] }
    let u := onCan fun c => { c with entries := upd c.entries 1 fun _ => [[9]], rxq := upd c.rxq 1 fun q => { q with locked := true } }
    canHeld s 3 = false ∧ s.cans[(3 : Fin 4)].entries[(1 : Fin 2)] ≠ [] ∧ State.reset.cans[(3 : Fin 4)].entries[(1 : Fin 2)] = []
      ∧ u.cans[(3 : Fin 4)].rxq[(1 : Fin 2)].locked = true ∧ s.cans[(3 : Fin 4)].rxq[(1 : Fin 2)].locked = false := by decide

/-! ### Hypotheses of the statements on power, memory and the laws -/

/-- The reset state with the bring-up at a step, and changed. -/
def booting (b : BootStep) (f : Power → Power) : Power := f { State.reset.power with boot := b }
theorem test_bringUp : (booting .off id).boot = .off ∧ (booting .off id).hibernating = false ∧ (booting .held id).boot = .held
    ∧ (booting .held id).resetNHeld = false ∧ (booting .trim fun p => { p with regs := { p.regs with trimTries := 2 } }).regs.trimTries = 2
    ∧ (booting .clocks fun p => { p with clkSel := 1 }).clkSel = 1 ∧ (booting .clocks fun p => { p with clkSel := 2 }).clkSel = 2
    ∧ (booting .clocks fun p => { p with clkSel := 3 }).clkSel = 3 ∧ (booting .networkLoad id).boot = .networkLoad
    ∧ (booting .boot fun p => { p with imageOk := true }).imageOk = true ∧ (booting .boot id).imageOk = false
    ∧ (booting .boot id).triedOther = false ∧ (booting .boot fun p => { p with triedOther := true }).triedOther = true
    ∧ (booting .hostLoad id).boot = .hostLoad
    ∧ loadOver (after 60000000000 State.reset) = true ∧ loadOver (after 59999999999 State.reset) = false
    ∧ (booting .hostLoad fun p => { p with bootLength := 0xC00000 }).bootLength.toNat ≤ 0xC00000
    ∧ 0xC00000 < (booting .hostLoad fun p => { p with bootLength := 0xC00001 }).bootLength.toNat ∧ (0x4C4F4144 : Word) ≠ 0 := by decide
theorem test_resets : let p : Power := { State.reset.power with
      cpReset := true, blocks := [0x203], hibernating := true, resetNHeld := true }
    hasPassed p.cpAt 50000 (after 50000 State.reset) = true ∧ hasPassed p.cpAt 50000 (after 49999 State.reset) = false
      ∧ ((p.blocksAt.find? (·.1 = 0x203)).all fun x => hasPassed x.2 10000 State.reset) = true
      ∧ (([(0x203, (0 : Fix))].find? (·.1 = (0x203 : BitVec 16))).all fun x => hasPassed x.2 10000 (after 9999 State.reset)) = false
      ∧ p.cpReset = true ∧ p.cpReleased = false ∧ p.blocks.contains 0x203 = true ∧ p.blocksReleased.contains 0x203 = false
      ∧ p.blocks.contains 0x202 = false ∧ p.hibernating = true ∧ p.resetNHeld = true := by decide
theorem test_supply : let v : Vault := { saving := some {} }
    let p : Power := { State.reset.power with hibernateOwed := true, v3aLimited := true, regs := { State.reset.power.regs with pfArmed := false } }
    let isOver : Fix → Bool := fun t => hasPassed t 100000000 (after 100000000 State.reset)
    ((some 0).any isOver) = true ∧ (State.reset.fio.vinHighAt.any isOver) = false
      ∧ hasPassed p.hibernateAt 10000000 (after 10000000 State.reset) = true ∧ hasPassed p.hibernateAt 10000000 State.reset = false
      ∧ v.saving = some {} ∧ State.reset.power.vault.saving = none ∧ State.reset.power.regs.pfArmed = true ∧ p.regs.pfArmed = false
      ∧ p.hibernateOwed = true ∧ State.reset.power.hibernateOwed = false ∧ p.v3aLimited = true ∧ State.reset.power.v3aOn = true
      ∧ State.reset.power.v3aLimited = false := by decide
def hotModule (k : BitVec 2) (x : BitVec 12) (tr : Bool) : Power :=
  { State.reset.power with tripped := tr, regs := { State.reset.power.regs with kettleState := k, sensorExcluded := x } }
theorem test_kettle : (hotModule 0 0 true).tripped = true ∧ (kettleRead 11 13500 State.reset).power.tripped = false
    ∧ ((liveTemps (hotModule 0 0 true).regs).all (· < 10000)) = true ∧ (hotModule 0 0x800 false).regs.sensorExcluded.getLsbD 11 = true
    ∧ (hotModule 0 0 false).regs.sensorExcluded.getLsbD 11 = false ∧ (hotModule 2 0 false).regs.kettleState = 2
    ∧ (hotModule 3 0 false).regs.kettleState = 3 ∧ ((liveTemps (hotModule 3 0 false).regs).all (· < 10500)) = true
    ∧ (hotModule 0 0 false).regs.kettleState ≠ 2
    ∧ hasPassed (hotModule 2 0 false).warnAt 200000000 (after 200000000 State.reset) = true
    ∧ hasPassed (hotModule 2 0 false).warnAt 200000000 State.reset = false := by decide
/-- Sensors 11 at its limits, and one stuck for 10 s beside one that has moved by 5 degrees. -/
theorem test_sensors : let stuck (d : Int) := modPowerRegs (fun r => { r with temp := upd r.temp 0 fun x => x + BitVec.ofInt 32 d }) State.reset
    tempSound (BitVec.ofInt 32 (-5000)) = true ∧ tempSound 16000 = true ∧ tempSound 16001 = false ∧ tempSound (BitVec.ofInt 32 (-5001)) = false
      ∧ sensorStuck 11 (after 10000000000 (modPower (fun p => { p with sameRef := Vector.replicate 12 p.regs.temp }) (stuck 0))) = false
      ∧ sensorStuck 11 { after 10000000000 (stuck 500) with power :=
          { (stuck 500).power with sameRef := Vector.replicate 12 State.reset.power.regs.temp } } = true
      ∧ ((some (0 : Fix)).any fun t => hasPassed t 10000000000 (after 10000000000 State.reset)) = true
      ∧ (State.reset.power.coolAt.any fun t => hasPassed t 10000000000 State.reset) = false := by decide

theorem test_memory : memWf (memPutWords [] 3 [1, 2]) = true ∧ 1 < ([1, 2] : List Word).length ∧ 11 < 4 * 3
    ∧ 4 * (3 + ([1, 2] : List Word).length) ≤ 20 ∧ memWf State.reset.portMem[tileCluster 15] = true ∧ (0 : Fin 4) ≠ tileCluster 15 := by
  decide
theorem test_gear : let g : Gear := { n := 1, d := 3, rem := 2, acc := 2 ^ 64 - 1, inc := 0, queue := [], fired := [] }
    0 < g.d ∧ 0 ≤ g.rem ∧ g.rem < g.d ∧ 0 ≤ g.acc ∧ g.acc < 2 ^ 64 ∧ (0 : Int) < 7
      ∧ gearChanges [.inl 5, .inr (2, 7), .inl (-4)] = 1 := by decide
def lawIn : LawIn := { sp := 3, fb := 1, x := 0, ff := 0, kp := 0, lo := -1, hi := 1, track := 0 }
theorem test_law : lawIn.lo.toInt ≤ lawIn.hi.toInt ∧ (0 : BitVec 2) ≠ 1 ∧ -2 ^ 55 ≤ ((0 : Word) ++ (0 : Word)).toInt
    ∧ ((0 : Word) ++ (0 : Word)).toInt < 2 ^ 55 := by decide
theorem test_law_sum (lo hi : Word) : ((law (fun _ => 0) {} 0 false { lawIn with lo := lo, hi := hi }).nodes.getD 5 0) = 0 := by
  have h : (0 : Word).toInt = 0 := rfl
  have h' : ((0 : Word) ++ (0 : Word)).toInt = 0 := rfl
  have s : sat32 0 = 0 := rfl
  have t : sat56 0 = 0 := rfl
  have u : (0 : BitVec 2) ≠ 1 ∧ (0 : BitVec 2) ≠ 2 := by decide
  simp only [law, lawIn, h, h', Int.zero_mul, Int.mul_zero, Int.zero_ediv, s, Int.add_zero, Int.sub_self, u.1, u.2]
  simp [s, t]
/-- That sum lies between -1 and 1, below 1, and above -1. -/
theorem test_law_bounds : (-1 : Word).toInt ≤ (0 : Word).toInt ∧ (0 : Word).toInt < (1 : Word).toInt := by decide
theorem test_law_hold (get : Nat → Word) (l : Loop) (b : Bool) (x : LawIn) (hs : get 0x27 = 0) (hk : get 0x21 = 1) :
    (x.x = 4294967296 → 0 < (get 0x21).toInt * ((law get l 0 b x).nodes.getD 0 0).toInt)
      ∧ (x.x = -4294967296 → (get 0x21).toInt * ((law get l 0 b x).nodes.getD 0 0).toInt < 0) := by
  have h : (law get l 0 b x).nodes.getD 0 0 = sat32 (shiftIn (clampInt (-16) 15 (get 0x27).toInt) x.x) := by simp [law]
  rw [h, hs, hk]
  constructor <;> intro e <;> rw [e] <;> decide
theorem test_vent : (tile (onTile fun t => { t with regs := { t.regs with tileState := 4 } })).regs.tileState = 4
    ∧ (0 : Fin 16) ≠ 15 ∧ (0 : Fin 112) ≠ tileAxis 15 := by decide

/-! ### One step each, the expected values worked out from the rules -/

/-- R291: ADDI of -1 to 0 gives all ones. -/
theorem test_addi : ∃ t, Runs (.leAddi 3 1 0 (-1)) (onEngine id) t ∧ t.engines[(3 : Fin 32)].g 1 = 0xFFFFFFFF := ⟨_, rfl, by decide +kernel⟩
/-- A step takes the front command and leaves the rest. -/
theorem test_step : ∃ t, step { inDomain with pending := [.vinLoss, .powerOn] } = .next t ∧ t.pending = [.powerOn] := ⟨_, rfl, rfl⟩

/-- Every opcode is ordered and bounded by the class that its own row gives it (R85). -/
def descs : List OpDesc :=
  [dAxisScaleSet, dAxisStatus, dHomeResult, dAxisPolicySet, dBlockReset, dBlockResetReport, dCalderaStatus, dSafecfgRead, dSafeSpeedRead, dCalderaFaultRead, dCanConfig, dCanModeSet] ++
  [dCanFilterSet, dCanRxqConfig, dCanRxRead, dCanTx, dCanTxCancel, dCanBusoffRecover, dCanSleep, dCanTtConfig, dCanTtColumnSet, dCanTtData, dCanTtEnable, dCanStatus] ++
  [dCapRead, dCapStatus, dIndexArm, dFbPolicySet, dSdStatus, dFbStatus, dFioFaultClear, dFioPolicySet, dFioRestore, dFioStatus, dFocPolicySet, dMotorIdentify] ++
  [dIdentResult, dFocStatus, dFollowStatus, dFollowPolicySet, dCamLoadBegin, dCamLoadData, dCamLoadEnd, dCamTableStatus, dRegStatus, dGuConfig, dGuTriggerSet, dGuArm] ++
  [dGuForce, dGuStop, dGuRelease, dGuStatus, dMarkStatus, dLeImageBegin, dLeImageData, dLeImageEnd, dLeStatus, dLePolicySet, dLeCountersClear, dLeDataRead] ++
  [dLeRestart, dLinkStatus, dPortConfig, dSegmentStatus, dSegmentMapRead, dNodeAccept, dDomainStart, dDomainStop, dPlanCheck, dEventForwardSet, dLinkCountersClear, dLinkPolicySet] ++
  [dLoopStatus, dLoopPolicySet, dTraceConfig, dTraceArm, dTraceForce, dTraceStop, dTraceStatus, dHibernate, dResetStatus, dVaultSave, dVaultRead, dVaultWrite] ++
  [dKettleStatus, dPowerPolicySet, dDiagRead, dSlotStatus, dSlotPolicySet, dIdentityRead, dAttest, dStatusRead, dEventRead, dEventSubscribe, dVaultEventsRead, dEcho] ++
  [dCountersRead, dConfigBegin, dConfigData, dConfigCommit, dFirmwareBegin, dFirmwareData, dFirmwareActivate, dTunnel, dNetConfig, dSessionReset, dImageStreamSet, dHostInputPolicy] ++
  [dStageOpen, dStageCommit, dStageAbort, dStageStatus, dStageCancel, dTileTripClear, dTileLoadAll, dTileStatus, dTilePolicySet, dDclStatus, dBrakeClear, dTimeRead] ++
  [dTimeStatus, dTimeSourceSet, dPtpConfig, dTimePolicySet, dCompareArm, dCompareCancel, dPpsConfig, dPpsStop, dPourStatus, dTimeReload, dStepTableLoad, dSvPolicySet] ++
  [dSvStatus]
theorem test_classes : (descs.all fun d => decide (opClass d.op = d.cls)) = true := by decide +kernel
theorem test_opcodes : (descs.map (·.op)).Nodup := by decide +kernel
end Sys2Proof.Tests
end

section
/-! PROOF. What a vent leaves: the tile without output, its axis disabled, its loops OFF, everything else as it was
(R24, R25, R339, R341). -/

namespace Sys2Proof.Machine

/-! ### Ended operations leave the units alone -/

/-- A field that no step of a fold changes. -/
theorem foldl_frame {α β : Type} (get : State → β) (g : State → α → State) (h : ∀ s a, get (g s a) = get s)
    (l : List α) (s : State) : get (l.foldl g s) = get s := by
  induction l generalizing s with
  | nil => rfl
  | cons a l ih => rw [List.foldl_cons, ih, h]

/-- What neither the queue of operations nor a record is part of, ended operations leave alone. -/
theorem endOps_frame {β : Type} (get : State → β) (ho : ∀ s o, get { s with ocp := o } = get s)
    (hr : ∀ e s, get (record e s) = get s) (sel : PendingOp → Bool) (st : BitVec 16) (s : State) :
    get (endOps sel st s) = get s := by
  unfold endOps
  exact (foldl_frame get _ (fun s _ => hr _ s) _ _).trans (ho s _)

@[simp] theorem endOps_tiles (sel : PendingOp → Bool) (st : BitVec 16) (s : State) : (endOps sel st s).tiles = s.tiles :=
  endOps_frame State.tiles (fun _ _ => rfl) (fun _ _ => rfl) sel st s
@[simp] theorem endOps_axes (sel : PendingOp → Bool) (st : BitVec 16) (s : State) : (endOps sel st s).axes = s.axes :=
  endOps_frame State.axes (fun _ _ => rfl) (fun _ _ => rfl) sel st s
@[simp] theorem endOps_engines (sel : PendingOp → Bool) (st : BitVec 16) (s : State) : (endOps sel st s).engines = s.engines :=
  endOps_frame State.engines (fun _ _ => rfl) (fun _ _ => rfl) sel st s

/-! ### The tile's words in port memory, its identification, its loops -/

@[simp] theorem writeTileStatus_tiles (t : Fin 16) (s : State) : (writeTileStatus t s).tiles = s.tiles := rfl
@[simp] theorem writeTileStatus_axes (t : Fin 16) (s : State) : (writeTileStatus t s).axes = s.axes := rfl
@[simp] theorem writeTileStatus_loops (t : Fin 16) (s : State) : (writeTileStatus t s).loops = s.loops := rfl
@[simp] theorem writeTileStatus_engines (t : Fin 16) (s : State) : (writeTileStatus t s).engines = s.engines := rfl

@[simp] theorem abortIdent_axes (t : Fin 16) (s : State) : (abortIdent t s).axes = s.axes := by
  unfold abortIdent; split <;> simp
@[simp] theorem abortIdent_engines (t : Fin 16) (s : State) : (abortIdent t s).engines = s.engines := by
  unfold abortIdent; split <;> simp
/-- An aborted identification changes the tile's field control, not its registers. -/
theorem abortIdent_tile_regs (t : Fin 16) (s : State) : (abortIdent t s).tiles[t].regs = s.tiles[t].regs := by
  unfold abortIdent
  split
  · simp only [endOps_tiles, modTile_tiles, upd_self]
  · rfl
theorem abortIdent_tile_ne {t v : Fin 16} (h : v ≠ t) (s : State) : (abortIdent t s).tiles[v] = s.tiles[v] := by
  unfold abortIdent; split <;> simp [upd_ne _ _ h]

@[simp] theorem loopsOff_tiles (t : Fin 16) (s : State) : (loopsOff t s).tiles = s.tiles := rfl
@[simp] theorem loopsOff_axes (t : Fin 16) (s : State) : (loopsOff t s).axes = s.axes := rfl
@[simp] theorem loopsOff_engines (t : Fin 16) (s : State) : (loopsOff t s).engines = s.engines := rfl

theorem upd_loopOff_keeps {v : Vector Loop 96} {j : Fin 96} (i : Fin 96) (h : v[j].regs.loopMode = 3) :
    (upd v i loopOff)[j].regs.loopMode = 3 := by
  by_cases e : j = i
  · subst e; rw [upd_self]; rfl
  · rw [upd_ne v _ e]; exact h
theorem upd_loopOff_self (v : Vector Loop 96) (i : Fin 96) : (upd v i loopOff)[i].regs.loopMode = 3 := by
  rw [upd_self]; rfl
/-- All four loops of the tile's axis are OFF. -/
theorem loopsOff_loopMode (t : Fin 16) (j : Fin 4) (s : State) : (loopsOff t s).loops[tileLoop t j].regs.loopMode = 3 := by
  simp only [loopsOff, modLoop_loops]
  match j with
  | 0 => exact upd_loopOff_keeps _ (upd_loopOff_keeps _ (upd_loopOff_keeps _ (upd_loopOff_self ..)))
  | 1 => exact upd_loopOff_keeps _ (upd_loopOff_keeps _ (upd_loopOff_self ..))
  | 2 => exact upd_loopOff_keeps _ (upd_loopOff_self ..)
  | 3 => exact upd_loopOff_self ..

/-! ### The states of a tile (R321, R339) -/

@[simp] theorem setTileState_tileState (st : BitVec 3) (tl : Tile) : (setTileState st tl).regs.tileState = st := by
  unfold setTileState
  split
  · assumption
  · split <;> rfl
@[simp] theorem setTileState_ventCause (st : BitVec 3) (tl : Tile) :
    (setTileState st tl).regs.ventCause = tl.regs.ventCause := by
  unfold setTileState
  split
  · rfl
  · split <;> rfl
/-- A tile that ran or was frozen, and now neither runs nor is frozen, has released its outputs. -/
theorem setTileState_legs_released {st : BitVec 3} {tl : Tile} (h : tl.regs.tileState = 2 ∨ tl.regs.tileState = 4)
    (h2 : st ≠ 2) (h4 : st ≠ 4) : (setTileState st tl).pw.legs = Vector.replicate 4 {} := by
  have hst : tl.regs.tileState ≠ st := by rcases h with h | h <;> rw [h] <;> exact Ne.symm ‹_›
  unfold setTileState
  rw [if_neg hst]
  split
  · rfl
  · next hrun => exact if_pos (by simpa [h.resolve_left hrun] using h2)
/-- Released outputs stay released. -/
theorem setTileState_legs_stay (st : BitVec 3) {tl : Tile} (h : tl.pw.legs = Vector.replicate 4 {}) :
    (setTileState st tl).pw.legs = Vector.replicate 4 {} := by
  unfold setTileState
  split
  · exact h
  · split <;> simp [h]

@[simp] theorem tileOff_ventCause (tl : Tile) : (tileOff tl).regs.ventCause = tl.regs.ventCause := by
  unfold tileOff; split <;> simp
/-- A running tile that stops has released its outputs; a frozen one stays frozen. -/
theorem tileOff_released_or_frozen {tl : Tile} (h : tl.regs.tileState = 2 ∨ tl.regs.tileState = 4) :
    (tileOff tl).pw.legs = Vector.replicate 4 {} ∨ (tileOff tl).regs.tileState = 4 := by
  unfold tileOff
  split
  · exact .inl (setTileState_legs_released h (by decide) (by decide))
  · next hrun => exact .inr (h.resolve_left hrun)

/-! ### Disabling the axis of a tile (R25, R209, R258, R321) -/

theorem axisTile_tileAxis (t : Fin 16) : axisTile (tileAxis t) = some t := by
  simp [axisTile, tileAxis]

/-- What ends with the motion of an enabled axis: a stepper's certainty and a homing. -/
def endMotion (a : Fin 112) (s : State) : State :=
  let u := if s.axes[a].enabled && isStepper s a then markUncertain a s else s
  if s.axes[a].enabled then failHoming a 4 u else u
/-- An axis as disabling leaves it. -/
def disabledAxis (ax : Axis) : Axis :=
  { (endFollow ax) with
    enabled := false, stopping := false, ramp := none, move := none, next := none, holdSince := none, restSince := none
    inPosition := false, slotStop := false, limitsDeferred := false
    regs := { ax.regs with spVel := 0, spAcc := 0 } }
/-- A tile as disabling its axis leaves it. -/
def disabledTile (tl : Tile) : Tile :=
  let tl := tileOff tl
  { tl with
    sv := { tl.sv with
      frozen := false, measLeft := 0, settling := false, stallRun := 0, idleSince := none, idle := false
      regs := { tl.sv.regs with ditherOn := false, measState := if tl.sv.regs.measState = 1 then 0 else tl.sv.regs.measState } }
    foc := focExit tl.foc }

theorem disableAxis_tileAxis (t : Fin 16) (s : State) : disableAxis (tileAxis t) s =
    writeTileStatus t (loopsOff t (modTile t disabledTile (abortIdent t
      (modAxis (tileAxis t) disabledAxis (endMotion (tileAxis t) s))))) := by
  simp only [disableAxis, axisTile_tileAxis]
  rfl

@[simp] theorem markUncertain_tiles (a : Fin 112) (s : State) : (markUncertain a s).tiles = s.tiles := by
  unfold markUncertain; split <;> rfl
@[simp] theorem markUncertain_engines (a : Fin 112) (s : State) : (markUncertain a s).engines = s.engines := by
  unfold markUncertain; split <;> rfl
theorem markUncertain_axis_ne {a b : Fin 112} (h : b ≠ a) (s : State) : (markUncertain a s).axes[b] = s.axes[b] := by
  unfold markUncertain; split
  · rfl
  · exact upd_ne _ _ h
@[simp] theorem failHoming_tiles (a : Fin 112) (c : BitVec 8) (s : State) : (failHoming a c s).tiles = s.tiles := by
  unfold failHoming; split <;> rfl
@[simp] theorem failHoming_engines (a : Fin 112) (c : BitVec 8) (s : State) : (failHoming a c s).engines = s.engines := by
  unfold failHoming; split <;> rfl
theorem failHoming_axis_ne {a b : Fin 112} (h : b ≠ a) (c : BitVec 8) (s : State) :
    (failHoming a c s).axes[b] = s.axes[b] := by
  unfold failHoming; split
  · exact upd_ne _ _ h
  · rfl

@[simp] theorem endMotion_tiles (a : Fin 112) (s : State) : (endMotion a s).tiles = s.tiles := by
  simp only [endMotion]; split <;> split <;> simp
@[simp] theorem endMotion_engines (a : Fin 112) (s : State) : (endMotion a s).engines = s.engines := by
  simp only [endMotion]; split <;> split <;> simp
theorem endMotion_axis_ne {a b : Fin 112} (h : b ≠ a) (s : State) : (endMotion a s).axes[b] = s.axes[b] := by
  simp only [endMotion]; split <;> split <;> simp [failHoming_axis_ne h, markUncertain_axis_ne h]

@[simp] theorem disableAxis_engines (t : Fin 16) (s : State) : (disableAxis (tileAxis t) s).engines = s.engines := by
  simp [disableAxis_tileAxis]
theorem disableAxis_axis (t : Fin 16) (s : State) :
    (disableAxis (tileAxis t) s).axes[tileAxis t] = disabledAxis (endMotion (tileAxis t) s).axes[tileAxis t] := by
  simp [disableAxis_tileAxis, -Fin.getElem_fin]
theorem disableAxis_axis_ne {t : Fin 16} {a : Fin 112} (h : a ≠ tileAxis t) (s : State) :
    (disableAxis (tileAxis t) s).axes[a] = s.axes[a] := by
  simp [disableAxis_tileAxis, upd_ne _ _ h, endMotion_axis_ne h]
/-- The tile is disabled, whatever an identification that ran on it has left. -/
theorem disableAxis_tile (t : Fin 16) (s : State) :
    ∃ tl, tl.regs = s.tiles[t].regs ∧ (disableAxis (tileAxis t) s).tiles[t] = disabledTile tl := by
  refine ⟨(abortIdent t (modAxis (tileAxis t) disabledAxis (endMotion (tileAxis t) s))).tiles[t], ?_, ?_⟩
  · simp only [abortIdent_tile_regs, modAxis_tiles, endMotion_tiles]
  · simp only [disableAxis_tileAxis, writeTileStatus_tiles, loopsOff_tiles, modTile_tiles, upd_self]
theorem disableAxis_tile_ne {t v : Fin 16} (h : v ≠ t) (s : State) :
    (disableAxis (tileAxis t) s).tiles[v] = s.tiles[v] := by
  simp [disableAxis_tileAxis, upd_ne _ _ h, abortIdent_tile_ne h]
theorem disableAxis_loopMode (t : Fin 16) (j : Fin 4) (s : State) :
    (disableAxis (tileAxis t) s).loops[tileLoop t j].regs.loopMode = 3 := by
  rw [disableAxis_tileAxis]
  exact loopsOff_loopMode t j _

/-! ### The vent -/

/-- A disabled tile as its vent for cause k leaves it. -/
def ventedTile (k : Nat) (tl : Tile) : Tile :=
  let tl := setTileState 3 tl
  { tl with
    regs := { tl.regs with ventCause := tl.regs.ventCause ||| BitVec.ofNat 5 (2 ^ k) }
    pw := { tl.pw with chopOn := false, chopDue := none } }
/-- A stop that the vent met goes on. -/
def keepStopping (was : Bool) (a : Fin 112) (s : State) : State :=
  if was then modAxis a (fun ax => { ax with stopping := true }) s else s

theorem ventTile_eq (t : Fin 16) (k : Nat) (s : State) : ventTile t k s =
    writeTileStatus t (keepStopping s.axes[tileAxis t].stopping (tileAxis t)
      (modTile t (ventedTile k) (disableAxis (tileAxis t) s))) := rfl

@[simp] theorem keepStopping_tiles (was : Bool) (a : Fin 112) (s : State) : (keepStopping was a s).tiles = s.tiles := by
  unfold keepStopping; split <;> rfl
@[simp] theorem keepStopping_loops (was : Bool) (a : Fin 112) (s : State) : (keepStopping was a s).loops = s.loops := by
  unfold keepStopping; split <;> rfl
@[simp] theorem keepStopping_engines (was : Bool) (a : Fin 112) (s : State) :
    (keepStopping was a s).engines = s.engines := by
  unfold keepStopping; split <;> rfl
theorem keepStopping_axis_ne {a b : Fin 112} (h : b ≠ a) (was : Bool) (s : State) :
    (keepStopping was a s).axes[b] = s.axes[b] := by
  unfold keepStopping; split
  · exact upd_ne _ _ h
  · rfl
/-- An axis disabled before a stop is marked on it stays disabled and stands. -/
theorem keepStopping_axis {a : Fin 112} {ax : Axis} {s : State} (h : s.axes[a] = disabledAxis ax) (was : Bool) :
    (keepStopping was a s).axes[a].enabled = false ∧ (keepStopping was a s).axes[a].regs.spVel = 0
      ∧ (keepStopping was a s).axes[a].move = none := by
  unfold keepStopping; split
  · simp only [modAxis_axes, upd_self, h]; exact ⟨rfl, rfl, rfl⟩
  · rw [h]; exact ⟨rfl, rfl, rfl⟩

@[simp] theorem ventedTile_tileState (k : Nat) (tl : Tile) : (ventedTile k tl).regs.tileState = 3 :=
  setTileState_tileState 3 tl
@[simp] theorem ventedTile_ventCause (k : Nat) (tl : Tile) :
    (ventedTile k tl).regs.ventCause = tl.regs.ventCause ||| BitVec.ofNat 5 (2 ^ k) :=
  congrArg (· ||| _) (setTileState_ventCause 3 tl)
/-- A tile that ran has released its outputs as its axis was disabled, a frozen one releases them as it vents. -/
theorem ventedTile_disabledTile_legs (k : Nat) {tl : Tile} (h : tl.regs.tileState = 2 ∨ tl.regs.tileState = 4) :
    (ventedTile k (disabledTile tl)).pw.legs = Vector.replicate 4 {} := by
  rcases tileOff_released_or_frozen h with hlegs | hfrozen
  · exact setTileState_legs_stay 3 (tl := disabledTile tl) hlegs
  · exact setTileState_legs_released (tl := disabledTile tl) (.inr hfrozen) (by decide) (by decide)

theorem ventTile_tile (t : Fin 16) (k : Nat) (s : State) :
    ∃ tl, tl.regs = s.tiles[t].regs ∧ (ventTile t k s).tiles[t] = ventedTile k (disabledTile tl) := by
  obtain ⟨tl, hregs, htile⟩ := disableAxis_tile t s
  refine ⟨tl, hregs, ?_⟩
  simp only [ventTile_eq, writeTileStatus_tiles, keepStopping_tiles, modTile_tiles, upd_self, htile]
theorem ventTile_tile_ne {t v : Fin 16} (h : v ≠ t) (k : Nat) (s : State) : (ventTile t k s).tiles[v] = s.tiles[v] := by
  simp only [ventTile_eq, writeTileStatus_tiles, keepStopping_tiles, modTile_tiles, upd_ne _ _ h, disableAxis_tile_ne h]
theorem ventTile_axis (t : Fin 16) (k : Nat) (s : State) :
    (ventTile t k s).axes[tileAxis t].enabled = false ∧ (ventTile t k s).axes[tileAxis t].regs.spVel = 0
      ∧ (ventTile t k s).axes[tileAxis t].move = none :=
  keepStopping_axis (s := modTile t (ventedTile k) (disableAxis (tileAxis t) s)) (disableAxis_axis t s) _
theorem ventTile_axis_ne {t : Fin 16} {a : Fin 112} (h : a ≠ tileAxis t) (k : Nat) (s : State) :
    (ventTile t k s).axes[a] = s.axes[a] := by
  simp only [ventTile_eq, writeTileStatus_axes, keepStopping_axis_ne h, modTile_axes, disableAxis_axis_ne h]
theorem ventTile_loopMode (t : Fin 16) (k : Nat) (j : Fin 4) (s : State) :
    (ventTile t k s).loops[tileLoop t j].regs.loopMode = 3 := by
  simp only [ventTile_eq, writeTileStatus_loops, keepStopping_loops, modTile_loops, disableAxis_loopMode]
@[simp] theorem ventTile_engines (t : Fin 16) (k : Nat) (s : State) : (ventTile t k s).engines = s.engines := by
  simp [ventTile_eq]

/-- Settles O58: the vent disables the tile's axis, then vents the disabled tile; every other operation in it is a record
or works on another field. -/
theorem ventReleasesTheTile : Obligations.VentReleasesTheTile := by
  unfold Obligations.VentReleasesTheTile
  intro t k s
  obtain ⟨tl, hregs, htile⟩ := ventTile_tile t k s
  obtain ⟨henabled, hvel, hmove⟩ := ventTile_axis t k s
  have hclock := ventTile_clock t k s
  simp only [State.clock, Prod.mk.injEq] at hclock
  obtain ⟨hpending, hdt, -⟩ := hclock
  have hcause : (disabledTile tl).regs.ventCause = s.tiles[t].regs.ventCause := by
    rw [← hregs]; exact tileOff_ventCause tl
  have hlegs (h : s.tiles[t].regs.tileState = 2 ∨ s.tiles[t].regs.tileState = 4) (l : Fin 4) :
      (ventTile t k s).tiles[t].pw.legs[l] = {} := by
    rw [← hregs] at h
    rw [htile, ventedTile_disabledTile_legs k h]
    exact Vector.getElem_replicate _
  refine ⟨?_, ?_, hlegs, ?_, henabled, hvel, hmove, fun j => ventTile_loopMode t k j s,
    fun v hv => ventTile_tile_ne hv k s, fun a ha => ventTile_axis_ne ha k s, ventTile_engines t k s, hpending, hdt⟩
  · rw [htile, ventedTile_tileState]
  · rw [htile, ventedTile_ventCause, hcause]
  · rw [htile]; rfl

end Sys2Proof.Machine
end

section
/-! PROOF. The register window: what one access does to the state, and how a wide value is held (R21, R99, R100). -/

namespace Sys2Proof.Machine

/-! ### The end of an access -/

theorem setAccessEnd_frame (e : PcieEnd) (o : Ocp) (s : State) :
    { setAccessEnd e s with ocp := o } = { s with ocp := o } := by
  unfold setAccessEnd; split <;> rfl
@[simp] theorem setAccessEnd_wide (e : PcieEnd) (s : State) : (setAccessEnd e s).ocp.wide = s.ocp.wide := by
  unfold setAccessEnd; split <;> rfl
/-- PCIe completes the access, where PCIe is the host interface. -/
theorem setAccessEnd_pcieEnd {e : PcieEnd} {s : State} (h : s.power.regs.hostsel = false) :
    (setAccessEnd e s).ocp.pcieEnd = e := by
  simp [setAccessEnd, h]

/-! ### The holding register (R21) -/

theorem readCapture_of_held {a : Nat} {x : Nat × Word} {s : State} (h : (s.ocp.wide.find? fun x => x.1 = a) = some x) :
    readCapture a s = (x.2, s) := by
  unfold readCapture; rw [h]
/-- A word that nothing holds reads live. -/
theorem readCapture_fst_of_not_held {a : Nat} {s : State} (h : (s.ocp.wide.find? fun x => x.1 = a) = none) :
    (readCapture a s).1 = windowWord s a := by
  unfold readCapture; rw [h]; dsimp only; split <;> rfl
/-- The read of a least significant word puts the other words of its value in front of what is held. -/
theorem readCapture_wide_of_not_held {a b : Nat} {s : State} (h : (s.ocp.wide.find? fun x => x.1 = a) = none)
    (hb : b ∈ wideWords a) : (readCapture a s).2.ocp.wide =
      ((wideWords a).map fun c => (c, windowWord s c)) ++ s.ocp.wide.filter fun y => !(wideWords a).contains y.1 := by
  have hne : ¬(wideWords a).isEmpty = true := fun he => List.ne_nil_of_mem hb (List.isEmpty_iff.mp he)
  unfold readCapture; rw [h]; dsimp only; rw [if_neg hne]
theorem readCapture_fst (a : Nat) (s : State) :
    (readCapture a s).1 = ((s.ocp.wide.find? fun x => x.1 = a).map (·.2)).getD (windowWord s a) := by
  cases h : s.ocp.wide.find? fun x => x.1 = a with
  | none => exact readCapture_fst_of_not_held h
  | some x => rw [readCapture_of_held h]; rfl
/-- A read of the window changes nothing but what is held. -/
theorem readCapture_frame (a : Nat) (s : State) : ∃ w, (readCapture a s).2 = { s with ocp := { s.ocp with wide := w } } := by
  unfold readCapture
  split
  · exact ⟨_, rfl⟩
  · dsimp only; split
    · exact ⟨_, rfl⟩
    · exact ⟨_, rfl⟩

/-- The first entry for a captured word is the one with which it was captured. -/
theorem find?_captured {l : List Nat} {b : Nat} (h : b ∈ l) (f : Nat → Word) (m : List (Nat × Word)) :
    ((l.map fun c => (c, f c)) ++ m).find? (fun x => x.1 = b) = some (b, f b) := by
  induction l with
  | nil => cases h
  | cons c l ih =>
    by_cases hc : c = b
    · subst hc; simp
    · have hl : b ∈ l := (List.mem_cons.mp h).resolve_left (Ne.symm hc)
      simpa [hc] using ih hl

/-- A captured word is read as it was when its least significant word was read, whatever else has changed since. -/
theorem readCapture_captured {a b : Nat} {s t : State} (hb : b ∈ wideWords a)
    (hfree : (s.ocp.wide.find? fun x => x.1 = a) = none) (hheld : t.ocp.wide = (readCapture a s).2.ocp.wide) :
    readCapture b t = (windowWord s b, t) := by
  refine readCapture_of_held (x := (b, windowWord s b)) ?_
  rw [hheld, readCapture_wide_of_not_held hfree hb]
  exact find?_captured hb (windowWord s) _

/-! ### One read and one write of the window (R100) -/

theorem wordAccess_aligned {a : Nat} (h : a % 4 = 0) : wordAccess a 4 = true := by simp [wordAccess, h]
theorem wordAccess_other {a bytes : Nat} (h : a % 4 ≠ 0 ∨ bytes ≠ 4) : wordAccess a bytes = false := by
  unfold wordAccess
  rw [Bool.and_eq_false_iff]
  exact h.imp decide_eq_false decide_eq_false

theorem busRead_other {addr : Word} {bytes : Nat} (s : State) (h : wordAccess addr.toNat bytes = false) :
    busRead addr bytes s = (0xFFFFFFFF, setAccessEnd .unsupportedRequest s) := by
  simp [busRead, h]
theorem busRead_reset {addr : Word} {bytes : Nat} {s : State} (h : wordAccess addr.toNat bytes = true)
    (hr : inResetBlock s addr.toNat = true) :
    busRead addr bytes s = (0xFFFFFFFF, setAccessEnd .completerAbort s) := by
  simp [busRead, h, hr]
/-- Outside the receive windows a read has no other effect. -/
theorem windowReadEffect_outside {a : Nat} (h : a < 0x1500000 ∨ 0x1540000 ≤ a) (s : State) : windowReadEffect a s = s := by
  have hout : ¬(0x1500000 ≤ a ∧ a < 0x1540000) := by omega
  unfold windowReadEffect
  refine if_neg fun hin => hout ?_
  simp only [Bool.and_eq_true, decide_eq_true_eq] at hin
  exact hin.1.1
theorem busRead_word {addr : Word} {bytes : Nat} {s : State} (h : wordAccess addr.toNat bytes = true)
    (hr : inResetBlock s addr.toNat = false) (ho : addr.toNat < 0x1500000 ∨ 0x1540000 ≤ addr.toNat) :
    busRead addr bytes s = readCapture addr.toNat (setAccessEnd .success s) := by
  simp [busRead, h, hr, windowReadEffect_outside ho]

theorem busWrite_other {addr : Word} {bytes : Nat} (v : Word) (s : State) (h : wordAccess addr.toNat bytes = false) :
    busWrite addr v bytes s = setAccessEnd .unsupportedRequest s := by
  simp [busWrite, h]
theorem busWrite_reset {addr : Word} {bytes : Nat} (v : Word) {s : State} (h : wordAccess addr.toNat bytes = true)
    (hr : inResetBlock s addr.toNat = true) : busWrite addr v bytes s = setAccessEnd .success s := by
  simp [busWrite, h, hr]
theorem busWrite_word {addr : Word} {bytes : Nat} (v : Word) {s : State} (h : wordAccess addr.toNat bytes = true)
    (hr : inResetBlock s addr.toNat = false) : busWrite addr v bytes s =
      windowPut addr.toNat (v &&& ~~~standing s addr.toNat) (setAccessEnd .success s) := by
  simp [busWrite, h, hr]

/-! ### The two commands -/

/-- The read of an open window leaves the bus read's state with the word among the read data. -/
theorem wideReadCapture_runs {addr : Word} {bytes : Nat} {s : State} {r : Word × State} (ho : windowOpen s = true)
    (h : busRead addr bytes s = r) :
    Runs (.wideReadCapture addr bytes) s { r.2 with ocp := { r.2.ocp with readData := [r.1] } } := by
  show execWideReadCapture addr bytes s = _
  simp [execWideReadCapture, ho, h]
theorem wideReadCapture_closed {s : State} (addr : Word) (bytes : Nat) (h : windowOpen s = false) :
    Runs (.wideReadCapture addr bytes) s s := by
  show execWideReadCapture addr bytes s = _
  simp [execWideReadCapture, h]
theorem registerWrite_runs {s : State} (addr v : Word) (bytes : Nat) (h : windowOpen s = true) :
    Runs (.registerWrite addr v bytes) s (busWrite addr v bytes s) := by
  show execRegisterWrite addr v bytes s = _
  simp [execRegisterWrite, h]
theorem registerWrite_closed {s : State} (addr v : Word) (bytes : Nat) (h : windowOpen s = false) :
    Runs (.registerWrite addr v bytes) s s := by
  show execRegisterWrite addr v bytes s = _
  simp [execRegisterWrite, h]

/-- A read that ends without a word answers all ones and changes nothing else. -/
theorem wideReadCapture_fails {addr : Word} {bytes : Nat} {s : State} {e : PcieEnd} (ho : windowOpen s = true)
    (h : busRead addr bytes s = (0xFFFFFFFF, setAccessEnd e s)) :
    ∃ t, Runs (.wideReadCapture addr bytes) s t ∧ t.ocp.readData = [0xFFFFFFFF]
      ∧ (s.power.regs.hostsel = false → t.ocp.pcieEnd = e) ∧ { t with ocp := s.ocp } = s :=
  ⟨_, wideReadCapture_runs ho h, rfl, setAccessEnd_pcieEnd, setAccessEnd_frame e s.ocp s⟩
/-- A read of a word answers what is held of it, else the word, and ends with success. -/
theorem wideReadCapture_word {addr : Word} {s : State} (ho : windowOpen s = true) (ha : addr.toNat % 4 = 0)
    (hr : inResetBlock s addr.toNat = false) (hout : addr.toNat < 0x1500000 ∨ 0x1540000 ≤ addr.toNat) :
    ∃ t, Runs (.wideReadCapture addr 4) s t
      ∧ t.ocp.readData = [((s.ocp.wide.find? fun x => x.1 = addr.toNat).map (·.2)).getD
          (windowWord (setAccessEnd .success s) addr.toNat)]
      ∧ (s.power.regs.hostsel = false → t.ocp.pcieEnd = .success) ∧ { t with ocp := s.ocp } = s := by
  obtain ⟨w, hw⟩ := readCapture_frame addr.toNat (setAccessEnd .success s)
  refine ⟨_, wideReadCapture_runs ho (busRead_word (wordAccess_aligned ha) hr hout), ?_, fun hs => ?_, ?_⟩
  · simp only [readCapture_fst, setAccessEnd_wide]
  · rw [hw]; exact setAccessEnd_pcieEnd hs
  · rw [hw]; exact setAccessEnd_frame .success s.ocp s

/-- Settles O33: each kind of access is one case of the bus, and a captured word stands first among those held. -/
theorem windowAccessesReadAndWriteTheirAddress : Obligations.WindowAccessesReadAndWriteTheirAddress := by
  unfold Obligations.WindowAccessesReadAndWriteTheirAddress
  refine ⟨fun addr v bytes s => ⟨fun ho ha hr => ⟨wideReadCapture_word ho ha hr, ?word⟩, fun ho ha hr => ⟨?readReset, ?reset⟩,
    fun ho hn => ⟨?readOther, ?other⟩, fun hc => ⟨wideReadCapture_closed addr bytes hc, registerWrite_closed addr v bytes hc⟩⟩,
    fun a b s t hb hfree hheld => ⟨readCapture_fst_of_not_held hfree, readCapture_captured hb hfree hheld⟩⟩
  case word => rw [← busWrite_word v (wordAccess_aligned ha) hr]; exact registerWrite_runs addr v 4 ho
  case readReset => exact wideReadCapture_fails ho (busRead_reset (wordAccess_aligned ha) hr)
  case reset => rw [← busWrite_reset v (wordAccess_aligned ha) hr]; exact registerWrite_runs addr v 4 ho
  case readOther => exact wideReadCapture_fails ho (busRead_other s (wordAccess_other hn))
  case other => rw [← busWrite_other v s (wordAccess_other hn)]; exact registerWrite_runs addr v bytes ho

end Sys2Proof.Machine
end

section
/-! PROOF. The state after reset (R12, R54, R339, R561, R569). -/

namespace Sys2Proof.Machine

theorem reset_axis (a : Fin 112) : State.reset.axes[a] = {} := Vector.getElem_replicate _
theorem reset_tile (t : Fin 16) : State.reset.tiles[t] = {} := Vector.getElem_replicate _
theorem reset_engine (e : Fin 32) : State.reset.engines[e] = {} := Vector.getElem_replicate _
theorem reset_portMem (c : Fin 4) : State.reset.portMem[c] = [] := Vector.getElem_replicate _
theorem reset_session (i : Fin 80) : State.reset.ocp.sessions[i] = {} := Vector.getElem_replicate _

/-- Settles O3: every unit of a kind starts alike, and the other values stand in the fields themselves. -/
theorem resetState : Obligations.ResetState := by
  unfold Obligations.ResetState
  refine ⟨rfl, rfl, rfl, rfl, fun a => ?axis, fun t => ?tile, fun e => ?engine, reset_portMem, rfl, rfl, rfl,
    fun i => ?session, rfl, rfl⟩
  case axis => rw [reset_axis]; exact ⟨rfl, rfl, rfl, rfl⟩
  case tile => rw [reset_tile]; exact ⟨rfl, rfl⟩
  case engine => rw [reset_engine]; exact ⟨rfl, rfl⟩
  case session => rw [reset_session]

end Sys2Proof.Machine
end

section
/-! PROOF. The pour point: DT on a whole number of L, and the work of the pour (R54, R55;
log entries 50 and 51). -/

namespace Sys2Proof.Machine

/-! ### Runs and clocks -/

/-- A command leads to one state. -/
theorem Runs.unique {c : Instr} {s t u : State} (h : Runs c s t) (h' : Runs c s u) : t = u := by
  rw [Runs, h'] at h
  exact next_inj h

theorem pending_of_clock {s t : State} (h : t.clock = s.clock) : t.pending = s.pending := congrArg (fun x => x.1) h
theorem dt_of_clock {s t : State} (h : t.clock = s.clock) : t.dt = s.dt := congrArg (fun x => x.2.1) h
theorem pourLen_of_clock {s t : State} (h : t.clock = s.clock) : t.stage.regs.pourLen = s.stage.regs.pourLen :=
  congrArg (fun x => x.2.2) h

/-! ### The pour point -/

theorem pourLen_eq_zero {s : State} : pourLen s = 0 ↔ s.stage.regs.pourLen = 0 := by
  rw [pourLen, BitVec.toNat_eq]; rfl

/-- The state after the pour point: DT stands on it, and the pour's work is done on the slots as their predictions close. -/
def poured (s : State) : State :=
  let u := closeSlots s
  pourWork (fun i => u.slots[i].predicted) (fun i => slotSteep u.slots[i]) { u with dt := pourAt u (comingPour s) }

theorem pourPoint_runs {s : State} (hl : s.stage.regs.pourLen ≠ 0) (hc : clocksRun s = true) :
    Runs .pourPoint s (poured s) := by
  show execPourPoint s = _
  have hl' : ¬pourLen s = 0 := mt pourLen_eq_zero.mp hl
  simp [execPourPoint, hl', hc, poured]

/-- Before a domain start, and while the clocks stand, there is no pour point. -/
theorem pourPoint_none {s : State} (h : s.stage.regs.pourLen = 0 ∨ clocksRun s = false) : Runs .pourPoint s s := by
  show execPourPoint s = _
  refine if_pos ?_
  obtain hl | hc := h
  · simp [pourLen_eq_zero.mpr hl]
  · simp [hc]

theorem poured_clock (s : State) : (poured s).clock = State.clock { s with dt := pourAt s (comingPour s) } := by
  have hc := closeSlots_clock s
  rw [poured, pourWork_clock]
  simp only [State.clock, pourAt, pourLen, pourLen_of_clock hc, pending_of_clock hc]

/-- A pour point puts DT on the coming pour or, where there is none, leaves the state. -/
theorem pourPoint_clock {s t : State} (h : Runs .pourPoint s t) :
    t = s ∨ t.clock = State.clock { s with dt := pourAt s (comingPour s) } := by
  by_cases hn : s.stage.regs.pourLen = 0 ∨ clocksRun s = false
  · exact .inl (h.unique (pourPoint_none hn))
  · rw [not_or, Bool.not_eq_false] at hn
    rw [h.unique (pourPoint_runs hn.1 hn.2)]
    exact .inr (poured_clock s)

theorem pourPoint_pourLen {s t : State} (h : Runs .pourPoint s t) : t.stage.regs.pourLen = s.stage.regs.pourLen := by
  obtain rfl | hc := pourPoint_clock h
  · rfl
  · exact congrArg (fun x => x.2.2) hc

/-! ### The number of a pour -/

theorem comingPour_cases (s : State) : comingPour s = (pourNum s).toNat ∨ comingPour s = (pourNum s).toNat + 1 := by
  unfold comingPour; dsimp only
  split
  · exact .inl rfl
  · exact .inr rfl

theorem pourNum_toNat {s : State} (h : s.stage.regs.pourLen ≠ 0) :
    (pourNum s).toNat = (nsOf s.dt).toNat / s.stage.regs.pourLen.toNat := by
  have hlt : (nsOf s.dt).toNat / pourLen s < 2 ^ 64 := Nat.lt_of_le_of_lt (Nat.div_le_self ..) (nsOf s.dt).isLt
  rw [pourNum, if_neg (mt pourLen_eq_zero.mp h), BitVec.toNat_ofNat, Nat.mod_eq_of_lt hlt]
  rfl

theorem fixNat_toNat (n : Nat) : (fixNat n).toNat = n % 2 ^ 64 * 2 ^ 32 := by
  rw [fixNat, BitVec.toNat_ofNat, show 2 ^ 96 = 2 ^ 64 * 2 ^ 32 from rfl, Nat.mul_mod_mul_right]

theorem nsOf_fixNat (n : Nat) : nsOf (fixNat n) = BitVec.ofNat 64 n := by
  apply BitVec.eq_of_toNat_eq
  rw [nsOf, BitVec.extractLsb'_toNat, fixNat_toNat, BitVec.toNat_ofNat, Nat.shiftRight_eq_div_pow,
    Nat.mul_div_cancel _ (Nat.two_pow_pos 32), Nat.mod_mod]

theorem fracOf_fixNat (n : Nat) : fracOf (fixNat n) = 0 := by
  apply BitVec.eq_of_toNat_eq
  rw [fracOf, BitVec.extractLsb'_toNat, fixNat_toNat, Nat.shiftRight_zero, Nat.mul_mod_left]
  rfl

/-- The instant of a pour that DT can hold has that pour's number. -/
theorem pourNum_at {s : State} {n : Nat} (hl : s.stage.regs.pourLen ≠ 0) (hdt : s.dt = pourAt s n)
    (hn : n * s.stage.regs.pourLen.toNat < 2 ^ 64) : pourNum s = BitVec.ofNat 64 n := by
  have h0 : ¬pourLen s = 0 := mt pourLen_eq_zero.mp hl
  have hn' : n * pourLen s < 2 ^ 64 := hn
  rw [pourNum, if_neg h0, hdt, pourAt, nsOf_fixNat, BitVec.toNat_ofNat, Nat.mod_eq_of_lt hn',
    Nat.mul_div_cancel _ (Nat.pos_of_ne_zero h0)]

/-- Settles O27: the work of the pour leaves DT on the pour point, n · L on the grid of whole nanoseconds. -/
theorem pourPointStandsOnAMultipleOfL : Obligations.PourPointStandsOnAMultipleOfL := by
  unfold Obligations.PourPointStandsOnAMultipleOfL
  intro s
  refine ⟨fun hl hc => ?_, pourPoint_none, pourNum_toNat⟩
  intro n u t
  have hrun : Runs .pourPoint s t := pourPoint_runs hl hc
  have hclock : t.clock = State.clock { s with dt := pourAt s n } := poured_clock s
  clear_value t
  have hlen : t.stage.regs.pourLen = s.stage.regs.pourLen := congrArg (fun x => x.2.2) hclock
  have hdt : t.dt = pourAt s n := congrArg (fun x => x.2.1) hclock
  refine ⟨hrun, hlen, comingPour_cases s, hdt, ?_, fun hn => ?_⟩
  · rw [hdt]; exact fracOf_fixNat _
  · refine pourNum_at (hlen ▸ hl) ?_ (hlen ▸ hn)
    rw [hdt, pourAt, pourAt, pourLen, pourLen, hlen]

end Sys2Proof.Machine
end

section
/-! PROOF. The clock and the queue: DT stays on its grid and L legal whatever runs (R36, R54, R75, R615), and L changes in the
start of the domain and in a reset of the module alone (R54, R132, R567). -/

namespace Sys2Proof.Machine

/-! ### What a loaded DT keeps -/

/-- A property of the queue, DT and L that every loaded DT keeps. The paths that load DT, a request and a frame of the ring,
are followed once for all such properties: O5 needs them for the invariant, O7 for L. -/
structure KeptByLoads (P : State → Prop) : Prop where
  clock : ∀ {s t : State}, t.clock = s.clock → P s → P t
  load : ∀ (x : Int) {s : State}, P s → P (loadDt x s)

theorem inv_keptByLoads : KeptByLoads State.Inv := ⟨Inv.of_clock, loadDt_inv⟩

/-- A loaded DT leaves L (R54). -/
theorem pourLen_keptByLoads (l : Word) : KeptByLoads fun s => s.stage.regs.pourLen = l :=
  ⟨fun h hs => (pourLen_of_clock h).trans hs, fun _ _ hs => hs⟩

section
variable {P : State → Prop} (hP : KeptByLoads P) {s : State}
include hP

theorem KeptByLoads.serve {d : OpDesc} {accept : Packet → State → BitVec 16} {run : Packet → State → Reply} {p : Packet}
    (hr : ∀ {x : State}, P x → P (run p x).s) (h : P s) : P (serve d accept run p s) := by
  unfold Machine.serve; dsimp only
  split
  · exact hP.clock (by simp) h
  · split
    · exact hP.clock (by simp) h
    · exact hP.clock (replyTo_clock ..) (hr h)

theorem KeptByLoads.runAccepted {d : OpDesc} {go : State → State} {p : Packet} (hg : ∀ {x : State}, P x → P (go x))
    (h : P s) : P (runAccepted d go p s) := by
  unfold Machine.runAccepted; dsimp only
  split
  · exact h
  · split
    · exact hg h
    · exact h
    · exact hP.clock (serveBroken_clock ..) h

theorem KeptByLoads.request {d : OpDesc} {accept : Packet → State → BitVec 16} {run : Packet → State → Reply} {p : Packet}
    (hr : ∀ {x : State}, P x → P (run p x).s) (h : P s) : P (request d accept run p s) := by
  unfold Machine.request requestBy requestMade; dsimp only
  split
  · exact h
  · split
    · exact hP.runAccepted (hP.serve hr) h
    · split
      · exact hP.clock (creditViolation_clock ..) h
      · split
        · exact hP.clock (waitCopy_clock ..) h
        · exact hP.clock (copyReply_clock ..) h
        · exact hP.clock (answerReused_clock ..) h
        · exact hP.runAccepted (hP.serve hr) (hP.clock (acceptPacket_clock ..) h)

/-- TIME_RELOAD loads DT and leaves the rest of the clock (R44, R46). -/
theorem KeptByLoads.runTimeReload (p : Packet) (h : P s) : P (runTimeReload p s).s := by
  unfold Machine.runTimeReload
  extract_lets s1 s2 s3
  have h3 : s3.clock = s.clock := by simp [s3, s2, s1]
  exact hP.clock ((ok_clock _).trans (drawn_clock _)) (hP.load _ (hP.clock h3 h))

/-- The time that a frame carries: it is loaded, measured, or left aside (R39, R40). -/
theorem KeptByLoads.frameTime (port : Fin 4) (f : PourFrame) (h : P s) : P (frameTime port f s) := by
  unfold Machine.frameTime; split
  · exact hP.load _ h
  · split
    · exact h
    · extract_lets s1 ps delay s2
      have h1 : P s1 := hP.clock (modTimeRegs_clock ..) h
      split
      · exact hP.clock ((measure_clock ..).trans (drawn_clock _)) h1
      · exact hP.clock ((enterTimeState_clock ..).trans (modTime_clock ..)) (hP.load _ h1)

theorem KeptByLoads.timeReload {p : Packet} {t : State} (h : P s) (ht : Runs (.timeReload p) s t) : P t := by
  rw [next_inj ht]
  exact hP.request (hP.runTimeReload p) h

theorem KeptByLoads.pourFrameArrival {port : Fin 4} {f : PourFrame} {t : State} (h : P s)
    (ht : Runs (.pourFrameArrival port f) s t) : P t := by
  rw [next_inj ht]
  split
  · exact h
  · split
    · exact h
    · extract_lets s1 s2 s3 s4 rp s5 s6
      have h1 : P s1 := hP.clock ((modPort_clock ..).trans (unsent_clock _)) h
      have h2 : P s2 := by
        unfold s2; split
        · exact hP.frameTime _ _ h1
        · exact h1
      have hrest : (drainRx s6).clock = s2.clock := by simp [s6, s5, s4, s3]
      exact hP.clock hrest h2

end

/-! ### The pour point, the start of the domain and the resets of the module -/

/-- L comes from an exponent of at most 6: the one accepted, or the one received (R54, R132). -/
theorem domainStart_inv {r : DomainChecks} {s t : State} (h : Runs (.domainStartComplete r) s t) (hs : s.Inv) : t.Inv := by
  have hplan (l : Nat) : (evalPlan l (noteReports r s)).Inv := Inv.of_clock ((evalPlan_clock ..).trans (noteReports_clock ..)) hs
  rw [next_inj h]
  split
  case h_1 q hq =>
    split
    · exact hs
    · next hexp =>
      dsimp only
      split
      · exact Inv.of_clock ((endOps_clock ..).trans (firstSlots_clock ..))
          (startEpoch_inv r (fixDomain_inv q.d q.wrapCheck (by omega) (hplan _)))
      · exact Inv.of_clock ((endOps_clock ..).trans (modLink_clock ..)) (hplan _)
  case h_2 =>
    split
    · exact hs
    · next hgo =>
      have hexp : r.exp.toNat ≤ 6 := by
        simp only [Bool.or_eq_true, decide_eq_true_eq, not_or] at hgo
        omega
      dsimp only
      split
      · exact Inv.of_clock ((firstSlots_clock ..).trans (modTime_clock ..)) (fixDomain_inv r.d r.wrapCheck hexp (hplan _))
      · exact hplan _

theorem pourPoint_inv {s t : State} (h : Runs .pourPoint s t) (hs : s.Inv) : t.Inv := by
  obtain rfl | hc := pourPoint_clock h
  · exact hs
  · exact Inv.of_clock hc (atPour_inv (comingPour s) hs)

theorem powerOn_inv {s t : State} (h : Runs .powerOn s t) (hs : s.Inv) : t.Inv := by
  rw [next_inj h]; split
  · exact assertPowerOn_inv hs
  · exact hs
theorem wakeInput_inv {mv ns : Nat} {s t : State} (h : Runs (.wakeInput mv ns) s t) (hs : s.Inv) : t.Inv := by
  have hd (f : Power → Power) : (drew 2 (modPower f s)).Inv := Inv.of_clock ((drew_clock ..).trans (modPower_clock ..)) hs
  rw [next_inj h]
  generalize hp : drew 2 (modPower _ s) = u
  have hu : u.Inv := hp ▸ hd _
  split
  · exact assertPowerOn_inv hu
  · exact hu
theorem brownout_inv {s t : State} (h : Runs .brownout s t) (hs : s.Inv) : t.Inv := by
  rw [next_inj h]; split
  · exact hs
  · exact assertCold_inv _ (Inv.of_clock (by simp) hs)
theorem resetNInput_inv {low : Bool} {ns : Nat} {s t : State} (h : Runs (.resetNInput low ns) s t) (hs : s.Inv) : t.Inv := by
  have hd : (drawn s).Inv := Inv.of_clock (drawn_clock s) hs
  rw [next_inj h]; split
  · exact assertCold_inv _ (Inv.of_clock (modPower_clock ..) hd)
  · split
    · exact hd
    · exact Inv.of_clock (modPower_clock ..) hd
theorem hibernateEnter_inv {s t : State} (h : Runs .hibernateEnter s t) (hs : s.Inv) : t.Inv := by
  rw [next_inj h]; split
  · exact powerDown_inv true hs
  · exact hs
theorem kettleRestart_inv {s t : State} (h : Runs .kettleRestart s t) (hs : s.Inv) : t.Inv := by
  rw [next_inj h]; split
  · exact assertCold_inv _ hs
  · exact hs
theorem vinLoss_inv {s t : State} (h : Runs .vinLoss s t) (hs : s.Inv) : t.Inv := by
  rw [next_inj h]; exact powerDown_inv false hs

/-! ### Every command, and every step -/

theorem exec_inv {c : Instr} {s t : State} (h : Runs c s t) (hs : s.Inv) : t.Inv := by
  by_cases hm : movesClock c = false
  · exact Inv.of_clock (exec_clock c s t hm h) hs
  · unfold movesClock at hm
    split at hm
    · exact pourPoint_inv h hs
    · exact inv_keptByLoads.timeReload hs h
    · exact inv_keptByLoads.pourFrameArrival hs h
    · exact domainStart_inv h hs
    · exact powerOn_inv h hs
    · exact wakeInput_inv h hs
    · exact brownout_inv h hs
    · exact resetNInput_inv h hs
    · exact hibernateEnter_inv h hs
    · exact kettleRestart_inv h hs
    · exact vinLoss_inv h hs
    · exact absurd rfl hm

/-- The rest of a well-formed queue is well formed. -/
theorem State.Inv.rest {c : Instr} {rest : List Instr} {s : State} (hs : s.Inv) (hq : s.pending = c :: rest) :
    State.Inv { s with pending := rest } :=
  ⟨hs.grid, hs.len, fun d hd => hs.queue d (hq ▸ List.mem_cons_of_mem c hd)⟩

/-- Settles O5: on an empty queue the clock goes on by one edge, and every command keeps the invariant on the queue's rest. -/
theorem stepKeepsInvariant : Obligations.StepKeepsInvariant := by
  intro s t hs h
  unfold step at h
  split at h
  · rw [next_inj h]; exact clockEdge_inv hs
  · next c rest hq => exact exec_inv h (hs.rest hq)

/-- Settles O4: at reset nothing waits, and DT and L are 0. -/
theorem resetMeetsInvariant : Obligations.ResetMeetsInvariant :=
  ⟨onHalf_zero, legalLen_zero, List.forall_mem_nil _⟩

/-- Settles O2: an empty queue leaves the clock's edge alone to run. -/
theorem idleStepIsOneEdge : Obligations.IdleStepIsOneEdge := by
  intro s hq
  have hstep : step s = .next (clockEdge s) := by simp only [step, hq]
  rw [hstep]
  exact ⟨fun hr => congrArg _ (if_pos hr), fun hr => congrArg _ (if_neg (by simp [hr]))⟩

/-- Settles O7: the commands that move the clock and not L load DT alone or place it on a pour point. -/
theorem pourLengthFixedByDomainStart : Obligations.PourLengthFixedByDomainStart := by
  intro c s t h hne
  by_cases hm : movesClock c = false
  · exact absurd (pourLen_of_clock (exec_clock c s t hm h)) hne
  · unfold movesClock at hm
    split at hm
    · exact absurd (pourPoint_pourLen h) hne
    · exact absurd ((pourLen_keptByLoads _).timeReload rfl h) hne
    · exact absurd ((pourLen_keptByLoads _).pourFrameArrival rfl h) hne
    iterate 8 · rfl
    · exact absurd rfl hm

end Sys2Proof.Machine
end

section
/-! PROOF. Sets at their pour: what a set makes, and what a refused one leaves (R59, R60, R62). -/

namespace Sys2Proof.Machine

/-! ### A refused set (R62) -/

/-- The record of a refused set. -/
def refusal (x : StagedSet) (st : BitVec 16) (s : State) : EventRec :=
  { code := Ev.pourRefused, src := srcStaging, t := s.dt, p0 := x.seq, p1 := st.zeroExtend 32, p2 := x.session.zeroExtend 32 }

/-- Records that a fold puts into the fabric follow those that it holds. -/
theorem foldl_fabric {α : Type} (g : State → α → State)
    (h : ∀ s a, ∃ tail, (g s a).events.fabric = s.events.fabric ++ tail) (l : List α) (s : State) :
    ∃ tail, (l.foldl g s).events.fabric = s.events.fabric ++ tail := by
  induction l generalizing s with
  | nil => exact ⟨[], (List.append_nil _).symm⟩
  | cons a l ih =>
    obtain ⟨more, hl⟩ := ih (g s a)
    obtain ⟨tail, ha⟩ := h s a
    exact ⟨tail ++ more, by rw [List.foldl_cons, hl, ha, List.append_assoc]⟩

theorem endOps_fabric (sel : PendingOp → Bool) (st : BitVec 16) (s : State) :
    ∃ tail, (endOps sel st s).events.fabric = s.events.fabric ++ tail :=
  foldl_fabric _ (fun _ _ => ⟨_, rfl⟩) _ _

/-- A refusal touches the staging, the events and the operations that it ends. -/
theorem refuseSet_frame (x : StagedSet) (st : BitVec 16) (s : State) :
    { refuseSet x st s with stage := s.stage, events := s.events, ocp := s.ocp } = s := by
  unfold refuseSet; dsimp only
  split
  · exact endOps_frame (fun t => { t with stage := s.stage, events := s.events, ocp := s.ocp }) (fun _ _ => rfl)
      (fun _ _ => rfl) ..
  · rfl

theorem refuseSet_fabric (x : StagedSet) (st : BitVec 16) (s : State) :
    ∃ tail, (refuseSet x st s).events.fabric = s.events.fabric ++ refusal x st s :: tail := by
  unfold refuseSet; dsimp only
  split
  · obtain ⟨tail, h⟩ := endOps_fabric (fun o => o.op = 0x0907 && x.cmds.any fun c => c.op = 0x0907 && c.p.target = o.target) st
      { record (refusal x st s) s with stage := { s.stage with regs := refusedRegs x st s.stage.regs } }
    exact ⟨tail, h.trans (List.append_assoc ..)⟩
  · exact ⟨[], rfl⟩

/-! ### A set of one packet -/

/-- The packet's row decides: its conditions hold and it takes effect, or its first failing status refuses the set. -/
theorem runSet_single {o : StageOp} {c : StagedCmd} (h : stageOpOf c.op = some o) (stops : List (Fin 112)) (s : State) :
    runSet stops [c] s =
      let st := if stopGoverns stops c then Status.axisStopping else stagedStatus o c s
      if st = Status.ok then .ok (o.apply c.p s) else .error st := by
  simp only [runSet, h, ne_eq, ite_not]

/-- Settles O16: a set either runs through, and the registers of staging count it, or leaves its refusal. -/
theorem setTakesEffectWholeOrNotAtAll : Obligations.SetTakesEffectWholeOrNotAtAll := by
  intro stops x hold s
  refine ⟨fun s' hok => ?_, fun st herr => ?_⟩
  · simp only [pourSets, hok]
    exact ⟨_, rfl, rfl, rfl, rfl⟩
  · simp only [pourSets, herr]
    exact ⟨_, _, rfl, refuseSet_frame x st s, refuseSet_fabric x st s⟩

/-- Settles O17: the row of the command is that of its operation code, and AXIS_STOPPING is not OK. -/
theorem pouredSettingIsApplied : Obligations.PouredSettingIsApplied := by
  intro c r q stops s hr cmd
  have hrow : stageOpOf cmd.op = some r.o := stageOf_find hr
  refine ⟨fun hstop hst => ?_, fun hstop => ?_⟩
  · rw [runSet_single hrow, if_neg (Bool.eq_false_iff.mp hstop)]
    exact if_pos hst
  · rw [runSet_single hrow, if_pos hstop]
    exact if_neg (by decide)

end Sys2Proof.Machine
end

section
/-! PROOF. How a stageable request is served: as a set of its own, in its transaction, or by its tile (R58, R59, R79, R80, R95,
R96). -/

namespace Sys2Proof.Machine

/-! ### The checks after acceptance (R75 to R79) -/

theorem check_ok_iff {c : Prop} [Decidable c] {st rest : BitVec 16} (h : st ≠ Status.ok) :
    (if c then st else rest) = Status.ok ↔ ¬c ∧ rest = Status.ok := by
  split
  · next hc => exact ⟨fun e => absurd e h, fun e => absurd hc e.1⟩
  · next hc => exact ⟨fun e => ⟨hc, e⟩, fun e => e.2⟩

theorem headerStatus_ok_of_clean {d : OpDesc} {p : Packet} {s : State} (h : Clean d p s) : headerStatus d p s = Status.ok := by
  obtain ⟨hver, hzero, hparams, hres, hprio, htgt, hstaged, hunstaged, hdiag, hctl, hblock, hreply, hops⟩ := h
  unfold headerStatus
  dsimp only
  iterate 15 rw [check_ok_iff (by decide)]
  refine ⟨not_not_intro hver, not_not_intro hzero, ?pour, ?params, ?res, ?prio, ?stage, ?target, ?unstaged, ?diag, ?quar, ?ctl,
    ?block, ?reply, ?ops, rfl⟩
  case pour =>
    intro hn
    obtain ⟨hs, hnone⟩ := Bool.and_eq_true_iff.mp hn
    obtain ⟨_, hsome, _⟩ := hstaged hs
    simp [Option.isNone_iff_eq_none.mp hnone] at hsome
  case params => simp [hparams]
  case res => simp [hres]
  case prio =>
    intro hn
    obtain ⟨hp, hnot⟩ := Bool.and_eq_true_iff.mp hn
    cases hprio hp with
    | inl ha => simp [ha] at hnot
    | inr hd => simp [hd] at hnot
  case stage => simpa using fun hno hs => (hstaged hs).1 hno
  case target => simp [htgt]
  case unstaged =>
    intro hn
    simp only [Bool.and_eq_true, Bool.not_eq_true', decide_eq_true_eq] at hn
    obtain ⟨⟨hst, hl⟩, hs⟩ := hn
    cases hunstaged hs with
    | inl hno => exact hst hno
    | inr hsome => simp [hl] at hsome
  case diag => simpa using hdiag
  case quar =>
    intro hn
    obtain ⟨hq, hs⟩ := Bool.and_eq_true_iff.mp hn
    obtain ⟨_, _, hfree⟩ := hstaged hs
    simp [hq] at hfree
  case ctl => simpa using hctl
  case block => cases hb : d.block (tgt p) <;> simp_all
  case reply => simp [hreply]
  case ops => simpa using hops

/-! ### The entry of an accepted packet (R71, R82, R185) -/

/-- The history keeps every entry that awaits its reply. -/
theorem filter_awaits_keepHist (seq crc : Word) (l : List HistEntry) :
    (keepHist l).filter (awaits seq crc) = l.filter (awaits seq crc) := by
  rw [keepHist, List.filter_filter]
  refine List.filter_congr fun x _ => ?_
  cases ha : awaits seq crc x with
  | false => rfl
  | true =>
    have hr : x.reply.isNone = true := (Bool.and_eq_true_iff.mp ha).2
    simp [hr]

/-- The one entry of a new packet that awaits a reply is the one made at its acceptance. -/
theorem entryOf_acceptPacket {op : BitVec 16} {p : Packet} {made : Option (BitVec 16 × Packet)} {s : State}
    (h : (s.ocp.sessions[p.session].hist.all fun h => h.seq ≠ p.seq) = true) :
    ∃ e, entryOf op p (acceptPacket op p (packetCrc op p) made s) = some e ∧ e.acceptedAt = s.dt ∧ e.made = made := by
  have hold : s.ocp.sessions[p.session].hist.filter (awaits p.seq (packetCrc op p)) = [] := by
    refine List.filter_eq_nil_iff.mpr fun x hx => ?_
    have hne : x.seq ≠ p.seq := by simpa using List.all_eq_true.mp h x hx
    simp [awaits, hne]
  simp only [entryOf, acceptPacket, modSession_ocp, upd_self, filter_awaits_keepHist]
  rw [List.filter_cons_of_pos (by simp [awaits]), hold]
  exact ⟨_, rfl, rfl, rfl⟩

/-- A request that is not chained and has its turn is served as it is accepted. -/
theorem stageRequest_served {o : StageOp} {p : Packet} {s : State} (hf : Fresh p s) (hch : p.chained = false)
    (ht : Turn o.d.op p (acceptedStage o p s)) : stageRequest o p s = serveStage o p (acceptedStage o p s) := by
  rw [stageRequest, requestMade_fresh hf]
  refine (if_neg (Bool.eq_false_iff.mp (congrArg Bool.not ht))).trans ?_
  rw [hch]
  rfl

/-- The status that the checks after acceptance and the packet's own leave it. -/
def checkedStatus (o : StageOp) (p : Packet) (s : State) : BitVec 16 :=
  if headerStatus o.d p (acceptedStage o p s) = Status.ok then o.accept p s else headerStatus o.d p (acceptedStage o p s)

theorem checkedStatus_clean {o : StageOp} {p : Packet} {s : State} (h : Clean o.d p (acceptedStage o p s)) :
    checkedStatus o p s = o.accept p s := if_pos (headerStatus_ok_of_clean h)

/-- What its acceptance made of a packet is what is served of it. -/
theorem serveStage_accepted {o : StageOp} {p : Packet} {s : State} (hf : Fresh p s) :
    serveStage o p (acceptedStage o p s) =
      if p.staged then replyTo o.d p (stagePacket o.d (checkedStatus o p s) p (o.conv p s) (acceptedStage o p s))
      else if checkedStatus o p s ≠ Status.ok then replyTo o.d p (answer (checkedStatus o p s) (acceptedStage o p s))
      else replyTo o.d p (runLocal o p (o.conv p s) (acceptedStage o p s)) := by
  obtain ⟨e, he, _, hmade⟩ := entryOf_acceptPacket (op := o.d.op) (made := some (madeOf o p s)) hf.2.1
  unfold serveStage checkedStatus
  simp only [he, hmade, Option.bind_some, Option.getD_some, madeOf]

theorem stageRequest_staged {o : StageOp} {p : Packet} {s : State} (hf : Fresh p s) (hch : p.chained = false)
    (ht : Turn o.d.op p (acceptedStage o p s)) (hst : p.staged = true) : stageRequest o p s =
      replyTo o.d p (stagePacket o.d (checkedStatus o p s) p (o.conv p s) (acceptedStage o p s)) := by
  rw [stageRequest_served hf hch ht, serveStage_accepted hf, if_pos hst]

theorem stageRequest_unstaged {o : StageOp} {p : Packet} {s : State} (hf : Fresh p s) (hch : p.chained = false)
    (ht : Turn o.d.op p (acceptedStage o p s)) (hst : p.staged = false) (hok : checkedStatus o p s = Status.ok) :
    stageRequest o p s = replyTo o.d p (runLocal o p (o.conv p s) (acceptedStage o p s)) := by
  rw [stageRequest_served hf hch ht, serveStage_accepted hf, if_neg (Bool.eq_false_iff.mp hst), if_neg (not_not_intro hok)]

/-! ### Sets and transactions (R59, R95, R96) -/

theorem acceptPacket_txn (op : BitVec 16) (p : Packet) (crc : Word) (made : Option (BitVec 16 × Packet)) (s : State) :
    (acceptPacket op p crc made s).ocp.sessions[p.session].txn = s.ocp.sessions[p.session].txn := by
  simp only [acceptPacket, modSession_ocp, upd_self]

/-- Outside a transaction a sound packet is committed at its acceptance as a set of its own. -/
theorem stagePacket_own {o : StageOp} {p q : Packet} {s : State} (hf : Fresh p s)
    (htxn : s.ocp.sessions[p.session].txn = none) :
    stagePacket o.d Status.ok p q (acceptedStage o p s) =
      commitSet p.session p.seq s.dt (p.pour.getD 0) [{ op := o.d.op, p := q }] (acceptedStage o p s) := by
  obtain ⟨e, he, hat, _⟩ := entryOf_acceptPacket (op := o.d.op) (made := some (madeOf o p s)) hf.2.1
  have hnow : acceptedAt o.d.op p (acceptedStage o p s) = s.dt := by
    simp only [acceptedAt, he, Option.map_some, Option.getD_some, hat]
  simp only [stagePacket, acceptPacket_txn, htxn, if_true, hnow]

section
variable {d : OpDesc} {p : Packet} {s : State} {t : Txn} (htxn : s.ocp.sessions[p.session].txn = some t)
include htxn

/-- The 257th packet of a transaction and those after it are too many, whatever their own checks say. -/
theorem stagePacket_full (hc : 256 ≤ t.count) (st : BitVec 16) (q : Packet) : stagePacket d st p q s =
    answer Status.transactionTooLarge (joinTxn p.session Status.transactionTooLarge { op := d.op, p := q } s) := by
  simp only [stagePacket, htxn, hc, if_true]

/-- An earlier one counts with its own error. -/
theorem stagePacket_error (hc : t.count < 256) {st : BitVec 16} (hst : st ≠ Status.ok) (q : Packet) : stagePacket d st p q s =
    answer st (joinTxn p.session st { op := d.op, p := q } s) := by
  simp only [stagePacket, htxn, Nat.not_le.mpr hc, hst, ne_eq, not_false_eq_true, if_true, if_false]

/-- A sound one without a pour of its own enters the set. -/
theorem stagePacket_enters (hc : t.count < 256) (hp : p.pour = some 0) (q : Packet) : stagePacket d Status.ok p q s =
    answer Status.acceptedStaged (joinTxn p.session Status.acceptedStaged { op := d.op, p := q } s) := by
  simp only [stagePacket, htxn, Nat.not_le.mpr hc, hp, ne_eq, not_true_eq_false, if_false]

end

/-! ### Local-mode tiles (R80) -/

/-- The setting of a local-mode tile whose state allows it waits for the tile's LOAD_ALL or its tick, or is made at once. -/
theorem runLocal_checked {o : StageOp} {p q : Packet} {s : State} {t : Fin 16}
    (ht : unitLocal s (targetUnit o.d.op (tgt p)) = some t) (hck : o.check q s = Status.ok) :
    runLocal o p q s =
      let cmd : StagedCmd := { op := o.d.op, p := q }
      if o.atLoad then ok (modTile t (fun tl => { tl with pw := { tl.pw with loadQ := tl.pw.loadQ ++ [cmd] } }) s)
      else if s.tiles[t].regs.tileState = 2 then
        ok (modTile t (fun tl => { tl with pw := { tl.pw with tickQ := tl.pw.tickQ ++ [cmd] } }) s)
      else ok (o.apply q s) := by
  simp only [runLocal, ht, hck, ne_eq, not_true_eq_false, if_false]

/-- Settles O15: the acceptance has made the packet, its session's transaction or the state of its tile routes it. -/
theorem stagedRequestIsServedByItsRouting : Obligations.StagedRequestIsServedByItsRouting := by
  unfold Obligations.StagedRequestIsServedByItsRouting
  dsimp only
  refine ⟨fun c r s hr hf hch ht hst hcl hacc htxn hcommit => ?own, fun c r s t hr hf hch ht hst htxn => ?joins,
    fun c r s t hr hf hch ht hst hcl hacc hloc hck => ?tile⟩
  case own =>
    rw [Runs, exec_stage hr, stageRequest_staged hf hch ht hst, checkedStatus_clean hcl, hacc, stagePacket_own hf htxn,
      commitSet, if_pos hcommit]
  case joins =>
    have htxn' : (acceptedStage r.o r.p s).ocp.sessions[r.p.session].txn = some t := (acceptPacket_txn ..).trans htxn
    have hrun := exec_stage hr s
    rw [stageRequest_staged hf hch ht hst] at hrun
    refine ⟨fun hcl hacc hpour hlt => ?_, fun hge => ?_, fun st hhead hne hlt => ?_⟩
    · rw [checkedStatus_clean hcl, hacc, stagePacket_enters htxn' hlt hpour] at hrun; exact hrun
    · rw [stagePacket_full htxn' hge] at hrun; exact hrun
    · rw [checkedStatus, hhead, if_neg hne, stagePacket_error htxn' hlt hne] at hrun; exact hrun
  case tile =>
    have hrun := exec_stage hr s
    rw [stageRequest_unstaged hf hch ht hst ((checkedStatus_clean hcl).trans hacc), runLocal_checked hloc hck] at hrun
    refine ⟨fun hload => ?_, fun hload hstate => ?_, fun hload hstate => ?_⟩
    · rw [if_pos hload] at hrun; exact hrun
    · rw [if_neg (Bool.eq_false_iff.mp hload), if_neg hstate] at hrun; exact hrun
    · rw [if_neg (Bool.eq_false_iff.mp hload), if_pos hstate] at hrun; exact hrun

end Sys2Proof.Machine
end

section
/-! PROOF. Slots between two pours, the staging cutoff, the PWM update instants and the master entries (R59, R80, R151 to R170,
R333; log entries 17 and 58 to 60). -/

namespace Sys2Proof.Machine

/-! ### Slot events (R155, R166 to R170) -/

theorem confirmationDeadline_late {i : Fin 32} {s : State} (hm : slotMissing s.slots[i] = true)
    (hd : deadlineOf s ((pourNum s).toNat + 1) ≤ s.dt.toInt) : Runs (.confirmationDeadline i) s (slotLate i s) := by
  show execConfirmationDeadline i s = _
  simp [-Fin.getElem_fin, execConfirmationDeadline, hm, hd]

theorem confirmationDeadline_none {i : Fin 32} {s : State}
    (h : slotMissing s.slots[i] = false ∨ s.dt.toInt < deadlineOf s ((pourNum s).toNat + 1)) :
    Runs (.confirmationDeadline i) s s := by
  show execConfirmationDeadline i s = _
  obtain hm | hd := h
  · simp [-Fin.getElem_fin, execConfirmationDeadline, hm]
  · simp [-Fin.getElem_fin, execConfirmationDeadline, Int.not_le.mpr hd]

/-- The slot's master is lost: the slot rides through from the pour that it misses. -/
def loseMaster (i : Fin 32) (s : State) : State :=
  note Ev.masterLost (srcSlot i) 0 0 0 (modSlot i (fun y => { y with
    lostAt := pourAt s ((pourNum s).toNat + if y.outcome.isSome then 1 else 0)
    regs := { y.regs with slotState := 4, lostSeen := true } }) s)

theorem loseMaster_slot (i : Fin 32) (s : State) : (loseMaster i s).slots[i] = { s.slots[i] with
    lostAt := pourAt s ((pourNum s).toNat + if s.slots[i].outcome.isSome then 1 else 0)
    regs := { s.slots[i].regs with slotState := 4, lostSeen := true } } := upd_self ..

@[simp] theorem loseMaster_clock (i : Fin 32) (s : State) : (loseMaster i s).clock = s.clock := by
  simp [loseMaster]

/-- A steep that still waits for the value goes on with the predicted one. -/
theorem masterLost_runs {i : Fin 32} {s : State} (hst : s.slots[i].regs.slotState = 3)
    (hn : s.slots[i].regs.nLate.toNat ≤ s.slots[i].regs.lateRun.toNat) :
    Runs (.masterLost i) s (if s.slots[i].steeping && s.slots[i].arrived.isNone then
      lookAhead (modSlot i (fun y => { y with predicted := slotPredict (loseMaster i s) i }) (loseMaster i s))
      else loseMaster i s) := by
  show execMasterLost i s = _
  have hon : (decide (s.slots[i].regs.slotState = 3) && decide (s.slots[i].regs.nLate.toNat ≤ s.slots[i].regs.lateRun.toNat))
      = true := by simp [-Fin.getElem_fin, hst, hn]
  have hsl := loseMaster_slot i s
  refine (if_pos hon).trans ?_
  show Host.Outcome.next (if (loseMaster i s).slots[i].steeping && (loseMaster i s).slots[i].arrived.isNone then _ else _) = _
  rw [hsl]
  rfl

theorem showSlot_slotState (q : BitVec 64) (x : Slot) : (showSlot q x).regs.slotState = x.regs.slotState := by
  unfold showSlot; split <;> rfl
theorem showSlot_lostSeen (q : BitVec 64) (x : Slot) : (showSlot q x).regs.lostSeen = x.regs.lostSeen := by
  unfold showSlot; split <;> rfl
theorem lookAhead_slot (s : State) (i : Fin 32) : (lookAhead s).slots[i] = showSlot (pourNum s + 1) s.slots[i] :=
  Vector.getElem_map ..

/-- Whatever it still waits for, a slot that has lost its master is LOST. -/
theorem masterLost_slot {i : Fin 32} {s : State} (hst : s.slots[i].regs.slotState = 3)
    (hn : s.slots[i].regs.nLate.toNat ≤ s.slots[i].regs.lateRun.toNat) :
    ∃ t, Runs (.masterLost i) s t ∧ t.slots[i].regs.slotState = 4 ∧ t.slots[i].regs.lostSeen = true ∧ t.clock = s.clock := by
  refine ⟨_, masterLost_runs hst hn, ?_⟩
  have hsl := loseMaster_slot i s
  split
  · refine ⟨?_, ?_, by simp⟩
    · rw [lookAhead_slot, showSlot_slotState, modSlot_slots, upd_self, hsl]
    · rw [lookAhead_slot, showSlot_lostSeen, modSlot_slots, upd_self, hsl]
  · exact ⟨congrArg (·.regs.slotState) hsl, congrArg (·.regs.lostSeen) hsl, loseMaster_clock i s⟩

theorem masterLost_known {i : Fin 32} {s : State} (hst : s.slots[i].regs.slotState = 3)
    (hn : s.slots[i].regs.nLate.toNat ≤ s.slots[i].regs.lateRun.toNat)
    (hv : s.slots[i].steeping = false ∨ s.slots[i].arrived.isSome = true) : Runs (.masterLost i) s (loseMaster i s) := by
  have hoff : ¬(s.slots[i].steeping && s.slots[i].arrived.isNone) = true := by
    cases hv with
    | inl h => simp [-Fin.getElem_fin, h]
    | inr h => simp [-Fin.getElem_fin, Option.isSome_iff_ne_none.mp h]
  have hrun := masterLost_runs hst hn
  rw [if_neg hoff] at hrun
  exact hrun

theorem rideThroughEnd_due {i : Fin 32} {s : State} (hst : s.slots[i].regs.slotState = 4)
    (hp : hasPassed s.slots[i].lostAt (s.slots[i].regs.tRide.toNat * 1000000) s = true) :
    Runs (.rideThroughEnd i) s
      ((slotFollowers s i).foldl (fun s a => modAxis a (fun ax =>
          { ax with slotStop := ax.slotStop || (ax.enabled && ax.stopping) }) s)
        (raise Ev.rideThroughEnd (srcSlot i) s.slots[i].clsRide false 0 0 0 (slotFollowers s i)
          (modSlotRegs i (fun r => { r with slotState := 5 }) s))) := by
  show execRideThroughEnd i s = _
  refine if_neg ?_
  simp [-Fin.getElem_fin, hst, hp]

theorem rideThroughEnd_none {i : Fin 32} {s : State}
    (hp : hasPassed s.slots[i].lostAt (s.slots[i].regs.tRide.toNat * 1000000) s = false) : Runs (.rideThroughEnd i) s s := by
  show execRideThroughEnd i s = _
  refine if_pos ?_
  simp [-Fin.getElem_fin, hp]

theorem slotArmed_runs {i : Fin 32} {s : State} (hst : s.slots[i].regs.slotState = 1)
    (hrun : s.slots[i].regs.order.toNat < s.slots[i].armRun) :
    Runs (.slotArmed i) s (note Ev.slotArmed (srcSlot i) 0 0 0 (modAxis (slotAxis i) (fun ax => { ax with source := 4 })
      (modSlotRegs i (fun r => { r with
        slotState := 2, armedPour := pourNum s, lateRun := 0
        confirmed := 0, corrected := 0, resteeped := 0, overrun := 0, lateReleased := 0, held := 0 }) s))) := by
  show execSlotArmed i s = _
  refine if_pos ?_
  simp [-Fin.getElem_fin, hst, hrun]

theorem resteepEnd_inTime {i : Fin 32} {s : State} {t0 : Fix} (h : s.slots[i].resteep = some t0)
    (hin : s.dt.toNat ≤ t0.toNat + 3000 * 2 ^ 32)
    (hnext : s.dt.toNat + 200 * 2 ^ 32 ≤ (pourAt s ((pourNum s).toNat + 1)).toNat) :
    Runs (.resteepEnd i) s (lookAhead (modSlot i (fun y => { y with resteep := none, outcome := some 2 }) s)) := by
  show execResteepEnd i s = _
  unfold execResteepEnd
  rw [h]
  refine if_pos ?_
  rw [Bool.and_eq_true, decide_eq_true_eq, decide_eq_true_eq]
  exact ⟨hin, hnext⟩

theorem resteepEnd_late {i : Fin 32} {s : State} {t0 : Fix} (h : s.slots[i].resteep = some t0)
    (hlate : t0.toNat + 3000 * 2 ^ 32 < s.dt.toNat) : Runs (.resteepEnd i) s (slotOverrun i s) := by
  show execResteepEnd i s = _
  unfold execResteepEnd
  rw [h]
  refine if_neg ?_
  rw [Bool.and_eq_true, decide_eq_true_eq]
  exact fun hin => Nat.not_le.mpr hlate hin.1

/-! ### The staging cutoff and the PWM update instants (R59, R80, R333) -/

theorem stagingCutoff_runs {s : State} (h : s.stage.regs.pourLen ≠ 0) :
    Runs .stagingCutoff s (resteepSettings (takeInputs s)) :=
  if_neg (mt pourLen_eq_zero.mp h)

theorem pwmUpdateInstant_centre (t : Fin 16) (s : State) : Runs (.pwmUpdateInstant t true) s (pwmUpdate t true s) := rfl

/-- A valley on the carrier is the tick of the position loop where the tile stands still or the period count says so. -/
theorem pwmUpdateInstant_valley {t : Fin 16} {s : State} (hon : onCarrier (pwmUpdate t false s) t false = true)
    (ht : (pwmUpdate t false s).tiles[t].regs.tileState ≠ 2 ∨ tickPeriod (pwmUpdate t false s) t = true) :
    Runs (.pwmUpdateInstant t false) s (flushTick t (pwmUpdate t false s)) := by
  show execPwmUpdateInstant t false s = _
  refine congrArg _ (if_pos ?_)
  simpa [-Fin.getElem_fin, hon] using ht

theorem pwmUpdateInstant_noTick {t : Fin 16} {s : State} (h : onCarrier (pwmUpdate t false s) t false = false ∨
      ((pwmUpdate t false s).tiles[t].regs.tileState = 2 ∧ tickPeriod (pwmUpdate t false s) t = false)) :
    Runs (.pwmUpdateInstant t false) s (pwmUpdate t false s) := by
  show execPwmUpdateInstant t false s = _
  refine congrArg _ (if_neg ?_)
  obtain hoff | ⟨hst, hp⟩ := h
  · simp [-Fin.getElem_fin, hoff]
  · simp [-Fin.getElem_fin, hst, hp]

/-! ### Master entries (R151, R152, R158) -/

/-- The place of an entry about the pour to come: how many pours after it the entry's own pour lies. -/
def entryLead (m : MasterSample) (s : State) : Int :=
  (m.pour - (pourNum s + 1 - s.stage.regs.domainD.zeroExtend 64).truncate 16).toInt

/-- The state in which an entry is known, so that a later copy of it is not taken. -/
def knowEntry (i : Fin 32) (m : MasterSample) (s : State) : State :=
  modLink (fun l => { l with taken := entryKey s i m :: keepTaken m.pour l.taken }) s

/-- A valid entry that is not yet known is received once. -/
theorem masterEntryArrival_new {i : Fin 32} {m : MasterSample} {s : State}
    (hnew : s.link.taken.contains (entryKey s i m) = false) (hv : m.valid = true) (hcrc : m.crcOk = true) :
    Runs (.masterEntryArrival i m) s (receiveEntry i m (knowEntry i m s)) := by
  show execMasterEntryArrival i m s = _
  refine congrArg _ ((if_neg (Bool.eq_false_iff.mp hnew)).trans ?_)
  rw [hv, hcrc]
  rfl

theorem receiveEntry_near {i : Fin 32} {m : MasterSample} {s : State} (hl : s.stage.regs.pourLen ≠ 0)
    (hst : s.slots[i].regs.slotState ≠ 0) (hv : m.valid = true) (hcrc : m.crcOk = true) (hlo : -3 ≤ entryLead m s)
    (hhi : entryLead m s ≤ 16) : receiveEntry i m s = takeEntryAt i m (entryLead m s) s := by
  have hl' : ¬pourLen s = 0 := mt pourLen_eq_zero.mp hl
  refine if_neg ?_
  have hlo' : ¬entryLead m s < -3 := Int.not_lt.mpr hlo
  have hhi' : ¬16 < entryLead m s := Int.not_lt.mpr hhi
  rw [← entryLead]
  simpa [-Fin.getElem_fin, hl', hv, hcrc, hlo', hhi'] using hst

theorem receiveEntry_far {i : Fin 32} {m : MasterSample} {s : State} (h : entryLead m s < -3 ∨ 16 < entryLead m s) :
    receiveEntry i m s = s := by
  refine if_pos ?_
  rw [← entryLead]
  obtain h | h := h <;> simp [h]

theorem masterEntryArrival_none {i : Fin 32} {m : MasterSample} {s : State}
    (h : m.valid = false ∨ m.crcOk = false ∨ s.link.taken.contains (entryKey s i m) = true) :
    Runs (.masterEntryArrival i m) s s := by
  show execMasterEntryArrival i m s = _
  unfold execMasterEntryArrival
  refine congrArg _ ?_
  obtain hv | hcrc | hk := h
  · simp [receiveEntry, hv]
  · simp [receiveEntry, hcrc]
  · exact if_pos hk

/-- Settles O28: each event's condition is the one that its command tests, and a slot's own fields are those that it writes. -/
theorem slotAndCutoffEventsFollowTheirState : Obligations.SlotAndCutoffEventsFollowTheirState := by
  unfold Obligations.SlotAndCutoffEventsFollowTheirState
  dsimp only
  refine ⟨fun i s => ⟨confirmationDeadline_late, confirmationDeadline_none, masterLost_known, masterLost_slot,
      rideThroughEnd_due, rideThroughEnd_none, fun hst hrun => ⟨_, slotArmed_runs hst hrun, ?armed⟩,
      fun _ => resteepEnd_inTime, fun _ => resteepEnd_late⟩,
    fun s t => ⟨stagingCutoff_runs, pwmUpdateInstant_centre t s, pwmUpdateInstant_valley, pwmUpdateInstant_noTick⟩,
    fun i m s => ⟨fun hnew hl hst hv hcrc hlo hhi => ?near, masterEntryArrival_none, fun hnew hv hcrc hfar => ?far⟩⟩
  case armed =>
    exact ⟨congrArg (fun x : Slot => x.regs.slotState) (upd_self ..), congrArg (fun x : Slot => x.regs.confirmed) (upd_self ..),
      congrArg (fun x : Slot => x.regs.corrected) (upd_self ..), congrArg (fun x : Slot => x.regs.armedPour) (upd_self ..),
      congrArg Axis.source (upd_self ..), fun j hj => upd_ne _ _ hj, rfl⟩
  case near =>
    have hrun := masterEntryArrival_new hnew hv hcrc
    rw [receiveEntry_near (s := knowEntry i m s) hl hst hv hcrc hlo hhi] at hrun
    exact hrun
  case far =>
    have hrun := masterEntryArrival_new hnew hv hcrc
    rw [receiveEntry_far (s := knowEntry i m s) hfar] at hrun
    exact hrun

end Sys2Proof.Machine
end

section
/-! PROOF. Compare units, pulse outputs and the time servo (R39 to R52). -/

namespace Sys2Proof.Machine

/-! ### Compare units (R48) -/

theorem compareFire_due {u : Fin 16} {s : State} (hst : s.compares[u].regs.cmpState ≠ 0)
    (hd : compareDiff s.compares[u].regs.target (nsOf s.dt) ≤ 0) : Runs (.compareFire u) s (fireCompare u s) := by
  show execCompareFire u s = _
  refine congrArg _ (if_pos ?_)
  simpa [-Fin.getElem_fin, hd] using hst

theorem compareFire_ahead {u : Fin 16} {s : State} (hd : 0 < compareDiff s.compares[u].regs.target (nsOf s.dt)) :
    Runs (.compareFire u) s s := by
  show execCompareFire u s = _
  refine congrArg _ (if_neg ?_)
  simp [-Fin.getElem_fin, Int.not_le.mpr hd]

/-! ### Pulse outputs (R52) -/

/-- t with the pulse outputs and the overflow mark of s: all that an edge may change. -/
def withPpsOf (s t : State) : State :=
  { t with pps := s.pps, time := { t.time with regs := { t.time.regs with cntOvf := s.time.regs.cntOvf } } }

theorem withPpsOf_countEdge (n : Fin 8) (s t : State) : withPpsOf s (countEdge n t) = withPpsOf s t := by
  unfold countEdge; dsimp only
  split <;> rfl

theorem countEdge_pps (n : Fin 8) (s : State) : (countEdge n s).pps =
    upd s.pps n fun x => { x with regs := { x.regs with edgeCount := satInc x.regs.edgeCount } } := by
  unfold countEdge; dsimp only
  split <;> rfl
@[simp] theorem countEdge_active (n : Fin 8) (s : State) : (countEdge n s).pps[n].active = s.pps[n].active := by
  simp only [countEdge_pps, upd_self]
@[simp] theorem countEdge_next (n : Fin 8) (s : State) : (countEdge n s).pps[n].next = s.pps[n].next := by
  simp only [countEdge_pps, upd_self]

theorem ppsEdge_trailing {n : Fin 8} {s : State} (ha : s.pps[n].active = true) (hd : edgeDue s.pps[n].trailing s = true) :
    Runs (.ppsEdge n) s (ppsTrailing n s) := by
  show execPpsEdge n s = _
  exact congrArg _ ((if_pos ha).trans (if_pos hd))

theorem ppsTrailing_active (n : Fin 8) (s : State) : (ppsTrailing n s).pps[n].active = false := by
  simp only [ppsTrailing, countEdge_active, modPps, upd_self]

theorem withPpsOf_ppsTrailing (n : Fin 8) (s : State) : withPpsOf s (ppsTrailing n s) = s :=
  withPpsOf_countEdge ..

theorem ppsEdge_leading {n : Fin 8} {s : State} (ha : s.pps[n].active = false) (hst : s.pps[n].regs.ppsState ≠ 0)
    (hd : edgeDue s.pps[n].next s = true) : Runs (.ppsEdge n) s (ppsLeading n s) := by
  show execPpsEdge n s = _
  refine congrArg _ ((if_neg (Bool.eq_false_iff.mp ha)).trans (if_pos ?_))
  simpa [-Fin.getElem_fin, hd] using hst

/-- An output that must not run unlocked skips its pulse while the servo is not locked. -/
theorem ppsLeading_active (n : Fin 8) (s : State) :
    (ppsLeading n s).pps[n].active = (s.pps[n].runUnlocked || decide (2 ≤ s.time.regs.state.toNat)) := by
  unfold ppsLeading
  extract_lets x quiet nxt s1
  have hact : s1.pps[n].active = !quiet := congrArg PulseOut.active (upd_self ..)
  have hquiet : (!quiet) = (s.pps[n].runUnlocked || decide (2 ≤ s.time.regs.state.toNat)) := by
    simp only [quiet, x, Bool.not_and, Bool.not_not, ← decide_not, Nat.not_lt]
  rw [← hquiet]
  split
  · exact hact
  · exact (countEdge_active n s1).trans hact

theorem ppsLeading_next (n : Fin 8) (s : State) : (ppsLeading n s).pps[n].next = s.pps[n].next + s.pps[n].period := by
  unfold ppsLeading
  extract_lets x quiet nxt s1
  have hnext : s1.pps[n].next = s.pps[n].next + s.pps[n].period := congrArg PulseOut.next (upd_self ..)
  split
  · exact hnext
  · exact (countEdge_next n s1).trans hnext

theorem withPpsOf_ppsLeading (n : Fin 8) (s : State) : withPpsOf s (ppsLeading n s) = s := by
  unfold ppsLeading
  extract_lets x quiet nxt s1
  split
  · rfl
  · exact withPpsOf_countEdge n s s1

/-! ### The time servo (R41, R43, R46) -/

/-- The end of a condition touches the axes alone. -/
theorem clearCond_frame (code : BitVec 16) (axs : List (Fin 112)) (s : State) :
    { clearCond code axs s with axes := s.axes } = s :=
  foldl_frame (fun t => { t with axes := s.axes })
    (fun s a => modAxis a (fun ax => { ax with conds := ax.conds.filter (· ≠ code) }) s) (fun _ _ => rfl) axs s

@[simp] theorem clearCond_time (code : BitVec 16) (axs : List (Fin 112)) (s : State) : (clearCond code axs s).time = s.time :=
  (congrArg State.time (clearCond_frame code axs s) :)
@[simp] theorem clearCond_tiles (code : BitVec 16) (axs : List (Fin 112)) (s : State) :
    (clearCond code axs s).tiles = s.tiles := (congrArg State.tiles (clearCond_frame code axs s) :)
@[simp] theorem clearCond_pps (code : BitVec 16) (axs : List (Fin 112)) (s : State) : (clearCond code axs s).pps = s.pps :=
  (congrArg State.pps (clearCond_frame code axs s) :)
@[simp] theorem clearCond_events (code : BitVec 16) (axs : List (Fin 112)) (s : State) :
    (clearCond code axs s).events = s.events := (congrArg State.events (clearCond_frame code axs s) :)

/-- The state in which the servo is locked, before LOCKED is recorded. -/
def lockTime (s : State) : State :=
  clearCond Ev.timeUnlocked allAxes (clearCond Ev.holdoverExpired allAxes (clearCond Ev.timeFault allAxes
    (enterTimeState 2 (modTime (fun t => { t with unlockRun := 0, faulted := false, unlocked := false }) s))))

theorem timeLocked_runs {s : State} (hst : s.time.regs.state = 1) (hrun : 64 ≤ s.time.lockRun) :
    Runs .timeLocked s (note Ev.timeLocked srcServo 0 0 0 (lockTime s)) := by
  show execTimeLocked s = _
  rw [execTimeLocked, if_pos (by simp [hst, hrun])]
  rfl

theorem lockTime_time (s : State) : (lockTime s).time =
    { s.time with unlockRun := 0, faulted := false, unlocked := false, regs := { s.time.regs with state := 2 } } := by
  simp only [lockTime, clearCond_time]
  rfl
theorem lockTime_frame (s : State) : (lockTime s).clock = s.clock ∧ (lockTime s).tiles = s.tiles ∧ (lockTime s).pps = s.pps
    ∧ (lockTime s).events = s.events := by
  refine ⟨by simp [lockTime], ?_, ?_, ?_⟩
  · simp only [lockTime, clearCond_tiles]; rfl
  · simp only [lockTime, clearCond_pps]; rfl
  · simp only [lockTime, clearCond_events]; rfl

/-- The record of a lock goes out and leaves the state. -/
theorem noteLocked_frame {s u : State} (hclock : u.clock = s.clock) (hevents : u.events = s.events) :
    let t := note Ev.timeLocked srcServo 0 0 0 u
    t.time = u.time ∧ t.clock = s.clock ∧ t.tiles = u.tiles ∧ t.pps = u.pps
      ∧ t.events.fabric = s.events.fabric ++ [{ code := Ev.timeLocked, src := srcServo, t := s.dt }] := by
  refine ⟨rfl, (note_clock ..).trans hclock, rfl, rfl, ?_⟩
  show u.events.fabric ++ [{ code := Ev.timeLocked, src := srcServo, t := u.dt }] = _
  rw [hevents, dt_of_clock hclock]

/-- A locked servo changes its own state and clears the conditions of an unlocked one, and its record goes out. -/
theorem timeLocked_state {s : State} (hst : s.time.regs.state = 1) (hrun : 64 ≤ s.time.lockRun) :
    ∃ t, Runs .timeLocked s t ∧ t.time.regs.state = 2 ∧ t.time.faulted = false ∧ t.time.unlocked = false
      ∧ t.clock = s.clock ∧ t.tiles = s.tiles ∧ t.pps = s.pps
      ∧ t.events.fabric = s.events.fabric ++ [{ code := Ev.timeLocked, src := srcServo, t := s.dt }] := by
  obtain ⟨hclock, htiles, hpps, hevents⟩ := lockTime_frame s
  obtain ⟨htime, hc, ht, hp, he⟩ := noteLocked_frame hclock hevents
  refine ⟨_, timeLocked_runs hst hrun, ?_, ?_, ?_, hc, ht.trans htiles, hp.trans hpps, he⟩
  all_goals rw [htime, lockTime_time]

theorem timeUnlocked_runs {s : State} (hst : s.time.regs.state = 2) (hrun : 4 ≤ s.time.unlockRun) : Runs .timeUnlocked s
    (raise Ev.timeUnlocked srcServo s.time.clsUnlocked true 0 0 0 (syncAxes s) (enterTimeState 1 (modTime (fun t => { t with
      lockRun := 0, unlocked := true
      regs := { t.regs with
        unlockSeen := true, unlockCount := satInc s.time.regs.unlockCount
        cntOvf := s.time.regs.cntOvf || satFull s.time.regs.unlockCount } }) s))) := by
  show execTimeUnlocked s = _
  rw [execTimeUnlocked, if_pos (by simp [hst, hrun])]
  rfl

/-! ### Holdover and the grandmaster's input (R43, R47) -/

theorem holdoverEntry_runs {s : State} (hst : s.time.regs.state = 2) (hrun : 4 ≤ s.time.missRun) :
    Runs .holdoverEntry s (enterHoldover s) := by
  show execHoldoverEntry s = _
  rw [execHoldoverEntry, if_pos (by simp [hst, hrun])]

theorem holdoverExpired_due {s : State} (hst : s.time.regs.state = 3) (hdone : s.time.holdoverDone = false)
    (hlong : s.time.holdoverAt.toNat + s.time.tHoldMs.toNat * 1000000 * 2 ^ 32 < s.dt.toNat) :
    Runs .holdoverExpired s (raise Ev.holdoverExpired srcServo s.time.clsHoldover true 0 0 0 (syncAxes s)
      (modTime (fun t => { t with holdoverDone := true }) s)) := by
  have hheld : heldTooLong s = true := decide_eq_true hlong
  show execHoldoverExpired s = _
  rw [execHoldoverExpired, if_pos (by simp [hst, hdone, hheld])]

theorem holdoverExpired_none {s : State}
    (h : s.dt.toNat ≤ s.time.holdoverAt.toNat + s.time.tHoldMs.toNat * 1000000 * 2 ^ 32) : Runs .holdoverExpired s s := by
  have hheld : heldTooLong s = false := decide_eq_false (Nat.not_lt.mpr h)
  show execHoldoverExpired s = _
  rw [execHoldoverExpired, if_neg (by simp [hheld])]

theorem ptpLost_runs {s : State} (hgm : s.time.regs.roleGm = true) (hsrc : 2 ≤ s.time.source.toNat)
    (hl : s.time.ptpLost = false) : Runs .ptpLost s (enterHoldover (note Ev.ptpLost srcServo 0 0 0 (modTime (fun t =>
      { t with ptpLost := true, regs := { t.regs with ptpLostSeen := true, ptpLocked := false } }) s))) := by
  show execPtpLost s = _
  rw [execPtpLost, if_pos (by simp [hgm, hsrc, hl])]

theorem ptpMessageReceive_runs {eth : Fin 2} {domain : BitVec 8} (rate offset : BitVec 32) (tai : BitVec 64) (locked : Bool)
    {s : State} (hgm : s.time.regs.roleGm = true) (hsrc : s.time.source.toNat = 2 + eth.val)
    (hd : s.time.ptp[eth].domain = domain.setWidth 32) :
    Runs (.ptpMessageReceive eth domain rate offset tai locked) s (ptpMessage rate offset tai locked s) := by
  show execPtpMessageReceive eth domain rate offset tai locked s = _
  rw [execPtpMessageReceive, if_pos (by simp [-Fin.getElem_fin, hgm, hsrc, hd])]

/-- Settles O29: each condition is the one that its command tests, and an edge or a locked servo writes what is named. -/
theorem timeEventsFireAndChangeTheServo : Obligations.TimeEventsFireAndChangeTheServo := by
  unfold Obligations.TimeEventsFireAndChangeTheServo
  dsimp only
  refine ⟨fun u n s => ⟨compareFire_due, compareFire_ahead,
      fun ha hd => ⟨_, ppsEdge_trailing ha hd, rfl, ppsTrailing_active n s, withPpsOf_ppsTrailing n s⟩,
      fun ha hst hd => ⟨_, ppsEdge_leading ha hst hd, rfl, ppsLeading_active n s, ppsLeading_next n s,
        withPpsOf_ppsLeading n s⟩⟩,
    fun eth rate offset tai locked s => ⟨timeLocked_state, timeUnlocked_runs,
      fun hst hrun => ⟨_, holdoverEntry_runs hst hrun, rfl, rfl, rfl, rfl, rfl⟩, holdoverExpired_due, holdoverExpired_none,
      ptpLost_runs, fun _ => ptpMessageReceive_runs rate offset tai locked⟩⟩

end Sys2Proof.Machine
end

section
/-! PROOF. Every command ends in a next state and leaves the queue to the step (log entries 17 and 20; R83). -/

namespace Sys2Proof.Machine

/-! ### No command stops -/

/-- The outcome is a next state. -/
def Completes (o : Host.Outcome State Fault Refusal) : Prop := ∃ t, o = .next t

theorem completes_next (t : State) : Completes (.next t) := ⟨t, rfl⟩
theorem completes_ite {c : Prop} [Decidable c] {a b : Host.Outcome State Fault Refusal} (ha : Completes a)
    (hb : Completes b) : Completes (if c then a else b) := by split <;> assumption

/-- Each command answers a next state in every branch of its meaning: those that look at what a list or an option holds by
its cases, the others by their conditions alone. -/
theorem exec_completes (c : Instr) (s : State) : Completes (exec c s) := by
  cases c
  case resteepEnd | configCommitComplete | hardStopDetect | directCoefApply | brakeCheckExpiry | indexEdge | ssiFrameComplete
      | latchComplete | segRelease | switchBankRead | backfeedCandidateCheck =>
    unfold exec
    simp only [execResteepEnd, execConfigCommitComplete, execHardStopDetect, execDirectCoefApply, execBrakeCheckExpiry,
      execIndexEdge, execSsiFrameComplete, execLatchComplete, execSegRelease, execSwitchBankRead, execBackfeedCandidateCheck]
    (repeat' split) <;> exact completes_next _
  all_goals repeat' refine completes_ite ?_ ?_
  all_goals exact completes_next _

/-! ### The queue -/

/-- A loaded DT leaves the queue. -/
theorem pending_keptByLoads (l : List Instr) : KeptByLoads fun s => s.pending = l :=
  ⟨fun h hs => (pending_of_clock h).trans hs, fun _ _ hs => hs⟩

@[simp] theorem assertPowerOn_pending (s : State) : (assertPowerOn s).pending = s.pending := rfl
@[simp] theorem assertCold_pending (src : BitVec 6) (s : State) : (assertCold src s).pending = s.pending := by
  unfold assertCold; dsimp only; split <;> rfl
@[simp] theorem powerDown_pending (hibernate : Bool) (s : State) : (powerDown hibernate s).pending = s.pending :=
  (pending_of_clock (showCopies_clock _)).trans rfl
@[simp] theorem fixDomain_pending (n : BitVec 3) (d : BitVec 4) (wrap : Bool) (s : State) :
    (fixDomain n d wrap s).pending = s.pending := rfl
@[simp] theorem startEpoch_pending (r : DomainChecks) (s : State) : (startEpoch r s).pending = s.pending := by
  unfold startEpoch; split <;> rfl
@[simp] theorem endOps_pending (sel : PendingOp → Bool) (st : BitVec 16) (s : State) : (endOps sel st s).pending = s.pending :=
  endOps_frame State.pending (fun _ _ => rfl) (fun _ _ => rfl) sel st s

/-- The start of the domain, granted or refused, leaves the queue (R132, R133). -/
theorem domainStart_pending {r : DomainChecks} {s t : State} (h : Runs (.domainStartComplete r) s t) :
    t.pending = s.pending := by
  have hplan (l : Nat) : (evalPlan l (noteReports r s)).pending = s.pending :=
    pending_of_clock ((evalPlan_clock ..).trans (noteReports_clock ..))
  have hslots (f : Fix) (u : State) : (firstSlots f u).pending = u.pending := pending_of_clock (firstSlots_clock ..)
  rw [next_inj h]
  split
  case h_1 q hq =>
    split
    · rfl
    · dsimp only
      split
      · rw [endOps_pending, hslots, startEpoch_pending, fixDomain_pending, hplan]
      · rw [endOps_pending, modLink_pending, hplan]
  case h_2 =>
    split
    · rfl
    · dsimp only
      split
      · rw [hslots, discardDt, modTime_pending, fixDomain_pending, hplan]
      · rw [hplan]

/-- A wake draws its free choices and may power the module on (R552, R553; log entry 46). -/
theorem wakeInput_pending {mv ns : Nat} {s t : State} (h : Runs (.wakeInput mv ns) s t) : t.pending = s.pending := by
  have hd (f : Power → Power) : (drew 2 (modPower f s)).pending = s.pending := rfl
  rw [next_inj h]
  generalize hp : drew 2 (modPower _ s) = u
  have hu : u.pending = s.pending := hp ▸ hd _
  split
  · exact hu
  · exact hu

theorem pourPoint_pending {s t : State} (h : Runs .pourPoint s t) : t.pending = s.pending := by
  obtain rfl | hc := pourPoint_clock h
  · rfl
  · exact congrArg (fun x => x.1) hc
theorem powerOn_pending {s t : State} (h : Runs .powerOn s t) : t.pending = s.pending := by
  rw [next_inj h]; split <;> rfl
theorem brownout_pending {s t : State} (h : Runs .brownout s t) : t.pending = s.pending := by
  rw [next_inj h]; split
  · rfl
  · rw [assertCold_pending]; rfl
theorem resetNInput_pending {low : Bool} {ns : Nat} {s t : State} (h : Runs (.resetNInput low ns) s t) :
    t.pending = s.pending := by
  rw [next_inj h]; split
  · rw [assertCold_pending]; rfl
  · split <;> rfl
theorem hibernateEnter_pending {s t : State} (h : Runs .hibernateEnter s t) : t.pending = s.pending := by
  rw [next_inj h]; split
  · rw [powerDown_pending]
  · rfl
theorem kettleRestart_pending {s t : State} (h : Runs .kettleRestart s t) : t.pending = s.pending := by
  rw [next_inj h]; split
  · rw [assertCold_pending]
  · rfl
theorem vinLoss_pending {s t : State} (h : Runs .vinLoss s t) : t.pending = s.pending := by
  rw [next_inj h, powerDown_pending]

/-- The commands that move the clock load DT, stand on a pour, start the domain or bring the module up; the others leave the
queue with it. -/
theorem exec_pending {c : Instr} {s t : State} (h : Runs c s t) : t.pending = s.pending := by
  by_cases hm : movesClock c = false
  · exact pending_of_clock (exec_clock c s t hm h)
  · unfold movesClock at hm
    split at hm
    · exact pourPoint_pending h
    · exact (pending_keptByLoads s.pending).timeReload rfl h
    · exact (pending_keptByLoads s.pending).pourFrameArrival rfl h
    · exact domainStart_pending h
    · exact powerOn_pending h
    · exact wakeInput_pending h
    · exact brownout_pending h
    · exact resetNInput_pending h
    · exact hibernateEnter_pending h
    · exact kettleRestart_pending h
    · exact vinLoss_pending h
    · exact absurd rfl hm

/-- Settles O6: by the branches of each meaning; that no command stops is the model's choice (log entries 17 and 20). -/
theorem commandsCompleteAndKeepTheQueue : Obligations.CommandsCompleteAndKeepTheQueue := by
  intro c s
  obtain ⟨t, ht⟩ := exec_completes c s
  exact ⟨t, ht, exec_pending ht⟩

end Sys2Proof.Machine
end

section
/-! PROOF. How a request is served: its checks, its turn, its predecessor, and its reply; a refused one touches the transport
alone (R75 to R83, R87). -/

namespace Sys2Proof.Machine

/-! ### The checks after acceptance (R75 to R79) -/

theorem clean_of_headerStatus_ok {d : OpDesc} {p : Packet} {s : State} (h : headerStatus d p s = Status.ok) :
    Clean d p s := by
  unfold headerStatus at h
  dsimp only at h
  iterate 15 rw [check_ok_iff (by decide)] at h
  obtain ⟨hver, hzero, hpour, hparams, hres, hprio, hstage, htarget, hunstaged, hdiag, hquar, hctl, hblock, hreply, hops, -⟩ := h
  refine ⟨Decidable.not_not.mp hver, Decidable.not_not.mp hzero, by simpa using hparams, by simpa using hres, ?prio, by simpa using htarget,
    ?staged, ?unstaged, by simpa using hdiag, by simpa using hctl, ?block, by simpa using hreply, by simpa using hops⟩
  case prio =>
    intro hp
    by_cases ha : d.cls = .a
    · exact .inl ha
    · exact .inr (by simpa [hp, ha] using hprio)
  case staged =>
    intro hs
    refine ⟨by simpa [hs] using hstage, ?_, by simpa [hs] using hquar⟩
    simpa [hs, Option.isSome_iff_ne_none] using hpour
  case unstaged =>
    intro hs
    by_cases hno : d.stage = .no
    · exact .inl hno
    · exact .inr (by simpa [hs, hno, Option.isSome_iff_ne_none] using hunstaged)
  case block => cases hb : d.block (tgt p) <;> simp_all

/-- Settles O8: each check of the header is one clause of a clean packet; nothing there restricts CHAINED (R78). -/
theorem headerChecksPassForCleanPackets : Obligations.HeaderChecksPassForCleanPackets :=
  fun _ _ _ => ⟨clean_of_headerStatus_ok, headerStatus_ok_of_clean⟩

/-! ### The service of a new request (R78, R81) -/

section
variable {d : OpDesc} {go : State → State} {p : Packet} {s : State}

/-- How the packet stands to its predecessor, in the state that has accepted it. -/
def chainOf (d : OpDesc) (p : Packet) (s : State) : Chain :=
  chainState s.ocp.sessions[p.session].hist ((entryOf d.op p s).any (·.orphan)) p.chained p.seq

theorem runAccepted_wait (hc : chainOf d p s = .wait) : runAccepted d go p s = s := by
  unfold runAccepted; dsimp only
  split
  · rfl
  · rw [show chainState _ _ _ _ = Chain.wait from hc]
theorem runAccepted_go (ht : Turn d.op p s) (hc : chainOf d p s = .go) : runAccepted d go p s = go s := by
  unfold runAccepted; dsimp only
  rw [if_neg (Bool.eq_false_iff.mp (congrArg Bool.not ht)), show chainState _ _ _ _ = Chain.go from hc]
theorem runAccepted_broken (ht : Turn d.op p s) (hc : chainOf d p s = .broken) :
    runAccepted d go p s = serveBroken d p s := by
  unfold runAccepted; dsimp only
  rw [if_neg (Bool.eq_false_iff.mp (congrArg Bool.not ht)), show chainState _ _ _ _ = Chain.broken from hc]

theorem chainOf_unchained (hch : p.chained = false) : chainOf d p s = .go := by
  simp [chainOf, chainState, hch]

end

/-- A new request that is not chained and has its turn is served as it is accepted. -/
theorem requestBy_served {d : OpDesc} {go : State → State} {p : Packet} {s : State} (hf : Fresh p s)
    (hch : p.chained = false) (ht : Turn d.op p (accepted d p s)) : requestBy d go p s = go (accepted d p s) := by
  rw [requestBy, requestMade_fresh hf]
  exact runAccepted_go ht (chainOf_unchained hch)

section
variable {d : OpDesc} {accept : Packet → State → BitVec 16} {run : Packet → State → Reply} {p : Packet} {s : State}

theorem serve_clean (hcl : Clean d p s) (hacc : accept p s = Status.ok) : serve d accept run p s = replyTo d p (run p s) := by
  simp only [serve, headerStatus_ok_of_clean hcl, hacc, ne_eq, not_true_eq_false, if_false]

/-- The first check of the header that fails gives the status. -/
theorem serve_headerError (h : headerStatus d p s ≠ Status.ok) :
    serve d accept run p s = replyTo d p (refusePacket d.op (headerStatus d p s) p s) := if_pos h

/-- Then the opcode's own checks give it. -/
theorem serve_ownError (hh : headerStatus d p s = Status.ok) (h : accept p s ≠ Status.ok) :
    serve d accept run p s = replyTo d p (answer (accept p s) s) := by
  rw [serve, hh]
  exact if_pos h

end

/-- Settles O9: the packet's turn and its clean header let its row run on the state that accepted it. -/
theorem cleanRequestExecutes : Obligations.CleanRequestExecutes := by
  intro c r s hr hf hch s' ht hcl hacc
  rw [Runs, exec_request hr, request, requestBy_served hf hch ht, serve_clean hcl hacc]

/-! ### What the transport leaves alone (R71 to R77, R82, R83) -/

/-- t with the transport of s: its sessions with their replies, and the fragments that wait to leave. -/
def withTransportOf (s t : State) : State := { t with ocp := s.ocp, link := { t.link with outbox := s.link.outbox } }

theorem withTransportOf_ocp (o : Ocp) (s t : State) : withTransportOf s { t with ocp := o } = withTransportOf s t := rfl

section
variable (s t : State) (i : Fin 80) (ws : List Word) (p : Packet)

@[simp] theorem withTransportOf_modSession (f : Session → Session) :
    withTransportOf s (modSession i f t) = withTransportOf s t := rfl
@[simp] theorem withTransportOf_countSession (c : SessCount) (n : Nat) :
    withTransportOf s (countSession c n i t) = withTransportOf s t := by
  unfold countSession; dsimp only; split <;> rfl
@[simp] theorem withTransportOf_transmit : withTransportOf s (transmit i ws t) = withTransportOf s t := by
  unfold transmit; dsimp only; split <;> rfl
@[simp] theorem withTransportOf_freeCredit : withTransportOf s (freeCredit i t) = withTransportOf s t := rfl
@[simp] theorem withTransportOf_deliver : withTransportOf s (deliver i ws t) = withTransportOf s t := by
  unfold deliver
  split
  · split
    · rw [withTransportOf_ocp, withTransportOf_freeCredit, withTransportOf_transmit]
    · rw [withTransportOf_freeCredit, withTransportOf_transmit]
  · rfl
@[simp] theorem withTransportOf_deliverAll (n : Nat) :
    withTransportOf s ((List.replicate n ws).foldl (fun s ws => deliver i ws s) t) = withTransportOf s t :=
  foldl_frame (withTransportOf s) _ (fun t ws => withTransportOf_deliver s t i ws) _ t
@[simp] theorem withTransportOf_produceReply (seq crc : Word) :
    withTransportOf s (produceReply i seq crc ws t) = withTransportOf s t := by
  unfold produceReply; dsimp only
  split
  · rfl
  · split <;> simp
@[simp] theorem withTransportOf_acceptPacket (op : BitVec 16) (crc : Word) (made : Option (BitVec 16 × Packet)) :
    withTransportOf s (acceptPacket op p crc made t) = withTransportOf s t := rfl
@[simp] theorem withTransportOf_joinTxn (st : BitVec 16) (cmd : StagedCmd) :
    withTransportOf s (joinTxn i st cmd t) = withTransportOf s t := rfl
@[simp] theorem withTransportOf_refusePacket (op st : BitVec 16) :
    withTransportOf s (refusePacket op st p t).s = withTransportOf s t := by
  unfold refusePacket
  split
  · split <;> rfl
  · rfl
@[simp] theorem withTransportOf_replyTo (d : OpDesc) (r : Reply) :
    withTransportOf s (replyTo d p r) = withTransportOf s r.s := withTransportOf_produceReply ..
@[simp] theorem withTransportOf_copyReply : withTransportOf s (copyReply i ws t) = withTransportOf s t := by
  simp [copyReply]
@[simp] theorem withTransportOf_waitCopy (seq crc : Word) :
    withTransportOf s (waitCopy i seq crc t) = withTransportOf s t := by
  simp [waitCopy]
@[simp] theorem withTransportOf_answerReused (op : BitVec 16) :
    withTransportOf s (answerReused op p t) = withTransportOf s t := by
  simp [answerReused]

end

/-- Settles O10: a check that fails has its reply in place of the run, and a reply touches the transport alone. -/
theorem refusedRequestHasNoEffect : Obligations.RefusedRequestHasNoEffect := by
  intro c r s hr hf hch s' ht st hst
  have hrun : Runs c s (serve r.d r.accept r.run r.p s') := by
    rw [Runs, exec_request hr, request, requestBy_served hf hch ht]
  refine ⟨fun hhead => ⟨_, ?_, rfl, ?_⟩, fun hhead hacc => ⟨_, ?_, rfl, ?_⟩⟩
  · rw [serve_headerError (hhead ▸ hst), hhead] at hrun; exact hrun
  · exact (withTransportOf_replyTo ..).trans (withTransportOf_refusePacket ..)
  · rw [serve_ownError hhead (hacc ▸ hst), hacc] at hrun; exact hrun
  · exact withTransportOf_replyTo ..

/-! ### Chained packets (R78) -/

section
variable {l : List HistEntry} {orphan : Bool} {seq : Word} {q : HistEntry} {ws : List Word}

/-- The statuses of a predecessor that let its follower go. -/
abbrev LetsGo (ws : List Word) : Prop := replyStatus ws = Status.ok ∨ replyStatus ws = Status.acceptedStaged
  ∨ replyStatus ws = Status.acceptedPending

theorem chainState_wait (h : predecessor l orphan seq = some q) (hq : q.reply = none) :
    chainState l orphan true seq = .wait := by
  simp [chainState, h, hq]
theorem chainState_replied (h : predecessor l orphan seq = some q) (hq : q.reply = some ws) :
    chainState l orphan true seq = if LetsGo ws then .go else .broken := by
  simp only [chainState, h, hq, Bool.not_true, Bool.false_eq_true, if_false, Bool.or_eq_true, decide_eq_true_eq, or_assoc]

end

/-- The entry that a packet has in the history once it is accepted. -/
def newEntry (op : BitVec 16) (p : Packet) (made : Option (BitVec 16 × Packet)) (s : State) : HistEntry :=
  { seq := p.seq, crc := packetCrc op p, op := op, acceptedAt := s.dt, chained := p.chained, prio := p.priority
    cls := packetClass op p, p := some p, made := made }

theorem acceptPacket_hist (op : BitVec 16) (p : Packet) (made : Option (BitVec 16 × Packet)) (s : State) :
    (acceptPacket op p (packetCrc op p) made s).ocp.sessions[p.session].hist
      = keepHist (newEntry op p made s :: s.ocp.sessions[p.session].hist) := by
  simp only [acceptPacket, modSession_ocp, upd_self, newEntry]

/-- Where nothing of this packet waited before, the entry that awaits its reply is its own. -/
theorem entryOf_newEntry {op : BitVec 16} {p : Packet} (made : Option (BitVec 16 × Packet)) {s : State}
    (h : ∀ x ∈ s.ocp.sessions[p.session].hist, awaits p.seq (packetCrc op p) x = false) :
    entryOf op p (acceptPacket op p (packetCrc op p) made s) = some (newEntry op p made s) := by
  have hold : s.ocp.sessions[p.session].hist.filter (awaits p.seq (packetCrc op p)) = [] :=
    List.filter_eq_nil_iff.mpr fun x hx => Bool.eq_false_iff.mp (h x hx)
  rw [entryOf, acceptPacket_hist, filter_awaits_keepHist, List.filter_cons_of_pos (by simp [awaits, newEntry]), hold]
  rfl

/-- A packet of a new sequence number has nothing that awaits its reply. -/
theorem not_awaits_of_fresh {p : Packet} {s : State}
    (h : (s.ocp.sessions[p.session].hist.all fun h => h.seq ≠ p.seq) = true) (crc : Word) :
    ∀ x ∈ s.ocp.sessions[p.session].hist, awaits p.seq crc x = false := by
  intro x hx
  have hne : x.seq ≠ p.seq := by simpa using List.all_eq_true.mp h x hx
  simp [awaits, hne]

/-- A chained packet just accepted belongs to no ended session: its session's packets are its predecessors. -/
theorem chainOf_accepted {d : OpDesc} {p : Packet} {s : State} (hf : Fresh p s) (hch : p.chained = true) :
    chainOf d p (accepted d p s) = chainState (accepted d p s).ocp.sessions[p.session].hist false true p.seq := by
  rw [chainOf, entryOf_newEntry none (not_awaits_of_fresh hf.2.1 _), hch]
  rfl

/-- Settles O14: the predecessor's reply decides between waiting, the run and CHAIN_BROKEN. -/
theorem chainedPacketFollowsItsPredecessor : Obligations.ChainedPacketFollowsItsPredecessor := by
  intro c r s q hr hf hch s' hq good
  have hrun : Runs c s (runAccepted r.d (serve r.d r.accept r.run r.p) r.p s') := by
    rw [Runs, exec_request hr, request, requestBy, requestMade_fresh hf]
  have hchain := chainOf_accepted (d := r.d) hf hch
  refine ⟨fun hnone => ?_, fun ws hws ht hbad => ?_, fun ws hws ht hgood hcl hacc => ?_⟩
  · rw [runAccepted_wait (hchain.trans (chainState_wait hq hnone))] at hrun
    exact hrun
  · have hbroken := hchain.trans ((chainState_replied hq hws).trans (if_neg hbad))
    rw [runAccepted_broken ht hbroken] at hrun
    exact hrun
  · have hgo := hchain.trans ((chainState_replied hq hws).trans (if_pos hgood))
    rw [runAccepted_go ht hgo, serve_clean hcl hacc] at hrun
    exact hrun

end Sys2Proof.Machine
end

section
/-! PROOF. Replies and the history: one reply leaves for each packet, a repeated packet has a copy of it, a reused number its
refusal, and a packet beyond the credits none (R71, R77, R82, R83). -/

namespace Sys2Proof.Machine

/-! ### What a reply, a count and a discard change (R71, R77, R83, R101) -/

section
variable (s : State) (i : Fin 80) (ws : List Word)

@[simp] theorem transmit_sent : (transmit i ws s).ocp.sent = (i, ws) :: s.ocp.sent := by
  unfold transmit; dsimp only; split <;> rfl
@[simp] theorem transmit_sessions : (transmit i ws s).ocp.sessions = s.ocp.sessions := by
  unfold transmit; dsimp only; split <;> rfl

/-- A session one of whose credits is given back. -/
def creditFreed (x : Session) : Session :=
  { x with regs := { x.regs with creditsInUse := if x.regs.creditsInUse = 0 then 0 else x.regs.creditsInUse - 1 } }
@[simp] theorem freeCredit_sessions : (freeCredit i s).ocp.sessions = upd s.ocp.sessions i creditFreed := rfl
@[simp] theorem freeCredit_sent : (freeCredit i s).ocp.sent = s.ocp.sent := rfl

/-- A session after the delivery of a reply, taken by its transport at once or not. -/
def delivered (taken : Bool) (ws : List Word) (x : Session) : Session :=
  if taken then creditFreed x else { x with out := x.out ++ [(.reply, ws)] }

theorem deliver_sessions : (deliver i ws s).ocp.sessions =
    upd s.ocp.sessions i (delivered (takesReply s i && s.ocp.sessions[i].out.isEmpty) ws) := by
  unfold deliver
  cases takesReply s i && s.ocp.sessions[i].out.isEmpty with
  | true =>
    rw [if_pos rfl, show delivered true ws = creditFreed from rfl]
    dsimp only; split <;> simp
  | false => rfl
theorem deliver_sent (h : (takesReply s i && s.ocp.sessions[i].out.isEmpty) = true) :
    (deliver i ws s).ocp.sent = (i, ws) :: s.ocp.sent := by
  unfold deliver
  rw [if_pos h]
  dsimp only; split <;> simp

@[simp] theorem delivered_hist (taken : Bool) (x : Session) : (delivered taken ws x).hist = x.hist := by
  unfold delivered; split <;> rfl
@[simp] theorem delivered_dupCount (taken : Bool) (x : Session) : (delivered taken ws x).regs.dupCount = x.regs.dupCount := by
  unfold delivered; split <;> rfl

/-- UDP and tunnel sessions take their replies at once. -/
theorem takesReply_network {i : Fin 80} (hi : 2 ≤ i.val) (s : State) : takesReply s i = true := by
  have h0 : i ≠ 0 := fun e => by simp [e] at hi
  have h1 : i ≠ 1 := fun e => by simp [e] at hi
  simp [takesReply, h0, h1]

theorem countSession_sessions (c : SessCount) (n : Nat) : (countSession c n i s).ocp.sessions =
    upd s.ocp.sessions i (fun x => { x with regs := c.put (satAdd (c.get s.ocp.sessions[i].regs) n) x.regs }) := by
  unfold countSession; dsimp only; split <;> rfl
@[simp] theorem countSession_sent (c : SessCount) (n : Nat) : (countSession c n i s).ocp.sent = s.ocp.sent := by
  unfold countSession; dsimp only; split <;> rfl
/-- A count touches the protocol machine alone. -/
theorem countSession_frame (c : SessCount) (n : Nat) (o : Ocp) : { countSession c n i s with ocp := o } = { s with ocp := o } := by
  unfold countSession; dsimp only; split <;> rfl

/-- A session after a discard that the counter c counts; the event is due or not. -/
theorem discardPacket_session (c : SessCount) : ∃ n t, (discardPacket i c s).ocp.sessions[i] =
    { s.ocp.sessions[i] with
      discards := n, discardAt := t, regs := c.put (satAdd (c.get s.ocp.sessions[i].regs) 1) s.ocp.sessions[i].regs } := by
  unfold discardPacket; dsimp only
  split
  · exact ⟨_, _, by simp only [modSession_ocp, note, record, countSession_sessions, upd_self]; rfl⟩
  · exact ⟨_, _, by simp only [countSession_sessions, modSession_ocp, upd_self]; rfl⟩
theorem discardPacket_sent (c : SessCount) : (discardPacket i c s).ocp.sent = s.ocp.sent := by
  unfold discardPacket; dsimp only; split <;> simp [note, record]
/-- A discard touches the protocol machine and the events. -/
theorem discardPacket_frame (c : SessCount) : { discardPacket i c s with ocp := s.ocp, events := s.events } = s := by
  have hcount (t : State) (h : { t with ocp := s.ocp } = s) : { countSession c 1 i t with ocp := s.ocp } = s :=
    (countSession_frame ..).trans h
  have hs := hcount (modSession i (fun x => { x with discards := x.discards + 1 }) s) rfl
  unfold discardPacket; dsimp only
  split
  · exact congrArg (fun t : State => { t with events := s.events }) hs
  · exact congrArg (fun t : State => { t with events := s.events }) hs

end

/-! ### The reply of the one entry that awaits it (R82, R83) -/

/-- The newest packet of a session is the only one that awaits this reply, no duplicate waits for it, and the session lives. -/
structure SoleAwaiting (i : Fin 80) (seq crc : Word) (h : HistEntry) (rest : List HistEntry) (s : State) : Prop where
  hist : s.ocp.sessions[i].hist = h :: rest
  newest : awaits seq crc h = true
  older : ∀ x ∈ rest, awaits seq crc x = false
  live : h.orphan = false
  noCopies : h.copies = 0

/-- A session's newest packet has its reply. -/
def replied (h : HistEntry) (rest : List HistEntry) (ws : List Word) (x : Session) : Session :=
  { x with hist := { h with reply := some ws, copies := 0 } :: rest }

section
variable {i : Fin 80} {seq crc : Word} {h : HistEntry} {rest : List HistEntry} {s : State}
  (hs : SoleAwaiting i seq crc h rest s) (ws : List Word)
include hs

theorem SoleAwaiting.getLast? : (s.ocp.sessions[i].hist.filter (awaits seq crc)).getLast? = some h := by
  rw [hs.hist, List.filter_cons_of_pos hs.newest,
    List.filter_eq_nil_iff.mpr fun x hx => Bool.eq_false_iff.mp (hs.older x hx)]
  rfl
theorem SoleAwaiting.onOldest (f : HistEntry → HistEntry) :
    Machine.onOldest (awaits seq crc) f s.ocp.sessions[i].hist = f h :: rest := by
  have hr : rest.any (awaits seq crc) = false := List.any_eq_false.mpr fun x hx => Bool.eq_false_iff.mp (hs.older x hx)
  rw [hs.hist, Machine.onOldest, hs.newest, hr]
  rfl

/-- The reply enters the history and is delivered once. -/
theorem SoleAwaiting.produceReply_eq :
    produceReply i seq crc ws s = deliver i ws (modSession i (replied h rest ws) s) := by
  have hses : modSession i (fun x => { x with
      hist := Machine.onOldest (fun e => awaits seq crc e) (fun e => { e with reply := some ws, copies := 0 }) x.hist }) s
      = modSession i (replied h rest ws) s := by
    have := hs.onOldest fun e => { e with reply := some ws, copies := 0 }
    simp only [modSession, upd, replied]
    rw [this]
  unfold produceReply
  dsimp only
  rw [show (List.filter (fun e => awaits seq crc e) _).getLast? = some h from hs.getLast?]
  dsimp only
  rw [hses, hs.live, hs.noCopies]
  rfl

theorem SoleAwaiting.produceReply_hist :
    (produceReply i seq crc ws s).ocp.sessions[i].hist = { h with reply := some ws, copies := 0 } :: rest := by
  rw [hs.produceReply_eq, deliver_sessions, upd_self, delivered_hist, modSession_ocp, upd_self]
  rfl

variable (hi : 2 ≤ i.val) (hout : s.ocp.sessions[i].out = [])
include hi hout

omit hs in
/-- A network session whose replies have all left takes the next at once. -/
theorem replied_taken : (takesReply (modSession i (replied h rest ws) s) i &&
    (modSession i (replied h rest ws) s).ocp.sessions[i].out.isEmpty) = true := by
  rw [takesReply_network hi, modSession_ocp, upd_self, replied, hout]
  rfl
theorem SoleAwaiting.produceReply_sent : (produceReply i seq crc ws s).ocp.sent = (i, ws) :: s.ocp.sent := by
  rw [hs.produceReply_eq, deliver_sent _ _ _ (replied_taken ws hi hout)]
  rfl
theorem SoleAwaiting.produceReply_credits (hne : s.ocp.sessions[i].regs.creditsInUse ≠ 0) :
    (produceReply i seq crc ws s).ocp.sessions[i].regs.creditsInUse = s.ocp.sessions[i].regs.creditsInUse - 1 := by
  rw [hs.produceReply_eq, deliver_sessions, replied_taken ws hi hout, upd_self, modSession_ocp, upd_self]
  exact if_neg hne

end

/-- Settles O11: the packet's entry is the only one that awaits the reply, and its session's transport takes it. -/
theorem oneReplyPerPacket : Obligations.OneReplyPerPacket := by
  intro d p r h rest hh hseq hcrc hnone horphan hcopies hrest hi hout t0 ws t
  have hs : SoleAwaiting p.session p.seq (packetCrc d.op p) h rest r.s :=
    ⟨hh, by simp [awaits, hseq, hcrc, hnone], hrest, horphan, hcopies⟩
  have hat : acceptedAt d.op p r.s = h.acceptedAt := by
    rw [acceptedAt, entryOf, hs.getLast?]; rfl
  have ht : t = produceReply p.session p.seq (packetCrc d.op p) ws r.s := by
    simp only [t, ws, t0, replyTo, replyDt, hat, Bool.or_eq_true, decide_eq_true_eq]
  rw [ht]
  refine ⟨hs.produceReply_sent ws hi hout, ?_, hs.produceReply_credits ws hi hout, withTransportOf_produceReply ..⟩
  rw [hs.produceReply_hist]
  rfl

/-! ### The arrival of a packet (R71, R77, R82) -/

/-- The command is the request of this packet under the row d, staged or not. -/
def IsRequest (c : Instr) (d : OpDesc) (p : Packet) : Prop :=
  (∃ r, requestOf c = some r ∧ r.d = d ∧ r.p = p) ∨ (∃ r, stageOf c = some r ∧ r.o.d = d ∧ r.p = p)

theorem IsRequest.runs {c : Instr} {d : OpDesc} {p : Packet} (h : IsRequest c d p) (s : State) :
    ∃ made go, Runs c s (requestMade d made go p s) := by
  obtain ⟨r, hr, rfl, rfl⟩ | ⟨r, hr, rfl, rfl⟩ := h
  · exact ⟨_, _, exec_request hr s⟩
  · exact ⟨_, _, exec_stage hr s⟩

theorem isRequest_of_op {c : Instr} {op : BitVec 16} {p : Packet}
    (h : (∃ r, requestOf c = some r ∧ r.d.op = op ∧ r.p = p) ∨ (∃ r, stageOf c = some r ∧ r.o.d.op = op ∧ r.p = p)) :
    ∃ d, d.op = op ∧ IsRequest c d p := by
  obtain ⟨r, hr, hop, hp⟩ | ⟨r, hr, hop, hp⟩ := h
  · exact ⟨r.d, hop, .inl ⟨r, hr, rfl, hp⟩⟩
  · exact ⟨r.o.d, hop, .inr ⟨r, hr, rfl, hp⟩⟩

section
variable {d : OpDesc} {made : Option (BitVec 16 × Packet)} {go : State → State} {p : Packet} {s : State}
  (hserved : served s = true)
include hserved

theorem requestMade_duplicate {ws : List Word} (hc : s.ocp.sessions[p.session].regs.creditsInUse.toNat < 32)
    (ha : arrival s.ocp.sessions[p.session] p.seq (packetCrc d.op p) = .duplicate ws) :
    requestMade d made go p s = copyReply p.session ws s := by
  have hfree : creditsTaken p.session s = false := decide_eq_false (Nat.not_le.mpr hc)
  simp [requestMade, hserved, ha, hfree, -Fin.getElem_fin]
theorem requestMade_reused (hc : s.ocp.sessions[p.session].regs.creditsInUse.toNat < 32)
    (ha : arrival s.ocp.sessions[p.session] p.seq (packetCrc d.op p) = .reused) :
    requestMade d made go p s = answerReused d.op p s := by
  have hfree : creditsTaken p.session s = false := decide_eq_false (Nat.not_le.mpr hc)
  simp [requestMade, hserved, ha, hfree, -Fin.getElem_fin]
theorem requestMade_violation (hc : 32 ≤ s.ocp.sessions[p.session].regs.creditsInUse.toNat)
    (ha : arrival s.ocp.sessions[p.session] p.seq (packetCrc d.op p) = .fresh) :
    requestMade d made go p s = creditViolation p.session s := by
  have htaken : creditsTaken p.session s = true := decide_eq_true hc
  simp [requestMade, hserved, ha, htaken, -Fin.getElem_fin]

end

section
variable {ses : Session} {seq crc : Word} (hnone : ∀ x ∈ ses.hist, awaits seq crc x = false)
include hnone

theorem none_waiting : (ses.hist.any fun h => awaits seq crc h && !h.begun) = false :=
  List.any_eq_false.mpr fun x hx => by simp [hnone x hx]
theorem none_running : (ses.hist.filter fun h => !h.orphan).any (awaits seq crc) = false :=
  List.any_eq_false.mpr fun x hx => Bool.eq_false_iff.mp (hnone x (List.mem_filter.mp hx).1)

/-- The packet was answered before. -/
theorem arrival_duplicate {h : HistEntry} {ws : List Word}
    (hf : ((ses.hist.filter fun h => !h.orphan).find? fun h => h.seq = seq && h.crc = crc) = some h)
    (hr : h.reply = some ws) : arrival ses seq crc = .duplicate ws := by
  unfold arrival
  dsimp only
  rw [none_waiting hnone, none_running hnone, hf, Option.bind_some, hr]
  rfl

/-- Another packet has the sequence number. -/
theorem arrival_reused (hf : ((ses.hist.filter fun h => !h.orphan).find? fun h => h.seq = seq && h.crc = crc) = none)
    (hu : (ses.hist.filter fun h => !h.orphan).any (fun h => h.seq = seq) = true) : arrival ses seq crc = .reused := by
  unfold arrival
  dsimp only
  rw [none_waiting hnone, none_running hnone, hf, hu]
  rfl

end

/-! ### A repeated packet and a reused number (R82) -/

section
variable (s : State) (i : Fin 80) (ws : List Word)

theorem copyReply_session_ne {j : Fin 80} (h : j ≠ i) : (copyReply i ws s).ocp.sessions[j] = s.ocp.sessions[j] := by
  rw [copyReply, deliver_sessions, upd_ne _ _ h, countSession_sessions, upd_ne _ _ h, modSession_ocp, upd_ne _ _ h]
theorem copyReply_dupCount :
    (copyReply i ws s).ocp.sessions[i].regs.dupCount = satAdd s.ocp.sessions[i].regs.dupCount 1 := by
  rw [copyReply, deliver_sessions, upd_self, delivered_dupCount, countSession_sessions, upd_self, modSession_ocp, upd_self]
  rfl

end

/-- The history keeps a packet just accepted as its newest, before packets that it held. -/
theorem keepHist_newest {h : HistEntry} (hr : h.reply = none) (l : List HistEntry) :
    ∃ rest, keepHist (h :: l) = h :: rest ∧ ∀ x ∈ rest, x ∈ l := by
  unfold keepHist
  dsimp only
  rw [List.filter_cons_of_pos (by simp [hr])]
  exact ⟨_, rfl, fun x hx => (List.mem_filter.mp hx).1⟩

/-- A packet accepted with nothing of it waiting alone awaits its reply. -/
theorem soleAwaiting_accepted {op : BitVec 16} {p : Packet} {s : State}
    (h : ∀ x ∈ s.ocp.sessions[p.session].hist, awaits p.seq (packetCrc op p) x = false) :
    ∃ rest, SoleAwaiting p.session p.seq (packetCrc op p) (newEntry op p none s) rest
      (acceptPacket op p (packetCrc op p) none s) := by
  obtain ⟨rest, hk, hold⟩ := keepHist_newest (h := newEntry op p none s) rfl s.ocp.sessions[p.session].hist
  exact ⟨rest, (acceptPacket_hist ..).trans hk, by simp [awaits, newEntry], fun x hx => h x (hold x hx), rfl, rfl⟩

/-- Settles O12: the history tells a repeated packet, which has a copy, from another of its number, which is accepted and
refused at once. -/
theorem sequenceNumbersAreServedOnce : Obligations.SequenceNumbersAreServedOnce := by
  refine ⟨fun c s op p h ws hreq hserved hnone hfind hr hc => ?repeated, fun c s d p hreq hserved hall hused hc => ?reused⟩
  case repeated =>
    obtain ⟨d, rfl, hd⟩ := isRequest_of_op hreq
    obtain ⟨made, go, hrun⟩ := hd.runs s
    rw [requestMade_duplicate hserved hc (arrival_duplicate hnone hfind hr)] at hrun
    exact ⟨hrun, fun i hi => copyReply_session_ne s p.session ws hi, copyReply_dupCount s p.session ws,
      withTransportOf_copyReply ..⟩
  case reused =>
    have hother (x : HistEntry) (hx : x ∈ s.ocp.sessions[p.session].hist) :
        (decide (x.seq = p.seq) && decide (x.crc = packetCrc d.op p)) = false :=
      (Bool.not_eq_true' _).mp (List.all_eq_true.mp hall x hx)
    have hnone : ∀ x ∈ s.ocp.sessions[p.session].hist, awaits p.seq (packetCrc d.op p) x = false :=
      fun x hx => by rw [awaits, hother x hx, Bool.false_and]
    have harrival : arrival s.ocp.sessions[p.session] p.seq (packetCrc d.op p) = .reused := by
      refine arrival_reused hnone (List.find?_eq_none.mpr fun x hx => ?_) ?_
      · exact Bool.eq_false_iff.mp (hother x (List.mem_filter.mp hx).1)
      · simpa [List.any_filter, and_comm] using hused
    obtain ⟨made, go, hrun⟩ := IsRequest.runs (c := c) (d := d) (p := p) hreq s
    rw [requestMade_reused hserved hc harrival] at hrun
    obtain ⟨rest, hs⟩ := soleAwaiting_accepted hnone
    refine ⟨_, hrun, withTransportOf_answerReused .., ?_, fun hi hout => ?_⟩
    · rw [answerReused, hs.produceReply_hist]
      rfl
    · rw [answerReused, hs.produceReply_sent _ hi (by simpa only [acceptPacket, modSession_ocp, upd_self] using hout)]
      rfl

/-! ### The credits (R71) -/

/-- Settles O13: the packet is new, and a discard counts it and may raise an event. -/
theorem creditViolationIsDiscarded : Obligations.CreditViolationIsDiscarded := by
  intro c s op p hreq hserved hnew hc
  obtain ⟨d, rfl, hd⟩ := isRequest_of_op hreq
  obtain ⟨made, go, hrun⟩ := hd.runs s
  rw [requestMade_violation hserved hc (arrival_fresh hnew _)] at hrun
  obtain ⟨n, at_, hses⟩ := discardPacket_session s p.session .creditViol
  refine ⟨_, hrun, discardPacket_sent .., ?_, ?_, discardPacket_frame ..⟩
  · rw [creditViolation, hses]; rfl
  · rw [creditViolation, hses]

end Sys2Proof.Machine
end

section
/-! PROOF. Requests that only read: their path through the session, and their rows' reads (R79, R83, R91). -/

namespace Sys2Proof.Machine

/-! ### What a request can change beside its run (R71 to R83) -/

/-- t with the transport and the events of s. -/
def withEventsOf (s t : State) : State := { withTransportOf s t with events := s.events }

theorem withEventsOf_of_transport {s t u : State} (h : withTransportOf s t = withTransportOf s u) :
    withEventsOf s t = withEventsOf s u := congrArg (fun x : State => { x with events := s.events }) h

theorem withEventsOf_discardPacket (s t : State) (i : Fin 80) (c : SessCount) :
    withEventsOf s (discardPacket i c t) = withEventsOf s t :=
  calc withEventsOf s (discardPacket i c t)
    _ = withEventsOf s { discardPacket i c t with ocp := t.ocp, events := t.events } := rfl
    _ = withEventsOf s t := congrArg _ (discardPacket_frame t i c)

section
variable {s : State} {d : OpDesc} {accept : Packet → State → BitVec 16} {run : Packet → State → Reply} {p : Packet}

theorem withEventsOf_serve (hr : ∀ t, withEventsOf s (run p t).s = withEventsOf s t) (t : State) :
    withEventsOf s (serve d accept run p t) = withEventsOf s t := by
  unfold serve
  dsimp only
  split
  · exact withEventsOf_of_transport ((withTransportOf_replyTo ..).trans (withTransportOf_refusePacket ..))
  · split
    · exact withEventsOf_of_transport (withTransportOf_replyTo ..)
    · exact (withEventsOf_of_transport (withTransportOf_replyTo ..)).trans (hr t)

theorem withEventsOf_runAccepted {go : State → State} (hg : ∀ t, withEventsOf s (go t) = withEventsOf s t) (t : State) :
    withEventsOf s (runAccepted d go p t) = withEventsOf s t := by
  unfold runAccepted
  dsimp only
  split
  · rfl
  · split
    · exact hg t
    · rfl
    · exact withEventsOf_of_transport ((withTransportOf_replyTo ..).trans (withTransportOf_refusePacket ..))

/-- Whatever becomes of the packet, its session, its reply and the event of a discard are all that changes beside the run. -/
theorem withEventsOf_request (hr : ∀ t, withEventsOf s (run p t).s = withEventsOf s t) (t : State) :
    withEventsOf s (request d accept run p t) = withEventsOf s t := by
  unfold request requestBy requestMade
  dsimp only
  split
  · rfl
  · split
    · exact withEventsOf_runAccepted (withEventsOf_serve hr) t
    · split
      · exact withEventsOf_discardPacket ..
      · split
        · exact withEventsOf_of_transport (withTransportOf_waitCopy ..)
        · exact withEventsOf_of_transport (withTransportOf_copyReply ..)
        · exact withEventsOf_of_transport (withTransportOf_answerReused ..)
        · exact withEventsOf_runAccepted (withEventsOf_serve hr) _

end

/-! ### The reads -/

theorem runAxisStatus_state (p : Packet) (s : State) : (runAxisStatus p s).s = s := by
  unfold runAxisStatus
  dsimp only
  split <;> rfl
theorem runHomeResult_state (p : Packet) (s : State) : (runHomeResult p s).s = s := by
  unfold runHomeResult
  dsimp only
  split <;> rfl

/-- The row of a request that only reads: its run leaves the state. -/
theorem isQuery_request {c : Instr} (h : isQuery c = true) : ∃ r, requestOf c = some r ∧ ∀ p s, (r.run p s).s = s := by
  cases c
  all_goals cases h
  case axisStatus.refl => exact ⟨_, rfl, runAxisStatus_state⟩
  case homeResult.refl => exact ⟨_, rfl, runHomeResult_state⟩
  all_goals exact ⟨_, rfl, fun _ _ => rfl⟩

/-- Settles O18: the run of the row reads, and the rest of a request is the transport's. -/
theorem queriesChangeNothingElse : Obligations.QueriesChangeNothingElse := by
  intro c s t hq ht
  obtain ⟨r, hr, hrun⟩ := isQuery_request hq
  have hframe : withEventsOf s (request r.d r.accept r.run r.p s) = withEventsOf s s :=
    withEventsOf_request (fun u => congrArg _ (hrun r.p u)) s
  rw [next_inj ((exec_request hr s).symm.trans ht)]
  exact hframe

end Sys2Proof.Machine
end

section
/-! PROOF. The host transports: the rings of PCIe and the frames of SPI (R72, R73, R84; log entries 24, 25 and 114). -/

namespace Sys2Proof.Machine

/-! ### PCIe (R72, R84) -/

section
variable {s : State} (hvia : viaPcie s = true)
include hvia

theorem reqDoorbell_runs (hen : s.ocp.ident.ringsEnable = true) (hsize : s.ocp.ident.reqRingSize ≠ 0) (n : BitVec 16)
    (slots : List (List Word)) :
    Runs (.reqDoorbell n slots) s (((List.range (ringMoved s.ocp.ident.reqRingSize.toNat s.ocp.reqProd n)).map
      fun k => slots.getD k []).foldl (fun s ws => receiveWords 0 (slotWords ws) s)
        { s with ocp := { s.ocp with reqProd := n } }) := by
  have hnat : s.ocp.ident.reqRingSize.toNat ≠ 0 := fun h => hsize (BitVec.eq_of_toNat_eq h)
  show execReqDoorbell n slots s = _
  simp [execReqDoorbell, hvia, hen, hnat]
omit hvia in
theorem reqDoorbell_disabled (hen : s.ocp.ident.ringsEnable = false) (n : BitVec 16) (slots : List (List Word)) :
    Runs (.reqDoorbell n slots) s s := by
  show execReqDoorbell n slots s = _
  simp [execReqDoorbell, hen]
theorem rspDoorbell_runs (hsize : s.ocp.ident.rspRingSize ≠ 0) (n : BitVec 16) :
    Runs (.rspDoorbell n) s (drainReplies s.ocp.sessions[(0 : Fin 80)].out.length
      { s with ocp := { s.ocp with
        rspUsed := s.ocp.rspUsed - ringMoved s.ocp.ident.rspRingSize.toNat s.ocp.rspCons n, rspCons := n } }) := by
  have hnat : s.ocp.ident.rspRingSize.toNat ≠ 0 := fun h => hsize (BitVec.eq_of_toNat_eq h)
  show execRspDoorbell n s = _
  rw [execRspDoorbell, if_pos hvia, rspConsumed]
  exact congrArg _ (if_neg hnat)
theorem evtDoorbell_runs (hsize : s.ocp.ident.evtRingSize ≠ 0) (n : BitVec 16) :
    Runs (.evtDoorbell n) s { s with ocp := { s.ocp with
      evtUsed := s.ocp.evtUsed - ringMoved s.ocp.ident.evtRingSize.toNat s.ocp.evtCons n, evtCons := n } } := by
  have hnat : s.ocp.ident.evtRingSize.toNat ≠ 0 := fun h => hsize (BitVec.eq_of_toNat_eq h)
  show execEvtDoorbell n s = _
  rw [execEvtDoorbell, if_pos hvia, evtConsumed]
  exact congrArg _ (if_neg hnat)
theorem pcieFunctionReset_runs : Runs .pcieFunctionReset s (endSession false 0 s) := congrArg _ (if_pos hvia)
theorem pcieLinkDown_runs : Runs .pcieLinkDown s (endSession false 0 s) := congrArg _ (if_pos hvia)

end

/-- The sizes of a ring divide the range of its indices. -/
theorem ringSizeOk_dvd {size : Nat} (h : ringSizeOk size = true) : size ∣ 65536 ∧ 0 < size ∧ size < 65536 := by
  have hmem : size ∈ [32, 64, 128, 256, 512, 1024, 2048, 4096] := List.contains_iff_mem.mp h
  have hall : ∀ n ∈ [32, 64, 128, 256, 512, 1024, 2048, 4096], n ∣ 65536 ∧ 0 < n ∧ n < 65536 := by decide
  exact hall size hmem

/-- The difference of two indices that lie k apart, in a ring whose size divides their range. -/
theorem index_difference {size k : Nat} (hd : size ∣ 65536) (hk : k < 65536) (old : BitVec 16) :
    ((old + BitVec.ofNat 16 k).toNat + 65536 - old.toNat) % size = k % size := by
  obtain ⟨m, hm⟩ := hd
  have hold : old.toNat < 65536 := old.isLt
  have hnew : (old + BitVec.ofNat 16 k).toNat = (old.toNat + k) % 65536 := by
    rw [BitVec.toNat_add, BitVec.toNat_ofNat, Nat.add_mod_mod]
  by_cases hwrap : old.toNat + k < 65536
  · rw [hnew, Nat.mod_eq_of_lt hwrap, show old.toNat + k + 65536 - old.toNat = k + 65536 by omega, hm, Nat.add_mul_mod_self_left]
  · have hone : (old.toNat + k) % 65536 = old.toNat + k - 65536 := by omega
    rw [hnew, hone, show old.toNat + k - 65536 + 65536 - old.toNat = k by omega]

theorem ringMoved_add {size k : Nat} (hs : ringSizeOk size = true) (hk : k ≤ size) (old : BitVec 16) :
    ringMoved size old (old + BitVec.ofNat 16 k) = k := by
  obtain ⟨hd, hpos, hlt⟩ := ringSizeOk_dvd hs
  unfold ringMoved
  dsimp only
  rw [index_difference hd (by omega)]
  rcases Nat.lt_or_eq_of_le hk with hlt' | rfl
  · rw [Nat.mod_eq_of_lt hlt']
    refine if_neg fun h => ?_
    simp only [Bool.and_eq_true, decide_eq_true_eq] at h
    obtain ⟨rfl, hne⟩ := h
    exact hne (BitVec.add_zero old).symm
  · refine if_pos ?_
    have hne : old ≠ old + BitVec.ofNat 16 k := fun h => by
      have := congrArg BitVec.toNat h
      rw [BitVec.toNat_add, BitVec.toNat_ofNat] at this
      omega
    simp [hne]

/-- Settles O31: a doorbell moves its index by the new entries, which a ring of a size that R101 allows counts without loss. -/
theorem pcieEventsServeTheRings : Obligations.PcieEventsServeTheRings :=
  ⟨fun n slots _ hvia => ⟨fun hen hsize => reqDoorbell_runs hvia hen hsize n slots,
      fun hen => reqDoorbell_disabled hen n slots, fun hsize => rspDoorbell_runs hvia hsize n,
      fun hsize => evtDoorbell_runs hvia hsize n, pcieFunctionReset_runs hvia, pcieLinkDown_runs hvia⟩,
    fun _ old _ hs hk => ringMoved_add hs hk old⟩

/-! ### SPI (R73) -/

/-- On the host's sessions and on UDP a reply leaves without passing Uaxabel. -/
theorem transmit_local {i : Fin 80} (hi : i.val < 16) (ws : List Word) (s : State) :
    transmit i ws s = { s with ocp := { s.ocp with sent := (i, ws) :: s.ocp.sent } } := by
  unfold transmit
  rw [if_neg (Nat.not_le.mpr hi)]

/-- The state after a read has taken the oldest of what waits on SPI. -/
def spiTaken (k : OutKind) (ws : List Word) (rest : List (OutKind × List Word)) (s : State) : State :=
  let t := transmit 1 ws (modSession 1 (fun x => { x with out := rest }) s)
  let t := if k = .reply then freeCredit 1 t else t
  { t with ocp := { t.ocp with readData := ws } }

section
variable (k : OutKind) (ws : List Word) (rest : List (OutKind × List Word)) (s : State)

theorem spiTaken_session : (spiTaken k ws rest s).ocp.sessions[(1 : Fin 80)] =
    let x := { s.ocp.sessions[(1 : Fin 80)] with out := rest }
    if k = .reply then creditFreed x else x := by
  unfold spiTaken
  dsimp only
  split
  · simp only [freeCredit_sessions, transmit_sessions, modSession_ocp, upd_self]
  · simp only [transmit_sessions, modSession_ocp, upd_self]
theorem spiTaken_sent : (spiTaken k ws rest s).ocp.sent = (1, ws) :: s.ocp.sent := by
  unfold spiTaken
  dsimp only
  split
  · simp only [freeCredit_sent, transmit_sent, modSession_ocp]
  · simp only [transmit_sent, modSession_ocp]
theorem spiTaken_frame : { spiTaken k ws rest s with ocp := s.ocp } = s := by
  unfold spiTaken
  rw [transmit_local (by decide)]
  dsimp only
  split <;> rfl

end

section
variable {s : State} (hvia : viaSpi s = true)
include hvia

theorem spiPacketWrite_runs (ws : List Word) : Runs (.spiPacketWrite ws) s (receiveWords 1 ws s) := congrArg _ (if_pos hvia)
theorem spiStatusRead_runs : Runs .spiStatusRead s { s with ocp := { s.ocp with readData := [spiStatus s] } } :=
  congrArg _ (if_pos hvia)
theorem spiReplyRead_none (h : s.ocp.sessions[(1 : Fin 80)].out = []) :
    Runs .spiReplyRead s { s with ocp := { s.ocp with readData := [0] } } := by
  show execSpiReplyRead s = _
  rw [execSpiReplyRead, hvia, h]
  rfl
theorem spiReplyRead_some {k : OutKind} {ws : List Word} {rest : List (OutKind × List Word)}
    (h : s.ocp.sessions[(1 : Fin 80)].out = (k, ws) :: rest) : Runs .spiReplyRead s (spiTaken k ws rest s) := by
  show execSpiReplyRead s = _
  rw [execSpiReplyRead, hvia, h]
  rfl

end

section
variable {s : State} (hopen : windowOpen s = true) (hspi : s.power.regs.hostsel = true)
include hopen hspi

theorem spiWindowRead_runs (addr : Word) (n : Nat) : Runs (.spiWindowRead addr n) s { (spiGet n addr s).2.2 with
    ocp := { (spiGet n addr s).2.2.ocp with readData := (spiGet n addr s).1, spiErr := (spiGet n addr s).2.1 } } := by
  show execSpiWindowRead addr n s = _
  rw [execSpiWindowRead, hopen, hspi]
  rfl
theorem spiWindowWrite_runs (addr : Word) (ws : List Word) : Runs (.spiWindowWrite addr ws) s { (spiPut addr ws s).2 with
    ocp := { (spiPut addr ws s).2.ocp with spiErr := (spiPut addr ws s).1 } } := by
  show execSpiWindowWrite addr ws s = _
  rw [execSpiWindowWrite, hopen, hspi]
  rfl

end

/-- Settles O32: each kind of frame has one case of its own; what a reply read takes leaves by session 1. -/
theorem spiFramesReachTheirPlace : Obligations.SpiFramesReachTheirPlace := by
  refine fun addr n ws s => ⟨fun hvia => ⟨spiPacketWrite_runs hvia ws, spiStatusRead_runs hvia, spiReplyRead_none hvia,
    fun k v rest hout => ⟨_, spiReplyRead_some hvia hout, rfl, ?out, spiTaken_sent .., fun hk => ?kept, fun hk hne => ?freed,
      spiTaken_frame ..⟩⟩, fun hopen hspi => ⟨spiWindowRead_runs hopen hspi addr n, spiWindowWrite_runs hopen hspi addr ws⟩⟩
  case out =>
    rw [spiTaken_session]
    dsimp only
    split <;> rfl
  case kept => rw [spiTaken_session, if_neg hk]
  case freed =>
    rw [spiTaken_session, if_pos hk]
    exact if_neg hne

end Sys2Proof.Machine
end

section
/-! PROOF. Sessions: how a datagram finds its session, and what the end of one leaves (R70, R74, R78, R84, R92; log entries 69
and 113). -/

namespace Sys2Proof.Machine

/-! ### The session of a source (R70, R74) -/

/-- The datagrams of a session come by this Ethernet port. -/
def viaEth (eth : Fin 2) (i : Fin 80) (s : State) : State := modSession i (fun y => { y with peerEth := BitVec.ofNat 1 eth.val }) s
/-- A free session opened for a UDP source. -/
def openUdp (addr : Word) (port : BitVec 16) (i : Fin 80) (s : State) : State :=
  modSession i (fun x => { x with
    inUse := true, peerAddr := addr, peerPort := port, lastSeen := s.dt, hist := x.hist.filter (·.orphan), pushSeq := 0 }) s

section
variable {s : State} (hserved : served s = true)
include hserved

section
variable {eth : Fin 2} {addr : Word} (hallowed : sourceAllowed s.ocp.net[eth] addr = true) {port : BitVec 16} {i : Fin 80}
  {old : Bool} (hknown : sessionFor 2 10 (fun x => x.peerAddr = addr && x.peerPort = port) s = some (i, old))
  {bytes : Nat} {ws : List Word}
include hallowed hknown

theorem udpDatagram_whole (hb : bytes = 4 * ws.length) : Runs (.udpDatagramReceive eth addr port bytes ws) s
    (receiveWords i ws (viaEth eth i (if old then s else openUdp addr port i s))) := by
  show execUdpDatagramReceive eth addr port bytes ws s = _
  rw [execUdpDatagramReceive, hserved, hallowed, hknown]
  exact congrArg _ (if_neg (not_not_intro hb))
theorem udpDatagram_cut (hb : bytes ≠ 4 * ws.length) : Runs (.udpDatagramReceive eth addr port bytes ws) s
    (discardPacket i .discard (viaEth eth i (if old then s else openUdp addr port i s))) := by
  show execUdpDatagramReceive eth addr port bytes ws s = _
  rw [execUdpDatagramReceive, hserved, hallowed, hknown]
  exact congrArg _ (if_pos hb)

end

omit hserved in
theorem udpDatagram_foreign {eth : Fin 2} {addr : Word} (hforeign : sourceAllowed s.ocp.net[eth] addr = false)
    (port : BitVec 16) (bytes : Nat) (ws : List Word) : Runs (.udpDatagramReceive eth addr port bytes ws) s s := by
  show execUdpDatagramReceive eth addr port bytes ws s = _
  rw [execUdpDatagramReceive, hforeign]
  exact congrArg _ (if_pos (by simp))
theorem tunnelPacket_known {origin : BitVec 64} {i : Fin 80}
    (h : sessionFor 16 80 (fun x => x.origin = origin) s = some (i, true)) (ws : List Word) :
    Runs (.tunnelPacketReceive origin ws) s (receiveWords i ws s) := by
  show execTunnelPacketReceive origin ws s = _
  rw [execTunnelPacketReceive, hserved, h]
  rfl
theorem tunnelPacket_full {origin : BitVec 64} (h : sessionFor 16 80 (fun x => x.origin = origin) s = none)
    (ws : List Word) : Runs (.tunnelPacketReceive origin ws) s (discardPacket 10 .discard s) := by
  show execTunnelPacketReceive origin ws s = _
  rw [execTunnelPacketReceive, hserved, h]
  rfl

end

theorem sessionIdleTimeout_due {i : Fin 80} {s : State} (hi : 2 ≤ i.val) (huse : s.ocp.sessions[i].inUse = true)
    (hidle : hasPassed s.ocp.sessions[i].lastSeen 10000000000 s = true) :
    Runs (.sessionIdleTimeout i) s (releaseSession i s) := by
  refine congrArg _ (if_pos ?_)
  rw [huse, hidle, decide_eq_true hi]
  rfl

/-- A chained packet whose predecessor has not come in its time ends with CHAIN_BROKEN (R78). -/
theorem chainTimeout_due {i : Fin 80} {seq : Word} {h : HistEntry} {p : Packet} {s : State}
    (hlast : (s.ocp.sessions[i].hist.filter fun q => q.seq = seq && q.chained && q.reply.isNone).getLast? = some h)
    (hp : h.p = some p) (hpred : predecessor s.ocp.sessions[i].hist h.orphan seq = none)
    (hpassed : hasPassed h.acceptedAt 200000 s = true) :
    Runs (.chainTimeout i seq) s (serveBroken (bareDesc h.op) p s) := by
  show execChainTimeout i seq s = _
  rw [execChainTimeout, hlast]
  dsimp only
  rw [hpred, hpassed, hp]
  rfl

/-! ### The end of a session (R84) -/

/-- What a session that ends had accepted and not answered. -/
def owedOf (ses : Session) : List HistEntry := ses.hist.filter fun h => h.reply.isNone && !h.orphan
/-- What of that a reset of the session drops. -/
def droppedOf (drop : Bool) (ses : Session) : List HistEntry :=
  (owedOf ses).filter fun h => drop && h.chained && !h.begun
    && !((predecessor ses.hist false h.seq).any fun q => q.reply.isSome)
/-- What the history of a session keeps as it ends. -/
def keptOf (drop : Bool) (ses : Session) : List HistEntry :=
  ses.hist.filter fun h => h.orphan || ((owedOf ses).contains h && !(droppedOf drop ses).contains h)
    || (h.reply.isSome && (owedOf ses).any fun q => q.chained && h.seq = q.seq - 1 && !(droppedOf drop ses).contains q)

/-- A session that has ended; n is what its count of undelivered replies has come to. -/
def ended (drop : Bool) (n : Word) (ses : Session) : Session :=
  { ses with
    txn := none, sub := none, pushQ := [], out := []
    hist := (keptOf drop ses).map fun h => { h with orphan := true }
    regs := { ses.regs with creditsInUse := 0, replyUndelivered := n } }

section
variable (drop : Bool) (i : Fin 80) (s : State)

theorem endSession_session : ∃ n, (endSession drop i s).ocp.sessions[i] = ended drop n s.ocp.sessions[i] := by
  unfold endSession
  dsimp only
  split
  · exact ⟨_, by simp only [note, record, countSession_sessions, modSession_ocp, upd_self]; rfl⟩
  · exact ⟨_, by simp only [countSession_sessions, modSession_ocp, upd_self]; rfl⟩
theorem endSession_session_ne {j : Fin 80} (h : j ≠ i) : (endSession drop i s).ocp.sessions[j] = s.ocp.sessions[j] := by
  unfold endSession
  dsimp only
  split
  · simp only [note, record, countSession_sessions, modSession_ocp, upd_ne _ _ h]
  · simp only [countSession_sessions, modSession_ocp, upd_ne _ _ h]
/-- The end of a session touches the protocol machine and the events. -/
theorem endSession_frame : { endSession drop i s with ocp := s.ocp, events := s.events } = s := by
  have hcount (n : Nat) (t : State) (h : { t with ocp := s.ocp } = s) :
      { countSession .undelivered n i t with ocp := s.ocp } = s := (countSession_frame ..).trans h
  unfold endSession
  dsimp only
  split
  · exact congrArg (fun t : State => { t with events := s.events }) (hcount _ (modSession i _ s) rfl)
  · exact congrArg (fun t : State => { t with events := s.events }) (hcount _ (modSession i _ s) rfl)

end

/-- A packet that is not chained and has no reply is kept. -/
theorem mem_keptOf {drop : Bool} {ses : Session} {h : HistEntry} (hm : h ∈ ses.hist) (hr : h.reply = none)
    (hch : h.chained = false) : h ∈ keptOf drop ses := by
  refine List.mem_filter.mpr ⟨hm, ?_⟩
  cases ho : h.orphan with
  | true => rfl
  | false =>
    have howed : h ∈ owedOf ses := List.mem_filter.mpr ⟨hm, by simp [hr, ho]⟩
    have hdropped : h ∉ droppedOf drop ses := fun hd => by simpa [hch] using (List.mem_filter.mp hd).2
    simp [howed, hdropped]

/-- Settles O34: a source's session is looked up or opened before its words are taken, and a session's end keeps what it owes
in its own history. -/
theorem sessionsAreFoundAndEnded : Obligations.SessionsAreFoundAndEnded := by
  refine ⟨fun eth addr port bytes ws origin i seq h p s hserved => ⟨fun hallowed =>
      ⟨fun hb hk => udpDatagram_whole hserved hallowed hk hb, fun hb hk => udpDatagram_whole hserved hallowed hk hb,
        fun hb hk => udpDatagram_cut hserved hallowed hk hb⟩,
    fun hforeign => udpDatagram_foreign hforeign port bytes ws, fun hk => tunnelPacket_known hserved hk ws,
    fun hn => tunnelPacket_full hserved hn ws, sessionIdleTimeout_due, chainTimeout_due⟩, fun drop i s => ?ends⟩
  case ends =>
    obtain ⟨n, hses⟩ := endSession_session drop i s
    dsimp only
    rw [hses]
    refine ⟨rfl, rfl, rfl, rfl, rfl, fun h hm => ?_, fun h hm hr hch => ?_, fun j hj => endSession_session_ne drop i s hj,
      endSession_frame drop i s⟩
    · obtain ⟨x, -, rfl⟩ := List.mem_map.mp hm
      rfl
    · exact List.mem_map_of_mem (mem_keptOf hm hr hch)

end Sys2Proof.Machine
end

section
/-! PROOF. The operations whose reply has a time of its own, and how operations and transactions end (R84, R86, R92 to R96, R552,
R570; log entry 45). -/

namespace Sys2Proof.Machine

/-! ### Their start (R84, R92, R552) -/

section
variable {p : Packet} {s : State} (hf : Fresh p s) (hch : p.chained = false)
include hf hch

theorem tunnel_runs (ht : Turn 0x0120 p (accepted dTunnel p s)) (hcl : Clean dTunnel p (accepted dTunnel p s)) :
    Runs (.tunnel p) s (sendTunnel p (accepted dTunnel p s)) := by
  show execTunnel p s = _
  rw [execTunnel, requestBy_served hf hch ht]
  exact congrArg _ (if_pos (headerStatus_ok_of_clean hcl))
theorem sessionReset_runs (ht : Turn 0x0122 p (accepted dSessionReset p s)) :
    Runs (.sessionReset p) s (serveSessionReset p (accepted dSessionReset p s)) := by
  show execSessionReset p s = _
  rw [execSessionReset, requestBy_served hf hch ht]
theorem hibernate_runs (ht : Turn 0x0F04 p (accepted dHibernate p s)) (hcl : Clean dHibernate p (accepted dHibernate p s))
    (hacc : acceptHibernate p (accepted dHibernate p s) = Status.ok) :
    Runs (.hibernate p) s (startSave (modPower (fun x => { x with hibernateP := x.hibernateP ++ [p] })
      (beginPacket 0x0F04 p (accepted dHibernate p s)))) := by
  show execHibernate p s = _
  rw [execHibernate, requestBy_served hf hch ht, serveHibernate]
  simp only [headerStatus_ok_of_clean hcl, hacc, if_true, ne_eq, not_true_eq_false, if_false]

end

/-! ### The end of a TUNNEL (R92) -/

section
variable {i : Fin 80} {seq : Word} {w : TunnelWait} {s : State}

section
variable (hw : (s.ocp.tunnels.find? fun w => w.session = i && w.seq = seq) = some w)
include hw

theorem tunnelInnerReply_waited (ws : List Word) : Runs (.tunnelInnerReply i seq ws) s (endTunnel w Status.ok ws s) := by
  show execTunnelInnerReply i seq ws s = _
  rw [execTunnelInnerReply, hw]
theorem tunnelTimeout_due (h : hasPassed w.since 100000000 s = true) :
    Runs (.tunnelTimeout i seq) s (endTunnel w Status.tunnelUnreachable [] s) := by
  show execTunnelTimeout i seq s = _
  rw [execTunnelTimeout, hw]
  exact congrArg _ (if_pos h)
theorem tunnelTimeout_early (h : hasPassed w.since 100000000 s = false) : Runs (.tunnelTimeout i seq) s s := by
  show execTunnelTimeout i seq s = _
  rw [execTunnelTimeout, hw]
  exact congrArg _ (if_neg (Bool.eq_false_iff.mp h))

end

/-- An inner reply that no TUNNEL waits for is discarded and counted. -/
theorem tunnelInnerReply_late (h : (s.ocp.tunnels.all fun w => !(w.session = i && w.seq = seq)) = true) (ws : List Word) :
    Runs (.tunnelInnerReply i seq ws) s (note Ev.replyUndelivered srcMgmt 1 (natWord i.val) 0
      (countSession .undelivered 1 i s)) := by
  have hnone : (s.ocp.tunnels.find? fun w => w.session = i && w.seq = seq) = none :=
    List.find?_eq_none.mpr fun x hx => Bool.eq_false_iff.mp ((Bool.not_eq_true' _).mp (List.all_eq_true.mp h x hx))
  show execTunnelInnerReply i seq ws s = _
  rw [execTunnelInnerReply, hnone]

end

/-! ### Activations and configurations (R91, R93, R570) -/

/-- Ended operations leave the queue of operations and nothing else of the protocol machine. -/
theorem endOps_ocp (sel : PendingOp → Bool) (st : BitVec 16) (s : State) :
    (endOps sel st s).ocp = { s.ocp with ops := s.ocp.ops.filter fun o => !sel o } := by
  unfold endOps
  refine (foldl_frame State.ocp _ (fun _ _ => ?_) _ _).trans rfl
  rfl

section
variable {o : PendingOp} {s : State} (ho : (s.ocp.ops.find? fun o => o.op = 0x0115) = some o)
include ho

theorem firmwareActivate_good (hcrc : ((s.ocp.firmware[Fin.ofNat 2 o.target.toNat]).all fun l => loadCrcOk l) = true) :
    ∃ t, Runs (.firmwareActivateComplete true) s t ∧ t.ocp.activeBank = some (decide (o.target.toNat % 2 = 1)) := by
  refine ⟨endOps (fun x => x = o) Status.ok
    { s with ocp := { s.ocp with activeBank := some (decide (o.target.toNat % 2 = 1)) } }, ?_, by rw [endOps_ocp]⟩
  show execFirmwareActivateComplete true s = _
  rw [execFirmwareActivateComplete, ho]
  exact congrArg _ (if_pos (by simpa using hcrc))
theorem firmwareActivate_unsigned :
    ∃ t, Runs (.firmwareActivateComplete false) s t ∧ t.ocp.activeBank = s.ocp.activeBank := by
  refine ⟨endOps (fun x => x = o) Status.imageInvalid s, ?_, by rw [endOps_ocp]⟩
  show execFirmwareActivateComplete false s = _
  rw [execFirmwareActivateComplete, ho]
  exact congrArg _ (if_neg (by simp))

end

section
variable {img : Option ConfigImage} {s : State} (hop : (s.ocp.ops.any fun o => o.op = 0x0112) = true)
include hop

theorem configCommit_applied {c : Word} {j : ConfigImage} (hc : commitImage img s = some (c, j)) (hj : strayLoop j = none) :
    Runs (.configCommitComplete img) s (endOps (fun o => o.op = 0x0112) Status.ok (applyImage c j s)) := by
  show execConfigCommitComplete img s = _
  rw [execConfigCommitComplete, hop, hc]
  dsimp only
  rw [hj]
  rfl
theorem configCommit_stray {c : Word} {j : ConfigImage} {e : Fin 32} {t : Fin 16} (hc : commitImage img s = some (c, j))
    (hj : strayLoop j = some (e, t)) :
    Runs (.configCommitComplete img) s (endOps (fun o => o.op = 0x0112) Status.leImageCluster
      (modEngine e (fun en => { en with regs := { en.regs with imageCheck := BitVec.ofNat 16 t.val } }) s)) := by
  show execConfigCommitComplete img s = _
  rw [execConfigCommitComplete, hop, hc]
  dsimp only
  rw [hj]
  rfl
theorem configCommit_invalid (hc : commitImage img s = none) :
    Runs (.configCommitComplete img) s (endOps (fun o => o.op = 0x0112) Status.imageInvalid s) := by
  show execConfigCommitComplete img s = _
  rw [execConfigCommitComplete, hop, hc]
  rfl

end

/-! ### The transaction of a session (R96) -/

theorem stageTimeout_due {i : Fin 80} {x : Txn} {s : State} (hx : s.ocp.sessions[i].txn = some x)
    (h : hasPassed x.last 1000000000 s = true) :
    Runs (.stageTimeout i) s (note Ev.stageTimeout srcMgmt (natWord i.val) (natWord x.count) 0
      (modSession i (fun x => { x with txn := none }) s)) := by
  show execStageTimeout i s = _
  rw [execStageTimeout, hx]
  exact congrArg _ (if_pos h)

/-- Settles O35: a clean packet in its turn starts its operation, and each end finds what waits for it. -/
theorem operationsWithTheirOwnReplyTimeEnd : Obligations.OperationsWithTheirOwnReplyTimeEnd := by
  refine ⟨fun p s hf hch => ⟨tunnel_runs hf hch, fun ht _ => sessionReset_runs hf hch ht, hibernate_runs hf hch⟩,
    fun i seq ws w o x img sigOk s =>
      ⟨fun hw => ⟨tunnelInnerReply_waited hw ws, tunnelTimeout_due hw, tunnelTimeout_early hw⟩,
        fun hnone => tunnelInnerReply_late hnone ws, fun ho => ⟨?good, ?unsigned⟩,
        fun hop => ⟨fun _ _ => configCommit_applied hop, fun _ _ _ _ => configCommit_stray hop, configCommit_invalid hop⟩,
        stageTimeout_due⟩⟩
  case good =>
    rintro ⟨rfl, hcrc⟩
    exact firmwareActivate_good ho hcrc
  case unsigned =>
    rintro rfl
    exact firmwareActivate_unsigned ho

end Sys2Proof.Machine
end

section
/-! PROOF. Ports: what a port holds after its rules, how it comes up and how the delay of its link is measured (R108, R114 to
R116, R118). -/

namespace Sys2Proof.Machine

/-! ### What a port and its ring keep -/

theorem modPort_port (i : Fin 4) (f : Port → Port) (s : State) : (modPort i f s).link.ports[i] = f s.link.ports[i] :=
  upd_self ..
theorem modPort_port_ne {i q : Fin 4} (f : Port → Port) (s : State) (h : q ≠ i) :
    (modPort i f s).link.ports[q] = s.link.ports[q] := upd_ne _ f h

theorem modPortRegs_regs (i : Fin 4) (f : PortRegs → PortRegs) (s : State) :
    (modPortRegs i f s).link.ports[i].regs = f s.link.ports[i].regs := congrArg Port.regs (modPort_port ..)
theorem modLinkRing_ring (r : Fin 2) (f : Ring → Ring) (s : State) :
    (modLinkRing r f s).link.rings[r] = f s.link.rings[r] := upd_self ..

/-- A record leaves the link as it is. -/
@[simp] theorem note_link (code src : BitVec 16) (p0 p1 p2 : Word) (s : State) :
    (note code src p0 p1 p2 s).link = s.link := rfl

/-- The state with these things sent. -/
def withSent (os : List LinkOut) (s : State) : State := modLink (fun l => { l with sent := os }) s

theorem emitAt_transmits {port : Fin 4} {s : State} (o : LinkOut) (h : transmits s port = true) :
    emitAt port o s = withSent (s.link.sent ++ [o]) s := if_pos h
theorem emitAt_silent {port : Fin 4} {s : State} (o : LinkOut) (h : transmits s port = false) : emitAt port o s = s :=
  if_neg (Bool.eq_false_iff.mp h)

/-- The plan and the medium decide whether a port transmits (R108, R109). -/
theorem transmits_modPortRegs {port : Fin 4} {f : PortRegs → PortRegs} {s : State}
    (h : (f s.link.ports[port].regs).det = s.link.ports[port].regs.det) :
    transmits (modPortRegs port f s) port = transmits s port := by
  show ((ringOf s port).isSome && !(modPort port _ s).link.ports[port].regs.det) = _
  rw [modPort_port, h]
  rfl

/-! ### Signal, lock and capabilities (R108, R114 to R116) -/

/-- A port with the levels and the lock that it now sees. -/
def seePort (port : Fin 4) (det los lock sig : Bool) (s : State) : State :=
  modPort port (fun y => { y with
    locked := lock, signal := sig, lockAt := if lock && !s.link.ports[port].locked then s.dt else y.lockAt
    regs := { y.regs with det := det, los := los } }) s

section
variable {port : Fin 4} {det los lock sig : Bool} {s : State}

theorem portSignalChange_runs : Runs (.portSignalChange port det los lock sig) s
    (let x := s.link.ports[port]
    let u := seePort port det los lock sig s
    if det || !(!los && (x.regs.medium || sig)) || (x.locked && !lock) then portDown port u
    else if x.regs.portState.toNat = 0 then modPortRegs port (fun r => { r with portState := 1 }) u
    else if 2 ≤ x.regs.portState.toNat && !lock then portDown port u
    else u) := by
  show Host.Outcome.next (
    let u := seePort port det los lock sig s
    if det || !signalOk u.link.ports[port] || (s.link.ports[port].locked && !lock) then portDown port u
    else if u.link.ports[port].regs.portState.toNat = 0 then modPortRegs port (fun r => { r with portState := 1 }) u
    else if 2 ≤ u.link.ports[port].regs.portState.toNat && !lock then portDown port u
    else u) = _
  simp only [seePort, modPort_port]
  rfl

theorem portSignalChange_lost (h : det = true ∨ los = true ∨ (s.link.ports[port].regs.medium = false ∧ sig = false)
    ∨ (s.link.ports[port].locked = true ∧ lock = false)) :
    Runs (.portSignalChange port det los lock sig) s (portDown port (seePort port det los lock sig s)) := by
  refine portSignalChange_runs.trans (congrArg _ (if_pos ?_))
  obtain rfl | rfl | ⟨hm, rfl⟩ | ⟨hl, rfl⟩ := h
  · rfl
  · simp
  · rw [hm]; simp
  · rw [hl]; simp

theorem portSignalChange_unlocked (hst : 2 ≤ s.link.ports[port].regs.portState.toNat) (hl : lock = false) :
    Runs (.portSignalChange port det los lock sig) s (portDown port (seePort port det los lock sig s)) := by
  refine portSignalChange_runs.trans (congrArg _ ?_)
  dsimp only
  rw [if_neg (show ¬ s.link.ports[port].regs.portState.toNat = 0 by omega),
    if_pos (show (decide (2 ≤ s.link.ports[port].regs.portState.toNat) && !lock) = true by simp [hl, -Fin.getElem_fin, hst]),
    ite_self]

theorem portSignalChange_appears (hst : s.link.ports[port].regs.portState = 0)
    (hsig : s.link.ports[port].regs.medium = true ∨ sig = true) (hl : s.link.ports[port].locked = false ∨ lock = true) :
    Runs (.portSignalChange port false false lock sig) s
      (modPortRegs port (fun r => { r with portState := 1 }) (seePort port false false lock sig s)) := by
  refine portSignalChange_runs.trans (congrArg _ ?_)
  dsimp only
  rw [if_neg, if_pos (by rw [hst]; rfl)]
  obtain hm | hm := hsig <;> obtain hk | hk := hl <;> simp [-Fin.getElem_fin, hm, hk]

/-- The lock has held: the port is in CAPABILITY. -/
def inCapability (port : Fin 4) (s : State) : State := modPortRegs port (fun r => { r with portState := 2 }) (unsent s)

theorem portSyncLock_held (hst : s.link.ports[port].regs.portState = 1) (hl : s.link.ports[port].locked = true)
    (hp : hasPassed s.link.ports[port].lockAt 100000 s = true) : Runs (.portSyncLock port) s
      (emitAt port (.capability port (capabilityWords port (inCapability port s))) (inCapability port s)) := by
  show execPortSyncLock port s = _
  exact congrArg _ (if_pos (by rw [hst, hl, hp]; rfl))

theorem portSyncLock_early (h : hasPassed s.link.ports[port].lockAt 100000 s = false ∨ s.link.ports[port].locked = false) :
    Runs (.portSyncLock port) s s := by
  show execPortSyncLock port s = _
  refine congrArg _ (if_neg ?_)
  obtain h | h := h <;> rw [h] <;> simp

/-- Capability words leave a port that transmits, and nothing leaves another. -/
theorem portSyncLock_state (hst : s.link.ports[port].regs.portState = 1) (hl : s.link.ports[port].locked = true)
    (hp : hasPassed s.link.ports[port].lockAt 100000 s = true) : ∃ t, Runs (.portSyncLock port) s t
      ∧ t.link.ports[port].regs.portState = 2 ∧ (∀ q : Fin 4, q ≠ port → t.link.ports[q] = s.link.ports[q])
      ∧ (∃ ws, (transmits s port = true → t.link.sent = [.capability port ws])
          ∧ (transmits s port = false → t.link.sent = []))
      ∧ { t with link := s.link } = s := by
  refine ⟨_, portSyncLock_held hst hl hp, ?_⟩
  have hstate : (inCapability port s).link.ports[port].regs.portState = 2 :=
    congrArg PortRegs.portState (modPortRegs_regs ..)
  have hrest (q : Fin 4) (hq : q ≠ port) : (inCapability port s).link.ports[q] = s.link.ports[q] := modPort_port_ne _ _ hq
  have htx : transmits (inCapability port s) port = transmits s port := transmits_modPortRegs rfl
  cases h : transmits s port with
  | true =>
    rw [emitAt_transmits _ (htx.trans h)]
    exact ⟨hstate, hrest, ⟨_, fun _ => rfl, nofun⟩, rfl⟩
  | false =>
    rw [emitAt_silent _ (htx.trans h)]
    exact ⟨hstate, hrest, ⟨[], nofun, fun _ => rfl⟩, rfl⟩

section
variable {w0 w1 w2 w3 w4 w5 : Word}

/-- The neighbour's capabilities are on record. -/
def meetNeighbour (port : Fin 4) (w0 w1 w2 w3 w4 w5 : Word) (s : State) : State :=
  modPortRegs port (fun r => { r with nbrId := w5 ++ w4, nbrCap := #v[w0, w1, w2, w3] }) s

theorem capabilityReceive_fits (hst : s.link.ports[port].regs.portState = 2) (h0 : w0.extractLsb' 0 4 = 1)
    (h1 : w1.extractLsb' 16 16 = s.ocp.ident.fwLevel.extractLsb' 16 16) :
    Runs (.capabilityReceive port w0 w1 w2 w3 w4 w5) s
      (modPort port (fun x => { x with delays := [], regs := { x.regs with portState := 3 } })
        (meetNeighbour port w0 w1 w2 w3 w4 w5 s)) := by
  show execCapabilityReceive port w0 w1 w2 w3 w4 w5 s = _
  refine congrArg _ ((if_neg (fun h => h hst)).trans (if_neg ?_))
  show ¬ (decide (w0.extractLsb' 0 4 ≠ 1) || decide (w1.extractLsb' 16 16 ≠ s.ocp.ident.fwLevel.extractLsb' 16 16)) = true
  rw [h0, h1]; simp

theorem capabilityReceive_mismatch (hst : s.link.ports[port].regs.portState = 2) (hnew : s.link.ports[port].capMismatch = false)
    (h : w0.extractLsb' 0 4 ≠ 1 ∨ w1.extractLsb' 16 16 ≠ s.ocp.ident.fwLevel.extractLsb' 16 16) :
    Runs (.capabilityReceive port w0 w1 w2 w3 w4 w5) s (note Ev.capMismatch (srcPort port) 0 0 0
      (modPort port (fun x => { x with capMismatch := true }) (meetNeighbour port w0 w1 w2 w3 w4 w5 s))) := by
  show execCapabilityReceive port w0 w1 w2 w3 w4 w5 s = _
  refine congrArg _ ((if_neg (fun h => h hst)).trans ((if_pos ?_).trans (if_neg (Bool.eq_false_iff.mp hnew))))
  exact (Bool.or_eq_true _ _).mpr (h.imp decide_eq_true decide_eq_true)

theorem capabilityReceive_elsewhere (hst : s.link.ports[port].regs.portState ≠ 2) :
    Runs (.capabilityReceive port w0 w1 w2 w3 w4 w5) s s := by
  show execCapabilityReceive port w0 w1 w2 w3 w4 w5 s = _
  exact congrArg _ (if_pos hst)

end

/-! ### The delay of a link (R118) -/

theorem delayRequest_runs (hst : 3 ≤ s.link.ports[port].regs.portState.toNat) (htx : transmits s port = true) :
    Runs (.delayRequest port) s (modPort port (fun x => { x with delayReq := true }) s) := by
  show execDelayRequest port s = _
  exact congrArg _ (if_pos ((Bool.and_eq_true _ _).mpr ⟨decide_eq_true hst, htx⟩))

theorem delayRequest_none (h : s.link.ports[port].regs.portState.toNat < 3 ∨ transmits s port = false) :
    Runs (.delayRequest port) s s := by
  show execDelayRequest port s = _
  refine congrArg _ (if_neg ?_)
  obtain h | h := h
  · simp [-Fin.getElem_fin, Nat.not_le.mpr h]
  · simp [h]

theorem delayRequestReceive_runs (hst : 3 ≤ s.link.ports[port].regs.portState.toNat) :
    Runs (.delayRequestReceive port) s (modPort port (fun x => { x with answeredAt := some s.dt }) s) := by
  show execDelayRequestReceive port s = _
  exact congrArg _ (if_pos hst)

end

/-- A rounding of n / d, either way, lies less than 1 from it. -/
theorem freeRound_near (s : State) (n : Int) {d : Int} (hd : 0 < d) :
    n - d < d * freeRound s n d ∧ d * freeRound s n d < n + d := by
  have hdiv := Int.mul_ediv_add_emod n d
  have hlo := Int.emod_nonneg n (Int.ne_of_gt hd)
  have hhi := Int.emod_lt_of_pos n hd
  unfold freeRound
  split
  · omega
  · obtain hr | hr := Int.emod_two_eq (freeNow s : Int)
    · rw [hr, Int.add_zero]; omega
    · rw [hr, Int.mul_add, Int.mul_one]; omega

/-- The one-way delay that a response gives: half of round trip less turnaround, and the asymmetry. -/
def oneWay (s : State) (port : Fin 4) (trip turn : Nat) : Nat :=
  (freeRound s ((trip : Int) - turn) 2 + s.link.ports[port].asym.toInt).toNat

theorem oneWay_near (s : State) (port : Fin 4) (trip turn : Nat) :
    let exact : Int := trip - turn + 2 * s.link.ports[port].asym.toInt
    exact - 1 ≤ 2 * oneWay s port trip turn ∧ 2 * (oneWay s port trip turn : Int) ≤ max 0 (exact + 1) := by
  obtain ⟨hlo, hhi⟩ := freeRound_near s ((trip : Int) - turn) (d := 2) (by decide)
  unfold oneWay
  dsimp only
  omega

/-- The mean of sixteen delays. -/
def meanDelay (s : State) (ds : List Nat) : Nat := (freeRound s (ds.foldl (· + ·) 0 : Nat) 16).toNat

theorem meanDelay_near (s : State) (ds : List Nat) :
    ds.foldl (· + ·) 0 < 16 * meanDelay s ds + 16 ∧ 16 * meanDelay s ds < ds.foldl (· + ·) 0 + 16 := by
  obtain ⟨hlo, hhi⟩ := freeRound_near s (ds.foldl (· + ·) 0 : Nat) (d := 16) (by decide)
  unfold meanDelay
  omega

/-- A delay is on record, its request answered. -/
def takeDelay (port : Fin 4) (trip d : Nat) (s : State) : State :=
  drawn (modPort port (fun x => { x with
    delayReq := false, delays := (d :: x.delays).take 16, regs := { x.regs with roundTrip := natWord trip } }) s)

theorem newLinkDelay_portState (port : Fin 4) (first : Bool) (mean : Nat) (s : State) :
    (newLinkDelay port first mean s).link.ports[port].regs.portState = s.link.ports[port].regs.portState := by
  unfold newLinkDelay; dsimp only
  split
  · simp only [note_link, modPortRegs_regs, drawn_link]
  · simp only [modPortRegs_regs, drawn_link]

section
variable {port : Fin 4} {trip turn : Nat} {s : State}

theorem delayResponseReceive_unasked (h : s.link.ports[port].delayReq = false) :
    Runs (.delayResponseReceive port trip turn) s s := by
  show execDelayResponseReceive port trip turn s = _
  exact congrArg _ (if_pos (by rw [h]; rfl))

theorem delayResponseReceive_runs (h : s.link.ports[port].delayReq = true) : Runs (.delayResponseReceive port trip turn) s
    (let ds := s.link.ports[port].delays
    let l := (oneWay s port trip turn :: ds).take 16
    let t := takeDelay port trip (oneWay s port trip turn) s
    let u := newLinkDelay port (decide (ds.length < 16)) (meanDelay t l) (drawn t)
    if l.length < 16 then t else if s.link.ports[port].regs.portState = 3 then portUp port u else u) := by
  have hport : (takeDelay port trip (oneWay s port trip turn) s).link.ports[port] = { s.link.ports[port] with
      delayReq := false, delays := (oneWay s port trip turn :: s.link.ports[port].delays).take 16
      regs := { s.link.ports[port].regs with roundTrip := natWord trip } } := modPort_port ..
  show Host.Outcome.next (if !s.link.ports[port].delayReq then s else
    let t := takeDelay port trip (oneWay s port trip turn) s
    let l := t.link.ports[port].delays
    let u := newLinkDelay port (decide (s.link.ports[port].delays.length < 16)) (meanDelay t l) (drawn t)
    if l.length < 16 then t else if u.link.ports[port].regs.portState = 3 then portUp port u else u) = _
  simp only [newLinkDelay_portState, drawn_link, hport, h]
  rfl

theorem delayResponseReceive_more (h : s.link.ports[port].delayReq = true) (hn : s.link.ports[port].delays.length < 15) :
    Runs (.delayResponseReceive port trip turn) s (takeDelay port trip (oneWay s port trip turn) s) := by
  refine (delayResponseReceive_runs h).trans (congrArg _ (if_pos ?_))
  rw [List.length_take, List.length_cons]
  omega

/-- The sixteenth delay and every later one give a mean. -/
theorem delayResponseReceive_mean (h : s.link.ports[port].delayReq = true) (hn : 15 ≤ s.link.ports[port].delays.length) :
    Runs (.delayResponseReceive port trip turn) s
      (let ds := s.link.ports[port].delays
      let t := takeDelay port trip (oneWay s port trip turn) s
      let u := newLinkDelay port (decide (ds.length < 16)) (meanDelay t ((oneWay s port trip turn :: ds).take 16)) (drawn t)
      if s.link.ports[port].regs.portState = 3 then portUp port u else u) := by
  refine (delayResponseReceive_runs h).trans (congrArg _ (if_neg ?_))
  rw [List.length_take, List.length_cons]
  omega

end

/-- Settles O36: the levels, the lock and the capabilities decide the port's state, and a rounding lies within 1 of what it
rounds. -/
theorem portComesUpAndMeasuresItsDelay : Obligations.PortComesUpAndMeasuresItsDelay := by
  unfold Obligations.PortComesUpAndMeasuresItsDelay
  dsimp only
  refine ⟨fun port det los lock sig w0 w1 w2 w3 w4 w5 s => ⟨portSignalChange_lost, portSignalChange_unlocked,
      fun hst hsig hl => ⟨_, portSignalChange_appears hst hsig hl, ?appears⟩, portSyncLock_state, portSyncLock_early,
      fun hst h0 h1 => ⟨_, capabilityReceive_fits hst h0 h1, ?fits⟩, capabilityReceive_mismatch, capabilityReceive_elsewhere⟩,
    fun port trip turn s => ⟨fun hst => ⟨delayRequest_runs hst, delayRequestReceive_runs hst⟩, delayRequest_none,
      delayResponseReceive_unasked,
      fun h hn => ⟨_, (oneWay_near ..).1, (oneWay_near ..).2, delayResponseReceive_more h hn⟩,
      fun h hn => ⟨_, _, (oneWay_near ..).1, (oneWay_near ..).2, (meanDelay_near ..).1, (meanDelay_near ..).2,
        fun hst => (delayResponseReceive_mean h hn).trans (congrArg _ (if_neg hst)),
        fun hst => (delayResponseReceive_mean h hn).trans (congrArg _ (if_pos hst))⟩⟩⟩
  case appears =>
    exact ⟨congrArg PortRegs.portState (modPortRegs_regs ..),
      (congrArg Port.locked (modPort_port ..)).trans (congrArg Port.locked (modPort_port ..)),
      fun q hq => (modPort_port_ne _ _ hq).trans (modPort_port_ne _ _ hq), rfl⟩
  case fits =>
    have hmet := modPortRegs_regs port (fun r => { r with nbrId := w5 ++ w4, nbrCap := #v[w0, w1, w2, w3] }) s
    exact ⟨congrArg (fun x : Port => x.regs.portState) (modPort_port ..),
      (congrArg (fun x : Port => x.regs.nbrId) (modPort_port ..)).trans (congrArg PortRegs.nbrId hmet),
      (congrArg (fun x : Port => x.regs.nbrCap) (modPort_port ..)).trans (congrArg PortRegs.nbrCap hmet),
      congrArg Port.delays (modPort_port ..)⟩

end Sys2Proof.Machine
end

section
/-! PROOF. The election of a segment master, the challenges and the acceptance lock (R111, R134 to R136; log entry 153). -/

namespace Sys2Proof.Machine

/-! ### The election (R111) -/

/-- Priority, module ID, master role and quarantine of a candidate. -/
abbrev Candidate := BitVec 8 × BitVec 64 × Bool × Bool

def Candidate.eligible (c : Candidate) : Prop := c.1 ≠ 255 ∧ c.2.2 = (true, false)
theorem Candidate.eligible_iff (c : Candidate) : c.eligible ↔ ¬ (c.1 = 255 || !c.2.2.1 || c.2.2.2) = true := by
  obtain ⟨p, id, may, quar⟩ := c
  simp [Candidate.eligible, and_assoc]
/-- What the election knows of the best. -/
def Candidate.rank (c : Candidate) : BitVec 8 × BitVec 64 := (c.1, c.2.1)

/-- A lower priority number, or the same and no greater module ID. -/
def goesBefore (a b : BitVec 8 × BitVec 64) : Prop := a.1.toNat < b.1.toNat ∨ (a.1 = b.1 ∧ a.2.toNat ≤ b.2.toNat)

theorem goesBefore_refl (a : BitVec 8 × BitVec 64) : goesBefore a a := .inr ⟨rfl, Nat.le_refl _⟩

theorem goesBefore_trans {a b c : BitVec 8 × BitVec 64} (hab : goesBefore a b) (hbc : goesBefore b c) : goesBefore a c := by
  obtain hab | ⟨hab, hab'⟩ := hab
  · obtain hbc | ⟨hbc, -⟩ := hbc
    · exact .inl (Nat.lt_trans hab hbc)
    · exact .inl (hbc ▸ hab)
  · obtain hbc | ⟨hbc, hbc'⟩ := hbc
    · exact .inl (hab ▸ hbc)
    · exact .inr ⟨hab.trans hbc, Nat.le_trans hab' hbc'⟩

/-- The best after one candidate more. -/
def electNext (best : Option (BitVec 8 × BitVec 64)) (c : Candidate) : Option (BitVec 8 × BitVec 64) :=
  if c.1 = 255 || !c.2.2.1 || c.2.2.2 then best
  else best.elim (some c.rank) fun b =>
    if c.1.toNat < b.1.toNat || (c.1 = b.1 && c.2.1.toNat < b.2.toNat) then some c.rank else some b

theorem electBest_eq (l : List Candidate) : electBest l = l.foldl electNext none := by
  unfold electBest
  congr 1
  funext best c
  cases best <;> rfl

theorem electNext_ineligible {c : Candidate} (h : ¬ c.eligible) (best : Option (BitVec 8 × BitVec 64)) :
    electNext best c = best := if_pos (Classical.not_not.mp fun hc => h (c.eligible_iff.mpr hc))

/-- The better of two is one of them and goes before both. -/
theorem electNext_eligible {c : Candidate} (h : c.eligible) (best : Option (BitVec 8 × BitVec 64)) :
    ∃ r, electNext best c = some r ∧ goesBefore r c.rank ∧ (∀ b, best = some b → goesBefore r b)
      ∧ (r = c.rank ∨ best = some r) := by
  have hc : electNext best c = best.elim (some c.rank) fun b =>
      if c.1.toNat < b.1.toNat || (c.1 = b.1 && c.2.1.toNat < b.2.toNat) then some c.rank else some b :=
    if_neg (c.eligible_iff.mp h)
  rw [hc]
  cases best with
  | none => exact ⟨_, rfl, goesBefore_refl _, nofun, .inl rfl⟩
  | some b =>
    simp only [Option.elim_some, Option.some.injEq, forall_eq']
    split
    case isTrue hlt =>
      have hlt : c.1.toNat < b.1.toNat ∨ (c.1 = b.1 ∧ c.2.1.toNat < b.2.toNat) := by simpa using hlt
      exact ⟨_, rfl, goesBefore_refl _, hlt.imp_right fun ⟨hp, hid⟩ => ⟨hp, Nat.le_of_lt hid⟩, .inl rfl⟩
    case isFalse hge =>
      have hge : ¬ (c.1.toNat < b.1.toNat ∨ (c.1 = b.1 ∧ c.2.1.toNat < b.2.toNat)) := by simpa using hge
      refine ⟨b, rfl, ?_, goesBefore_refl b, .inr rfl⟩
      obtain hlt | heq := Nat.lt_or_eq_of_le (Nat.not_lt.mp fun hlt => hge (.inl hlt))
      · exact .inl hlt
      · have hp : c.1 = b.1 := BitVec.eq_of_toNat_eq heq.symm
        exact .inr ⟨hp.symm, Nat.not_lt.mp fun hid => hge (.inr ⟨hp, hid⟩)⟩

/-- The outcome is the best so far or one of the list, and goes before both. -/
theorem foldl_electNext (l : List Candidate) (best : Option (BitVec 8 × BitVec 64)) (r : BitVec 8 × BitVec 64)
    (h : l.foldl electNext best = some r) :
    (best = some r ∨ ((r.1, r.2, true, false) ∈ l ∧ r.1 ≠ 255)) ∧ (∀ b, best = some b → goesBefore r b)
      ∧ ∀ c ∈ l, c.eligible → goesBefore r c.rank := by
  induction l generalizing best with
  | nil =>
    have hr : best = some r := h
    refine ⟨.inl hr, fun b hb => ?_, nofun⟩
    rw [Option.some.inj (hr.symm.trans hb)]
    exact goesBefore_refl b
  | cons c l ih =>
    obtain ⟨hfrom, hle, hall⟩ := ih _ h
    by_cases hc : c.eligible
    · obtain ⟨m, hm, hmc, hmb, hsrc⟩ := electNext_eligible hc best
      have hrm : goesBefore r m := hle m hm
      refine ⟨?_, fun b hb => goesBefore_trans hrm (hmb b hb),
        List.forall_mem_cons.mpr ⟨fun _ => goesBefore_trans hrm hmc, hall⟩⟩
      obtain hr | ⟨hmem, hne⟩ := hfrom
      · obtain rfl : m = r := Option.some.inj (hm.symm.trans hr)
        obtain hself | hbest := hsrc
        · refine .inr ⟨?_, hself ▸ hc.1⟩
          have hself : (m.1, m.2, true, false) = c := by rw [hself, ← hc.2]; rfl
          exact hself ▸ List.mem_cons_self
        · exact .inl hbest
      · exact .inr ⟨List.mem_cons_of_mem c hmem, hne⟩
    · rw [electNext_ineligible hc] at hfrom hle
      exact ⟨hfrom.imp_right (And.imp_left (List.mem_cons_of_mem c)), hle,
        List.forall_mem_cons.mpr ⟨fun h => absurd h hc, hall⟩⟩

theorem electBest_least {l : List Candidate} {p : BitVec 8} {id : BitVec 64} (h : electBest l = some (p, id)) :
    (p, id, true, false) ∈ l ∧ p ≠ 255 ∧ ∀ c ∈ l, c.1 ≠ 255 → c.2.2 = (true, false) →
      p.toNat < c.1.toNat ∨ (p = c.1 ∧ id.toNat ≤ c.2.1.toNat) := by
  obtain ⟨hfrom, -, hall⟩ := foldl_electNext l none (p, id) ((electBest_eq l).symm.trans h)
  obtain hnone | ⟨hmem, hne⟩ := hfrom
  · cases hnone
  · exact ⟨hmem, hne, fun c hc h255 hrole => hall c hc ⟨h255, hrole⟩⟩

/-- This module as a candidate. -/
def ownCandidate (s : State) : Candidate := (s.link.priority, s.ocp.ident.moduleId, s.link.mayMaster, s.ocp.ident.quarantined)

section
variable {cs : List Candidate} {s : State}

section
variable (he : electable s = true)
include he

theorem segmentElection_elected {p : BitVec 8} {id : BitVec 64} (h : electBest (ownCandidate s :: cs) = some (p, id)) :
    Runs (.segmentElection cs) s (setMaster id (unsent s)) := by
  unfold ownCandidate at h
  show execSegmentElection cs s = _
  simp only [execSegmentElection, he, h]
  rfl

theorem segmentElection_noMaster (h : electBest (ownCandidate s :: cs) = none) :
    Runs (.segmentElection cs) s (noMaster 0 s) := by
  unfold ownCandidate at h
  show execSegmentElection cs s = _
  simp only [execSegmentElection, he, h]
  rfl

end

theorem noMaster_master (r : Fin 2) (s : State) : (noMaster r s).link.rings[r].master = false := by
  have hring : (modLinkRing r (fun x => { x with master := false }) s).link.rings[r].master = false :=
    congrArg Ring.master (modLinkRing_ring ..)
  unfold noMaster; dsimp only
  split <;> exact hring

theorem electable_closed
    (h : s.link.started = true ∨ s.link.split = true ∨ s.link.seg.segNum ≠ 0 ∨ s.link.seg.masterId ≠ 0) :
    electable s = false := by
  unfold electable
  obtain h | h | h | h := h
  · rw [h]; rfl
  · rw [h, Bool.not_true, Bool.and_false]; rfl
  · rw [decide_eq_false h, Bool.and_false]; rfl
  · rw [decide_eq_false h, Bool.and_false]; rfl

theorem segmentElection_closed
    (h : s.link.started = true ∨ s.link.split = true ∨ s.link.seg.segNum ≠ 0 ∨ s.link.seg.masterId ≠ 0) :
    Runs (.segmentElection cs) s s := by
  show execSegmentElection cs s = _
  exact congrArg _ (if_pos (by rw [electable_closed h]; rfl))

end

/-! ### Challenges (R134, R135) -/

section
variable {pos : Fin 65} {id : BitVec 64} {nonce : BitVec 256} {key : BitVec 512} {r : Fin 2} {s : State}

theorem nodeChallenge_challenges (h : challengeRing s pos = some r) : Runs (.nodeChallenge pos id nonce) s
    (challengePos r pos (modMap r pos (fun m => { m with running := id }) (unsent s))) := by
  show execNodeChallenge pos id nonce s = _
  rw [execNodeChallenge, h]

theorem nodeChallenge_answers (h : challengeRing s pos = none)
    (hr : ((List.finRange 2).find? fun r => ringN s r ≠ 0 && ringPosOf s r = pos.val) = some r) :
    Runs (.nodeChallenge pos id nonce) s (emit (.answer pos.val (answerWords r nonce s)) (modMap r pos (fun m => { m with
      running := s.ocp.ident.moduleId, challenged := some (nonce, s.dt) }) (unsent s))) := by
  show execNodeChallenge pos id nonce s = _
  rw [execNodeChallenge, h]
  dsimp only
  rw [hr]

/-- The position's answer is on record, with the key that it came under. -/
def tellNode (r : Fin 2) (pos : Fin 65) (id : BitVec 64) (key : BitVec 512) (s : State) : State :=
  modMap r pos (fun m => { m with key := key, running := id }) s
/-- The commissioned map or the acceptance list knows the ID and the key. -/
def nodeKnown (r : Fin 2) (pos : Fin 65) (id : BitVec 64) (key : BitVec 512) (s : State) : Bool :=
  decide (id = s.link.rings[r].map[pos].commissioned) || s.link.acceptList.contains (pos.val, id, key)

section
variable (h : openChallenge s pos = some r)
include h

theorem challengeResponse_open (sigOk : Bool) : Runs (.challengeResponse pos id key sigOk) s
    (if sigOk && nodeKnown r pos id key s then passNode r pos (tellNode r pos id key s)
    else failNode r pos (tellNode r pos id key s)) := by
  show execChallengeResponse pos id key sigOk s = _
  rw [execChallengeResponse, h]
  rfl
theorem challengeResponse_known (hk : nodeKnown r pos id key s = true) :
    Runs (.challengeResponse pos id key true) s (passNode r pos (tellNode r pos id key s)) :=
  (challengeResponse_open h true).trans (congrArg _ (if_pos hk))
theorem challengeResponse_unknown (hk : nodeKnown r pos id key s = false) :
    Runs (.challengeResponse pos id key true) s (failNode r pos (tellNode r pos id key s)) :=
  (challengeResponse_open h true).trans (congrArg _ (if_neg (Bool.eq_false_iff.mp hk)))
theorem challengeResponse_badSignature :
    Runs (.challengeResponse pos id key false) s (failNode r pos (tellNode r pos id key s)) :=
  challengeResponse_open h false

theorem challengeTimeout_due {n : BitVec 256} {t0 : Fix} (hc : s.link.rings[r].map[pos].challenged = some (n, t0))
    (hp : hasPassed t0 100000000 s = true) : Runs (.challengeTimeout pos) s (failNode r pos s) := by
  show execChallengeTimeout pos s = _
  rw [execChallengeTimeout, h]
  dsimp only
  rw [hc, Option.any_some, hp]
  rfl

end

theorem challengeResponse_closed (h : openChallenge s pos = none) (sigOk : Bool) :
    Runs (.challengeResponse pos id key sigOk) s s := by
  show execChallengeResponse pos id key sigOk s = _
  rw [execChallengeResponse, h]
theorem challengeTimeout_closed (h : openChallenge s pos = none) : Runs (.challengeTimeout pos) s s := by
  show execChallengeTimeout pos s = _
  rw [execChallengeTimeout, h]

end

/-! ### The acceptance lock (R136) -/

section
variable {t0 : Fix} {s : State} (h : s.link.lockUntil = some t0)
include h

theorem acceptLockExpiry_due (ht : t0.toNat ≤ s.dt.toNat) :
    Runs .acceptLockExpiry s (modLink (fun l => { l with lockUntil := none, wrongCodes := 0 }) s) := by
  show execAcceptLockExpiry s = _
  exact congrArg _ (if_pos (by rw [h]; exact decide_eq_true ht))
theorem acceptLockExpiry_early (ht : s.dt.toNat < t0.toNat) : Runs .acceptLockExpiry s s := by
  show execAcceptLockExpiry s = _
  refine congrArg _ (if_neg ?_)
  rw [h]
  exact Bool.eq_false_iff.mp (decide_eq_false (Nat.not_le.mpr ht))

end

/-- Settles O37: by induction on the candidates, and by the challenge that is open for a position. -/
theorem segmentElectsAndChallenges : Obligations.SegmentElectsAndChallenges := by
  intro cs p id pos nonce key r s all known told
  exact ⟨electBest_least,
    fun he => ⟨segmentElection_elected he,
      fun hb => ⟨_, segmentElection_noMaster he hb, rfl, noMaster_master 0 s, rfl, rfl⟩⟩,
    segmentElection_closed, fun h => ⟨_, nodeChallenge_challenges h⟩, nodeChallenge_answers,
    fun h => ⟨challengeResponse_known h, challengeResponse_unknown h, challengeResponse_badSignature h,
      fun _ _ => challengeTimeout_due h⟩,
    fun h ok => ⟨challengeResponse_closed h ok, challengeTimeout_closed h⟩,
    fun _ h ht => ⟨_, acceptLockExpiry_due h ht, rfl, rfl, rfl⟩, fun _ => acceptLockExpiry_early⟩

end Sys2Proof.Machine
end

section
/-! PROOF. Fragments, link credits and audits (R137 to R140; log entry 122). -/

namespace Sys2Proof.Machine

/-! ### A receive buffer that is freed (R138) -/

/-- What is sent at a port comes behind what has been sent. -/
theorem emitAt_withSent (port : Fin 4) (o : LinkOut) (s : State) : ∃ os, emitAt port o s = withSent (s.link.sent ++ os) s := by
  cases h : transmits s port with
  | true => exact ⟨_, emitAt_transmits o h⟩
  | false => exact ⟨[], by rw [emitAt_silent o h, List.append_nil]; rfl⟩

/-- The port with one receive buffer free again. -/
def Port.freed (x : Port) : Port :=
  { x with returned := x.returned + 1, regs := { x.regs with rxBusy := if x.regs.rxBusy = 0 then 0 else x.regs.rxBusy - 1 } }

theorem freeBuffer_eq (q : Fin 4) (s : State) :
    ∃ os, freeBuffer q s = withSent (s.link.sent ++ os) (modPort q Port.freed s) :=
  emitAt_withSent q _ _

/-- A freed buffer leaves every field of a port but its count of returns and its busy buffers. -/
theorem freeBuffer_port {β : Type} (get : Port → β) (h : ∀ x : Port, get x.freed = get x) (q port : Fin 4) (s : State) :
    get (freeBuffer q s).link.ports[port] = get s.link.ports[port] := by
  obtain ⟨os, hos⟩ := freeBuffer_eq q s
  rw [hos]
  show get (modPort q Port.freed s).link.ports[port] = _
  obtain rfl | hne := Decidable.em (port = q)
  · rw [modPort_port, h]
  · rw [modPort_port_ne _ _ hne]

/-! ### The departure of a fragment (R137, R138) -/

section
variable {port : Fin 4} {f : Fragment} {s : State}

/-- The fragment has left the port and spent a credit. -/
def fragmentGone (port : Fin 4) (f : Fragment) (s : State) : State :=
  emit (.fragment port (f.words ++ [crcWords f.words])) (modPort port (fun x => { x with
    sentFrags := x.sentFrags + 1, regs := { x.regs with txCredits := x.regs.txCredits - 1 } })
    (modLink (fun l => { l with outbox := (dropFrag f s.link.outbox).2 }) (unsent s)))

theorem fragmentGone_port (port : Fin 4) (f : Fragment) (s : State) : (fragmentGone port f s).link.ports[port] =
    { s.link.ports[port] with
      sentFrags := s.link.ports[port].sentFrags + 1
      regs := { s.link.ports[port].regs with txCredits := s.link.ports[port].regs.txCredits - 1 } } := modPort_port ..

section
variable (hst : 4 ≤ s.link.ports[port].regs.portState.toNat) (hc : s.link.ports[port].regs.txCredits ≠ 0)
  (hlen : f.words.length ≤ 127) (hgap : gapFits s port (f.words.length + 1) = true) (hroute : onRoute s port f.dest = true)
include hst hc hlen hgap hroute

theorem fragmentSend_runs : Runs (.fragmentSend port f) s
    ((dropFrag f s.link.outbox).1.elim (fragmentGone port f s) fun q => freeBuffer q (fragmentGone port f s)) := by
  show execFragmentSend port f s = _
  refine congrArg _ ((if_pos ?_).trans ?_)
  · simpa [-Fin.getElem_fin, hst, hlen, hgap, hroute, fragmentWords] using hc
  · unfold fragmentGone
    obtain ⟨from_, rest⟩ := dropFrag f s.link.outbox
    cases from_ <;> rfl

theorem fragmentSend_state : ∃ t, Runs (.fragmentSend port f) s t
    ∧ t.link.ports[port].sentFrags = s.link.ports[port].sentFrags + 1
    ∧ t.link.ports[port].regs.txCredits.toNat + 1 = s.link.ports[port].regs.txCredits.toNat
    ∧ t.link.sent.head? = some (.fragment port (f.words ++ [crcWords f.words])) := by
  have hport := fragmentGone_port port f s
  have hfrags := congrArg Port.sentFrags hport
  have hcredit : (fragmentGone port f s).link.ports[port].regs.txCredits.toNat + 1
      = s.link.ports[port].regs.txCredits.toNat := by
    rw [hport]
    bv_omega
  refine ⟨_, fragmentSend_runs hst hc hlen hgap hroute, ?_⟩
  cases (dropFrag f s.link.outbox).1 with
  | none => exact ⟨hfrags, hcredit, rfl⟩
  | some q =>
    obtain ⟨os, hos⟩ := freeBuffer_eq q (fragmentGone port f s)
    exact ⟨(freeBuffer_port Port.sentFrags (fun _ => rfl) ..).trans hfrags,
      (congrArg (· + 1) (freeBuffer_port (fun x => x.regs.txCredits.toNat) (fun _ => rfl) ..)).trans hcredit,
      by rw [Option.elim_some, hos]; rfl⟩

end

theorem fragmentSend_none (h : s.link.ports[port].regs.portState.toNat < 4 ∨ s.link.ports[port].regs.txCredits = 0
    ∨ 127 < f.words.length ∨ gapFits s port (f.words.length + 1) = false ∨ onRoute s port f.dest = false) :
    Runs (.fragmentSend port f) s s := by
  show execFragmentSend port f s = _
  refine congrArg _ (if_neg ?_)
  obtain h | h | h | h | h := h
  · simp [-Fin.getElem_fin, Nat.not_le.mpr h]
  · simp [-Fin.getElem_fin, h]
  · simp [-Fin.getElem_fin, fragmentWords, Nat.not_le.mpr h]
  · simp [-Fin.getElem_fin, h]
  · simp [-Fin.getElem_fin, h]

/-! ### The arrival of a fragment (R137 to R140) -/

/-- The port with a good fragment in a receive buffer. -/
def Port.filled (x : Port) : Port :=
  { x with
    goodFrags := x.goodFrags + 1
    regs := { x.regs with rxBusy := if x.regs.rxBusy = 32 then 32 else x.regs.rxBusy + 1 } }

theorem Port.filled_rxBusy {x : Port} (h : x.regs.rxBusy.toNat < 32) : x.filled.regs.rxBusy = x.regs.rxBusy + 1 :=
  if_neg fun h32 => by rw [h32] at h; exact absurd h (by decide)

/-- A fragment that is taken at once leaves as many buffers busy as before it. -/
theorem Port.freed_filled_rxBusy {x : Port} (h : x.regs.rxBusy.toNat < 32) : x.filled.freed.regs.rxBusy = x.regs.rxBusy := by
  show (if x.filled.regs.rxBusy = 0 then 0 else x.filled.regs.rxBusy - 1) = _
  rw [Port.filled_rxBusy h, if_neg (by bv_omega), BitVec.add_sub_cancel]

/-- The fragment waits to be sent on. -/
def storeFragment (port : Fin 4) (f : Fragment) (s : State) : State :=
  modLink (fun l => { l with outbox := l.outbox ++ [{ frag := f, port := some port }] }) s

theorem fragmentReceive_closed (crcOk : Bool) (hst : s.link.ports[port].regs.portState.toNat < 4) :
    Runs (.fragmentReceive port crcOk f) s s := by
  show execFragmentReceive port crcOk f s = _
  exact congrArg _ (if_pos hst)

section
variable (hst : 4 ≤ s.link.ports[port].regs.portState.toNat)
include hst

theorem fragmentReceive_good : Runs (.fragmentReceive port true f) s (
    let u := modPort port Port.filled (unsent s)
    if f.dest = s.ocp.ident.moduleId then freeBuffer port u
    else storeFragment port f u) := by
  show execFragmentReceive port true f s = _
  exact congrArg _ (if_neg (Nat.not_lt.mpr hst))

theorem fragmentReceive_delivers (hhere : f.dest = s.ocp.ident.moduleId) (hb : s.link.ports[port].regs.rxBusy.toNat < 32) :
    ∃ t, Runs (.fragmentReceive port true f) s t
      ∧ t.link.ports[port].goodFrags = s.link.ports[port].goodFrags + 1
      ∧ t.link.ports[port].returned = s.link.ports[port].returned + 1
      ∧ t.link.ports[port].regs.rxBusy = s.link.ports[port].regs.rxBusy ∧ t.link.outbox = s.link.outbox := by
  obtain ⟨os, hos⟩ := freeBuffer_eq port (modPort port Port.filled (unsent s))
  have hport : (freeBuffer port (modPort port Port.filled (unsent s))).link.ports[port] = s.link.ports[port].filled.freed := by
    rw [hos]
    exact (modPort_port ..).trans (congrArg _ (modPort_port ..))
  refine ⟨_, (fragmentReceive_good hst).trans (congrArg _ (if_pos hhere)), ?_⟩
  rw [hport]
  exact ⟨rfl, rfl, Port.freed_filled_rxBusy hb, by rw [hos]; rfl⟩

theorem fragmentReceive_stores (hhere : ¬ f.dest = s.ocp.ident.moduleId) (hb : s.link.ports[port].regs.rxBusy.toNat < 32) :
    ∃ t, Runs (.fragmentReceive port true f) s t
      ∧ t.link.ports[port].goodFrags = s.link.ports[port].goodFrags + 1
      ∧ t.link.ports[port].returned = s.link.ports[port].returned
      ∧ t.link.ports[port].regs.rxBusy = s.link.ports[port].regs.rxBusy + 1
      ∧ t.link.outbox = s.link.outbox ++ [{ frag := f, port := some port }] := by
  have hport : (storeFragment port f (modPort port Port.filled (unsent s))).link.ports[port] = s.link.ports[port].filled :=
    modPort_port ..
  exact ⟨_, (fragmentReceive_good hst).trans (congrArg _ (if_neg hhere)), congrArg Port.goodFrags hport,
    (congrArg Port.returned hport :), (congrArg (fun x : Port => x.regs.rxBusy) hport).trans (Port.filled_rxBusy hb), rfl⟩

/-- A bad fragment is counted at its port. -/
def countBadFragment (port : Fin 4) (s : State) : State :=
  modPortRegs port (fun r => { r with
    fragCrcErrCount := satInc r.fragCrcErrCount, cntOvf := r.cntOvf || satFull r.fragCrcErrCount }) s

theorem fragmentReceive_bad : Runs (.fragmentReceive port false f) s (
    if f.dest = s.ocp.ident.moduleId ∧ f.kind = 1 then
      modSeg (fun r => { r with fwdEventLost := satInc r.fwdEventLost, cntOvf := r.cntOvf || satFull r.fwdEventLost })
        (countBadFragment port s)
    else countBadFragment port s) := by
  show execFragmentReceive port false f s = _
  refine congrArg Host.Outcome.next ((if_neg (Nat.not_lt.mpr hst)).trans ((if_neg Bool.false_ne_true).trans ?_))
  exact ite_congr (by rw [Bool.and_eq_true, decide_eq_true_eq, decide_eq_true_eq]) (fun _ => rfl) fun _ => rfl

theorem fragmentReceive_counts : ∃ t, Runs (.fragmentReceive port false f) s t
    ∧ t.link.ports[port].regs.fragCrcErrCount = satInc s.link.ports[port].regs.fragCrcErrCount
    ∧ t.link.ports[port].goodFrags = s.link.ports[port].goodFrags ∧ t.link.ports[port].returned = s.link.ports[port].returned
    ∧ (f.dest = s.ocp.ident.moduleId → f.kind = 1 → t.link.seg.fwdEventLost = satInc s.link.seg.fwdEventLost)
    ∧ (¬ f.dest = s.ocp.ident.moduleId ∨ f.kind ≠ 1 → t.link.seg = s.link.seg) := by
  have hport : (countBadFragment port s).link.ports[port] = { s.link.ports[port] with regs := { s.link.ports[port].regs with
      fragCrcErrCount := satInc s.link.ports[port].regs.fragCrcErrCount
      cntOvf := s.link.ports[port].regs.cntOvf || satFull s.link.ports[port].regs.fragCrcErrCount } } := modPort_port ..
  have hcount := congrArg (fun x : Port => x.regs.fragCrcErrCount) hport
  have hgood := congrArg Port.goodFrags hport
  have hback := congrArg Port.returned hport
  have hrun := fragmentReceive_bad (f := f) hst
  by_cases hev : f.dest = s.ocp.ident.moduleId ∧ f.kind = 1
  · rw [if_pos hev] at hrun
    exact ⟨_, hrun, hcount, hgood, hback, fun _ _ => rfl, fun h => h.elim (absurd hev.1) (absurd hev.2)⟩
  · rw [if_neg hev] at hrun
    exact ⟨_, hrun, hcount, hgood, hback, fun hd hk => absurd ⟨hd, hk⟩ hev, fun _ => rfl⟩

end

/-! ### Returned credits and audits (R138, R139) -/

theorem addCredits_toNat (c : BitVec 6) (n : Nat) : (addCredits c n).toNat = min 32 (c.toNat + n) := by
  unfold addCredits
  rw [BitVec.toNat_ofNat, Nat.mod_eq_of_lt]
  omega

theorem recovered_zero (port : Fin 4) (s : State) : recovered port 0 s = s := rfl

/-- Recovered credits are counted at their port, and its other fields stay. -/
theorem recovered_port {β : Type} (get : Port → β)
    (h : ∀ (x : Port) (c : Word) (o : Bool),
      get { x with regs := { x.regs with creditRecoveredCount := c, cntOvf := o } } = get x)
    (port : Fin 4) (n : Nat) (s : State) : get (recovered port n s).link.ports[port] = get s.link.ports[port] := by
  unfold recovered
  split
  · rfl
  · exact (congrArg get (modPort_port ..)).trans (h ..)

theorem creditReturnReceive_closed (n : Nat) (hst : s.link.ports[port].regs.portState.toNat < 4) :
    Runs (.creditReturnReceive port n) s s := by
  show execCreditReturnReceive port n s = _
  exact congrArg _ (if_pos hst)

theorem creditReturnReceive_state (n : Nat) (hst : 4 ≤ s.link.ports[port].regs.portState.toNat) :
    ∃ t, Runs (.creditReturnReceive port n) s t
      ∧ t.link.ports[port].gSeen = s.link.ports[port].gSeen + BitVec.ofNat 16 n
      ∧ t.link.ports[port].regs.txCredits.toNat = min 32 (s.link.ports[port].regs.txCredits.toNat + n) := by
  have hport := modPort_port port (fun x => { x with
    gSeen := x.gSeen + BitVec.ofNat 16 n, regs := { x.regs with txCredits := addCredits x.regs.txCredits n } }) s
  exact ⟨_, congrArg Host.Outcome.next (if_neg (Nat.not_lt.mpr hst)), congrArg Port.gSeen hport,
    (congrArg (fun x : Port => x.regs.txCredits.toNat) hport).trans (addCredits_toNat ..)⟩

theorem auditReceive_closed (sent given : BitVec 16) (hst : s.link.ports[port].regs.portState.toNat < 4) :
    Runs (.auditReceive port sent given) s s := by
  show execAuditReceive port sent given s = _
  exact congrArg _ (if_pos hst)

/-- The port after the neighbour's counts of fragments sent and credits returned. -/
def Port.audited (sent given : BitVec 16) (x : Port) : Port :=
  { x with
    goodFrags := sent, returned := x.returned + (sent - x.goodFrags), gSeen := given
    regs := { x.regs with txCredits := addCredits x.regs.txCredits (given - x.gSeen).toNat } }

theorem auditReceive_runs (sent given : BitVec 16) (hst : 4 ≤ s.link.ports[port].regs.portState.toNat) :
    Runs (.auditReceive port sent given) s (recovered port (given - s.link.ports[port].gSeen).toNat
      (recovered port (sent - s.link.ports[port].goodFrags).toNat (modPort port (Port.audited sent given) s))) := by
  have hmod : modPort port (fun x => { x with
      goodFrags := sent, gSeen := given
      returned := x.returned + BitVec.ofNat 16 (sent - s.link.ports[port].goodFrags).toNat
      regs := { x.regs with txCredits := addCredits x.regs.txCredits (given - s.link.ports[port].gSeen).toNat } }) s
      = modPort port (Port.audited sent given) s := by
    unfold modPort upd Port.audited
    rw [BitVec.ofNat_toNat, BitVec.setWidth_eq]
  show execAuditReceive port sent given s = _
  exact congrArg _ ((if_neg (Nat.not_lt.mpr hst)).trans
    (congrArg (fun u => recovered port _ (recovered port _ u)) hmod))

theorem auditReceive_state (sent given : BitVec 16) (hst : 4 ≤ s.link.ports[port].regs.portState.toNat) :
    ∃ t, Runs (.auditReceive port sent given) s t
      ∧ t.link.ports[port].goodFrags = sent ∧ t.link.ports[port].gSeen = given
      ∧ t.link.ports[port].returned = s.link.ports[port].returned + (sent - s.link.ports[port].goodFrags)
      ∧ t.link.ports[port].regs.txCredits.toNat
        = min 32 (s.link.ports[port].regs.txCredits.toNat + (given - s.link.ports[port].gSeen).toNat)
      ∧ (sent = s.link.ports[port].goodFrags → given = s.link.ports[port].gSeen → t.events = s.events) := by
  refine ⟨_, auditReceive_runs sent given hst, ?_⟩
  have hport {β : Type} (get : Port → β) (h : ∀ (x : Port) (c : Word) (o : Bool),
      get { x with regs := { x.regs with creditRecoveredCount := c, cntOvf := o } } = get x) (m n : Nat) :
      get (recovered port m (recovered port n (modPort port (Port.audited sent given) s))).link.ports[port]
        = get (s.link.ports[port].audited sent given) :=
    (recovered_port get h ..).trans ((recovered_port get h ..).trans (congrArg get (modPort_port ..)))
  refine ⟨hport Port.goodFrags (fun _ _ _ => rfl) .., hport Port.gSeen (fun _ _ _ => rfl) ..,
    hport Port.returned (fun _ _ _ => rfl) .., ?_, fun hs hg => ?_⟩
  · exact (hport (fun x => x.regs.txCredits.toNat) (fun _ _ _ => rfl) ..).trans (addCredits_toNat ..)
  · rw [hs, hg, BitVec.sub_self, BitVec.sub_self]
    rfl

end

/-- Settles O38: a fragment spends a credit where it leaves, occupies a buffer where it waits, and a count of credits is cut
off at 32. -/
theorem fragmentsSpendAndReturnCredits : Obligations.FragmentsSpendAndReturnCredits := by
  intro port f n sent given s x here
  exact ⟨fun hst => ⟨fragmentSend_state hst, fun h => fragmentSend_none (.inr h), fragmentReceive_delivers hst,
      fragmentReceive_stores hst, fragmentReceive_counts hst, creditReturnReceive_state n hst,
      auditReceive_state sent given hst⟩,
    fun hst => ⟨fragmentSend_none (.inl hst), fragmentReceive_closed true hst, creditReturnReceive_closed n hst,
      auditReceive_closed sent given hst⟩⟩

end Sys2Proof.Machine
end

section
/-! PROOF. The ring: time and pour frames, breaks, and the return to two copies (R117, R120 to R122, R141 to R146; log entries
121 and 124). -/

namespace Sys2Proof.Machine

/-! ### Notices and wraps: what they change (R141 to R145) -/

theorem emitOther_withSent (r : Fin 2) (port : Fin 4) (o : Fin 4 → LinkOut) (s : State) :
    ∃ os, emitOther r port o s = withSent os s := by
  unfold emitOther
  split
  · obtain ⟨os, h⟩ := emitAt_withSent ‹_› (o ‹_›) s
    exact ⟨_, h⟩
  · exact ⟨s.link.sent, rfl⟩

theorem passNotice_withSent (r : Fin 2) (port : Fin 4) (o : Fin 4 → LinkOut) (s : State) :
    ∃ os, passNotice r port o s = withSent os s := by
  unfold passNotice
  split
  · exact ⟨s.link.sent, rfl⟩
  · exact emitOther_withSent ..

@[simp] theorem withSent_clock (os : List LinkOut) (s : State) : (withSent os s).clock = s.clock := rfl

/-- DT and L give the pour that a change of the copies waits for. -/
theorem pourAfterUs_of_clock {s t : State} (h : t.clock = s.clock) : pourAfterUs t = pourAfterUs s := by
  unfold pourAfterUs pourLen
  rw [dt_of_clock h, pourLen_of_clock h]

theorem withSent_unsent (os : List LinkOut) (s : State) : withSent os (unsent s) = withSent os s := rfl
theorem ringState_withSent (os : List LinkOut) (r : Fin 2) (s : State) : ringState (withSent os s) r = ringState s r := by
  unfold ringState
  rfl
theorem ringState_setRingState (r : Fin 2) (v : BitVec 2) (s : State) : ringState (setRingState r v s) r = v := by
  unfold ringState setRingState
  split
  · rfl
  · exact congrArg Ring.state (modLinkRing_ring ..)

/-- A ring's state is one field of it. -/
theorem setRingState_ring {β : Type} (get : Ring → β) (h : ∀ (x : Ring) (v : BitVec 2), get { x with state := v } = get x)
    (r : Fin 2) (v : BitVec 2) (s : State) : get (setRingState r v s).link.rings[r] = get s.link.rings[r] := by
  unfold setRingState
  split
  · rfl
  · exact (congrArg get (modLinkRing_ring ..)).trans (h ..)

theorem setRingState_ports (r : Fin 2) (v : BitVec 2) (s : State) : (setRingState r v s).link.ports = s.link.ports := by
  unfold setRingState
  split <;> rfl
theorem setRingState_events (r : Fin 2) (v : BitVec 2) (s : State) : (setRingState r v s).events = s.events := by
  unfold setRingState
  split <;> rfl

theorem enterWrapped_intact {r : Fin 2} {s : State} (h : ringState s r = 0 ∨ ringState s r = 1) :
    ringState (enterWrapped r s) r = 2 := by
  have hlow : ¬ 2 ≤ (ringState s r).toNat := by obtain h | h := h <;> rw [h] <;> decide
  unfold enterWrapped
  rw [if_neg hlow, ringState_setRingState]
theorem enterWrapped_split {r : Fin 2} {s : State} (h : ringState s r = 3) : enterWrapped r s = s :=
  if_pos (by rw [h]; decide)

/-- The entry to the wrapped state leaves a ring but for its state and its replay. -/
theorem enterWrapped_ring {β : Type} (get : Ring → β)
    (h : ∀ (x : Ring) (v : BitVec 2) (d : Bool), get { x with state := v } = get x ∧ get { x with replayDone := d } = get x)
    (r : Fin 2) (s : State) : get (enterWrapped r s).link.rings[r] = get s.link.rings[r] := by
  unfold enterWrapped
  split
  · rfl
  · rw [setRingState_ring get fun x v => (h x v false).1]
    exact (congrArg get (modLinkRing_ring ..)).trans (h _ 0 _).2
theorem enterWrapped_ports (r : Fin 2) (s : State) : (enterWrapped r s).link.ports = s.link.ports := by
  unfold enterWrapped
  split
  · rfl
  · exact setRingState_ports ..
theorem enterWrapped_events (r : Fin 2) (s : State) : (enterWrapped r s).events = s.events := by
  unfold enterWrapped
  split
  · rfl
  · exact setRingState_events ..

theorem masterWraps_oneCopy {r : Fin 2} {s : State} (h : s.link.rings[r].master = true) :
    (masterWraps r s).link.rings[r].oneCopyFrom = some (pourAfterUs s) := by
  unfold masterWraps
  rw [if_pos h]
  exact congrArg Ring.oneCopyFrom (modLinkRing_ring ..)
/-- A master that launches one copy leaves its ring but for the pours of the change. -/
theorem masterWraps_ring {β : Type} (get : Ring → β)
    (h : ∀ (x : Ring) (p q : Option (BitVec 64)), get { x with oneCopyFrom := p, twoCopiesFrom := q } = get x)
    (r : Fin 2) (s : State) : get (masterWraps r s).link.rings[r] = get s.link.rings[r] := by
  unfold masterWraps
  split
  · exact (congrArg get (modLinkRing_ring ..)).trans (h ..)
  · rfl
theorem masterWraps_ports (r : Fin 2) (s : State) : (masterWraps r s).link.ports = s.link.ports := by
  unfold masterWraps
  split <;> rfl
theorem masterWraps_events (r : Fin 2) (s : State) : (masterWraps r s).events = s.events := by
  unfold masterWraps
  split <;> rfl

/-! ### Frames (R117, R120 to R122) -/

theorem timeFrameLaunch_runs {s : State} (h : s.link.started = false) : Runs .timeFrameLaunch s
    (((List.finRange 2).filter fun r => s.link.rings[r].master).foldl (fun s r => launchBare 0xA6 r s) (unsent s)) := by
  show execTimeFrameLaunch s = _
  exact congrArg _ (if_neg (by rw [h]; decide))

/-- A frame has come to the port, and in the module's own ring its time is taken. -/
def takeTime (port : Fin 4) (r : Fin 2) (f : PourFrame) (s : State) : State :=
  let u := modPort port (fun x => { x with frameAt := some s.dt }) (unsent s)
  if r = 0 then frameTime port f u else u
/-- The copy ends here or goes on, and what its FIFO has let through is received. -/
def passCopy (port : Fin 4) (r : Fin 2) (f : PourFrame) (s : State) : State :=
  drainRx (if copyEnds r port f s then s else forwardFrame r port f s)

section
variable {port : Fin 4} {r : Fin 2} {f : PourFrame} {s : State}

section
variable (hr : ringOf s port = some r) (hst : 4 ≤ s.link.ports[port].regs.portState.toNat) (hg : frameGood s r f = true)
include hr hst hg

theorem pourFrameArrival_time (hp : frameIsPour f = false) :
    Runs (.pourFrameArrival port f) s (passCopy port r f (takeTime port r f s)) := by
  have hp' : ¬ frameIsPour f = true := Bool.eq_false_iff.mp hp
  show execPourFrameArrival port f s = _
  rw [execPourFrameArrival, hr]
  refine congrArg Host.Outcome.next ((if_neg (by simp [-Fin.getElem_fin, hg, hst])).trans ?_)
  extract_lets s1 s2 s3 s4 rp s5
  have h3 : s3 = s2 := if_neg (by simp [hp])
  have h4 : s4 = s3 := if_neg hp'
  have h5 : s5 = s4 := if_neg (by simp [hp])
  exact congrArg (passCopy port r f) (h5.trans (h4.trans h3))

theorem pourFrameArrival_pour (hp : frameIsPour f = true) (hs : (takeTime port r f s).link.started = true) :
    Runs (.pourFrameArrival port f) s (
      let up := modPortRegs port (fun r => { r with portState := 5 }) (takeTime port r f s)
      let u := if frameWrapped f then enterWrapped r up else if ringState up r = 0 then setRingState r 1 up else up
      let n := (ringPlan u r).slots.length
      passCopy port r f
        (if n ≠ 0 ∧ 8 < f.words.length then takeReplay r f ((List.range n).foldl (takeSlot port r f) u) else u)) := by
  show execPourFrameArrival port f s = _
  rw [execPourFrameArrival, hr]
  refine congrArg Host.Outcome.next ((if_neg (by simp [-Fin.getElem_fin, hg, hst])).trans ?_)
  extract_lets s1 s2 s3 s4 rp s5 s6 up u n
  have h3 : s3 = up := if_pos (by rw [hp]; exact hs)
  have h4 : s4 = u := (if_pos hp).trans (by rw [h3])
  have h5 : s5 = if n ≠ 0 ∧ 8 < f.words.length then takeReplay r f ((List.range n).foldl (takeSlot port r f) u) else u := by
    unfold s5 rp
    rw [h4]
    exact ite_congr (by simp [hp, n]) (fun _ => rfl) fun _ => rfl
  exact congrArg (passCopy port r f) h5

end

theorem pourFrameArrival_dropped (h : ringOf s port = none ∨ s.link.ports[port].regs.portState.toNat < 4
    ∨ (ringOf s port = some r ∧ frameGood s r f = false)) : Runs (.pourFrameArrival port f) s s := by
  show execPourFrameArrival port f s = _
  rw [execPourFrameArrival]
  obtain h | h | ⟨hr, hg⟩ := h
  · rw [h]
  · split
    · rfl
    · exact congrArg _ (if_pos (by simp [-Fin.getElem_fin, h]))
  · rw [hr]
    exact congrArg _ (if_pos (by simp [hg]))

end

/-! ### Breaks (R141 to R143) -/

/-- So many code violations more are counted. -/
def PortRegs.violated (viols : Nat) (x : PortRegs) : PortRegs :=
  { x with
    codeViolCount := satAdd x.codeViolCount viols
    cntOvf := x.cntOvf || decide (2 ^ 32 ≤ x.codeViolCount.toNat + viols) }
/-- The port turns copies back. -/
def PortRegs.turned (x : PortRegs) : PortRegs := { x with broken := true, breakSeen := true, wrapping := true }

/-- The code violations in a row are counted at their port. -/
def countViols (port : Fin 4) (viols : Nat) (s : State) : State := modPortRegs port (PortRegs.violated viols) s

/-- The port's side of its ring turns the copies back. -/
def turnCopies (port : Fin 4) (r : Fin 2) (s : State) : State :=
  enterWrapped r (modLinkRing r (fun x => { x with
    wrapEast := x.wrapEast || isEast s r port, wrapWest := x.wrapWest || !isEast s r port, twoCopiesFrom := none })
    (modPortRegs port PortRegs.turned s))

section
variable {port : Fin 4} {r : Fin 2} {viols : Nat} {s : State}

theorem countViols_regs : (countViols port viols s).link.ports[port].regs = s.link.ports[port].regs.violated viols :=
  modPortRegs_regs ..

theorem turnCopies_ring {β : Type} (get : Ring → β)
    (h : ∀ (x : Ring) (v : BitVec 2) (d : Bool), get { x with state := v } = get x ∧ get { x with replayDone := d } = get x) :
    get (turnCopies port r s).link.rings[r] = get { s.link.rings[r] with
      wrapEast := s.link.rings[r].wrapEast || isEast s r port
      wrapWest := s.link.rings[r].wrapWest || !isEast s r port, twoCopiesFrom := none } :=
  (enterWrapped_ring get h ..).trans (congrArg get (modLinkRing_ring ..))

theorem turnCopies_regs : (turnCopies port r s).link.ports[port].regs = s.link.ports[port].regs.turned := by
  unfold turnCopies
  rw [enterWrapped_ports]
  exact modPortRegs_regs port PortRegs.turned s

theorem turnCopies_events : (turnCopies port r s).events = s.events := enterWrapped_events ..
theorem turnCopies_clock : (turnCopies port r s).clock = s.clock := by simp [turnCopies]

/-- A break that the ring does not know yet turns the copies back; its record and its notice go out, and a master wraps. -/
theorem declareBreak_new (hr : ringOf s port = some r) (hb : s.link.ports[port].regs.broken = false) : ∃ os,
    declareBreak port s = masterWraps r (withSent os (note Ev.linkWrapped (srcPort port) 0 0 0 (turnCopies port r s))) := by
  obtain ⟨os, hos⟩ := emitOther_withSent r port .breakNotice (note Ev.linkWrapped (srcPort port) 0 0 0 (turnCopies port r s))
  refine ⟨os, ?_⟩
  rw [← hos, declareBreak, hr]
  exact if_neg (Bool.eq_false_iff.mp hb)

theorem declareBreak_state (hr : ringOf s port = some r) (hb : s.link.ports[port].regs.broken = false) :
    let t := declareBreak port s
    t.link.ports[port].regs = s.link.ports[port].regs.turned
      ∧ (isEast s r port = true → t.link.rings[r].wrapEast = true)
      ∧ (isEast s r port = false → t.link.rings[r].wrapWest = true)
      ∧ (s.link.rings[r].master = true → t.link.rings[r].oneCopyFrom = some (pourAfterUs s))
      ∧ t.events.fabric = s.events.fabric ++ [{ code := Ev.linkWrapped, src := srcPort port, t := s.dt }] := by
  obtain ⟨os, hos⟩ := declareBreak_new hr hb
  dsimp only
  rw [hos, masterWraps_ports, masterWraps_events]
  refine ⟨turnCopies_regs, fun he => ?east, fun he => ?west, fun hm => ?master, ?fabric⟩
  case east =>
    refine (masterWraps_ring Ring.wrapEast (fun _ _ _ => rfl) ..).trans
      ((turnCopies_ring Ring.wrapEast fun _ _ _ => ⟨rfl, rfl⟩).trans ?_)
    rw [he]; exact Bool.or_true _
  case west =>
    refine (masterWraps_ring Ring.wrapWest (fun _ _ _ => rfl) ..).trans
      ((turnCopies_ring Ring.wrapWest fun _ _ _ => ⟨rfl, rfl⟩).trans ?_)
    rw [he]; exact Bool.or_true _
  case master =>
    have hmaster : (turnCopies port r s).link.rings[r].master = true :=
      (turnCopies_ring Ring.master fun _ _ _ => ⟨rfl, rfl⟩).trans hm
    exact (masterWraps_oneCopy (s := withSent os (note _ _ _ _ _ (turnCopies port r s))) hmaster).trans
      (congrArg some (pourAfterUs_of_clock turnCopies_clock))
  case fabric =>
    show (turnCopies port r s).events.fabric
      ++ [{ code := Ev.linkWrapped, src := srcPort port, t := (turnCopies port r s).dt }] = _
    rw [turnCopies_events, dt_of_clock turnCopies_clock]

theorem breakDeclare_runs : Runs (.breakDeclare port viols) s (
    let x := s.link.ports[port]
    if (!x.regs.los && (x.regs.medium || x.signal)) && x.locked && decide (viols < 8) then countViols port viols s
    else declareBreak port (unsent (countViols port viols s))) := by
  show Host.Outcome.next (
    let u := countViols port viols s
    if signalOk u.link.ports[port] && u.link.ports[port].locked && decide (viols < 8) then u
    else declareBreak port (unsent u)) = _
  simp only [signalOk, countViols, modPortRegs, modPort_port]
  rfl

theorem breakDeclare_broken (h : s.link.ports[port].regs.los = true
    ∨ (s.link.ports[port].regs.medium = false ∧ s.link.ports[port].signal = false)
    ∨ s.link.ports[port].locked = false ∨ 8 ≤ viols) :
    Runs (.breakDeclare port viols) s (declareBreak port (unsent (countViols port viols s))) := by
  refine breakDeclare_runs.trans (congrArg _ (if_neg ?_))
  obtain h | ⟨hm, hs⟩ | h | h := h
  · rw [h]; simp
  · rw [hm, hs]; simp
  · rw [h]; simp
  · simp [Nat.not_lt.mpr h]

theorem breakDeclare_counted (hl : s.link.ports[port].regs.los = false)
    (hs : s.link.ports[port].regs.medium = true ∨ s.link.ports[port].signal = true) (hk : s.link.ports[port].locked = true)
    (hv : viols < 8) : Runs (.breakDeclare port viols) s (countViols port viols s) := by
  have hsig : (s.link.ports[port].regs.medium || s.link.ports[port].signal) = true := (Bool.or_eq_true _ _).mpr hs
  refine breakDeclare_runs.trans (congrArg _ (if_pos ?_))
  rw [hl, hsig, hk, decide_eq_true hv]
  rfl

theorem breakDeclare_state (hb : s.link.ports[port].regs.broken = false) (hr : ringOf s port = some r)
    (h : s.link.ports[port].regs.los = true ∨ (s.link.ports[port].regs.medium = false ∧ s.link.ports[port].signal = false)
      ∨ s.link.ports[port].locked = false ∨ 8 ≤ viols) :
    ∃ t, Runs (.breakDeclare port viols) s t ∧ t.link.ports[port].regs.broken = true
      ∧ t.link.ports[port].regs.codeViolCount = satAdd s.link.ports[port].regs.codeViolCount viols
      ∧ (isEast s r port = true → t.link.rings[r].wrapEast = true)
      ∧ (isEast s r port = false → t.link.rings[r].wrapWest = true)
      ∧ (s.link.rings[r].master = true → t.link.rings[r].oneCopyFrom = some (pourAfterUs s))
      ∧ t.events.fabric = s.events.fabric ++ [{ code := Ev.linkWrapped, src := srcPort port, t := s.dt }] := by
  have hcount : (unsent (countViols port viols s)).link.ports[port].regs = s.link.ports[port].regs.violated viols :=
    countViols_regs
  have hclock : (unsent (countViols port viols s)).clock = s.clock := by simp [countViols]
  obtain ⟨hregs, heast, hwest, hmaster, hfabric⟩ := declareBreak_state (s := unsent (countViols port viols s)) hr
    ((congrArg PortRegs.broken hcount).trans hb)
  refine ⟨_, breakDeclare_broken h, congrArg PortRegs.broken hregs, ?_, heast, hwest, fun hm => ?_, hfabric⟩
  · exact (congrArg PortRegs.codeViolCount hregs).trans (congrArg PortRegs.codeViolCount hcount)
  · exact (hmaster hm).trans (congrArg some (pourAfterUs_of_clock hclock))

theorem breakDeclare_countedState (hl : s.link.ports[port].regs.los = false)
    (hs : s.link.ports[port].regs.medium = true ∨ s.link.ports[port].signal = true) (hk : s.link.ports[port].locked = true)
    (hv : viols < 8) : ∃ t, Runs (.breakDeclare port viols) s t
      ∧ t.link.ports[port].regs.broken = s.link.ports[port].regs.broken ∧ t.link.rings = s.link.rings ∧ t.events = s.events :=
  ⟨_, breakDeclare_counted hl hs hk hv, (congrArg PortRegs.broken countViols_regs :), rfl, rfl⟩

/-! ### Notices and the split (R141, R145, R146) -/

theorem breakNoticeReceive_runs (hr : ringOf s port = some r) : Runs (.breakNoticeReceive port) s
    (masterWraps r (enterWrapped r (passNotice r port .breakNotice (unsent s)))) := by
  show execBreakNoticeReceive port s = _
  rw [execBreakNoticeReceive, hr]

theorem restoreNoticeReceive_state (hr : ringOf s port = some r) (hw : ringState s r = 2) :
    ∃ t, Runs (.restoreNoticeReceive port) s t ∧ t.link.rings[r].twoCopiesFrom = some (pourAfterUs s)
      ∧ { t with link := s.link } = s := by
  obtain ⟨os, hos⟩ := passNotice_withSent r port .restoreNotice (unsent s)
  have hrun : Runs (.restoreNoticeReceive port) s
      (modLinkRing r (fun x => { x with twoCopiesFrom := some (pourAfterUs s) }) (withSent os s)) := by
    show execRestoreNoticeReceive port s = _
    rw [execRestoreNoticeReceive, hr]
    dsimp only
    rw [hos, withSent_unsent, ringState_withSent, if_pos hw, pourAfterUs_of_clock (withSent_clock os s)]
  exact ⟨_, hrun, congrArg Ring.twoCopiesFrom (modLinkRing_ring ..), rfl⟩

end

section
variable {s : State}

theorem ringSplit_runs (hs : s.link.split = false) (hd : s.link.started = true) (hm : s.link.rings[0].master = false) :
    Runs .ringSplit s (note Ev.ringSplit srcSegment 0 0 0
      (setRingState 0 3 (modLink (fun l => { l with split := true }) s))) := by
  show execRingSplit s = _
  exact congrArg _ (if_neg (by rw [hs, hd, hm]; decide))

theorem ringSplit_none (h : s.link.split = true ∨ s.link.started = false ∨ s.link.rings[0].master = true) :
    Runs .ringSplit s s := by
  show execRingSplit s = _
  refine congrArg _ (if_pos ?_)
  obtain h | h | h := h <;> rw [h] <;> simp

end

/-- Settles O39: a frame takes the path of its kind, and a break, its notice and its end each change what their rules name. -/
theorem ringCarriesFramesAndBreaks : Obligations.RingCarriesFramesAndBreaks := by
  intro port r viols f s p arrived timed
  exact ⟨timeFrameLaunch_runs, pourFrameArrival_time, pourFrameArrival_pour, pourFrameArrival_dropped, breakDeclare_state,
    breakDeclare_countedState, breakNoticeReceive_runs, enterWrapped_intact, enterWrapped_split, restoreNoticeReceive_state,
    fun hs hd hm => ⟨_, ringSplit_runs hs hd hm, rfl, rfl, rfl⟩, ringSplit_none⟩

end Sys2Proof.Machine
end

section
/-! PROOF. The start and the stop of a domain (R54, R131 to R133, R146). -/

namespace Sys2Proof.Machine

/-! ### The start (R132, R133) -/

@[simp] theorem endOps_link (sel : PendingOp → Bool) (st : BitVec 16) (s : State) : (endOps sel st s).link = s.link :=
  endOps_frame State.link (fun _ _ => rfl) (fun _ _ => rfl) sel st s
@[simp] theorem endOps_stage (sel : PendingOp → Bool) (st : BitVec 16) (s : State) : (endOps sel st s).stage = s.stage :=
  endOps_frame State.stage (fun _ _ => rfl) (fun _ _ => rfl) sel st s

@[simp] theorem startEpoch_link (r : DomainChecks) (s : State) : (startEpoch r s).link = s.link := by
  unfold startEpoch
  split <;> rfl
@[simp] theorem startEpoch_stage (r : DomainChecks) (s : State) : (startEpoch r s).stage = s.stage := by
  unfold startEpoch
  split <;> rfl

theorem firstSlotPour_started (p : BitVec 64) (s : State) :
    (modLink (fun k => { k with firstSlotPour := p }) s).link.started = s.link.started := rfl
theorem firstSlots_started (start : Fix) (s : State) : (firstSlots start s).link.started = s.link.started :=
  firstSlotPour_started _ s
theorem firstSlots_stage (start : Fix) (s : State) : (firstSlots start s).stage = s.stage := modLink_stage _ s

/-- The longest pour, of exponent 6, lasts 1 ms. -/
theorem pourOfExp_toNat {n : Nat} (h : n ≤ 6) : (natWord (pourOfExp n)).toNat = 15625 * 2 ^ n := by
  have hpow : 2 ^ n ≤ 2 ^ 6 := Nat.pow_le_pow_right (by decide) h
  unfold natWord pourOfExp
  rw [BitVec.toNat_ofNat, Nat.mod_eq_of_lt]
  omega

/-- A fixed domain: L, D and the wrap check are those of the start. -/
theorem fixDomain_state {n : BitVec 3} (d : BitVec 4) (wrap : Bool) (s : State) (h : n.toNat ≤ 6) :
    (fixDomain n d wrap s).link.started = true
      ∧ (fixDomain n d wrap s).stage.regs.pourLen.toNat = 15625 * 2 ^ n.toNat
      ∧ (fixDomain n d wrap s).stage.regs.domainD = d := ⟨rfl, pourOfExp_toNat h, rfl⟩

/-- The plan evaluated with the members' reports. -/
def planReported (r : DomainChecks) (n : Nat) (s : State) : State := evalPlan (pourOfExp n) (noteReports r s)
/-- The domain fixed, and the grandmaster's epoch and DT loaded. -/
def domainBegun (r : DomainChecks) (q : DomainReq) (s : State) : State :=
  startEpoch r (fixDomain q.exp q.d q.wrapCheck (planReported r q.exp.toNat s))
/-- The first failure of the requested start; OK where there is none. -/
def requestedStatus (r : DomainChecks) (q : DomainReq) (s : State) : BitVec 16 :=
  startStatus r q.exp.toNat q.d.toNat q.wrapCheck (planReported r q.exp.toNat s)

section
variable {r : DomainChecks} {s : State}

section
variable {q : DomainReq} (hq : s.link.domainReq = some q) (hexp : q.exp.toNat ≤ 6)
include hq hexp

theorem domainStart_requested : Runs (.domainStartComplete r) s (
    let start (o : PendingOp) : Bool := o.op = 0x0306
    let st := requestedStatus r q s
    if st = Status.ok then endOps start st (firstSlots (domainBegun r q s).dt (domainBegun r q s))
    else endOps start st (modLink (fun l => { l with domainReq := none }) (planReported r q.exp.toNat s))) := by
  show execDomainStartComplete r s = _
  rw [execDomainStartComplete, hq]
  exact congrArg Host.Outcome.next (if_neg (Nat.not_lt.mpr hexp))

theorem domainStart_starts (hst : requestedStatus r q s = Status.ok) : Runs (.domainStartComplete r) s
    (endOps (fun o => o.op = 0x0306) (requestedStatus r q s) (firstSlots (domainBegun r q s).dt (domainBegun r q s))) :=
  (domainStart_requested hq hexp).trans (congrArg Host.Outcome.next (if_pos hst))

theorem domainStart_fails (hst : requestedStatus r q s ≠ Status.ok) : Runs (.domainStartComplete r) s
    (endOps (fun o => o.op = 0x0306) (requestedStatus r q s)
      (modLink (fun l => { l with domainReq := none }) (planReported r q.exp.toNat s))) :=
  (domainStart_requested hq hexp).trans (congrArg Host.Outcome.next (if_neg hst))

theorem domainStart_startedState (hst : requestedStatus r q s = Status.ok) : ∃ t, Runs (.domainStartComplete r) s t
    ∧ t.link.started = true ∧ t.stage.regs.pourLen.toNat = 15625 * 2 ^ q.exp.toNat ∧ t.stage.regs.domainD = q.d := by
  refine ⟨_, domainStart_starts hq hexp hst, ?_⟩
  rw [endOps_link, endOps_stage, firstSlots_started, firstSlots_stage, domainBegun, startEpoch_link, startEpoch_stage]
  exact fixDomain_state q.d q.wrapCheck _ hexp

end

/-- A module that is not the grandmaster takes the start of its grandmaster. -/
theorem domainStart_follows (hq : s.link.domainReq = none) (hgm : s.time.regs.roleGm = false) (hs : s.link.started = false)
    (hexp : r.exp.toNat ≤ 6)
    (hst : startStatus r r.exp.toNat r.d.toNat r.wrapCheck (planReported r r.exp.toNat s) = Status.ok) :
    Runs (.domainStartComplete r) s (firstSlots (if r.epochValid then r.taiDt else 0)
      (discardDt r (fixDomain r.exp r.d r.wrapCheck (planReported r r.exp.toNat s)))) := by
  show execDomainStartComplete r s = _
  rw [execDomainStartComplete, hq]
  refine congrArg Host.Outcome.next ((if_neg ?_).trans (if_pos hst))
  rw [hgm, hs, decide_eq_false (Nat.not_lt.mpr hexp)]
  decide

end

/-! ### The stop (R133, R146) -/

theorem setRingState_started (r : Fin 2) (v : BitVec 2) (s : State) :
    (setRingState r v s).link.started = s.link.started := by
  unfold setRingState
  split <;> rfl
theorem noMaster_started (r : Fin 2) (s : State) : (noMaster r s).link.started = s.link.started := by
  unfold noMaster; dsimp only
  split <;> rfl

theorem stopDomain_started (s : State) : (stopDomain s).link.started = false := by
  unfold stopDomain; dsimp only
  split
  · rw [setRingState_started, noMaster_started]
    rfl
  · rfl

section
variable {anyOn : Bool} {s : State}

theorem domainStop_refused (ho : (s.ocp.ops.any fun o => o.op = 0x0307) = true) (he : (anyOn || anyEnabled s) = true) :
    Runs (.domainStopComplete anyOn) s (endOps (fun o => o.op = 0x0307) Status.axesEnabled s) :=
  congrArg Host.Outcome.next ((if_pos ho).trans (if_pos he))
theorem domainStop_stops (ho : (s.ocp.ops.any fun o => o.op = 0x0307) = true) (he : (anyOn || anyEnabled s) = false) :
    Runs (.domainStopComplete anyOn) s (endOps (fun o => o.op = 0x0307) Status.ok (stopDomain s)) :=
  congrArg Host.Outcome.next ((if_pos ho).trans (if_neg (Bool.eq_false_iff.mp he)))
theorem domainStop_follows (ho : (s.ocp.ops.any fun o => o.op = 0x0307) = false) (hgm : s.time.regs.roleGm = false)
    (he : (anyOn || anyEnabled s) = false) : Runs (.domainStopComplete anyOn) s (stopDomain s) := by
  have hgo : ¬ (s.time.regs.roleGm || anyOn || anyEnabled s) = true := by rw [hgm, Bool.false_or, he]; decide
  exact congrArg Host.Outcome.next ((if_neg (Bool.eq_false_iff.mp ho)).trans (if_neg hgo))

end

/-- Settles O40: the first failing check is the status of a start, and an enabled axis that of a stop. -/
theorem domainStartsAndStops : Obligations.DomainStartsAndStops := by
  intro r q anyOn s start stop u st begun v
  exact ⟨fun hq hexp => ⟨domainStart_starts hq hexp, domainStart_fails hq hexp, domainStart_startedState hq hexp⟩,
    fun hq hgm hs hexp hst => ⟨_, domainStart_follows hq hgm hs hexp hst, rfl, pourOfExp_toNat hexp, rfl, rfl, rfl⟩,
    domainStop_refused, domainStop_stops, domainStop_follows, stopDomain_started s⟩

end Sys2Proof.Machine
end

section
/-! PROOF. The end of a phase of an axis or a loop: hard stop, hold, rest and missing mark (R202, R208, R237, R612), direct
coefficient words (R265, R306), the loop's own conditions and the trace (R257, R269, R274). -/

namespace Sys2Proof.Machine

/-! ### Runs of time -/

section
variable {o : Option Fix} {ns : Nat} {s : State}

theorem runPassed_of_since {t0 : Fix} (ho : o = some t0) (hp : hasPassed t0 ns s = true) :
    (o.any fun t => hasPassed t ns s) = true := by
  rw [ho, Option.any_some, hp]
theorem runPassed_of_none (ho : o = none) : (o.any fun t => hasPassed t ns s) = false := by
  rw [ho]
  rfl

end

/-! ### The hard stop (R202) -/

/-- The axis's registers show the latch of its homing run at position x. -/
def latchShown (h : HomeRun) (x : Int) (ax : Axis) : Axis :=
  { ax with
    home := some { h with known := some (fixRaw x), shown := true }
    regs := { ax.regs with latchDt := nsOf h.edgeDt, latchUnc := h.unc, latchPos := latchWord ax x } }

/-- A latch is shown with a free value drawn, at its known position where it has one, or nothing happens. -/
theorem showLatch_cases (a : Fin 112) (s : State) : showLatch a s = s ∨ ∃ h x, s.axes[a].home = some h
    ∧ (∀ p, h.known = some p → x = p.toInt) ∧ showLatch a s = drawn (modAxis a (latchShown h x) s) := by
  unfold showLatch
  dsimp only
  split
  · exact .inl rfl
  · next h hh =>
    split
    · next x hx =>
      split
      · exact .inl rfl
      · refine .inr ⟨h, x, hh, fun p hk => ?_, rfl⟩
        rw [hk] at hx
        exact (Option.some.inj hx).symm
    · exact .inl rfl

theorem showLatch_frame (a : Fin 112) (v : Vector Axis 112) (n : Nat) (s : State) :
    { showLatch a s with axes := v, freeCtr := n } = { s with axes := v, freeCtr := n } := by
  obtain h | ⟨h, x, -, -, hs⟩ := showLatch_cases a s
  · rw [h]
  · rw [hs]
    rfl
theorem showLatch_homePhase (a : Fin 112) (s : State) :
    (showLatch a s).axes[a].regs.homePhase = s.axes[a].regs.homePhase := by
  obtain h | ⟨h, x, -, -, hs⟩ := showLatch_cases a s
  · rw [h]
  · rw [hs, drawn_axes, modAxis_axes, upd_self]
    rfl
/-- A latch whose position is known keeps it as it is shown. -/
theorem showLatch_known {a : Fin 112} {s : State} {h : HomeRun} {p : Fix} (hh : s.axes[a].home = some h)
    (hk : h.known = some p) :
    ((showLatch a s).axes[a].home.map fun g => (g.edge, g.known)) = some (h.edge, some p) := by
  obtain hs | ⟨g, x, hg, hx, hs⟩ := showLatch_cases a s
  · rw [hs, hh, Option.map_some, hk]
  · obtain rfl : h = g := Option.some.inj (hh.symm.trans hg)
    obtain rfl := hx p hk
    have hraw : fixRaw p.toInt = p := BitVec.ofInt_toInt
    rw [hs, drawn_axes, modAxis_axes, upd_self, latchShown, hraw, Option.map_some]

/-- A homing run that has the position of this pour as its reference. -/
def referencedHere (s : State) (ax : Axis) (h : HomeRun) : HomeRun :=
  { latchHere (unwrapped ax) s h with edge := fixRaw (unwrapped ax) }
/-- The axis returns from the hard stop. -/
def hardStopFound (a : Fin 112) (s : State) : State := homePhase a 3 (referencedHere s s.axes[a]) s

theorem hardStopFound_axis (a : Fin 112) (s : State) : (hardStopFound a s).axes[a] = { s.axes[a] with
    home := s.axes[a].home.map fun h => referencedHere s s.axes[a] { h with passStart := fixRaw (unwrapped s.axes[a]) }
    regs := { s.axes[a].regs with homePhase := 3 } } := upd_self ..
theorem hardStopFound_homePhase (a : Fin 112) (s : State) : (hardStopFound a s).axes[a].regs.homePhase = 3 :=
  congrArg (fun ax : Axis => ax.regs.homePhase) (hardStopFound_axis a s)
theorem hardStopFound_home {a : Fin 112} {s : State} {h : HomeRun} (hh : s.axes[a].home = some h) :
    (hardStopFound a s).axes[a].home =
      some (referencedHere s s.axes[a] { h with passStart := fixRaw (unwrapped s.axes[a]) }) := by
  rw [hardStopFound_axis]
  exact congrArg (Option.map _) hh

theorem hardStopSlow_searching {ax : Axis} {h : HomeRun} (hm : h.method = 9 ∨ h.method = 10)
    (hph : ax.regs.homePhase = 2) (hi : ax.atIHome = true)
    (hv : (8 * ax.regs.actVel.toInt.natAbs : Int) < ax.regs.vCreep.toInt) : hardStopSlow ax h = true := by
  unfold hardStopSlow
  rw [hph, hi, decide_eq_true hv]
  obtain hm | hm := hm <;> rw [hm] <;> rfl

section
variable {k : Fin 16} {h : HomeRun} {s : State}

/-- The run of slow pours of axis k's homing has lasted T_HS, and the axis is no stepper. -/
def hardStopMet (k : Fin 16) (h : HomeRun) (s : State) : Bool :=
  hardStopSlow s.axes[tileAxis k] h && !isStepper s (tileAxis k)
    && (h.slowSince.any fun t => hasPassed t (s.axes[tileAxis k].regs.tHs.toNat * 1000000) s)

theorem hardStopDetect_notHoming (hh : s.axes[tileAxis k].home = none) : Runs (.hardStopDetect k) s s := by
  show execHardStopDetect k s = _
  unfold tileAxis at hh
  dsimp only [execHardStopDetect]
  rw [hh]
theorem hardStopDetect_homing (hh : s.axes[tileAxis k].home = some h) : Runs (.hardStopDetect k) s
    (if hardStopMet k h s then showLatch (tileAxis k) (hardStopFound (tileAxis k) s) else s) := by
  show execHardStopDetect k s = _
  unfold tileAxis at hh
  dsimp only [execHardStopDetect]
  rw [hh]
  exact (apply_ite Host.Outcome.next ..).symm

theorem hardStopDetect_returns {t0 : Fix} (hh : s.axes[tileAxis k].home = some h)
    (hslow : hardStopSlow s.axes[tileAxis k] h = true) (hst : isStepper s (tileAxis k) = false)
    (ht : h.slowSince = some t0) (hp : hasPassed t0 (s.axes[tileAxis k].regs.tHs.toNat * 1000000) s = true) :
    ∃ t, Runs (.hardStopDetect k) s t ∧ t.axes[tileAxis k].regs.homePhase = 3
      ∧ (t.axes[tileAxis k].home.map fun g => (g.edge, g.known)) =
          some (fixRaw (unwrapped s.axes[tileAxis k]), some (fixRaw (unwrapped s.axes[tileAxis k])))
      ∧ { t with axes := s.axes, freeCtr := s.freeCtr } = s := by
  have hmet : hardStopMet k h s = true := by
    rw [hardStopMet, hslow, hst, runPassed_of_since ht hp]
    rfl
  exact ⟨_, (hardStopDetect_homing hh).trans (congrArg _ (if_pos hmet)),
    (showLatch_homePhase ..).trans (hardStopFound_homePhase ..), showLatch_known (hardStopFound_home hh) rfl,
    showLatch_frame ..⟩

theorem hardStopDetect_none
    (h : s.axes[tileAxis k].home = none ∨ ∃ h, s.axes[tileAxis k].home = some h ∧ h.slowSince = none) :
    Runs (.hardStopDetect k) s s := by
  obtain hh | ⟨h, hh, ht⟩ := h
  · exact hardStopDetect_notHoming hh
  · have hmet : ¬ hardStopMet k h s = true := by
      rw [hardStopMet, runPassed_of_none ht, Bool.and_false]
      decide
    exact (hardStopDetect_homing hh).trans (congrArg _ (if_neg hmet))

end

/-! ### Hold and rest (R208, R612) -/

/-- The axis of this number, physical or virtual. -/
def hostAxis (i : Fin 80) : Fin 112 := i.castLE (by decide)

section
variable {i : Fin 80} {t0 : Fix} {s : State}

theorem axisHoldExpiry_due (ht : s.axes[hostAxis i].holdSince = some t0)
    (hp : hasPassed t0 (s.axes[hostAxis i].regs.holdTime.toNat * 1000000) s = true) :
    Runs (.axisHoldExpiry i) s (disableAxis (hostAxis i) s) :=
  congrArg Host.Outcome.next (if_pos (runPassed_of_since ht hp))
theorem axisHoldExpiry_none (ht : s.axes[hostAxis i].holdSince = none) : Runs (.axisHoldExpiry i) s s :=
  congrArg Host.Outcome.next (if_neg (Bool.eq_false_iff.mp (runPassed_of_none ht)))

theorem inPositionSet_due (ht : s.axes[hostAxis i].restSince = some t0)
    (hp : hasPassed t0 (s.axes[hostAxis i].regs.inPosTime.toNat * 1000) s = true) :
    ∃ t, Runs (.inPositionSet i) s t ∧ t.axes[hostAxis i].inPosition = true ∧ { t with axes := s.axes } = s :=
  ⟨_, congrArg Host.Outcome.next (if_pos (runPassed_of_since ht hp)), congrArg Axis.inPosition (upd_self ..), rfl⟩
theorem inPositionSet_none (ht : s.axes[hostAxis i].restSince = none) : Runs (.inPositionSet i) s s :=
  congrArg Host.Outcome.next (if_neg (Bool.eq_false_iff.mp (runPassed_of_none ht)))

/-! ### A missing mark (R237) -/

/-- How far the master may travel without a mark, in units of 2^-32 count. -/
def missTravel (ax : Axis) : Int := ((ax.regCfg.missLimit.toNat * ax.regCfg.pitch.toNat : Nat) : Int) * 2 ^ 32

/-- The registration holds its offset, and the missing mark is told. -/
def missMark (a : Fin 112) (s : State) : State :=
  raise Ev.markMissing (srcAxis a) s.axes[a].clsMark true 0 0 0 [a] (modAxis a (fun ax => { ax with
    regTarget := ax.follow.regOffset, regStaged := []
    follow := { ax.follow with
      regState := 2, missingSeen := true, regMissCount := satInc ax.follow.regMissCount
      cntOvf := ax.follow.cntOvf || satFull ax.follow.regMissCount } }) s)

theorem markMissing_due (hr : s.axes[hostAxis i].follow.regState = 1)
    (hf : missTravel s.axes[hostAxis i] ≤ s.axes[hostAxis i].regTravel.toInt) :
    Runs (.markMissing i) s (missMark (hostAxis i) s) := by
  refine if_neg ?_
  rw [Bool.or_eq_true, decide_eq_true_eq, decide_eq_true_eq]
  exact not_or.mpr ⟨not_not_intro hr, Int.not_lt.mpr hf⟩
theorem markMissing_none (h : s.axes[hostAxis i].follow.regState ≠ 1
      ∨ s.axes[hostAxis i].regTravel.toInt < missTravel s.axes[hostAxis i]) : Runs (.markMissing i) s s := by
  refine if_pos ?_
  rw [Bool.or_eq_true, decide_eq_true_eq, decide_eq_true_eq]
  exact h

end

/-! ### Direct coefficient words (R264 to R267, R306) -/

section
variable {i : Fin 96} {s : State}

theorem directCoefWrite_waits {c : Fin 7} {v : Word} (ht : s.loops[i].regs.tuning = true) :
    ∃ t, Runs (.directCoefWrite i c v) s t
      ∧ t.loops[i].direct = s.loops[i].direct ++ [{ coef := c, v := v, at_ := s.dt }]
      ∧ t.loops[i].regs = s.loops[i].regs ∧ { t with loops := s.loops } = s := by
  refine ⟨_, congrArg Host.Outcome.next (if_pos ht), ?_, ?_, rfl⟩ <;> rw [modLoop_loops, upd_self]

theorem directCoefWrite_ignored {c : Fin 7} {v : Word} (ht : s.loops[i].regs.tuning = false) :
    ∃ t, Runs (.directCoefWrite i c v) s t ∧ t.loops[i].direct = s.loops[i].direct
      ∧ t.loops[i].regs.dwIgnoredCount = satInc s.loops[i].regs.dwIgnoredCount
      ∧ t.loops[i].regs.dwIgnoredSeen = true ∧ { t with loops := s.loops } = s := by
  refine ⟨_, congrArg Host.Outcome.next (if_neg (Bool.eq_false_iff.mp ht)), ?_, ?_, ?_, rfl⟩ <;>
    rw [modLoopRegs, modLoop_loops, upd_self]

theorem directCoefApply_empty (hd : s.loops[i].direct = []) : Runs (.directCoefApply i) s s := by
  show execDirectCoefApply i s = _
  rw [execDirectCoefApply, hd]
theorem directCoefApply_cons {w : DirectWrite} {ws : List DirectWrite} (hd : s.loops[i].direct = w :: ws) :
    Runs (.directCoefApply i) s (if loopBusy s i then s else applyDirect i w ws s) := by
  show execDirectCoefApply i s = _
  rw [execDirectCoefApply, hd]
theorem directCoefApply_busy (hb : loopBusy s i = true) : Runs (.directCoefApply i) s s := by
  cases hd : s.loops[i].direct with
  | nil => exact directCoefApply_empty hd
  | cons w ws => exact (directCoefApply_cons hd).trans (congrArg _ (if_pos hb))
theorem directCoefApply_oldest {w : DirectWrite} {ws : List DirectWrite} (hd : s.loops[i].direct = w :: ws)
    (hb : loopBusy s i = false) : Runs (.directCoefApply i) s (applyDirect i w ws s) :=
  (directCoefApply_cons hd).trans (congrArg _ (if_neg (Bool.eq_false_iff.mp hb)))

/-! ### A saturated output and an implausible feedback (R257, R269) -/

/-- The saturation is told, and not again in this run. -/
def tellSaturated (i : Fin 96) (s : State) : State :=
  raise Ev.loopOutputSaturated (srcLoop s i) s.loops[i].clsSat true (natWord i.val) 0 0 (loopAxis i).toList
    (modLoop i (fun l => { l with satRaised := true }) s)
/-- The residual is told and counted, and its run begins again. -/
def tellImplausible (i : Fin 96) (s : State) : State :=
  raise Ev.feedbackImplausible (srcLoop s i) s.loops[i].clsSup false (natWord i.val) s.loops[i].supRes 0 (loopAxis i).toList
    (modLoop i (fun l => { l with
      supSince := none
      regs := { l.regs with
        supViolSeen := true, supViolCount := satInc l.regs.supViolCount
        cntOvf := l.regs.cntOvf || satFull l.regs.supViolCount } }) s)

theorem loopOutputSaturated_due {t0 : Fix} (ht : s.loops[i].satSince = some t0)
    (hp : hasPassed t0 (s.loops[i].regs.satTime.toNat * 1000000) s = true) (hr : s.loops[i].satRaised = false)
    (hz : s.loops[i].regs.satTime ≠ 0) : Runs (.loopOutputSaturated i) s (tellSaturated i s) := by
  refine if_pos ?_
  rw [runPassed_of_since ht hp, hr, decide_eq_true hz]
  rfl
theorem loopOutputSaturated_none (h : s.loops[i].satRaised = true ∨ s.loops[i].satSince = none) :
    Runs (.loopOutputSaturated i) s s := by
  refine if_neg ?_
  obtain hr | ht := h
  · rw [hr, Bool.not_true, Bool.and_false, Bool.false_and]
    decide
  · rw [runPassed_of_none ht, Bool.false_and, Bool.false_and]
    decide

theorem feedbackImplausible_due {t0 : Fix} (hm : s.loops[i].regs.supModel ≠ 0) (ha : s.loops[i].regs.supActive = true)
    (ht : s.loops[i].supSince = some t0) (hp : hasPassed t0 (s.loops[i].regs.tSup.toNat * 1000000) s = true) :
    Runs (.feedbackImplausible i) s (tellImplausible i s) := by
  refine if_pos ?_
  rw [runPassed_of_since ht hp, ha, decide_eq_true hm]
  rfl
theorem feedbackImplausible_none (h : s.loops[i].regs.supModel = 0 ∨ s.loops[i].supSince = none) :
    Runs (.feedbackImplausible i) s s := by
  refine if_neg ?_
  obtain hm | ht := h
  · rw [decide_eq_false (not_not_intro hm), Bool.false_and, Bool.false_and]
    decide
  · rw [runPassed_of_none ht, Bool.and_false]
    decide

end

/-! ### A trace with its samples (R274) -/

section
variable {u : Fin 4} {s : State}

theorem traceComplete_runs (h3 : s.traces[u].regs.trState = 3) (hp : s.traces[u].post ≤ s.traces[u].sincePost) :
    ∃ t, Runs (.traceComplete u) s t ∧ t.traces[u].regs.trState = 4 ∧ t.traces[u].regs.completeSeen = true
      ∧ t.events.fabric = s.events.fabric ++ [{ code := Ev.traceComplete, src := srcTrace u, t := s.dt }]
      ∧ { t with traces := s.traces, events := s.events } = s := by
  have hdone : (decide (s.traces[u].regs.trState = 3) && decide (s.traces[u].post ≤ s.traces[u].sincePost)) = true := by
    rw [decide_eq_true h3, decide_eq_true hp]
    rfl
  exact ⟨_, congrArg Host.Outcome.next (if_pos hdone), congrArg (fun x : Trace => x.regs.trState) (upd_self ..),
    congrArg (fun x : Trace => x.regs.completeSeen) (upd_self ..), rfl, rfl⟩
theorem traceComplete_none (h3 : s.traces[u].regs.trState ≠ 3) : Runs (.traceComplete u) s s := by
  refine congrArg Host.Outcome.next (if_neg ?_)
  rw [decide_eq_false h3, Bool.false_and]
  decide

end

/-- Settles O41: each event's condition is the one that its command tests; a known latch keeps the position of its pour as it is
shown, and a busy loop leaves its words where they wait. That nothing happens otherwise is the model's choice (log entry 17). -/
theorem axisAndLoopEventsEndTheirPhase : Obligations.AxisAndLoopEventsEndTheirPhase := by
  constructor
  · intro k i h s ka a far x
    exact ⟨fun _ hh hm hph hst hi hv ht hp => hardStopDetect_returns hh (hardStopSlow_searching hm hph hi hv) hst ht hp,
      hardStopDetect_none, fun _ => axisHoldExpiry_due, axisHoldExpiry_none,
      fun _ => inPositionSet_due, inPositionSet_none, markMissing_due,
      markMissing_none⟩
  · intro i c v w ws u s l
    exact ⟨directCoefWrite_waits, directCoefWrite_ignored, directCoefApply_empty, directCoefApply_busy,
      directCoefApply_oldest, fun _ => loopOutputSaturated_due, loopOutputSaturated_none, fun _ => feedbackImplausible_due,
      feedbackImplausible_none, traceComplete_runs, traceComplete_none⟩

end Sys2Proof.Machine
end

section
/-! PROOF. Exact gearing: what the follower has taken, and what the stage holds in rem and acc for it, together stand at the
exact travel, but for what a conversion loses below the grid of acc (R218, R219, R220). -/

namespace Sys2Proof.Machine

/-! ### Quotients of integers as rationals -/

theorem intCast_div_nonneg_lt_one {x d : Int} (hx : 0 ≤ x) (hlt : x < d) : (0 : Rat) ≤ x / d ∧ (x : Rat) / d < 1 := by
  have hd : 0 < d := Int.lt_of_le_of_lt hx hlt
  constructor
  · rw [← Rat.divInt_eq_div]
    exact Rat.divInt_nonneg hx (Int.le_of_lt hd)
  · rw [Rat.div_lt_iff (Rat.intCast_pos.2 hd), Rat.one_mul]
    exact Rat.intCast_lt_intCast.2 hlt

theorem intCast_div_eq (x : Int) {d : Int} (hd : 0 < d) : (x : Rat) / d = (x / d : Int) + (x % d : Int) / (d : Rat) := by
  have hd' : (0 : Rat) < d := Rat.intCast_pos.2 hd
  have hx : (d : Rat) * (x / d : Int) + (x % d : Int) = x := by
    rw [← Rat.intCast_mul, ← Rat.intCast_add, Int.mul_ediv_add_emod]
  grind

theorem intCast_ediv_bounds (x : Int) {d : Int} (hd : 0 < d) :
    ((x / d : Int) : Rat) ≤ x / (d : Rat) ∧ (x : Rat) / d < (x / d : Int) + 1 := by
  obtain ⟨hlo, hhi⟩ := intCast_div_nonneg_lt_one (Int.emod_nonneg x (Int.ne_of_gt hd)) (Int.emod_lt_of_pos x hd)
  rw [intCast_div_eq x hd]
  constructor <;> grind

/-! ### The ranges of the remainder and the loss (R218, R220) -/

/-- The ranges of a gear stage's denominator, remainder and loss accumulator. -/
structure Gear.InRange (g : Gear) : Prop where
  d_pos : 0 < g.d
  rem_nonneg : 0 ≤ g.rem
  rem_lt : g.rem < g.d
  acc_nonneg : 0 ≤ g.acc
  acc_lt : g.acc < 2 ^ 64

section

variable {g : Gear} {m n1 d1 : Int}

@[simp] theorem Gear.take_n : (g.take m).n = g.n := rfl
@[simp] theorem Gear.take_d : (g.take m).d = g.d := rfl

theorem Gear.InRange.take (hg : g.InRange) : (g.take m).InRange where
  d_pos := hg.d_pos
  rem_nonneg := Int.emod_nonneg _ (Int.ne_of_gt hg.d_pos)
  rem_lt := Int.emod_lt_of_pos _ hg.d_pos
  acc_nonneg := hg.acc_nonneg
  acc_lt := hg.acc_lt

/-! ### A change of ratio (R220) -/

/-- What a conversion to the denominator d1 leaves of the remainder below 1/d1, in units of acc, rounded down. -/
def Gear.loss (g : Gear) (d1 : Int) : Int := g.rem * d1 % g.d * 2 ^ 64 / (g.d * d1)

/-- A change of N alone leaves rem and acc; another converts rem and adds its loss to acc, which pays back one unit of the
increment where it overflows. -/
theorem Gear.change_cases (g : Gear) (n1 d1 : Int) :
    (d1 = g.d ∧ g.change n1 d1 = { g with n := n1 }) ∨
      (d1 ≠ g.d ∧ g.acc + g.loss d1 < 2 ^ 64 ∧
        g.change n1 d1 = { g with n := n1, d := d1, rem := g.rem * d1 / g.d, acc := g.acc + g.loss d1 }) ∨
      (d1 ≠ g.d ∧ 2 ^ 64 ≤ g.acc + g.loss d1 ∧
        g.change n1 d1 = { g with n := n1, d := d1, rem := g.rem * d1 / g.d, acc := g.acc + g.loss d1 - 2 ^ 64,
                                  inc := g.inc + 1 }) := by
  by_cases h : d1 = g.d
  · exact .inl ⟨h, if_pos h⟩
  · by_cases ht : 2 ^ 64 ≤ g.acc + g.loss d1
    · exact .inr (.inr ⟨h, ht, (if_neg h).trans (if_pos ht)⟩)
    · exact .inr (.inl ⟨h, Int.not_le.1 ht, (if_neg h).trans (if_neg ht)⟩)

@[simp] theorem Gear.change_n : (g.change n1 d1).n = n1 := by
  obtain ⟨-, hc⟩ | ⟨-, -, hc⟩ | ⟨-, -, hc⟩ := g.change_cases n1 d1
  all_goals rw [hc]

@[simp] theorem Gear.change_d : (g.change n1 d1).d = d1 := by
  obtain ⟨h, hc⟩ | ⟨-, -, hc⟩ | ⟨-, -, hc⟩ := g.change_cases n1 d1
  · rw [hc, h]
  · rw [hc]
  · rw [hc]

theorem Gear.loss_nonneg (hd : 0 < g.d) (h1 : 0 < d1) : 0 ≤ g.loss d1 :=
  Int.ediv_nonneg (Int.mul_nonneg (Int.emod_nonneg _ (Int.ne_of_gt hd)) (by decide)) (Int.le_of_lt (Int.mul_pos hd h1))

theorem Gear.loss_lt (hd : 0 < g.d) (h1 : 0 < d1) : g.loss d1 < 2 ^ 64 := by
  refine Int.ediv_lt_of_lt_mul (Int.mul_pos hd h1) ?_
  have hmod : g.rem * d1 % g.d < g.d := Int.emod_lt_of_pos _ hd
  have hle : g.d * 1 ≤ g.d * d1 := Int.mul_le_mul_of_nonneg_left h1 (Int.le_of_lt hd)
  omega

theorem Gear.InRange.change (hg : g.InRange) (h1 : 0 < d1) : (g.change n1 d1).InRange := by
  obtain ⟨hd, hr, hrd, ha, hal⟩ := hg
  have hl := Gear.loss_nonneg hd h1
  have hl' := Gear.loss_lt hd h1
  have hrem : 0 ≤ g.rem * d1 / g.d := Int.ediv_nonneg (Int.mul_nonneg hr (Int.le_of_lt h1)) (Int.le_of_lt hd)
  have hrem' : g.rem * d1 / g.d < d1 :=
    Int.ediv_lt_of_lt_mul hd (Int.mul_comm d1 g.d ▸ Int.mul_lt_mul_of_pos_right hrd h1)
  obtain ⟨-, hc⟩ | ⟨-, ht, hc⟩ | ⟨-, ht, hc⟩ := g.change_cases n1 d1
  · rw [hc]
    exact ⟨hd, hr, hrd, ha, hal⟩
  · rw [hc]
    exact ⟨h1, hrem, hrem', Int.add_nonneg ha hl, ht⟩
  · have hpaid : g.acc + g.loss d1 - 2 ^ 64 < 2 ^ 64 := by omega
    rw [hc]
    exact ⟨h1, hrem, hrem', Int.sub_nonneg_of_le ht, hpaid⟩

/-! ### What the stage has taken and holds -/

/-- The increment so far with what the stage still holds of it in rem and acc, in units of 2^-32 count. -/
def Gear.travel (g : Gear) : Rat := g.inc + g.rem / g.d + g.acc / 2 ^ 64

/-- A batch moves the travel by exactly N / D of it (R218). -/
theorem Gear.travel_take (hd : 0 < g.d) : (g.take m).travel = g.travel + (g.n * m : Int) / (g.d : Rat) := by
  have hdiv := intCast_div_eq (g.n * m + g.rem) hd
  rw [Rat.intCast_add] at hdiv
  simp only [Gear.travel, Gear.take, gearPart, Rat.intCast_add]
  grind

/-- The remainder is what the new one holds and what the conversion leaves. -/
theorem Gear.rem_div_eq (hd : 0 < g.d) (h1 : 0 < d1) :
    (g.rem : Rat) / g.d = (g.rem * d1 / g.d : Int) / (d1 : Rat) + (g.rem * d1 % g.d : Int) / (g.d * d1 : Rat) := by
  have hd' : (0 : Rat) < g.d := Rat.intCast_pos.2 hd
  have h1' : (0 : Rat) < d1 := Rat.intCast_pos.2 h1
  have hdiv := intCast_div_eq (g.rem * d1) hd
  rw [Rat.intCast_mul] at hdiv
  grind

/-- The loss is what the conversion leaves, rounded down to the grid of acc. -/
theorem Gear.loss_div_bounds (hd : 0 < g.d) (h1 : 0 < d1) :
    (g.loss d1 : Rat) / 2 ^ 64 ≤ (g.rem * d1 % g.d : Int) / (g.d * d1 : Rat) ∧
      (g.rem * d1 % g.d : Int) / (g.d * d1 : Rat) < g.loss d1 / 2 ^ 64 + 1 / 2 ^ 64 := by
  obtain ⟨hlo, hhi⟩ := intCast_ediv_bounds (g.rem * d1 % g.d * 2 ^ 64) (Int.mul_pos hd h1)
  rw [Rat.intCast_mul _ (2 ^ 64), Rat.intCast_mul g.d, Rat.intCast_pow] at hlo hhi
  unfold Gear.loss
  constructor <;> grind

/-- A change of ratio keeps the travel but for what falls below the grid of acc (R220). -/
theorem Gear.travel_change_bounds (hd : 0 < g.d) (h1 : 0 < d1) :
    g.travel - 1 / 2 ^ 64 ≤ (g.change n1 d1).travel ∧ (g.change n1 d1).travel ≤ g.travel := by
  obtain ⟨hlo, hhi⟩ := Gear.loss_div_bounds hd h1
  have hrem := Gear.rem_div_eq hd h1
  obtain ⟨-, hc⟩ | ⟨-, -, hc⟩ | ⟨-, -, hc⟩ := g.change_cases n1 d1
  all_goals
    rw [hc]
    simp only [Gear.travel, Rat.intCast_add, Rat.intCast_sub, Rat.intCast_pow]
    constructor <;> grind

/-- The rounding of the travel alone: the increment lies less than two units below it (rem / D and acc / 2^64). -/
theorem Gear.InRange.inc_bounds (hg : g.InRange) : (g.inc : Rat) ≤ g.travel ∧ g.travel < g.inc + 2 := by
  obtain ⟨hr, hr'⟩ := intCast_div_nonneg_lt_one hg.rem_nonneg hg.rem_lt
  obtain ⟨ha, ha'⟩ := intCast_div_nonneg_lt_one hg.acc_nonneg hg.acc_lt
  rw [Rat.intCast_pow] at ha ha'
  unfold Gear.travel
  constructor <;> grind

/-! ### A span of batches and changes (R219) -/

theorem gearChanges_batch (l : List (Int ⊕ (Int × Nat))) : gearChanges (.inl m :: l) = gearChanges l := rfl
theorem gearChanges_change (c : Int × Nat) (l : List (Int ⊕ (Int × Nat))) :
    gearChanges (.inr c :: l) = gearChanges l + 1 := rfl

/-- A span keeps the ranges, and moves the travel by the exact one less at most 2^-64 for each change. -/
theorem gearSpan_travel (l : List (Int ⊕ (Int × Nat))) (g : Gear) (hg : g.InRange)
    (hl : ∀ c, Sum.inr c ∈ l → 0 < c.2) :
    (gearSpan l g).InRange ∧
      g.travel + gearExact l g.n g.d - gearChanges l / 2 ^ 64 ≤ (gearSpan l g).travel ∧
      (gearSpan l g).travel ≤ g.travel + gearExact l g.n g.d := by
  induction l generalizing g with
  | nil =>
    have hk : ((gearChanges [] : Nat) : Rat) = 0 := rfl
    rw [gearSpan, gearExact, hk]
    exact ⟨hg, by grind, by grind⟩
  | cons e l ih =>
    have hl' : ∀ c, Sum.inr c ∈ l → 0 < c.2 := fun c hc => hl c (List.mem_cons_of_mem _ hc)
    cases e with
    | inl m =>
      obtain ⟨hr, hlo, hhi⟩ := ih (g.take m) hg.take hl'
      rw [Gear.travel_take hg.d_pos, Gear.take_n, Gear.take_d] at hlo hhi
      rw [gearSpan, gearExact, gearChanges_batch]
      exact ⟨hr, by grind, by grind⟩
    | inr c =>
      have hc : (0 : Int) < c.2 := Int.ofNat_lt.2 (hl c List.mem_cons_self)
      obtain ⟨hlo1, hhi1⟩ := Gear.travel_change_bounds (n1 := c.1) hg.d_pos hc
      obtain ⟨hr, hlo, hhi⟩ := ih (g.change c.1 c.2) (hg.change hc) hl'
      rw [Gear.change_n, Gear.change_d] at hlo hhi
      rw [gearSpan, gearExact, gearChanges_change, Rat.natCast_add]
      exact ⟨hr, by grind, by grind⟩

end

/-- Settles O56: the travel follows the exact value, but for 2^-64 a change, and the increment is the travel but for what rem and
acc hold, at the start and at the end. -/
theorem gearHoldsItsRatioExactly : Obligations.GearHoldsItsRatioExactly := by
  intro l g hd hr hrd ha hal hl
  dsimp only
  have hg : g.InRange := ⟨hd, hr, hrd, ha, hal⟩
  obtain ⟨ht, hlo, hhi⟩ := gearSpan_travel l g hg hl
  obtain ⟨hg0, hg2⟩ := hg.inc_bounds
  obtain ⟨ht0, ht2⟩ := ht.inc_bounds
  rw [Rat.intCast_sub]
  exact ⟨by grind, by grind, ht.d_pos, ht.rem_nonneg, ht.rem_lt, ht.acc_nonneg, ht.acc_lt⟩

end Sys2Proof.Machine
end

section
/-! PROOF. The standard law: OUT within its clamp, and conditional integration within 56 bits (R254 to R256). -/

namespace Sys2Proof.Machine

/-! ### Saturation -/

theorem clampInt_of_mem {lo hi x : Int} (h : lo ≤ x) (h' : x ≤ hi) : clampInt lo hi x = x :=
  (if_neg (Int.not_lt.2 h)).trans (if_neg (Int.not_lt.2 h'))

theorem clampInt_mem {lo hi : Int} (h : lo ≤ hi) (x : Int) : lo ≤ clampInt lo hi x ∧ clampInt lo hi x ≤ hi := by
  unfold clampInt
  split
  · exact ⟨Int.le_refl _, h⟩
  · split <;> omega

theorem clampInt_ne_iff {lo hi : Int} (h : lo ≤ hi) (x : Int) : clampInt lo hi x ≠ x ↔ x < lo ∨ hi < x := by
  constructor
  · intro hne
    exact Decidable.byContradiction fun hin => hne (clampInt_of_mem (by omega) (by omega))
  · intro hout heq
    have hin := clampInt_mem h x
    omega

theorem sat56_of_mem {x : Int} (h : -2 ^ 55 ≤ x) (h' : x < 2 ^ 55) : sat56 x = x := clampInt_of_mem h (Int.le_sub_one_of_lt h')

theorem sat56_mem (x : Int) : -2 ^ 55 ≤ sat56 x ∧ sat56 x < 2 ^ 55 :=
  (clampInt_mem (by decide) x).imp_right Int.lt_of_le_sub_one

theorem sat56_ne_iff (x : Int) : sat56 x ≠ x ↔ x < -2 ^ 55 ∨ 2 ^ 55 ≤ x :=
  (clampInt_ne_iff (by decide) x).trans (or_congr_right Int.sub_one_lt_iff)

/-- A flag of a status word stands in its own bit alone. -/
theorem getElem_bitAt (b : Bool) (k : Nat) {i : Nat} (hi : i < 32) : (bitAt b k)[i] = (b && decide (i = k)) := by
  cases b with
  | false => exact BitVec.getElem_zero hi
  | true =>
    have hshift : (bitAt true k)[i] = (!decide (i < k) && (1#32)[i - k]) := BitVec.getElem_shiftLeft hi
    rw [hshift, BitVec.getElem_one, Bool.eq_iff_iff]
    simp only [Bool.and_eq_true, Bool.not_eq_true', decide_eq_true_iff, decide_eq_false_iff_not, true_and]
    omega

/-- In the FLAGS of a context, bit 2 is SAT_I whatever the other nodes did (R304). -/
theorem flagsWord_satI (err p i d ff sum out : Bool) :
    (bitAt err 0 ||| bitAt p 1 ||| bitAt i 2 ||| bitAt d 3 ||| bitAt ff 4 ||| bitAt sum 5 ||| bitAt out 6).getLsbD 2 = i := by
  simp [getElem_bitAt]

/-! ### The output clamp (R254) -/

/-- A word held within OUT_MIN and OUT_MAX. -/
def clampWord (lo hi want : Word) : Word := if hi.toInt < want.toInt then hi else if want.toInt < lo.toInt then lo else want

theorem clampWord_toInt (lo hi want : Word) : (clampWord lo hi want).toInt
    = if hi.toInt < want.toInt then hi.toInt else if want.toInt < lo.toInt then lo.toInt else want.toInt := by
  rw [clampWord, apply_ite BitVec.toInt, apply_ite BitVec.toInt]

section
variable {lo hi want : Word}

theorem clampWord_mem (h : lo.toInt ≤ hi.toInt) :
    lo.toInt ≤ (clampWord lo hi want).toInt ∧ (clampWord lo hi want).toInt ≤ hi.toInt := by
  unfold clampWord
  split
  · exact ⟨h, Int.le_refl _⟩
  · split <;> omega

theorem clampWord_of_mem (h : lo.toInt ≤ want.toInt) (h' : want.toInt ≤ hi.toInt) : clampWord lo hi want = want :=
  (if_neg (Int.not_lt.2 h')).trans (if_neg (Int.not_lt.2 h))

theorem clampWord_above (h : hi.toInt < want.toInt) : clampWord lo hi want = hi := if_pos h

theorem clampWord_below (h : lo.toInt ≤ hi.toInt) (h' : want.toInt < lo.toInt) : clampWord lo hi want = lo :=
  (if_neg (by omega)).trans (if_pos h')

end

/-- What the clamp of OUT is given: MAN_OUT in MANUAL, SUM in every other mode (R254, R259). -/
def wantedOut (get : Nat → Word) (mode : BitVec 2) (sum : Word) : Word := if mode = 1 then get 9 else sum

theorem wantedOut_of_ne {mode : BitVec 2} (h : mode ≠ 1) (get : Nat → Word) (sum : Word) : wantedOut get mode sum = sum :=
  if_neg h

theorem wantedOut_toInt (get : Nat → Word) (mode : BitVec 2) (sum : Word) :
    (wantedOut get mode sum).toInt = if mode = 1 then (get 9).toInt else sum.toInt :=
  apply_ite BitVec.toInt ..

section
variable (get : Nat → Word) (l : Loop) (mode : BitVec 2) (first : Bool) (x : LawIn)

theorem law_out : (law get l mode first x).nodes.getD 6 0
    = clampWord x.lo x.hi (wantedOut get mode ((law get l mode first x).nodes.getD 5 0)) := by
  simp only [law, List.getD_cons_succ, List.getD_cons_zero, ← wantedOut_toInt, ← clampWord_toInt, BitVec.ofInt_toInt]

theorem law_high : (law get l mode first x).high
    = decide (x.hi.toInt < (wantedOut get mode ((law get l mode first x).nodes.getD 5 0)).toInt) := by
  simp only [law, List.getD_cons_succ, List.getD_cons_zero, ← wantedOut_toInt, BitVec.ofInt_toInt]

theorem law_low : (law get l mode first x).low
    = decide ((wantedOut get mode ((law get l mode first x).nodes.getD 5 0)).toInt < x.lo.toInt) := by
  simp only [law, List.getD_cons_succ, List.getD_cons_zero, ← wantedOut_toInt, BitVec.ofInt_toInt]

/-! ### Conditional integration (R256) -/

/-- The step of the integrator: KI times ERR. -/
def integratorStep (err : Word) : Int := (get 0x21).toInt * err.toInt

/-- Hold_i: OUT was clamped on the side to which the step points. -/
def holdI (step : Int) : Bool := (l.clampHi && decide (0 < step)) || (l.clampLo && decide (step < 0))

theorem holdI_iff (step : Int) :
    holdI l step = true ↔ (l.clampHi = true ∧ 0 < step) ∨ (l.clampLo = true ∧ step < 0) := by
  simp only [holdI, Bool.or_eq_true, Bool.and_eq_true, decide_eq_true_iff]

/-- The integrator as the context holds it. -/
def heldAcc : Int := ((get 0x0D) ++ (get 0x0C)).toInt

/-- The integrator of a tick in AUTO before its saturation. -/
def autoAcc (err : Word) : Int :=
  if holdI l (integratorStep get err) then heldAcc get else heldAcc get + integratorStep get err

theorem autoAcc_held {err : Word} (h : holdI l (integratorStep get err) = true) : autoAcc get l err = heldAcc get := if_pos h

theorem autoAcc_integrates {err : Word} (h : holdI l (integratorStep get err) ≠ true) :
    autoAcc get l err = heldAcc get + integratorStep get err := if_neg h

theorem law_iAcc_mem : -2 ^ 55 ≤ (law get l mode first x).iAcc ∧ (law get l mode first x).iAcc < 2 ^ 55 := sat56_mem _

theorem law_err : (law get l mode first x).nodes.getD 0 0 = sat32 (shiftIn (clampInt (-16) 15 (get 0x27).toInt) x.x) :=
  BitVec.ofInt_toInt

theorem law_iAcc_auto : (law get l 0 false x).iAcc = sat56 (autoAcc get l ((law get l 0 false x).nodes.getD 0 0)) := by
  rw [law_err]
  rfl

/-- SAT_I is the flag of an integrator that its saturation has changed (R254, R304). -/
theorem law_satI_auto : (law get l 0 false x).flags.getLsbD 2 = true
    ↔ (law get l 0 false x).iAcc ≠ autoAcc get l ((law get l 0 false x).nodes.getD 0 0) := by
  rw [law_err]
  have hbit : (law get l 0 false x).flags.getLsbD 2 = decide ((law get l 0 false x).iAcc ≠ autoAcc get l _) :=
    flagsWord_satI ..
  rw [hbit, decide_eq_true_iff]

end

/-! ### The tick of a loop -/

@[simp] theorem ctxPut_loops (e : Fin 32) (c w : Nat) (v : Word) (s : State) : (ctxPut e c w v s).loops = s.loops := rfl
@[simp] theorem ctxPuts_loops (e : Fin 32) (c w : Nat) (vs : List Word) (s : State) : (ctxPuts e c w vs s).loops = s.loops := rfl
@[simp] theorem ctxFlag_loops (e : Fin 32) (c : Nat) (v : Word) (s : State) : (ctxFlag e c v s).loops = s.loops := rfl
@[simp] theorem note_loops (code src : BitVec 16) (p0 p1 p2 : Word) (s : State) :
    (note code src p0 p1 p2 s).loops = s.loops := rfl
@[simp] theorem modLoopRegs_loops (i : Fin 96) (f : LoopRegs → LoopRegs) (s : State) :
    (modLoopRegs i f s).loops = upd s.loops i fun l => { l with regs := f l.regs } := rfl

/-- The tick keeps at which limit it clamped OUT; a residual of its preset counts in the loop's registers alone. -/
theorem runLaw_clamps (i : Fin 96) (e : Fin 32) (c : Nat) (x : LawIn) (s : State) :
    let m := ctxGet s e c 0x14
    let r := law (ctxGet s e c) s.loops[i] (m.extractLsb' 0 2) (m.getLsbD 4) x
    (runLaw i e c x s).loops[i].clampHi = r.high ∧ (runLaw i e c x s).loops[i].clampLo = r.low := by
  unfold runLaw
  dsimp only
  split
  case h_1 =>
    simp only [note_loops, modLoopRegs_loops, modLoop_loops, upd_self, and_self]
  case h_2 =>
    simp only [modLoop_loops, upd_self, and_self]

/-- Settles O57: OUT is SUM through the output clamp in every mode but MANUAL, and the integrator of a tick in AUTO is its
saturated next value, which hold_i keeps at the old one. -/
theorem loopLawClampsAndHolds : Obligations.LoopLawClampsAndHolds := by
  unfold Obligations.LoopLawClampsAndHolds
  refine ⟨fun get l mode first x hlim => ?_, runLaw_clamps⟩
  intro r err sum out ki acc hold
  have hout : out = clampWord x.lo x.hi (wantedOut get mode sum) := law_out get l mode first x
  have hhigh : r.high = decide (x.hi.toInt < (wantedOut get mode sum).toInt) := law_high get l mode first x
  have hlow : r.low = decide ((wantedOut get mode sum).toInt < x.lo.toInt) := law_low get l mode first x
  refine ⟨hout ▸ clampWord_mem hlim, fun hm hge hle => ?within, fun hm hgt => ?above, fun hm hlt => ?below,
    law_iAcc_mem get l mode first x, fun hm hf hge hlt => ?integrator⟩
  case within =>
    rw [wantedOut_of_ne hm] at hout hhigh hlow
    exact ⟨hout.trans (clampWord_of_mem hge hle), hhigh.trans (decide_eq_false (Int.not_lt.2 hle)),
      hlow.trans (decide_eq_false (Int.not_lt.2 hge))⟩
  case above =>
    rw [wantedOut_of_ne hm] at hout hhigh
    exact ⟨hout.trans (clampWord_above hgt), hhigh.trans (decide_eq_true hgt)⟩
  case below =>
    rw [wantedOut_of_ne hm] at hout hlow
    exact ⟨hout.trans (clampWord_below hlim hlt), hlow.trans (decide_eq_true hlt)⟩
  case integrator =>
    subst hm hf
    have hacc : r.iAcc = sat56 (autoAcc get l (r.nodes.getD 0 0)) := law_iAcc_auto get l x
    have hsat : _ ↔ r.iAcc ≠ autoAcc get l (r.nodes.getD 0 0) := law_satI_auto get l x
    have hiff : holdI l (integratorStep get (r.nodes.getD 0 0)) = true ↔ hold := holdI_iff ..
    rw [← hiff]
    constructor
    · intro hh
      rw [autoAcc_held get l hh] at hacc
      exact hacc.trans (sat56_of_mem hge hlt)
    · intro hh
      rw [autoAcc_integrates get l hh] at hacc hsat
      exact ⟨hacc, hsat.trans (hacc ▸ sat56_ne_iff _)⟩

end Sys2Proof.Machine
end

section
/-! PROOF. Words in memory: what a write of words leaves at their addresses, elsewhere, and in the memories of the other clusters
(R285, R288). -/

namespace Sys2Proof.Machine

/-! ### One word -/

/-- The four bytes of a word, put together. -/
theorem word_bytes_append (v : Word) :
    v.extractLsb' 24 8 ++ v.extractLsb' 16 8 ++ v.extractLsb' 8 8 ++ v.extractLsb' 0 8 = v := by
  rw [BitVec.extractLsb'_append_extractLsb'_eq_extractLsb' (by rfl), BitVec.extractLsb'_append_extractLsb'_eq_extractLsb' (by rfl),
    BitVec.extractLsb'_append_extractLsb'_eq_extractLsb' (by rfl), BitVec.extractLsb'_eq_self]

theorem memWord_memPutWord_self {m : Mem} {a : Nat} {v : Word} (h : memWf m = true) :
    memWord (memPutWord m a v) a = v := by
  have h0 := memPut_wf (4 * a) (v.extractLsb' 0 8) h
  have h1 := memPut_wf (4 * a + 1) (v.extractLsb' 8 8) h0
  have h2 := memPut_wf (4 * a + 2) (v.extractLsb' 16 8) h1
  unfold memWord memPutWord
  rw [memByte_memPut_self h2, memByte_memPut_ne (by omega), memByte_memPut_self h1, memByte_memPut_ne (by omega),
    memByte_memPut_ne (by omega), memByte_memPut_self h0, memByte_memPut_ne (by omega), memByte_memPut_ne (by omega),
    memByte_memPut_ne (by omega), memByte_memPut_self h]
  exact word_bytes_append v

theorem memByte_memPutWord_ne {m : Mem} {a b : Nat} {v : Word} (h : b < 4 * a ∨ 4 * (a + 1) ≤ b) :
    memByte (memPutWord m a v) b = memByte m b := by
  unfold memPutWord
  rw [memByte_memPut_ne (by omega), memByte_memPut_ne (by omega), memByte_memPut_ne (by omega), memByte_memPut_ne (by omega)]

/-- A word is its four bytes. -/
theorem memWord_congr {m m' : Mem} {a : Nat} (h : ∀ b, 4 * a ≤ b → b < 4 * (a + 1) → memByte m b = memByte m' b) :
    memWord m a = memWord m' a := by
  unfold memWord
  rw [h _ (by omega) (by omega), h _ (by omega) (by omega), h _ (by omega) (by omega), h _ (by omega) (by omega)]

/-! ### A run of words -/

theorem memPutWords_wf {m : Mem} (a : Nat) (vs : List Word) (h : memWf m = true) : memWf (memPutWords m a vs) = true := by
  induction vs generalizing m a with
  | nil => exact h
  | cons v vs ih => exact ih (a + 1) (memPutWord_wf a v h)

theorem memByte_memPutWords_outside {m : Mem} {a b : Nat} {vs : List Word} (h : b < 4 * a ∨ 4 * (a + vs.length) ≤ b) :
    memByte (memPutWords m a vs) b = memByte m b := by
  induction vs generalizing m a with
  | nil => rfl
  | cons v vs ih =>
    rw [List.length_cons] at h
    exact (ih (by omega)).trans (memByte_memPutWord_ne (by omega))

theorem memWord_memPutWords_outside {m : Mem} {a b : Nat} {vs : List Word} (h : b < a ∨ a + vs.length ≤ b) :
    memWord (memPutWords m a vs) b = memWord m b :=
  memWord_congr fun _ hl hr => memByte_memPutWords_outside (by omega)

theorem memWord_memPutWords_at {m : Mem} {a i : Nat} {vs : List Word} (hm : memWf m = true) (hi : i < vs.length) :
    memWord (memPutWords m a vs) (a + i) = vs[i] := by
  induction vs generalizing m a i with
  | nil => exact absurd hi (Nat.not_lt_zero i)
  | cons v vs ih =>
    cases i with
    | zero => exact (memWord_memPutWords_outside (.inl (Nat.lt_succ_self a))).trans (memWord_memPutWord_self hm)
    | succ i =>
      rw [List.getElem_cons_succ, Nat.add_comm i 1, ← Nat.add_assoc]
      exact ih (memPutWord_wf a v hm) (Nat.lt_of_succ_lt_succ hi)

theorem memWords_memPutWords {m : Mem} {a : Nat} {vs : List Word} (hm : memWf m = true) :
    memWords (memPutWords m a vs) a vs.length = vs := by
  refine List.ext_getElem (by simp [memWords]) fun i _ hi => ?_
  simp only [memWords, List.getElem_map, List.getElem_range]
  exact memWord_memPutWords_at hm hi

/-! ### Port memory -/

theorem memWord_tilePut {t : Fin 16} {w : Nat} {v : Word} {s : State} (h : memWf s.portMem[tileCluster t] = true) :
    memWord (tilePut t w v s).portMem[tileCluster t] (tileWord t w) = v := by
  unfold tilePut portPut
  rw [upd_self]
  exact memWord_memPutWord_self h

theorem tilePut_portMem_ne {t : Fin 16} {c : Fin 4} (w : Nat) (v : Word) (s : State) (h : c ≠ tileCluster t) :
    (tilePut t w v s).portMem[c] = s.portMem[c] :=
  upd_ne _ _ h

/-- Settles O55: by induction on the words, each written past those before it. -/
theorem wordsWrittenAreReadBack : Obligations.WordsWrittenAreReadBack := by
  unfold Obligations.WordsWrittenAreReadBack
  intro m a b i vs t w v s hm
  refine ⟨memPutWords_wf a vs hm, fun hi => ?_, memByte_memPutWords_outside, memWord_memPutWords_outside,
    memWords_memPutWords hm, memWord_tilePut, fun _ hc => tilePut_portMem_ne w v s hc⟩
  rw [memWord_memPutWords_at hm hi, List.getD_eq_getElem?_getD, List.getElem?_eq_getElem hi, Option.getD_some]

end Sys2Proof.Machine
end

section
/-! PROOF. Instructions of the loop engines that are done in their own slot: the ALU, the shifts, compares, moves and the
accumulators (R283, R284, R291, R294). -/

namespace Sys2Proof.Machine

/-! ### One slot -/

/-- The issue of an instruction with nothing underway is one slot with the change f. -/
theorem plain_slot {e : Fin 32} {s : State} {slotOk repOk : Bool} {body : Engine → State → LeOut} {f : Engine → Engine}
    {l : List Late} {c : Nat} (h : Plain s.engines[e]) (hb : body s.engines[e] s = .done (f s.engines[e]) l c)
    (hp : (f s.engines[e]).pc = s.engines[e].pc) : issue e slotOk repOk body s = leSlot e l c f s :=
  (plain_issue h hb hp).trans (modEngine_congr rfl)

section
variable {i : Instr} {e : Fin 32} {s : State} {d : Fin 16} {r : Alu}

/-- An ALU instruction whose result is r. -/
theorem alu_runs {g : Engine → Alu} (hi : exec i s = .next (issue e true true (fun en _ => aluOut en d (g en)) s))
    (h : Plain s.engines[e]) (hr : g s.engines[e] = r) : Runs i s (aluSlot e d r s) :=
  plain_runs hi h (by subst hr; rfl) (by simp)

/-- The same where the result takes in a free value. -/
theorem alu_runs_free {g : Engine → State → Alu}
    (hi : exec i s = .next (issueFree e (fun en s => aluOut en d (g en s)) s)) (h : Plain s.engines[e])
    (hr : g s.engines[e] s = r) : Runs i s (aluSlot e d r (drawn s)) :=
  plain_runs_free hi h (by subst hr; rfl) (by simp)

end

/-- Settles O19: each result of the ALU is the one that its row of R291 names. -/
theorem leAluInstructionsGiveResultAndFlags : Obligations.LeAluInstructionsGiveResultAndFlags := by
  unfold Obligations.LeAluInstructionsGiveResultAndFlags
  intro e d a b imm s h
  and_intros <;> exact alu_runs rfl h rfl

/-! ### Shifts and CLAMP -/

/-- From a count of 32 on, the last bit that an arithmetic shift drops is the sign. -/
theorem aluAsr_eq (x : Word) (n : Nat) (c : Bool) :
    aluAsr x n c = { val := x.sshiftRight n, c := some (if n = 0 then c else x.getLsbD (min n 32 - 1)) } := by
  have hc : (if n ≤ 32 then x.getLsbD (n - 1) else x.msb) = x.getLsbD (min n 32 - 1) := by
    split
    · next h => rw [Nat.min_eq_left h]
    · next h => rw [Nat.min_eq_right (by omega), BitVec.msb_eq_getLsbD_last]
  unfold aluAsr
  rw [hc]

/-- Settles O20: the free bit that the shift draws is C where the count is 0 (log entry 95). -/
theorem leShiftsGiveResultAndCarry : Obligations.LeShiftsGiveResultAndCarry := by
  unfold Obligations.LeShiftsGiveResultAndCarry
  intro e d a b imm s h
  exact ⟨freeBool s, alu_runs_free rfl h rfl, alu_runs_free rfl h rfl, alu_runs_free rfl h (aluAsr_eq ..),
    alu_runs_free rfl h rfl, alu_runs_free rfl h rfl, alu_runs_free rfl h (aluAsr_eq ..)⟩

/-- CLAMP changes its operand alone, says so, and its result lies within ordered bounds. -/
theorem aluClamp_eq (x lo hi : Word) : ∃ r : Word, aluClamp x lo hi = { val := r, c := some (r != x), satg := r != x }
    ∧ (lo.toInt ≤ hi.toInt → lo.toInt ≤ r.toInt ∧ r.toInt ≤ hi.toInt)
    ∧ (lo.toInt ≤ x.toInt → x.toInt ≤ hi.toInt → r = x) := by
  refine ⟨_, rfl, fun h => ?within, fun hlo hhi => ?inside⟩
  case within => split <;> split <;> omega
  case inside => rw [if_neg (Int.not_lt.2 hlo), if_neg (Int.not_lt.2 hhi)]

/-- Settles O21: each changes SR, Gd or an address register by one write in its slot. -/
theorem leMovesComparesAndClampsChangeOneThing : Obligations.LeMovesComparesAndClampsChangeOneThing := by
  unfold Obligations.LeMovesComparesAndClampsChangeOneThing
  refine ⟨fun e d a b imm h k i s hs => ?moves, fun e d a b s hs => ?clamp⟩
  case moves =>
    and_intros <;> exact plain_runs rfl hs rfl (by simp)
  case clamp =>
    obtain ⟨r, hr, hwithin, hinside⟩ := aluClamp_eq (s.engines[e].g d) (s.engines[e].g a) (s.engines[e].g b)
    exact ⟨r, alu_runs rfl hs hr, hwithin, hinside⟩

/-! ### Accumulators -/

/-- ASRA by a signed count: to the left where it is negative. -/
theorem asra_eq (x : Int) (sh : BitVec 6) :
    (if sh.msb then x * 2 ^ (-sh.toInt).toNat else shrInt x sh.toNat)
      = if sh.toInt < 0 then x * 2 ^ sh.toInt.natAbs else x / 2 ^ sh.toNat := by
  rw [BitVec.msb_eq_toInt]
  by_cases h : sh.toInt < 0
  · have hn : (-sh.toInt).toNat = sh.toInt.natAbs := by omega
    simp only [h, decide_true, if_true, hn]
  · simp only [h, decide_false, if_false, shrInt, Bool.false_eq_true]

theorem sataOut_eq {en : Engine} {n : Bool} {w : BitVec 6} (h : 2 ≤ w.toNat) :
    sataOut en n w = .done ((en.putAc n (BitVec.ofInt 80 (satBits w.toNat (en.ac n).toInt))).putSr
      (srStick (if n then 10 else 9) (satBits w.toNat (en.ac n).toInt != (en.ac n).toInt) en.sr)) [] 1 :=
  if_neg (Nat.not_lt.2 h)

/-- Settles O23: each sum and product is exact before setAc saturates it. -/
theorem leAccumulatorsTakeExactResults : Obligations.LeAccumulatorsTakeExactResults := by
  unfold Obligations.LeAccumulatorsTakeExactResults
  intro e n m a b c d sh s h
  exact ⟨plain_runs rfl h rfl (setAc_pc ..), plain_runs rfl h rfl (setAc_pc ..), plain_runs rfl h rfl (setAc_pc ..),
    plain_runs rfl h rfl (setAc_pc ..), plain_runs rfl h rfl ((setAc_pc ..).trans (setAc_pc ..)),
    plain_runs rfl h rfl (setAc_pc ..),
    plain_runs rfl h (congrArg (fun x => LeOut.done (s.engines[e].setAc n x) [] 1) (asra_eq ..)) (setAc_pc ..),
    plain_runs rfl h rfl (putAc_pc ..), plain_runs rfl h rfl (putAc_pc ..),
    fun hw => plain_runs rfl h (sataOut_eq hw) ((putSr_pc ..).trans (putAc_pc ..))⟩

end Sys2Proof.Machine
end

section
/-! PROOF. Loads and stores of the loop engines (R285 to R288, R291, R294). -/

namespace Sys2Proof.Machine

/-! ### The address map (R285) -/

theorem regionOf_data {a : Nat} (h : a < 0x4000) : regionOf a = .data := if_pos h
theorem regionOf_port {a : Nat} (h : 0x4000 ≤ a) (h' : a < 0x4400) : regionOf a = .port :=
  (if_neg (Nat.not_lt.2 h)).trans (if_pos h')

theorem allIn_none {r : Region} {a n : Nat} (h : ∀ i < n, regionOf (a + i) = r) : allIn r a n = none := by
  have hf : (List.range n).find? (fun i => regionOf (a + i) ≠ r) = none :=
    List.find?_eq_none.2 fun i hi => by simp [h i (List.mem_range.1 hi)]
  unfold allIn
  rw [hf]
theorem allIn_data {a n : Nat} (h : a + n ≤ 0x4000) : allIn .data a n = none :=
  allIn_none fun _ _ => regionOf_data (by omega)

/-! ### Loads -/

section
variable {s : State} {e : Fin 32} {en : Engine} {a : Nat}

theorem readWord_data (h : a < 0x4000) : readWord s e en a = some (dataWord en a, 2, en) := by
  unfold readWord
  rw [regionOf_data h]
theorem readWord_port (h : 0x4000 ≤ a) (h' : a < 0x4400) :
    readWord s e en a = some (portGet s (engineCluster e) a, 4, en) := by
  unfold readWord
  rw [regionOf_port h h']

theorem loadG_data (d : Fin 16) (h : a < 0x4000) : loadG s e en d a = .done en [lateG en d (dataWord en a) 2] 1 := by
  unfold loadG
  rw [readWord_data h]
theorem loadG_port (d : Fin 16) (h : 0x4000 ≤ a) (h' : a < 0x4400) :
    loadG s e en d a = .done en [lateG en d (portGet s (engineCluster e) a) 4] 1 := by
  unfold loadG
  rw [readWord_port h h']

theorem ldpOut_data (d : Fin 16) {pi : Fin 8} (h : en.p[pi].toNat < 0x4000) :
    ldpOut s e en d pi = .done (en.modP pi) [lateG en d (dataWord en en.p[pi].toNat) 2] 1 := by
  unfold ldpOut
  rw [loadG_data d h]
theorem lddOut_data {d : Fin 16} (h : a + 1 < 0x4000) (hd : d.val % 2 = 0) :
    lddOut en d a = .done en [lateG en d (dataWord en a) 2, lateG en (d + 1) (dataWord en (a + 1)) 2] 1 := by
  have hodd : d.val % 2 ≠ 1 := by omega
  unfold lddOut
  rw [if_neg hodd, allIn_data h]
theorem mldOut_data (n : Bool) (x y c g : Fin 16) {pi pj : Fin 8} (hi : en.p[pi].toNat < 0x4000)
    (hj : (en.modP pi).p[pj].toNat < 0x4000) :
    mldOut en n x y c pi g pj = .done (((en.modP pi).modP pj).setAc n ((en.ac n).toInt + prod en x y))
      [lateG en c (dataWord en en.p[pi].toNat) 2, lateG en g (dataWord en (en.modP pi).p[pj].toNat) 2] 1 := by
  unfold mldOut
  dsimp only
  rw [allIn_data hi, allIn_data hj]
theorem ldacOut_data (n : Bool) (h : a + 2 < 0x4000) :
    ldacOut s e en n a = .done en [{ dest := .ac n, shadow := false
                                     val := (dataWord en (a + 2)).extractLsb' 0 16 ++ dataWord en (a + 1) ++ dataWord en a
                                     left := 2 }] 2 := by
  unfold ldacOut
  rw [readWord_data (by omega)]
  dsimp only
  rw [readWord_data (by omega)]
  dsimp only
  rw [readWord_data h]

/-- The four registers of a group and their places in it. -/
theorem map_regGroup {α : Type} (d : Fin 16) (f : Fin 16 → Nat → α) :
    ((List.range 4).map fun i => f (d + Fin.ofNat 16 i) i) = [f d 0, f (d + 1) 1, f (d + 2) 2, f (d + 3) 3] :=
  congrArg (fun g => [f g 0, f (d + 1) 1, f (d + 2) 2, f (d + 3) 3]) (Fin.add_zero d)

/-- An aligned group of port words lies in port memory as a whole. -/
theorem groupAt_port (h : 0x4000 ≤ a) (h' : a < 0x4400) (h4 : a % 4 = 0) : groupAt a = none :=
  (if_pos h4).trans (allIn_none fun _ _ => regionOf_port (by omega) (by omega))
theorem ldqOut_port {d : Fin 16} (h : 0x4000 ≤ a) (h' : a < 0x4400) (h4 : a % 4 = 0) (hd : d.val % 4 = 0) :
    ldqOut s e en d a = .done en [lateG en d (portGet s (engineCluster e) a) 4,
      lateG en (d + 1) (portGet s (engineCluster e) (a + 1)) 4, lateG en (d + 2) (portGet s (engineCluster e) (a + 2)) 4,
      lateG en (d + 3) (portGet s (engineCluster e) (a + 3)) 4] 1 := by
  unfold ldqOut
  rw [if_neg (Decidable.not_not.2 hd), groupAt_port h h' h4]
  exact congrArg (LeOut.done en · 1) (map_regGroup d fun g i => lateG en g (portGet s (engineCluster e) (a + i)) 4)

/-! ### Stores -/

theorem storeWord_data (v : Word) (h : a < 0x4000) :
    storeWord s e en a v = .done { en with data := memPutWord en.data a v } [] 1 := by
  unfold storeWord
  rw [regionOf_data h]

/-- Consecutive words of data memory are stored one after the other. -/
theorem storeWords_data (late : List Late) {vs : List Word} (h : a + vs.length ≤ 0x4000) :
    storeWords s e en a vs late = .done { en with data := memPutWords en.data a vs } late 1 := by
  induction vs generalizing en a late with
  | nil => rfl
  | cons v vs ih =>
    rw [List.length_cons] at h
    unfold storeWords
    rw [storeWord_data v (by omega)]
    exact (ih (late ++ []) (by omega)).trans (by rw [List.append_nil]; rfl)

theorem stpOut_data (g : Fin 16) {pi : Fin 8} (h : en.p[pi].toNat < 0x4000) :
    stpOut s e en g pi
      = .done (Engine.modP pi { en with data := memPutWord en.data en.p[pi].toNat (en.g g) }) [] 1 := by
  unfold stpOut
  rw [storeWord_data _ h]
theorem stdOut_data {d : Fin 16} (h : a + 1 < 0x4000) (hd : d.val % 2 = 0) :
    stdOut en d a = .done { en with data := memPutWords en.data a [en.g d, en.g (d + 1)] } [] 2 := by
  have hodd : d.val % 2 ≠ 1 := by omega
  unfold stdOut
  rw [if_neg hodd, allIn_data h]

/-- The three words of STAC: [31:0], [63:32] and sext([79:64]) of ACn, one slot behind. -/
def Engine.acWords (en : Engine) (n : Bool) : List Word :=
  [(en.lag n).extractLsb' 0 32, (en.lag n).extractLsb' 32 32, ((en.lag n).extractLsb' 64 16).signExtend 32]
theorem stacOut_data (n : Bool) (h : a + 2 < 0x4000) :
    stacOut s e en n a = .done { en with data := memPutWords en.data a (en.acWords n) } [] 3 := by
  have hw : storeWords s e en a (en.acWords n) [] = .done { en with data := memPutWords en.data a (en.acWords n) } [] 1 :=
    storeWords_data [] (show a + 3 ≤ 0x4000 by omega)
  unfold Engine.acWords at hw ⊢
  unfold stacOut
  dsimp only
  rw [hw]

/-- The engine's own mailbox (R288). -/
def InMailbox (e : Fin 32) (a : Nat) : Prop := 0x4300 + 0x20 * (e.val % 8) ≤ a ∧ a < 0x4320 + 0x20 * (e.val % 8)
/-- A store of a mailbox word on its way. -/
def boxLate (a : Nat) (v : Word) : Late :=
  { dest := .port (BitVec.ofNat 16 a), shadow := false, val := v.zeroExtend 80, left := 2 }

theorem InMailbox.port (h : InMailbox e a) : 0x4000 ≤ a ∧ a < 0x4400 := by
  obtain ⟨hl, hr⟩ := h
  omega
theorem InMailbox.group {i : Nat} (h : InMailbox e a) (h4 : a % 4 = 0) (hi : i < 4) : InMailbox e (a + i) := by
  obtain ⟨hl, hr⟩ := h
  exact ⟨by omega, by omega⟩

theorem portStore_mailbox (h : InMailbox e a) : portStore s e a = .store := by
  obtain ⟨hl, hr⟩ := h
  have hown : ownMailbox e a = true := decide_eq_true (by omega)
  exact (if_pos (by omega)).trans (if_pos hown)
theorem storeWord_mailbox (v : Word) (h : InMailbox e a) : storeWord s e en a v = .done en [boxLate a v] 1 := by
  unfold storeWord
  rw [regionOf_port h.port.1 h.port.2]
  dsimp only
  rw [portStore_mailbox h]
  rfl

theorem storeWords_mailbox (late : List Late) {vs : List Word} (h : ∀ i < vs.length, InMailbox e (a + i)) :
    storeWords s e en a vs late = .done en (late ++ vs.mapIdx fun i v => boxLate (a + i) v) 1 := by
  induction vs generalizing a late with
  | nil => exact congrArg (LeOut.done en · 1) (List.append_nil late).symm
  | cons v vs ih =>
    have hnext : ∀ i < vs.length, InMailbox e (a + 1 + i) := fun i hi => by
      rw [Nat.add_assoc, Nat.add_comm 1 i]
      exact h (i + 1) (Nat.succ_lt_succ hi)
    unfold storeWords
    rw [storeWord_mailbox (a := a) v (h 0 (Nat.succ_pos _))]
    refine (ih (late ++ [boxLate a v]) hnext).trans ?_
    simp [List.mapIdx_cons, Nat.add_assoc, Nat.add_comm 1]

theorem stqOut_mailbox {d : Fin 16} (h : InMailbox e a) (h4 : a % 4 = 0) (hd : d.val % 4 = 0) :
    stqOut s e en d a = .done en [boxLate a (en.g d), boxLate (a + 1) (en.g (d + 1)), boxLate (a + 2) (en.g (d + 2)),
      boxLate (a + 3) (en.g (d + 3))] 1 := by
  unfold stqOut
  rw [if_neg (Decidable.not_not.2 hd), groupAt_port h.port.1 h.port.2 h4]
  dsimp only
  rw [map_regGroup d fun g _ => en.g g]
  exact storeWords_mailbox [] fun i hi => h.group h4 hi

end

/-- Settles O24: the operands' address decides the region, and the region what the load or the store does. -/
theorem leDataAndPortAccessesReachTheirAddress : Obligations.LeDataAndPortAccessesReachTheirAddress := by
  unfold Obligations.LeDataAndPortAccessesReachTheirAddress
  refine ⟨fun e n a b c d pi pj imm addr s h => ?data, fun e a d imm s h => ?port⟩
  case data =>
    exact ⟨fun hx => ⟨plain_runs rfl h (loadG_data d hx) rfl, plain_runs rfl h (storeWord_data _ hx) rfl⟩,
      fun hx hd => ⟨plain_runs rfl h (lddOut_data hx hd) rfl, plain_runs rfl h (stdOut_data hx hd) rfl⟩,
      fun hx => ⟨plain_runs rfl h (loadG_data d hx) rfl, plain_runs rfl h (storeWord_data _ hx) rfl⟩,
      fun hx => ⟨plain_runs rfl h (ldpOut_data d hx) rfl, plain_runs rfl h (stpOut_data d hx) rfl⟩,
      fun hi hj => plain_runs rfl h (mldOut_data n a b c d hi hj) (setAc_pc ..),
      fun hx => ⟨plain_runs rfl h (stacOut_data n hx) rfl, plain_runs rfl h (ldacOut_data n hx) rfl⟩⟩
  case port =>
    exact ⟨fun hx hx' => plain_runs rfl h (loadG_port d hx hx') rfl,
      fun hx hx' => plain_runs rfl h (storeWord_mailbox _ ⟨hx, hx'⟩) rfl,
      fun hx hx' h4 hd => plain_runs rfl h (ldqOut_port hx hx' h4 hd) rfl,
      fun hx hx' h4 hd => plain_runs rfl h (stqOut_mailbox ⟨hx, hx'⟩ h4 hd) rfl⟩

end Sys2Proof.Machine
end

section
/-! PROOF. Control instructions of the loop engines, what faults an engine, and the delay slots of a branch (R285, R291 to R296,
R301, R309, R311). -/

namespace Sys2Proof.Machine

@[simp] theorem note_engines (code src : BitVec 16) (p0 p1 p2 : Word) (s : State) :
    (note code src p0 p1 p2 s).engines = s.engines := rfl

/-! ### Control instructions -/

/-- A transfer that takes effect after two delay slots (R294). -/
def Engine.prepare (t : Transfer) (en : Engine) : Engine := { en with transfer := some (t, 2) }
/-- The transfer that BR prepares. -/
def branchTransfer (cond : BitVec 4) (target : BitVec 13) (sr : BitVec 16) : Transfer :=
  if condHolds cond sr then .jump target else .none_
/-- Where a transfer other than the end of a tick goes. -/
def Transfer.next (t : Transfer) (pc : BitVec 13) : BitVec 13 :=
  match t with
  | .jump a => a
  | _ => pc + 1

theorem branchTransfer_ne_exit (cond : BitVec 4) (target : BitVec 13) (sr : BitVec 16) :
    branchTransfer cond target sr ≠ .exit_ := by
  unfold branchTransfer
  split <;> exact Transfer.noConfusion
theorem branchTransfer_next (cond : BitVec 4) (target : BitVec 13) (sr : BitVec 16) (pc : BitVec 13) :
    (branchTransfer cond target sr).next pc = if condHolds cond sr then target else pc + 1 := by
  unfold branchTransfer
  split <;> rfl

theorem flushLate_of_nil {e : Fin 32} {s : State} (h : s.engines[e].late = []) :
    flushLate e s = modEngine e (fun en => { en with late := [] }) s := by
  unfold flushLate
  rw [h]
  rfl

section
variable {e : Fin 32} {s : State} (h : Plain s.engines[e])
include h

theorem leBr_runs {cond : BitVec 4} (target : BitVec 13) (hc : cond ≠ 15) :
    Runs (.leBr e cond target) s (leSlot e [] 1 (Engine.prepare (branchTransfer cond target s.engines[e].sr)) s) :=
  plain_runs rfl h (if_neg hc) rfl

theorem leTexit_runs (ht : s.engines[e].inTick = true) :
    Runs (.leTexit e) s (leSlot e [] 1 (Engine.prepare .exit_) s) :=
  plain_runs rfl h (if_pos ht) rfl

/-- WAIT leaves no result on its way. -/
theorem leWait_runs (ht : s.engines[e].inTick = false) :
    Runs (.leWait e) s (modEngine e (fun en => { en with late := [] })
      (leSlot e [] 1 (fun en => { en with waiting := true }) s)) := by
  have hslot : issue e false false (fun en _ => if en.inTick then .fault 1 0 else .done { en with waiting := true } [] 1) s
      = leSlot e [] 1 (fun en => { en with waiting := true }) s :=
    plain_slot h (if_neg (by rw [ht]; exact Bool.false_ne_true)) rfl
  have hself := upd_self s.engines e fun en => en.slot [] 1 fun en => { en with waiting := true }
  refine congrArg Host.Outcome.next ?_
  rw [hslot]
  exact (if_pos (congrArg Engine.waiting hself)).trans (flushLate_of_nil (congrArg Engine.late hself))

theorem leBkpt_runs : Runs (.leBkpt e) s (if s.engines[e].bkptEn then
    debugHalt e s.engines[e].pc (leSlot e [] 1 id s) else leSlot e [] 1 id s) := by
  have hslot : issue e true false (fun en _ => .done en [] 1) s = leSlot e [] 1 id s := plain_slot h rfl rfl
  refine congrArg Host.Outcome.next ?_
  rw [hslot, h.1, h.2.1]
  rfl

theorem leEvt_runs (a : Fin 16) (imm : BitVec 16) :
    Runs (.leEvt e a imm) s (leSlot e [] 1 (fun en => { en with regs := { en.regs with
        userEventCount := satInc en.regs.userEventCount
        cntOvf := en.regs.cntOvf || satFull en.regs.userEventCount } })
      (note Ev.leUserEvent (srcEngine e) (imm.zeroExtend 32) (s.engines[e].g a) 0 s)) := by
  refine congrArg Host.Outcome.next ?_
  rw [if_pos (by rw [h.1, h.2.1]; rfl)]
  exact plain_slot h rfl rfl

end

/-! ### Faults (R309) -/

section
variable {i : Instr} {e : Fin 32} {s : State} {slotOk repOk : Bool} {body : Engine → State → LeOut}

theorem fault_runs {k : BitVec 8} {x : Word} (h : s.engines[e].issues = true) (hr : s.engines[e].rep = 0)
    (ht : s.engines[e].transfer = none) (hi : exec i s = .next (issue e slotOk repOk body s))
    (hb : body s.engines[e] s = .fault k x) : Runs i s (leFault e k s.engines[e].pc x s) :=
  hi.trans (congrArg _ (fault_issue h hr ht hb))

/-- What may not stand in a delay slot faults there (R295). -/
theorem delaySlot_fault_runs (h : s.engines[e].issues = true) (hr : s.engines[e].rep = 0)
    (ht : s.engines[e].transfer.isSome = true) (hi : exec i s = .next (issue e false repOk body s)) :
    Runs i s (leFault e 2 s.engines[e].pc 0 s) := by
  rw [Runs, hi]
  unfold issue
  simp only [h, hr, ht]
  rfl

end

theorem regionOf_unmapped {a : Nat} (h : 0x4400 ≤ a) (h' : a < 0x6000 ∨ 0x6007 < a) : regionOf a = .none_ := by
  have hctl : ¬ ((decide (0x6000 ≤ a) && decide (a ≤ 0x6007)) = true) := by
    simp only [Bool.and_eq_true, decide_eq_true_eq]
    omega
  exact (if_neg (by omega)).trans ((if_neg (by omega)).trans (if_neg hctl))
theorem regionOf_control {a : Nat} (h : 0x6000 ≤ a) (h' : a ≤ 0x6007) : regionOf a = .control := by
  have hctl : (decide (0x6000 ≤ a) && decide (a ≤ 0x6007)) = true := by
    simp only [Bool.and_eq_true, decide_eq_true_eq]
    omega
  exact (if_neg (by omega)).trans ((if_neg (by omega)).trans (if_pos hctl))

section
variable {s : State} {e : Fin 32} {en : Engine} {addr : BitVec 16}

theorem loadG_unmapped (d : Fin 16) (h : regionOf addr.toNat = .none_) :
    loadG s e en d addr.toNat = .fault 3 (addr.zeroExtend 32) := by
  unfold loadG readWord
  rw [h]
  exact congrArg (LeOut.fault 3) (BitVec.ofNat_toNat ..)
theorem storeWord_unmapped (v : Word) (h : regionOf addr.toNat = .none_) :
    storeWord s e en addr.toNat v = .fault 3 (addr.zeroExtend 32) := by
  unfold storeWord
  rw [h]
  exact congrArg (LeOut.fault 3) (BitVec.ofNat_toNat ..)
theorem storeWord_control (v : Word) (h : regionOf addr.toNat = .control) :
    storeWord s e en addr.toNat v = .fault 4 (addr.zeroExtend 32) := by
  unfold storeWord
  rw [h]
  exact congrArg (LeOut.fault 4) (BitVec.ofNat_toNat ..)

end

/-! ### NOP under a repeat or a transfer (R294 to R296) -/

/-- The engine after a NOP, but for the program counter and the transfer. -/
def Engine.nopped (en : Engine) : Engine :=
  { en with late := [], lag0 := en.ac0, lag1 := en.ac1, cycle := en.cycle + 1, rep := en.rep - 1 }

/-- A NOP with no result on its way leaves the engine as advance does, where no tick ends with it. -/
theorem leNop_runs {e : Fin 32} {s : State} {en' : Engine} (h : s.engines[e].issues = true) (hl : s.engines[e].late = [])
    (ha : advance s.engines[e] s.engines[e].nopped = (en', false)) : Runs (.leNop e) s (modEngine e (fun _ => en') s) := by
  have hrep : (if 0 < s.engines[e].rep then s.engines[e].rep - 1 else s.engines[e].rep) = s.engines[e].rep - 1 := by
    split <;> omega
  have hfinish : finishIssue e s.engines[e] s.engines[e] [] 1 s = modEngine e (fun _ => en') s := by
    unfold finishIssue
    simp only [hl, hrep, List.map_nil, List.filter_nil, lateClash, ite_self, List.append_nil]
    exact (congrArg (fun x : Engine × Bool => if x.2 then tickExit e (modEngine e (fun _ => x.1) s)
      else modEngine e (fun _ => x.1) s) ha)
  refine congrArg Host.Outcome.next (Eq.trans ?_ hfinish)
  unfold issue
  simp only [h]
  simp

/-- Under a repeat the program counter stays until the last issue. -/
theorem advance_repeat {en : Engine} (h : en.transfer = none) :
    advance en en.nopped = ({ en.nopped with pc := if 1 < en.rep then en.pc else en.pc + 1 }, false) := by
  unfold advance
  split
  · rfl
  · rw [h]; rfl

section
variable {en : Engine} {t : Transfer}

theorem advance_firstSlot (hr : en.rep = 0) (h : en.transfer = some (t, 2)) :
    advance en en.nopped = ({ en.nopped with pc := en.pc + 1, transfer := some (t, 1) }, false) := by
  unfold advance
  rw [hr, h]
  rfl

theorem advance_lastSlot (hr : en.rep = 0) (h : en.transfer = some (t, 1)) (ht : t ≠ .exit_) :
    advance en en.nopped = ({ en.nopped with pc := t.next en.pc, transfer := none }, false) := by
  unfold advance
  rw [hr, h]
  cases t with
  | jump a => rfl
  | exit_ => exact absurd rfl ht
  | none_ => rfl

end

/-- A prepared transfer waits out two NOPs and takes effect with the second. -/
theorem transfer_after_nops {e : Fin 32} {s t u : State} {tr : Transfer} (hi : s.engines[e].issues = true)
    (hl : s.engines[e].late = []) (hr : s.engines[e].rep = 0) (ht : s.engines[e].transfer = some (tr, 2)) (hx : tr ≠ .exit_)
    (h1 : Runs (.leNop e) s t) (h2 : Runs (.leNop e) t u) :
    t.engines[e].pc = s.engines[e].pc + 1 ∧ u.engines[e].pc = tr.next (s.engines[e].pc + 1)
      ∧ u.engines[e].transfer = none ∧ u.engines[e].bank = s.engines[e].bank := by
  have he := congrArg (fun x : State => x.engines[e]) (h1.unique (leNop_runs hi hl (advance_firstSlot hr ht)))
  dsimp only at he
  rw [modEngine_engines, upd_self] at he
  have hi' : t.engines[e].issues = true := by rw [he]; exact hi
  have hl' : t.engines[e].late = [] := by rw [he]; rfl
  have hr' : t.engines[e].rep = 0 := by rw [he]; exact Nat.sub_eq_zero_of_le (by omega)
  have ht' : t.engines[e].transfer = some (tr, 1) := by rw [he]
  obtain rfl := h2.unique (leNop_runs hi' hl' (advance_lastSlot hr' ht' hx))
  rw [modEngine_engines, upd_self, he]
  exact ⟨rfl, rfl, rfl, rfl⟩

/-- Settles O25: a control instruction prepares its transfer in one slot, and a fault comes before any effect; the field of RPT
holds one less than the count of R296. -/
theorem leControlInstructionsPrepareHoldAndFault : Obligations.LeControlInstructionsPrepareHoldAndFault := by
  unfold Obligations.LeControlInstructionsPrepareHoldAndFault
  refine ⟨fun e a cond target n imm s h => ?control, fun e s t hi ht hl hr hrun => ?repeats,
    fun e d a n target imm addr w s hi hr => ⟨fun ht => ?faults, fun ht => ?slots⟩⟩
  case control =>
    refine ⟨leBr_runs h target, plain_runs rfl h rfl (put_pc ..), plain_runs rfl h rfl rfl, plain_runs rfl h rfl (put_pc ..),
      plain_runs rfl h rfl rfl, leTexit_runs h, leWait_runs h, fun hb => ?_, fun hb => ?_, leEvt_runs h a imm⟩
    · exact (leBkpt_runs h).trans (congrArg _ (if_neg (by rw [hb]; exact Bool.false_ne_true)))
    · exact (leBkpt_runs h).trans (congrArg _ (if_pos hb))
  case repeats =>
    obtain rfl := hrun.unique (leNop_runs hi hl (advance_repeat ht))
    rw [modEngine_engines, upd_self]
    refine ⟨rfl, ?_⟩
    by_cases h1 : s.engines[e].rep = 1
    · exact (if_neg (by omega)).trans (if_pos h1).symm
    · exact (if_pos (by omega)).trans (if_neg h1).symm
  case faults =>
    exact ⟨fault_runs hi hr ht rfl (if_pos rfl),
      fun hd => ⟨fault_runs hi hr ht rfl (if_pos hd), fault_runs hi hr ht rfl (if_pos hd)⟩,
      fun hd => ⟨fault_runs hi hr ht rfl (if_pos hd), fault_runs hi hr ht rfl (if_pos hd)⟩,
      fun hw => fault_runs hi hr ht rfl (if_pos hw),
      fun ht' => fault_runs hi hr ht rfl (if_neg (by rw [ht']; exact Bool.false_ne_true)),
      fun h h' => have hu := regionOf_unmapped h h'
        ⟨fault_runs hi hr ht rfl (loadG_unmapped d hu), fault_runs hi hr ht rfl (storeWord_unmapped _ hu)⟩,
      fun h h' => fault_runs hi hr ht rfl (storeWord_control _ (regionOf_control h h'))⟩
  case slots =>
    exact ⟨delaySlot_fault_runs hi hr ht rfl, delaySlot_fault_runs hi hr ht rfl, delaySlot_fault_runs hi hr ht rfl⟩

/-- Settles O26: the transfer of the branch waits out two slots and then sets the program counter. -/
theorem leBranchHasTwoDelaySlots : Obligations.LeBranchHasTwoDelaySlots := by
  unfold Obligations.LeBranchHasTwoDelaySlots
  intro e cond target s t u v h hc ht hu hv
  obtain rfl := ht.unique (leBr_runs h target hc)
  have he : (leSlot e [] 1 (Engine.prepare (branchTransfer cond target s.engines[e].sr)) s).engines[e]
      = s.engines[e].slot [] 1 (Engine.prepare (branchTransfer cond target s.engines[e].sr)) := upd_self ..
  obtain ⟨hpcu, hpcv, htv, hbv⟩ := transfer_after_nops (by rw [he]; exact h.1) (by rw [he]; rfl) (by rw [he]; exact h.2.1)
    (by rw [he]; rfl) (branchTransfer_ne_exit cond target _) hu hv
  rw [he] at hpcu hpcv hbv ⊢
  refine ⟨rfl, hpcu.trans (BitVec.add_assoc ..), hpcv.trans ?_, htv, hbv⟩
  rw [branchTransfer_next]
  exact congrArg (ite _ target) ((BitVec.add_assoc ..).trans (BitVec.add_assoc ..))

end Sys2Proof.Machine
end

section
/-! PROOF. What the ticks, the image checks, the scrubber and the debug port do to their engine (R297, R298, R300, R310, R311,
R314, R345; log entries 97 and 130). -/

namespace Sys2Proof.Machine

/-! ### Ticks (R297, R298, R300) -/

section
variable {e : Fin 32} {k : Fin 16} {j : Nat} {s : State}

/-- An occurrence outside the pour cycle's current ticks, or in a carrier period without one, is none (R245, R247). -/
theorem tickFiring_runs (hen : s.engines[e].ticks[k].regs.en = true) (h0 : s.engines[e].ticks[k].regs.sourceKind ≠ 0)
    (h3 : s.engines[e].ticks[k].regs.sourceKind ≠ 3)
    (ht : ∀ t, tickTile s.engines[e].ticks[k].regs = some t →
      if s.engines[e].ticks[k].regs.sourceKind = 1 then j < max 1 (rateLoop s t).k.toNat
      else s.tiles[t].regs.periodCount.toNat % max 1 (rateLoop s t).localDiv.toNat = 0) :
    Runs (.tickFiring e k j) s (occurs e k j s) := by
  refine congrArg Host.Outcome.next (if_neg ?_)
  generalize s.engines[e].ticks[k].regs = tk at *
  cases htile : tickTile tk with
  | none => simp only [hen, h0, h3]; decide
  | some t =>
    have hcount := ht t htile
    split at hcount
    · next h1 => simp only [hen, h0, h3, if_pos h1, Nat.not_le.2 hcount]; decide
    · next h1 => simp only [hen, h0, h3, if_neg h1, hcount]; decide

theorem tickFiring_disabled (hen : s.engines[e].ticks[k].regs.en = false) : Runs (.tickFiring e k j) s s :=
  congrArg Host.Outcome.next (if_pos (by rw [hen]; rfl))

theorem tickEntry_runs (hp : s.engines[e].ticks[k].pending = true)
    (hlow : ∀ i : Fin 16, i.val < k.val → s.engines[e].ticks[i].pending = false) (hrun : s.engines[e].running = none)
    (hst : s.engines[e].regs.leState = 2) (hrep : s.engines[e].rep = 0) :
    let x := s.engines[e].ticks[k]
    let s' := modEngine e (enterTick k x) s
    Runs (.tickEntry e k) s (runLoops e x
      (modEngine e (fun y => { y with data := memPutWords y.data (x.regs.tickCtx.toNat + 0x0D) (headerWords s' x) }) s')) := by
  have hlower : ((List.finRange 16).any fun i => i.val < k.val && s.engines[e].ticks[i].pending) = false :=
    List.any_eq_false.2 fun i _ => by
      simp only [Bool.and_eq_true, decide_eq_true_eq, not_and, Bool.not_eq_true]
      exact hlow i
  refine if_neg ?_
  rw [hp, hlower, hrun, hst, hrep]
  decide

theorem tickEntry_waits (h : s.engines[e].ticks[k].pending = false ∨ s.engines[e].running.isSome = true
    ∨ s.engines[e].regs.leState ≠ 2) : Runs (.tickEntry e k) s s := by
  refine if_pos ?_
  simp only [Bool.or_eq_true, Bool.not_eq_true', decide_eq_true_eq]
  rcases h with hp | hr | hst
  · exact .inl (.inl (.inl (.inl hp)))
  · exact .inl (.inl (.inr hr))
  · exact .inl (.inr hst)

end

/-! ### Image checks (R314) -/

section
variable {e : Fin 32} {ld : EngineLoad} {s : State}

/-- The operation LE_IMAGE_END of engine e. -/
def ownImageEnd (e : Fin 32) (o : PendingOp) : Bool := o.op = 0x0703 && o.target = BitVec.ofNat 16 e.val

variable (hld : s.engines[e].load = some ld) (hop : s.ocp.ops.any (ownImageEnd e) = true)
include hld hop

theorem imageCheckComplete_passed (h : imageCheck s e ld = none) : Runs (.leImageCheckComplete e) s
    (endOps (ownImageEnd e) Status.ok (startEngine e (installImage e ld (drawn s)))) := by
  change execLeImageCheckComplete e s = _
  unfold ownImageEnd at hop ⊢
  unfold execLeImageCheckComplete
  simp only [hld, hop, h]

theorem imageCheckComplete_failed {st : BitVec 16} {v : Nat} (h : imageCheck s e ld = some (st, v)) :
    Runs (.leImageCheckComplete e) s (endOps (ownImageEnd e) st (modEngine e (fun en => { en with
      regs := { en.regs with imageCheck := BitVec.ofNat 16 v } }) (drawn s))) := by
  change execLeImageCheckComplete e s = _
  unfold ownImageEnd at hop ⊢
  unfold execLeImageCheckComplete
  simp only [hld, hop, h]

end

/-! ### Scrubbing (R310) -/

/-- The report of a corrected bit: at most one record a second for the engine. -/
def eccReport (e : Fin 32) (kind : Fin 3) (addr : BitVec 16) (s : State) : State :=
  if eccDue s.engines[e].eccAt s.dt = true then
    note Ev.eccCorrected (srcEngine e) (BitVec.ofNat 32 kind.val) (addr.zeroExtend 32) 0
      (modEngine e (fun en => { en with eccAt := some s.dt, regs := { en.regs with eccSeen := true } }) s)
  else s

section
variable (e : Fin 32) (kind : Fin 3) (addr : BitVec 16) (s : State)

theorem eccReport_regs {α : Type} (get : EngineRegs → α) (h : ∀ r, get { r with eccSeen := true } = get r) :
    get (eccReport e kind addr s).engines[e].regs = get s.engines[e].regs := by
  unfold eccReport
  split
  · exact (congrArg (fun en : Engine => get en.regs) (upd_self ..)).trans (h _)
  · rfl
theorem eccReport_tiles : (eccReport e kind addr s).tiles = s.tiles := by
  unfold eccReport
  split <;> rfl
theorem eccReport_axes : (eccReport e kind addr s).axes = s.axes := by
  unfold eccReport
  split <;> rfl

/-- A single-bit error counts in the counter of its memory, and is reported. -/
theorem scrub_corrected :
    let t := scrub e kind addr 1 s
    (kind = 0 → t.engines[e].regs.eccCorrProg = satInc s.engines[e].regs.eccCorrProg)
      ∧ (kind = 1 → t.engines[e].regs.eccCorrData = satInc s.engines[e].regs.eccCorrData)
      ∧ (kind = 2 → t.engines[e].regs.eccCorrPort = satInc s.engines[e].regs.eccCorrPort)
      ∧ t.tiles = s.tiles ∧ t.axes = s.axes := by
  refine ⟨?prog, ?data, ?port, eccReport_tiles .., eccReport_axes ..⟩
  case prog =>
    rintro rfl
    exact (eccReport_regs _ _ _ _ EngineRegs.eccCorrProg fun _ => rfl).trans
      (congrArg (fun en : Engine => en.regs.eccCorrProg) (upd_self ..))
  case data =>
    rintro rfl
    exact (eccReport_regs _ _ _ _ EngineRegs.eccCorrData fun _ => rfl).trans
      (congrArg (fun en : Engine => en.regs.eccCorrData) (upd_self ..))
  case port =>
    rintro rfl
    exact (eccReport_regs _ _ _ _ EngineRegs.eccCorrPort fun _ => rfl).trans
      (congrArg (fun en : Engine => en.regs.eccCorrPort) (upd_self ..))

end

/-! ### The debug port (R311, R343, R345) -/

@[simp] theorem freezeTile_engines (halt : Bool) (t : Fin 16) (s : State) : (freezeTile halt t s).engines = s.engines := by
  unfold freezeTile
  dsimp only
  split
  · simp only [writeTileStatus_engines, note_engines, modTile_engines, holdLegs, abortIdent_engines]
  · rfl

theorem debugHalt_leState {e : Fin 32} {s : State} (pc : BitVec 13) (h : s.engines[e].regs.leState = 2) :
    (debugHalt e pc s).engines[e].regs.leState = 4 := by
  unfold debugHalt
  dsimp only
  rw [if_pos h, foldl_frame State.engines _ (fun s t => freezeTile_engines true t s), note_engines, modEngine_engines, upd_self]

theorem debugHalt_of_not_running {e : Fin 32} {s : State} (pc : BitVec 13) (h : s.engines[e].regs.leState ≠ 2) :
    debugHalt e pc s = s :=
  if_neg h

theorem upd_upd {α : Type} {n : Nat} (v : Vector α n) (i : Fin n) (f g : α → α) :
    upd (upd v i f) i g = upd v i fun x => g (f x) :=
  (congrArg (fun x => (upd v i f).set i (g x)) (upd_self v i f)).trans (Vector.set_set ..)
theorem modEngine_modEngine (e : Fin 32) (f g : Engine → Engine) (s : State) :
    modEngine e g (modEngine e f s) = modEngine e (fun en => g (f en)) s :=
  congrArg (fun v : Vector Engine 32 => { s with engines := v }) (upd_upd ..)

theorem debugResume_runs {e : Fin 32} {s : State} (bkpt : Bool) (h : s.engines[e].regs.leState = 4) :
    Runs (.debugResume e bkpt) s ((grantedTiles e s.engines[e]).foldl (fun s t => thawTile true t s)
      (modEngine e (fun en => { en with bkptEn := bkpt, haltOverrun := false, regs := { en.regs with leState := 2 } }) s)) := by
  have he : (setBkpt e bkpt s).engines[e] = { s.engines[e] with bkptEn := bkpt } := upd_self ..
  refine congrArg Host.Outcome.next ((if_pos (by rw [he]; exact h)).trans ?_)
  rw [he, setBkpt, modEngine_modEngine]
  rfl

theorem debugResume_not_halted {e : Fin 32} {s : State} (bkpt : Bool) (h : s.engines[e].regs.leState ≠ 4) :
    Runs (.debugResume e bkpt) s (setBkpt e bkpt s) := by
  have he : (setBkpt e bkpt s).engines[e] = { s.engines[e] with bkptEn := bkpt } := upd_self ..
  exact congrArg Host.Outcome.next (if_neg (by rw [he]; exact h))

/-- Settles O42: each event's condition is the one that its command tests (log entries 97 and 130). -/
theorem engineEventsStartAndHaltIt : Obligations.EngineEventsStartAndHaltIt := by
  unfold Obligations.EngineEventsStartAndHaltIt
  intro e k j ld bkpt st v kind addr s
  exact ⟨tickFiring_runs, tickFiring_disabled, tickEntry_runs, tickEntry_waits, imageCheckComplete_passed,
    fun hld hop => imageCheckComplete_failed hld hop, rfl, ⟨_, rfl, scrub_corrected e kind addr s⟩, rfl, rfl, debugHalt_leState _,
    debugHalt_of_not_running _, debugResume_runs bkpt, debugResume_not_halted bkpt⟩

end Sys2Proof.Machine
end

section
/-! PROOF. What the events of a tile do to it: the fault input (R340), the Hall inputs (R336, R337), the check of the brake
resistor (R348, R349) and the end of an undervoltage (R351). -/

namespace Sys2Proof.Machine

/-! ### The fault input (R340) -/

/-- How long in ns the fault input must be low to vent the tile for sure. -/
def filterTime (r : TileRegs) : Nat := if r.fltFilt = 0 then 5 else 10 * r.fltFilt.toNat
/-- A low level of ns vents tile t: it does from FLT_FILT on, and the free value decides in the 20 ns before. -/
def lowTrips (t : Fin 16) (ns : Nat) (s : State) : Bool :=
  filterTime s.tiles[t].regs ≤ ns || (filterTime s.tiles[t].regs ≤ ns + 20 && freeBool s)
/-- The trip stands in the registers of tile t, and a free value has been drawn. -/
def markTrip (t : Fin 16) (s : State) : State :=
  modTileRegs t (fun r => { r with
    trip := true, tripInput := true, tripSeen := true, lastTripDt := nsOf s.dt, tripCount := satInc r.tripCount
    cntOvf := r.cntOvf || satFull r.tripCount }) (drawn s)
/-- The trip of tile t, recorded, latched and answered by its vent. -/
def tripTile (t : Fin 16) (s : State) : State :=
  ventTile t 0 (latchFault Ev.tileTrip true (tileAxis t) (record
    { code := Ev.tileTrip, src := srcTile t, t := s.dt, cls := .vent, p0 := natWord s.tiles[t].regs.fltFilt.toNat }
    (markTrip t s)))

section
variable {t : Fin 16} {ns : Nat} {s : State}

theorem tileFaultInput_high :
    ∃ u, Runs (.tileFaultInput t false ns) s u ∧ u.tiles[t].regs.tripInput = false ∧ { u with tiles := s.tiles } = s :=
  ⟨_, rfl, congrArg (fun tl : Tile => tl.regs.tripInput) (upd_self ..), rfl⟩

theorem tileFaultInput_ignored (h : s.tiles[t].regs.fltEn = false ∨ s.tiles[t].regs.tripInput = true) :
    Runs (.tileFaultInput t true ns) s s := by
  refine if_pos ?_
  rw [Bool.or_eq_true, Bool.not_eq_true']
  exact h

/-- An enabled input that has not tripped: a low level vents the tile or is ignored, and a free value is drawn in either case. -/
theorem tileFaultInput_low (hen : s.tiles[t].regs.fltEn = true) (htr : s.tiles[t].regs.tripInput = false) :
    Runs (.tileFaultInput t true ns) s (if lowTrips t ns s then tripTile t s else drawn s) := by
  have hon : ¬ (!s.tiles[t].regs.fltEn || s.tiles[t].regs.tripInput) = true := by
    rw [hen, htr]
    decide
  refine (if_neg hon).trans ?_
  change (if (!lowTrips t ns s) = true then Host.Outcome.next (drawn s) else .next (tripTile t s)) = _
  cases lowTrips t ns s <;> rfl

theorem tileFaultInput_long (hen : s.tiles[t].regs.fltEn = true) (htr : s.tiles[t].regs.tripInput = false)
    (hns : filterTime s.tiles[t].regs ≤ ns) : Runs (.tileFaultInput t true ns) s (tripTile t s) := by
  refine (tileFaultInput_low hen htr).trans (congrArg _ (if_pos ?_))
  rw [lowTrips, decide_eq_true hns, Bool.true_or]

theorem tileFaultInput_short (hen : s.tiles[t].regs.fltEn = true) (htr : s.tiles[t].regs.tripInput = false)
    (hns : ns + 20 < filterTime s.tiles[t].regs) : Runs (.tileFaultInput t true ns) s (drawn s) := by
  have hlong : ¬ filterTime s.tiles[t].regs ≤ ns := by omega
  refine (tileFaultInput_low hen htr).trans (congrArg _ (if_neg ?_))
  rw [lowTrips, decide_eq_false hlong, decide_eq_false (Nat.not_le.2 hns), Bool.false_and, Bool.false_or]
  decide

end

/-! ### Hall states (R336, R337) -/

/-- A Hall state that healthy sensors do not show. -/
def illegalHall (h : BitVec 3) : Bool := h = 0 || h = 7
/-- The Hall state stands in the registers of its tile. -/
def recordHall (h : BitVec 3) (tl : Tile) : Tile :=
  { tl with
    pw := { tl.pw with hallBad := illegalHall h }
    regs := { tl.regs with
      hallState := h, hallEdgeCount := satInc tl.regs.hallEdgeCount
      hallIllegalCount := if illegalHall h then satInc tl.regs.hallIllegalCount else tl.regs.hallIllegalCount
      hallIllegalSeen := tl.regs.hallIllegalSeen || illegalHall h
      cntOvf := tl.regs.cntOvf || satFull tl.regs.hallEdgeCount || (illegalHall h && satFull tl.regs.hallIllegalCount) } }
/-- The legs of a running tile take the entry of its Hall state, and the status group shows it. -/
def showHall (t : Fin 16) (w : State) : State :=
  writeTileStatus t (if w.tiles[t].regs.tileState = 2 then reforceLegs t w else w)

section
variable {t : Fin 16} {h : BitVec 3} {s : State}

theorem illegalHall_iff : illegalHall h = true ↔ h = 0 ∨ h = 7 := by
  rw [illegalHall, Bool.or_eq_true, decide_eq_true_eq, decide_eq_true_eq]

theorem hallEdge_off (hr : hallRuns s.tiles[t] = false) : Runs (.hallEdge t h) s s :=
  if_pos (by rw [hr]; rfl)

theorem hallEdge_on (hr : hallRuns s.tiles[t] = true) {x : State} (hx : x = showHall t (modTile t (recordHall h) s)) :
    Runs (.hallEdge t h) s
      (if illegalHall h then raise Ev.hallIllegal (srcTile t) x.policy.hallIllegal true (h.zeroExtend 32) 0 0 [tileAxis t] x
        else clearCond Ev.hallIllegal [tileAxis t] x) := by
  subst hx
  exact if_neg (by rw [hr]; decide)

theorem hallEdge_records (hr : hallRuns s.tiles[t] = true) :
    ∃ w, w.tiles[t].regs.hallState = h ∧ w.tiles[t].pw.hallBad = decide (h = 0 ∨ h = 7)
      ∧ w.tiles[t].regs.hallEdgeCount = satInc s.tiles[t].regs.hallEdgeCount ∧ { w with tiles := s.tiles } = s
      ∧ ∀ x, x = showHall t w →
        (h = 0 ∨ h = 7 → Runs (.hallEdge t h) s
          (raise Ev.hallIllegal (srcTile t) x.policy.hallIllegal true (h.zeroExtend 32) 0 0 [tileAxis t] x))
        ∧ (h ≠ 0 → h ≠ 7 → Runs (.hallEdge t h) s (clearCond Ev.hallIllegal [tileAxis t] x)) := by
  have htile : (modTile t (recordHall h) s).tiles[t] = recordHall h s.tiles[t] := upd_self ..
  refine ⟨modTile t (recordHall h) s, by rw [htile]; rfl, ?bad, by rw [htile]; rfl, rfl, fun x hx => ⟨fun hb => ?illegal,
    fun h0 h7 => ?legal⟩⟩
  case bad =>
    rw [htile]
    exact (Bool.decide_or ..).symm
  case illegal => exact (hallEdge_on hr hx).trans (congrArg _ (if_pos (illegalHall_iff.2 hb)))
  case legal => exact (hallEdge_on hr hx).trans (congrArg _ (if_neg (mt illegalHall_iff.1 (not_or.2 ⟨h0, h7⟩))))

end

/-! ### The brake resistor (R348, R349) -/

/-- The chopper of tile t is off and vented, and its group counts it. -/
def ventChopper (t : Fin 16) (g : Fin 4) (v : State) : State :=
  modDcl g (fun x => { x with regs := { x.regs with
      brakeIneff := true, brakeSeen := true, regenLimited := true, brakeIneffCount := satInc x.regs.brakeIneffCount
      cntOvf := x.regs.cntOvf || satFull x.regs.brakeIneffCount } })
    (modTile t (fun tl => { tl with
      pw := { tl.pw with chopOn := false, chopDue := none }, regs := { tl.regs with chopperVented := true } }) v)
/-- The group's event, with the reading at the turn-on. -/
def tellBrakeIneffective (g : Fin 4) (von : Word) (w : State) : State :=
  raise Ev.brakeIneffective (srcGroup w g) w.policy.brakeIneff true (natWord g.val) von 0 (groupAxes w g) w
/-- Every member of the group takes the clamp of regeneration. -/
def clampMembers (g : Fin 4) (x : State) : State :=
  (dclMembers x g).foldl (fun s u => writeTileStatus u (modTileRegs u (fun r => { r with regenClamp := true }) s)) x
/-- The group's members are clamped, and the limit is told. -/
def limitRegen (g : Fin 4) (y : State) : State :=
  dclRefresh g (note Ev.regenLimited (srcGroup y g) (natWord g.val) 0 0 y)

section
variable {t : Fin 16} {g : Fin 4} {s v : State}

/-- The brake resistor has shown no effect T_CHK after its turn-on (R348). -/
def brakeFailed (t : Fin 16) (g : Fin 4) (v : State) : Bool :=
  v.tiles[t].pw.chopOn && !v.tiles[t].pw.chopOk && hasPassed v.tiles[t].pw.chopAt (1000 * v.dcls[g].regs.tChk.toNat) v

theorem brakeCheckExpiry_noGroup (hg : tileGroup s.tiles[t] = none) : Runs (.brakeCheckExpiry t) s s := by
  change execBrakeCheckExpiry t s = _
  rw [execBrakeCheckExpiry, hg]

theorem brakeCheckExpiry_member (hg : tileGroup s.tiles[t] = some g) (hv : v = chopperSettle t g s) :
    Runs (.brakeCheckExpiry t) s (if brakeFailed t g v then
      limitRegen g (clampMembers g (tellBrakeIneffective g v.tiles[t].pw.chopV (ventChopper t g v))) else v) := by
  have hguard : (!v.tiles[t].pw.chopOn || v.tiles[t].pw.chopOk
      || !hasPassed v.tiles[t].pw.chopAt (1000 * v.dcls[g].regs.tChk.toNat) v) = !brakeFailed t g v := by
    rw [brakeFailed, Bool.not_and, Bool.not_and, Bool.not_not]
  subst hv
  change execBrakeCheckExpiry t s = _
  rw [execBrakeCheckExpiry, hg]
  dsimp only
  rw [hguard]
  cases brakeFailed t g (chopperSettle t g s) <;> rfl

theorem brakeCheckExpiry_passed (hg : tileGroup s.tiles[t] = some g) (hv : v = chopperSettle t g s)
    (h : v.tiles[t].pw.chopOn = false ∨ v.tiles[t].pw.chopOk = true) : Runs (.brakeCheckExpiry t) s v := by
  have hok : ¬ brakeFailed t g v = true := by
    rw [brakeFailed]
    obtain hoff | hok := h
    · rw [hoff, Bool.false_and, Bool.false_and]
      decide
    · rw [hok, Bool.not_true, Bool.and_false, Bool.false_and]
      decide
  exact (brakeCheckExpiry_member hg hv).trans (congrArg _ (if_neg hok))

theorem brakeCheckExpiry_failed (hg : tileGroup s.tiles[t] = some g) (hv : v = chopperSettle t g s)
    (hon : v.tiles[t].pw.chopOn = true) (hok : v.tiles[t].pw.chopOk = false)
    (hp : hasPassed v.tiles[t].pw.chopAt (1000 * v.dcls[g].regs.tChk.toNat) v = true) :
    ∃ w x, w.tiles[t].pw.chopOn = false ∧ w.tiles[t].regs.chopperVented = true ∧ w.dcls[g].regs.brakeIneff = true
      ∧ w.dcls[g].regs.brakeIneffCount = satInc v.dcls[g].regs.brakeIneffCount
      ∧ { w with tiles := v.tiles, dcls := v.dcls } = v ∧ x = tellBrakeIneffective g v.tiles[t].pw.chopV w
      ∧ ∃ y, y = clampMembers g x ∧ Runs (.brakeCheckExpiry t) s (limitRegen g y) := by
  have hfailed : brakeFailed t g v = true := by
    rw [brakeFailed, hon, hok, hp]
    rfl
  exact ⟨ventChopper t g v, _, congrArg (fun tl : Tile => tl.pw.chopOn) (upd_self ..),
    congrArg (fun tl : Tile => tl.regs.chopperVented) (upd_self ..),
    congrArg (fun x : DclGroup => x.regs.brakeIneff) (upd_self ..),
    congrArg (fun x : DclGroup => x.regs.brakeIneffCount) (upd_self ..), rfl, rfl, _, rfl,
    (brakeCheckExpiry_member hg hv).trans (congrArg _ (if_pos hfailed))⟩

end

/-! ### The end of an undervoltage (R351) -/

section
variable {g : Fin 4} {s : State}

theorem dclUndervoltClear_due {t0 : Fix} (hu : s.dcls[g].regs.undervolt = true) (hgone : uvGone s g = true)
    (ht : s.dcls[g].uvFrom = some t0) (hp : hasPassed t0 10000000 s = true) : Runs (.dclUndervoltClear g) s
      (clearCond Ev.dclUndervolt (groupAxes s g)
        (modDcl g (fun x => { x with regs := { x.regs with undervolt := false } }) s)) := by
  refine if_pos ?_
  rw [hu, hgone, runPassed_of_since ht hp]
  rfl

theorem dclUndervoltClear_none
    (h : s.dcls[g].regs.undervolt = false ∨ uvGone s g = false ∨ s.dcls[g].uvFrom = none) :
    Runs (.dclUndervoltClear g) s s := by
  refine if_neg ?_
  obtain hu | hgone | ht := h
  · rw [hu, Bool.false_and, Bool.false_and]
    decide
  · rw [hgone, Bool.and_false, Bool.false_and]
    decide
  · rw [runPassed_of_none ht, Bool.and_false]
    decide

end

/-- Settles O44: each event's condition is the one that its command tests, and between FLT_FILT - 20 ns and FLT_FILT alone the free
value decides. That nothing happens otherwise is the model's choice (log entry 17). -/
theorem tileEventsProtectTheTile : Obligations.TileEventsProtectTheTile := by
  unfold Obligations.TileEventsProtectTheTile
  intro t ns h g s tl need hit
  exact ⟨tileFaultInput_high, tileFaultInput_ignored, tileFaultInput_long, tileFaultInput_short, hallEdge_off, hallEdge_records,
    brakeCheckExpiry_noGroup, fun hg v hv => ⟨brakeCheckExpiry_passed hg hv, brakeCheckExpiry_failed hg hv⟩,
    fun _ => dclUndervoltClear_due, dclUndervoltClear_none⟩

end Sys2Proof.Machine
end

section
/-! PROOF. What the events of a field-controlled tile do: the sensorless start (R370, R372, R375 to R380), the current measurement
(R364, R368) and the identification (R381). -/

namespace Sys2Proof.Machine

@[simp] theorem modFoc_foc (t : Fin 16) (f : Foc → Foc) (s : State) : (modFoc t f s).tiles[t].foc = f s.tiles[t].foc :=
  congrArg Tile.foc (upd_self ..)

/-! ### LISTEN and BRAKE (R375, R379) -/

section
variable {t : Fin 16} {emf omega : Word} {s : State}

theorem listenEnd_waits (h : sensorlessTile s t = false ∨ inStart s t 1 = false ∨ inStartFor s t 5 = false) :
    Runs (.listenEnd t emf omega) s s := by
  refine if_pos ?_
  rw [Bool.not_eq_true', Bool.and_eq_false_iff, Bool.and_eq_false_iff, or_assoc]
  exact h

section
variable (hsl : sensorlessTile s t = true) (hst : inStart s t 1 = true) (hfor : inStartFor s t 5 = true)
include hsl hst hfor

/-- The 5 ms are over: the back-EMF decides whether the motor turns, and its speed whether it can be followed. -/
theorem listenEnd_decides : Runs (.listenEnd t emf omega) s (
    if emf.toNat < s.tiles[t].foc.regs.flyMinEmf.toNat then modFoc t (enterStart 3 s) s
    else if abs32 omega < s.tiles[t].foc.regs.vCatch.toNat then modFoc t (enterStart 2 s) s
    else if 20 * emf.toNat ≤ 19 * s.tiles[t].foc.regs.mMax.toNat then catchMotor t emf omega s else s) := by
  refine (if_neg (by rw [hsl, hst, hfor]; decide)).trans ?_
  rw [apply_ite Host.Outcome.next, apply_ite Host.Outcome.next, apply_ite Host.Outcome.next]

theorem listenEnd_stands (hemf : emf.toNat < s.tiles[t].foc.regs.flyMinEmf.toNat) :
    Runs (.listenEnd t emf omega) s (modFoc t (enterStart 3 s) s) :=
  (listenEnd_decides hsl hst hfor).trans (congrArg _ (if_pos hemf))

theorem listenEnd_slow (hemf : s.tiles[t].foc.regs.flyMinEmf.toNat ≤ emf.toNat)
    (hom : abs32 omega < s.tiles[t].foc.regs.vCatch.toNat) :
    Runs (.listenEnd t emf omega) s (modFoc t (enterStart 2 s) s) :=
  (listenEnd_decides hsl hst hfor).trans (congrArg _ ((if_neg (Nat.not_lt.2 hemf)).trans (if_pos hom)))

theorem listenEnd_catches (hemf : s.tiles[t].foc.regs.flyMinEmf.toNat ≤ emf.toNat)
    (hom : s.tiles[t].foc.regs.vCatch.toNat ≤ abs32 omega) (hmax : 20 * emf.toNat ≤ 19 * s.tiles[t].foc.regs.mMax.toNat) :
    Runs (.listenEnd t emf omega) s (catchMotor t emf omega s) :=
  (listenEnd_decides hsl hst hfor).trans
    (congrArg _ ((if_neg (Nat.not_lt.2 hemf)).trans ((if_neg (Nat.not_lt.2 hom)).trans (if_pos hmax))))

end

theorem brakeEnd_aligns (hsl : sensorlessTile s t = true) (hst : inStart s t 2 = true)
    (hfor : inStartFor s t s.tiles[t].foc.regs.tBrake.toNat = true) :
    Runs (.brakeEnd t) s (modFoc t (enterStart 3 s) s) :=
  if_pos (by rw [hsl, hst, hfor]; rfl)

end

/-! ### ALIGN (R370, R375) -/

/-- The sensorless tile starts its ramp from rest. -/
def enterRamp (s : State) (f : Foc) : Foc := { enterStart 5 s f with olVel := 0 }
/-- The encoder axis runs on the angle at which its rotor stands. -/
def learnOffset (t : Fin 16) (s : State) (f : Foc) : Foc :=
  { enterStart 7 s f with
    aligning := false
    regs := { (enterStart 7 s f).regs with
      angleOffset := -encoderAngle { f with regs := { f.regs with angleOffset := 0 } } (srcCount s.encs[tileEnc t])
      offsetValid := true } }

section
variable {t : Fin 16} {s : State} (hst : inStart s t 4 = true)
  (hfor : inStartFor s t s.tiles[t].foc.regs.tAlign.toNat = true)
include hst hfor

theorem alignEnd_decides : Runs (.alignEnd t) s
    (modFoc t (if sensorlessTile s t then enterRamp s else learnOffset t s) s) := by
  refine (if_neg (by rw [hst, hfor]; decide)).trans ?_
  cases sensorlessTile s t <;> rfl

theorem alignEnd_ramps (hsl : sensorlessTile s t = true) : ∃ u, Runs (.alignEnd t) s u ∧ u.tiles[t].foc.olVel = 0
    ∧ u.tiles[t].foc.regs = (enterStart 5 s s.tiles[t].foc).regs ∧ { u with tiles := s.tiles } = s := by
  refine ⟨modFoc t (enterRamp s) s, ?_, ?_, ?_, rfl⟩
  · exact (alignEnd_decides hst hfor).trans (by rw [if_pos hsl])
  · rw [modFoc_foc, enterRamp]
  · rw [modFoc_foc, enterRamp]

theorem alignEnd_learnsOffset (hsl : sensorlessTile s t = false) : ∃ u, Runs (.alignEnd t) s u
    ∧ u.tiles[t].foc.regs.offsetValid = true
    ∧ u.tiles[t].foc.regs.angleOffset =
      -encoderAngle { s.tiles[t].foc with regs := { s.tiles[t].foc.regs with angleOffset := 0 } } (srcCount s.encs[tileEnc t])
    ∧ { u with tiles := s.tiles } = s := by
  refine ⟨modFoc t (learnOffset t s) s, ?_, ?_, ?_, rfl⟩
  · exact (alignEnd_decides hst hfor).trans (by rw [if_neg (Bool.eq_false_iff.1 hsl)])
  · rw [modFoc_foc, learnOffset]
  · rw [modFoc_foc, learnOffset]

end

/-! ### Convergence and the handover (R372, R376) -/

/-- Convergence stands in the registers and is told. -/
def tellConverged (t : Fin 16) (s : State) : State :=
  note Ev.obsConvergedEvt (srcTile t) 0 0 0 (modFocRegs t (fun r => { r with obsConverged := true }) s)

section
variable {t : Fin 16} {s : State}

section
variable {t0 : Fix} (hrun : runsObserver s t = true) (hmode : s.tiles[t].regs.mode = 1)
  (hconv : s.tiles[t].foc.regs.obsConverged = false) (hsince : s.tiles[t].foc.convSince = some t0)
  (hp : hasPassed t0 (1000000 * s.tiles[t].foc.regs.convTime.toNat) s = true)
include hrun hmode hconv hsince hp

theorem obsConvergedEvt_tells (hsrc : s.tiles[t].foc.regs.angleSrc = false) :
    Runs (.obsConvergedEvt t) s (tellConverged t s) := by
  refine (if_neg ?_).trans (congrArg Host.Outcome.next (if_neg (Bool.eq_false_iff.1 hsrc)))
  rw [hrun, hmode, hconv, runPassed_of_since hsince hp, hsrc]
  exact Bool.false_ne_true

theorem obsConvergedEvt_handsOver (hsrc : s.tiles[t].foc.regs.angleSrc = true) (hst : inStart s t 6 = true) :
    Runs (.obsConvergedEvt t) s (handOver t (tellConverged t s)) := by
  refine (if_neg ?_).trans (congrArg Host.Outcome.next (if_pos hsrc))
  rw [hrun, hmode, hconv, runPassed_of_since hsince hp, hst, Bool.or_true]
  exact Bool.false_ne_true

end

theorem obsConvergedEvt_waits (h : s.tiles[t].foc.regs.obsConverged = true ∨ s.tiles[t].foc.convSince = none) :
    Runs (.obsConvergedEvt t) s s := by
  refine if_pos ?_
  obtain hconv | hsince := h
  · rw [hconv, Bool.not_true, Bool.and_false, Bool.false_and, Bool.false_and]
    rfl
  · rw [runPassed_of_none hsince, Bool.and_false, Bool.false_and]
    rfl

end

/-! ### A start that times out (R378) -/

/-- Try n of the start is over, and the wait for the next one begins. -/
def endTry (n : BitVec 4) (s : State) (f : Foc) : Foc :=
  { enterStart 0 s f with retryAt := some s.dt, regs := { (enterStart 0 s f).regs with startTries := n } }
/-- The retries are used up. -/
def countStartFail (r : FocRegs) : FocRegs :=
  { r with
    startFailCount := satInc r.startFailCount, startFailSeen := true
    cntOvf := r.cntOvf || satFull r.startFailCount }
/-- The start is made again, from LISTEN or from ALIGN. -/
def restart (s : State) (f : Foc) : Foc :=
  { enterStart (if f.regs.flyEn then 1 else 4) s f with retryAt := none, olTheta := thetaZero f.startPos, olVel := 0 }
/-- What a start made again begins with: without flying start the tile aligns, and the position is no longer certain. -/
def restartBase (t : Fin 16) (s : State) : State :=
  if s.tiles[t].foc.regs.flyEn then s else markUncertain (tileAxis t) s

theorem restartBase_tiles (t : Fin 16) (s : State) : (restartBase t s).tiles = s.tiles := by
  unfold restartBase
  split
  · rfl
  · exact markUncertain_tiles _ s

section
variable {t : Fin 16} {s : State}

section
variable (hsl : sensorlessTile s t = true) (hst : inStart s t 6 = true ∨ inStart s t 1 = true)
  (hfor : inStartFor s t s.tiles[t].foc.regs.tStartTimeout.toNat = true)
include hsl hst hfor

theorem startTimeout_guard : ¬ (!(sensorlessTile s t && (inStart s t 6 || inStart s t 1)
    && inStartFor s t s.tiles[t].foc.regs.tStartTimeout.toNat)) = true := by
  rw [hsl, hfor, Bool.or_eq_true_iff.2 hst]
  decide

theorem startTimeout_retries
    (hn : s.tiles[t].foc.regs.startTries.toNat < s.tiles[t].foc.regs.startRetries.toNat) : ∃ u, Runs (.startTimeout t) s u
      ∧ u.tiles[t].foc.retryAt = some s.dt ∧ u.tiles[t].foc.regs.startTries = s.tiles[t].foc.regs.startTries + 1
      ∧ u.axes = s.axes ∧ u.events =
        (note Ev.startRetry (srcTile t) ((s.tiles[t].foc.regs.startTries + 1).zeroExtend 32) 0 0 s).events := by
  have hfoc := modFoc_foc t (endTry (s.tiles[t].foc.regs.startTries + 1) s) s
  exact ⟨_, (if_neg (startTimeout_guard hsl hst hfor)).trans (if_pos hn), congrArg Foc.retryAt hfoc,
    congrArg (fun f : Foc => f.regs.startTries) hfoc, rfl, rfl⟩

theorem startTimeout_fails (hn : s.tiles[t].foc.regs.startRetries.toNat ≤ s.tiles[t].foc.regs.startTries.toNat) {w : State}
    (hw : w = modFocRegs t countStartFail s) :
    Runs (.startTimeout t) s (disableAxis (tileAxis t) (raise Ev.startFailed (srcTile t) w.policy.startFailed false
      (s.tiles[t].foc.regs.startTries.zeroExtend 32) 0 0 [tileAxis t] w)) := by
  subst hw
  exact (if_neg (startTimeout_guard hsl hst hfor)).trans (if_neg (Nat.not_lt.2 hn))

end

section
variable {t0 : Fix} (hsl : sensorlessTile s t = true) (hrun : s.tiles[t].regs.tileState = 2)
  (hat : s.tiles[t].foc.retryAt = some t0)
  (hp : hasPassed t0 (1000000 * s.tiles[t].foc.regs.tRetryWait.toNat) s = true)
include hsl hrun hat hp

theorem startRetryWaitEnd_restarts :
    Runs (.startRetryWaitEnd t) s (modFoc t (restart (restartBase t s)) (restartBase t s)) := by
  refine if_pos ?_
  rw [hsl, hrun, runPassed_of_since hat hp]
  rfl

theorem startRetryWaitEnd_starts : ∃ u, Runs (.startRetryWaitEnd t) s u ∧ u.tiles[t].foc.retryAt = none
    ∧ u.tiles[t].foc.regs.startState =
      (enterStart (if s.tiles[t].foc.regs.flyEn then 1 else 4) s s.tiles[t].foc).regs.startState
    ∧ (s.tiles[t].foc.regs.flyEn = true → { u with tiles := s.tiles } = s)
    ∧ (s.tiles[t].foc.regs.flyEn = false → { u with tiles := s.tiles } = markUncertain (tileAxis t) s) := by
  have hfoc : (modFoc t (restart (restartBase t s)) (restartBase t s)).tiles[t].foc =
      restart (restartBase t s) s.tiles[t].foc := by rw [modFoc_foc, restartBase_tiles]
  have hframe : { restartBase t s with tiles := s.tiles } = restartBase t s :=
    congrArg (fun v => { restartBase t s with tiles := v }) (restartBase_tiles t s).symm
  refine ⟨_, startRetryWaitEnd_restarts hsl hrun hat hp, congrArg Foc.retryAt hfoc, ?_, fun h => hframe.trans (if_pos h),
    fun h => hframe.trans (if_neg (Bool.eq_false_iff.1 h))⟩
  rw [hfoc]
  rfl

end

theorem startRetryWaitEnd_waits (h : s.tiles[t].foc.retryAt = none) : Runs (.startRetryWaitEnd t) s s := by
  refine if_neg ?_
  rw [runPassed_of_none h, Bool.and_false]
  exact Bool.false_ne_true

end

/-! ### A lost observer (R377) -/

/-- The tile goes on in RAMP, from the angle and the speed that the observer had. -/
def loseObserver (s : State) (f : Foc) : Foc :=
  { enterStart 5 s f with
    lostSince := none, olTheta := f.regs.thetaObs, olVel := fixInt f.omegaObs.toInt, blendAt := none
    regs := { (enterStart 5 s f).regs with obsLostSeen := true } }

section
variable {t : Fin 16} {s : State}

theorem observerLost_ramps {t0 : Fix} (hsl : sensorlessTile s t = true) (hst : inStart s t 7 = true)
    (hsince : s.tiles[t].foc.lostSince = some t0)
    (hp : hasPassed t0 (1000000 * s.tiles[t].foc.regs.convTime.toNat) s = true) : ∃ w, w.tiles[t].foc.lostSince = none
      ∧ w.tiles[t].foc.regs = { (enterStart 5 s s.tiles[t].foc).regs with obsLostSeen := true }
      ∧ { w with tiles := s.tiles } = s ∧ Runs (.observerLost t) s
        (raise Ev.observerLost (srcTile t) w.policy.obsLost false 0 s.tiles[t].foc.regs.pllErr 0 [tileAxis t] w) := by
  have hfoc := modFoc_foc t (loseObserver s) s
  refine ⟨modFoc t (loseObserver s) s, congrArg Foc.lostSince hfoc, congrArg Foc.regs hfoc, rfl, if_neg ?_⟩
  rw [hsl, hst, runPassed_of_since hsince hp]
  decide

theorem observerLost_waits (h : s.tiles[t].foc.lostSince = none) : Runs (.observerLost t) s s := by
  refine if_pos ?_
  rw [runPassed_of_none h, Bool.and_false]
  rfl

end

/-! ### Current measurement (R364, R368) -/

section
variable {t : Fin 16} {s w : State}

theorem currentSumError_waits (h : s.tiles[t].foc.sumRun < 8) : Runs (.currentSumError t) s s := if_pos h

theorem currentSumError_told (h : 8 ≤ s.tiles[t].foc.sumRun)
    (hw : w = modFoc t (fun f => { f with sumRun := 0, regs := { f.regs with sumErrSeen := true } }) s) :
    Runs (.currentSumError t) s (raise Ev.currentSumError (srcTile t) w.policy.sumErr false 0
      (sat32 (s.tiles[t].foc.iu.toInt + s.tiles[t].foc.iv.toInt + s.tiles[t].foc.iw.toInt)) 0 [tileAxis t] w) := by
  subst hw
  exact if_neg (Nat.not_lt.2 h)

theorem senseNoWindow_waits
    (h : s.tiles[t].foc.noWindow = true ∨ s.tiles[t].foc.predRun ≤ s.tiles[t].foc.regs.predMax.toNat) :
    Runs (.senseNoWindow t) s s := by
  refine if_pos ?_
  rw [Bool.or_eq_true, decide_eq_true_eq]
  exact h

theorem senseNoWindow_told (hno : s.tiles[t].foc.noWindow = false)
    (hrun : s.tiles[t].foc.regs.predMax.toNat < s.tiles[t].foc.predRun)
    (hw : w = modFoc t (fun f => { f with noWindow := true, goodRun := 0, regs := { f.regs with noWindowSeen := true } }) s) :
    Runs (.senseNoWindow t) s
      (raise Ev.senseNoWindow (srcTile t) w.policy.noWindow true (natWord s.tiles[t].foc.predRun) 0 0 [tileAxis t] w) := by
  subst hw
  refine if_neg ?_
  rw [hno, Bool.false_or, decide_eq_true_eq]
  exact Nat.not_le.2 hrun

end

/-! ### Identification (R381) -/

/-- The first step of the run with an implausible result. -/
def failedStep (t : Fin 16) (o : IdentOutcome) (s : State) : Option Nat :=
  (List.range 5).find? fun i => s.tiles[t].foc.identMask.getLsbD i && stepImplausible s t o i
/-- The steps that count: those of the mask before the failed one. -/
def doneSteps (mask : BitVec 5) (fails : Option Nat) : BitVec 5 :=
  mask &&& (match fails with
    | some i => BitVec.ofNat 5 (2 ^ i - 1)
    | none => 31)
/-- The value of step i: the measured one where the step is done. -/
def pickStep (done : BitVec 5) (i : Nat) (new old : Word) : Word := if done.getLsbD i then new else old
/-- The run has ended with the values of its done steps. -/
def endIdent (o : IdentOutcome) (fails : Option Nat) (done : BitVec 5) (s : State) (f : Foc) : Foc :=
  { f with
    regs := { f.regs with identifying := false, offsetValid := f.regs.offsetValid || done.getLsbD 0 }
    ident := { f.ident with
      identDone := done, identFailStep := (fails.map (BitVec.ofNat 3)).getD 7, identState := if fails.isSome then 7 else 6
      idOffset := pickStep done 0 o.offset f.ident.idOffset, idRs := pickStep done 1 o.rs f.ident.idRs
      idLd := pickStep done 2 o.ld f.ident.idLd, idLq := pickStep done 2 o.lq f.ident.idLq
      idPsi := pickStep done 3 o.psi f.ident.idPsi, idKa := pickStep done 4 o.ka f.ident.idKa
      idKb := pickStep done 4 o.kb f.ident.idKb, idKf := pickStep done 4 o.kf f.ident.idKf, idRunDt := nsLo s.dt } }
/-- The MOTOR_IDENTIFY that awaits the end of the tile's run. -/
def ownIdentify (t : Fin 16) (q : PendingOp) : Bool := q.op = 0x0907 && q.target.toNat = t.val

section
variable {t : Fin 16} {o : IdentOutcome} {s : State}

theorem identComplete_idle (h : s.tiles[t].foc.regs.identifying = false) : Runs (.identComplete t o) s s :=
  if_pos (by rw [h]; rfl)

theorem identComplete_ends (h : s.tiles[t].foc.regs.identifying = true) {fails : Option Nat} {done : BitVec 5}
    (hf : fails = failedStep t o s) (hd : done = doneSteps s.tiles[t].foc.identMask fails) :
    Runs (.identComplete t o) s (endOps (ownIdentify t) (if fails.isSome then Status.identImplausible else Status.ok)
      (modFoc t (endIdent o fails done s) (drawn s))) := by
  subst hf hd
  exact if_neg (by rw [h]; decide)

theorem identComplete_values (h : s.tiles[t].foc.regs.identifying = true) (fails : Option Nat) (done : BitVec 5)
    (hf : fails = failedStep t o s) (hd : done = doneSteps s.tiles[t].foc.identMask fails) :
    ∃ w, w.tiles[t].foc.regs.identifying = false ∧ w.tiles[t].foc.ident.identDone = done
      ∧ (done.getLsbD 1 = true → w.tiles[t].foc.ident.idRs = o.rs)
      ∧ (done.getLsbD 1 = false → w.tiles[t].foc.ident.idRs = s.tiles[t].foc.ident.idRs)
      ∧ (done.getLsbD 2 = true → w.tiles[t].foc.ident.idLd = o.ld ∧ w.tiles[t].foc.ident.idLq = o.lq)
      ∧ (done.getLsbD 3 = true → w.tiles[t].foc.ident.idPsi = o.psi)
      ∧ { w with tiles := s.tiles, freeCtr := s.freeCtr } = s
      ∧ (fails = none → w.tiles[t].foc.ident.identState = 6
        ∧ Runs (.identComplete t o) s (endOps (ownIdentify t) Status.ok w))
      ∧ (fails.isSome = true → w.tiles[t].foc.ident.identState = 7
        ∧ Runs (.identComplete t o) s (endOps (ownIdentify t) Status.identImplausible w)) := by
  have hend := identComplete_ends h hf hd
  have hfoc := modFoc_foc t (endIdent o fails done s) (drawn s)
  refine ⟨modFoc t (endIdent o fails done s) (drawn s), ?_⟩
  rw [hfoc]
  refine ⟨rfl, rfl, fun hb => if_pos hb, fun hb => if_neg (Bool.eq_false_iff.1 hb), fun hb => ⟨if_pos hb, if_pos hb⟩,
    fun hb => if_pos hb, rfl, ?passed, fun hb => ⟨if_pos hb, by rwa [if_pos hb] at hend⟩⟩
  case passed =>
    rintro rfl
    exact ⟨rfl, hend⟩

end

/-- Settles O45: each event's condition is the one that its command tests. That nothing happens otherwise is the model's choice
(log entry 17). -/
theorem sensorlessStartFollowsItsMeasurements : Obligations.SensorlessStartFollowsItsMeasurements := by
  unfold Obligations.SensorlessStartFollowsItsMeasurements
  refine ⟨fun t emf omega s => ?start, fun t o s => ?current⟩
  case start =>
    exact ⟨fun hsl hst hfor => ⟨listenEnd_stands hsl hst hfor, listenEnd_slow hsl hst hfor, listenEnd_catches hsl hst hfor⟩,
      listenEnd_waits, brakeEnd_aligns, fun hsl hst hfor => alignEnd_ramps hst hfor hsl,
      fun hsl hst hfor => alignEnd_learnsOffset hst hfor hsl,
      fun t0 hrun hmode hconv hsince hp n hn => hn ▸ ⟨obsConvergedEvt_tells hrun hmode hconv hsince hp,
        obsConvergedEvt_handsOver hrun hmode hconv hsince hp⟩,
      obsConvergedEvt_waits,
      fun hsl hst hfor => ⟨startTimeout_retries hsl hst hfor, fun hn w hw => startTimeout_fails hsl hst hfor hn hw⟩,
      fun _ => startRetryWaitEnd_starts, startRetryWaitEnd_waits, fun _ => observerLost_ramps, observerLost_waits⟩
  case current =>
    exact ⟨currentSumError_waits, fun h w hw => currentSumError_told h hw, senseNoWindow_waits,
      fun hno hrun w hw => senseNoWindow_told hno hrun hw, identComplete_idle, identComplete_values⟩

end Sys2Proof.Machine
end

section
/-! PROOF. What the events of a stepper or valve tile do to its coils: the bitstream chopper (R393 to R397), the idle current
(R392), the stall (R398, R399), the coil measurement (R405, R406) and the open coil (R406). -/

namespace Sys2Proof.Machine

/-! ### What the writes of a coil's tile leave -/

section
variable (t : Fin 16) (c : Fin 2) (s : State)

@[simp] theorem modSv_sv (f : Sv → Sv) : (modSv t f s).tiles[t].sv = f s.tiles[t].sv :=
  congrArg Tile.sv (upd_self ..)
@[simp] theorem modSvRegs_sv (f : SvRegs → SvRegs) :
    (modSvRegs t f s).tiles[t].sv = { s.tiles[t].sv with regs := f s.tiles[t].sv.regs } :=
  modSv_sv ..
@[simp] theorem modChop_sv (f : Chopper → Chopper) :
    (modChop t c f s).tiles[t].sv = { s.tiles[t].sv with chop := upd s.tiles[t].sv.chop c f } :=
  modSv_sv t s fun v => { v with chop := upd v.chop c f }

end

/-! ### Blanking and fast decay (R394, R395) -/

section
variable {t : Fin 16} {c : Fin 2} {s : State}

theorem blankingEnd_decides (hb : s.tiles[t].sv.chop[c].blank = true)
    (hp : hasPassed s.tiles[t].sv.chop[c].blankAt s.tiles[t].sv.regs.tBlank.toNat s = true) :
    Runs (.blankingEnd t c) s (showChop t c (chopDecide t c (modChop t c (fun x => { x with blank := false }) s))) := by
  refine if_pos ?_
  rw [Bool.and_eq_true]
  exact ⟨hb, hp⟩

theorem blankingEnd_waits (h : s.tiles[t].sv.chop[c].blank = false
    ∨ hasPassed s.tiles[t].sv.chop[c].blankAt s.tiles[t].sv.regs.tBlank.toNat s = false) :
    Runs (.blankingEnd t c) s s := by
  refine if_neg ?_
  rw [Bool.not_eq_true, Bool.and_eq_false_iff]
  exact h

theorem chopperFastEnd_slows (hst : s.tiles[t].sv.chop[c].state = 3) (hd : s.tiles[t].sv.regs.decay = 2)
    (hp : hasPassed s.tiles[t].sv.chop[c].fastAt s.tiles[t].sv.regs.tFast.toNat s = true) :
    Runs (.chopperFastEnd t c) s (showChop t c (setChop t c 2 (decide (0 < coilRef s t c)) s)) := by
  refine if_pos ?_
  rw [Bool.and_eq_true, Bool.and_eq_true, decide_eq_true_eq, decide_eq_true_eq]
  exact ⟨⟨hst, hd⟩, hp⟩

theorem chopperFastEnd_waits (h : s.tiles[t].sv.chop[c].state ≠ 3 ∨ s.tiles[t].sv.regs.decay ≠ 2
    ∨ hasPassed s.tiles[t].sv.chop[c].fastAt s.tiles[t].sv.regs.tFast.toNat s = false) :
    Runs (.chopperFastEnd t c) s s := by
  refine if_neg ?_
  rw [Bool.not_eq_true, Bool.and_eq_false_iff, Bool.and_eq_false_iff, decide_eq_false_iff_not, decide_eq_false_iff_not,
    or_assoc]
  exact h

end

/-! ### The overlong drive (R397) -/

/-- Coil c of tile t is underdriven, and its chopper keeps whether that has been told. -/
def markUnderdriven (t : Fin 16) (c : Fin 2) (s : State) : State :=
  modSvRegs t (fun r => { r with
    underdrive := r.underdrive ||| BitVec.ofNat 2 (2 ^ c.val), underdriveCount := satInc r.underdriveCount
    underdriveSeen := true, cntOvf := r.cntOvf || satFull r.underdriveCount })
    (modChop t c (fun x => { x with under := true, told := x.told || x.reached }) s)

section
variable {t : Fin 16} {c : Fin 2} {s : State}

theorem chopperDriveTimeout_waits (h : s.tiles[t].sv.chop[c].state ≠ 1 ∨ s.tiles[t].sv.chop[c].under = true
    ∨ hasPassed s.tiles[t].sv.chop[c].driveAt (1000 * s.tiles[t].sv.regs.tDriveMax.toNat) s = false) :
    Runs (.chopperDriveTimeout t c) s s := by
  refine if_pos ?_
  rw [Bool.or_eq_true, Bool.or_eq_true, decide_eq_true_eq, Bool.not_eq_true', or_assoc]
  exact h

section
variable (hst : s.tiles[t].sv.chop[c].state = 1) (hu : s.tiles[t].sv.chop[c].under = false)
  (hp : hasPassed s.tiles[t].sv.chop[c].driveAt (1000 * s.tiles[t].sv.regs.tDriveMax.toNat) s = true)
include hst hu hp

/-- The coil is underdriven in either case; whether its current ever reached HYST tells an open coil from a weak supply. -/
theorem chopperDriveTimeout_judges : Runs (.chopperDriveTimeout t c) s (showChop t c (
    if !s.tiles[t].sv.chop[c].reached then coilFault t c 4 (markUnderdriven t c s)
    else if s.tiles[t].sv.chop[c].told then markUnderdriven t c s
    else note Ev.coilUnderdrive (srcTile t) (natWord c.val) 0 0 (markUnderdriven t c s))) := by
  refine if_neg ?_
  rw [hst, hu, hp]
  decide

theorem chopperDriveTimeout_underdrives : ∃ w,
    w.tiles[t].sv.regs.underdrive = s.tiles[t].sv.regs.underdrive ||| BitVec.ofNat 2 (2 ^ c.val)
    ∧ w.tiles[t].sv.regs.underdriveCount = satInc s.tiles[t].sv.regs.underdriveCount ∧ w.tiles[t].sv.chop[c].under = true
    ∧ { w with tiles := s.tiles } = s
    ∧ (s.tiles[t].sv.chop[c].reached = false → Runs (.chopperDriveTimeout t c) s (showChop t c (coilFault t c 4 w)))
    ∧ (s.tiles[t].sv.chop[c].reached = true → s.tiles[t].sv.chop[c].told = false → Runs (.chopperDriveTimeout t c) s
        (showChop t c (note Ev.coilUnderdrive (srcTile t) (natWord c.val) 0 0 w)))
    ∧ (s.tiles[t].sv.chop[c].reached = true → s.tiles[t].sv.chop[c].told = true →
        Runs (.chopperDriveTimeout t c) s (showChop t c w)) := by
  have hrun := chopperDriveTimeout_judges hst hu hp
  refine ⟨markUnderdriven t c s, ?bit, ?count, ?under, rfl, fun hr => ?opened, fun hr ht => ?first, fun hr ht => ?again⟩
  case bit | count => rw [markUnderdriven, modSvRegs_sv, modChop_sv]
  case under =>
    rw [markUnderdriven, modSvRegs_sv, modChop_sv]
    exact congrArg Chopper.under (upd_self ..)
  case opened => rwa [hr] at hrun
  case first | again => rwa [hr, ht] at hrun

end

end

/-! ### The idle current and the stall (R392, R398, R399) -/

/-- The axis homes on a hard stop: a stall is what its method waits for (R202). -/
def homesOnStall (t : Fin 16) (s : State) : Bool :=
  (s.axes[tileAxis t].home).any fun h => decide (h.method = 9) || decide (h.method = 10)
/-- The stall stands in the registers of its tile; it is in force unless the axis homes on it. -/
def markStall (t : Fin 16) (s : State) : State :=
  modSv t (fun v => { v with
    stallRun := 0
    regs := { v.regs with
      stalled := !homesOnStall t s, stallCount := satInc v.regs.stallCount, stallSeen := true
      cntOvf := v.regs.cntOvf || satFull v.regs.stallCount } }) s

section
variable {t : Fin 16} {s : State}

theorem stepIdleTimeout_idles {t0 : Fix} (hs : s.tiles[t].sv.idleSince = some t0)
    (hp : hasPassed t0 (1000000 * s.tiles[t].sv.regs.tIdle.toNat) s = true) :
    ∃ u, Runs (.stepIdleTimeout t) s u ∧ u.tiles[t].sv.idle = true ∧ { u with tiles := s.tiles } = s :=
  ⟨modSv t (fun v => { v with idle := true }) s, if_pos (runPassed_of_since hs hp), by rw [modSv_sv], rfl⟩

theorem stepIdleTimeout_waits (hs : s.tiles[t].sv.idleSince = none) : Runs (.stepIdleTimeout t) s s :=
  if_neg (Bool.eq_false_iff.1 (runPassed_of_none hs))

theorem stall_waits (h : s.tiles[t].sv.stallRun < s.tiles[t].sv.regs.stallN.toNat ∨ s.tiles[t].sv.regs.stalled = true) :
    Runs (.stall t) s s := by
  refine if_pos ?_
  rw [Bool.or_eq_true, decide_eq_true_eq]
  exact h

section
variable (hn : s.tiles[t].sv.regs.stallN.toNat ≤ s.tiles[t].sv.stallRun) (hst : s.tiles[t].sv.regs.stalled = false)
include hn hst

theorem stall_decides : Runs (.stall t) s (
    if homesOnStall t s then
      stallHome (tileAxis t) (note Ev.stall (srcTile t) 0 s.tiles[t].sv.regs.loadAngle 0 (markStall t s))
    else raise Ev.stall (srcTile t) (markStall t s).policy.stall false 0 s.tiles[t].sv.regs.loadAngle 0 [tileAxis t]
      (markUncertain (tileAxis t) (markStall t s))) := by
  refine (if_neg ?_).trans (apply_ite ..).symm
  rw [hst, Bool.or_false, decide_eq_true_eq]
  exact Nat.not_lt.2 hn

theorem stall_stops_or_homes : ∃ w, w.tiles[t].sv.stallRun = 0
    ∧ w.tiles[t].sv.regs.stallCount = satInc s.tiles[t].sv.regs.stallCount
    ∧ w.tiles[t].sv.regs.stalled = !homesOnStall t s ∧ { w with tiles := s.tiles } = s
    ∧ (homesOnStall t s = true → Runs (.stall t) s
        (stallHome (tileAxis t) (note Ev.stall (srcTile t) 0 s.tiles[t].sv.regs.loadAngle 0 w)))
    ∧ (homesOnStall t s = false → Runs (.stall t) s (raise Ev.stall (srcTile t) w.policy.stall false 0
        s.tiles[t].sv.regs.loadAngle 0 [tileAxis t] (markUncertain (tileAxis t) w))) := by
  have hrun := stall_decides hn hst
  refine ⟨markStall t s, ?run, ?count, ?stalled, rfl, fun hh => ?homes, fun hh => ?stops⟩
  case run | count | stalled => rw [markStall, modSv_sv]
  case homes => rwa [if_pos hh] at hrun
  case stops => rwa [if_neg (Bool.eq_false_iff.1 hh)] at hrun

end

end

/-! ### The measurement of a coil (R405, R406) -/

/-- COIL_R by what was measured: free where the current reads 0. -/
def measuredRes (m : CoilMeasure) (s : State) : Word := f32Div m.volts m.amps (freeWord s)
/-- COIL_L: COIL_R by the time constant. -/
def measuredInd (m : CoilMeasure) (s : State) : Word :=
  (f32Mul (measuredRes m s) m.tau (BitVec.ofNat 32 (Config.freeNat (s.freeCtr + 1)))).1
/-- The measurement of coil c is over, with its resistance and inductance. -/
def storeCoil (c : Fin 2) (r l : Word) (v : Sv) : Sv :=
  { v with
    measLeft := v.measLeft &&& ~~~(BitVec.ofNat 2 (2 ^ c.val))
    regs := if c = 0 then { v.regs with measR0 := r, measL0 := l } else { v.regs with measR1 := r, measL1 := l } }
/-- The values of coil c stand in the registers of tile t and are told. -/
def tellCoil (t : Fin 16) (c : Fin 2) (m : CoilMeasure) (s : State) : State :=
  note Ev.coilMeasured (srcTile t) (natWord c.val) (f32Scaled (s.freeCtr + 2) 1000 (measuredRes m s))
    (f32Scaled (s.freeCtr + 3) 1000000 (measuredInd m s))
    (modSv t (storeCoil c (measuredRes m s) (measuredInd m s)) (drew 4 s))
/-- The final current is below 1 % of full scale, or the resistance above R_MAX where that is checked: cause 2 of R406. -/
def coilTooWeak (g : SvRegs) (m : CoilMeasure) (r : Word) : Bool :=
  lowCurrent g m.amps || (0 < f149 g.rMax && f149 g.rMax < f149 r)

theorem coilTooWeak_iff {g : SvRegs} {m : CoilMeasure} {r : Word} :
    coilTooWeak g m r = true ↔ lowCurrent g m.amps = true ∨ (0 < f149 g.rMax ∧ f149 g.rMax < f149 r) := by
  rw [coilTooWeak, Bool.or_eq_true, Bool.and_eq_true, decide_eq_true_eq, decide_eq_true_eq]

theorem storeCoil_measLeft (c : Fin 2) (r l : Word) (v : Sv) : (storeCoil c r l v).measLeft.getLsbD c.val = false := by
  have hbit : (BitVec.ofNat 2 (2 ^ c.val)).getLsbD c.val = true := by
    rw [BitVec.getLsbD_ofNat, Nat.testBit_two_pow_self, decide_eq_true c.isLt]
    rfl
  rw [storeCoil, BitVec.getLsbD_and, BitVec.getLsbD_not, hbit, Bool.not_true, Bool.and_false, Bool.and_false]

theorem storeCoil_res (c : Fin 2) (r l : Word) (v : Sv) :
    (if c = 0 then (storeCoil c r l v).regs.measR0 else (storeCoil c r l v).regs.measR1) = r := by
  rw [storeCoil]
  split <;> rfl

section
variable {t : Fin 16} {c : Fin 2} {m : CoilMeasure} {s : State}

theorem tellCoil_sv : (tellCoil t c m s).tiles[t].sv = storeCoil c (measuredRes m s) (measuredInd m s) s.tiles[t].sv :=
  modSv_sv ..

theorem coilMeasureEnd_waits (h : s.tiles[t].sv.measLeft.getLsbD c.val = false
    ∨ hasPassed s.tiles[t].sv.measAt (1000000 * s.tiles[t].sv.regs.tMeas.toNat) s = false) :
    Runs (.coilMeasureEnd t c m) s s := by
  refine if_pos ?_
  rw [Bool.or_eq_true, Bool.not_eq_true', Bool.not_eq_true']
  exact h

section
variable (hl : s.tiles[t].sv.measLeft.getLsbD c.val = true)
  (hp : hasPassed s.tiles[t].sv.measAt (1000000 * s.tiles[t].sv.regs.tMeas.toNat) s = true)
include hl hp

theorem coilMeasureEnd_judges : Runs (.coilMeasureEnd t c m) s (
    if f149 (measuredRes m s) < f149 s.tiles[t].sv.regs.rMin then measureFails t c 1 (tellCoil t c m s)
    else if coilTooWeak s.tiles[t].sv.regs m (measuredRes m s) then measureFails t c 2 (tellCoil t c m s)
    else if (tellCoil t c m s).tiles[t].sv.measLeft = 0 then stageCoils t (tellCoil t c m s) else tellCoil t c m s) := by
  refine (if_neg (by rw [hl, hp]; decide)).trans ?_
  rw [apply_ite Host.Outcome.next, apply_ite Host.Outcome.next, apply_ite Host.Outcome.next]
  rfl

theorem coilMeasureEnd_measures : ∃ w r, w.tiles[t].sv.measLeft.getLsbD c.val = false
    ∧ (if c = 0 then w.tiles[t].sv.regs.measR0 else w.tiles[t].sv.regs.measR1) = r
    ∧ r = f32Div m.volts m.amps (freeWord s) ∧ w.axes = s.axes ∧ w.power = s.power
    ∧ (f149 r < f149 s.tiles[t].sv.regs.rMin → Runs (.coilMeasureEnd t c m) s (measureFails t c 1 w))
    ∧ (f149 s.tiles[t].sv.regs.rMin ≤ f149 r → lowCurrent s.tiles[t].sv.regs m.amps = true ∨
        (0 < f149 s.tiles[t].sv.regs.rMax ∧ f149 s.tiles[t].sv.regs.rMax < f149 r) →
        Runs (.coilMeasureEnd t c m) s (measureFails t c 2 w))
    ∧ (f149 s.tiles[t].sv.regs.rMin ≤ f149 r → lowCurrent s.tiles[t].sv.regs m.amps = false →
        f149 s.tiles[t].sv.regs.rMax ≤ 0 ∨ f149 r ≤ f149 s.tiles[t].sv.regs.rMax →
        Runs (.coilMeasureEnd t c m) s (if w.tiles[t].sv.measLeft = 0 then stageCoils t w else w)) := by
  have hrun := coilMeasureEnd_judges (m := m) hl hp
  refine ⟨tellCoil t c m s, measuredRes m s, ?left, ?res, rfl, rfl, rfl, fun hlow => ?low, fun hmin hbad => ?weak,
    fun hmin hcur hmax => ?good⟩
  case left =>
    rw [tellCoil_sv]
    exact storeCoil_measLeft ..
  case res =>
    rw [tellCoil_sv]
    exact storeCoil_res ..
  case low => rwa [if_pos hlow] at hrun
  case weak => rwa [if_neg (Int.not_lt.2 hmin), if_pos (coilTooWeak_iff.2 hbad)] at hrun
  case good =>
    have hok : ¬ coilTooWeak s.tiles[t].sv.regs m (measuredRes m s) = true := by
      intro hweak
      obtain hlow | ⟨hon, habove⟩ := coilTooWeak_iff.1 hweak
      · exact absurd hlow (Bool.eq_false_iff.1 hcur)
      · omega
    rwa [if_neg (Int.not_lt.2 hmin), if_neg hok] at hrun

end

end

/-! ### The settling after it, and the open coil (R405, R406) -/

/-- The settling of tile t is over, and the set-point of its axis is the position at rest. -/
def endSettling (t : Fin 16) (s : State) : State :=
  modAxis (tileAxis t) (fun ax => { ax with regs := { ax.regs with spPos := ax.regs.actPos, spVel := 0, spAcc := 0 } })
    (modSv t (fun v => { v with settling := false }) s)

section
variable {t : Fin 16} {c : Fin 2} {s : State}

theorem endSettling_axis : (endSettling t s).axes[tileAxis t].regs =
    { s.axes[tileAxis t].regs with spPos := s.axes[tileAxis t].regs.actPos, spVel := 0, spAcc := 0 } :=
  congrArg Axis.regs (upd_self ..)

theorem coilMeasSettleEnd_starts (hs : s.tiles[t].sv.settling = true) (hp : hasPassed s.tiles[t].sv.measAt 1000000 s = true) :
    ∃ w, w.tiles[t].sv.settling = false ∧ w.axes[tileAxis t].regs.spPos = s.axes[tileAxis t].regs.actPos
      ∧ w.axes[tileAxis t].regs.spVel = 0 ∧ w.axes[tileAxis t].regs.spAcc = 0
      ∧ { w with tiles := s.tiles, axes := s.axes } = s ∧ Runs (.coilMeasSettleEnd t) s (startLoops t w) := by
  have hsv : (endSettling t s).tiles[t].sv = { s.tiles[t].sv with settling := false } :=
    modSv_sv t s fun v => { v with settling := false }
  refine ⟨endSettling t s, by rw [hsv], by rw [endSettling_axis], by rw [endSettling_axis], by rw [endSettling_axis], rfl,
    if_neg ?_⟩
  rw [hs, hp]
  decide

theorem coilMeasSettleEnd_waits (hs : s.tiles[t].sv.settling = false) : Runs (.coilMeasSettleEnd t) s s :=
  if_pos (by rw [hs]; rfl)

theorem coilOpenDetect_faults {t0 : Fix} (hm : s.tiles[t].regs.mode = 3) (ho : s.tiles[t].sv.openSince[c] = some t0)
    (hp : hasPassed t0 (1000000 * s.tiles[t].sv.regs.tOpen.toNat) s = true) : Runs (.coilOpenDetect t c) s
      (coilFault t c 3 (modSv t (fun v => { v with openSince := v.openSince.set c none }) s)) := by
  refine if_pos ?_
  rw [hm, runPassed_of_since ho hp]
  rfl

theorem coilOpenDetect_waits (ho : s.tiles[t].sv.openSince[c] = none) : Runs (.coilOpenDetect t c) s s := by
  refine if_neg ?_
  rw [runPassed_of_none ho, Bool.and_false]
  decide

end

/-- Settles O46: each event's condition is the one that its command tests. That an overlong drive without current both marks the
coil underdriven and faults it is log entry 149, and that nothing happens otherwise is the model's choice (log entry 17). -/
theorem chopperEventsMoveTheCoil : Obligations.ChopperEventsMoveTheCoil := by
  unfold Obligations.ChopperEventsMoveTheCoil
  intro t c bits m s v x inv homing
  exact ⟨rfl, blankingEnd_decides, blankingEnd_waits, chopperFastEnd_slows, chopperFastEnd_waits,
    chopperDriveTimeout_underdrives, chopperDriveTimeout_waits, fun _ => stepIdleTimeout_idles, stepIdleTimeout_waits, stall_waits,
    stall_stops_or_homes, coilMeasureEnd_waits, coilMeasureEnd_measures, coilMeasSettleEnd_starts, coilMeasSettleEnd_waits,
    fun _ => coilOpenDetect_faults, coilOpenDetect_waits⟩

end Sys2Proof.Machine
end

section
/-! PROOF. The queue's front, and what Caldera checks of itself: its two cores, its clock, its self-test and its switch bank
(R471 to R479), with the snapshot that shows it (R505). -/

namespace Sys2Proof.Machine

/-- Settles O1: a step's match on the queue meets its front command. -/
theorem stepRunsFront : Obligations.StepRunsFront := by
  intro c rest s
  rfl

/-! ### The cores, the clock and the self-test (R471, R472, R474) -/

section
variable {s : State}

/-- What a cycle does after the exchange of the cores, whether it raised a fault or not. -/
def evaluateCycle (agree : Bool) (s : State) : State :=
  (List.finRange 4).foldl (fun s o => cycleSbo o s)
    (cycleGroup 1 (cycleGroup 0 (modCal (fun c => { c with disagreed := !agree }) s)))

theorem calderaCycle_runs (agree : Bool) : Runs (.calderaCycle agree) s
    (evaluateCycle agree (if !agree && s.caldera.disagreed then calderaFault 1 s else s)) := rfl

theorem calderaCycle_tolerates {agree : Bool} (h : agree = true ∨ s.caldera.disagreed = false) :
    Runs (.calderaCycle agree) s (evaluateCycle agree s) := by
  have hok : ¬ (!agree && s.caldera.disagreed) = true := by
    rwa [Bool.not_eq_true, Bool.and_eq_false_iff, Bool.not_eq_false']
  have hrun := calderaCycle_runs agree (s := s)
  rwa [if_neg hok] at hrun

theorem calderaCycle_faults {agree : Bool} (ha : agree = false) (hd : s.caldera.disagreed = true) :
    Runs (.calderaCycle agree) s (evaluateCycle agree (calderaFault 1 s)) := by
  have hrun := calderaCycle_runs agree (s := s)
  rwa [if_pos (by rw [ha, hd]; decide)] at hrun

theorem calderaClockCheck_near {m f : Int} (hm : m.natAbs ≤ 15000) (hf : f.natAbs ≤ 15000) :
    Runs (.calderaClockCheck m f) s s := by
  refine congrArg _ (if_neg ?_)
  rw [Bool.or_eq_true, decide_eq_true_eq, decide_eq_true_eq]
  omega

theorem calderaClockCheck_far {m f : Int} (h : 15000 < m.natAbs ∨ 15000 < f.natAbs) :
    Runs (.calderaClockCheck m f) s (calderaFault 2 s) := by
  refine congrArg _ (if_pos ?_)
  rwa [Bool.or_eq_true, decide_eq_true_eq, decide_eq_true_eq]

theorem calderaSelfTest_over (h : s.caldera.selfTest = true ∨ s.caldera.fault.isSome = true) (pass : Bool) :
    Runs (.calderaSelfTest pass) s s :=
  if_pos ((Bool.or_eq_true ..).mpr h)

/-- The self-test lets the bring-up go on, whether it passes or not. -/
def bringUpGoesOn (s : State) : State := modPower (fun p => if p.boot = .caldera then bootStart s.dt p else p) s

theorem calderaSelfTest_runs (ht : s.caldera.selfTest = false) (hf : s.caldera.fault = none) (pass : Bool) :
    Runs (.calderaSelfTest pass) s (if pass then modCal (fun c => { c with selfTest := true }) (bringUpGoesOn s)
      else calderaFault 3 (bringUpGoesOn s)) := by
  refine (if_neg ?_).trans (apply_ite ..).symm
  rw [ht, hf]
  decide

theorem calderaFault_held {cause : BitVec 8} (h : s.caldera.fault.isSome = true) : calderaFault cause s = s := if_pos h

/-! ### The switch bank (R477, R479) -/

/-- A read of the bank shows its value, whatever it leads to. -/
def bankSeen (v : BitVec 16) (s : State) : State := modCal (fun c => { c with last := v }) s

variable {reads : Vector (BitVec 16) 18} {phase : Nat}

theorem switchBankRead_ignored (h : s.caldera.readFault = true ∨ s.caldera.changed = true) :
    Runs (.switchBankRead reads) s (bankSeen reads[0] s) :=
  if_pos ((Bool.or_eq_true ..).mpr h)

section
variable (hf : s.caldera.readFault = false) (hc : s.caldera.changed = false)
include hf hc

theorem switchBankRead_judged : ¬ (s.caldera.readFault || s.caldera.changed) = true := by
  rw [hf, hc]
  decide

theorem switchBankRead_bad (hb : bankFault reads = some phase) :
    Runs (.switchBankRead reads) s (safecfgFault (natWord phase) (bankSeen reads[0] s)) := by
  refine (if_neg (switchBankRead_judged hf hc)).trans ?_
  rw [hb]
  rfl

end

/-- The bank has changed since it was taken. -/
def bankChanged (v : BitVec 16) (s : State) : State :=
  allSboOff (bothSto Ev.safecfgChanged (calFaultEv Ev.safecfgChanged (groupMask 0 ||| groupMask 1) (v.zeroExtend 32) 0
    (modCal (fun c => { c with changed := true }) s)))
/-- The value that two reads gave is in use. -/
def useBank (v : BitVec 16) (s : State) : State := modCal (fun c => { c with used := v, cfgTaken := true }) s
/-- The value is taken; one that is not valid is told. -/
def takeBank (v : BitVec 16) (s : State) : State :=
  if cfgValue v then useBank v s
  else calFaultEv Ev.safecfgFault (groupMask 0 ||| groupMask 1) (freeWord (useBank v s)) 0 (drawn (useBank v s))
/-- A read without a fault gives v: compared with the value in use, taken as the second of two that agree, or the first. -/
def judgeBank (v : BitVec 16) (s : State) : State :=
  if s.caldera.cfgTaken then if v = s.caldera.used then s else bankChanged v s
  else if s.caldera.firstRead = some v then takeBank v s else modCal (fun c => { c with firstRead := some v }) s

theorem switchBankRead_good (hf : s.caldera.readFault = false) (hc : s.caldera.changed = false)
    (hb : bankFault reads = none) : Runs (.switchBankRead reads) s (judgeBank reads[0] (bankSeen reads[0] s)) := by
  refine (if_neg (switchBankRead_judged hf hc)).trans ?_
  rw [hb, judgeBank, takeBank]
  simp only [apply_ite Host.Outcome.next]
  rfl

variable {v : BitVec 16}

theorem judgeBank_same (ht : s.caldera.cfgTaken = true) (hv : v = s.caldera.used) : judgeBank v s = s :=
  (if_pos ht).trans (if_pos hv)
theorem judgeBank_changed (ht : s.caldera.cfgTaken = true) (hv : v ≠ s.caldera.used) : judgeBank v s = bankChanged v s :=
  (if_pos ht).trans (if_neg hv)
theorem judgeBank_first (ht : s.caldera.cfgTaken = false) (hr : s.caldera.firstRead ≠ some v) :
    judgeBank v s = modCal (fun c => { c with firstRead := some v }) s :=
  (if_neg (Bool.eq_false_iff.1 ht)).trans (if_neg hr)
theorem judgeBank_second (ht : s.caldera.cfgTaken = false) (hr : s.caldera.firstRead = some v) :
    judgeBank v s = takeBank v s :=
  (if_neg (Bool.eq_false_iff.1 ht)).trans (if_pos hr)
theorem takeBank_valid (h : cfgValue v = true) : takeBank v s = useBank v s := if_pos h
theorem takeBank_invalid (h : cfgValue v = false) : takeBank v s =
    calFaultEv Ev.safecfgFault (groupMask 0 ||| groupMask 1) (freeWord (useBank v s)) 0 (drawn (useBank v s)) :=
  if_neg (Bool.eq_false_iff.1 h)

end

/-- Settles O48: each case is what its command tests. That a failed self-test lets the bring-up go on is log entry 38, that a
changed bank raises SAFECFG_CHANGED whether its new value is valid or not log entry 140, and that nothing happens where the
command's condition fails the model's choice (log entry 17). -/
theorem calderaChecksItself : Obligations.CalderaChecksItself := by
  unfold Obligations.CalderaChecksItself
  intro agree m f reads phase cause s c seen cycle
  refine ⟨calderaCycle_tolerates, calderaCycle_faults, calderaClockCheck_near, calderaClockCheck_far,
    calderaSelfTest_over, fun ht hf w hw => ?selfTest,
    calderaFault_held, switchBankRead_ignored, switchBankRead_bad, fun hf hc hb => ?good,
    ⟨_, rfl, rfl, rfl, rfl, rfl, rfl⟩⟩
  case selfTest =>
    subst hw
    exact ⟨calderaSelfTest_runs ht hf true, calderaSelfTest_runs ht hf false⟩
  have hrun := switchBankRead_good hf hc hb
  refine ⟨fun ht hv => ?same, fun ht hv => ?changed, fun ht hr => ?first, fun ht hr w hw => ?second⟩
  case same => rwa [judgeBank_same (s := bankSeen reads[0] s) ht hv] at hrun
  case changed => rwa [judgeBank_changed (s := bankSeen reads[0] s) ht hv] at hrun
  case first => rwa [judgeBank_first (s := bankSeen reads[0] s) ht hr] at hrun
  case second =>
    rw [judgeBank_second (s := bankSeen reads[0] s) ht hr] at hrun
    subst hw
    exact ⟨fun h => by rwa [takeBank_valid h] at hrun, fun h => by rwa [takeBank_invalid h] at hrun⟩

end Sys2Proof.Machine
end

section
/-! PROOF. Caldera's safety inputs: their samples, discrepancies, test pulses and demands (R482 to R485), and the reset input
(R486). -/

namespace Sys2Proof.Machine

/-! ### Records of Caldera -/

/-- A fault of Caldera is a record and an entry of its history; nothing else of Caldera changes. -/
theorem calFaultEv_caldera (code : BitVec 16) (p0 p1 p2 : Word) (s : State) :
    ∃ h, (calFaultEv code p0 p1 p2 s).caldera = { s.caldera with history := h } := by
  have hraise : (drawn (calRaise code .note p0 p1 p2 [] s)).caldera = s.caldera := rfl
  rw [calFaultEv, calHistory, modCal_caldera, hraise]
  split
  · exact ⟨_, rfl⟩
  · split <;> exact ⟨_, rfl⟩

/-! ### The channel of an input -/

/-- The input that a channel belongs to. -/
def inputOf (ch : Fin 16) : Fin 8 := ⟨ch.val / 2, by omega⟩

theorem calChannel_inputOf (c : Caldera) (ch : Fin 16) :
    calChannel c ch = if ch.val % 2 = 0 then c.inputs[inputOf ch].a else c.inputs[inputOf ch].b := by
  have hlt : ch.val / 2 < 8 := by omega
  have hget : c.inputs.getD (ch.val / 2) {} = c.inputs[inputOf ch] := by
    simp [Vector.getD, Array.getD, inputOf, hlt]
  rw [calChannel, hget]
  rfl

/-! ### Samples and discrepancies (R483, R485) -/

section
variable {i : Fin 8} {s : State}

theorem sampleInputs_input (high : BitVec 16) (c : Caldera) (i : Fin 8) :
    (sampleInputs high c).inputs[i] = sampleInput ((c.tick + 1) % testTicks) high i c.inputs[i] := by
  simp only [sampleInputs, Fin.getElem_fin, Vector.getElem_ofFn]

theorem discrepancy_waits
    (h : s.caldera.inputs[i].disc = true ∨ s.caldera.inputs[i].disagree + 1 ≤ discTicks s.caldera.used) :
    Runs (.discrepancy i) s s := by
  refine congrArg _ (if_pos ?_)
  rwa [Bool.or_eq_true, decide_eq_true_eq]

theorem discrepancy_latches (hd : s.caldera.inputs[i].disc = false)
    (ht : discTicks s.caldera.used ≤ s.caldera.inputs[i].disagree) : Runs (.discrepancy i) s (latchDiscrepancy i s) := by
  refine congrArg _ (if_neg ?_)
  rw [hd, Bool.false_or, decide_eq_true_eq]
  omega

theorem latchDiscrepancy_disc (i : Fin 8) (s : State) : (latchDiscrepancy i s).caldera.inputs[i].disc = true
    ∧ (latchDiscrepancy i s).caldera.discCount = satInc s.caldera.discCount := by
  rw [latchDiscrepancy]
  generalize hw : calCount _ _ (modInput i _ s) = w
  obtain ⟨h, hcal⟩ := calFaultEv_caldera Ev.discrepancy (natWord i.val) 0 0 w
  rw [hcal, ← hw]
  exact ⟨congrArg SafetyInput.disc (upd_self ..), rfl⟩

end

/-! ### Test pulses (R482, R484) -/

section
variable {ch : Fin 16} {missing : Bool} {s : State}

theorem crossShort_waits (h : (calChannel s.caldera ch).crossShort = true
    ∨ (if missing then pulseMissing s.caldera ch else foreignPulse s.caldera ch) = false) :
    Runs (.crossShort ch missing) s s := by
  refine if_pos ?_
  rwa [Bool.or_eq_true, Bool.not_eq_true']

theorem crossShort_latches (hc : (calChannel s.caldera ch).crossShort = false)
    (hj : (if missing then pulseMissing s.caldera ch else foreignPulse s.caldera ch) = true) :
    Runs (.crossShort ch missing) s (requests (crossShortEv (ch.val / 2) (if missing then 2 else 1)
      (modChannel ch (fun x => { x with crossShort := true, goodPeriods := 0 }) s))) := by
  refine if_neg ?_
  rw [hc, hj]
  decide

theorem testPulsePeriod_waits (follows : BitVec 4) (h : s.caldera.periodOver = false) :
    Runs (.testPulsePeriod follows) s s :=
  if_pos (by rw [h]; decide)

theorem testPulsePeriod_judges (follows : BitVec 4) (h : s.caldera.periodOver = true) :
    Runs (.testPulsePeriod follows) s (requests ((List.finRange 4).foldl (fun s k => tpPeriod k (follows.getLsbD k.val) s)
      (modCal (fun c => { c with
        periodOver := false
        inputs := Vector.ofFn fun i => shortPeriod (BitVec.ofNat 16 (maskOf fun ch : Fin 16 => patternGood s.caldera ch)) i
          c.inputs[i] }) s))) :=
  if_neg (by rw [h]; decide)

/-! ### The filtered demand of a channel (R483) -/

/-- The run of ticks that would flip the channel. -/
def flipRun (x : SafetyChannel) : Nat := if x.filtered then x.releasedRun else x.demandRun

theorem flipRun_lt (x : SafetyChannel) (n : Nat) :
    (if x.filtered then x.releasedRun < n else x.demandRun < n) ↔ flipRun x < n := by
  rw [flipRun]
  split <;> rfl
theorem flipRun_ge (x : SafetyChannel) (n : Nat) :
    (if x.filtered then n ≤ x.releasedRun else n ≤ x.demandRun) ↔ n ≤ flipRun x := by
  rw [flipRun]
  split <;> rfl

/-- The channel flips; an input whose channels are both in demand is at the first step of clearing its discrepancy (R485). -/
def flipChannel (ch : Fin 16) (s : State) : State :=
  modInput (inputOf ch) (fun x => { x with discStep := if x.disc && x.a.filtered && x.b.filtered then 1 else x.discStep })
    (modChannel ch (fun x => { x with filtered := !x.filtered }) s)

theorem flipChannel_filtered (ch : Fin 16) (s : State) :
    (calChannel (flipChannel ch s).caldera ch).filtered = !(calChannel s.caldera ch).filtered := by
  rw [calChannel_inputOf, calChannel_inputOf]
  have hin (g h : SafetyInput → SafetyInput) :
      (modInput (inputOf ch) g (modInput (inputOf ch) h s)).caldera.inputs[inputOf ch] =
        g (h s.caldera.inputs[inputOf ch]) :=
  (upd_self ..).trans (congrArg g (upd_self ..))
  rw [flipChannel, modChannel, ← inputOf, hin]
  split <;> rfl

theorem filteredDemandChange_waits (h : flipRun (calChannel s.caldera ch) < filtTicks s.caldera.used) :
    Runs (.filteredDemandChange ch) s s :=
  if_pos ((flipRun_lt ..).mpr h)

theorem filteredDemandChange_flips (h : filtTicks s.caldera.used ≤ flipRun (calChannel s.caldera ch)) :
    Runs (.filteredDemandChange ch) s (requests (flipChannel ch s)) :=
  if_neg fun hlt => Nat.not_lt.2 h ((flipRun_lt ..).mp hlt)

end

/-! ### The reset input (R486) -/

/-- An accepted press clears group g. -/
def resetTakes (c : Caldera) (g : Fin 2) : Bool := !groupDemand c g && resetKinds c g
/-- The groups of an accepted press, as R503 reports them. -/
def resetMask (c : Caldera) (g : Fin 2) : Word := if resetTakes c g then groupMask g else 0
/-- The press is used up and told, before any group is cleared. -/
def pressTaken (s : State) : State :=
  calRaise Ev.resetAccepted .note (resetMask s.caldera 0 ||| resetMask s.caldera 1) 0 0 []
    (calCount (·.resetCount) (fun c n => { c with resetCount := n }) (modInput 7 (fun x => { x with pressed := 0 }) s))
/-- The reset acts on the group where it may. -/
def resetWhere (takes : Bool) (g : Fin 2) (s : State) : State := if takes then resetGroup g s else s

section
variable {s : State}

theorem resetAccepted_waits (h : s.caldera.inputs[(7 : Fin 8)].pressed < 1000 ∨ 50000 < s.caldera.inputs[(7 : Fin 8)].pressed
    ∨ s.caldera.inputs[(7 : Fin 8)].disc = true ∨ (resetTakes s.caldera 0 = false ∧ resetTakes s.caldera 1 = false)) :
    Runs .resetAccepted s s := by
  refine if_pos ?_
  rw [Bool.or_eq_true, Bool.or_eq_true, Bool.or_eq_true, decide_eq_true_eq, decide_eq_true_eq, Bool.not_eq_true',
    Bool.or_eq_false_iff, or_assoc, or_assoc]
  exact h

theorem resetAccepted_resets (hlo : 1000 ≤ s.caldera.inputs[(7 : Fin 8)].pressed)
    (hhi : s.caldera.inputs[(7 : Fin 8)].pressed ≤ 50000) (hd : s.caldera.inputs[(7 : Fin 8)].disc = false)
    (ht : resetTakes s.caldera 0 = true ∨ resetTakes s.caldera 1 = true) : Runs .resetAccepted s
      (resetWhere (resetTakes s.caldera 1) 1 (resetWhere (resetTakes s.caldera 0) 0 (pressTaken s))) := by
  refine if_neg fun hno => ?_
  rw [Bool.or_eq_true, Bool.or_eq_true, Bool.or_eq_true, decide_eq_true_eq, decide_eq_true_eq, hd, Bool.not_eq_true',
    Bool.or_eq_false_iff] at hno
  obtain ((hshort | hlong) | hdisc) | ⟨h0, h1⟩ := hno
  · omega
  · omega
  · exact Bool.false_ne_true hdisc
  · exact ht.elim (Bool.eq_false_iff.1 h0) (Bool.eq_false_iff.1 h1)

end

/-- Settles O49: each condition is the one that its command tests. How the samples stand to the test pulses is log entry 138,
that an accepted press acts on each group that it may log entry 83, and that nothing happens otherwise the model's choice (log
entry 17). -/
theorem safetyInputsAreFilteredAndCompared : Obligations.SafetyInputsAreFilteredAndCompared := by
  unfold Obligations.SafetyInputsAreFilteredAndCompared
  intro high follows i ch missing s c x y pressed judged good takes mask
  refine ⟨rfl, ⟨rfl, sampleInputs_input high c i, rfl⟩, discrepancy_waits,
    fun hd ht => ⟨_, discrepancy_latches hd ht, rfl, latchDiscrepancy_disc i s⟩, crossShort_waits, crossShort_latches,
    testPulsePeriod_waits follows, testPulsePeriod_judges follows,
    fun hf hr => filteredDemandChange_waits ((flipRun_lt ..).mp ((if_pos hf).symm ▸ hr)),
    fun hf hr => filteredDemandChange_waits ((flipRun_lt ..).mp ((if_neg (Bool.eq_false_iff.1 hf)).symm ▸ hr)),
    fun h => ⟨flipChannel ch s, filteredDemandChange_flips ((flipRun_ge ..).mp h), flipChannel_filtered ch s, rfl⟩,
    resetAccepted_waits, fun hlo hhi hd ht w hw => ?resets⟩
  have hrun := resetAccepted_resets hlo hhi hd ht
  subst hw
  exact ⟨fun h0 h1 => by rwa [show resetTakes s.caldera 0 = true from h0, show resetTakes s.caldera 1 = true from h1] at hrun,
    fun h0 h1 => by rwa [show resetTakes s.caldera 0 = true from h0, show resetTakes s.caldera 1 = false from h1] at hrun,
    fun h0 h1 => by rwa [show resetTakes s.caldera 0 = false from h0, show resetTakes s.caldera 1 = true from h1] at hrun⟩

end Sys2Proof.Machine
end

section
/-! PROOF. Safe torque off and its companions: heartbeats and gate enables (R488, R489), SS1, SLS and the safe speed (R491 to
R495), and the test of a brake output (R498). -/

namespace Sys2Proof.Machine

/-! ### What the writes of Caldera's units leave -/

section
variable {s : State}

/-- A change of Caldera leaves the rest of the module. -/
theorem modCal_frame (f : Caldera → Caldera) (c : Caldera) (s : State) :
    { modCal f s with caldera := c } = { s with caldera := c } := rfl
theorem modSafeTile_tile (t : Fin 16) (f : SafetyTile → SafetyTile) :
    (modSafeTile t f s).caldera.tiles[t] = f s.caldera.tiles[t] := upd_self ..
theorem modSafeTile_tile_ne {t u : Fin 16} (f : SafetyTile → SafetyTile) (h : u ≠ t) :
    (modSafeTile t f s).caldera.tiles[u] = s.caldera.tiles[u] := upd_ne _ _ h
theorem modGroup_group (g : Fin 2) (f : SafetyGroup → SafetyGroup) :
    (modGroup g f s).caldera.groups[g] = f s.caldera.groups[g] := upd_self ..
theorem modSbo_sbo (o : Fin 4) (f : Sbo → Sbo) : (modSbo o f s).caldera.sbos[o] = f s.caldera.sbos[o] := upd_self ..

end

/-! ### Heartbeats (R344, R488) -/

section
variable {t : Fin 16} {s : State}

theorem heartbeatLoss_waits (h : carrierRuns s t = true) : Runs (.heartbeatLoss t) s s := congrArg _ (if_pos h)

/-- The lines of the tile stand. -/
def stopBeat (t : Fin 16) (s : State) : State :=
  modSafeTile t (fun x => { x with heartbeat := false, beats := 0, toggling := false, genA := false, genB := false }) s

theorem heartbeatLoss_stops (h : carrierRuns s t = false) : Runs (.heartbeatLoss t) s (stopBeat t s) :=
  congrArg _ (if_neg (Bool.eq_false_iff.1 h))

theorem stopBeat_tile : (stopBeat t s).caldera.tiles[t] =
    { s.caldera.tiles[t] with heartbeat := false, beats := 0, toggling := false, genA := false, genB := false } :=
  modSafeTile_tile ..

theorem heartbeatResume_waits (h : carrierRuns s t = false ∨ s.caldera.tiles[t].beats < 20) :
    Runs (.heartbeatResume t) s s := by
  refine congrArg _ (if_neg ?_)
  rw [Bool.not_eq_true, Bool.and_eq_false_iff, decide_eq_false_iff_not, Nat.not_le]
  exact h

theorem heartbeatResume_resumes (hr : carrierRuns s t = true) (hb : 20 ≤ s.caldera.tiles[t].beats) :
    Runs (.heartbeatResume t) s (modSafeTile t (fun x => { x with heartbeat := true }) s) := by
  refine congrArg _ (if_pos ?_)
  rw [hr, Bool.true_and, decide_eq_true_eq]
  exact hb

end

/-! ### Gate enables (R488, R489, R497) -/

section
variable {t : Fin 16} {s : State}

/-- The lines of every tile step by half a period, and no land is missed. -/
def stepLines (s : State) : State :=
  modCal (fun c => { c with tiles := Vector.ofFn fun t =>
    { seeBeat (carrierRuns s t) c.tiles[t] with
      toggling := genOn c t, genA := genOn c t && !c.tiles[t].genA, genB := genOn c t && c.tiles[t].genA
      missA := false, missB := false } }) s
/-- A brake output that is no longer wanted goes off. -/
def dropUnwanted (s : State) : State := (List.finRange 4).foldl (fun s o => if sboWanted s o then s else sboOff o s) s

/-- The brake outputs are all that this changes. -/
theorem dropUnwanted_sbos (s : State) : ∃ b, dropUnwanted s = modCal (fun c => { c with sbos := b }) s := by
  rw [dropUnwanted]
  induction List.finRange 4 generalizing s with
  | nil => exact ⟨s.caldera.sbos, rfl⟩
  | cons o os ih =>
    rw [List.foldl_cons]
    split
    · exact ih s
    · obtain ⟨b, hb⟩ := ih (sboOff o s)
      exact ⟨b, hb⟩

theorem genHalfPeriod_steps {lands : BitVec 32} (h : genWrong s.caldera lands = 0) :
    Runs (.genHalfPeriod lands) s (dropUnwanted (stepLines s)) := by
  have hexec : exec (.genHalfPeriod lands) s = execGenHalfPeriod lands s := rfl
  rw [Runs, hexec, execGenHalfPeriod]
  simp only [h, BitVec.ofNat_eq_ofNat, BitVec.getLsbD_zero, Bool.and_false, Bool.false_eq_true, if_false, Bool.or_self,
    List.any_eq_true, and_false, exists_const]
  rfl

theorem stepLines_tile : (stepLines s).caldera.tiles[t] = { seeBeat (carrierRuns s t) s.caldera.tiles[t] with
    toggling := genOn s.caldera t, genA := genOn s.caldera t && !s.caldera.tiles[t].genA
    genB := genOn s.caldera t && s.caldera.tiles[t].genA, missA := false, missB := false } := by
  simp only [stepLines, modCal_caldera, Fin.getElem_fin, Vector.getElem_ofFn]

theorem genHalfPeriod_state {lands : BitVec 32} (h : genWrong s.caldera lands = 0) : ∃ w, Runs (.genHalfPeriod lands) s w
    ∧ w.caldera.tiles[t] = (stepLines s).caldera.tiles[t] ∧ w.caldera.groups = s.caldera.groups
    ∧ { w with caldera := s.caldera } = s := by
  have hrun := genHalfPeriod_steps h
  have hgroups : (stepLines s).caldera.groups = s.caldera.groups := by rw [stepLines, modCal_caldera]
  have hframe : { stepLines s with caldera := s.caldera } = s := modCal_frame ..
  obtain ⟨b, hb⟩ := dropUnwanted_sbos (stepLines s)
  rw [hb] at hrun
  generalize stepLines s = v at hrun hgroups hframe
  exact ⟨_, hrun, rfl, hgroups, hframe⟩

theorem genOn_of_sto {g : Fin 2} (h : s.caldera.groups[g].phase = .sto) :
    genOn s.caldera t = false ∨ safetyGroup t ≠ g := by
  by_cases hg : safetyGroup t = g
  · subst hg
    left
    rw [genOn, h]
    rfl
  · exact .inr hg

end

/-! ### SS1 and SLS (R491, R492, R495) -/

section
variable {g : Fin 2} {s : State}

theorem ss1Timeout_stops (hp : s.caldera.groups[g].phase = .ss1) (ht : ss1Ms s.caldera.used ≤ s.caldera.groups[g].ss1Ms) :
    Runs (.ss1Timeout g) s (faultSto Ev.ss1Started g s) := by
  refine congrArg _ (if_pos ?_)
  rw [Bool.and_eq_true, decide_eq_true_eq, decide_eq_true_eq]
  exact ⟨hp, ht⟩

theorem ss1Timeout_waits (h : s.caldera.groups[g].phase ≠ .ss1 ∨ s.caldera.groups[g].ss1Ms < ss1Ms s.caldera.used) :
    Runs (.ss1Timeout g) s s := by
  refine congrArg _ (if_neg ?_)
  rw [Bool.not_eq_true, Bool.and_eq_false_iff, decide_eq_false_iff_not, decide_eq_false_iff_not, Nat.not_le]
  exact h

theorem ss1rStandstill_stops (hp : s.caldera.groups[g].phase = .ss1) (hf : stopFn s.caldera.used g = 2)
    (hs : 10 ≤ s.caldera.groups[g].stillMs) : Runs (.ss1rStandstill g) s (faultSto Ev.ss1Started g s) := by
  refine congrArg _ (if_pos ?_)
  rw [Bool.and_eq_true, Bool.and_eq_true, decide_eq_true_eq, decide_eq_true_eq, decide_eq_true_eq]
  exact ⟨⟨hp, hf⟩, hs⟩

theorem ss1rStandstill_waits (h : s.caldera.groups[g].phase ≠ .ss1 ∨ stopFn s.caldera.used g ≠ 2
    ∨ s.caldera.groups[g].stillMs < 10) : Runs (.ss1rStandstill g) s s := by
  refine congrArg _ (if_neg ?_)
  rw [Bool.not_eq_true, Bool.and_eq_false_iff, Bool.and_eq_false_iff, decide_eq_false_iff_not, decide_eq_false_iff_not,
    decide_eq_false_iff_not, Nat.not_le, or_assoc]
  exact h

theorem slsMonitorStart_monitors (hr : s.caldera.groups[g].slsRequested = true)
    (ht : ss1Ms s.caldera.used ≤ (s.caldera.ms - s.caldera.groups[g].slsFrom).toNat) :
    Runs (.slsMonitorStart g) s (modGroup g (fun x => { x with slsMonitoring := true }) s) := by
  refine congrArg _ (if_pos ?_)
  rw [hr, Bool.true_and, decide_eq_true_eq]
  exact ht

theorem slsMonitorStart_waits (h : s.caldera.groups[g].slsRequested = false
    ∨ (s.caldera.ms - s.caldera.groups[g].slsFrom).toNat < ss1Ms s.caldera.used) : Runs (.slsMonitorStart g) s s := by
  refine congrArg _ (if_neg ?_)
  rw [Bool.not_eq_true, Bool.and_eq_false_iff, decide_eq_false_iff_not, Nat.not_le]
  exact h

end

/-! ### The safe speed (R493) -/

/-- A tile with its new count, before the record of R496 follows. -/
def countTile (count : Word) (quad amp : Bool) (x : SafetyTile) : SafetyTile :=
  { x with
    count := count, hist := (count :: x.hist).take 8
    v := BitVec.ofInt 32 ((count - x.hist.getD 7 0).toInt * 125)
    quadMs := if quad then x.quadMs + 1 else 0, ampMs := if amp then x.ampMs + 1 else 0 }
/-- Every tile takes its count, before the groups are checked. -/
def takeCounts (counts : Vector Word 16) (quad amp : BitVec 16) (s : State) : State :=
  modCal (fun c => { c with
    ms := c.ms + 1
    tiles := Vector.ofFn fun t => carryRefs s.caldera.groups[(0 : Fin 2)].sdiPos s.caldera.groups[(0 : Fin 2)].sdiNeg
      (countTile counts[t] (quad.getLsbD t.val) (amp.getLsbD t.val) c.tiles[t]) }) s

section
variable (counts : Vector Word 16) (ill quad amp : BitVec 16) (t : Fin 16) (s : State)

theorem safeSpeedUpdate_runs : Runs (.safeSpeedUpdate counts ill quad amp) s
    (monitor ill 1 (monitor ill 0 (takeCounts counts quad amp s))) := rfl

theorem takeCounts_tile : (takeCounts counts quad amp s).caldera.tiles[t] =
    carryRefs s.caldera.groups[(0 : Fin 2)].sdiPos s.caldera.groups[(0 : Fin 2)].sdiNeg
      (countTile counts[t] (quad.getLsbD t.val) (amp.getLsbD t.val) s.caldera.tiles[t]) := by
  simp only [takeCounts, modCal_caldera, Fin.getElem_fin, Vector.getElem_ofFn]

end

/-! ### Brake outputs (R498) -/

/-- The test of a brake output has failed: it is off, and its fault and that of its group stand. -/
def failSbo (o : Fin 4) (s : State) : State :=
  modGroup (sboGroup o) (fun x => { x with sboFault := true })
    (modSbo o (fun b => { b with high := false, low := false, fault := true, testOk := false }) s)

section
variable {o : Fin 4} {hi lo : Bool} {s : State}

theorem sboTest_unused (h : sbcOn s.caldera.used (sboGroup o) = false) : Runs (.sboTest o hi lo) s s :=
  if_pos (by rw [h]; decide)

theorem sboTest_passes (h : sbcOn s.caldera.used (sboGroup o) = true) :
    Runs (.sboTest o true true) s (modSbo o (fun b => { b with testOk := true }) s) :=
  if_neg (by rw [h]; decide)

theorem sboTest_fails (h : sbcOn s.caldera.used (sboGroup o) = true) (hbad : (hi && lo) = false) :
    Runs (.sboTest o hi lo) s (if s.caldera.sbos[o].fault then failSbo o s
      else faultSto Ev.sboFault (sboGroup o) (calFaultEv Ev.sboFault (natWord o.val) 0 0 (failSbo o s))) :=
  (if_neg (by rw [h]; decide)).trans (if_neg (by rw [hbad]; decide))

theorem failSbo_sbo : (failSbo o s).caldera.sbos[o] =
    { s.caldera.sbos[o] with high := false, low := false, fault := true, testOk := false } := modSbo_sbo ..

theorem sboTest_stopsItsGroup (h : sbcOn s.caldera.used (sboGroup o) = true) (hbad : (hi && lo) = false) :
    ∃ w, w.caldera.sbos[o].high = false ∧ w.caldera.sbos[o].low = false ∧ w.caldera.sbos[o].fault = true
      ∧ w.caldera.groups[sboGroup o].sboFault = true ∧ { w with caldera := s.caldera } = s
      ∧ (s.caldera.sbos[o].fault = true → Runs (.sboTest o hi lo) s w)
      ∧ (s.caldera.sbos[o].fault = false → Runs (.sboTest o hi lo) s
          (faultSto Ev.sboFault (sboGroup o) (calFaultEv Ev.sboFault (natWord o.val) 0 0 w))) := by
  have hrun := sboTest_fails h hbad
  refine ⟨failSbo o s, by rw [failSbo_sbo], by rw [failSbo_sbo], by rw [failSbo_sbo],
    congrArg SafetyGroup.sboFault (modGroup_group ..), rfl, fun hf => ?known, fun hf => ?new⟩
  case known => rwa [if_pos hf] at hrun
  case new => rwa [if_neg (Bool.eq_false_iff.1 hf)] at hrun

end

/-- Settles O50: each event's condition is the one that its command tests. That 20 half periods make the 100 us of heartbeat of
R488 is log entry 140, and that nothing happens otherwise the model's choice (log entry 17). -/
theorem safetyFunctionsStopTheirGroup : Obligations.SafetyFunctionsStopTheirGroup := by
  unfold Obligations.SafetyFunctionsStopTheirGroup
  intro t g o hi lo counts ill quad amp s c x og
  refine ⟨heartbeatLoss_waits, fun h => ⟨_, heartbeatLoss_stops h, ?_⟩, heartbeatResume_waits,
    fun hr hb => ⟨_, heartbeatResume_resumes hr hb, modSafeTile_tile .., rfl⟩,
    fun lands h => ?lines, genOn_of_sto, ss1Timeout_stops, ss1Timeout_waits, ss1rStandstill_stops,
    ss1rStandstill_waits, fun hr ht => ⟨_, slsMonitorStart_monitors hr ht, modGroup_group .., rfl⟩, slsMonitorStart_waits,
    ⟨_, safeSpeedUpdate_runs counts ill quad amp s, rfl, ?_⟩, sboTest_unused,
    fun h => ⟨_, sboTest_passes h, ?_⟩, sboTest_stopsItsGroup⟩
  · rw [stopBeat_tile]
    exact ⟨rfl, rfl, rfl, rfl, rfl, fun u hu => modSafeTile_tile_ne _ hu, rfl⟩
  case lines =>
    obtain ⟨w, hrun, htile, hgroups, hframe⟩ := genHalfPeriod_state (t := t) h
    rw [stepLines_tile] at htile
    exact ⟨w, hrun, by rw [htile], by rw [htile], by rw [htile], by rw [htile]; rfl, hgroups, hframe⟩
  · rw [takeCounts_tile]
    exact ⟨rfl, rfl, rfl, modCal_frame ..⟩
  · rw [modSbo_sbo]
    exact ⟨rfl, rfl, rfl⟩

end Sys2Proof.Machine
end

section
/-! PROOF. The field side: qualified inputs and frames (R509 to R512), commanded and fail-safe outputs (R515, R524), and the
faults of the outputs and of their supply (R518 to R523). -/

namespace Sys2Proof.Machine

/-! ### What the writes of the field side leave -/

section
variable {s : State}

/-- A change of the field side leaves the rest of the module. -/
theorem modFieldIo_frame (f : FieldIo → FieldIo) (x : FieldIo) (s : State) :
    { modFieldIo f s with fio := x } = { s with fio := x } := rfl
theorem modFio_chan (c : Fin 24) (f : FioChannel → FioChannel) : (modFio c f s).fio.chans[c] = f s.fio.chans[c] := upd_self ..
theorem modFioRegs_chan (c : Fin 24) (f : FioRegs → FioRegs) :
    (modFioRegs c f s).fio.chans[c] = { s.fio.chans[c] with regs := f s.fio.chans[c].regs } := upd_self ..

end

/-! ### Inputs and frames (R509 to R512) -/

section
variable {c : Fin 24} {on : Bool} {edge : BitVec 96} {s : State}

theorem fioInputQualify_waits (h : s.fio.chans[c].fieldQual = on
    ∨ hasPassed (edge + s.fio.timeMap) (1000 * s.fio.chans[c].regs.deb.toNat - 50) s = false) :
    Runs (.fioInputQualify c on edge) s s := by
  refine if_pos ?_
  rwa [Bool.or_eq_true, decide_eq_true_eq, Bool.not_eq_true']

theorem fioInputQualify_joins (hq : s.fio.chans[c].fieldQual ≠ on)
    (hp : hasPassed (edge + s.fio.timeMap) (1000 * s.fio.chans[c].regs.deb.toNat - 50) s = true) :
    Runs (.fioInputQualify c on edge) s (modFio c (fun x => { x with
      fieldQual := on, changes := x.changes ++ [(on, down100 (edge + s.fio.timeMap))] }) s) := by
  refine if_neg ?_
  rw [hp, decide_eq_false hq]
  decide

end

section
variable (f : FioFrame) (s : State)

/-- What a good frame shows of channel c, at an instant. -/
def seenChan (now : Fix) (f : FioFrame) (c : Fin 24) (ch : FioChannel) : FioChannel :=
  { ch with
    rawAt := if ch.regs.raw = f.raw.getLsbD c.val then ch.rawAt else now
    regs := { ch.regs with raw := f.raw.getLsbD c.val, curLimit := f.limit.getLsbD c.val } }
/-- What a good frame brings, at an instant. -/
def takeFrame (now : Fix) (f : FioFrame) (x : FieldIo) : FieldIo :=
  { x with
    linkFault := false, compActive := f.reverse, frameAt := now
    overAt := Vector.ofFn fun g => if 2500 < f.current[g].toNat then some (x.overAt[g].getD now) else none
    vinAt := if 15700 ≤ f.vin.toNat then some (x.vinAt.getD now) else none
    vinHighAt := if 17000 ≤ f.vin.toNat then some (x.vinHighAt.getD now) else none
    chans := Vector.ofFn fun c => seenChan now f c x.chans[c]
    groups := Vector.ofFn fun g => { x.groups[g] with groupCurrent := f.current[g] }
    regs := { x.regs with linkOk := true, vinMv := BitVec.ofNat 16 (f.vin.toNat / 100 * 100) } }
/-- The link fault is over and the frame stands, before its transitions are reported. -/
def frameTaken (f : FioFrame) (s : State) : State :=
  modFieldIo (takeFrame (clearCond Ev.fioLinkFault allAxes s).dt f) (clearCond Ev.fioLinkFault allAxes s)

theorem fioFrameReceive_good : Runs (.fioFrameReceive true f) s
    ((List.finRange 24).foldl (fun s c => fioChanges c s) (frameTaken f s)) := rfl

theorem frameTaken_chan (c : Fin 24) : (frameTaken f s).fio.chans[c] =
    seenChan (clearCond Ev.fioLinkFault allAxes s).dt f c (clearCond Ev.fioLinkFault allAxes s).fio.chans[c] := by
  simp only [frameTaken, modFieldIo_fio, takeFrame, Fin.getElem_fin, Vector.getElem_ofFn]

theorem frameTaken_frame :
    { frameTaken f s with fio := s.fio } = { clearCond Ev.fioLinkFault allAxes s with fio := s.fio } := by
  rw [frameTaken]
  exact modFieldIo_frame (takeFrame _ f) s.fio (clearCond Ev.fioLinkFault allAxes s)

theorem fioFrameReceive_bad : Runs (.fioFrameReceive false f) s (modFioModule (fun r => { r with
    linkCrcErrCount := satInc r.linkCrcErrCount, cntOvf := r.cntOvf || satFull r.linkCrcErrCount }) s) := rfl

end

/-! ### The link's silence (R524) -/

section
variable {s : State}

theorem fioFailsafe_falls (h : hasPassed s.fio.applyAt 100000 s = true) : Runs .fioFailsafe s
    (modFieldIo (fun f => fioFailsafeOn s.dt (fun _ => true) { f with fsLink := true }) s) := congrArg _ (if_pos h)
theorem fioFailsafe_waits (h : hasPassed s.fio.applyAt 100000 s = false) : Runs .fioFailsafe s s :=
  congrArg _ (if_neg (Bool.eq_false_iff.1 h))

theorem fioLinkFault_waits (h : s.fio.linkFault = true ∨ hasPassed s.fio.frameAt 20000 s = false) :
    Runs .fioLinkFault s s := by
  refine if_pos ?_
  rwa [Bool.or_eq_true, Bool.not_eq_true']

/-- The link fault stands in the registers. -/
def linkLost (s : State) : State :=
  modFieldIo (fun f => { f with
    linkFault := true
    regs := { f.regs with
      linkOk := false, linkFaultSeen := true, linkFaultCount := satInc f.regs.linkFaultCount
      cntOvf := f.regs.cntOvf || satFull f.regs.linkFaultCount } }) s

theorem fioLinkFault_told (hl : s.fio.linkFault = false) (hp : hasPassed s.fio.frameAt 20000 s = true) :
    Runs .fioLinkFault s (raiseEv { code := Ev.fioLinkFault, src := srcFioGroup 0, t := down100 s.dt, unc := 200,
                                    cls := s.policy.fioLink } true (fioAxes (linkLost s)) (linkLost s)) :=
  if_neg (by rw [hl, hp]; decide)

end

/-! ### Thermal shutdowns (R518) -/

/-- The third shutdown latches the channel off. -/
def latchOverload (c : Fin 24) (s : State) : State :=
  modFio c (fun x => { x with
    hot := false, heatAt := s.dt
    regs := { x.regs with
      shutdowns := 3, overload := true, overloadSeen := true, overloadCount := satInc x.regs.overloadCount
      cntOvf := x.regs.cntOvf || satFull x.regs.overloadCount } }) s

section
variable {c : Fin 24} {s : State}

theorem outThermalShutdown_off (h : s.fio.chans[c].regs.applied = false) : Runs (.outThermalShutdown c) s s :=
  if_pos (by rw [h]; decide)

theorem outThermalShutdown_counts (ha : s.fio.chans[c].regs.applied = true) (hn : s.fio.chans[c].regs.shutdowns.toNat < 2) :
    Runs (.outThermalShutdown c) s (refreshFio (modFio c (fun x => { x with
      hot := true, heatAt := s.dt, regs := { x.regs with shutdowns := x.regs.shutdowns + 1 } }) s)) :=
  (if_neg (by rw [ha]; decide)).trans (if_pos hn)

theorem outThermalShutdown_latches (ha : s.fio.chans[c].regs.applied = true) (hn : 2 ≤ s.fio.chans[c].regs.shutdowns.toNat) :
    Runs (.outThermalShutdown c) s (fioNote Ev.outOverload (srcFio c) 0 0 (refreshFio (latchOverload c s))) :=
  (if_neg (by rw [ha]; decide)).trans (if_neg (Nat.not_lt.2 hn))

theorem latchOverload_chan : (latchOverload c s).fio.chans[c].regs.overload = true
    ∧ (latchOverload c s).fio.chans[c].hot = false ∧ (latchOverload c s).fio.chans[c].regs.shutdowns = 3
    ∧ (latchOverload c s).fio.chans[c].regs.overloadCount = satInc s.fio.chans[c].regs.overloadCount := by
  rw [latchOverload, modFio_chan]
  exact ⟨rfl, rfl, rfl, rfl⟩

theorem outThermalRestart_cooled (h : s.fio.chans[c].hot = true) : Runs (.outThermalRestart c) s
    (refreshFio (modFio c (fun x => { x with hot := false, heatAt := s.dt }) s)) := congrArg _ (if_pos h)
theorem outThermalRestart_waits (h : s.fio.chans[c].hot = false) : Runs (.outThermalRestart c) s s :=
  congrArg _ (if_neg (Bool.eq_false_iff.1 h))

theorem shutdownCountReset_resets (ha : s.fio.chans[c].regs.applied = true)
    (hp : hasPassed s.fio.chans[c].appliedAt 1000000000 s = true) (hh : hasPassed s.fio.chans[c].heatAt 1000000000 s = true) :
    Runs (.shutdownCountReset c) s (modFioRegs c (fun r => { r with shutdowns := 0 }) s) :=
  congrArg _ (if_pos (by rw [ha, hp, hh]; decide))
theorem shutdownCountReset_waits (h : s.fio.chans[c].regs.applied = false
    ∨ hasPassed s.fio.chans[c].appliedAt 1000000000 s = false ∨ hasPassed s.fio.chans[c].heatAt 1000000000 s = false) :
    Runs (.shutdownCountReset c) s s := by
  refine congrArg _ (if_neg ?_)
  rwa [Bool.not_eq_true, Bool.and_eq_false_iff, Bool.and_eq_false_iff, or_assoc]

/-! ### Shorts to the supply (R519) -/

theorem outShortVin_told (hd : s.fio.chans[c].regs.dir = true) (ha : s.fio.chans[c].regs.applied = false)
    (hs : s.fio.chans[c].regs.shortVin = false) (hf : fioSearched s c = false) (hr : rawFor10 true c s = true)
    (hp : hasPassed s.fio.chans[c].appliedAt 10000000 s = true) : Runs (.outShortVin c) s (shortVin c s) :=
  congrArg _ (if_pos (by rw [hd, ha, hs, hf, hr, hp]; decide))
theorem outShortVin_waits (h : s.fio.chans[c].regs.dir = false ∨ s.fio.chans[c].regs.applied = true
    ∨ s.fio.chans[c].regs.shortVin = true ∨ rawFor10 true c s = false) : Runs (.outShortVin c) s s := by
  refine congrArg _ (if_neg ?_)
  rcases h with h | h | h | h <;> simp [h, -Fin.getElem_fin]

theorem shortVinClear_clears (h : rawFor10 false c s = true) : Runs (.shortVinClear c) s
    (modFioRegs c (fun r => { r with shortVin := false }) s) := congrArg _ (if_pos h)
theorem shortVinClear_waits (h : rawFor10 false c s = false) : Runs (.shortVinClear c) s s :=
  congrArg _ (if_neg (Bool.eq_false_iff.1 h))

/-! ### Back-feed searches (R520) -/

theorem backfeedSearchStart_searches (hd : s.fio.chans[c].regs.dir = true) (ha : s.fio.chans[c].regs.applied = false)
    (hp : hasPassed s.fio.chans[c].appliedAt 50000 s = true) (hb : s.fio.chans[c].regs.backfeed = false)
    (hf : fioSearched s c = false) (hw : s.fio.subjects.contains c = false) (hu : s.fio.regs.undervolt = false) :
    Runs (.backfeedSearchStart c) s (searchWaiting 25 (modFieldIo (fun f => { f with
      compActive := f.compActive ||| (1 <<< c.val), subjects := f.subjects ++ [c] }) s)) :=
  if_neg (by rw [hd, ha, hp, hb, hf, hw, hu]; decide)
theorem backfeedSearchStart_waits (h : s.fio.chans[c].regs.dir = false ∨ s.fio.chans[c].regs.applied = true
    ∨ s.fio.chans[c].regs.backfeed = true ∨ s.fio.regs.undervolt = true
    ∨ hasPassed s.fio.chans[c].appliedAt 50000 s = false) : Runs (.backfeedSearchStart c) s s := by
  refine if_pos ?_
  rcases h with h | h | h | h | h <;> simp [h, -Fin.getElem_fin]

end

/-- The comparator of subject c, and the candidate k back on. -/
def seeComparator (c k : Fin 24) (active : Bool) (s : State) : State :=
  modFio k (fun x => { x with searchOff := false }) (modFieldIo (fun f => { f with
    compActive := if active then f.compActive ||| (1 : BitVec 24) <<< c.val
      else f.compActive &&& ~~~((1 : BitVec 24) <<< c.val) }) s)

section
variable {c k : Fin 24} {s : State}

theorem backfeedCandidateCheck_waits
    (h : s.fio.candidate = none ∨ hasPassed s.fio.candidateAt 1000000 s = false) (active : Bool) :
    Runs (.backfeedCandidateCheck active) s s := by
  have hexec : exec (.backfeedCandidateCheck active) s = execBackfeedCandidateCheck active s := rfl
  rw [Runs, hexec, execBackfeedCandidateCheck]
  split
  · next k c hk hc =>
    have hp := h.resolve_left (by rw [hk]; exact Option.some_ne_none k)
    exact if_pos (by rw [hp]; decide)
  · rfl

section
variable (hk : s.fio.candidate = some k) (hc : asFin 24 s.fio.regs.searchSubject.toNat = some c)
  (hp : hasPassed s.fio.candidateAt 1000000 s = true)
include hk hc hp

theorem backfeedCandidateCheck_runs (active : Bool) : Runs (.backfeedCandidateCheck active) s (
    if active then searchWaiting 25 (searchNext c (refreshFio (seeComparator c k true s)))
    else searchWaiting 25 (searchStop (fioNote Ev.outBackfeed (srcFio c) (natWord c.val) (natWord k.val)
      (backfed k c false (backfed c k true (seeComparator c k false s)))))) := by
  have hexec : exec (.backfeedCandidateCheck active) s = execBackfeedCandidateCheck active s := rfl
  rw [Runs, hexec, execBackfeedCandidateCheck, hk, hc]
  refine (if_neg (by rw [hp]; decide)).trans ?_
  cases active <;> rfl

end

theorem seeComparator_bit (active : Bool) : (seeComparator c k active s).fio.compActive.getLsbD c.val = active := by
  have hbit : ((1 : BitVec 24) <<< c.val).getLsbD c.val = true := by
    simp [c.isLt]
  have hcomp : (seeComparator c k active s).fio.compActive = if active then s.fio.compActive ||| (1 : BitVec 24) <<< c.val
      else s.fio.compActive &&& ~~~((1 : BitVec 24) <<< c.val) := rfl
  rw [hcomp]
  cases active
  · rw [if_neg Bool.false_ne_true, BitVec.getLsbD_and, BitVec.getLsbD_not, hbit, Bool.not_true, Bool.and_false, Bool.and_false]
  · rw [if_pos rfl, BitVec.getLsbD_or, hbit, Bool.or_true]

theorem seeComparator_chan (active : Bool) : (seeComparator c k active s).fio.chans[k].searchOff = false := by
  rw [seeComparator, modFio_chan]

end

/-! ### The group's current and the supply (R521 to R523) -/

/-- The group's outputs are off for its current. -/
def overloadGroup (g : Fin 3) (s : State) : State :=
  modFieldIo (fun f => { f with
    groups := upd f.groups g fun r => { r with
      groupOverload := true, groupOlSeen := true, groupOlCount := satInc r.groupOlCount
      cntOvf := r.cntOvf || satFull r.groupOlCount } }) s
/-- Every search is abandoned and the undervoltage stands. -/
def beginUndervolt (s : State) : State :=
  modFioModule (fun r => { r with
    undervolt := true, undervoltSeen := true, undervoltCount := satInc r.undervoltCount
    cntOvf := r.cntOvf || satFull r.undervoltCount })
    (searchStop (modFieldIo (fun f => { f with subjects := [], vinAt := none }) s))
/-- The undervoltage is over. -/
def endUndervolt (s : State) : State := modFioModule (fun r => { r with undervolt := false }) s

section
variable {g : Fin 3} {mv : BitVec 16} {s : State}

theorem groupOverload_waits (h : s.fio.groups[g].groupOverload = true
    ∨ (s.fio.overAt[g].any fun t => hasPassed t 10000000 s) = false) : Runs (.groupOverload g) s s := by
  refine if_pos ?_
  rwa [Bool.or_eq_true, Bool.not_eq_true']

theorem groupOverload_off (hg : s.fio.groups[g].groupOverload = false)
    (ho : (s.fio.overAt[g].any fun t => hasPassed t 10000000 s) = true) : Runs (.groupOverload g) s
      (fioNote Ev.groupOverload (srcFioGroup g.val) 0 (s.fio.groups[g].groupCurrent.zeroExtend 32)
        (refreshFio (overloadGroup g s))) :=
  if_neg (by rw [hg, ho]; decide)

theorem overloadGroup_group : (overloadGroup g s).fio.groups[g] = { s.fio.groups[g] with
    groupOverload := true, groupOlSeen := true, groupOlCount := satInc s.fio.groups[g].groupOlCount
    cntOvf := s.fio.groups[g].cntOvf || satFull s.fio.groups[g].groupOlCount } := upd_self ..

theorem outUndervolt_waits (h : s.fio.regs.undervolt = true ∨ 15300 < mv.toNat) : Runs (.outUndervolt mv) s s := by
  refine if_pos ?_
  rwa [Bool.or_eq_true, decide_eq_true_eq]

theorem outUndervolt_off (hu : s.fio.regs.undervolt = false) (hv : mv.toNat ≤ 15300) : Runs (.outUndervolt mv) s
    (fioNote Ev.outUndervolt (srcFioGroup 0) 7 (mv.zeroExtend 32) (refreshFio (beginUndervolt s))) := by
  refine if_neg ?_
  rw [hu, Bool.false_or, decide_eq_true_eq]
  exact Nat.not_lt.2 hv

theorem undervoltEnd_waits (h : s.fio.regs.undervolt = false ∨ (s.fio.vinAt.any fun t => hasPassed t 10000000 s) = false) :
    Runs .undervoltEnd s s := by
  refine if_pos ?_
  rwa [Bool.or_eq_true, Bool.not_eq_true', Bool.not_eq_true']

theorem undervoltEnd_returns (hu : s.fio.regs.undervolt = true)
    (hb : (s.fio.vinAt.any fun t => hasPassed t 10000000 s) = true) : Runs .undervoltEnd s
      (if s.fio.regs.restore then refreshFio (modFieldIo (fun f => { f with restoreOwed := true }) (endUndervolt s))
        else outputsBack (endUndervolt s)) :=
  if_neg (by rw [hu, hb]; decide)

end

/-- Settles O51: each condition is the one that its command tests. That a time stamp is rounded down to 100 ns, a short to the
supply leaves its channel on and a search keeps its candidates is log entry 84, the thresholds of VIN are log entry 141, and that
nothing happens otherwise is the model's choice (log entry 17). -/
theorem fieldEventsCarryAndProtect : Obligations.FieldEventsCarryAndProtect := by
  unfold Obligations.FieldEventsCarryAndProtect
  refine ⟨?inputs, ?outputs⟩
  case inputs =>
    intro c on crc edge map f s deb
    refine ⟨fioInputQualify_waits, fun hq hp => ⟨_, fioInputQualify_joins hq hp, ?joins⟩,
      ⟨_, fioFrameReceive_bad f s, rfl, rfl, rfl⟩, ⟨frameTaken f s, fioFrameReceive_good f s, ?frame⟩,
      ⟨_, rfl, rfl, rfl⟩, rfl, fioFailsafe_falls, fioFailsafe_waits, fioLinkFault_waits,
      fun hl hp => ⟨linkLost s, rfl, rfl, rfl, rfl, fioLinkFault_told hl hp⟩⟩
    case joins =>
      rw [modFio_chan]
      exact ⟨rfl, rfl, rfl⟩
    case frame =>
      refine ⟨rfl, rfl, rfl, rfl, dt_of_clock (clearCond_clock ..), ?_, ?_, frameTaken_frame f s⟩ <;>
        rw [frameTaken_chan] <;> rfl
  case outputs =>
    intro c k g mv s ch x y isOver back u
    refine ⟨outThermalShutdown_off, outThermalShutdown_counts, fun ha hn => ?latches, outThermalRestart_cooled,
      outThermalRestart_waits, fun ha hp hh => ⟨_, shutdownCountReset_resets ha hp hh, modFioRegs_chan .., rfl⟩,
      shutdownCountReset_waits, outShortVin_told, outShortVin_waits,
      fun h => ⟨_, shortVinClear_clears h, modFioRegs_chan .., rfl⟩, shortVinClear_waits,
      backfeedSearchStart_searches, backfeedSearchStart_waits, backfeedCandidateCheck_waits,
      fun hk hc hp => ⟨⟨seeComparator c k true s, seeComparator_bit true, seeComparator_chan true, rfl,
          backfeedCandidateCheck_runs hk hc hp true⟩,
        ⟨seeComparator c k false s, seeComparator_bit false, seeComparator_chan false, rfl,
          backfeedCandidateCheck_runs hk hc hp false⟩⟩,
      groupOverload_waits, fun hg ho => ?overload, outUndervolt_waits,
      fun hu hv => ⟨beginUndervolt s, rfl, rfl, rfl, outUndervolt_off hu hv⟩, undervoltEnd_waits, fun hu hb w hw => ?back⟩
    case latches =>
      obtain ⟨hover, hhot, hshut, hcount⟩ := latchOverload_chan (c := c) (s := s)
      exact ⟨latchOverload c s, hover, hhot, hshut, hcount, rfl, outThermalShutdown_latches ha hn⟩
    case overload =>
      refine ⟨overloadGroup g s, ?_, ?_, ?_, rfl, groupOverload_off hg ho⟩ <;> rw [overloadGroup_group]
    case back =>
      have hrun := undervoltEnd_returns hu hb
      subst hw
      exact ⟨fun hr => by rwa [if_neg (Bool.eq_false_iff.1 hr)] at hrun, fun hr => by rwa [if_pos hr] at hrun⟩

end Sys2Proof.Machine
end

section
/-! PROOF. The CAN controllers: the schedule's columns (R544, R545), transmission and arbitration (R540 to R543), the error
states (R534, R535), modes, sleep and wake (R533, R539), reception (R536, R537) and the receive window (R538). -/

namespace Sys2Proof.Machine

/-! ### What the writes of a controller leave -/

section
variable {n : Fin 4} {s : State}

@[simp] theorem modCan_can (f : Can → Can) : (modCan n f s).cans[n] = f s.cans[n] := upd_self ..
@[simp] theorem modCanRegs_can (f : CanRegs → CanRegs) :
    (modCanRegs n f s).cans[n] = { s.cans[n] with regs := f s.cans[n].regs } := upd_self ..
@[simp] theorem canCount_can (get : CanRegs → Word) (set : CanRegs → Word → CanRegs) :
    (canCount n get set s).cans[n] = { s.cans[n] with regs := { set s.cans[n].regs (satInc (get s.cans[n].regs)) with
      cntOvf := s.cans[n].regs.cntOvf || satFull (get s.cans[n].regs) } } := modCanRegs_can _

end

/-! ### Events of a controller that is not held -/

/-- The controller takes part in the bus as a sender: NORMAL, integrated, neither bus-off nor recovering. -/
def OnBus (r : CanRegs) : Prop := r.mode = 1 ∧ r.integrating = false ∧ r.errState.toNat < 2
/-- The controller hears the bus. -/
def Hears (r : CanRegs) : Prop := r.mode ≠ 0 ∧ r.mode ≠ 4 ∧ r.integrating = false ∧ r.errState.toNat < 2

theorem OnBus.guard {r : CanRegs} (h : OnBus r) :
    (decide (r.mode ≠ 1) || r.integrating || decide (2 ≤ r.errState.toNat)) = false := by
  obtain ⟨hmode, hint, herr⟩ := h
  rw [hmode, hint, decide_eq_false (Nat.not_le.2 herr)]
  decide

theorem OnBus.txGuard {r : CanRegs} {err : BitVec 3} (h : OnBus r) (hk : err.toNat ≤ 5) : ¬ (decide (5 < err.toNat)
    || decide (r.mode ≠ 1) || r.integrating || decide (2 ≤ r.errState.toNat)) = true := by
  have hguard := h.guard
  rw [decide_eq_false (Nat.not_lt.2 hk), Bool.false_or, hguard]
  exact Bool.false_ne_true

theorem Hears.guard {r : CanRegs} {ident : Word} (h : Hears r) (hfd : r.fdEn = true ∨ ident.getLsbD 30 = false) :
    ¬ (decide (r.mode = 0) || decide (r.mode = 4) || r.integrating || decide (2 ≤ r.errState.toNat)
      || (ident.getLsbD 30 && !r.fdEn)) = true := by
  obtain ⟨h0, h4, hint, herr⟩ := h
  rw [decide_eq_false h0, decide_eq_false h4, hint, decide_eq_false (Nat.not_le.2 herr)]
  rcases hfd with h | h <;> rw [h] <;> simp

/-- The controller may send from its queue: without a schedule, or in an ARBITRATING window. -/
theorem sendsFromQueue {running window : Bool} (h : running = false ∨ window = true) : ¬ (running && !window) = true := by
  rcases h with h | h <;> rw [h] <;> simp

section
variable {n : Fin 4} {s w : State} (hfree : canHeld s n = false) (hw : w = canSettle n s)
include hfree hw

theorem canDo_next {f : State → State} {t : State} (h : f w = t) : canDo n f s = .next t := by
  rw [canDo, if_neg (Bool.eq_false_iff.1 hfree), ← hw, h]

/-! ### The schedule (R544, R545) -/

theorem ttColumnInstant_unused {col : Fin 64} (busy : Nat) (hc : w.cans[n].columns[col] = none) :
    Runs (.ttColumnInstant n col busy) s w := by
  refine (canDo_next hfree hw ?_ : execTtColumnInstant n col busy s = _)
  simp only [hc]

/-- The cell of a column in the basic cycle that runs. -/
def cellNow (x : CanColumn) (r : CanRegs) : BitVec 8 := x.cells.getD r.cycleNow.toNat 0
/-- The window of a column closes, and its object is taken. -/
def columnTaken (n : Fin 4) (x : CanColumn) (j : Fin 64) (w : State) : State :=
  ttTake n j (modCan n (fun c => { c with
    ttWindow := false, ttClose := fixNat (w.dt.toNat + windowNs2 c.regs x.txen.toNat * 2 ^ 31) }) w)
/-- The frame of object j begins, as the reference or not. -/
def columnSends (n : Fin 4) (j : Fin 64) (ref : Bool) (w : State) : State :=
  modCan n (fun c => { c with ttObject := some j, ttFrame := ttFrameOf c.objects[j] ref c.regs.cycleNow }) w

theorem ttColumnInstant_exclusive {col : Fin 64} {x : CanColumn} (busy : Nat) (hc : w.cans[n].columns[col] = some x)
    (hr : w.cans[n].regs.ttRunning = true) (hm : w.cans[n].regs.mode = 1) (ha : atColumn w.cans[n] x w.dt = true)
    {j : Fin 64} (hj : j = ((cellNow x w.cans[n].regs).extractLsb' 2 6).toFin)
    (hcell : (cellNow x w.cans[n].regs).extractLsb' 0 2 = 3 ∨ (cellNow x w.cans[n].regs).extractLsb' 0 2 = 1) :
    Runs (.ttColumnInstant n col busy) s
      (if decide (x.txen.toNat ≤ busy) || w.cans[n].regs.integrating || decide (2 ≤ w.cans[n].regs.errState.toNat)
        then ttMissed n j false (columnTaken n x j w)
        else columnSends n j ((cellNow x w.cans[n].regs).extractLsb' 0 2 = 3) (columnTaken n x j w)) := by
  have hdef : x.cells.getD w.cans[n].regs.cycleNow.toNat 0 = cellNow x w.cans[n].regs := rfl
  refine (canDo_next hfree hw ?_ : execTtColumnInstant n col busy s = _)
  simp only [hc, hdef]
  subst hj
  refine (if_neg (by rw [hr, hm, ha]; decide)).trans ((if_pos ?exclusive).trans ?_)
  case exclusive =>
    rw [Bool.or_eq_true, decide_eq_true_eq, decide_eq_true_eq]
    exact hcell.symm
  have hopen : (decide ((cellNow x w.cans[n].regs).extractLsb' 0 2 = 2) && decide (busy < x.txen.toNat)) = false := by
    rcases hcell with h | h <;> rw [h] <;> exact Bool.false_and _
  rw [hopen]
  rfl

/-- The schedule runs again, and that is counted. -/
def resumed (n : Fin 4) (s : State) : State :=
  canCount n (·.ttRestartCount) (fun r v => { r with ttRestartCount := v })
    (modCan n (fun c => { c with ttReload := none, regs := { c.regs with ttRunning := true } }) s)

theorem ttRestart_runs {t : Fix} (hl : w.cans[n].ttReload = some t) (ht : t.toNat ≤ w.dt.toNat) :
    Runs (.ttRestart n) s (canNote n Ev.ttRestart 0 0 0 (resumed n w)) := by
  refine (canDo_next hfree hw (if_pos ?_) : execTtRestart n s = _)
  rw [hl]
  exact decide_eq_true ht

theorem ttRestart_waits (hl : w.cans[n].ttReload = none) : Runs (.ttRestart n) s w := by
  refine (canDo_next hfree hw (if_neg ?_) : execTtRestart n s = _)
  rw [hl]
  exact Bool.false_ne_true

/-! ### Transmission and arbitration (R540 to R543) -/

/-- The arbitration lost is counted. -/
def countArbLost (n : Fin 4) (s : State) : State := canCount n (·.arbLostCount) (fun r v => { r with arbLostCount := v }) s

section
variable {q : CanReq} {err : BitVec 3} {loop : Option Nat}
theorem canTxFrameEnd_object (hup : OnBus w.cans[n].regs) {j : Fin 64} (ho : w.cans[n].ttObject = some j)
    (hk : err.toNat ≤ 5) {v : State} (hv : v = measureLoop n w.cans[n].ttFrame.brs loop
      (ttEnd n (modCan n (fun c => { c with ttObject := none }) w))) :
    Runs (.canTxFrameEnd n err loop) s (if err.toNat = 0 then sentFrame n w.cans[n].ttFrame v
      else failedFrame n err.toNat (ttMissed n j true v)) := by
  subst hv
  refine (canDo_next hfree hw ((if_neg (hup.txGuard hk)).trans ?_) : execCanTxFrameEnd n err loop s = _)
  simp only [ho]

theorem canTxFrameEnd_none (ho : w.cans[n].ttObject = none) (hq : busReq w.cans[n] = none) :
    Runs (.canTxFrameEnd n err loop) s w := by
  refine (canDo_next hfree hw ((ite_eq_left_iff.mpr fun hk => ?_)) : execCanTxFrameEnd n err loop s = _)
  simp only [ho, hq]

theorem canArbitrationLost_none (hup : OnBus w.cans[n].regs) (ho : w.cans[n].ttObject = none) (hq : busReq w.cans[n] = none) :
    Runs (.canArbitrationLost n) s w := by
  refine (canDo_next hfree hw ((if_neg (Bool.eq_false_iff.1 hup.guard)).trans ?_) : execCanArbitrationLost n s = _)
  simp only [ho, hq]

variable (hup : OnBus w.cans[n].regs) (ho : w.cans[n].ttObject = none) (hq : busReq w.cans[n] = some q)
  (hopen : w.cans[n].regs.ttRunning = false ∨ w.cans[n].ttWindow = true)
include hup ho hq hopen

theorem canTxFrameEnd_request (hk : err.toNat ≤ 5) {v : State}
    (hv : v = measureLoop n q.brs loop (ttEnd n (windowAfter n w))) :
    Runs (.canTxFrameEnd n err loop) s (if err.toNat = 0 then
        complete n q.handle (if q.cancel then 1 else 0) (natWord (q.attempts + 1)) (sentFrame n (reqFrame q) v)
      else failedFrame n err.toNat (attemptFailed n q err.toNat v)) := by
  subst hv
  refine (canDo_next hfree hw ((if_neg (hup.txGuard hk)).trans ?_) : execCanTxFrameEnd n err loop s = _)
  simp only [ho, hq]
  exact if_neg (sendsFromQueue hopen)

theorem canArbitrationLost_request : Runs (.canArbitrationLost n) s
    (attemptFailed n q 6 (ttEnd n (windowAfter n (countArbLost n w)))) := by
  refine (canDo_next hfree hw ((if_neg (Bool.eq_false_iff.1 hup.guard)).trans ?_) : execCanArbitrationLost n s = _)
  simp only [ho, hq]
  exact if_neg (sendsFromQueue hopen)

end

/-! ### Error states (R534) -/

/-- The controller is error-active again, with its counters at 0. -/
def backOnBus (n : Fin 4) (s : State) : State := modCanRegs n (fun r => { r with errState := 0, tec := 0, recField := 0 }) s

theorem canBusOn_recovers (he : w.cans[n].regs.errState = 3) : Runs (.canBusOn n) s
    (canNote n Ev.busOn 0 0 0 (backOnBus n w)) :=
  (canDo_next hfree hw (if_pos he) : execCanBusOn n s = _)
theorem canBusOn_waits (he : w.cans[n].regs.errState ≠ 3) : Runs (.canBusOn n) s w :=
  (canDo_next hfree hw (if_neg he) : execCanBusOn n s = _)

section
variable {kind : BitVec 3} {rule : Fin 4}

theorem canBusError_counts (hup : OnBus w.cans[n].regs) : Runs (.canBusError n kind rule) s
    (setCounters n (isoCounters w.cans[n].regs rule).1 (isoCounters w.cans[n].regs rule).2 (countError n kind.toNat w)) := by
  obtain ⟨hm, hi, he⟩ := hup
  refine (canDo_next hfree hw ((if_neg ?sleeps).trans ((if_neg ?away).trans (if_pos hm))) : execCanBusError n kind rule s = _)
  case sleeps => rw [hm]; decide
  case away => rw [hm, hi, decide_eq_false (Nat.not_le.2 he)]; decide

theorem canBusError_asleep (hm : w.cans[n].regs.mode = 4) (hwake : w.cans[n].regs.wakeMode = true) :
    Runs (.canBusError n kind rule) s (wakeError n w) :=
  (canDo_next hfree hw ((if_pos hm).trans (if_pos hwake)) : execCanBusError n kind rule s = _)

theorem canBusError_config (hm : w.cans[n].regs.mode = 0) : Runs (.canBusError n kind rule) s w := by
  refine (canDo_next hfree hw ((if_neg ?_).trans (if_pos ?_)) : execCanBusError n kind rule s = _) <;> rw [hm]
  · decide
  · rfl

end

/-! ### Modes, sleep and wake (R533, R539) -/

theorem canIntegrationDone_runs : Runs (.canIntegrationDone n) s (modCanRegs n (fun r => { r with integrating := false }) w) :=
  (canDo_next hfree hw rfl : execCanIntegrationDone n s = _)

theorem canModeChangeApply_enters {m : BitVec 3} (hm : w.cans[n].modeReq = some m) :
    Runs (.canModeChangeApply n) s (enterMode n m w) := by
  refine (canDo_next hfree hw ?_ : execCanModeChangeApply n s = _)
  simp only [hm]
theorem canModeChangeApply_waits (hm : w.cans[n].modeReq = none) : Runs (.canModeChangeApply n) s w := by
  refine (canDo_next hfree hw ?_ : execCanModeChangeApply n s = _)
  simp only [hm]

/-- A controller as it goes to sleep. -/
def asleep (c : Can) : Can :=
  { ttOff c with
    sleepReq := false, modeReq := none, onBus := none
    regs := { (ttOff c).regs with mode := 4, integrating := false, wakeErrCount := 0 } }

theorem canSleepEnter_sleeps (hs : w.cans[n].sleepReq = true) :
    Runs (.canSleepEnter n) s (completeAll n 6 (modCan n asleep w)) :=
  (canDo_next hfree hw (if_pos hs) : execCanSleepEnter n s = _)
theorem canSleepEnter_waits (hs : w.cans[n].sleepReq = false) : Runs (.canSleepEnter n) s w :=
  (canDo_next hfree hw (if_neg (Bool.eq_false_iff.1 hs)) : execCanSleepEnter n s = _)

theorem canWake_awake (hm : w.cans[n].regs.mode ≠ 4) (x : CanWake) : Runs (.canWake n x) s w :=
  (canDo_next hfree hw (if_pos hm) : execCanWake n x s = _)

section
variable (hm : w.cans[n].regs.mode = 4)
include hm

theorem canWake_edge (hwake : w.cans[n].regs.wakeMode = false) (ns : Nat) : Runs (.canWake n (.edge ns)) s
    (if w.cans[n].regs.wakeFilt.toNat * 100 ≤ ns then wake n 0 w else w) := by
  refine (canDo_next hfree hw ((if_neg (not_not_intro hm)).trans ?_) : execCanWake n (.edge ns) s = _)
  rw [hwake]

variable (hwake : w.cans[n].regs.wakeMode = true)
include hwake

theorem canWake_frame (f : CanFrame) : Runs (.canWake n (.frame f)) s
    (if wakeMatch w.cans[n].regs f then wake n 1 w else w) := by
  refine (canDo_next hfree hw ((if_neg (not_not_intro hm)).trans ?_) : execCanWake n (.frame f) s = _)
  rw [hwake]
theorem canWake_error : Runs (.canWake n .error) s (wakeError n w) := by
  refine (canDo_next hfree hw ((if_neg (not_not_intro hm)).trans ?_) : execCanWake n .error s = _)
  rw [hwake]

end

/-! ### Reception (R534, R536) -/

/-- A received frame is counted. -/
def rxCounted (n : Fin 4) (w : State) : State := canCount n (·.rxFrameCount) (fun r v => { r with rxFrameCount := v }) w
/-- A node in NORMAL that received it counts REC down. -/
def rxHeard (n : Fin 4) (w : State) : State :=
  if w.cans[n].regs.mode = 1 then
    setCounters n w.cans[n].regs.tec (recAfter (rxCounted n w) w.cans[n].regs.recField) (drawn (rxCounted n w))
  else rxCounted n w
/-- Filters replaced before this start of frame are no longer needed. -/
def rxSeen (n : Fin 4) (f : CanFrame) (w : State) : State :=
  modCan n (fun c => { c with filtersWas := c.filtersWas.filter fun x => decide (f.sof.toNat ≤ (nsOf x.1).toNat) })
    (rxHeard n w)
/-- The filters in force at the start of frame. -/
def rxFilters (c : Can) (f : CanFrame) : Vector CanFilterRegs 32 := filtersAt c.filters f.sof c.filtersWas
/-- The first of them that the frame matches. -/
def firstMatch (fs : Vector CanFilterRegs 32) (f : CanFrame) : Option (Fin 32) :=
  (List.finRange 32).find? fun k => fs[k].fltEn && ((f.ident ^^^ fs[k].fltMatch) &&& fs[k].fltMask) = 0
/-- A frame that no filter matches is counted. -/
def rxUnmatched (n : Fin 4) (s : State) : State := canCount n (·.nomatchCount) (fun r v => { r with nomatchCount := v }) s

theorem canFrameReceive_config (f : CanFrame) (hm : w.cans[n].regs.mode = 0) : Runs (.canFrameReceive n f) s w := by
  refine (canDo_next hfree hw (if_pos ?_) : execCanFrameReceive n f s = _)
  rw [hm]
  rfl

section
variable {f : CanFrame} (hh : Hears w.cans[n].regs) (hfd : w.cans[n].regs.fdEn = true ∨ f.ident.getLsbD 30 = false)
include hh hfd

theorem canFrameReceive_matched {k : Fin 32} (hk : firstMatch (rxFilters w.cans[n] f) f = some k) :
    Runs (.canFrameReceive n f) s (if (rxFilters w.cans[n] f)[k].fltAction = 0 then rxStore n 0 f (some k.val) (rxSeen n f w)
      else if (rxFilters w.cans[n] f)[k].fltAction = 1 then rxStore n 1 f (some k.val) (rxSeen n f w)
      else rxSeen n f w) := by
  rw [firstMatch, rxFilters] at hk
  refine (canDo_next hfree hw ((if_neg (hh.guard hfd)).trans ?_) : execCanFrameReceive n f s = _)
  simp only [hk]
  rfl

theorem canFrameReceive_unmatched (hk : firstMatch (rxFilters w.cans[n] f) f = none) :
    Runs (.canFrameReceive n f) s (if w.cans[n].regs.nomatchField then rxStore n 1 f none (rxUnmatched n (rxSeen n f w))
      else rxUnmatched n (rxSeen n f w)) := by
  rw [firstMatch, rxFilters] at hk
  refine (canDo_next hfree hw ((if_neg (hh.guard hfd)).trans ?_) : execCanFrameReceive n f s = _)
  simp only [hk]
  rfl

end

end

/-! ### The receive window (R538) -/

section
variable {n : Fin 4} {q : Fin 2} {s : State}

/-- The head entry of queue q is locked, or no longer. -/
def lockHead (n : Fin 4) (q : Fin 2) (locked : Bool) (s : State) : State :=
  modCan n (fun c => { c with rxq := upd c.rxq q fun r => { r with locked := locked } }) s

theorem rxqWinRead_empty {w : Fin 20} (h : s.cans[n].entries[q] = []) : Runs (.rxqWinRead n q w) s s := by
  refine congrArg _ (if_pos ?_)
  rw [h]
  exact Bool.or_true _

section
variable (hfree : canHeld s n = false) (he : s.cans[n].entries[q] ≠ [])
include hfree he

theorem rxGuardOpen : ¬ (canHeld s n || s.cans[n].entries[q].isEmpty) = true := by
  rw [hfree, Bool.false_or, List.isEmpty_iff]
  exact he

theorem rxqWinRead_locks : Runs (.rxqWinRead n q 0) s (lockHead n q true s) :=
  congrArg _ ((if_neg (rxGuardOpen hfree he)).trans (if_pos rfl))

theorem rxqWinRead_removes (hl : s.cans[n].rxq[q].locked = true) : Runs (.rxqWinRead n q 19) s
    (setEntries n q (s.cans[n].entries[q].drop 1) (lockHead n q false s)) :=
  congrArg _ ((if_neg (rxGuardOpen hfree he)).trans ((if_neg (by decide)).trans (if_pos (by rw [hl]; decide))))

theorem rxqWinRead_reads {w : Fin 20} (h0 : w ≠ 0) (h : w ≠ 19 ∨ s.cans[n].rxq[q].locked = false) :
    Runs (.rxqWinRead n q w) s s := by
  have hval {i : Fin 20} (hi : w ≠ i) : ¬ w.val = i.val := fun e => hi (Fin.ext e)
  refine congrArg _ ((if_neg (rxGuardOpen hfree he)).trans ((if_neg (hval h0)).trans (if_neg ?_)))
  rw [Bool.not_eq_true, Bool.and_eq_false_iff, decide_eq_false_iff_not]
  exact h.imp_left hval

end

theorem lockHead_queue (locked : Bool) : (lockHead n q locked s).cans[n].rxq[q].locked = locked
    ∧ (lockHead n q locked s).cans[n].entries = s.cans[n].entries := by
  rw [lockHead, modCan_can]
  exact ⟨congrArg CanRxqRegs.locked (upd_self ..), rfl⟩

theorem setEntries_queue (l : List (List Word)) : (setEntries n q l s).cans[n].entries[q] = l
    ∧ (setEntries n q l s).cans[n].rxq[q].locked = s.cans[n].rxq[q].locked := by
  rw [setEntries, modCan_can]
  exact ⟨upd_self .., (congrArg CanRxqRegs.locked (upd_self ..)).trans rfl⟩

end

/-- Settles O52: each event runs on the controller as DT has left its schedule, and its condition is the one that its command
tests. The counters after an error are log entries 86 and 143, the request on the bus is log entry 85, and that nothing happens
otherwise is the model's choice (log entry 17). -/
theorem canEventsMoveFramesAndStates : Obligations.CanEventsMoveFramesAndStates := by
  unfold Obligations.CanEventsMoveFramesAndStates
  refine ⟨?bus, ?window⟩
  case bus =>
    intro n col x q j err kind m rule at_ ns f k busy loop s hfree w hw c cell ref up hears
    refine ⟨ttColumnInstant_unused hfree hw busy, fun hc hr hm ha hcell hj v hv => ?column, fun hl ht => ?restart,
      ttRestart_waits hfree hw, fun hup ho hq hopen v hv => ?request, fun hup ho v hv => ?object,
      fun hup ho hq hopen => ⟨countArbLost n w, ?lost, rfl, canArbitrationLost_request hfree hw hup ho hq hopen⟩,
      fun hup ho hq => ⟨canTxFrameEnd_none hfree hw ho hq, canArbitrationLost_none hfree hw hup ho hq⟩,
      fun he => ⟨backOnBus n w, ?busOn, rfl, canBusOn_recovers hfree hw he⟩, canBusOn_waits hfree hw,
      ⟨_, canIntegrationDone_runs hfree hw, ?integrated, rfl⟩, canModeChangeApply_enters hfree hw,
      canModeChangeApply_waits hfree hw, 
      fun hs => ⟨modCan n asleep w, ?mode, ?sleepReq, ?modeReq, rfl, canSleepEnter_sleeps hfree hw hs⟩,
      canSleepEnter_waits hfree hw, fun hm => ⟨canWake_awake hfree hw hm _, canWake_awake hfree hw hm _⟩,
      fun hm hwake => ?edge, fun hm hwake => ?asleep, canBusError_counts hfree hw,
      fun hm => ⟨canBusError_config hfree hw hm, canFrameReceive_config hfree hw f hm⟩,
      fun hh hfd a b v ha hb hv => ?receive⟩
    case column =>
      have hrun := ttColumnInstant_exclusive hfree hw busy hc hr hm ha hj (hcell.imp_left of_decide_eq_true)
      subst hv
      refine ⟨fun hb => ?_, fun hb hi he => ?_⟩
      · rwa [decide_eq_true hb] at hrun
      · rwa [decide_eq_false (Nat.not_le.2 hb), hi, decide_eq_false (Nat.not_le.2 he)] at hrun
    case restart =>
      refine ⟨resumed n w, ?_, ?_, ?_, rfl, ttRestart_runs hfree hw hl ht⟩ <;> rw [resumed, canCount_can, modCan_can]
    case request =>
      have hrun {err : BitVec 3} := canTxFrameEnd_request (err := err) (loop := loop) hfree hw hup ho hq hopen
      exact ⟨hrun (by decide) hv, fun h0 h5 => 
        (hrun h5 hv).trans (congrArg _ (if_neg (BitVec.toNat_ne_iff_ne.mpr h0)))⟩
    case object =>
      have hrun {err : BitVec 3} := canTxFrameEnd_object (err := err) (loop := loop) hfree hw hup ho
      exact ⟨hrun (by decide) hv, fun h0 h5 => 
        (hrun h5 hv).trans (congrArg _ (if_neg (BitVec.toNat_ne_iff_ne.mpr h0)))⟩
    case lost => rw [countArbLost, canCount_can]
    case busOn => rw [backOnBus, modCanRegs_can]
    case integrated => rw [modCanRegs_can]
    case mode | sleepReq | modeReq => rw [modCan_can]; rfl
    case edge =>
      have hrun := canWake_edge hfree hw hm hwake ns
      exact ⟨fun hle => by rwa [if_pos hle] at hrun, fun hlt => by rwa [if_neg (Nat.not_le.2 hlt)] at hrun⟩
    case asleep =>
      have hrun := canWake_frame hfree hw hm hwake f
      exact ⟨fun hy => by rwa [if_pos hy] at hrun, fun hno => by rwa [if_neg (Bool.eq_false_iff.1 hno)] at hrun,
        canWake_error hfree hw hm hwake, canBusError_asleep hfree hw hm hwake⟩
    case receive =>
      have hseen : v = rxSeen n f w := by
        subst hv hb ha
        rfl
      intro fs hit hhit
      subst hseen hhit
      have hmatch {k : Fin 32} (hk : firstMatch (rxFilters w.cans[n] f) f = some k) :=
        canFrameReceive_matched hfree hw hh hfd hk
      have hmiss (hk : firstMatch (rxFilters w.cans[n] f) f = none) := canFrameReceive_unmatched hfree hw hh hfd hk
      refine ⟨fun hk h0 => (hmatch hk).trans (congrArg _ (if_pos h0)), fun hk h1 => ?action1, fun hk h2 => ?dropped,
        fun hk hn => (hmiss hk).trans (congrArg _ (if_pos hn)),
        fun hk hn => (hmiss hk).trans (congrArg _ (if_neg (Bool.eq_false_iff.1 hn)))⟩
      case action1 =>
        have h0 : fs[k].fltAction ≠ 0 := fun h => absurd (h.symm.trans h1) (by decide)
        exact (hmatch hk).trans (congrArg _ ((if_neg h0).trans (if_pos h1)))
      case dropped =>
        have hne (i : BitVec 2) (hi : i.toNat ≤ 1) : fs[k].fltAction ≠ i := fun h => Nat.not_lt.2 hi (h ▸ h2)
        exact (hmatch hk).trans (congrArg _ ((if_neg (hne 0 (by decide))).trans (if_neg (hne 1 (by decide)))))
  case window =>
    intro n q w s c
    refine ⟨rxqWinRead_empty, fun hfree he => ⟨?locks,
      fun hl => ?removes, rxqWinRead_reads hfree he⟩⟩
    case locks =>
      obtain ⟨hlocked, hentries⟩ := lockHead_queue (n := n) (q := q) (s := s) true
      exact ⟨_, rxqWinRead_locks hfree he, hlocked, hentries, rfl⟩
    case removes =>
      obtain ⟨hentries, hlocked⟩ := setEntries_queue (n := n) (q := q) (s := lockHead n q false s) (c.entries[q].drop 1)
      exact ⟨_, rxqWinRead_removes hfree he hl, hentries, hlocked.trans (lockHead_queue false).1⟩

end Sys2Proof.Machine
end

section
/-! PROOF. The bring-up: its start and its resets (R550, R553, R559 to R563, R566), the trim and the straps (R567 to R569), the
clocks (R571), and the boot of the source that the straps name (R570). -/

namespace Sys2Proof.Machine

/-! ### Its start and its resets (R550, R553, R559 to R563, R566) -/

section
variable {s : State} {mv ns : Nat}

theorem powerOn_starts (ho : s.power.boot = .off) (hh : s.power.hibernating = false) :
    Runs .powerOn s (assertPowerOn s) :=
  congrArg _ (if_pos (by rw [ho, hh]; decide))
theorem powerOn_waits (h : s.power.boot ≠ .off ∨ s.power.hibernating = true) : Runs .powerOn s s := by
  refine congrArg _ (if_neg ?_)
  rwa [Bool.not_eq_true, Bool.and_eq_false_iff, decide_eq_false_iff_not, Bool.not_eq_false']

theorem brownout_off (h : s.power.boot = .off) : Runs .brownout s s := congrArg _ (if_pos h)
theorem brownout_resets (h : s.power.boot ≠ .off) : Runs .brownout s
    (assertCold 0x04 (bumpPower (·.brownoutCount) (fun r v => { r with brownoutCount := v })
      (modPower (fun p => { p with brownHeld := true }) s))) := congrArg _ (if_neg h)

theorem resetNInput_accepted (h : 25000 ≤ ns) : Runs (.resetNInput true ns) s
    (assertCold 0x02 (modPower (fun p => { p with resetNHeld := true }) (drawn s))) :=
  congrArg _ (if_pos (by rw [decide_eq_true h]; rfl))
theorem resetNInput_short (h : ns < 10000) : Runs (.resetNInput true ns) s (drawn s) := by
  refine congrArg _ ((if_neg ?_).trans (if_pos rfl))
  rw [decide_eq_false (by omega), decide_eq_false (by omega), Bool.false_and, Bool.or_self, Bool.and_false]
  decide
theorem resetNInput_high : Runs (.resetNInput false ns) s (modPower (fun p => { p with resetNHeld := false }) (drawn s)) := rfl

/-- The level at WAKE stands, and the two free values of its judgement have been drawn. -/
def seeWake (high : Bool) (s : State) : State := drew 2 (modPower (fun p => { p with wakeHigh := high }) s)

theorem wakeInput_wakes (hh : s.power.hibernating = true) (hv : 10000 ≤ mv) (hn : 1000000 ≤ ns) :
    Runs (.wakeInput mv ns) s (assertPowerOn (seeWake true s)) := by
  have hexec : exec (.wakeInput mv ns) s = execWakeInput mv ns s := rfl
  rw [Runs, hexec, execWakeInput]
  simp only [if_pos hv, decide_eq_true hv, decide_eq_true hn, Bool.and_self, Bool.true_or, Bool.and_true]
  exact congrArg _ (if_pos hh)
theorem wakeInput_stays (h : s.power.hibernating = false ∨ mv < 5000) :
    ∃ high, Runs (.wakeInput mv ns) s (seeWake high s) := by
  refine ⟨_, congrArg _ (if_neg ?_)⟩
  rw [Bool.not_eq_true, Bool.and_eq_false_iff]
  refine h.imp id fun hlow => ?_
  rw [decide_eq_false (by omega : ¬ 10000 ≤ mv), decide_eq_true hlow]
  rfl

theorem resetRelease_releases (hb : s.power.boot = .held) (hr : s.power.resetNHeld = false) :
    Runs .resetRelease s (recordEpisode (modPower (fun p => { p with boot := .trim, brownHeld := false }) s)) :=
  congrArg _ (if_pos (by rw [hb, hr]; decide))
theorem resetRelease_waits (h : s.power.boot ≠ .held ∨ s.power.resetNHeld = true) : Runs .resetRelease s s := by
  refine congrArg _ (if_neg ?_)
  rwa [Bool.not_eq_true, Bool.and_eq_false_iff, decide_eq_false_iff_not, Bool.not_eq_false']

theorem cpResetRelease_releases (hc : s.power.cpReset = true) (hr : s.power.cpReleased = false)
    (hp : hasPassed s.power.cpAt 50000 s = true) :
    Runs .cpResetRelease s (endEpisode (modPower (fun p => { p with cpReleased := true }) s)) :=
  congrArg _ (if_pos (by rw [hc, hr, hp]; decide))
theorem cpResetRelease_waits (h : s.power.cpReset = false ∨ s.power.cpReleased = true
    ∨ hasPassed s.power.cpAt 50000 s = false) : Runs .cpResetRelease s s := by
  refine congrArg _ (if_neg ?_)
  rwa [Bool.not_eq_true, Bool.and_eq_false_iff, Bool.and_eq_false_iff, Bool.not_eq_false', or_assoc]

theorem blockResetRelease_releases {b : BitVec 16} (hb : s.power.blocks.contains b = true)
    (hr : s.power.blocksReleased.contains b = false)
    (hp : ((s.power.blocksAt.find? (·.1 = b)).all fun x => hasPassed x.2 10000 s) = true) :
    Runs (.blockResetRelease b) s
      (endEpisode (modPower (fun p => { p with blocksReleased := b :: p.blocksReleased }) s)) :=
  congrArg _ (if_pos (by rw [hb, hr, hp]; decide))
theorem blockResetRelease_unheld {b : BitVec 16} (hb : s.power.blocks.contains b = false) :
    Runs (.blockResetRelease b) s s :=
  congrArg _ (if_neg (by rw [hb, Bool.false_and, Bool.false_and]; decide))

end

/-! ### The trim and the straps (R567 to R569) -/

/-- A trim load has failed; the third failure leaves the module in its boot ROM. -/
def trimFailed (s : State) : State :=
  let t := modPowerRegs (fun r => { r with trimTries := r.trimTries + 1 }) s
  if t.power.regs.trimTries = 3 then
    { t with ocp := { t.ocp with ident := { t.ocp.ident with trimFail := true } }, power := { t.power with boot := .rom } }
  else t

section
variable {straps : BitVec 6} {s : State} (hb : s.power.boot = .trim)
include hb

theorem trimLoadComplete_samples : Runs (.trimLoadComplete true straps) s (sampleStraps straps s) :=
  congrArg _ ((if_neg (not_not_intro hb)).trans (if_pos rfl))
theorem trimLoadComplete_fails : Runs (.trimLoadComplete false straps) s (trimFailed s) :=
  congrArg _ ((if_neg (not_not_intro hb)).trans (if_neg Bool.false_ne_true))

theorem trimFailed_step : (trimFailed s).power.regs.trimTries = s.power.regs.trimTries + 1
    ∧ (s.power.regs.trimTries = 2 → (trimFailed s).ocp.ident.trimFail = true ∧ (trimFailed s).power.boot = .rom)
    ∧ (s.power.regs.trimTries ≠ 2 → (trimFailed s).power.boot = .trim) := by
  have hthird : s.power.regs.trimTries + 1 = 3 ↔ s.power.regs.trimTries = 2 := by
    generalize s.power.regs.trimTries = n
    bv_omega
  rw [trimFailed]
  split
  · next h => exact ⟨rfl, fun _ => ⟨rfl, rfl⟩, fun hne => absurd (hthird.mp h) hne⟩
  · next h => exact ⟨rfl, fun heq => absurd (hthird.mpr heq) h, fun _ => hb⟩

end

/-! ### The clocks (R571) -/

section
variable {ok : Bool} {s : State}

theorem clockLock_elsewhere (h : s.power.boot ≠ .clocks) : Runs (.clockLock ok) s s := congrArg _ (if_pos h)
theorem clockRecoveryTimeout_elsewhere (h : s.power.boot ≠ .clocks) : Runs .clockRecoveryTimeout s s :=
  congrArg _ (if_neg (by rw [decide_eq_false h, Bool.false_and]; decide))

section
variable (hb : s.power.boot = .clocks)
include hb

theorem clockLock_crystal (hc : s.power.clkSel = 3) : Runs (.clockLock ok) s (clocksLocked 3 s) :=
  congrArg _ ((if_neg (not_not_intro hb)).trans (if_pos hc))
theorem clockLock_reference (hc : s.power.clkSel = 2) :
    Runs (.clockLock ok) s (if ok then clocksLocked 2 s else clkFallback s) :=
  congrArg _ ((if_neg (not_not_intro hb)).trans ((if_neg (by rw [hc]; decide)).trans (if_pos hc)))
theorem clockLock_recovered (h2 : s.power.clkSel ≠ 2) (h3 : s.power.clkSel ≠ 3) :
    Runs (.clockLock ok) s (if ok then clocksLocked 1 s else s) :=
  congrArg _ ((if_neg (not_not_intro hb)).trans ((if_neg h3).trans (if_neg h2)))
theorem clockRecoveryTimeout_falls (hc : s.power.clkSel = 1) : Runs .clockRecoveryTimeout s (clkFallback s) :=
  congrArg _ (if_pos (by rw [hb, hc]; decide))

end

end

/-! ### The boot (R570) -/

section
variable {ok : Bool} {fw v : Word} {s : State}

section
variable (hb : s.power.boot = .networkLoad)
include hb

theorem bootComplete_network : Runs (.bootComplete ok fw) s (if ok then finishBoot fw s else networkFailed s) :=
  congrArg _ (if_pos hb)
theorem networkLoadTimeout_fails (ho : loadOver s = true) : Runs .networkLoadTimeout s (networkFailed s) :=
  congrArg _ (if_pos (by rw [hb, ho]; decide))

end

section
variable (hb : s.power.boot = .boot)
include hb

theorem bootComplete_bank : Runs (.bootComplete ok fw) s (
    if s.power.imageOk then finishBoot fw s
    else if ok then finishBoot fw (modPowerRegs (fun r => { r with bootSrc := bankCode s.power.bankB }) s)
    else if s.power.triedOther then modPower (fun p => { p with boot := .rom, regs := { p.regs with bootFb := true } }) s
    else bootFallback ((bankCode s.power.bankB).zeroExtend 32) (fun p => { p with bankB := !p.bankB, triedOther := true }) s) :=
  congrArg _ ((if_neg (by rw [hb]; decide)).trans (if_neg (not_not_intro hb)))

theorem bootComplete_loaded (hi : s.power.imageOk = true) : Runs (.bootComplete ok fw) s (finishBoot fw s) :=
  (bootComplete_bank hb).trans (congrArg _ (if_pos hi))

variable (hi : s.power.imageOk = false)
include hi

theorem bootComplete_good : Runs (.bootComplete true fw) s
    (finishBoot fw (modPowerRegs (fun r => { r with bootSrc := bankCode s.power.bankB }) s)) :=
  (bootComplete_bank hb).trans (congrArg _ ((if_neg (Bool.eq_false_iff.1 hi)).trans (if_pos rfl)))
theorem bootComplete_bothBad (ht : s.power.triedOther = true) : Runs (.bootComplete false fw) s
    (modPower (fun p => { p with boot := .rom, regs := { p.regs with bootFb := true } }) s) :=
  (bootComplete_bank hb).trans (congrArg _ ((if_neg (Bool.eq_false_iff.1 hi)).trans
    ((if_neg Bool.false_ne_true).trans (if_pos ht))))
theorem bootComplete_firstBad (ht : s.power.triedOther = false) : Runs (.bootComplete false fw) s
    (bootFallback ((bankCode s.power.bankB).zeroExtend 32) (fun p => { p with bankB := !p.bankB, triedOther := true }) s) :=
  (bootComplete_bank hb).trans (congrArg _ ((if_neg (Bool.eq_false_iff.1 hi)).trans
    ((if_neg Bool.false_ne_true).trans (if_neg (Bool.eq_false_iff.1 ht)))))

end

section
variable (hb : s.power.boot = .hostLoad)
include hb

theorem bootDoorbell_checks : Runs (.bootDoorbell 0x4C4F4144 ok) s (
    if ok && s.power.bootLength.toNat ≤ 0xC00000 then modPower (fun p => { p with boot := .boot, imageOk := true }) s
    else bootFallback 5 toBankA s) :=
  congrArg _ (if_neg (by rw [hb]; decide))
theorem bootDoorbell_good (hl : s.power.bootLength.toNat ≤ 0xC00000) :
    Runs (.bootDoorbell 0x4C4F4144 true) s (modPower (fun p => { p with boot := .boot, imageOk := true }) s) :=
  (bootDoorbell_checks hb).trans (congrArg _ (if_pos (by rw [decide_eq_true hl]; rfl)))
theorem bootDoorbell_long (hl : 0xC00000 < s.power.bootLength.toNat) :
    Runs (.bootDoorbell 0x4C4F4144 true) s (bootFallback 5 toBankA s) :=
  (bootDoorbell_checks hb).trans (congrArg _ (if_neg (by rw [decide_eq_false (Nat.not_le.2 hl)]; decide)))
theorem bootDoorbell_bad : Runs (.bootDoorbell 0x4C4F4144 false) s (bootFallback 5 toBankA s) :=
  (bootDoorbell_checks hb).trans (congrArg _ (if_neg Bool.false_ne_true))
theorem hostLoadTimeout_falls (ho : loadOver s = true) : Runs .hostLoadTimeout s (bootFallback 5 toBankA s) :=
  congrArg _ (if_pos (by rw [hb, ho]; decide))

end

theorem bootDoorbell_other (h : s.power.boot ≠ .hostLoad ∨ v ≠ 0x4C4F4144) : Runs (.bootDoorbell v ok) s s := by
  refine congrArg _ (if_pos ?_)
  rwa [Bool.or_eq_true, decide_eq_true_eq, decide_eq_true_eq]
theorem hostLoadTimeout_early (ho : loadOver s = false) : Runs .hostLoadTimeout s s :=
  congrArg _ (if_neg (by rw [ho, Bool.and_false]; decide))
theorem networkLoadTimeout_early (ho : loadOver s = false) : Runs .networkLoadTimeout s s :=
  congrArg _ (if_neg (by rw [ho, Bool.and_false]; decide))

end

/-- Settles O53: each condition is the one that its command tests, in the order of the bring-up's steps. That POWER_ON waits for
RESET_RELEASE is log entry 36, that a failed trim or boot stays in the boot ROM log entry 37, that a second bad bank raises no
further event log entry 40, and that nothing happens otherwise the model's choice (log entry 17). -/
theorem bringUpFollowsItsSteps : Obligations.BringUpFollowsItsSteps := by
  unfold Obligations.BringUpFollowsItsSteps
  intro ok straps fw v mv ns s p
  refine ⟨powerOn_starts, powerOn_waits, brownout_off, brownout_resets, resetNInput_accepted, resetNInput_short,
    ⟨_, resetNInput_high, rfl, rfl⟩,
    fun hh hv hn => ⟨seeWake true s, rfl, rfl, wakeInput_wakes hh hv hn⟩, fun h => ?stays,
    resetRelease_releases, resetRelease_waits, trimLoadComplete_samples,
    fun hb => ⟨trimFailed s, trimLoadComplete_fails hb, trimFailed_step hb⟩,
    fun hb => ⟨clockLock_crystal hb, fun hc => ⟨clockLock_reference hb hc, clockLock_reference hb hc⟩,
      fun h2 h3 => ⟨clockLock_recovered hb h2 h3, clockLock_recovered hb h2 h3⟩, clockRecoveryTimeout_falls hb⟩,
    fun hb => ⟨clockLock_elsewhere hb, clockRecoveryTimeout_elsewhere hb⟩,
    fun hb => ⟨bootComplete_network hb, bootComplete_network hb, networkLoadTimeout_fails hb⟩,
    fun hb => ⟨bootComplete_loaded hb, bootComplete_good hb, fun hi ht => ⟨_, bootComplete_bothBad hb hi ht, rfl, rfl, rfl⟩,
      bootComplete_firstBad hb⟩,
    fun hb => ⟨fun hl => ⟨_, bootDoorbell_good hb hl, rfl, rfl⟩, bootDoorbell_long hb, bootDoorbell_bad hb,
      hostLoadTimeout_falls hb⟩,
    fun ho => ⟨hostLoadTimeout_early ho, networkLoadTimeout_early ho⟩, bootDoorbell_other, cpResetRelease_releases,
    cpResetRelease_waits, fun b => blockResetRelease_releases, fun b => blockResetRelease_unheld, fun src a => rfl⟩
  case stays =>
    obtain ⟨high, hrun⟩ := wakeInput_stays (ns := ns) h
    exact ⟨_, hrun, rfl, rfl⟩

end Sys2Proof.Machine
end

section
/-! PROOF. The supply (R551 to R555, R559, R571): the save and its end, the warning and its return, the power-down, and V3A.
Kettle (R573 to R576): the thresholds, the trip, the faulty sensor, the stop that runs out and the return. -/

namespace Sys2Proof.Machine

/-! ### The vault's save and the supply's warning (R554, R555) -/

section
variable (us mv : BitVec 16) (c : SaveCopy) (s : State)

/-- The save's write has ended, cut short or whole. -/
def saveEnded (cut : Bool) (c : SaveCopy) (s : State) : State :=
  showCopies (modPowerRegs (fun r => { r with saving := false })
    (modVault (fun v => putCopy v.intoB { c with good := !cut } { v with saving := none }) s))
/-- The whole save is on record: its pour point and its time. -/
def saveKept (us : BitVec 16) (c : SaveCopy) (s : State) : State :=
  modPowerRegs (fun r => { r with lastSavePour := c.pour, lastSaveUs := us }) (saveEnded false c s)

/-- The copy whose turn it is holds what was put. -/
theorem putCopy_target (intoB : Bool) (v : Vault) :
    (if intoB then (putCopy intoB c v).copyB else (putCopy intoB c v).copyA) = c := by
  cases intoB <;> rfl
theorem putCopy_saving (intoB : Bool) (v : Vault) : (putCopy intoB c v).saving = v.saving := by
  cases intoB <;> rfl

variable {s}

/-- Changes of the power block leave the rest of the module. -/
theorem modPowerRegs_frame (f : PowerRegs → PowerRegs) (p : Power) :
    { modPowerRegs f s with power := p } = { s with power := p } := rfl
theorem modVault_frame (f : Vault → Vault) (p : Power) : { modVault f s with power := p } = { s with power := p } := rfl
theorem showCopies_frame (p : Power) : { showCopies s with power := p } = { s with power := p } := modPowerRegs_frame ..
theorem saveEnded_frame (cut : Bool) (p : Power) : { saveEnded cut c s with power := p } = { s with power := p } :=
  (showCopies_frame ..).trans ((modPowerRegs_frame ..).trans (modVault_frame ..))
theorem saveKept_frame (p : Power) : { saveKept us c s with power := p } = { s with power := p } :=
  (modPowerRegs_frame ..).trans (saveEnded_frame ..)
theorem vaultSaveComplete_idle (hs : s.power.vault.saving = none) (cut : Bool) : Runs (.vaultSaveComplete us cut) s s := by
  have hexec : exec (.vaultSaveComplete us cut) s = execVaultSaveComplete us cut s := rfl
  rw [Runs, hexec, execVaultSaveComplete, hs]

variable {c} (hs : s.power.vault.saving = some c)
include hs

theorem vaultSaveComplete_cut : Runs (.vaultSaveComplete us true) s (saveEnded true c s) := by
  have hexec : exec (.vaultSaveComplete us true) s = execVaultSaveComplete us true s := rfl
  rw [Runs, hexec, execVaultSaveComplete, hs]
  rfl
theorem vaultSaveComplete_whole : Runs (.vaultSaveComplete us false) s
    (hibernateReply (endOps (fun o => o.op = 0x0F05) Status.ok
      (note Ev.vaultSaved srcMgmt (us.zeroExtend 32) (c.pour.truncate 32) 0 (saveKept us c s)))) := by
  have hexec : exec (.vaultSaveComplete us false) s = execVaultSaveComplete us false s := rfl
  rw [Runs, hexec, execVaultSaveComplete, hs]
  rfl

end

section
variable {mv : BitVec 16} {s : State}

theorem powerFailWarn_ignored (h : s.power.regs.pfArmed = false ∨ 16800 < mv.toNat) : Runs (.powerFailWarn mv) s s := by
  refine congrArg _ (if_pos ?_)
  rwa [Bool.or_eq_true, Bool.not_eq_true', decide_eq_true_eq]
theorem powerFailWarn_saves (ha : s.power.regs.pfArmed = true) (hm : mv.toNat ≤ 16800) : Runs (.powerFailWarn mv) s (startSave
    (record { code := Ev.powerFailWarn, src := srcSupply, t := s.dt, unc := 200, p1 := mv.zeroExtend 32 }
      (modPowerRegs (fun r => { r with pfArmed := false, pfSeen := true }) s))) :=
  congrArg _ (if_neg (by rw [ha, decide_eq_false (Nat.not_lt.2 hm)]; decide))

/-- The supply is back: the copies are STALE, and the warning is armed again. -/
def supplyBack (s : State) : State :=
  record { code := Ev.powerRestored, src := srcSupply, t := s.dt, unc := 200 }
    (showCopies (modPowerRegs (fun r => { r with pfArmed := true }) (modVault (fun v => { v with
      copyA := { v.copyA with stale := true }, copyB := { v.copyB with stale := true }
      saving := v.saving.map fun c => { c with stale := true } }) s)))

theorem powerRestored_waits (h : s.power.regs.pfArmed = true
    ∨ (s.fio.vinHighAt.any fun t => hasPassed t 100000000 s) = false) : Runs .powerRestored s s := by
  refine congrArg _ (if_pos ?_)
  rwa [Bool.or_eq_true, Bool.not_eq_true']
theorem powerRestored_back (ha : s.power.regs.pfArmed = false)
    (hh : (s.fio.vinHighAt.any fun t => hasPassed t 100000000 s) = true) : Runs .powerRestored s (supplyBack s) :=
  congrArg _ (if_neg (by rw [ha, hh]; decide))

theorem hibernateEnter_off (ho : s.power.hibernateOwed = true) (hp : hasPassed s.power.hibernateAt 10000000 s = true) :
    Runs .hibernateEnter s (powerDown true s) := congrArg _ (if_pos (by rw [ho, hp]; decide))
theorem hibernateEnter_waits (h : s.power.hibernateOwed = false ∨ hasPassed s.power.hibernateAt 10000000 s = false) :
    Runs .hibernateEnter s s := by
  refine congrArg _ (if_neg ?_)
  rwa [Bool.not_eq_true, Bool.and_eq_false_iff]

/-- The temperature compensation reads x (R571). -/
def setTempComp (x : Word) (s : State) : State :=
  { s with time := { s.time with regs := { s.time.regs with tempComp := x } } }

theorem tempCompUpdate_crystal (hc : s.power.crystal = true) :
    Runs .tempCompUpdate s (drawn (setTempComp (freeWord s) s)) := congrArg _ (if_pos hc)
theorem tempCompUpdate_zero (hc : s.power.crystal = false) : Runs .tempCompUpdate s (setTempComp 0 s) :=
  congrArg _ (if_neg (Bool.eq_false_iff.1 hc))
theorem tempCompUpdate_runs (s : State) : ∃ t, Runs .tempCompUpdate s t
    ∧ (s.power.crystal = false → t.time.regs.tempComp = 0) ∧ { t with time := s.time, freeCtr := s.freeCtr } = s := by
  cases hc : s.power.crystal
  · exact ⟨setTempComp 0 s, tempCompUpdate_zero hc, fun _ => rfl, rfl⟩
  · exact ⟨drawn (setTempComp (freeWord s) s), tempCompUpdate_crystal hc, nofun, rfl⟩

theorem v3aOverload_taken (ho : s.power.v3aOn = true) (hl : s.power.v3aLimited = false) : Runs .v3aOverload s
    (raise Ev.v3aOverload srcMgmt s.policy.v3a true 0 0 0 allAxes
      (modPower (fun p => { p with v3aLimited := true, regs := { p.regs with v3aSeen := true } }) s)) :=
  congrArg _ (if_neg (by rw [ho, hl]; decide))
theorem v3aOverload_waits (h : s.power.v3aOn = false ∨ s.power.v3aLimited = true) : Runs .v3aOverload s s := by
  refine congrArg _ (if_pos ?_)
  rwa [Bool.or_eq_true, Bool.not_eq_true']
theorem v3aOverloadEnd_ends (h : s.power.v3aLimited = true) : Runs .v3aOverloadEnd s
    (clearCond Ev.v3aOverload allAxes (modPower (fun p => { p with v3aLimited := false }) s)) := by
  have hexec : exec .v3aOverloadEnd s = execV3aOverloadEnd s := rfl
  rw [Runs, hexec, execV3aOverloadEnd, if_pos h]
theorem v3aOverloadEnd_waits (h : s.power.v3aLimited = false) : Runs .v3aOverloadEnd s s :=
  congrArg _ (if_neg (Bool.eq_false_iff.1 h))

end

/-! ### Kettle (R573 to R576) -/

section
variable {k : Fin 12} {v : Word} {s : State}

theorem kettleRead_tripped : (kettleRead k v s).power.tripped = s.power.tripped := rfl

theorem kettleThreshold_tripped (h : s.power.tripped = true) :
    Runs (.kettleThreshold k v) s (kettleOver k v (kettleRead k v s)) :=
  congrArg _ (if_pos (kettleRead_tripped.trans h))
theorem kettleThreshold_judges (h : (kettleRead k v s).power.tripped = false) :
    Runs (.kettleThreshold k v) s (kettleOver k v (kettleJudge k (kettleRead k v s))) :=
  congrArg _ (if_neg (Bool.eq_false_iff.1 h))

theorem kettleRestart_cold (ht : s.power.tripped = true) (hc : ((liveTemps s.power.regs).all (· < 10000)) = true) :
    Runs .kettleRestart s (assertCold 0x08 s) := congrArg _ (if_pos (by rw [ht, hc]; decide))
theorem kettleRestart_waits (ht : s.power.tripped = false) : Runs .kettleRestart s s :=
  congrArg _ (if_neg (by rw [ht, Bool.false_and]; decide))

/-- The thresholds no longer watch sensor k. -/
def excludeSensor (k : Fin 12) (s : State) : State :=
  modPowerRegs (fun r => { r with sensorExcluded := r.sensorExcluded ||| ((1 : BitVec 12) <<< k.val), sensorSeen := true }) s
/-- The thresholds watch sensor k again. -/
def readmitSensor (k : Fin 12) (s : State) : State :=
  modPowerRegs (fun r => { r with sensorExcluded := r.sensorExcluded &&& ~~~((1 : BitVec 12) <<< k.val) }) s

theorem sensorBit_self (k : Fin 12) : ((1 : BitVec 12) <<< k.val).getLsbD k.val = true := by
  simp [k.isLt]
theorem excludeSensor_bit : (excludeSensor k s).power.regs.sensorExcluded.getLsbD k.val = true := by
  have hmask : (excludeSensor k s).power.regs.sensorExcluded = s.power.regs.sensorExcluded ||| (1 : BitVec 12) <<< k.val := rfl
  rw [hmask, BitVec.getLsbD_or, sensorBit_self, Bool.or_true]
theorem readmitSensor_bit : (readmitSensor k s).power.regs.sensorExcluded.getLsbD k.val = false := by
  have hmask : (readmitSensor k s).power.regs.sensorExcluded
    = s.power.regs.sensorExcluded &&& ~~~((1 : BitVec 12) <<< k.val) := rfl
  rw [hmask, BitVec.getLsbD_and, BitVec.getLsbD_not, sensorBit_self, Bool.not_true, Bool.and_false, Bool.and_false]

theorem kettleSensorFault_waits (h : s.power.regs.sensorExcluded.getLsbD k.val = true
    ∨ (tempSound s.power.regs.temp[k] = true ∧ sensorStuck k s = false)) : Runs (.kettleSensorFault k) s s := by
  refine congrArg _ (if_pos ?_)
  rwa [Bool.or_eq_true, Bool.and_eq_true, Bool.not_eq_true']
theorem kettleSensorFault_excludes (ho : s.power.regs.sensorExcluded.getLsbD k.val = false)
    (h : tempSound s.power.regs.temp[k] = false ∨ sensorStuck k s = true) : Runs (.kettleSensorFault k) s
      (kettleJudge k (note Ev.kettleSensorFault srcMgmt (natWord k.val) 0 0 (excludeSensor k s))) := by
  refine congrArg _ (if_neg ?_)
  rw [ho, Bool.false_or, Bool.not_eq_true, Bool.and_eq_false_iff, Bool.not_eq_false']
  exact h
theorem kettleSensorPlausible_readmits (ho : s.power.regs.sensorExcluded.getLsbD k.val = true)
    (hst : sensorStuck k s = false) (hp : (s.power.soundAt[k].any fun t => hasPassed t 10000000000 s) = true) :
    Runs (.kettleSensorPlausible k) s (kettleJudge k (readmitSensor k s)) := by
  refine congrArg _ (if_pos ?_)
  rw [ho, hst, hp]
  decide
theorem kettleSensorPlausible_waits (h : s.power.regs.sensorExcluded.getLsbD k.val = false ∨ sensorStuck k s = true
    ∨ (s.power.soundAt[k].any fun t => hasPassed t 10000000000 s) = false) : Runs (.kettleSensorPlausible k) s s := by
  refine congrArg _ (if_neg ?_)
  rwa [Bool.not_eq_true, Bool.and_eq_false_iff, Bool.and_eq_false_iff, Bool.not_eq_false', or_assoc]

end

section
variable {s : State}

/-- The tiles of the axes still enabled vent. -/
def ventEnabled (s : State) : State :=
  (List.finRange 16).foldl (fun s t => if s.axes[tileAxis t].enabled then ventTile t 1 s else s) s
/-- Every engine stops but those that load, and Kettle is GATED. -/
def gateEngines (s : State) : State :=
  modPowerRegs (fun r => { r with kettleState := 3 })
    { s with engines := s.engines.map fun en => if en.regs.leState = 1 then en else holdEngine en }

theorem gateEngines_engine (e : Fin 32) : (gateEngines s).engines[e]
    = if s.engines[e].regs.leState = 1 then s.engines[e] else holdEngine s.engines[e] :=
  Vector.getElem_map ..

theorem gateEngines_frame : { gateEngines s with engines := s.engines, power := s.power } = s := rfl

theorem kettleStopTimeout_waits (h : s.power.regs.kettleState ≠ 2 ∨ hasPassed s.power.warnAt 200000000 s = false) :
    Runs .kettleStopTimeout s s := by
  refine congrArg _ (if_pos ?_)
  rwa [Bool.or_eq_true, decide_eq_true_eq, Bool.not_eq_true']
theorem kettleStopTimeout_gates (hk : s.power.regs.kettleState = 2) (hp : hasPassed s.power.warnAt 200000000 s = true) :
    Runs .kettleStopTimeout s (gateEngines (ventEnabled s)) := by
  have hexec : exec .kettleStopTimeout s = execKettleStopTimeout s := rfl
  rw [Runs, hexec, execKettleStopTimeout, if_neg (by rw [hk, hp]; decide)]
  rfl

theorem kettleResumed_reloads (hk : s.power.regs.kettleState = 3)
    (hc : (s.power.coolAt.any fun t => hasPassed t 10000000000 s) = true) : Runs .kettleResumed s
      (note Ev.kettleResumed srcMgmt 0 0 0 (reloadEngines (modPowerRegs (fun r => { r with kettleState := 0 }) s))) := by
  have hexec : exec .kettleResumed s = execKettleResumed s := rfl
  rw [Runs, hexec, execKettleResumed, if_pos (by rw [hk, hc]; decide)]
theorem kettleResumed_waits (h : s.power.regs.kettleState ≠ 3
    ∨ (s.power.coolAt.any fun t => hasPassed t 10000000000 s) = false) : Runs .kettleResumed s s := by
  refine congrArg _ (if_neg ?_)
  rwa [Bool.not_eq_true, Bool.and_eq_false_iff, decide_eq_false_iff_not]

end

/-- Settles O54: each condition is the one that its command tests. That the warning's threshold is 16.8 V is log entry 141, that
the reply to HIBERNATE waits for a running save log entry 45, that 135 degrees trip as the trip pin does log entry 43, that
engines in LOADING stay as they are log entry 44, and that nothing happens otherwise the model's choice (log entry 17). -/
theorem supplyAndKettleProtectTheModule : Obligations.SupplyAndKettleProtectTheModule := by
  unfold Obligations.SupplyAndKettleProtectTheModule
  refine ⟨fun us mv c s => ?supply, fun k v s => ?kettle⟩
  case supply =>
    refine ⟨vaultSaveComplete_idle us,
      fun hs => ⟨⟨saveEnded true c s, vaultSaveComplete_cut us hs, putCopy_saving .., rfl, putCopy_target ..,
          saveEnded_frame ..⟩,
        ⟨saveKept us c s, putCopy_saving .., rfl, rfl, rfl, saveKept_frame .., putCopy_target ..,
          vaultSaveComplete_whole us hs⟩⟩,
      powerFailWarn_ignored, powerFailWarn_saves, powerRestored_waits,
      fun ha hh => ⟨supplyBack s, powerRestored_back ha hh, rfl, rfl, rfl⟩, rfl, hibernateEnter_off, hibernateEnter_waits,
      tempCompUpdate_runs s, fun ho hl w hw => ?overload, v3aOverload_waits,
      v3aOverloadEnd_ends, v3aOverloadEnd_waits⟩
    case overload =>
      subst hw
      exact v3aOverload_taken ho hl
  case kettle =>
    refine ⟨kettleThreshold_tripped, fun w hw ht => ?judges, rfl, kettleRestart_cold, kettleRestart_waits,
      kettleSensorFault_waits, fun ho h => ⟨excludeSensor k s, excludeSensor_bit, rfl, rfl, kettleSensorFault_excludes ho h⟩,
      fun ho hst hp => ⟨readmitSensor k s, readmitSensor_bit, rfl, kettleSensorPlausible_readmits ho hst hp⟩,
      kettleSensorPlausible_waits, kettleStopTimeout_waits, fun hk hp w hw => ?gates, kettleResumed_reloads,
      kettleResumed_waits⟩
    case judges =>
      subst hw
      exact kettleThreshold_judges ht
    case gates =>
      have hrun := kettleStopTimeout_gates hk hp
      rw [ventEnabled, ← hw] at hrun
      exact ⟨gateEngines w, hrun, rfl, gateEngines_frame, gateEngines_engine⟩

end Sys2Proof.Machine
end
